-- ==== Sys2Proof/Word.lean ====
section
/-! DEFINITION. The byte and byte-string types, and the fixed-length tables the state is made of. -/

namespace Sys2Proof

/-- One byte. -/
abbrev Byte := BitVec 8

/-- A byte string, first byte first. -/
abbrev Bytes := List Byte

/-- Data kept by key in one canonical form: keys strictly rising, no entry equal to the value an
unlisted key reads as (see `Sys2Proof/Machine/Sparse.lean`). -/
abbrev Sparse (α : Type) := List (Nat × α)

end Sys2Proof
end

