-- ==== Sys2Proof/Syntax.lean ====
section
/-! DEFINITION. The commands: one constructor of `Instr` for each row of spec/opcode_table.json, with
the row's operands. A command that the manual binds to an instant carries the house time `t` in ns. -/

namespace Sys2Proof

/-- The 24-byte trailer of an authenticated datagram (R370): session id, counter, first 16 bytes of the tag. -/
structure Trailer where
  session : Nat
  counter : Nat
  tag     : Nat
  deriving DecidableEq, Repr, Inhabited

/-- What an acyclic ODP request carries beside its object (R360, R361): whether frame and datagram are
well formed, the generation, the sender, the target field, the request id, and the trailer if flag [6]
is set; `t` is the house time at which the module receives it, and `udp` says that it came over UDP, whose sender is
an IPv6 address and a port. -/
structure Req where
  wellFormed : Bool
  gen        : Nat
  source     : Nat
  target     : Nat
  reqId      : Nat
  trailer    : Option Trailer
  t          : Nat
  udp        : Bool := false
  deriving DecidableEq, Repr, Inhabited

/-- The monitored rails (R484): the eleven of 0x9805, and the sixteen array rails. -/
inductive Rail where
  | vbus | v3p3 | vcg | vcore | vsram | vserdes | vserdesh | vio | vpp | vdd2 | vddq
  | visl (a : Fin 16)
  deriving DecidableEq, Repr

/-- The three switched bypasses (R22, R484): the two in-line curtain pairs and the management-ring bypass. -/
inductive Bypass where
  | pair01 | pair23 | ring
  deriving DecidableEq, Repr

/-- What REF_IN shows (R501, 0x240B). -/
inductive RefSignal where
  | absent | valid | outOfRange
  deriving DecidableEq, Repr

/-- The causes of a FAULT entry that have no command of their own (R20, R272, R419). -/
inductive FaultCause where
  | dramUncorrectable (channel : Fin 64) (bank row : Nat)
  | stageSramUncorrectable (address : Nat)
  | firmwareWatchdog (core : Fin 4)
  deriving DecidableEq, Repr

/-- A frame on the management ring: its 16-byte header (R360), and the bytes after it. `ethertype` is
0x88B5 for ODP; IPv6 frames (0x86DD) are forwarded too (R354). -/
structure RingFrame where
  ethertype : Nat
  gen       : Nat
  kind      : Nat
  west      : Bool
  hop       : Nat
  source    : Nat
  sequence  : Nat
  index     : Nat
  body      : Bytes
  deriving DecidableEq, Repr, Inhabited

/-- Which of the two accession series (R279). -/
inductive AccKind where
  | rule | model
  deriving DecidableEq, Repr

/-- What a DRAM die reports with a read (R269). -/
inductive EccReport where
  | clean | corrected | uncorrectable (bank row : Nat)
  deriving DecidableEq, Repr

/-- The units that hold digest engines (R405): each array, each tree bank, the feature front. -/
inductive DigestUnit where
  | array (a : Fin 16) | bank (b : Fin 4) | front
  deriving DecidableEq, Repr

/-- What the two checkers see in the ARITH cycle of a cue (R210, R211, R410): nothing, the understudy
differing in the named item, or, under full redundancy, the two prompters of a pair presenting an
external cue that differs. -/
inductive CueCheck where
  | agree
  | understudy (item : Nat)
  | lockstepCue
  deriving DecidableEq, Repr

/-- A difference between the drained rows of a lockstep pair (R411, R412): the first output row that
differs, the odd array's version of it, and whether the digests of the two wings differ. -/
structure RowDiff where
  row        : Nat
  oddVersion : Bytes
  wingsDiffer : Bool
  deriving DecidableEq, Repr

/-- How an array island's fault or a peer shows itself at a link's coming up (R329): what the other end
sends. -/
structure Peer where
  module   : Nat
  port     : Nat
  bays     : Nat
  serial   : Nat
  deriving DecidableEq, Repr

/-- The causes of a fabric link failure (R350). -/
inductive LinkFail where
  | lockLost | quiet | retries16 | retries1000
  deriving DecidableEq, Repr

/-- The content of a flit (R326, R343). -/
structure Flit where
  dest     : Nat
  source   : Nat
  edge     : Bool
  vc       : Fin 4
  age      : Nat
  linkSeq  : Nat
  payload  : Bytes
  /-- Flit type and operation, as their codes stand in the header, the operation's length, the offset, and the chunk's offset. -/
  type     : Nat
  op       : Nat
  length   : Nat
  offset   : Nat
  chunk    : Nat
  deriving DecidableEq, Repr

/-- One entry of a link-state flit (R350): the originating module, its serial number, when its first
link came up, its announced non-fabric clock source, and its working links to other modules. -/
structure LinkState where
  module     : Nat
  serial     : Nat
  firstUp    : Nat
  announces  : Bool
  neighbours : List Nat
  /-- Edge module number, 0xFFFF when unset (R333). -/
  edge       : Nat
  deriving DecidableEq, Repr

/-- The reply the fabric brings for an outstanding call slip (R335, R336): status and, where the
operation returns data, that data. -/
structure SlipReply where
  status : Nat
  data   : Bytes
  deriving DecidableEq, Repr

/-- A remote operation's requester (R332, R333): source module and the edge bit. -/
structure Requester where
  module : Nat
  edge   : Bool
  deriving DecidableEq, Repr

/-- A doorbell (R243, R244): n added to a cue light, or a trigger fired with a parameter. -/
inductive Doorbell where
  | light (l n : Nat)
  | trigger (t param : Nat)
  deriving DecidableEq, Repr

/-- The commands of the block: the rows of spec/opcode_table.json, in its order. -/
inductive Instr where
  -- power, pins and device state
  | inputBelowRange (mv t : Nat)
  | inputValid (mv t : Nat)
  | inputOvervoltage (mv t : Nat)
  | inputVoltageEvent (mv t : Nat)
  | resetNAsserted (lowNs t : Nat)
  | coldReset (t : Nat)
  | resetToBoot (t : Nat)
  | bootComplete (t : Nat)
  | ringJoin (up0 up1 : Bool) (t : Nat)
  | ringJoinTimeout (t : Nat)
  | railOutOfTolerance (rail : Rail) (mv : Int) (t : Nat)
  | droopDetected (region : Fin 17) (t : Nat)
  | droopRecovered (region : Fin 17) (t : Nat)
  | thermalEvaluation (hottest : Int) (t : Nat)
  | thermalLimit (sensor : Fin 29) (temp : Int) (t : Nat)
  | dramRefreshAdjust (die : Fin 8) (temp : Int) (t : Nat)
  | ppsInEdge (t : Nat)
  | refInChange (sig : RefSignal) (t : Nat)
  | faultEntry (cause : FaultCause) (t : Nat)
  | faultReset (t : Nat)
  | arrayIslandFault (a : Fin 16) (source t : Nat)
  | stateRequestPrepare (r : Req)
  | drainExitComplete (t : Nat)
  | drainExitTimeout (t : Nat)
  | stateRequestRun (r : Req)
  | curtainOpen (t : Nat)
  | curtainSwitchComplete (b : Bypass) (t : Nat)
  | stateRequestDrain (r : Req)
  | stateRequestTest (r : Req)
  | testComplete (pass : Bool) (pattern chains t : Nat)
  | resetRequest (r : Req)
  -- management ring
  | mgmtLinkDown (i : Fin 2) (t : Nat)
  | mgmtLinkUp (i : Fin 2) (rate t : Nat)
  | ringFrameReceived (i : Fin 2) (f : RingFrame) (t : Nat)
  | cycleFrameExchange (i : Fin 2) (f : RingFrame) (t : Nat)
  | cycleSend (t : Nat)
  | outputImageLatch (t : Nat)
  | inputImageApply (t : Nat)
  | missedCycle (t : Nat)
  -- the dictionary protocol
  | read (r : Req) (idx sub : Nat)
  | write (r : Req) (idx sub : Nat) (data : Bytes)
  | openSession (r : Req) (key nonce slot : Nat)
  | auth (r : Req) (sid sig : Nat)
  | close (r : Req)
  | sessionExpiry (sid t : Nat)
  | downloadInit (r : Req) (idx sub size sha seg win : Nat)
  | segment (r : Req) (tid offset : Nat) (data : Bytes)
  | ack (r : Req) (tid offset : Nat)
  | ackTimer (tid t : Nat)
  | downloadEnd (r : Req) (tid : Nat)
  | uploadInit (r : Req) (idx sub win : Nat)
  | uploadEnd (r : Req) (tid : Nat)
  | transferAbort (r : Req) (tid code : Nat)
  | transferTimeout (tid t : Nat)
  | imageLoadCheck (slot : Fin 16) (t : Nat)
  | firmwareSlotVerify (slot : Fin 2) (t : Nat)
  | scanContentVerify (t : Nat)
  | ruleCommit (r : Req) (acc : Nat)
  | modelCommit (r : Req) (acc : Nat)
  | commitCancel (r : Req) (kind : AccKind)
  | commitTakesEffect (t : Nat)
  | accessionRetire (kind : AccKind) (t : Nat)
  | retirementOverdue (kind : AccKind) (t : Nat)
  | forceRetireModel (r : Req)
  | forceRetireRule (r : Req)
  | stageRequest (r : Req) (slot : Fin 16) (mode : Nat)
  | stagingComplete (slot : Fin 16) (t : Nat)
  | installListStart (a : Fin 16) (t : Nat)
  | installComplete (a : Fin 16) (t : Nat)
  | erase (r : Req) (slot : Fin 16)
  | regionCommit (r : Req)
  | cyclicCommit (r : Req)
  | discardStaged (r : Req) (bits : Nat)
  | saveConfiguration (r : Req)
  | saveComplete (t : Nat)
  | restoreDefaults (r : Req)
  | ringMasterRoleWrite (r : Req) (v : Nat)
  | clockSourceWrite (r : Req) (v : Nat)
  | evtOutFunctionWrite (r : Req) (sub v : Nat)
  | ringStorageWrite (r : Req) (a ring : Fin 16) (sub v : Nat)
  | queueBindingWrite (r : Req) (idx sub v : Nat)
  | shaperWrite (r : Req) (idx sub v : Nat)
  | holdPoolShareApply (t : Nat)
  | hostKeySlotWrite (r : Req) (k : Fin 8) (key : Nat)
  -- line ports, intake, catalogue, trees, tap, egress
  | linkUp (p : Fin 4) (t : Nat)
  | frameReceived (p : Fin 4) (bytes : Bytes) (fcsGood : Bool) (t : Nat)
  | frameSequenced (p : Fin 4) (cycle t : Nat)
  | packetClassified (t : Nat)
  | ecpriStreamExpire (p : Fin 4) (msgType id t : Nat)
  | catalogueLookup (t : Nat)
  | bucketFetchComplete (pid t : Nat)
  | sweeperVisit (t : Nat)
  | rehashRequest (r : Req)
  | migrationVisit (t : Nat)
  | probe (r : Req)
  | probeDelete (r : Req)
  | catalogueClear (r : Req)
  | treeVectorEntry (pipe : Fin 4) (cycle t : Nat)
  | treeVerdict (b : Fin 4) (t : Nat)
  | treeBankTimeout (b : Fin 4) (t : Nat)
  | tapRowsWritten (pipe : Fin 4) (t : Nat)
  | reorderRelease (p : Fin 4) (t : Nat)
  | reorderTimeout (p : Fin 4) (t : Nat)
  | schedulerSelect (p : Fin 4) (t : Nat)
  | frameTransmitted (p : Fin 4) (t : Nat)
  | neuralVerdictApply (t : Nat)
  | holdTimeout (pid t : Nat)
  -- prompters: lists
  | listStart (a : Fin 16) (t : Nat)
  | preEmption (a : Fin 16) (t : Nat)
  | urgentPreEmption (a : Fin 16) (t : Nat)
  | listResume (a : Fin 16) (t : Nat)
  | skewResume (a : Fin 16) (t : Nat)
  -- prompters: cues
  | nop (a : Fin 16) (c : CueCheck) (t : Nat)
  | shelve (a : Fin 16) (c : CueCheck) (t : Nat)
  | stage (a : Fin 16) (c : CueCheck) (t : Nat)
  | stream (a : Fin 16) (c : CueCheck) (t : Nat)
  | streamComplete (a : Fin 16) (bubbles starveA starveB t : Nat)
  | drain (a : Fin 16) (c : CueCheck) (diff : Option RowDiff) (t : Nat)
  | drainComplete (a : Fin 16) (stall t : Nat)
  | arbitrationComplete (a : Fin 16) (row : Bytes) (t : Nat)
  | arbitrationTimeout (a : Fin 16) (t : Nat)
  | swap (a : Fin 16) (c : CueCheck) (t : Nat)
  | tapFlush (a : Fin 16) (c : CueCheck) (t : Nat)
  | tapRelease (a : Fin 16) (c : CueCheck) (t : Nat)
  | emitVerdict (a : Fin 16) (c : CueCheck) (t : Nat)
  | emitTensor (a : Fin 16) (c : CueCheck) (t : Nat)
  | emitMarker (a : Fin 16) (c : CueCheck) (t : Nat)
  | callslip (a : Fin 16) (c : CueCheck) (t : Nat)
  | slipComplete (opId : Nat) (reply : SlipReply) (t : Nat)
  | operationTimeout (opId t : Nat)
  | wait (a : Fin 16) (c : CueCheck) (t : Nat)
  | waitComplete (light : Fin 2048) (t : Nat)
  | signal (a : Fin 16) (c : CueCheck) (t : Nat)
  | cueLightSignal (r : Req) (light : Fin 2048) (v : Nat)
  | cueLightTriggerFire (trig : Fin 512) (t : Nat)
  | fence (a : Fin 16) (c : CueCheck) (t : Nat)
  | fenceComplete (a : Fin 16) (t : Nat)
  | loop (a : Fin 16) (c : CueCheck) (t : Nat)
  | endloop (a : Fin 16) (c : CueCheck) (t : Nat)
  | call (a : Fin 16) (c : CueCheck) (t : Nat)
  | ret (a : Fin 16) (c : CueCheck) (t : Nat)
  | restart (a : Fin 16) (c : CueCheck) (t : Nat)
  | mark (a : Fin 16) (c : CueCheck) (t : Nat)
  | unmark (a : Fin 16) (c : CueCheck) (t : Nat)
  | hold (a : Fin 16) (c : CueCheck) (t : Nat)
  | holdComplete (a : Fin 16) (t : Nat)
  | postCue (r : Req) (a ring : Fin 16) (cue : Bytes)
  | fire (r : Req) (trig : Fin 512) (v : Nat)
  | clockTriggerFire (trig : Fin 512) (t : Nat)
  | doorbellReceived (src : Nat) (d : Doorbell) (t : Nat)
  | pendingFiringAppend (trig : Fin 512) (t : Nat)
  | governorAdmit (cycle t : Nat)
  | rampUpComplete (a : Fin 16) (t : Nat)
  | rampDownStart (a : Fin 16) (gap t : Nat)
  | rampDownComplete (a : Fin 16) (t : Nat)
  | clearFallback (r : Req)
  -- fabric and house clock
  | fabLinkUp (f : Fin 16) (peer : Peer) (t : Nat)
  | fabLinkFailed (f : Fin 16) (cause : LinkFail) (t : Nat)
  | flitReceived (f : Fin 16) (flit : Flit) (crcGood fecGood : Bool) (t : Nat)
  | linkStateUpdate (l : LinkState) (t : Nat)
  | remoteRead (src : Requester) (offset len t : Nat)
  | remoteWrite (src : Requester) (offset : Nat) (data : Bytes) (t : Nat)
  | remoteFetchAdd (src : Requester) (offset addend t : Nat)
  | remoteCompareSwap (src : Requester) (offset cmp swp t : Nat)
  | timestampExchange (f : Fin 16) (offset : Int) (hops grandmaster t : Nat)
  | holdover (t : Nat)
  | grandmasterElection (t : Nat)
  | sourceConflict (other t : Nat)
  -- stacks
  | patrolRead (rep : EccReport) (t : Nat)
  | imbalanceWindow (occupancy : List Nat) (t : Nat)
  | fabricResidualCheck (t : Nat)
  | peek (r : Req)
  -- reliability
  | scrubPassStart (t : Nat)
  | scrubPassEnd (u : DigestUnit) (bad : List Nat) (t : Nat)
  | clearReplacementFlag (r : Req)
  | scanRequest (r : Req) (mask : Nat)
  | fieldScanStart (a : Fin 16) (t : Nat)
  | fieldScanComplete (a : Fin 16) (pass : Bool) (pattern chains t : Nat)
  -- observability
  | samplingStrobe (t : Nat)
  | hostMark (r : Req) (id : Nat)
  | hostUnmark (r : Req) (id : Nat)
  | hangDeclared (a : Fin 16) (t : Nat)
  | freezeRequest (r : Req) (at_ : Nat)
  | freeze (t : Nat)
  | dumpWritten (t : Nat)
  | hangDumpClear (r : Req)
  -- trust
  | ownerKeyHashConfirm (r : Req) (hash : Nat)
  | enforcementProgram (r : Req) (mask : Nat)
  | raiseCounter (r : Req) (c : Nat)
  | activateFirmwareSlot (r : Req) (slot : Nat)
  | confirmFirmware (r : Req)
  | attestationNonce (r : Req) (nonce : Nat)
  | attestationReportReady (t : Nat)
  | debugToken (r : Req) (token : Bytes)
  | debugRelock (r : Req)
  -- later additions of the table
  | linkDown (p : Fin 4) (t : Nat)
  | stageComplete (a : Fin 16) (t : Nat)
  | shelveComplete (a : Fin 16) (t : Nat)
  | emitComplete (a : Fin 16) (t : Nat)
  | doorbellAccepted (opId t : Nat)
  | resetNRises (t : Nat)
  | ppsOutput (t : Nat)
  | evtOutPulseEnd (t : Nat)
  | debugPortInstruction (ins : Nat)
  deriving DecidableEq, Repr

end Sys2Proof
end

