-- ==== Sys2Proof/Machine/Bits.lean ====
section
/-! DEFINITION. Bit fields, two's complement, and byte orders (R11). -/

namespace Sys2Proof.Bits

/-- Bits [hi:lo] of `v`. -/
def fld (v hi lo : Nat) : Nat := v / 2 ^ lo % 2 ^ (hi + 1 - lo)

/-- Bit `i` of `v`. -/
def bit (v i : Nat) : Bool := Nat.testBit v i

/-- `v` with bits [hi:lo] replaced by `x`. -/
def setFld (v hi lo x : Nat) : Nat :=
  v - fld v hi lo * 2 ^ lo + x % 2 ^ (hi + 1 - lo) * 2 ^ lo

/-- A `w`-bit two's complement number as an integer. -/
def toInt (w v : Nat) : Int :=
  let u := v % 2 ^ w
  if u < 2 ^ (w - 1) then (u : Int) else (u : Int) - (2 ^ w : Nat)

/-- An integer as a `w`-bit two's complement number. -/
def ofInt (w : Nat) (x : Int) : Nat := (x % ((2 ^ w : Nat) : Int)).toNat

/-- The number a little-endian byte string spells. -/
def leNat : Bytes → Nat
  | [] => 0
  | b :: bs => b.toNat + 256 * leNat bs

/-- `n` bytes of `v`, little-endian. -/
def natLe : Nat → Nat → Bytes
  | 0, _ => []
  | n + 1, v => BitVec.ofNat 8 v :: natLe n (v / 256)

/-- The number a big-endian byte string spells. -/
def beNat (bs : Bytes) : Nat := bs.foldl (fun a b => a * 256 + b.toNat) 0

/-- `n` bytes of `v`, big-endian. -/
def natBe (n v : Nat) : Bytes := (natLe n v).reverse

/-- `n` bytes of `bs` from offset `o`, zero beyond its end. -/
def slice (bs : Bytes) (o n : Nat) : Bytes :=
  let x := (bs.drop o).take n
  x ++ List.replicate (n - x.length) 0

/-- A little-endian number of `n` bytes at offset `o`. -/
def le (bs : Bytes) (o n : Nat) : Nat := leNat (slice bs o n)

/-- A big-endian number of `n` bytes at offset `o`. -/
def be (bs : Bytes) (o n : Nat) : Nat := beNat (slice bs o n)

/-- The byte string with `x` written at offset `o`. -/
def patch (bs : Bytes) (o : Nat) (x : Bytes) : Bytes := bs.take o ++ x ++ bs.drop (o + x.length)

/-- `width` bits of `bs` from bit offset `o`, counted from the most significant bit of byte 0. -/
def bits (bs : Bytes) (o width : Nat) : Nat :=
  let first := o / 8
  let n := (o % 8 + width + 7) / 8
  be bs first n / 2 ^ (8 * n - o % 8 - width) % 2 ^ width

/-- Number of one bits among the low `n` bits. -/
def ones : Nat → Nat → Nat
  | 0, _ => 0
  | n + 1, v => v % 2 + ones n (v / 2)

/-- Even-parity bit over the low `n` bits: their exclusive or. -/
def parity (n v : Nat) : Nat := ones n v % 2

/-- Exclusive or of naturals, bit by bit. -/
def nxor (a b : Nat) : Nat := Nat.xor a b

/-- Smallest multiple of `m` that is at least `n`. -/
def roundUp (n m : Nat) : Nat := (n + m - 1) / m * m

end Sys2Proof.Bits
end

