-- ==== Sys2Proof/Machine/Hash.lean ====
section
/-! DEFINITION. SHA-256 and HMAC-SHA-256 (R282, R370, R404, R448) and CRC-32C (R335, R343): the standards
that the manual names; TRUST chapter: all digests are SHA-256. -/

namespace Sys2Proof.Hash

open Sys2Proof.Bits

/-- Largest `r` whose power `k` does not exceed `n`, found bit by bit from bit `b` down over the bits `r`
already has. -/
def rootBits (k n : Nat) : Nat → Nat → Nat
  | 0, r => r
  | b + 1, r => rootBits k n b (if (r + 2 ^ b) ^ k ≤ n then r + 2 ^ b else r)

/-- The first 32 bits of the fractional part of the root `k` of `n`: where SHA-256 takes all its constants from. -/
def rootFraction (k n : Nat) : Nat := rootBits k (n * 2 ^ (32 * k)) 40 0 % 2 ^ 32

/-- The primes up to 311, 64 in number. -/
def primes : List Nat :=
  (List.range 312).filter fun p => decide (2 ≤ p) && (List.range p).all fun d => d < 2 || p % d != 0

/-- What each round adds beside its schedule word: from the cube roots of the primes. -/
def roundConstants : List Nat := primes.map (rootFraction 3)

/-- A 32-bit word turned right by `n`. -/
def turn (n x : Nat) : Nat := x >>> n ||| (x <<< (32 - n)) % 2 ^ 32

/-- Exclusive or of the word turned by each of `ns`, and of `last`. -/
def turns (ns : List Nat) (last x : Nat) : Nat := ns.foldl (fun acc n => acc ^^^ turn n x) last

/-- The message schedule, newest word first: each step adds one word to at least sixteen. -/
def schedule : Nat → List Nat → List Nat
  | 0, w => w
  | n + 1, w =>
    let old (i : Nat) : Nat := w.getD (i - 1) 0
    schedule n
      ((turns [17, 19] (old 2 / 2 ^ 10) (old 2) + old 7 + turns [7, 18] (old 15 / 2 ^ 3) (old 15) + old 16)
        % 2 ^ 32 :: w)

/-- What the rounds carry: the last four words of each of two sequences, newest first. In round t the
sequence `x` gains its word from its own last three, and `y` from the word of `x` four rounds back. -/
structure Mix where
  x : List Nat
  y : List Nat
  deriving DecidableEq, Repr

/-- The initial value: square roots of the first eight primes. -/
def mixInit : Mix :=
  let h := (primes.take 8).map (rootFraction 2)
  ⟨h.take 4, h.drop 4⟩

/-- One round with round constant plus schedule word `kw`. -/
def mixRound (m : Mix) (kw : Nat) : Mix :=
  match m.x, m.y with
  | [x1, x2, x3, x4], [y1, y2, y3, y4] =>
    let add := y4 + turns [6, 11, 25] 0 y1 + (y1 &&& y2 ^^^ (2 ^ 32 - 1 - y1) &&& y3) + kw
    let most := x1 &&& (x2 ||| x3) ||| x2 &&& x3
    ⟨[(add + turns [2, 13, 22] 0 x1 + most) % 2 ^ 32, x1, x2, x3], [(x4 + add) % 2 ^ 32, y1, y2, y3]⟩
  | _, _ => m

/-- One block of 64 bytes: 64 rounds, whose result is added word by word. -/
def mixBlock (m : Mix) (block : Bytes) : Mix :=
  let first := (List.range 16).map fun i => be block (4 * i) 4
  let kws := List.zipWith (· + ·) roundConstants (schedule 48 first.reverse).reverse
  let r := kws.foldl mixRound m
  let sum := List.zipWith fun a b : Nat => (a + b) % 2 ^ 32
  ⟨sum m.x r.x, sum m.y r.y⟩

/-- SHA-256 of a byte string, 32 bytes: a one bit, zeros and the length in bits fill the last block. -/
def sha256 (m : Bytes) : Bytes :=
  let full := m ++ 0x80 :: List.replicate ((119 - m.length % 64) % 64) 0 ++ natBe 8 (8 * m.length)
  let r := (List.range (full.length / 64)).foldl (fun s i => mixBlock s (slice full (64 * i) 64)) mixInit
  (r.x ++ r.y).flatMap (natBe 4)

/-- HMAC-SHA-256. -/
def hmac (key m : Bytes) : Bytes :=
  let k0 := if key.length > 64 then sha256 key else key
  let k := k0 ++ List.replicate (64 - k0.length) 0
  sha256 (k.map (· ^^^ 0x5c) ++ sha256 (k.map (· ^^^ 0x36) ++ m))

/-- Eight steps of the reflected CRC-32C division. -/
def crcByte : Nat → BitVec 32 → BitVec 32
  | 0, c => c
  | n + 1, c => crcByte n (if c.getLsbD 0 then (c >>> 1) ^^^ 0x82f63b78 else c >>> 1)

/-- CRC-32C of a byte string. -/
def crc32c (m : Bytes) : BitVec 32 :=
  ~~~(m.foldl (fun c b => crcByte 8 (c ^^^ b.zeroExtend 32)) 0xffffffff)

/-- A digest as the number its little-endian object holds. -/
def digest (m : Bytes) : Nat := leNat (sha256 m)

end Sys2Proof.Hash
end

