-- ==== Sys2Proof/Machine/Flags.lean ====
section
/-! DEFINITION. The exception flags NV, OF, SA, UF (chapter Number formats, Exceptions; R133, R134). -/

namespace Sys2Proof

/-- The four flags: invalid, overflow, saturation, underflow. -/
structure Exc where
  nv  : Bool := false
  ovf : Bool := false
  sat : Bool := false
  unf : Bool := false
  deriving DecidableEq, Repr, Inhabited

/-- No flag. -/
def Exc.none : Exc := {}

/-- The flags of both. -/
def Exc.or (x y : Exc) : Exc := ⟨x.nv || y.nv, x.ovf || y.ovf, x.sat || y.sat, x.unf || y.unf⟩

/-- The flag byte of 0x5060+a:01 and of the completion record: [3] UF, [2] SA, [1] OF, [0] NV. -/
def Exc.byte (x : Exc) : Nat :=
  (if x.nv then 1 else 0) + (if x.ovf then 2 else 0) + (if x.sat then 4 else 0) + (if x.unf then 8 else 0)

end Sys2Proof
end

