-- ==== Sys2Proof/Machine/Num.lean ====
section
/-! DEFINITION. Number formats and arithmetic (05_numbers.md): layouts, exact values, rounding, the
feeder's and the drain's conversions that need no scale (R115 to R131). -/

namespace Sys2Proof.Num

open Sys2Proof.Bits

/-- The sixteen fmt codes of R115; 0xF is reserved and has no constructor. -/
inductive Fmt where
  | int8 | uint8 | int16 | int4 | e4m3 | e5m2 | fp16 | bf16 | fp19 | fp32 | fp64 | bg4 | tg8 | bfpiq | ci16
  deriving DecidableEq, Repr, Inhabited

/-- The format a 4-bit code names (R115). -/
def Fmt.ofCode : Nat → Option Fmt
  | 0 => some .int8 | 1 => some .uint8 | 2 => some .int16 | 3 => some .int4
  | 4 => some .e4m3 | 5 => some .e5m2 | 6 => some .fp16 | 7 => some .bf16
  | 8 => some .fp19 | 9 => some .fp32 | 10 => some .fp64 | 11 => some .bg4
  | 12 => some .tg8 | 13 => some .bfpiq | 14 => some .ci16 | _ => none

/-- Stored bits of one element (R115); a complex CI16 element is 32 bits. -/
def Fmt.bits : Fmt → Nat
  | .int8 | .uint8 | .e4m3 | .e5m2 | .tg8 => 8
  | .int4 | .bg4 => 4
  | .int16 | .fp16 | .bf16 | .bfpiq => 16
  | .fp19 | .fp32 | .ci16 => 32
  | .fp64 => 64

/-- The class of a format (R115). -/
inductive Cls where
  | integer | floating | grid | block | complex
  deriving DecidableEq, Repr

/-- R115, last column. -/
def Fmt.cls : Fmt → Cls
  | .int8 | .uint8 | .int16 | .int4 => .integer
  | .e4m3 | .e5m2 | .fp16 | .bf16 | .fp19 | .fp32 | .fp64 => .floating
  | .bg4 | .tg8 => .grid
  | .bfpiq => .block
  | .ci16 => .complex

/-- A floating layout (R116): exponent and fraction bits, bias, zero bits below the fraction in the
container, and whether the all-ones exponent encodes numbers (E4M3). -/
structure FFmt where
  ebits : Nat
  fbits : Nat
  bias  : Nat
  low   : Nat
  e4m3  : Bool
  deriving DecidableEq, Repr

def e4m3 : FFmt := ⟨4, 3, 7, 0, true⟩
def e5m2 : FFmt := ⟨5, 2, 15, 0, false⟩
def fp16 : FFmt := ⟨5, 10, 15, 0, false⟩
def bf16 : FFmt := ⟨8, 7, 127, 0, false⟩
def fp19 : FFmt := ⟨8, 10, 127, 13, false⟩
def fp32 : FFmt := ⟨8, 23, 127, 0, false⟩
def fp64 : FFmt := ⟨11, 52, 1023, 0, false⟩

/-- The floating layout of a floating format. -/
def Fmt.ffmt : Fmt → Option FFmt
  | .e4m3 => some Num.e4m3 | .e5m2 => some Num.e5m2 | .fp16 => some Num.fp16 | .bf16 => some Num.bf16
  | .fp19 => some Num.fp19 | .fp32 => some Num.fp32 | .fp64 => some Num.fp64
  | _ => none

/-- A value: not a number, an infinity, or the exact number (−1)^neg · m · 2^e, zero with its sign. -/
inductive FV where
  | nan
  | inf (neg : Bool)
  | fin (neg : Bool) (m : Nat) (e : Int)
  deriving DecidableEq, Repr, Inhabited

/-- Plus zero. -/
def FV.zero : FV := .fin false 0 0

/-- An exact dyadic number m · 2^e. -/
structure Dy where
  m : Int
  e : Int
  deriving DecidableEq, Repr, Inhabited

/-- `m · 2^e` as a multiple of 2^q, for q at most e. -/
def Dy.align (x : Dy) (q : Int) : Int := x.m * (2 ^ (x.e - q).toNat : Nat)

def Dy.add (x y : Dy) : Dy :=
  let q := Min.min x.e y.e
  ⟨x.align q + y.align q, q⟩

def Dy.neg (x : Dy) : Dy := ⟨-x.m, x.e⟩
def Dy.sub (x y : Dy) : Dy := x.add y.neg
def Dy.mul (x y : Dy) : Dy := ⟨x.m * y.m, x.e + y.e⟩
def Dy.ofInt (i : Int) : Dy := ⟨i, 0⟩
def Dy.abs (x : Dy) : Dy := ⟨(x.m.natAbs : Int), x.e⟩

/-- x ≤ y. -/
def Dy.le (x y : Dy) : Bool :=
  let q := Min.min x.e y.e
  decide (x.align q ≤ y.align q)

/-- x < y. -/
def Dy.lt (x y : Dy) : Bool := !(y.le x)

/-- x · 2^s. -/
def Dy.scale (x : Dy) (s : Int) : Dy := ⟨x.m, x.e + s⟩

/-- The finite value's number; a NaN or an infinity has none (answers 0). -/
def FV.dy : FV → Dy
  | .fin n m e => ⟨if n then -(m : Int) else m, e⟩
  | _ => ⟨0, 0⟩

/-- The value of an exact number; zero comes out with the given sign. -/
def FV.ofDy (zneg : Bool) (x : Dy) : FV :=
  if x.m = 0 then .fin zneg 0 0 else .fin (decide (x.m < 0)) x.m.natAbs x.e

/-- How a conversion rounds: to nearest even, or toward zero (R126). -/
inductive RMode where
  | nearest | truncate
  deriving DecidableEq, Repr

/-- m · 2^s as an integer, rounded, and whether it was inexact. -/
def scaleRound (mode : RMode) (m : Nat) (s : Int) : Nat × Bool :=
  if 0 ≤ s then (m * 2 ^ s.toNat, false)
  else
    let k := (-s).toNat
    let q := m / 2 ^ k
    let r := m % 2 ^ k
    if r = 0 then (q, false)
    else match mode with
      | .truncate => (q, true)
      | .nearest => if 2 * r > 2 ^ k ∨ (2 * r = 2 ^ k ∧ q % 2 = 1) then (q + 1, true) else (q, true)

/-- An exact number rounded to an integer, to nearest even. -/
def Dy.roundEven (x : Dy) : Int :=
  let r := (scaleRound .nearest x.m.natAbs x.e).1
  if x.m < 0 then -(r : Int) else r

/-- Half-up rounding: floor(v + 1/2) (R161). -/
def Dy.roundHalfUp (x : Dy) : Int :=
  if 0 ≤ x.e then x.m * (2 ^ x.e.toNat : Nat)
  else (2 * x.m + (2 ^ (-x.e).toNat : Nat)) / (2 * (2 ^ (-x.e).toNat : Nat))

/-- floor(log2 |x|) of a non-zero number. -/
def Dy.log2 (x : Dy) : Int := (Nat.log2 x.m.natAbs : Int) + x.e

/-- The value of a stored floating code (R115, R116); an FP19 load ignores the container's low bits (R118). -/
def FFmt.decode (f : FFmt) (v : Nat) : FV :=
  let w := f.low + f.fbits + f.ebits
  let neg := bit v w
  let frac := fld v (f.low + f.fbits - 1) f.low
  let ex := fld v (w - 1) (f.low + f.fbits)
  let top := 2 ^ f.ebits - 1
  if ex = top ∧ (!f.e4m3 || frac = 2 ^ f.fbits - 1) then
    (if f.e4m3 ∨ frac ≠ 0 then .nan else .inf neg)
  else if ex = 0 then .fin neg frac (1 - (f.bias : Int) - f.fbits)
  else .fin neg (2 ^ f.fbits + frac) ((ex : Int) - f.bias - f.fbits)

/-- Sign bit of a code. -/
def FFmt.sign (f : FFmt) (neg : Bool) : Nat := if neg then 2 ^ (f.low + f.fbits + f.ebits) else 0

/-- The canonical NaN (R116, R117). -/
def FFmt.nan (f : FFmt) : Nat :=
  if f.e4m3 then 0x7F else ((2 ^ f.ebits - 1) * 2 ^ f.fbits + 2 ^ (f.fbits - 1)) * 2 ^ f.low

/-- The code of an infinity. -/
def FFmt.inf (f : FFmt) (neg : Bool) : Nat := f.sign neg + (2 ^ f.ebits - 1) * 2 ^ (f.fbits + f.low)

/-- The code of the largest finite value (R116). -/
def FFmt.max (f : FFmt) (neg : Bool) : Nat :=
  f.sign neg +
    (if f.e4m3 then 0x7E else ((2 ^ f.ebits - 2) * 2 ^ f.fbits + 2 ^ f.fbits - 1) * 2 ^ f.low)

/-- The result of a rounded magnitude beyond the largest finite, or of an infinite source (R129, R130). -/
def FFmt.beyond (f : FFmt) (neg sat : Bool) : Nat × Exc :=
  if f.e4m3 then (f.max neg, { sat := true })
  else if sat then (f.max neg, { ovf := true })
  else (f.inf neg, { ovf := true })

/-- A store of a value to a floating format: rounding, overflow, underflow and the special values
(R117, R127, R129, R130, R131). An infinite source without SAT is kept and raises nothing. -/
def FFmt.encode (f : FFmt) (mode : RMode) (sat : Bool) : FV → Nat × Exc
  | .nan => (f.nan, {})
  | .inf neg => if f.e4m3 || sat then f.beyond neg sat else (f.inf neg, {})
  | .fin neg m e =>
    if m = 0 then (f.sign neg, {})
    else
      let emin : Int := 1 - (f.bias : Int)
      let q : Int := Max.max ((Nat.log2 m : Int) + e) emin - f.fbits
      let r := scaleRound mode m (e - q)
      let n := r.1
      let tiny : Bool := decide (n < 2 ^ f.fbits) && r.2
      let carry : Bool := decide (n = 2 ^ (f.fbits + 1))
      let n' := if carry then 2 ^ f.fbits else n
      let q' : Int := if carry then q + 1 else q
      let ex : Nat := if n' < 2 ^ f.fbits then 0 else (q' + f.fbits + f.bias).toNat
      let lastEx := 2 ^ f.ebits - 1
      let above : Bool :=
        if f.e4m3 then decide (ex > lastEx) || (decide (ex = lastEx) && decide (n' = 2 ^ (f.fbits + 1) - 1))
        else decide (ex ≥ lastEx)
      if above then
        (match mode with
          | .truncate => (f.max neg, {})
          | .nearest => f.beyond neg sat)
      else
        (f.sign neg + (ex * 2 ^ f.fbits + (if n' < 2 ^ f.fbits then n' else n' - 2 ^ f.fbits)) * 2 ^ f.low,
          { unf := tiny })

/-- Rounds a value to a floating format, to nearest even, without SAT, and answers the value. -/
def FFmt.round (f : FFmt) (x : FV) : FV × Exc :=
  let r := f.encode .nearest false x
  (f.decode r.1, r.2)

/-- Negation of a value. -/
def FV.neg : FV → FV
  | .nan => .nan
  | .inf n => .inf (!n)
  | .fin n m e => .fin (!n) m e

/-- Magnitude of a value. -/
def FV.abs : FV → FV
  | .nan => .nan
  | .inf _ => .inf false
  | .fin _ m e => .fin false m e

def FV.isNeg : FV → Bool
  | .nan => false
  | .inf n => n
  | .fin n _ _ => n

def FV.isNan : FV → Bool
  | .nan => true
  | _ => false

def FV.isInf : FV → Bool
  | .inf _ => true
  | _ => false

def FV.isZero : FV → Bool
  | .fin _ m _ => decide (m = 0)
  | _ => false

/-- Exact product; 0 · ∞ gives NaN and raises NV (R124). -/
def FV.mul : FV → FV → FV × Exc
  | .nan, _ => (.nan, {})
  | _, .nan => (.nan, {})
  | .inf a, .inf b => (.inf (a ^^ b), {})
  | .inf a, .fin b m _ => if m = 0 then (.nan, { nv := true }) else (.inf (a ^^ b), {})
  | .fin a m _, .inf b => if m = 0 then (.nan, { nv := true }) else (.inf (a ^^ b), {})
  | .fin a m e, .fin b n g => (.fin (a ^^ b) (m * n) (e + g), {})

/-- Exact sum; (+∞) + (−∞) gives NaN and raises NV; an exact zero sum is +0 unless both are −0 (R124). -/
def FV.add : FV → FV → FV × Exc
  | .nan, _ => (.nan, {})
  | _, .nan => (.nan, {})
  | .inf a, .inf b => if a = b then (.inf a, {}) else (.nan, { nv := true })
  | .inf a, .fin _ _ _ => (.inf a, {})
  | .fin _ _ _, .inf b => (.inf b, {})
  | .fin a m e, .fin b n g =>
    (FV.ofDy (a && b && decide (m = 0) && decide (n = 0)) ((FV.fin a m e).dy.add (FV.fin b n g).dy), {})

/-- IEEE x ≤ y; false when either is a NaN. −0 and +0 compare equal. -/
def FV.le : FV → FV → Bool
  | .nan, _ => false
  | _, .nan => false
  | .inf true, _ => true
  | _, .inf false => true
  | .inf false, _ => false
  | _, .inf true => false
  | x, y => x.dy.le y.dy

/-- IEEE x < y. -/
def FV.lt (x y : FV) : Bool := !x.isNan && !y.isNan && !(y.le x)

/-- The order of R132, in which −0 lies below +0. -/
def FV.below (x y : FV) : Bool :=
  if x.isZero && y.isZero then x.isNeg && !y.isNeg else x.lt y

/-- max of R132: NaN if either operand is NaN. -/
def FV.max (x y : FV) : FV := if x.isNan || y.isNan then .nan else if x.below y then y else x

/-- min of R132. -/
def FV.min (x y : FV) : FV := if x.isNan || y.isNan then .nan else if y.below x then y else x

/-- One FP32 bank step (R124): the exact product added to the bank, rounded once. -/
def macFp32 (bank : Nat) (a b : FV) : Nat × Exc :=
  let p := a.mul b
  let s := (fp32.decode bank).add p.1
  let r := fp32.encode .nearest false s.1
  (r.1, { nv := p.2.nv || s.2.nv, unf := r.2.unf })

/-- fp32(x + y) of two FP32 codes, with the flags of a drain lane. -/
def addFp32 (x y : FV) : FV × Exc :=
  let s := x.add y
  let r := fp32.round s.1
  (r.1, s.2.or { r.2 with ovf := r.2.ovf && !s.1.isInf })

/-- fp32(x · y). -/
def mulFp32 (x y : FV) : FV × Exc :=
  let s := x.mul y
  let r := fp32.round s.1
  (r.1, s.2.or { r.2 with ovf := r.2.ovf && !s.1.isInf })

/-- Bounds of the 48-bit bank. -/
def bankMax : Int := 2 ^ 47 - 1
def bankMin : Int := -(2 ^ 47)

/-- One integer bank step (R125): saturating. -/
def macInt (bank a b : Int) : Int × Exc :=
  let s := bank + a * b
  if s > bankMax then (bankMax, { sat := true })
  else if s < bankMin then (bankMin, { sat := true })
  else (s, {})

/-- The levels of BG4 (R120), as FP16 codes: the FP16 numbers nearest to the quantile ratios of R120.
DEDUCED: log entry 7. -/
def bg4Levels : List Nat := [0x2963, 0x3013, 0x32e9, 0x34f9, 0x36ab, 0x3856, 0x39a9, 0x3c00]

/-- The level of a BG4 code: bit 3 is the sign. -/
def bg4Level (code : Nat) : FV :=
  let l := fp16.decode (bg4Levels.getD (code % 8) 0)
  if code / 8 % 2 = 1 then l.neg else l

/-- The 256 levels of a TG8 table kept as FP16 codes. -/
def tg8Level (table : List Nat) (code : Nat) : FV := fp16.decode (table.getD (code % 256) 0)

/-- The raw value of a stored code of an unscaled real format: integers and mantissas exact. -/
def Fmt.value (f : Fmt) (code : Nat) : FV :=
  match f with
  | .int8 => FV.ofDy false (.ofInt (toInt 8 code))
  | .uint8 => FV.ofDy false (.ofInt (code % 256 : Nat))
  | .int16 | .bfpiq => FV.ofDy false (.ofInt (toInt 16 code))
  | .int4 => FV.ofDy false (.ofInt (toInt 4 code))
  | .e4m3 => Num.e4m3.decode code
  | .e5m2 => Num.e5m2.decode code
  | .fp16 => Num.fp16.decode code
  | .bf16 => Num.bf16.decode code
  | .fp19 => Num.fp19.decode code
  | .fp32 => Num.fp32.decode code
  | .fp64 => Num.fp64.decode code
  | .bg4 => bg4Level code
  | .tg8 => .nan
  | .ci16 => .nan

/-- The least and greatest code value of an integer store. -/
def Fmt.intRange : Fmt → Int × Int
  | .int8 => (-128, 127)
  | .uint8 => (0, 255)
  | .int4 => (-8, 7)
  | _ => (-32768, 32767)

/-- A rounded integer stored to an integer format: the extreme code and SA beyond the range (R129). -/
def Fmt.clampInt (f : Fmt) (x : Int) : Nat × Exc :=
  let (lo, hi) := f.intRange
  if x > hi then (ofInt f.bits hi, { sat := true })
  else if x < lo then (ofInt f.bits lo, { sat := true })
  else (ofInt f.bits x, {})

/-- A store of an exact number that rounds to the integer `r`: UF when a non-zero number comes out zero (R131). -/
def Fmt.storeInt (f : Fmt) (x : Dy) (r : Int) : Nat × Exc :=
  let k := f.clampInt r
  (k.1, { k.2 with unf := decide (x.m ≠ 0) && decide (r = 0) })

/-- Distance of a number to a level. -/
def gridDist (x : Dy) (l : FV) : Dy := (x.sub l.dy).abs

/-- The nearest of a list of (code, level) pairs, even code on a tie (R128). -/
def nearestLevel (x : Dy) : List (Nat × FV) → Option (Nat × FV)
  | [] => none
  | (c, l) :: rest =>
    match nearestLevel x rest with
    | none => some (c, l)
    | some (c', l') =>
      let d := gridDist x l
      let d' := gridDist x l'
      if d.lt d' then some (c, l)
      else if d'.lt d then some (c', l')
      else if c % 2 = 0 then some (c, l) else some (c', l')

/-- Levels of BG4 by code. -/
def bg4Pairs : List (Nat × FV) := (List.range 16).map fun c => (c, bg4Level c)

/-- Levels of a TG8 table by code. -/
def tg8Pairs (table : List Nat) : List (Nat × FV) := (List.range 256).map fun c => (c, tg8Level table c)

/-- The greatest level by value. -/
def maxPair : List (Nat × FV) → Option (Nat × FV)
  | [] => none
  | p :: rest =>
    match maxPair rest with
    | none => some p
    | some q => if q.2.dy.le p.2.dy then some p else some q

/-- The least level by value. -/
def minPair : List (Nat × FV) → Option (Nat × FV)
  | [] => none
  | p :: rest =>
    match minPair rest with
    | none => some p
    | some q => if p.2.dy.le q.2.dy then some p else some q

/-- The level with the smallest magnitude, lowest code on a tie (R128, NaN). -/
def smallestPair : List (Nat × FV) → Option (Nat × FV)
  | [] => none
  | p :: rest =>
    match smallestPair rest with
    | none => some p
    | some q => if p.2.dy.abs.le q.2.dy.abs then some p else some q

/-- Whether x lies beyond the outermost level by more than half the distance to the next level inward
(R128); the levels are all of a table. -/
def gridClips (pairs : List (Nat × FV)) (x : Dy) : Bool :=
  match maxPair pairs, minPair pairs with
  | some top, some bot =>
    let insideTop := maxPair (pairs.filter fun p => p.2.dy.lt top.2.dy)
    let insideBot := minPair (pairs.filter fun p => bot.2.dy.lt p.2.dy)
    let above := match insideTop with
      | some n => ((top.2.dy.scale 1).add (top.2.dy.sub n.2.dy)).lt (x.scale 1)
      | none => false
    let below := match insideBot with
      | some n => (x.scale 1).lt ((bot.2.dy.scale 1).add (bot.2.dy.sub n.2.dy))
      | none => false
    above || below
  | _, _ => false

/-- A store to a grid of an exact value already divided by 2^shift (R128). -/
def gridStore (f : Fmt) (pairs : List (Nat × FV)) : FV → Nat × Exc
  | .nan => (((smallestPair pairs).getD (0, .zero)).1, { nv := true })
  | .inf neg =>
    let p := if neg then minPair pairs else maxPair pairs
    ((p.getD (0, .zero)).1, { sat := true })
  | .fin neg m e =>
    if m = 0 ∧ f = .bg4 then (if neg then 8 else 0, {})
    else
      let x := (FV.fin neg m e).dy
      (((nearestLevel x pairs).getD (0, .zero)).1, { sat := gridClips pairs x })

/-- Levels of a grid format, a TG8 table given as FP16 codes. -/
def gridPairs (f : Fmt) (table : List Nat) : List (Nat × FV) :=
  match f with
  | .bg4 => bg4Pairs
  | _ => tg8Pairs table

/-- A store to an integer format of an exact value already divided by 2^shift: nearest even, then R129
and R130; every negative value gives UINT8 code 0 with SA (R149). -/
def intStore (f : Fmt) : FV → Nat × Exc
  | .nan => (0, { nv := true })
  | .inf neg =>
    let (lo, hi) := f.intRange
    (ofInt f.bits (if neg then lo else hi), { sat := true })
  | .fin neg m e =>
    if f = .uint8 ∧ neg = true ∧ m ≠ 0 then (0, { sat := true }) else f.storeInt (FV.fin neg m e).dy (FV.fin neg m e).dy.roundEven

/-- The split of the FP32 multi-pass modes (R135): hi and lo, both FP19 values. -/
def split32 (x : FV) : FV × FV × Exc :=
  match x with
  | .nan => (.nan, .zero, {})
  | .inf n => (.inf n, .zero, {})
  | .fin _ _ _ =>
    let hi := fp19.round x
    match hi.1 with
    | .fin _ _ _ =>
      let lo := fp19.round (FV.ofDy false (x.dy.sub hi.1.dy))
      (hi.1, lo.1, hi.2.or lo.2)
    | h => (h, .zero, hi.2)

end Sys2Proof.Num
end

