-- ==== Sys2Proof/Machine/Elem.lean ====
section
/-! DEFINITION. The elementary functions the manual bounds but does not fix (R88, R107, R193): a
high-precision value, correct far beyond FP32, from which the bounded free values of Config depart. -/

namespace Sys2Proof.Elem

open Sys2Proof.Num

/-- Fixed-point precision of the evaluations, in bits. -/
def prec : Nat := 200

/-- ln 2 · 2^200. -/
def ln2 : Int := 1113844574712631719546256151097547306333272293549090750737802

/-- Sum of r^i / i! over the terms from `i`, `t` being term i, in fixed point. -/
def expTerms : Nat → Int → Int → Int → Int
  | 0, _, _, _ => 0
  | n + 1, i, t, r => t + expTerms n (i + 1) (t * r / ((i + 1) * 2 ^ prec)) r

/-- A number as a fixed-point integer (floor). -/
def fix (x : Dy) : Int :=
  let s := x.e + prec
  if 0 ≤ s then x.m * (2 ^ s.toNat : Nat) else x.m / (2 ^ (-s).toNat : Nat)

/-- e^x for |x| below 2^12. -/
def exp (x : Dy) : Dy :=
  let fx := fix x
  let n := fx / ln2
  ⟨expTerms 60 0 (2 ^ prec) (fx - n * ln2), n - prec⟩

/-- a / b to a relative precision of some 200 bits, for b not 0. -/
def div (a b : Dy) : Dy :=
  let k := prec + Nat.log2 b.m.natAbs + 1
  ⟨a.m * (2 ^ k : Nat) / b.m, a.e - b.e - k⟩

/-- A number cut to 256 significant bits. -/
def trim (x : Dy) : Dy :=
  let l := Nat.log2 x.m.natAbs
  if l ≤ 256 then x else ⟨x.m / (2 ^ (l - 256) : Nat), x.e + (l - 256 : Nat)⟩

def one : Dy := ⟨1, 0⟩

/-- 1 / (1 + e^(−x)). -/
def logistic (x : Dy) : Dy := div one (trim (one.add (exp x.neg)))

/-- tanh x: the series near 0, otherwise by e^(2x). -/
def tanh (x : Dy) : Dy :=
  if x.abs.lt ⟨1, -24⟩ then
    trim (x.add (div (x.mul (trim (x.mul x))).neg ⟨3, 0⟩))
  else if x.abs.lt ⟨1, -10⟩ then
    let x2 := trim (x.mul x)
    let x3 := trim (x.mul x2)
    let x5 := trim (x3.mul x2)
    let x7 := trim (x5.mul x2)
    trim (((x.sub (div x3 ⟨3, 0⟩)).add (div (x5.scale 1) ⟨15, 0⟩)).sub (div (⟨17, 0⟩ |> x7.mul) ⟨315, 0⟩))
  else
    let e := exp (x.scale 1)
    div (e.sub one) (trim (e.add one))

/-- The integer square root of n, by bits from 2^k down. -/
def sqrtBits : Nat → Nat → Nat → Nat
  | 0, n, r => if (r + 1) * (r + 1) ≤ n then r + 1 else r
  | k + 1, n, r => sqrtBits k n (if (r + 2 ^ (k + 1)) * (r + 2 ^ (k + 1)) ≤ n then r + 2 ^ (k + 1) else r)

/-- √x for x ≥ 0, to some 100 bits. -/
def sqrt (x : Dy) : Dy :=
  let m := x.m.natAbs
  let k := if (x.e % 2 = 0) then 200 else 201
  ⟨sqrtBits (Nat.log2 m / 2 + 102) (m * 2 ^ k) 0, (x.e - (k : Nat)) / 2⟩

/-- Fraction bits of log2 of x in [1, 2) · 2^p by repeated squaring. -/
def log2Frac : Nat → Nat → Nat → Nat
  | 0, _, acc => acc
  | n + 1, x, acc =>
    let y := x * x / 2 ^ 200
    if y ≥ 2 ^ 201 then log2Frac n (y / 2) (2 * acc + 1) else log2Frac n y (2 * acc)

/-- log2 n for n ≥ 1, to 60 fraction bits. -/
def log2 (n : Nat) : Dy :=
  let k := Nat.log2 n
  let x := n * 2 ^ 200 / 2 ^ k
  ⟨((k * 2 ^ 60 + log2Frac 60 x 0 : Nat) : Int), -60⟩

/-- The FP32 code `d` places from `v` in the order of values (a place is one unit in the last place);
it does not leave the finite values nor change the sign. -/
def nudge (v : Nat) (d : Int) : Nat :=
  let mag : Int := (v % 2 ^ 31 : Nat)
  let m := max 0 (min (mag + d) 0x7F7FFFFF)
  v / 2 ^ 31 * 2 ^ 31 + m.toNat

/-- The unit in the last place of FP32 at an exact number. -/
def ulp (x : Dy) : Dy := if x.m = 0 then ⟨1, -149⟩ else ⟨1, max (Nat.log2 x.m.natAbs + x.e - 23) (-149)⟩

/-- A result within 2 units in the last place of an exact number: the nearest, moved by the places a free offset says where that
stays within the bound. -/
def within2 (x : Dy) (off : Int) : Nat :=
  let r := (fp32.encode .nearest false (FV.ofDy false x)).1
  let c := nudge r off
  if ((ulp x).scale 1).lt ((fp32.decode c).dy.sub x).abs then r else c

/-- e^x as an FP32 result: overflow to +∞, far underflow to +0, otherwise within two places. -/
def expFp32 (x : Dy) (off : Int) : Nat :=
  if Dy.lt ⟨89, 0⟩ x then fp32.inf false
  else if x.lt ⟨-110, 0⟩ then within2 ⟨0, 0⟩ off
  else
    let y := trim (exp x)
    let r := (fp32.encode .nearest false (FV.ofDy false y)).1
    if r = fp32.inf false then r else within2 y off

/-- A number less a trace: where a function's value lies closer below the number than the model computes it. -/
def below (x : Dy) : Dy := x.sub ⟨1, -200⟩

/-- logistic of any number within FP32's range; beyond |x| = 200 it is 1 or 0 to the last place. -/
def logisticFp32 (x : Dy) (off : Int) : Nat :=
  if Dy.lt ⟨200, 0⟩ x then within2 (below one) off
  else if x.lt ⟨-200, 0⟩ then within2 ⟨0, 0⟩ off
  else within2 (logistic x) off

/-- tanh; beyond |x| = 100 it is ±1 to the last place. -/
def tanhFp32 (x : Dy) (off : Int) : Nat :=
  if Dy.lt ⟨100, 0⟩ x then within2 (below one) off
  else if x.lt ⟨-100, 0⟩ then within2 (below one).neg off
  else within2 (tanh x) off

/-- GELU in its tanh form: 0.5·x·(1 + tanh u) = x / (1 + e^(−2u)), u = 0.7978846·(x + 0.044715·x³)
(R193). -/
def geluFp32 (x : Dy) (off : Int) : Nat :=
  if x.m = 0 then within2 x off
  else if Dy.lt ⟨20, 0⟩ x then within2 (below x) off
  else if x.lt ⟨-20, 0⟩ then within2 ⟨0, 0⟩ off + 2 ^ 31
  else
    let x3 := x.mul (x.mul x)
    let u := div ((x.add (div (x3.mul ⟨44715, 0⟩) ⟨1000000, 0⟩)).mul ⟨7978846, 0⟩) ⟨10000000, 0⟩
    within2 (trim (x.mul (logistic (u.scale 1)))) off

/-- SiLU: x · logistic(x) (R193). -/
def siluFp32 (x : Dy) (off : Int) : Nat :=
  if x.m = 0 then within2 x off
  else if Dy.lt ⟨200, 0⟩ x then within2 (below x) off
  else if x.lt ⟨-200, 0⟩ then within2 ⟨0, 0⟩ off + 2 ^ 31
  else within2 (trim (x.mul (logistic x))) off

end Sys2Proof.Elem
end

