-- ==== Sys2Proof/Config.lean ====
section
/-! DEFINITION. What the manual leaves open, as constants without a body: nothing can evaluate them, so a
claim holds whatever they are. -/

namespace Sys2Proof.Config

/-- A value the manual leaves undefined (log entry 2). A step that needs one applies this to the counter
`State.free`, which it advances. -/
opaque freeNat : Nat → Nat

/-- The module's random source (R73, R258, R338, R356, R369, R478), applied to `State.free`. -/
opaque random : Nat → Nat

/-- ECDSA P-256 verification: public key, SHA-256 of the message, signature. -/
opaque ecdsaVerify : Nat → Nat → Nat → Bool

/-- ECDSA P-256 verification under the public key whose SHA-256 is the first argument: of a SHA-256 and a signature. -/
opaque ecdsaVerifyHashed : Nat → Nat → Nat → Bool

/-- The public attestation key (R469): header digest and security version of the firmware that runs. -/
opaque attestKey : Nat → Nat → Nat

/-- ECDSA P-256 signature under the attestation key of that firmware, of a SHA-256. -/
opaque attestSign : Nat → Nat → Nat → Nat

/-- ECDSA P-256 signature under the identity key, of a SHA-256. -/
opaque identitySign : Nat → Nat

/-- The module's ephemeral P-256 public key for the `n`-th random draw (R369). -/
opaque ephemeralKey : Nat → Nat

/-- The ECDH secret of a session (R369): the host's ephemeral key, and the draw of the module's own. -/
opaque ecdhSecret : Nat → Nat → List Byte

/-- The info string of the session key's HKDF (R369). -/
opaque hkdfInfo : List Byte

/-- Catalogue hash functions H1 and H2 (R73): seed, key; the bucket is the low 20 bits. -/
opaque hash1 : Nat → Nat → Nat
opaque hash2 : Nat → Nat → Nat

/-- Interleave hash of the stacks (R257): seed, line address; the channel is the low 6 bits. -/
opaque channelHash : Nat → Nat → Nat

/-- Flits queued at the output of a fabric port at the `n`-th routing decision (R338, R339). -/
opaque queued : Nat → Nat → Nat

/-- Where the packet buffer puts the body of a packet, in units of 256 bytes, by its handle (R300). -/
opaque bodySlot : Nat → Nat

/-- Single-bit errors that the `n`-th line read of a channel, patrol apart, meets in its four codewords, before it is taken modulo 5
(R269). -/
opaque readErrors : Nat → Nat → Nat

/-- A byte of a stacks range whose contents a region commit left undefined (R266): seed, address. -/
opaque freeByte : Nat → Nat → BitVec 8

/-- Set index of a bucket in the hot cache (R70). -/
opaque cacheSet : Nat → Nat

/-- Offset within the stated bound of an elementary function's result: function code, operand bits. -/
opaque elemOffset : Nat → Nat → Int

/-- Offset within the stated bound of a link function's result (R107): code, operand bits. -/
opaque linkOffset : Nat → Nat → Int

/-- Offset of a feature's logarithm (R88): operand. -/
opaque logOffset : Nat → Int

/-- Recognition of a RESET_N pulse of 0.2 to 0.5 µs (R493): counter. -/
opaque pulseSeen : Nat → Bool

/-- Codes of events the manual names without a code: 1 ring restored, 2 master conflict, 3 source conflict,
4 array exception, 5 scale fallback, and so on as their users say. -/
opaque eventCode : Nat → Nat

end Sys2Proof.Config
end

