-- ==== Sys2Proof/Machine/ObjTable.lean ====
section
/-! DEFINITION. The object table: one row for each family of objects in the tables of R8, R68, R89, R114,
R134, R167, R209, R255, R278, R299, R325, R352, R382, R386, R387, R389, R427, R458, R480 and R505. -/

namespace Sys2Proof

/-- Object types (R373). TIME64 is `u 8`; an entry count is `u 2`. -/
inductive Ty where
  | bool | u (n : Nat) | i (n : Nat) | str (n : Nat) | oct (n : Nat) | domain
  deriving DecidableEq, Repr

/-- Access rights (R374). -/
inductive Acc where
  | ro | rw | rwp | wo | const
  deriving DecidableEq, Repr

/-- One family: index range, sub-index range, type, access, default, and the least and greatest unsigned
value a write may carry. Defaults that differ from unit to unit are in `objDefault`. -/
structure ObjRow where
  lo   : Nat
  hi   : Nat
  sl   : Nat
  sh   : Nat
  ty   : Ty
  acc  : Acc
  dflt : Nat
  mn   : Nat
  mx   : Nat
  deriving DecidableEq, Repr

/-- Objects 0x1020 to 0x180A. -/
def objRows1a : List ObjRow := [
  ⟨0x1020, 0x1020, 0x0000, 0x0000, .u 2, .ro, 4, 0, 65535⟩,  -- Product record, R8
  ⟨0x1020, 0x1020, 0x0001, 0x0001, .u 4, .const, 55062, 0, 4294967295⟩,  -- Product code, R8
  ⟨0x1020, 0x1020, 0x0002, 0x0002, .str 16, .const, 0, 0, 0⟩,  -- Ordering code, R8
  ⟨0x1020, 0x1020, 0x0003, 0x0003, .str 4, .const, 12610, 0, 0⟩,  -- Silicon revision, R8
  ⟨0x1020, 0x1020, 0x0004, 0x0004, .str 16, .ro, 0, 0, 0⟩,  -- Firmware version, R8
  ⟨0x1021, 0x1021, 0x0000, 0x0000, .u 2, .ro, 3, 0, 65535⟩,  -- Grade record, R8
  ⟨0x1021, 0x1021, 0x0001, 0x0001, .u 2, .const, 0, 0, 65535⟩,  -- Enabled array mask, R8
  ⟨0x1021, 0x1021, 0x0002, 0x0002, .u 1, .const, 0, 0, 255⟩,  -- Enabled array count, R8
  ⟨0x1021, 0x1021, 0x0003, 0x0003, .u 2, .const, 0, 0, 65535⟩,  -- Grade TDP, R8
  ⟨0x1022, 0x1022, 0x0000, 0x0000, .u 2, .ro, 6, 0, 65535⟩,  -- Module record, R386
  ⟨0x1022, 0x1022, 0x0001, 0x0001, .str 16, .const, 30792301678783559, 0, 0⟩,  -- Vendor name, R386
  ⟨0x1022, 0x1022, 0x0002, 0x0002, .str 16, .const, 0, 0, 0⟩,  -- Serial number, R386
  ⟨0x1022, 0x1022, 0x0003, 0x0003, .str 4, .const, 0, 0, 0⟩,  -- Board revision, R386
  ⟨0x1022, 0x1022, 0x0004, 0x0004, .str 16, .const, 0, 0, 0⟩,  -- Boot ROM version, R386
  ⟨0x1022, 0x1022, 0x0005, 0x0005, .u 1, .ro, 0, 0, 255⟩,  -- Running firmware slot, R386
  ⟨0x1022, 0x1022, 0x0006, 0x0006, .u 2, .const, 768, 0, 65535⟩,  -- Object map version, R386
  ⟨0x1023, 0x1023, 0x0000, 0x0000, .u 2, .ro, 2, 0, 65535⟩,  -- Address record, R386
  ⟨0x1023, 0x1023, 0x0001, 0x0001, .oct 6, .const, 0, 0, 0⟩,  -- Management MAC address, R386
  ⟨0x1023, 0x1023, 0x0002, 0x0002, .oct 6, .const, 0, 0, 0⟩,  -- Line MAC address base, R386
  ⟨0x1800, 0x1800, 0x0001, 0x0002, .u 1, .rwp, 0, 0, 5⟩,  -- T1 mode, R382
  ⟨0x1801, 0x1801, 0x0001, 0x0002, .u 2, .ro, 0, 0, 65535⟩,  -- Link rate, R382
  ⟨0x1802, 0x1802, 0x0000, 0x0000, .u 1, .ro, 0, 0, 255⟩,  -- Ring state, R382
  ⟨0x1803, 0x1803, 0x0000, 0x0000, .u 2, .rwp, 0, 0, 1023⟩,  -- Ring address, R382
  ⟨0x1804, 0x1804, 0x0000, 0x0000, .u 2, .ro, 0, 0, 65535⟩,  -- Ring position, R382
  ⟨0x1805, 0x1805, 0x0000, 0x0000, .bool, .rwp, 0, 0, 1⟩,  -- Ring-master role, R382
  ⟨0x1806, 0x1806, 0x0000, 0x0000, .u 4, .rwp, 1000, 250, 100000⟩,  -- Cycle period, R382
  ⟨0x1807, 0x1807, 0x0000, 0x0000, .u 8, .rwp, 0, 0, 18446744073709551615⟩,  -- Cycle phase, R382
  ⟨0x1808, 0x1808, 0x0000, 0x0000, .bool, .rw, 0, 0, 1⟩,  -- Authenticated management, R382
  ⟨0x1809, 0x1809, 0x0000, 0x0000, .u 2, .rwp, 34997, 0, 65535⟩,  -- ODP UDP port, R382
  ⟨0x180A, 0x180A, 0x0000, 0x0000, .oct 16, .rwp, 0, 0, 0⟩  -- IPv6 address, R382
  ]

/-- Objects 0x180B to 0x1840. -/
def objRows1b : List ObjRow := [
  ⟨0x180B, 0x180B, 0x0000, 0x0000, .u 1, .const, 7, 0, 255⟩,  -- Generations served, R382
  ⟨0x1810, 0x1810, 0x0001, 0x0002, .u 8, .ro, 0, 0, 18446744073709551615⟩,  -- Frames forwarded, R382
  ⟨0x1811, 0x1811, 0x0000, 0x0000, .u 8, .ro, 0, 0, 18446744073709551615⟩,  -- Hop-limit discards, R382
  ⟨0x1812, 0x1812, 0x0000, 0x0000, .u 8, .ro, 0, 0, 18446744073709551615⟩,  -- Requests served, R382
  ⟨0x1813, 0x1813, 0x0000, 0x0000, .u 8, .ro, 0, 0, 18446744073709551615⟩,  -- Aborts sent, R382
  ⟨0x1814, 0x1814, 0x0000, 0x0000, .u 8, .ro, 0, 0, 18446744073709551615⟩,  -- Repeated requests, R382
  ⟨0x1815, 0x1815, 0x0000, 0x0000, .u 8, .ro, 0, 0, 18446744073709551615⟩,  -- Events sent, R382
  ⟨0x1816, 0x1816, 0x0000, 0x0000, .u 8, .ro, 0, 0, 18446744073709551615⟩,  -- Events suppressed, R382
  ⟨0x1817, 0x1817, 0x0000, 0x0000, .u 8, .ro, 0, 0, 18446744073709551615⟩,  -- Authentication discards, R382
  ⟨0x1818, 0x1818, 0x0000, 0x0000, .u 8, .ro, 0, 0, 18446744073709551615⟩,  -- Cycles exchanged, R382
  ⟨0x1819, 0x1819, 0x0000, 0x0000, .u 8, .ro, 0, 0, 18446744073709551615⟩,  -- Late input images, R382
  ⟨0x181A, 0x181A, 0x0000, 0x0000, .u 8, .ro, 0, 0, 18446744073709551615⟩,  -- Missed cycles, R382
  ⟨0x181B, 0x181B, 0x0000, 0x0000, .u 8, .ro, 0, 0, 18446744073709551615⟩,  -- Loopback engagements, R382
  ⟨0x1820, 0x1820, 0x0000, 0x0000, .u 2, .rw, 0, 0, 32⟩,  -- Output mapping, R382
  ⟨0x1820, 0x1820, 0x0001, 0x0020, .u 4, .rw, 0, 0, 4294967295⟩,  -- Output mapping, R382
  ⟨0x1821, 0x1821, 0x0000, 0x0000, .u 2, .rw, 0, 0, 32⟩,  -- Input mapping, R382
  ⟨0x1821, 0x1821, 0x0001, 0x0020, .u 4, .rw, 0, 0, 4294967295⟩,  -- Input mapping, R382
  ⟨0x1822, 0x1822, 0x0001, 0x0002, .u 4, .rw, 0, 0, 4294967295⟩,  -- Slot position, R382
  ⟨0x1828, 0x1828, 0x0000, 0x0000, .bool, .wo, 0, 0, 1⟩,  -- Cyclic commit, R382
  ⟨0x1830, 0x1830, 0x0000, 0x0000, .u 1, .ro, 0, 0, 255⟩,  -- Open sessions, R382
  ⟨0x1840, 0x1840, 0x0001, 0x0001, .domain, .ro, 0, 0, 0⟩,  -- Master output images, R389
  ⟨0x1840, 0x1840, 0x0002, 0x0002, .domain, .wo, 0, 0, 0⟩  -- Master input images, R389
  ]

/-- Objects 0x2000 to 0x240C. -/
def objRows2 : List ObjRow := [
  ⟨0x2000, 0x2000, 0x0000, 0x0000, .u 1, .ro, 0, 0, 255⟩,  -- Device state, R382
  ⟨0x2001, 0x2001, 0x0000, 0x0000, .u 1, .wo, 0, 0, 255⟩,  -- State request, R382
  ⟨0x2002, 0x2002, 0x0000, 0x0000, .u 1, .rw, 4, 3, 4⟩,  -- Boot target, R382
  ⟨0x2003, 0x2003, 0x0000, 0x0000, .bool, .rw, 1, 0, 1⟩,  -- Automatic fault reset, R382
  ⟨0x2004, 0x2004, 0x0000, 0x0000, .u 1, .ro, 1, 0, 255⟩,  -- Last reset cause, R382
  ⟨0x2005, 0x2005, 0x0000, 0x0000, .u 4, .ro, 0, 0, 4294967295⟩,  -- Last fault cause, R382
  ⟨0x2006, 0x2006, 0x0000, 0x0000, .bool, .ro, 0, 0, 1⟩,  -- Replacement flag, R382
  ⟨0x2007, 0x2007, 0x0000, 0x0000, .u 2, .rw, 100, 1, 10000⟩,  -- Drain-exit timeout, R382
  ⟨0x2010, 0x2010, 0x0000, 0x0000, .u 1, .ro, 0, 0, 255⟩,  -- Staged groups, R382
  ⟨0x2011, 0x2011, 0x0000, 0x0000, .u 1, .wo, 0, 0, 15⟩,  -- Discard staged, R382
  ⟨0x2020, 0x2020, 0x0000, 0x0000, .bool, .wo, 0, 0, 1⟩,  -- Save configuration, R382
  ⟨0x2021, 0x2021, 0x0000, 0x0000, .bool, .wo, 0, 0, 1⟩,  -- Restore defaults, R382
  ⟨0x2400, 0x2400, 0x0000, 0x0000, .u 1, .rwp, 0, 0, 3⟩,  -- House-clock source, R352
  ⟨0x2401, 0x2401, 0x0000, 0x0000, .u 1, .rwp, 0, 0, 3⟩,  -- IEEE 1588 port, R352
  ⟨0x2402, 0x2402, 0x0000, 0x0000, .u 1, .rwp, 0, 0, 255⟩,  -- IEEE 1588 domain, R352
  ⟨0x2403, 0x2403, 0x0000, 0x0000, .u 8, .ro, 0, 0, 18446744073709551615⟩,  -- House time, R352
  ⟨0x2404, 0x2404, 0x0000, 0x0000, .u 8, .wo, 0, 0, 18446744073709551615⟩,  -- TAI seconds at next PPS, R352
  ⟨0x2405, 0x2405, 0x0000, 0x0000, .u 1, .ro, 0, 0, 255⟩,  -- Clock state, R352
  ⟨0x2406, 0x2406, 0x0000, 0x0000, .u 2, .ro, 65535, 0, 65535⟩,  -- Grandmaster, R352
  ⟨0x2407, 0x2407, 0x0000, 0x0000, .u 1, .ro, 0, 0, 255⟩,  -- Hops to grandmaster, R352
  ⟨0x2408, 0x2408, 0x0000, 0x0000, .i 4, .ro, 0, 0, 0⟩,  -- Offset from parent, R352
  ⟨0x2409, 0x2409, 0x0000, 0x0000, .u 8, .ro, 0, 0, 18446744073709551615⟩,  -- Steps, R352
  ⟨0x240A, 0x240A, 0x0000, 0x0000, .u 8, .ro, 0, 0, 18446744073709551615⟩,  -- Source conflicts, R352
  ⟨0x240B, 0x240B, 0x0000, 0x0000, .u 1, .ro, 0, 0, 255⟩,  -- REF_IN state, R505
  ⟨0x240C, 0x240C, 0x0000, 0x0000, .u 8, .ro, 0, 0, 18446744073709551615⟩  -- Discarded PPS edges, R505
  ]

/-- Objects 0x3000 to 0x3820. -/
def objRows3a : List ObjRow := [
  ⟨0x3000, 0x3000, 0x0000, 0x0000, .u 1, .rwp, 0, 0, 2⟩,  -- Attach mode, R68
  ⟨0x3001, 0x3001, 0x0001, 0x0004, .u 1, .rwp, 1, 0, 255⟩,  -- Port mode, R68
  ⟨0x3002, 0x3002, 0x0001, 0x0004, .u 1, .rwp, 0, 0, 2⟩,  -- FEC select, R68
  ⟨0x3003, 0x3003, 0x0001, 0x0004, .u 1, .rwp, 0, 0, 1⟩,  -- Electrical interface, R68
  ⟨0x3004, 0x3004, 0x0001, 0x0004, .u 2, .rwp, 9600, 1518, 9600⟩,  -- Maximum frame size, R68
  ⟨0x3005, 0x3005, 0x0001, 0x0004, .u 1, .ro, 0, 0, 255⟩,  -- Link status, R68
  ⟨0x3006, 0x3006, 0x0000, 0x0000, .u 1, .ro, 0, 0, 255⟩,  -- Curtain state, R68
  ⟨0x3007, 0x3007, 0x0001, 0x0002, .bool, .rwp, 1, 0, 1⟩,  -- Transparent clock, R68
  ⟨0x3008, 0x3008, 0x0001, 0x0004, .i 2, .rwp, 0, 0, 0⟩,  -- Ingress latency correction, R68
  ⟨0x3009, 0x3009, 0x0001, 0x0004, .i 2, .rwp, 0, 0, 0⟩,  -- Egress latency correction, R68
  ⟨0x3010, 0x3010, 0x0001, 0x0004, .u 8, .ro, 0, 0, 18446744073709551615⟩,  -- Receive-crossing overflow, R68
  ⟨0x3011, 0x3011, 0x0001, 0x0004, .u 8, .ro, 0, 0, 18446744073709551615⟩,  -- FCS errors, R68
  ⟨0x3012, 0x3012, 0x0001, 0x0004, .u 8, .ro, 0, 0, 18446744073709551615⟩,  -- Runt frames, R68
  ⟨0x3013, 0x3013, 0x0001, 0x0004, .u 8, .ro, 0, 0, 18446744073709551615⟩,  -- Oversize frames, R68
  ⟨0x3014, 0x3014, 0x0001, 0x0004, .u 8, .ro, 0, 0, 18446744073709551615⟩,  -- Frames received, R68
  ⟨0x3015, 0x3015, 0x0001, 0x0004, .u 8, .ro, 0, 0, 18446744073709551615⟩,  -- Frames transmitted, R68
  ⟨0x3800, 0x3800, 0x0001, 0x0004, .u 2, .rw, 20, 1, 1000⟩,  -- Reorder timeout, R68
  ⟨0x3801, 0x3801, 0x0001, 0x0004, .u 8, .ro, 0, 0, 18446744073709551615⟩,  -- Reorder stall cycles, R68
  ⟨0x3802, 0x3802, 0x0001, 0x0004, .u 8, .ro, 0, 0, 18446744073709551615⟩,  -- Reorder skips, R68
  ⟨0x3803, 0x3803, 0x0001, 0x0004, .u 8, .ro, 0, 0, 18446744073709551615⟩,  -- Reorder late drops, R68
  ⟨0x3808, 0x3808, 0x0000, 0x0000, .u 2, .wo, 0, 0, 65535⟩,  -- Rule commit, R68
  ⟨0x3809, 0x3809, 0x0000, 0x0000, .u 2, .ro, 0, 0, 65535⟩,  -- Active rule accession, R68
  ⟨0x380A, 0x380A, 0x0000, 0x0000, .domain, .wo, 0, 0, 0⟩,  -- Rule set image, R68
  ⟨0x3810, 0x3810, 0x0001, 0x0001, .u 2, .rw, 0, 0, 16383⟩,  -- Rule index, R68
  ⟨0x3810, 0x3810, 0x0002, 0x0002, .oct 80, .rw, 0, 0, 0⟩,  -- Rule value and mask, R68
  ⟨0x3810, 0x3810, 0x0003, 0x0003, .u 1, .rw, 0, 0, 255⟩,  -- Rule profile and valid, R68
  ⟨0x3810, 0x3810, 0x0004, 0x0004, .oct 16, .rw, 0, 0, 0⟩,  -- Rule action, R68
  ⟨0x3810, 0x3810, 0x0005, 0x0005, .u 8, .ro, 0, 0, 18446744073709551615⟩,  -- Rule hit count, R68
  ⟨0x3812, 0x3812, 0x0001, 0x0010, .oct 16, .rw, 0, 0, 0⟩,  -- Default action, R68
  ⟨0x3820, 0x3820, 0x0001, 0x0005, .u 1, .rw, 0, 0, 4⟩  -- Malformed action, R68
  ]

/-- Objects 0x3821 to 0x39FF. -/
def objRows3b : List ObjRow := [
  ⟨0x3821, 0x3825, 0x0001, 0x0004, .u 8, .ro, 0, 0, 18446744073709551615⟩,  -- Malformed count, R68
  ⟨0x3826, 0x3826, 0x0001, 0x0004, .u 2, .rw, 65535, 0, 65535⟩,  -- Pass queue, R68
  ⟨0x3827, 0x3827, 0x0001, 0x0004, .u 2, .rw, 65535, 0, 65535⟩,  -- Mirror queue, R68
  ⟨0x3830, 0x3830, 0x0000, 0x0000, .u 2, .rw, 0, 0, 65535⟩,  -- eCPRI UDP port, R68
  ⟨0x3831, 0x3831, 0x0000, 0x0000, .bool, .rw, 1, 0, 1⟩,  -- eCPRI sequence check, R68
  ⟨0x3832, 0x3832, 0x0000, 0x0000, .u 8, .ro, 0, 0, 18446744073709551615⟩,  -- Unchecked eCPRI packets, R68
  ⟨0x3900, 0x39FF, 0x0001, 0x0001, .u 1, .rw, 0, 0, 3⟩,  -- Tap d kind, R68
  ⟨0x3900, 0x39FF, 0x0002, 0x0002, .u 1, .rw, 0, 0, 15⟩,  -- Tap d target array, R68
  ⟨0x3900, 0x39FF, 0x0003, 0x0003, .u 4, .rw, 0, 0, 4294967295⟩,  -- Tap d wings base, R68
  ⟨0x3900, 0x39FF, 0x0004, 0x0004, .u 2, .rw, 64, 0, 65535⟩,  -- Tap d row stride, R68
  ⟨0x3900, 0x39FF, 0x0005, 0x0005, .u 2, .rw, 1, 1, 16384⟩,  -- Tap d rows per tensor, R68
  ⟨0x3900, 0x39FF, 0x0006, 0x0006, .u 2, .rw, 0, 0, 65535⟩,  -- Tap d payload offset, R68
  ⟨0x3900, 0x39FF, 0x0007, 0x0007, .u 1, .rw, 0, 0, 15⟩,  -- Tap d format, R68
  ⟨0x3900, 0x39FF, 0x0008, 0x0008, .u 1, .rw, 16, 0, 255⟩,  -- Tap d default width, R68
  ⟨0x3900, 0x39FF, 0x0009, 0x0009, .u 2, .rw, 0, 0, 511⟩,  -- Tap d trigger, R68
  ⟨0x3900, 0x39FF, 0x000A, 0x000A, .u 2, .rw, 0, 0, 2047⟩,  -- Tap d release cue light, R68
  ⟨0x3900, 0x39FF, 0x000B, 0x000B, .u 8, .ro, 0, 0, 18446744073709551615⟩  -- Tap d overruns, R68
  ]

/-- Objects 0x4000 to 0x481F. -/
def objRows4a : List ObjRow := [
  ⟨0x4000, 0x4000, 0x0000, 0x0000, .u 4, .rw, 1000, 1, 60000⟩,  -- Sweeper period, R89
  ⟨0x4001, 0x4001, 0x0000, 0x0000, .u 4, .ro, 0, 0, 4294967295⟩,  -- Occupancy, R89
  ⟨0x4002, 0x4002, 0x0000, 0x0000, .u 8, .ro, 0, 0, 18446744073709551615⟩,  -- Insertions, R89
  ⟨0x4003, 0x4003, 0x0000, 0x0000, .u 8, .ro, 0, 0, 18446744073709551615⟩,  -- Insertion failures, R89
  ⟨0x4004, 0x4004, 0x0000, 0x0000, .u 8, .ro, 0, 0, 18446744073709551615⟩,  -- Suppressed failure events, R89
  ⟨0x4005, 0x4005, 0x0000, 0x0000, .u 4, .rw, 1000, 0, 4294967295⟩,  -- Insertion-failure alert threshold, R89
  ⟨0x4006, 0x4006, 0x0000, 0x0000, .u 8, .ro, 0, 0, 18446744073709551615⟩,  -- Aging removals, R89
  ⟨0x4007, 0x4007, 0x0000, 0x0000, .u 8, .ro, 0, 0, 18446744073709551615⟩,  -- Reprieves, R89
  ⟨0x4008, 0x4008, 0x0000, 0x0000, .u 8, .ro, 0, 0, 18446744073709551615⟩,  -- Parity errors, R89
  ⟨0x4009, 0x4009, 0x0000, 0x0000, .u 8, .ro, 0, 0, 18446744073709551615⟩,  -- Hot-cache hits, R89
  ⟨0x400A, 0x400A, 0x0000, 0x0000, .u 8, .ro, 0, 0, 18446744073709551615⟩,  -- Hot-cache misses, R89
  ⟨0x400B, 0x400B, 0x0000, 0x0000, .u 1, .wo, 0, 0, 1⟩,  -- Rehash request, R89
  ⟨0x400C, 0x400C, 0x0000, 0x0000, .u 1, .ro, 0, 0, 255⟩,  -- Rehash state, R89
  ⟨0x400D, 0x400D, 0x0000, 0x0000, .u 2, .rw, 16, 1, 1024⟩,  -- Migration interval, R89
  ⟨0x400E, 0x400E, 0x0000, 0x0000, .u 8, .ro, 0, 0, 18446744073709551615⟩,  -- Evicted by rehash, R89
  ⟨0x400F, 0x400F, 0x0000, 0x0000, .u 1, .ro, 0, 0, 255⟩,  -- Seed epoch, R89
  ⟨0x4011, 0x401F, 0x0001, 0x0001, .oct 32, .rwp, 0, 0, 0⟩,  -- Profile p fields, R89
  ⟨0x4011, 0x401F, 0x0002, 0x0002, .bool, .rw, 1, 0, 1⟩,  -- Profile p learn, R89
  ⟨0x4011, 0x401F, 0x0003, 0x0003, .bool, .rwp, 0, 0, 1⟩,  -- Profile p symmetric, R89
  ⟨0x4011, 0x401F, 0x0004, 0x0004, .u 1, .rw, 4, 1, 8⟩,  -- Profile p smoothing shift, R89
  ⟨0x4020, 0x4020, 0x0001, 0x0001, .u 1, .rw, 0, 1, 15⟩,  -- Probe profile, R89
  ⟨0x4020, 0x4020, 0x0002, 0x0002, .oct 40, .rw, 0, 0, 0⟩,  -- Probe key, R89
  ⟨0x4020, 0x4020, 0x0003, 0x0003, .oct 64, .ro, 0, 0, 0⟩,  -- Probe result, R89
  ⟨0x4020, 0x4020, 0x0004, 0x0004, .bool, .wo, 0, 0, 1⟩,  -- Probe delete, R89
  ⟨0x4021, 0x4021, 0x0000, 0x0000, .bool, .wo, 0, 0, 1⟩,  -- Clear, R89
  ⟨0x4800, 0x4800, 0x0001, 0x0004, .u 8, .ro, 0, 0, 18446744073709551615⟩,  -- Vectors scored, R114
  ⟨0x4801, 0x4801, 0x0001, 0x0004, .u 8, .ro, 0, 0, 18446744073709551615⟩,  -- Bank wait cycles, R114
  ⟨0x4802, 0x4802, 0x0000, 0x0000, .u 8, .ro, 0, 0, 18446744073709551615⟩,  -- Undetermined verdicts, R114
  ⟨0x4803, 0x4803, 0x0000, 0x0000, .u 8, .ro, 0, 0, 18446744073709551615⟩,  -- NaN features, R114
  ⟨0x4810, 0x481F, 0x0001, 0x0009, .oct 8, .rw, 0, 0, 0⟩  -- Ensemble e action map, R114
  ]

/-- Objects 0x4820 to 0x4841. -/
def objRows4b : List ObjRow := [
  ⟨0x4820, 0x482F, 0x0001, 0x0009, .u 8, .ro, 0, 0, 18446744073709551615⟩,  -- Ensemble e verdict count, R114
  ⟨0x4830, 0x483F, 0x0000, 0x0000, .oct 80, .ro, 0, 0, 0⟩,  -- Ensemble e descriptor, R114
  ⟨0x4840, 0x4840, 0x0000, 0x0000, .oct 32, .ro, 0, 0, 0⟩,  -- Feature definitions digest, R114
  ⟨0x4841, 0x4841, 0x0001, 0x0004, .oct 32, .ro, 0, 0, 0⟩  -- Tree store digest, R114
  ]

/-- Objects 0x5001 to 0x506F. -/
def objRows5a : List ObjRow := [
  ⟨0x5001, 0x5001, 0x0000, 0x0000, .u 2, .const, 256, 0, 65535⟩,  -- Governor interval, R209
  ⟨0x5002, 0x5002, 0x0000, 0x0000, .u 2, .const, 1000, 0, 65535⟩,  -- Ramp-down time, R209
  ⟨0x5003, 0x5003, 0x0000, 0x0000, .u 1, .rw, 2, 0, 15⟩,  -- Retry limit, R255
  ⟨0x5004, 0x5004, 0x0000, 0x0000, .u 8, .ro, 0, 0, 18446744073709551615⟩,  -- Cue-light overflows, R255
  ⟨0x5010, 0x501F, 0x0001, 0x0001, .u 1, .const, 0, 0, 255⟩,  -- Physical array, R209
  ⟨0x5010, 0x501F, 0x0002, 0x0002, .u 1, .ro, 0, 0, 255⟩,  -- Array state, R209
  ⟨0x5010, 0x501F, 0x0003, 0x0003, .u 8, .ro, 0, 0, 18446744073709551615⟩,  -- Busy cycles, R209
  ⟨0x5010, 0x501F, 0x0004, 0x0004, .u 8, .ro, 0, 0, 18446744073709551615⟩,  -- Valid steps, R209
  ⟨0x5010, 0x501F, 0x0005, 0x0005, .u 8, .ro, 0, 0, 18446744073709551615⟩,  -- Bubble cycles, R209
  ⟨0x5010, 0x501F, 0x0006, 0x0006, .u 8, .ro, 0, 0, 18446744073709551615⟩,  -- Dummy cycles, R209
  ⟨0x5010, 0x501F, 0x0007, 0x0007, .u 8, .ro, 0, 0, 18446744073709551615⟩,  -- Drain-wait cycles, R209
  ⟨0x5010, 0x501F, 0x0008, 0x0008, .u 8, .ro, 0, 0, 18446744073709551615⟩,  -- A-feeder starve cycles, R209
  ⟨0x5010, 0x501F, 0x0009, 0x0009, .u 8, .ro, 0, 0, 18446744073709551615⟩,  -- B-feeder starve cycles, R209
  ⟨0x5010, 0x501F, 0x000A, 0x000A, .u 8, .ro, 0, 0, 18446744073709551615⟩,  -- Drain stall cycles, R209
  ⟨0x5010, 0x501F, 0x000B, 0x000B, .u 8, .ro, 0, 0, 18446744073709551615⟩,  -- Governor-wait cycles, R209
  ⟨0x5010, 0x501F, 0x000C, 0x000C, .u 8, .ro, 0, 0, 18446744073709551615⟩,  -- Activations, R209
  ⟨0x5010, 0x501F, 0x000D, 0x000D, .u 8, .ro, 0, 0, 18446744073709551615⟩,  -- Illegal-shape errors, R209
  ⟨0x5010, 0x501F, 0x000E, 0x000E, .u 8, .ro, 0, 0, 18446744073709551615⟩,  -- Urgent aborts, R209
  ⟨0x5020, 0x502F, 0x0001, 0x0001, .u 2, .rw, 64, 0, 1024⟩,  -- Hold period, R209
  ⟨0x5020, 0x502F, 0x0002, 0x0002, .bool, .rwp, 1, 0, 1⟩,  -- Gating enable, R209
  ⟨0x5040, 0x504F, 0x0001, 0x0001, .u 1, .ro, 255, 0, 255⟩,  -- Running ring, R255
  ⟨0x5040, 0x504F, 0x0002, 0x0002, .u 4, .ro, 0, 0, 4294967295⟩,  -- Running cue address, R255
  ⟨0x5040, 0x504F, 0x0003, 0x0003, .u 8, .ro, 0, 0, 18446744073709551615⟩,  -- Lists completed, R255
  ⟨0x5040, 0x504F, 0x0004, 0x0004, .u 8, .ro, 0, 0, 18446744073709551615⟩,  -- Aborts to restart point, R255
  ⟨0x5040, 0x504F, 0x0005, 0x0005, .u 8, .ro, 0, 0, 18446744073709551615⟩,  -- Lists abandoned, R255
  ⟨0x5040, 0x504F, 0x0006, 0x0006, .u 8, .ro, 0, 0, 18446744073709551615⟩,  -- Pre-emptions, R255
  ⟨0x5040, 0x504F, 0x0007, 0x0007, .u 8, .ro, 0, 0, 18446744073709551615⟩,  -- Trigger-delayed, R255
  ⟨0x5060, 0x506F, 0x0001, 0x0001, .u 1, .rw, 0, 0, 15⟩,  -- Sticky exceptions, R134
  ⟨0x5060, 0x506F, 0x0002, 0x0002, .u 8, .ro, 0, 0, 18446744073709551615⟩,  -- NaN outputs, R134
  ⟨0x5060, 0x506F, 0x0003, 0x0003, .u 1, .rw, 1, 0, 15⟩  -- Exception event enable, R134
  ]

/-- Objects 0x5070 to 0x5400. -/
def objRows5b : List ObjRow := [
  ⟨0x5070, 0x507F, 0x0001, 0x0001, .u 4, .ro, 0, 0, 4294967295⟩,  -- Completion log write index, R255
  ⟨0x5070, 0x507F, 0x0002, 0x0002, .u 1, .rw, 0, 0, 255⟩,  -- Completion log select, R255
  ⟨0x5070, 0x507F, 0x0003, 0x0003, .oct 32, .ro, 0, 0, 0⟩,  -- Completion record, R255
  ⟨0x5080, 0x508F, 0x0001, 0x0009, .oct 8, .rw, 0, 0, 0⟩,  -- Neural action map v, R255
  ⟨0x5100, 0x51FF, 0x0001, 0x0001, .u 4, .rwp, 0, 0, 4294967295⟩,  -- Ring base, R255
  ⟨0x5100, 0x51FF, 0x0002, 0x0002, .u 4, .rwp, 64, 64, 65536⟩,  -- Ring depth, R255
  ⟨0x5100, 0x51FF, 0x0003, 0x0003, .u 1, .rwp, 0, 0, 7⟩,  -- Ring priority, R255
  ⟨0x5100, 0x51FF, 0x0004, 0x0004, .bool, .rwp, 0, 0, 1⟩,  -- Ring urgent, R255
  ⟨0x5100, 0x51FF, 0x0005, 0x0005, .u 2, .rwp, 0, 0, 65535⟩,  -- Ring buffer stride, R255
  ⟨0x5100, 0x51FF, 0x0006, 0x0006, .bool, .rw, 0, 0, 1⟩,  -- Ring enable, R255
  ⟨0x5100, 0x51FF, 0x0007, 0x0007, .u 4, .ro, 0, 0, 4294967295⟩,  -- Producer index, R255
  ⟨0x5100, 0x51FF, 0x0008, 0x0008, .u 4, .ro, 0, 0, 4294967295⟩,  -- Consumer index, R255
  ⟨0x5100, 0x51FF, 0x0009, 0x0009, .oct 32, .wo, 0, 0, 0⟩,  -- Post cue, R255
  ⟨0x5100, 0x51FF, 0x000A, 0x000A, .u 8, .ro, 0, 0, 18446744073709551615⟩,  -- Lists started, R255
  ⟨0x5100, 0x51FF, 0x000B, 0x000B, .u 8, .ro, 0, 0, 18446744073709551615⟩,  -- Lists discarded, R255
  ⟨0x5200, 0x53FF, 0x0001, 0x0001, .u 1, .rwp, 0, 0, 5⟩,  -- Trigger source, R255
  ⟨0x5200, 0x53FF, 0x0002, 0x0002, .u 1, .rwp, 0, 0, 15⟩,  -- Target array, R255
  ⟨0x5200, 0x53FF, 0x0003, 0x0003, .u 1, .rwp, 0, 0, 15⟩,  -- Target ring, R255
  ⟨0x5200, 0x53FF, 0x0004, 0x0004, .u 2, .rwp, 0, 0, 1023⟩,  -- List number, R255
  ⟨0x5200, 0x53FF, 0x0005, 0x0005, .u 4, .rwp, 1000000, 1000, 4294967295⟩,  -- Clock period, R255
  ⟨0x5200, 0x53FF, 0x0006, 0x0006, .u 8, .rwp, 0, 0, 18446744073709551615⟩,  -- Clock phase, R255
  ⟨0x5200, 0x53FF, 0x0007, 0x0007, .u 2, .rwp, 0, 0, 2047⟩,  -- Cue light, R255
  ⟨0x5200, 0x53FF, 0x0008, 0x0008, .u 2, .rwp, 1, 1, 65535⟩,  -- Threshold, R255
  ⟨0x5200, 0x53FF, 0x0009, 0x0009, .u 4, .wo, 0, 0, 4294967295⟩,  -- Fire, R255
  ⟨0x5200, 0x53FF, 0x000A, 0x000A, .bool, .rw, 0, 0, 1⟩,  -- Trigger enable, R255
  ⟨0x5200, 0x53FF, 0x000B, 0x000B, .u 8, .ro, 0, 0, 18446744073709551615⟩,  -- Fired, R255
  ⟨0x5200, 0x53FF, 0x000C, 0x000C, .u 8, .ro, 0, 0, 18446744073709551615⟩,  -- Lost, R255
  ⟨0x5200, 0x53FF, 0x000D, 0x000D, .u 8, .ro, 0, 0, 18446744073709551615⟩,  -- Suppressed, R255
  ⟨0x5200, 0x53FF, 0x000E, 0x000E, .u 8, .ro, 0, 0, 18446744073709551615⟩,  -- Undefined list, R255
  ⟨0x5400, 0x5400, 0x0001, 0x0800, .u 2, .rwp, 0, 0, 65535⟩  -- Cue light count, R255
  ]

/-- Objects 0x5401 to 0x581F. -/
def objRows5c : List ObjRow := [
  ⟨0x5401, 0x5401, 0x0001, 0x0800, .u 2, .wo, 0, 0, 65535⟩,  -- Cue light signal, R255
  ⟨0x5800, 0x5800, 0x0000, 0x0000, .u 2, .const, 4096, 0, 65535⟩,  -- Channel records per array, R167
  ⟨0x5801, 0x5801, 0x0000, 0x0000, .bool, .rw, 1, 0, 1⟩,  -- Fallback event enable, R167
  ⟨0x5802, 0x5802, 0x0000, 0x0000, .u 8, .ro, 0, 0, 18446744073709551615⟩,  -- Scale-skew errors, R167
  ⟨0x5808, 0x5808, 0x0001, 0x0001, .u 1, .rw, 0, 0, 15⟩,  -- Probe array, R167
  ⟨0x5808, 0x5808, 0x0002, 0x0002, .u 2, .rw, 0, 0, 4095⟩,  -- Probe record, R167
  ⟨0x5808, 0x5808, 0x0003, 0x0003, .oct 64, .ro, 0, 0, 0⟩,  -- Probe result, R167
  ⟨0x5808, 0x5808, 0x0004, 0x0004, .bool, .wo, 0, 0, 1⟩,  -- Clear fallback, R167
  ⟨0x5810, 0x581F, 0x0001, 0x0001, .u 8, .ro, 0, 0, 18446744073709551615⟩,  -- Clip events, R167
  ⟨0x5810, 0x581F, 0x0002, 0x0002, .u 8, .ro, 0, 0, 18446744073709551615⟩,  -- Fallbacks, R167
  ⟨0x5810, 0x581F, 0x0003, 0x0003, .u 8, .ro, 0, 0, 18446744073709551615⟩,  -- Invalid steps, R167
  ⟨0x5810, 0x581F, 0x0004, 0x0004, .u 8, .ro, 0, 0, 18446744073709551615⟩  -- Scale-skew errors, R167
  ]

/-- Objects 0x6000 to 0x680B. -/
def objRows6a : List ObjRow := [
  ⟨0x6000, 0x6005, 0x0001, 0x0001, .u 8, .rwp, 0, 0, 18446744073709551615⟩,  -- Region r base, R278
  ⟨0x6000, 0x6005, 0x0002, 0x0002, .u 8, .rwp, 0, 0, 18446744073709551615⟩,  -- Region r size, R278
  ⟨0x6008, 0x6008, 0x0000, 0x0000, .bool, .wo, 0, 0, 1⟩,  -- Region commit, R278
  ⟨0x6010, 0x6010, 0x0000, 0x0000, .u 8, .const, 34359738368, 0, 18446744073709551615⟩,  -- Stacks capacity, R278
  ⟨0x6011, 0x6011, 0x0001, 0x0040, .u 8, .ro, 0, 0, 18446744073709551615⟩,  -- Correctable errors, R278
  ⟨0x6012, 0x6012, 0x0001, 0x0040, .u 8, .ro, 0, 0, 18446744073709551615⟩,  -- Channel busy cycles, R278
  ⟨0x6013, 0x6013, 0x0001, 0x0040, .u 8, .ro, 0, 0, 18446744073709551615⟩,  -- Bytes read, R278
  ⟨0x6014, 0x6014, 0x0001, 0x0040, .u 8, .ro, 0, 0, 18446744073709551615⟩,  -- Bytes written, R278
  ⟨0x6015, 0x6015, 0x0000, 0x0000, .bool, .ro, 0, 0, 1⟩,  -- Channel-imbalance alert, R278
  ⟨0x6016, 0x6016, 0x0000, 0x0000, .u 8, .ro, 0, 0, 18446744073709551615⟩,  -- Imbalance alerts raised, R278
  ⟨0x6017, 0x6017, 0x0000, 0x0000, .u 4, .rw, 1000, 0, 4294967295⟩,  -- Correctable alert threshold, R278
  ⟨0x6018, 0x6018, 0x0000, 0x0000, .u 4, .ro, 0, 0, 4294967295⟩,  -- Uncorrectable errors since cold start, R278
  ⟨0x6019, 0x6019, 0x0001, 0x0004, .u 1, .rwp, 0, 0, 100⟩,  -- Class shares, R278
  ⟨0x6020, 0x6020, 0x0000, 0x0000, .u 1, .rwp, 4, 0, 16⟩,  -- Burst hold-pool share, R278
  ⟨0x6021, 0x6021, 0x0000, 0x0000, .u 4, .rwp, 512, 0, 4294967295⟩,  -- Packet-buffer hold-pool share, R278
  ⟨0x6030, 0x6030, 0x0001, 0x0001, .u 8, .rw, 0, 0, 18446744073709551615⟩,  -- Peek address, R278
  ⟨0x6030, 0x6030, 0x0002, 0x0002, .oct 64, .rw, 0, 0, 0⟩,  -- Peek data, R278
  ⟨0x6040, 0x604F, 0x0001, 0x0001, .u 8, .ro, 0, 0, 18446744073709551615⟩,  -- Gather reads, R278
  ⟨0x6040, 0x604F, 0x0002, 0x0002, .u 8, .ro, 0, 0, 18446744073709551615⟩,  -- Gather-address errors, R278
  ⟨0x6800, 0x6800, 0x0000, 0x0000, .u 2, .ro, 0, 0, 65535⟩,  -- Active model accession, R299
  ⟨0x6801, 0x6801, 0x0000, 0x0000, .u 2, .ro, 0, 0, 65535⟩,  -- Retiring model accession, R299
  ⟨0x6802, 0x6802, 0x0000, 0x0000, .u 2, .ro, 0, 0, 65535⟩,  -- Retiring rule accession, R299
  ⟨0x6803, 0x6803, 0x0001, 0x0001, .u 1, .rw, 0, 0, 15⟩,  -- Model commit slot, R299
  ⟨0x6803, 0x6803, 0x0002, 0x0002, .u 1, .rw, 2, 0, 2⟩,  -- Scene change mode, R299
  ⟨0x6803, 0x6803, 0x0003, 0x0003, .u 8, .rw, 0, 0, 18446744073709551615⟩,  -- Model commit time, R299
  ⟨0x6803, 0x6803, 0x0004, 0x0004, .bool, .rw, 1, 0, 1⟩,  -- Model commit persist, R299
  ⟨0x6808, 0x6808, 0x0000, 0x0000, .u 2, .wo, 0, 0, 65535⟩,  -- Model commit, R299
  ⟨0x6809, 0x6809, 0x0000, 0x0000, .u 8, .rw, 0, 0, 18446744073709551615⟩,  -- Rule commit time, R299
  ⟨0x680A, 0x680A, 0x0000, 0x0000, .u 2, .rw, 100, 1, 10000⟩,  -- Retire timeout, R299
  ⟨0x680B, 0x680B, 0x0000, 0x0000, .u 1, .wo, 0, 1, 2⟩  -- Force retire, R299
  ]

/-- Objects 0x680C to 0x682F. -/
def objRows6b : List ObjRow := [
  ⟨0x680C, 0x680C, 0x0001, 0x0001, .u 8, .ro, 0, 0, 18446744073709551615⟩,  -- Retiring model packets, R299
  ⟨0x680C, 0x680C, 0x0002, 0x0002, .u 8, .ro, 0, 0, 18446744073709551615⟩,  -- Retiring model tap buffers, R299
  ⟨0x680C, 0x680C, 0x0003, 0x0003, .u 8, .ro, 0, 0, 18446744073709551615⟩,  -- Retiring model lists, R299
  ⟨0x680C, 0x680C, 0x0004, 0x0004, .u 8, .ro, 0, 0, 18446744073709551615⟩,  -- Retiring rule packets, R299
  ⟨0x680D, 0x680D, 0x0000, 0x0000, .u 8, .ro, 0, 0, 18446744073709551615⟩,  -- Retirements, R299
  ⟨0x680E, 0x680E, 0x0000, 0x0000, .u 8, .ro, 0, 0, 18446744073709551615⟩,  -- Overdue retirements, R299
  ⟨0x680F, 0x680F, 0x0000, 0x0000, .u 1, .rwp, 0, 0, 7⟩,  -- Install priority, R299
  ⟨0x6810, 0x681F, 0x0001, 0x0001, .u 1, .ro, 0, 0, 255⟩,  -- Install state, R299
  ⟨0x6810, 0x681F, 0x0002, 0x0002, .u 8, .ro, 0, 0, 18446744073709551615⟩,  -- Ripple-lost firings, R299
  ⟨0x6820, 0x682F, 0x0001, 0x0001, .u 1, .ro, 0, 0, 255⟩,  -- Slot state, R299
  ⟨0x6820, 0x682F, 0x0002, 0x0002, .u 4, .ro, 0, 0, 4294967295⟩,  -- Image id, R299
  ⟨0x6820, 0x682F, 0x0003, 0x0003, .u 1, .ro, 0, 0, 255⟩,  -- Generation, R299
  ⟨0x6820, 0x682F, 0x0004, 0x0004, .u 4, .ro, 0, 0, 4294967295⟩,  -- Image size, R299
  ⟨0x6820, 0x682F, 0x0005, 0x0005, .oct 32, .ro, 0, 0, 0⟩,  -- Image digest, R299
  ⟨0x6820, 0x682F, 0x0006, 0x0006, .u 1, .wo, 0, 0, 2⟩,  -- Stage request, R299
  ⟨0x6820, 0x682F, 0x0007, 0x0007, .bool, .rw, 1, 0, 1⟩,  -- Persist, R299
  ⟨0x6820, 0x682F, 0x0008, 0x0008, .bool, .wo, 0, 0, 1⟩,  -- Erase, R299
  ⟨0x6820, 0x682F, 0x0009, 0x0009, .u 4, .ro, 0, 0, 4294967295⟩  -- Last load abort, R299
  ]

/-- Objects 0x7000 to 0x7105. -/
def objRows7a : List ObjRow := [
  ⟨0x7000, 0x7000, 0x0001, 0x0004, .i 1, .rw, 20, 0, 0⟩,  -- Length overhead, R325
  ⟨0x7001, 0x7001, 0x0001, 0x0004, .u 1, .rw, 0, 0, 2⟩,  -- Undetermined action, R325
  ⟨0x7002, 0x7002, 0x0000, 0x0000, .u 4, .rw, 1000, 1, 100000⟩,  -- Hold timeout, R325
  ⟨0x7003, 0x7003, 0x0000, 0x0000, .u 4, .ro, 0, 0, 4294967295⟩,  -- Held packets, R325
  ⟨0x7004, 0x7004, 0x0000, 0x0000, .u 8, .ro, 0, 0, 18446744073709551615⟩,  -- Held bytes in burst share, R325
  ⟨0x7005, 0x7005, 0x0000, 0x0000, .u 8, .ro, 0, 0, 18446744073709551615⟩,  -- Held bytes in packet-buffer share, R325
  ⟨0x7006, 0x7006, 0x0000, 0x0000, .u 8, .ro, 0, 0, 18446744073709551615⟩,  -- Hold-pool full, R325
  ⟨0x7007, 0x7007, 0x0000, 0x0000, .u 8, .ro, 0, 0, 18446744073709551615⟩,  -- Hold timeouts, R325
  ⟨0x7008, 0x7008, 0x0000, 0x0000, .u 8, .ro, 0, 0, 18446744073709551615⟩,  -- Late verdicts, R325
  ⟨0x7009, 0x7009, 0x0000, 0x0000, .u 2, .rwp, 1024, 0, 8192⟩,  -- Spill reserve, R325
  ⟨0x700A, 0x700A, 0x0000, 0x0000, .u 2, .rwp, 34998, 0, 65535⟩,  -- Result EtherType, R325
  ⟨0x700B, 0x700B, 0x0000, 0x0000, .oct 6, .rwp, 0, 0, 0⟩,  -- Result destination, R325
  ⟨0x700C, 0x700C, 0x0000, 0x0000, .oct 6, .rwp, 0, 0, 0⟩,  -- Result source, R325
  ⟨0x700D, 0x700D, 0x0000, 0x0000, .u 2, .rwp, 0, 0, 65535⟩,  -- Result VLAN, R325
  ⟨0x700E, 0x700E, 0x0000, 0x0000, .u 2, .rw, 8191, 0, 8191⟩,  -- Verdict-record queue, R325
  ⟨0x700F, 0x700F, 0x0000, 0x0000, .u 2, .rw, 8191, 0, 8191⟩,  -- Retraction queue, R325
  ⟨0x7010, 0x7010, 0x0000, 0x0000, .u 4, .ro, 0, 0, 4294967295⟩,  -- Next record sequence, R325
  ⟨0x7011, 0x7011, 0x0000, 0x0000, .u 8, .ro, 0, 0, 18446744073709551615⟩,  -- Oversize results, R325
  ⟨0x7012, 0x7012, 0x0000, 0x0000, .u 8, .ro, 0, 0, 18446744073709551615⟩,  -- Flushed packets, R325
  ⟨0x7013, 0x7013, 0x0001, 0x0004, .u 8, .ro, 0, 0, 18446744073709551615⟩,  -- Bytes in burst buffer, R325
  ⟨0x7014, 0x7014, 0x0001, 0x0004, .u 8, .ro, 0, 0, 18446744073709551615⟩,  -- Bytes in packet buffer, R325
  ⟨0x7020, 0x7020, 0x0001, 0x0100, .u 1, .rwp, 0, 0, 255⟩,  -- Group port, R325
  ⟨0x7021, 0x7021, 0x0001, 0x0100, .u 4, .rw, 0, 0, 4294967295⟩,  -- Group rate, R325
  ⟨0x7022, 0x7022, 0x0001, 0x0100, .u 4, .rw, 16384, 0, 4294967295⟩,  -- Group burst, R325
  ⟨0x7100, 0x7100, 0x0001, 0x2000, .u 1, .rwp, 0, 0, 255⟩,  -- Queue port, R325
  ⟨0x7101, 0x7101, 0x0001, 0x2000, .u 1, .rwp, 0, 0, 255⟩,  -- Queue level, R325
  ⟨0x7102, 0x7102, 0x0001, 0x2000, .u 2, .rwp, 65535, 0, 65535⟩,  -- Queue group, R325
  ⟨0x7103, 0x7103, 0x0001, 0x2000, .u 1, .rw, 1, 1, 255⟩,  -- Queue weight, R325
  ⟨0x7104, 0x7104, 0x0001, 0x2000, .u 4, .rw, 0, 0, 4294967295⟩,  -- Queue rate, R325
  ⟨0x7105, 0x7105, 0x0001, 0x2000, .u 4, .rw, 16384, 0, 4294967295⟩  -- Queue burst, R325
  ]

/-- Objects 0x7106 to 0x7823. -/
def objRows7b : List ObjRow := [
  ⟨0x7106, 0x7106, 0x0001, 0x2000, .u 4, .rw, 4194304, 64, 1073741824⟩,  -- Queue maximum depth, R325
  ⟨0x7107, 0x7107, 0x0001, 0x2000, .u 8, .ro, 0, 0, 18446744073709551615⟩,  -- Queue depth bytes, R325
  ⟨0x7108, 0x7108, 0x0001, 0x2000, .u 4, .ro, 0, 0, 4294967295⟩,  -- Queue depth packets, R325
  ⟨0x7109, 0x7109, 0x0001, 0x2000, .u 8, .ro, 0, 0, 18446744073709551615⟩,  -- Queue head delay, R325
  ⟨0x710A, 0x710A, 0x0001, 0x2000, .u 8, .ro, 0, 0, 18446744073709551615⟩,  -- Queue enqueued, R325
  ⟨0x710B, 0x710B, 0x0001, 0x2000, .u 8, .ro, 0, 0, 18446744073709551615⟩,  -- Queue drops, R325
  ⟨0x710C, 0x710C, 0x0001, 0x2000, .u 8, .ro, 0, 0, 18446744073709551615⟩,  -- Queue bytes sent, R325
  ⟨0x7800, 0x7800, 0x0000, 0x0000, .u 2, .rwp, 65535, 0, 65535⟩,  -- Module number, R352
  ⟨0x7801, 0x7801, 0x0000, 0x0000, .u 1, .rwp, 1, 1, 64⟩,  -- Bay count, R352
  ⟨0x7802, 0x7802, 0x0000, 0x0000, .u 2, .rwp, 65535, 0, 65535⟩,  -- Edge module number, R352
  ⟨0x7803, 0x7803, 0x0000, 0x0000, .u 8, .rw, 18446744073709551615, 0, 18446744073709551615⟩,  -- Export read mask, R352
  ⟨0x7804, 0x7804, 0x0000, 0x0000, .u 8, .rw, 18446744073709551615, 0, 18446744073709551615⟩,  -- Export write mask, R352
  ⟨0x7805, 0x7805, 0x0000, 0x0000, .u 8, .rw, 18446744073709551615, 0, 18446744073709551615⟩,  -- Export doorbell mask, R352
  ⟨0x7806, 0x7806, 0x0000, 0x0000, .u 4, .rw, 500, 100, 10000⟩,  -- Operation timeout, R352
  ⟨0x7807, 0x7807, 0x0000, 0x0000, .u 1, .rw, 0, 0, 2⟩,  -- Routing mode, R352
  ⟨0x7808, 0x7808, 0x0000, 0x0000, .u 2, .rw, 16, 0, 1024⟩,  -- Adaptive threshold, R352
  ⟨0x7810, 0x7810, 0x0001, 0x0010, .u 1, .ro, 0, 0, 255⟩,  -- Port state, R352
  ⟨0x7811, 0x7811, 0x0001, 0x0010, .u 2, .ro, 65535, 0, 65535⟩,  -- Peer module, R352
  ⟨0x7812, 0x7812, 0x0001, 0x0010, .u 1, .ro, 255, 0, 255⟩,  -- Peer port, R352
  ⟨0x7813, 0x7813, 0x0001, 0x0010, .i 2, .rwp, 0, 0, 0⟩,  -- Asymmetry correction, R352
  ⟨0x7814, 0x7814, 0x0001, 0x0010, .u 8, .ro, 0, 0, 18446744073709551615⟩,  -- Flits sent, R352
  ⟨0x7815, 0x7815, 0x0001, 0x0010, .u 8, .ro, 0, 0, 18446744073709551615⟩,  -- Flits received, R352
  ⟨0x7816, 0x7816, 0x0001, 0x0010, .u 8, .ro, 0, 0, 18446744073709551615⟩,  -- Retries, R352
  ⟨0x7817, 0x7817, 0x0001, 0x0010, .u 8, .ro, 0, 0, 18446744073709551615⟩,  -- FEC corrected codewords, R352
  ⟨0x7818, 0x7818, 0x0001, 0x0010, .u 8, .ro, 0, 0, 18446744073709551615⟩,  -- FEC uncorrectable codewords, R352
  ⟨0x7819, 0x7819, 0x0001, 0x0010, .u 8, .ro, 0, 0, 18446744073709551615⟩,  -- Link failures, R352
  ⟨0x7820, 0x7820, 0x0001, 0x0007, .u 8, .ro, 0, 0, 18446744073709551615⟩,  -- Operations by status, R352
  ⟨0x7821, 0x7821, 0x0000, 0x0000, .u 8, .ro, 0, 0, 18446744073709551615⟩,  -- Remote operations refused, R352
  ⟨0x7822, 0x7822, 0x0000, 0x0000, .u 8, .ro, 0, 0, 18446744073709551615⟩,  -- Doorbells discarded, R352
  ⟨0x7823, 0x7823, 0x0000, 0x0000, .u 8, .ro, 0, 0, 18446744073709551615⟩  -- Aged flits discarded, R352
  ]

/-- Objects 0x8000 to 0x8802. -/
def objRows8a : List ObjRow := [
  ⟨0x8000, 0x8000, 0x0000, 0x0000, .bool, .rwp, 0, 0, 1⟩,  -- Full redundancy, R387
  ⟨0x8001, 0x8001, 0x0000, 0x0000, .u 4, .rw, 10, 1, 1000⟩,  -- Weight-digest interval, R387
  ⟨0x8002, 0x8002, 0x0000, 0x0000, .oct 18, .rw, 0, 0, 0⟩,  -- Error collector, R387
  ⟨0x8003, 0x8003, 0x0000, 0x0000, .u 4, .rw, 2000, 0, 4294967295⟩,  -- Fabric-residual threshold, R427
  ⟨0x8004, 0x8004, 0x0000, 0x0000, .bool, .ro, 0, 0, 1⟩,  -- Fabric-residual alert, R427
  ⟨0x8005, 0x8005, 0x0000, 0x0000, .u 8, .ro, 0, 0, 18446744073709551615⟩,  -- Scrub passes, R427
  ⟨0x8006, 0x8006, 0x0000, 0x0000, .u 8, .ro, 0, 0, 18446744073709551615⟩,  -- Late scrubs, R427
  ⟨0x8007, 0x8007, 0x0000, 0x0000, .u 8, .ro, 0, 0, 18446744073709551615⟩,  -- Digest mismatches, R427
  ⟨0x8008, 0x8008, 0x0000, 0x0000, .u 8, .ro, 0, 0, 18446744073709551615⟩,  -- Retraction notices sent, R427
  ⟨0x8009, 0x8009, 0x0001, 0x0001, .u 8, .ro, 0, 0, 18446744073709551615⟩,  -- Lockstep rows compared, R427
  ⟨0x8009, 0x8009, 0x0002, 0x0002, .u 8, .ro, 0, 0, 18446744073709551615⟩,  -- Lockstep disagreements, R427
  ⟨0x8009, 0x8009, 0x0003, 0x0003, .u 8, .ro, 0, 0, 18446744073709551615⟩,  -- Arbitrations resolved, R427
  ⟨0x8009, 0x8009, 0x0004, 0x0004, .u 8, .ro, 0, 0, 18446744073709551615⟩,  -- Arbitrations undecidable, R427
  ⟨0x8010, 0x8010, 0x0000, 0x0000, .bool, .wo, 0, 0, 1⟩,  -- Clear replacement flag, R427
  ⟨0x8011, 0x8011, 0x0000, 0x0000, .u 2, .rw, 500, 100, 900⟩,  -- Arbitration timeout, R427
  ⟨0x8012, 0x8012, 0x0000, 0x0000, .u 2, .wo, 0, 0, 65535⟩,  -- Scan request, R427
  ⟨0x8013, 0x8013, 0x0000, 0x0000, .u 1, .ro, 0, 0, 255⟩,  -- Last die scan result, R427
  ⟨0x8014, 0x8014, 0x0000, 0x0000, .u 8, .ro, 0, 0, 18446744073709551615⟩,  -- Last die scan time, R427
  ⟨0x8015, 0x8015, 0x0000, 0x0000, .u 2, .ro, 65535, 0, 65535⟩,  -- First suspect unit, R427
  ⟨0x8020, 0x802F, 0x0001, 0x0001, .u 8, .ro, 0, 0, 18446744073709551615⟩,  -- Last good digest, R427
  ⟨0x8020, 0x802F, 0x0002, 0x0002, .u 8, .ro, 0, 0, 18446744073709551615⟩,  -- Last passing scan, R427
  ⟨0x8020, 0x802F, 0x0003, 0x0003, .u 1, .ro, 0, 0, 255⟩,  -- Scan state, R427
  ⟨0x8031, 0x8031, 0x0001, 0x0040, .u 8, .ro, 0, 0, 18446744073709551615⟩,  -- Records suppressed, R427
  ⟨0x8032, 0x8032, 0x0001, 0x0001, .u 8, .ro, 0, 0, 18446744073709551615⟩,  -- Records pushed, R427
  ⟨0x8032, 0x8032, 0x0002, 0x0002, .u 8, .ro, 0, 0, 18446744073709551615⟩,  -- Pushes suppressed, R427
  ⟨0x8033, 0x8033, 0x0001, 0x0040, .u 8, .ro, 0, 0, 18446744073709551615⟩,  -- Errors by class, R427
  ⟨0x8038, 0x803B, 0x0000, 0x0000, .u 8, .ro, 0, 0, 18446744073709551615⟩,  -- Tree bank last good digest, R427
  ⟨0x8800, 0x8800, 0x0000, 0x0000, .u 4, .rw, 1000, 1, 1000000⟩,  -- Sampling interval, R387
  ⟨0x8801, 0x8801, 0x0000, 0x0000, .u 2, .rw, 767, 0, 65535⟩,  -- Sample group mask, R458
  ⟨0x8802, 0x8802, 0x0001, 0x0001, .u 2, .rw, 0, 0, 8191⟩  -- Sampled first queue, R458
  ]

/-- Objects 0x8802 to 0x885F. -/
def objRows8b : List ObjRow := [
  ⟨0x8802, 0x8802, 0x0002, 0x0002, .u 2, .rw, 0, 0, 8192⟩,  -- Sampled queue count, R458
  ⟨0x8803, 0x8803, 0x0000, 0x0000, .u 8, .ro, 0, 0, 18446744073709551615⟩,  -- Strobes taken, R458
  ⟨0x8804, 0x8804, 0x0000, 0x0000, .u 8, .ro, 0, 0, 18446744073709551615⟩,  -- Strobes skipped, R458
  ⟨0x8808, 0x8808, 0x0000, 0x0000, .u 1, .rwp, 0, 0, 1⟩,  -- Logbook mode, R458
  ⟨0x8809, 0x8809, 0x0000, 0x0000, .u 8, .ro, 0, 0, 18446744073709551615⟩,  -- Logbook write offset, R458
  ⟨0x880A, 0x880A, 0x0000, 0x0000, .u 8, .ro, 0, 0, 18446744073709551615⟩,  -- Logbook wraps, R458
  ⟨0x880B, 0x880B, 0x0000, 0x0000, .u 4, .ro, 0, 0, 4294967295⟩,  -- Next logbook sequence, R458
  ⟨0x880C, 0x880C, 0x0001, 0x0005, .u 8, .ro, 0, 0, 18446744073709551615⟩,  -- Records lost, R458
  ⟨0x880D, 0x880D, 0x0000, 0x0000, .u 8, .ro, 0, 0, 18446744073709551615⟩,  -- Gap records, R458
  ⟨0x880E, 0x880E, 0x0000, 0x0000, .u 2, .rw, 0, 0, 65535⟩,  -- Completion copy mask, R458
  ⟨0x8810, 0x8810, 0x0001, 0x0001, .bool, .rwp, 0, 0, 1⟩,  -- EVT_OUT PPS output, R387
  ⟨0x8810, 0x8810, 0x0002, 0x0002, .bool, .rwp, 0, 0, 1⟩,  -- EVT_OUT trace-trigger output, R387
  ⟨0x8810, 0x8810, 0x0003, 0x0003, .u 2, .rw, 65535, 0, 65535⟩,  -- Trace-trigger range id, R458
  ⟨0x8811, 0x8811, 0x0000, 0x0000, .u 4, .wo, 0, 0, 4294967295⟩,  -- Host marker, R458
  ⟨0x8812, 0x8812, 0x0000, 0x0000, .bool, .rw, 1, 0, 1⟩,  -- Firmware markers, R458
  ⟨0x8820, 0x8820, 0x0000, 0x0000, .bool, .rw, 0, 0, 1⟩,  -- Sync trace enable, R458
  ⟨0x8821, 0x8821, 0x0000, 0x0000, .oct 256, .rw, 0, 0, 0⟩,  -- Sync trace lights, R458
  ⟨0x8822, 0x8822, 0x0000, 0x0000, .u 4, .rw, 0, 0, 4294967295⟩,  -- Sync trace minimum wait, R458
  ⟨0x8830, 0x8830, 0x0000, 0x0000, .u 2, .rw, 0, 0, 65535⟩,  -- Tensor watch arm, R458
  ⟨0x8831, 0x8831, 0x0000, 0x0000, .u 8, .ro, 0, 0, 18446744073709551615⟩,  -- Tensor watch records, R458
  ⟨0x8840, 0x8840, 0x0000, 0x0000, .u 1, .rw, 7, 0, 7⟩,  -- Dump causes, R458
  ⟨0x8841, 0x8841, 0x0000, 0x0000, .u 1, .rw, 1, 0, 1⟩,  -- Dump retention, R458
  ⟨0x8842, 0x8842, 0x0000, 0x0000, .u 8, .wo, 0, 0, 18446744073709551615⟩,  -- Freeze request, R458
  ⟨0x8843, 0x8843, 0x0000, 0x0000, .u 8, .ro, 0, 0, 18446744073709551615⟩,  -- Dumps taken, R458
  ⟨0x8844, 0x8844, 0x0000, 0x0000, .u 8, .ro, 0, 0, 18446744073709551615⟩,  -- Dumps lost, R458
  ⟨0x8850, 0x885F, 0x0001, 0x0001, .u 4, .rw, 10000, 0, 4294967295⟩,  -- Watchdog time, R458
  ⟨0x8850, 0x885F, 0x0002, 0x0002, .u 8, .ro, 0, 0, 18446744073709551615⟩,  -- Hangs declared, R458
  ⟨0x8850, 0x885F, 0x0003, 0x0003, .u 8, .ro, 0, 0, 18446744073709551615⟩  -- Last progress, R458
  ]

/-- Objects 0x9000 to 0x9803. -/
def objRows9a : List ObjRow := [
  ⟨0x9000, 0x9000, 0x0000, 0x0000, .u 1, .ro, 0, 0, 255⟩,  -- Enforcement, R480
  ⟨0x9001, 0x9001, 0x0001, 0x0002, .oct 32, .ro, 0, 0, 0⟩,  -- Vendor key hash, R480
  ⟨0x9002, 0x9002, 0x0000, 0x0000, .bool, .ro, 0, 0, 1⟩,  -- Vendor key 0 revoked, R480
  ⟨0x9003, 0x9003, 0x0000, 0x0000, .oct 32, .ro, 0, 0, 0⟩,  -- Owner key hash, R480
  ⟨0x9004, 0x9004, 0x0001, 0x0001, .oct 32, .wo, 0, 0, 0⟩,  -- Owner key hash write, R480
  ⟨0x9004, 0x9004, 0x0002, 0x0002, .oct 32, .wo, 0, 0, 0⟩,  -- Owner key hash confirm, R480
  ⟨0x9005, 0x9005, 0x0000, 0x0000, .u 1, .wo, 0, 0, 255⟩,  -- Enforcement program, R480
  ⟨0x9006, 0x9006, 0x0001, 0x0040, .u 1, .ro, 0, 0, 255⟩,  -- Anti-rollback counter, R480
  ⟨0x9007, 0x9007, 0x0000, 0x0000, .u 1, .wo, 0, 0, 63⟩,  -- Raise counter, R480
  ⟨0x9008, 0x9008, 0x0000, 0x0000, .u 1, .ro, 0, 0, 255⟩,  -- Preferred firmware slot, R480
  ⟨0x9009, 0x9009, 0x0000, 0x0000, .u 1, .wo, 0, 0, 1⟩,  -- Activate firmware slot, R480
  ⟨0x900A, 0x900A, 0x0000, 0x0000, .bool, .wo, 0, 0, 1⟩,  -- Confirm firmware, R480
  ⟨0x900B, 0x900B, 0x0000, 0x0000, .bool, .ro, 0, 0, 1⟩,  -- Trial boot, R480
  ⟨0x9010, 0x9017, 0x0000, 0x0000, .oct 64, .rw, 0, 0, 0⟩,  -- Host key slot k, R387
  ⟨0x9018, 0x9018, 0x0000, 0x0000, .oct 64, .const, 0, 0, 0⟩,  -- Identity public key, R480
  ⟨0x9019, 0x9019, 0x0001, 0x0001, .u 2, .const, 0, 0, 65535⟩,  -- Identity certificate length, R480
  ⟨0x9019, 0x9019, 0x0002, 0x0002, .oct 1024, .const, 0, 0, 0⟩,  -- Identity certificate, R480
  ⟨0x901A, 0x901A, 0x0000, 0x0000, .oct 192, .ro, 0, 0, 0⟩,  -- Attestation certificate, R480
  ⟨0x901B, 0x901B, 0x0000, 0x0000, .oct 32, .wo, 0, 0, 0⟩,  -- Attestation nonce, R480
  ⟨0x901C, 0x901C, 0x0000, 0x0000, .oct 512, .ro, 0, 0, 0⟩,  -- Attestation report, R480
  ⟨0x9020, 0x9020, 0x0000, 0x0000, .oct 32, .ro, 0, 0, 0⟩,  -- Debug challenge, R480
  ⟨0x9021, 0x9021, 0x0000, 0x0000, .oct 256, .wo, 0, 0, 0⟩,  -- Debug token, R480
  ⟨0x9022, 0x9022, 0x0000, 0x0000, .u 1, .ro, 0, 0, 255⟩,  -- Debug level, R480
  ⟨0x9023, 0x9023, 0x0000, 0x0000, .u 8, .ro, 0, 0, 18446744073709551615⟩,  -- Debug unlocks, R480
  ⟨0x9024, 0x9024, 0x0000, 0x0000, .u 8, .ro, 0, 0, 18446744073709551615⟩,  -- Verification failures, R480
  ⟨0x9025, 0x9025, 0x0000, 0x0000, .oct 32, .const, 0, 0, 0⟩,  -- Boot ROM digest, R480
  ⟨0x9800, 0x9800, 0x0000, 0x0000, .u 1, .ro, 0, 0, 255⟩,  -- Throttle step, R387
  ⟨0x9801, 0x9801, 0x0000, 0x0000, .u 2, .ro, 0, 0, 65535⟩,  -- Input voltage, R505
  ⟨0x9802, 0x9802, 0x0000, 0x0000, .u 2, .ro, 0, 0, 65535⟩,  -- Input current, R505
  ⟨0x9803, 0x9803, 0x0000, 0x0000, .u 4, .ro, 0, 0, 4294967295⟩  -- Input power, R505
  ]

/-- Objects 0x9804 to 0x980A. -/
def objRows9b : List ObjRow := [
  ⟨0x9804, 0x9804, 0x0001, 0x001D, .i 2, .ro, 0, 0, 0⟩,  -- Temperature, R505
  ⟨0x9805, 0x9805, 0x0001, 0x000B, .i 2, .ro, 0, 0, 0⟩,  -- Rail voltage, R505
  ⟨0x9806, 0x9806, 0x0001, 0x0010, .i 2, .ro, 0, 0, 0⟩,  -- Array rail voltage, R505
  ⟨0x9807, 0x9807, 0x0001, 0x0011, .u 8, .ro, 0, 0, 18446744073709551615⟩,  -- Droop events, R505
  ⟨0x9808, 0x9808, 0x0001, 0x0004, .u 8, .ro, 0, 0, 18446744073709551615⟩,  -- Throttle entries, R505
  ⟨0x9809, 0x9809, 0x0000, 0x0000, .u 8, .ro, 0, 0, 18446744073709551615⟩,  -- Throttled time, R505
  ⟨0x980A, 0x980A, 0x0000, 0x0000, .u 4, .ro, 6144, 0, 4294967295⟩  -- Model store free, R505
  ]

/-- Objects 0xA000 to 0xA050. -/
def objRowsA : List ObjRow := [
  ⟨0xA000, 0xA000, 0x0000, 0x0000, .domain, .wo, 0, 0, 0⟩,  -- Firmware slot A, R389
  ⟨0xA001, 0xA001, 0x0000, 0x0000, .domain, .wo, 0, 0, 0⟩,  -- Firmware slot B, R389
  ⟨0xA002, 0xA002, 0x0001, 0x0002, .u 1, .ro, 0, 0, 255⟩,  -- Firmware slot state, R389
  ⟨0xA003, 0xA003, 0x0001, 0x0002, .str 16, .ro, 0, 0, 0⟩,  -- Firmware slot version, R389
  ⟨0xA010, 0xA01F, 0x0000, 0x0000, .domain, .wo, 0, 0, 0⟩,  -- Image slot s, R299
  ⟨0xA020, 0xA020, 0x0000, 0x0000, .domain, .ro, 0, 0, 0⟩,  -- Hang dump, R389
  ⟨0xA021, 0xA021, 0x0000, 0x0000, .u 8, .ro, 0, 0, 18446744073709551615⟩,  -- Hang dump time, R389
  ⟨0xA022, 0xA022, 0x0000, 0x0000, .bool, .wo, 0, 0, 1⟩,  -- Hang dump clear, R389
  ⟨0xA030, 0xA030, 0x0000, 0x0000, .domain, .ro, 0, 0, 0⟩,  -- Error journal, R389
  ⟨0xA031, 0xA031, 0x0000, 0x0000, .u 4, .ro, 0, 0, 4294967295⟩,  -- Error journal records, R389
  ⟨0xA040, 0xA040, 0x0000, 0x0000, .domain, .wo, 0, 0, 0⟩,  -- Scan content, R389
  ⟨0xA041, 0xA041, 0x0000, 0x0000, .u 1, .ro, 0, 0, 255⟩,  -- Scan content state, R389
  ⟨0xA042, 0xA042, 0x0000, 0x0000, .u 4, .ro, 0, 0, 4294967295⟩,  -- Scan content version, R389
  ⟨0xA050, 0xA050, 0x0000, 0x0000, .domain, .rw, 0, 0, 0⟩  -- Configuration store, R389
  ]

/-- The rows of the objects whose index begins with the hexadecimal digit `n`, in rising order. -/
def objChapter (n : Nat) : List ObjRow :=
  if n = 1 then objRows1a ++ objRows1b
  else if n = 2 then objRows2
  else if n = 3 then objRows3a ++ objRows3b
  else if n = 4 then objRows4a ++ objRows4b
  else if n = 5 then objRows5a ++ objRows5b ++ objRows5c
  else if n = 6 then objRows6a ++ objRows6b
  else if n = 7 then objRows7a ++ objRows7b
  else if n = 8 then objRows8a ++ objRows8b
  else if n = 9 then objRows9a ++ objRows9b
  else if n = 10 then objRowsA
  else []

end Sys2Proof
end

