-- ==== Sys2Proof/Machine/Sparse.lean ====
section
/-! DEFINITION. Sparse tables in one canonical form: keys strictly rising, no entry equal to what an
unlisted key reads as. `d` says what an unlisted key reads as. -/

namespace Sys2Proof

/-- What key `x` reads as. -/
def Sparse.read {α : Type} (d : Nat → α) : Sparse α → Nat → α
  | [], x => d x
  | (k, v) :: m, x => if k = x then v else Sparse.read d m x

/-- Writes `v` at key `x`; writing what an unlisted key reads as removes the entry. -/
def Sparse.write {α : Type} [DecidableEq α] (d : Nat → α) : Sparse α → Nat → α → Sparse α
  | [], x, v => if v = d x then [] else [(x, v)]
  | (k, w) :: m, x, v =>
    if k < x then (k, w) :: Sparse.write d m x v
    else if k = x then (if v = d x then m else (x, v) :: m)
    else (if v = d x then (k, w) :: m else (x, v) :: (k, w) :: m)

/-- Keys strictly above `lo` (when given), strictly rising, and no entry at its default. -/
def Sparse.wfFrom {α : Type} [DecidableEq α] (d : Nat → α) : Option Nat → Sparse α → Bool
  | _, [] => true
  | none, (k, v) :: m => decide (v ≠ d k) && Sparse.wfFrom d (some k) m
  | some lo, (k, v) :: m => decide (lo < k) && decide (v ≠ d k) && Sparse.wfFrom d (some k) m

/-- The canonical form holds. -/
def Sparse.wf {α : Type} [DecidableEq α] (d : Nat → α) (m : Sparse α) : Bool := Sparse.wfFrom d none m

/-- Writes the list of values at `x`, `x + 1`, … -/
def Sparse.writeList {α : Type} [DecidableEq α] (d : Nat → α) (m : Sparse α) (x : Nat) : List α → Sparse α
  | [] => m
  | v :: vs => Sparse.writeList d (Sparse.write d m x v) (x + 1) vs

/-- The `n` values at `x`, `x + 1`, … -/
def Sparse.readList {α : Type} (d : Nat → α) (m : Sparse α) (x : Nat) : Nat → List α
  | 0 => []
  | n + 1 => Sparse.read d m x :: Sparse.readList d m (x + 1) n

/-- Every key from `x` to `x + n - 1` reads as its default again. -/
def Sparse.clear {α : Type} (m : Sparse α) (x n : Nat) : Sparse α :=
  m.filter fun e => decide (e.1 < x) || decide (x + n ≤ e.1)

/-- The entry of unit `i` of a fixed table of units. -/
def vget {α : Type} {n : Nat} (v : Vector α n) (i : Fin n) : α := v[i.val]

/-- The table with unit `i` replaced. -/
def vset {α : Type} {n : Nat} (v : Vector α n) (i : Fin n) (x : α) : Vector α n := v.set i.val x i.isLt

/-- The table with unit `i` changed by `f`. -/
def vmod {α : Type} {n : Nat} (v : Vector α n) (i : Fin n) (f : α → α) : Vector α n := vset v i (f (vget v i))

end Sys2Proof
end

