-- ==== Sys2Proof/Machine/Types.lean ====
section
/-! DEFINITION. The types the state is made of: what the manual gives each part of the module, as plain data. -/

namespace Sys2Proof.Machine

/-- The four grades (R3). -/
inductive Grade where
  | dw16lc | dw16af | dw12lc | dw12af
  deriving DecidableEq, Repr, Inhabited

/-- What is fixed at manufacture (R3, R4, R207, R386, R469, R480); numbers of OCTETS and STR objects are
little-endian, first byte lowest. -/
structure Mfg where
  grade       : Grade := .dw16lc
  fused       : List Nat := []
  /-- The serial number as an integer of twelve decimal digits. -/
  serial      : Nat := 0
  boardRev    : Nat := 0
  romVersion  : Nat := 0
  mgmtMac     : Nat := 0
  lineMac     : Nat := 0
  identityPub : Nat := 0
  certLen     : Nat := 0
  cert        : Nat := 0
  romDigest   : Nat := 0
  /-- Header digest of the firmware that slot A holds from the factory. -/
  fwDigest    : Nat := 0
  vendorHash0 : Nat := 0
  vendorHash1 : Nat := 0
  deriving DecidableEq, Repr, Inhabited

/-- A bypass element group: closed means bypass conducting (R22); a switch takes up to 19 µs (R496). -/
inductive Elem where
  | closed | opening | isOpen | closing
  deriving DecidableEq, Repr, Inhabited

/-- Power and pins (chapter Power, reset, safety curtain and connectors). -/
structure Pwr where
  vin           : Nat := 48000
  railsGood     : Bool := true
  vcgUp         : Bool := true
  gateInline    : Bool := false
  gateRing      : Bool := false
  pair01        : Elem := .closed
  pair23        : Elem := .closed
  ring          : Elem := .closed
  resetN        : Bool := true
  coldPending   : Bool := false
  outOfBand     : Bool := false
  droop         : Nat := 0
  stretched     : Nat := 0
  refreshHalved : Nat := 0
  throttledFrom : Option Nat := none
  evtOut        : Bool := false
  evtEnd        : Option Nat := none
  deriving DecidableEq, Repr, Inhabited

/-- The device states (R22, R378). -/
inductive DevState where
  | off | reset | boot | prepare | run | drain | test | fault
  deriving DecidableEq, Repr, Inhabited

/-- A transition in progress (R33, R379, R380), with the house time of its request. -/
inductive Trans where
  | none | toRun (start : Nat) | toPrepare (start : Nat)
  deriving DecidableEq, Repr, Inhabited

/-- The kind of the reset in progress or last performed (R492). -/
inductive BootKind where
  | cold | resetN | host | fault | test
  deriving DecidableEq, Repr, Inhabited

/-- The device state machine (R378 to R381). -/
structure Dev where
  st           : DevState := .reset
  trans        : Trans := .none
  boot         : BootKind := .cold
  noFaultReset : Bool := false
  /-- The stage manager's 4 MiB of SRAM (R12): firmware's own; no command reads or writes it. -/
  sram         : Sparse Byte := []
  /-- House time of entry into the present state. -/
  since        : Nat := 0
  /-- Entry into FAULT or TEST: the clocks stop from here, for the gap record of R443 that BOOT writes. -/
  stopAt       : Option Nat := none
  deriving DecidableEq, Repr, Inhabited

/-- The house clock (R345 to R349, R500, R501). -/
structure Clock where
  house        : Nat := 0
  parent       : Option Nat := none
  /-- The clock's count up to which slewing has been spent (R349). -/
  slewFrom     : Nat := 0
  /-- Instant at which the grandmaster was lost (R351). -/
  lostAt       : Option Nat := none
  /-- Consecutive PPS edges discarded (R500). -/
  ppsBad       : Nat := 0
  /-- TAI seconds written to 0x2404:00, of the next edge (R347). -/
  ppsNext      : Option Nat := none
  ppsLocked    : Bool := false
  /-- REF_IN is the TIME reference (R501). -/
  refLocked    : Bool := false
  /-- Nanoseconds the clock has counted, whatever steps house time took: the PKT cycles that shapers count (R307). -/
  elapsed      : Nat := 0
  /-- The last IEEE 1588 message handed to the clock servo, with its arrival stamp (R67, R347). -/
  servo        : Option (Nat × Bytes) := none
  deriving DecidableEq, Repr, Inhabited

/-- What the cyclic exchange knows of one cycle (R366): number, start time and apply time. -/
structure Cycle where
  number : Nat := 0
  tk     : Nat := 0
  ak     : Nat := 0
  deriving DecidableEq, Repr, Inhabited

/-- An input image read from the slot and waiting for its apply time (R368). -/
structure InImage where
  ak    : Nat
  bytes : Bytes
  deriving DecidableEq, Repr, Inhabited

/-- Management ports and ring (R353 to R359, R366 to R368). -/
structure Mgmt where
  link0      : Bool := false
  link1      : Bool := false
  joined     : Bool := false
  joinStart  : Option Nat := none
  retryAt    : Option Nat := none
  /-- Cycle whose first east copy gave the ring position, or whose west copy did (R358). -/
  posEast    : Option Nat := none
  posSeen    : Option Nat := none
  /-- Last cycle frame of another master (R359). -/
  otherMaster : Option Nat := none
  stopped    : Bool := false
  cycle      : Cycle := {}
  /-- Frame copies already acted on in this cycle: the frame indices seen. -/
  seen       : List Nat := []
  inSlot     : Option InImage := none
  /-- Values of the last input image applied, in mapping order; none right after a cyclic commit (R396). -/
  inApplied  : Option (List Nat) := none
  outLatch   : Bytes := []
  latchedAt  : Option Nat := none
  missedAt   : Nat := 0
  /-- Mapped input values skipped because a WRITE of them would be refused (R368). -/
  skipped    : Nat := 0
  /-- Cyclic group committed and waiting for the first cycle start (R376). -/
  cyclicDue  : Option (Sparse Nat) := none
  /-- Ring master (R359, R389): images to send, images collected, next cycle to send, frame counter. -/
  masterIn   : List Bytes := []
  masterOut  : List (Nat × Bytes) := []
  masterDone : Nat := 0
  nextCycle  : Nat := 0
  roundTrip  : Nat := 0
  sentAt     : Nat := 0
  deriving DecidableEq, Repr, Inhabited

/-- One ODP answer (R361), to a ring address or over UDP to an address and port (R360). -/
structure Answer where
  gen     : Nat
  service : Nat
  source  : Nat
  reqId   : Nat
  idx     : Nat
  sub     : Nat
  abort   : Nat
  data    : Bytes
  udp     : Bool
  deriving DecidableEq, Repr, Inhabited

/-- A session (R369, R370). `seen` are the counters accepted within the 64 below the highest. -/
structure Session where
  sid      : Nat
  slot     : Nat
  hostKey  : Nat
  ownKey   : Nat
  hostNonce : Nat
  ownNonce : Nat
  authed   : Bool
  /-- Opened while every host key slot was empty (R475). -/
  bootstrap : Bool
  key      : Bytes
  highest  : Option Nat
  seen     : List Nat
  last     : Nat
  deriving DecidableEq, Repr, Inhabited

/-- A segmented transfer (R371, R372). -/
structure Transfer where
  tid      : Nat
  upload   : Bool
  idx      : Nat
  sub      : Nat
  sid      : Nat
  size     : Nat
  sha      : Nat
  seg      : Nat
  window   : Nat
  /-- Download: bytes placed so far. Upload: the content as it stood at UPLOAD-INIT. -/
  content  : Bytes
  /-- Upload: first unacknowledged offset, and next offset to send. -/
  acked    : Nat
  sent     : Nat
  /-- Download: segments placed since the last ACK. -/
  unacked  : Nat
  /-- Last segment received and not yet covered by an ACK timer. -/
  lastSeg  : Option Nat
  last     : Nat
  deriving DecidableEq, Repr, Inhabited

/-- ODP (R361 to R372) and the rate windows of events and pushes (R365, R423). -/
structure Odp where
  history    : List Answer := []
  sessions   : List Session := []
  transfers  : List Transfer := []
  nextTid    : Nat := 0
  eventSeq   : Nat := 0
  evSecond   : Nat := 0
  evCount    : Nat := 0
  pushSecond : Nat := 0
  pushCount  : Nat := 0
  deriving DecidableEq, Repr, Inhabited

/-- A firmware slot (R389, R461, R465 to R468): content, state code of 0xA002, version. -/
structure FwSlot where
  content : Bytes := []
  /-- The checks of R464 passed when the slot was verified; security version; version word (R461). -/
  good    : Bool := false
  counter : Nat := 0
  version : Nat := 0
  /-- State code of 0xA002, running apart: 0 empty, 1 valid, 3 failed. -/
  code    : Nat := 0
  deriving DecidableEq, Repr, Inhabited

/-- One journal record: the 64-byte vendor section of R420. -/
abbrev JournalRec := Bytes

/-- A persisted image and its digest record (R286). -/
structure Persisted where
  slot    : Nat
  content : Bytes
  sha     : Nat
  /-- 0x434B_4C53 once the copy is whole. -/
  commit  : Nat
  deriving DecidableEq, Repr, Inhabited

/-- The flash partitions (R503): everything here outlives resets and loss of power. -/
structure Flash where
  /-- The committed configuration-store record (R375): object values by key. -/
  config     : Option (Sparse Nat) := none
  configVoid : Bool := false
  /-- The region map committed since the store was last voided (R266). -/
  regionMap  : Option (Sparse Nat) := none
  /-- The record as it was downloaded through 0xA050, if it was (R390, R392). -/
  configRaw  : Option Bytes := none
  savedModel : Option (Nat × Nat) := none
  savedRule  : Option Nat := none
  ruleSet    : Bytes := []
  models     : List Persisted := []
  journal    : List JournalRec := []
  replacement : Bool := false
  slotA      : FwSlot := {}
  slotB      : FwSlot := {}
  preferred  : Nat := 0
  previous   : Nat := 0
  trial      : Bool := false
  /-- A trial boot has been started and not confirmed (R468). -/
  trialRan   : Bool := false
  running    : Option Nat := none
  scan       : Bytes := []
  /-- Scan content downloaded and not yet verified (R390). -/
  scanNew    : Option Bytes := none
  scanState  : Nat := 0
  /-- The content held passed its verification. -/
  scanGood   : Bool := false
  scanVersion : Nat := 0
  recNo      : Nat := 0
  skipped    : Nat := 0
  /-- Whole-die scan: result, time, and a pass since the replacement flag was set (R416, R418). -/
  dieResult  : Nat := 0
  dieTime    : Nat := 0
  dieScanPassed : Bool := false
  deriving DecidableEq, Repr, Inhabited

/-- A save in progress (R398): the requester to answer, and the values in force at the save. -/
structure Saving where
  answer : Answer
  values : Sparse Nat
  since  : Nat
  deriving DecidableEq, Repr, Inhabited

/-- The way of a chunk (R338, R339): first-hop port, and the intermediate bay of a Valiant route. -/
structure Way where
  port : Option Nat
  via  : Option Nat := none
  deriving DecidableEq, Repr

/-- What leaves the module. The model's own record of it, newest first (State.out). -/
inductive Emission where
  /-- An ODP answer. -/
  | answer (a : Answer)
  /-- An EVENT datagram (R365). -/
  | event (code seq time idx sub : Nat)
  /-- An EVENT with its CPER record to the error collector (R423). -/
  | push (code seq time : Nat) (cper : Bytes)
  /-- A segment or an ACK of a transfer (R372). -/
  | segment (tid offset : Nat) (data : Bytes)
  | ack (tid offset : Nat)
  /-- TRANSFER-ABORT (R372). -/
  | transferAbort (tid code : Nat)
  /-- A frame out of management port M0 or M1. -/
  | ringFrame (port : Nat) (f : RingFrame)
  /-- A frame out of a line port, without its FCS, with its departure stamp (R65). -/
  | lineFrame (port : Nat) (bytes : Bytes) (stamp : Nat)
  /-- A flit, an acknowledgement or a retry request out of a fabric port (R343). -/
  | flit (port : Nat) (f : Flit)
  | flitAck (port seq : Nat)
  | flitRetry (port seq : Nat)
  /-- A chunk of a fabric operation sent to a module, with its offset in the operation (R334, R335), and the answer to one received. -/
  | request (opId op dest offset length chunk : Nat) (data : Bytes) (way : Way)
  | reply (asker : Requester) (status : Nat) (data : Bytes)
  | doorbellOut (opId dest : Nat) (d : Doorbell) (way : Way)
  /-- What a fabric port sends at link-up: module number, port, bay count (R329). -/
  | linkHello (port module bays : Nat)
  /-- A timestamp or link-state flit of this module. -/
  | linkState (l : LinkState)
  /-- EVT_OUT rises. -/
  | evtOut (time : Nat)
  /-- Debug port data out: the selected register (R477). -/
  | debug (value : Nat)
  deriving DecidableEq, Repr

/-- A logbook record waiting in its source's FIFO (R439): class, source unit, and its lines without the
sequence number. -/
structure LogRec where
  cls   : Nat
  kind  : Nat
  uKind : Nat
  unit  : Nat
  time  : Nat
  body  : Bytes
  stretch : Bool
  deriving DecidableEq, Repr, Inhabited

/-- Records lost at a full FIFO, per source, since the last record placed (R440). -/
structure Lost where
  uKind : Nat
  unit  : Nat
  kind  : Nat
  count : Nat
  first : Nat
  last  : Nat
  deriving DecidableEq, Repr, Inhabited

/-- A freeze requested or in force (R453, R454): cause bit, request time, error record number. -/
structure Freeze where
  cause  : Nat
  at_    : Nat
  recNo  : Nat
  /-- The array and list a hang abandons after the thaw (R452). -/
  hang   : Option Nat
  frozen : Option Nat
  deriving DecidableEq, Repr, Inhabited

/-- Observability (R428 to R458). -/
structure Obs where
  fifo       : List LogRec := []
  lost       : List Lost := []
  /-- House time of the last strobe evaluated (R431). -/
  lastStrobe : Nat := 0
  /-- Strobes skipped and not yet covered by a gap record (R434): first, last, count. -/
  skipped    : Option (Nat × Nat × Nat) := none
  freeze     : Option Freeze := none
  /-- A hang dump is held (0xA020); its bytes lie in the dump area of the logbook region. -/
  dump       : Bool := false
  dumpTime   : Nat := 0
  /-- Host freeze request waiting for its time (R454). -/
  freezeAt   : Option Nat := none
  deriving DecidableEq, Repr, Inhabited

/-- A digest unit's pass in progress (R405, R406): start, and cycles' worth of ns the tensor watch took. -/
structure Pass where
  unit  : DigestUnit
  start : Nat
  /-- Next record sequence at the start (R408). -/
  seqAt : Nat
  deriving DecidableEq, Repr

/-- Arbitration of a lockstep disagreement (R412). -/
structure Arb where
  pair    : Nat
  row     : Nat
  evenRow : Bytes
  oddRow  : Bytes
  arbiter : Nat
  start   : Nat
  deriving DecidableEq, Repr, Inhabited

/-- Reliability (R399 to R427). -/
structure Rel where
  /-- Records of severity 0 and 1 of each class in this minute (R422): class, minute, count. -/
  minute    : List (Nat × Nat × Nat) := []
  suppressed : List Nat := []
  /-- Records of FAULT, which BOOT copies to the journal (R422). -/
  faultLog  : List JournalRec := []
  passes    : List Pass := []
  lastPass  : Nat := 0
  /-- First record sequence at or after the last good digest of a unit (R408). -/
  good      : List (DigestUnit × Nat × Nat) := []
  arb       : List Arb := []
  scanQueue : List (Fin 16) := []
  scanning  : Option (Fin 16) := none
  scanFrom  : Nat := 0
  fabHour   : Nat := 0
  fabBase   : Nat := 0
  deriving DecidableEq, Repr

/-- Trust (R459 to R480). Fuses outlive everything. -/
structure Trust where
  enforcement : Nat := 0
  ownerHash   : Nat := 0
  vendor0Revoked : Bool := false
  counters    : Sparse Nat := []
  challenge   : Nat := 0
  level       : Nat := 0
  tainted     : Bool := false
  ownerWrite  : Option Nat := none
  /-- A report assembled and not yet placed (R470), and the time of its nonce. -/
  report      : Option (Nat × Nat) := none
  instruction : Nat := 0
  deriving DecidableEq, Repr, Inhabited

/-- How a parse-graph state is left when no transition matches (R43). -/
inductive Exit where
  | goto (n : Nat) | accept (profile : Nat) | noValid
  deriving DecidableEq, Repr, Inhabited

/-- A field of a header: bit offset from the header's first bit (network order), width in bits. -/
structure Field where
  off   : Nat
  width : Nat
  deriving DecidableEq, Repr, Inhabited

/-- A parse-graph state (R43). -/
structure PState where
  newLayer : Bool
  /-- FIXED length in bytes, used when `lenField` is none. -/
  len      : Nat := 0
  lenField : Option Field := none
  mult     : Nat := 1
  addend   : Nat := 0
  /-- Length check: field, unit, addend; states bytes from the header's first byte. -/
  check    : Option (Field × Nat × Nat) := none
  sel      : Option Field := none
  /-- The selector is counted back from the header's end (GTP-U extension headers). -/
  selEnd   : Bool := false
  /-- (value, mask, next state), first match wins. -/
  trans    : List (Nat × Nat × Nat) := []
  /-- The eCPRI UDP port of 0x3830:00, when not 0, leads here. -/
  ecpriNext : Option Nat := none
  dflt     : Exit := .accept 0
  extract  : List Field := []
  ecpri    : Bool := false
  /-- What the header is: 1 VLAN tag, 2 IPv4, 3 IPv6, 4 TCP, 5 IEEE 1588, 6 the compression header of a section; 0 another. -/
  tag      : Nat := 0
  /-- The state holds an open fronthaul section header (R59). -/
  section_ : Bool := false
  deriving DecidableEq, Repr, Inhabited

/-- A classifier rule (R55, R68): 320-bit value and mask, profile and valid bit, 128-bit action. -/
structure Rule where
  value   : Nat := 0
  mask    : Nat := 0
  pv      : Nat := 0
  action  : Nat := 0
  deriving DecidableEq, Repr, Inhabited

/-- A field of a key profile (R54) or catalogue profile (R89): layer, byte offset, width in bits. -/
structure KeyField where
  layer : Nat
  off   : Nat
  width : Nat
  deriving DecidableEq, Repr, Inhabited

/-- A rule bank (R51): its accession, parse graph, key profiles, rules by index, and the objects of the rule
group (default actions, malformed actions, taps, action maps, rule commit time). -/
structure Bank where
  acc      : Nat := 0
  graph    : List PState := []
  profiles : List (List KeyField) := []
  rules    : Sparse Rule := []
  objs     : Sparse Nat := []
  /-- Hit counts by rule index (R68). -/
  hits     : Sparse Nat := []
  /-- Security version of the rule set image the bank was committed from (R472). -/
  fromImage : Option Nat := none
  /-- That image (R286, R471). -/
  image : Bytes := []
  deriving DecidableEq, Repr, Inhabited

/-- A frame in a line-receive crossing: its bytes without FCS and its arrival stamp (R31). -/
structure RxFrame where
  bytes : Bytes
  stamp : Nat
  deriving DecidableEq, Repr, Inhabited

/-- A frame in an egress queue or a transmit crossing, without FCS (R301, R303): ingress port and arrival stamp
of a received packet, where its body lies, its enqueue time. -/
structure QItem where
  bytes   : Bytes
  ingress : Option Nat
  stamp   : Nat
  inBurst : Bool
  enq     : Nat
  /-- Local offset of a body that lies in the packet buffer. -/
  loc     : Nat := 0
  deriving DecidableEq, Repr, Inhabited

/-- A line port (R14, R36, R37, R41). -/
structure Line where
  up      : Bool := false
  rx      : List RxFrame := []
  /-- Frames in the line-transmit crossing. -/
  tx      : List QItem := []
  nextSeq : Nat := 0
  /-- Handles of outstanding packets in sequence order. -/
  window  : List Nat := []
  /-- Handles whose slot was skipped. -/
  skipped : List Nat := []
  deriving DecidableEq, Repr, Inhabited

/-- The tracked sequence of an eCPRI stream (R49, R50). -/
structure Stream where
  port : Nat
  type : Nat
  id   : Nat
  seq  : Nat
  sub  : Nat
  e    : Bool
  last : Nat
  deriving DecidableEq, Repr, Inhabited

/-- What the parse of a packet yields (R43, R44). -/
structure Parsed where
  /-- First byte of each layer. -/
  layers  : List Nat := []
  extract : List (Nat × Nat) := []
  /-- Offset after the last header parsed, and end of the payload without padding (R46). -/
  finish  : Nat := 0
  limit   : Nat := 0
  profile : Nat := 0
  /-- Malformed class, 0 when well formed. -/
  mal     : Nat := 0
  /-- eCPRI: message type, stream id, sequence id, E bit and subsequence id. -/
  ecpri   : Option (Nat × Nat × Nat × Nat) := none
  /-- First byte and length of an open fronthaul section header. -/
  section_ : Option (Nat × Nat) := none
  ptp     : Bool := false
  /-- Offset of the outer IPv4 or IPv6 header, and of the outermost VLAN tag. -/
  ip4     : Option Nat := none
  ip6     : Option Nat := none
  vlan    : Option Nat := none
  /-- Offsets of the TCP headers. -/
  tcp     : List Nat := []
  deriving DecidableEq, Repr, Inhabited

/-- Where a packet stands on its way (R35 to R38, R74, R75, R104, R310). -/
inductive Stage where
  | parse | lookup | fetch | vector | banks | done | held
  deriving DecidableEq, Repr, Inhabited

/-- What becomes of a packet when its port's order reaches it. -/
inductive Decision where
  | enqueue (q : Nat) | drop
  deriving DecidableEq, Repr, Inhabited

/-- A packet in the module (R35, R52). -/
structure Pkt where
  pid    : Nat
  port   : Nat
  seq    : Nat
  pipe   : Nat
  stamp  : Nat
  ra     : Nat
  ma     : Nat
  bytes  : Bytes
  inBurst : Bool
  parsed : Parsed := {}
  action : Nat := 0
  ruleIdx : Nat := 0xFFFF
  stage  : Stage := .parse
  dec    : Option Decision := none
  mirror : Option Nat := none
  /-- Flow of the packet: profile, bucket and key as stored, once its entry was updated (R76, R80). -/
  flow   : Option (Nat × Nat × Nat) := none
  /-- The 32 quantities the catalogue hands on (R88), FP32; none without an entry. -/
  quant  : List Nat := []
  /-- Tree verdict: ensemble, class or 8 for undetermined, score (FP32). -/
  verdict : Option (Nat × Nat × Nat) := none
  heldAt : Nat := 0
  /-- Tap descriptor and buffer that hold the rows of a held packet (R62, R245). -/
  tapRow : Option (Nat × Nat × Nat) := none
  /-- Local offset of a body that lies in the packet buffer. -/
  loc    : Nat := 0
  deriving DecidableEq, Repr, Inhabited

/-- A packet's payload on its way through a pipe's tap crossing (R14, R58 to R64). -/
structure TapJob where
  pipe   : Nat
  pid    : Nat
  desc   : Nat
  port   : Nat
  seq    : Nat
  ra     : Nat
  ma     : Nat
  bytes  : Bytes
  parsed : Parsed
  quant  : List Nat
  held   : Bool
  deriving DecidableEq, Repr, Inhabited

/-- Intake (R35, R49 to R55, R68). -/
structure Intake where
  pipeRot  : Nat := 0
  seqCycle : Nat := 0
  seqPos   : Nat := 0
  bank     : Bank := {}
  retiring : Option Bank := none
  staged   : Option Bank := none
  streams  : List Stream := []
  puntSecond : Nat := 0
  puntCount  : Nat := 0
  tapQ     : List TapJob := []
  parsedCount : List Nat := [0, 0, 0, 0]
  deriving DecidableEq, Repr, Inhabited

/-- A neural verdict in the emit crossing (R245, R311): packet, action map, class (8: undetermined), score. -/
structure Neural where
  pid   : Nat
  array : Nat
  map   : Nat
  cls   : Nat
  score : Nat
  deriving DecidableEq, Repr, Inhabited

/-- Egress (R300 to R325). -/
structure Egr where
  q       : Sparse (List QItem) := []
  deficit : Sparse Nat := []
  /-- Token buckets, unit 2^-16 byte, with the house time of the value: queue q at q, group g at 8192 + g; none
  is a full bucket (R307, R315). -/
  tokens  : Sparse (Option (Int × Nat)) := []
  /-- Queue whose turn it is, and whether it has its quantum, by port * 8 + level (R306). -/
  turn    : Sparse (Nat × Bool) := []
  neural  : List Neural := []
  deriving DecidableEq, Repr, Inhabited

/-! ## The flow catalogue (R69 to R89) -/

/-- A bucket in the hot cache (R70): its four entries, recently used, and not yet written back. -/
structure CacheWay where
  bucket : Nat
  data   : List Nat
  used   : Bool
  dirty  : Bool
  deriving DecidableEq, Repr, Inhabited

/-- A key as an operation meets it at its order point (R74, R84): the buckets it may lie in, the pair into which it is
learned, and the seed epoch. -/
structure CatKey where
  profile : Nat
  key     : Nat
  buckets : List Nat
  pair    : Nat × Nat
  epoch   : Nat
  deriving DecidableEq, Repr

/-- An operation of the catalogue front (R74). -/
inductive CatOp where
  | lookup (pid : Nat) (k : CatKey)
  | writeback (k : CatKey) (byte : Nat)
  | sweep (bucket : Nat)
  | migrate (bucket : Nat)
  | probe (a : Answer) (k : CatKey)
  | probeDelete (k : CatKey)
  deriving DecidableEq, Repr

/-- An operation held by an earlier one on its buckets, or a lookup waiting for its fetch (R75). -/
structure CatWait where
  op       : CatOp
  fetching : Bool
  deriving DecidableEq, Repr

/-- The catalogue front. -/
structure Cat where
  cache    : List CacheWay := []
  waiting  : List CatWait := []
  /-- Hash seeds in force, and those of a rehash under way (R73, R84). -/
  seeds    : Nat × Nat := (0, 0)
  newSeeds : Option (Nat × Nat) := none
  /-- Next bucket of the sweeper, and when its present round began, by the clock's count (R83). -/
  sweep     : Nat := 0
  sweepFrom : Nat := 0
  /-- Next bucket of the migrator, 2^20 behind the last, and when it is due, in 27ths of a nanosecond (R84). -/
  migr      : Nat := 0
  migrDue   : Nat := 0
  /-- Insertion failures and failure events of this second (R79). -/
  second   : Nat := 0
  fails    : Nat := 0
  events   : Nat := 0
  alert    : Bool := false
  /-- Entries a hit saved that had neither hit nor age left: bucket, slot, time (R83). -/
  revived  : List (Nat × Nat × Nat) := []
  deriving DecidableEq, Repr, Inhabited

/-! ## Models (R90, R281 to R287) -/

/-- A feature definition and its thresholds (R92). -/
structure FeatDef where
  /-- The sixteen bytes as a little-endian number. -/
  raw    : Nat
  thresh : List Nat
  deriving DecidableEq, Repr, Inhabited

/-- A shelf section of an image (R282): array, bank mask, first row, payload, and its offset in the image. -/
structure ShelfSec where
  array : Nat
  mask  : Nat
  row   : Nat
  data  : Bytes
  off   : Nat
  /-- Its entry's flag 0: placement fixed. -/
  fixed : Bool := false
  deriving DecidableEq, Repr, Inhabited

/-- A stored section as the scrub sees it (R404): its unit, the reason of R408, and its golden digest. Shelf sections: bank,
first row, rows; TG8 tables: `first` is the table. -/
structure Golden where
  unit   : DigestUnit
  reason : Nat
  bank   : Nat := 0
  first  : Nat := 0
  rows   : Nat := 0
  digest : Nat
  deriving DecidableEq, Repr

/-- The content of a model image, as installed under an accession. -/
structure Model where
  slot    : Nat := 0
  acc     : Nat := 0
  feats   : List FeatDef := []
  /-- Node words, leaves (FP16) and class table, by bank * 65536 + number. -/
  nodes   : Sparse Nat := []
  leaves  : Sparse Nat := []
  classes : Sparse Nat := []
  /-- The sixteen ensemble descriptors, 80 bytes each as a little-endian number, 0 when undefined. -/
  ens     : List Nat := []
  /-- Digests of the feature definitions and of each bank's tree store (R114). -/
  featSha : Nat := 0
  treeSha : List Nat := []
  shelf   : List ShelfSec := []
  /-- Channel records: array, record, bytes 0 to 11. -/
  recs    : List (Nat × Nat × Nat) := []
  /-- TG8 tables: array, table, 256 FP16 levels. -/
  tg8     : List (Nat × Nat × List Nat) := []
  /-- List bodies: array, cue address (R212), bytes. -/
  bodies  : List (Nat × Nat × Bytes) := []
  /-- List table: list number, array, cue address (R238). -/
  lists   : List (Nat × Nat × Nat) := []
  golden  : List Golden := []
  /-- Security version of the image (R281, R472). -/
  version : Nat := 0
  deriving DecidableEq, Repr, Inhabited

/-- An image slot (R284, R507): its extent, and the bytes the extent holds. -/
structure LibSlot where
  off  : Nat := 0
  len  : Nat := 0
  size : Nat := 0
  /-- Content checked when the slot became VALID. -/
  model : Option Model := none
  deriving DecidableEq, Repr, Inhabited

/-- A commit scheduled (R288): its accession and time. -/
structure Sched where
  acc  : Nat
  time : Nat
  deriving DecidableEq, Repr, Inhabited

/-- The model library and scene changes (R279 to R299). -/
structure Lib where
  slots     : Vector LibSlot 16 := Vector.replicate 16 {}
  active    : Option Model := none
  retiring  : Option Model := none
  staged    : Option Model := none
  schedModel : Option Sched := none
  schedRule : Option Sched := none
  /-- Instants at which the present retirements began (R293), and whether they were reported overdue. -/
  modelFrom : Nat := 0
  ruleFrom  : Nat := 0
  modelLate : Bool := false
  ruleLate  : Bool := false
  deriving DecidableEq, Repr, Inhabited

/-! ## Tree banks (R104, R105, R113) -/

/-- A vector in a bank or gang: packet, ensemble, banks, codes and missing bits, entry time. -/
structure TreeJob where
  pid   : Nat
  ens   : Nat
  banks : List Nat
  feats : List (Bool × Nat)
  entry : Nat
  deriving DecidableEq, Repr, Inhabited

/-- The tree banks. -/
structure Tree where
  jobs    : List TreeJob := []
  /-- Banks suspect until reset (R413). -/
  suspect : List Nat := []
  /-- ARITH cycle last served, the banks it used, the place after the pipe that came last in its rotation, and the banks a
  head has waited for in it (R113). -/
  cycle   : Nat := 0
  used    : List Nat := []
  pos     : Nat := 0
  waited  : List Nat := []
  deriving DecidableEq, Repr, Inhabited

/-! ## The tensor complex (R145 to R255) -/

/-- An accumulator bank (R168), by output element (R181): row m, column n. FP32 banks hold binary32 codes, integer banks
integers; an FP64 tile holds its exact partials, in units of 2^-2400 (R142). -/
structure AccBank where
  opened : Bool := false
  /-- FP32 bank. -/
  fp     : Bool := false
  /-- STREAM mode class: 0 real, 1 complex, 2 FP64. -/
  kind   : Nat := 0
  shape  : Nat := 0
  cells  : List (List Int) := []
  /-- Free-value counter from which masked cells, undefined after an open, take their values (R189). -/
  seed   : Nat := 0
  /-- The A operand carried column scales; σ (R159). -/
  cols   : Bool := false
  sigma  : Int := 0
  /-- Row scales of the bank (R160). -/
  rho    : Option (List Int) := none
  /-- FP64: rows and columns in which the scan found an infinity or a NaN (R144). -/
  infA   : List Nat := []
  infB   : List Nat := []
  nanA   : List Nat := []
  nanB   : List Nat := []
  /-- Flags raised by the STREAMs of the bank (R133). -/
  exc    : Exc := {}
  /-- Ring of the list that wrote it, and whether a DRAIN has read it since (R204). -/
  owner  : Nat := 16
  drained : Bool := true
  deriving DecidableEq, Repr, Inhabited

/-- A channel record (R152, R166). -/
structure Rec where
  /-- Bytes 0 to 11, little-endian. -/
  img   : Nat := 0
  step  : Nat := 0
  hist  : List Nat := []
  smax  : Nat := 0
  clips : Nat := 0
  elems : Nat := 0
  cur   : Nat := 0
  run   : Nat := 0
  bad   : Bool := false
  fall  : Bool := false
  /-- The host cleared fallback; the next step close applies it (R157). -/
  clear : Bool := false
  /-- Model accession the record is allocated to. -/
  acc   : Option Nat := none
  deriving DecidableEq, Repr, Inhabited

/-- Where a cue lies: a ring index (R213), or a cue address of a body (R212). -/
inductive Pos where
  | ring (i : Nat)
  | body (addr : Nat)
  deriving DecidableEq, Repr, Inhabited

/-- An entry of the loop and call stack (R227). -/
inductive Frame where
  /-- The cue after the LOOP, count, iteration index, increments of shelf, wings and stacks. -/
  | loop (start : Pos) (count i : Nat) (shelf wings stack : Int)
  | call (ret : Pos)
  deriving DecidableEq, Repr

/-- A restart point (R229): next cue, stack, front-bank pointer, banks written since. -/
structure Restart where
  pos     : Pos
  stack   : List Frame
  front   : Nat
  written : List Nat := []
  /-- Cues the list had issued when the point was recorded. -/
  ord     : Nat := 0
  deriving DecidableEq, Repr, Inhabited

/-- Classes of cues that stay in flight after issue (R224, R226). -/
inductive CueClass where
  | stream | drain | stage | shelve | emit | callslip
  deriving DecidableEq, Repr, Inhabited

/-- What a DRAIN's completion record will hold (R254, R133). -/
structure DrainRes where
  seq     : Nat
  flags   : Nat
  nans    : Nat
  nanRow  : Nat
  nanCol  : Nat
  rows    : Nat
  /-- Sections of the tensor-watch record (R448), empty when not armed. -/
  watch   : Bytes
  deriving DecidableEq, Repr, Inhabited

/-- A cue issued and not complete. -/
structure Fly where
  cls     : CueClass
  /-- Valid steps of a STREAM, bank it writes; 2 for both. -/
  steps   : Nat := 0
  bank    : Nat := 0
  drain   : Option DrainRes := none
  /-- Outstanding slips of a CALLSLIP. -/
  slips   : List Nat := []
  /-- Restart point that takes effect when the cue completes (R229). -/
  implied : Option Restart := none
  /-- Cue address and sequence, opcode. -/
  addr    : Nat := 0
  seq     : Nat := 0
  deriving DecidableEq, Repr, Inhabited

/-- What a list waits for before its next cue (R224). -/
inductive Block where
  | none
  | fence (mask : Nat)
  | wait (light n : Nat) (peek : Bool)
  | signal (light n : Nat) (trigger : Bool) (remote : Option Nat) (param : Nat)
  | doorbell (opId : Nat)
  | hold (target : Nat)
  /-- Stopped for lockstep arbitration, or suspect (R412, R415). -/
  | stopped
  deriving DecidableEq, Repr, Inhabited

/-- A list that has started (R214, R218, R222). -/
structure Run where
  ring    : Nat
  /-- Ring index of the list's first cue, and of the cue after its last. -/
  start   : Nat
  launched : Bool
  acc     : Nat
  lw0     : Nat
  lw1     : Nat
  evt     : Nat
  /-- Tap descriptor and buffer that a TAP trigger launched it for. -/
  tap     : Option (Nat × Nat) := none
  pos     : Pos
  stack   : List Frame := []
  restart : Restart
  retries : Nat := 0
  fly     : List Fly := []
  block   : Block := .none
  /-- The END cue, or the RETURN at depth 0, has been issued. -/
  ending  : Bool := false
  /-- A rewind waits for a cue with an implied restart point (R229), or for 1 µs after a skew (R230). -/
  rewind  : Bool := false
  resume  : Option Nat := none
  /-- House time of its last progress, for the watchdog (R451). -/
  progress : Nat := 0
  /-- Ring index the consumer takes when the list ends, past lists discarded behind it (R242). -/
  skip    : Option Nat := none
  /-- Cues issued, and where the last one lies. -/
  issued  : Nat := 0
  last    : Pos
  /-- Front-bank pointer of a suspended list. -/
  front   : Nat := 0
  deriving DecidableEq, Repr, Inhabited

/-- An array with its feeders, drain, prompter, rings and stores (R168 to R255). -/
structure Arr where
  shelf   : Sparse Byte := []
  wings   : Sparse Byte := []
  /-- Since a field scan discarded them (R417): the seed of what unlisted wings bytes and row tags read as. -/
  scanned : Option Nat := none
  tags    : Sparse Nat := []
  rings   : Sparse Byte := []
  recs    : Sparse Rec := []
  tg8     : Sparse Nat := []
  bank0   : AccBank := {}
  bank1   : AccBank := {}
  front   : Nat := 0
  run     : Option Run := none
  /-- Suspended lists, the latest first (R253). -/
  susp    : List Run := []
  /-- Ring last started, for the rotation of R251. -/
  rot     : Nat := 16
  /-- Install cues not yet taken, by index, and the install ring's consumer index (R295). -/
  install : List (List Nat) := []
  instCons : Nat := 0
  instAcc : Nat := 0
  /-- Kind of the install under way: 0 none, 1 side-by-side, 2 ripple waiting, 3 ripple moving. -/
  instKind : Nat := 0
  log     : Sparse Nat := []
  suspect : Bool := false
  /-- House time of the governor request, of the ramp's start (R199, R200). -/
  wantFrom : Option Nat := none
  rampFrom : Nat := 0
  /-- ARITH cycles of the present RAMP-UP: 256, or as many as the ramp-down before it ran (R199). -/
  rampLen : Nat := 256
  /-- Rings whose last appended cue is host-posted without END (R241). -/
  openRings : List Nat := []
  /-- Cues with the LAUNCH flag that the host posted: ring and ring index (R220). -/
  hostLaunch : List (Nat × Nat) := []
  /-- Launch cues that a TAP trigger appended: ring and ring index (R218, R232). -/
  tapLaunch : List (Nat × Nat) := []
  /-- Rings whose open host list was passed over before its END cue came: what follows up to it belongs to that list (R214). -/
  tails   : List Nat := []
  /-- Queued lists that a forced retirement has abandoned before their turn: ring and ring index (R293). -/
  dead    : List (Nat × Nat) := []
  deriving DecidableEq, Repr, Inhabited

/-- A WAIT in its light's queue (R235). -/
structure Waiter where
  light : Nat
  array : Nat
  n     : Nat
  peek  : Bool
  /-- Where the wait began, for the sync trace (R447). -/
  from_ : Nat
  deriving DecidableEq, Repr, Inhabited

/-- A tap buffer (R62, R290, R291): rows written, model accession, held packets with their first rows, and whether
it is complete and not yet free. -/
structure TapBuf where
  rows  : Nat := 0
  acc   : Option Nat := none
  /-- Rule accession whose descriptor the rows were written under (R64). -/
  ra    : Nat := 0
  /-- Release light of that descriptor (R62). -/
  light : Nat := 0
  held  : List (Nat × Nat) := []
  busy  : Bool := false
  deriving DecidableEq, Repr, Inhabited

/-- Run state of a tap descriptor. -/
structure Tap where
  cur  : Nat := 0
  b0   : TapBuf := {}
  b1   : TapBuf := {}
  deriving DecidableEq, Repr, Inhabited

/-- A firing (R218, R238): accession, launch word, event time, and the tap buffer it launches for. -/
structure Firing where
  acc : Nat
  lw0 : Nat
  evt : Nat
  tap : Option (Nat × Nat) := none
  deriving DecidableEq, Repr, Inhabited

/-- Run state of a trigger (R240, R241). -/
structure Trig where
  /-- Last occurrence passed. -/
  last : Option Nat := none
  /-- Enabled, or its clock changed, at this house time. -/
  from_ : Nat := 0
  wait : Option Firing := none
  /-- House time of its last CUE LIGHT firing, once per cycle. -/
  fired : Option Nat := none
  deriving DecidableEq, Repr, Inhabited

/-- The latest addition to a light (R447): signaller kind, index and cue sequence, time, and how many additions took
effect at that time. -/
structure LightAdd where
  kind : Nat
  unit : Nat
  cue  : Nat
  time : Nat
  count : Nat
  deriving DecidableEq, Repr, Inhabited

/-- What every array shares (R200, R234 to R242). -/
structure Sync where
  waiters : List Waiter := []
  adds    : Sparse (Option LightAdd) := []
  taps    : Sparse Tap := []
  trigs   : Sparse Trig := []
  /-- Arrays waiting for admission, in order of request, and the last admission's cycle (R200). -/
  lastAdmit : Option Nat := none
  deriving DecidableEq, Repr, Inhabited

/-! ## The stacks controller (R256 to R271) -/

/-- The controller. -/
structure Memc where
  seed    : Nat := 0
  /-- Correctable errors of a channel when the present hour began: hour plus 1, and the count (R271). -/
  hourly  : Sparse (Nat × Nat) := []
  /-- Lines that patrol has read of each channel (R270). -/
  scrubbed : Sparse Nat := []
  rateAlert : List Nat := []
  counting : Nat := 0
  calm    : Nat := 0
  patrol  : Nat := 0
  /-- Hold-pool shares written in DRAIN and not yet in force (R275). -/
  burstShare : Option Nat := none
  bufShare : Option Nat := none
  /-- Ranges emptied by a region commit, the latest first: base, size, and the seed of their undefined contents, none for
  zero (R266). -/
  void    : List (Nat × Nat × Option Nat) := []
  /-- Bytes read and written since reset, by 256-byte granule (0x6013, 0x6014). -/
  rd      : Sparse Nat := []
  wr      : Sparse Nat := []
  deriving DecidableEq, Repr, Inhabited

/-! ## The fabric (R326 to R352) -/

/-- A fabric port's link layer (R343, R350): sequence numbers, replay buffer, retries of the oldest flit. -/
structure FabPort where
  expect  : Nat := 0
  nextSeq : Nat := 0
  replay  : List Flit := []
  retries : Nat := 0
  deriving DecidableEq, Repr, Inhabited

/-- An operation of this module outstanding in the fabric (R334, R335): a call slip of a list, or a doorbell. -/
structure FabOp where
  id     : Nat
  array  : Nat
  /-- Wings line of the slip; its fields. -/
  line   : Nat
  opcode : Nat
  length : Nat
  remote : Nat
  second : Nat
  result : Nat
  wings  : Bool
  a      : Nat
  b      : Nat
  tag    : Nat
  ordered : Bool
  /-- ASYNC CALLSLIP: light signalled at completion. -/
  async  : Bool
  light  : Option Nat
  /-- Sent, with the house time; an ORDERED slip waits for the earlier ones of its cue (R337). -/
  sent   : Option Nat
  bell   : Option Doorbell := none
  addr   : Nat := 0
  seq    : Nat := 0
  /-- Id of the first slip of its cue (R337). -/
  group  : Nat := 0
  deriving DecidableEq, Repr

/-- The fabric side of the module. -/
structure Fab where
  ports   : Vector FabPort 16 := Vector.replicate 16 {}
  /-- Link states flooded by other modules, the latest of each (R338, R350). -/
  links   : List LinkState := []
  ops     : List FabOp := []
  nextOp  : Nat := 0
  /-- Turn among parallel links (R338). -/
  rot     : Nat := 0
  /-- Doorbells, with their source modules, that wait out a freeze: 64 in the crossing to ARITH, the rest behind fabric credits (R14,
  R455). -/
  bells   : List (Nat × Doorbell) := []
  /-- House time at which this module's first link came up (R329). -/
  firstUp : Option Nat := none
  /-- Its number is in use by an earlier module: the ports stay down (R329). -/
  duplicate : Bool := false
  deriving DecidableEq, Repr


end Sys2Proof.Machine
end

