-- ==== Sys2Proof/Machine/Graph.lean ====
section
/-! DEFINITION. The preloaded parse graph (R43). -/

namespace Sys2Proof.Machine

/-! ## The preloaded graph

States 0 to 27 (R43). The header layouts are those of the named standards (PRESUMED, log entry 9). -/

/-- Transitions of EtherTypes common to the Ethernet and tag states. -/
def etherNext : List (Nat × Nat × Nat) :=
  [(0x0800, 0xFFFF, 3), (0x86DD, 0xFFFF, 4), (0xAEFE, 0xFFFF, 20), (0x88F7, 0xFFFF, 27)]

/-- Transitions of IP protocol numbers. -/
def protoNext : List (Nat × Nat × Nat) := [(17, 0xFF, 8), (6, 0xFF, 9), (132, 0xFF, 10)]

/-- Transitions of the IPv6 extension headers to state `n`. -/
def extNext (n : Nat) : List (Nat × Nat × Nat) := [(0, 0xFF, n), (43, 0xFF, n), (44, 0xFF, n), (60, 0xFF, n)]

/-- Link layer, IP and transport: states 0 to 10, SCTP's common header and first chunk header one state; state 11 is the
compression header of an open fronthaul section (R43, R59). -/
def preload0 : List PState :=
  [ { newLayer := true, len := 14, sel := some ⟨96, 16⟩, trans := [(0x8100, 0xFFFF, 1), (0x88A8, 0xFFFF, 1)] ++ etherNext },
    { tag := 1, newLayer := true, len := 4, sel := some ⟨16, 16⟩, trans := [(0x8100, 0xFFFF, 2), (0x88A8, 0xFFFF, 2)] ++ etherNext },
    { newLayer := true, len := 4, sel := some ⟨16, 16⟩, trans := etherNext },
    { tag := 2, newLayer := true, lenField := some ⟨4, 4⟩, mult := 4, check := some (⟨16, 16⟩, 1, 0), sel := some ⟨72, 8⟩, trans := protoNext },
    { tag := 3, newLayer := true, len := 40, check := some (⟨32, 16⟩, 1, 40), sel := some ⟨48, 8⟩, trans := extNext 5 ++ protoNext },
    { newLayer := false, lenField := some ⟨8, 8⟩, mult := 8, addend := 8, sel := some ⟨0, 8⟩, trans := extNext 6 ++ protoNext },
    { newLayer := false, lenField := some ⟨8, 8⟩, mult := 8, addend := 8, sel := some ⟨0, 8⟩, trans := extNext 7 ++ protoNext },
    { newLayer := false, lenField := some ⟨8, 8⟩, mult := 8, addend := 8, sel := some ⟨0, 8⟩, trans := protoNext },
    { newLayer := true, len := 8, check := some (⟨32, 16⟩, 1, 0), sel := some ⟨16, 16⟩,
      trans := [(2152, 0xFFFF, 12), (319, 0xFFFF, 27), (320, 0xFFFF, 27)], ecpriNext := some 20 },
    { tag := 4, newLayer := true, lenField := some ⟨96, 4⟩, mult := 4 },
    { newLayer := true, len := 16 },
    { tag := 6, newLayer := false, len := 2 } ]

/-- GTP-U and what follows it: states 12 to 19. -/
def preload1 : List PState :=
  [ { newLayer := true, len := 8, check := some (⟨16, 16⟩, 1, 8), sel := some ⟨0, 16⟩,
      trans := [(0x00FF, 0x07FF, 15), (0x00FF, 0x00FF, 13)] },
    { newLayer := false, len := 4, sel := some ⟨24, 8⟩, trans := [(0, 0xFF, 15)], dflt := .goto 14 },
    { newLayer := true, lenField := some ⟨0, 8⟩, mult := 4, sel := some ⟨8, 8⟩, selEnd := true, trans := [(0, 0xFF, 15)], dflt := .goto 26 },
    { newLayer := false, len := 0, sel := some ⟨0, 4⟩, trans := [(4, 0xF, 16), (6, 0xF, 17)] },
    { newLayer := true, lenField := some ⟨4, 4⟩, mult := 4, check := some (⟨16, 16⟩, 1, 0), sel := some ⟨72, 8⟩,
      trans := [(17, 0xFF, 18), (6, 0xFF, 19)] },
    { newLayer := true, len := 40, check := some (⟨32, 16⟩, 1, 40), sel := some ⟨48, 8⟩, trans := [(17, 0xFF, 18), (6, 0xFF, 19)] },
    { newLayer := true, len := 8, check := some (⟨32, 16⟩, 1, 0) },
    { tag := 4, newLayer := true, lenField := some ⟨96, 4⟩, mult := 4 } ]

/-- eCPRI, open fronthaul, the second GTP-U extension header and IEEE 1588: states 20 to 27. -/
def preload2 : List PState :=
  [ { newLayer := true, len := 4, check := some (⟨16, 16⟩, 1, 4), sel := some ⟨8, 8⟩,
      trans := [(0, 0xFF, 21), (2, 0xFF, 22), (5, 0xFF, 23)] },
    { newLayer := false, len := 4, dflt := .goto 24, ecpri := true },
    { newLayer := false, len := 4, ecpri := true },
    { newLayer := false, len := 20 },
    { newLayer := true, len := 4, dflt := .goto 25 },
    { newLayer := true, len := 4, section_ := true, sel := some ⟨32, 16⟩, trans := [(0x0100, 0x0FFF, 11)] },
    { newLayer := true, lenField := some ⟨0, 8⟩, mult := 4, sel := some ⟨8, 8⟩, selEnd := true, trans := [(0, 0xFF, 15)], dflt := .noValid },
    { tag := 5, newLayer := true, len := 34 } ]

/-- The preloaded graph. -/
def preloadGraph : List PState := preload0 ++ preload1 ++ preload2

end Sys2Proof.Machine
end

