-- ==== Sys2Proof/Machine/State.lean ====
section
/-! DEFINITION. The state: every register, memory, queue and mode the manual gives the module, as plain
data, and the machine right after reset. -/

namespace Sys2Proof.Machine

/-- Reasons for a fault. No command of the block stops the machine: the manual gives every command an
effect, and FAULT is a device state (R22), not a stop. -/
inductive Fault where
  /-- Raised by no command. Safe: it stops. -/
  | none
  deriving DecidableEq, Repr

/-- Reasons for a refusal. -/
inductive Refusal where
  /-- Raised by an arm of `exec` whose command has no meaning yet. Safe: it stops. -/
  | notModelled (mnemonic : String)
  /-- Raised by DEBUG_PORT_INSTRUCTION for an internal-scan or scan-readout instruction at debug level 2:
  the manual names these instructions and says nothing of what they read or write. Safe: it stops. -/
  | scanChainUnspecified
  deriving DecidableEq, Repr


/-- The machine. -/
structure State where
  mfg    : Mfg
  dict   : Sparse Nat
  staged : Sparse Nat
  pwr    : Pwr
  dev    : Dev
  clock  : Clock
  mgmt   : Mgmt
  odp    : Odp
  flash  : Flash
  saving : Option Saving
  mem    : List Host.Cell
  line   : Vector Line 4
  intake : Intake
  pkts   : List Pkt
  nextPid : Nat
  egr    : Egr
  cat    : Cat
  tree   : Tree
  arr    : Vector Arr 16
  sync   : Sync
  lib    : Lib
  fab    : Fab
  memc   : Memc
  rel    : Rel
  obs    : Obs
  trust  : Trust
  free   : Nat
  out    : List Emission
  pending : List Instr
  deriving DecidableEq, Repr

/-- The factory firmware that slot A holds (log entry 3): good, of security version 0. -/
def factorySlot : FwSlot := { good := true, code := 1 }

/-- The machine right after a power-on reset: RESET, the rails good, RESET_N high (log entry 1); every object at its
default, the stacks listing nothing. -/
def State.reset : State where
  mfg := {}
  dict := []
  staged := []
  pwr := {}
  dev := {}
  clock := {}
  mgmt := {}
  odp := {}
  flash := { slotA := factorySlot }
  saving := none
  mem := []
  line := Vector.replicate 4 {}
  intake := { bank := { graph := preloadGraph } }
  pkts := []
  nextPid := 0
  egr := {}
  cat := {}
  tree := {}
  arr := Vector.replicate 16 {}
  sync := {}
  lib := {}
  fab := {}
  memc := {}
  rel := {}
  obs := {}
  trust := {}
  free := 0
  out := []
  pending := []

end Sys2Proof.Machine
end

