-- ==== Sys2Proof/Machine/Ops.lean ====
section
/-! DEFINITION. The operations every family shares: time, the values of objects, stacks bytes, what leaves
the module, events (R365), logbook records (R436 to R444) and error records (R419 to R424). -/

namespace Sys2Proof.Machine

open Sys2Proof.Bits

/-- The outcome of a command: the next state. -/
abbrev Result := Host.Outcome State Fault Refusal

/-! ## Objects -/

/-- Key of an object in a table of values. -/
def objKey (idx sub : Nat) : Nat := idx * 65536 + sub

/-- The row of the object table that lists the object. -/
def objRow? (idx sub : Nat) : Option ObjRow :=
  (objChapter (idx / 4096)).find? fun r => decide (r.lo ≤ idx) && decide (idx ≤ r.hi) && decide (r.sl ≤ sub) && decide (sub ≤ r.sh)

/-- Some row lists the index (R383). -/
def objIndex? (idx : Nat) : Bool := (objChapter (idx / 4096)).any fun r => decide (r.lo ≤ idx) && decide (idx ≤ r.hi)

/-- Highest sub-index of an index: the entry count that sub-index 0 reads as (R373). -/
def entryCount (idx : Nat) : Nat :=
  (objChapter (idx / 4096)).foldl (fun m r => if r.lo ≤ idx ∧ idx ≤ r.hi then Max.max m r.sh else m) 0

/-- Mark of a default action that no host has written: FORWARD to the pass queue of the ingress port (R68). No record of R56 says
that; a READ of it returns sixteen zero octets (DESIGN CHOICE, log entry 22). -/
def passQueueMark : Nat := 2 ^ 128

/-- Default map of the stacks (R264): base and size of region `r`. -/
def regionDefault (r : Nat) : Nat × Nat :=
  match r with
  | 0 => (0x200000000, 0x300000000)
  | 1 => (0x6E0000000, 0x100000000)
  | 2 => (0x7E0000000, 0x10000000)
  | 3 => (0x7F0000000, 0x10000000)
  | 4 => (0x500000000, 0x1E0000000)
  | _ => (0, 0x200000000)

/-- What an object that nothing has written reads as: its default (R375). -/
def objDefault (k : Nat) : Nat :=
  let idx := k / 65536
  let sub := k % 65536
  if idx = 0x3812 then passQueueMark
  else if idx = 0x3820 then [2, 2, 1, 1, 0].getD (sub - 1) 0
  else if idx = 0x6019 then [25, 50, 20, 5].getD (sub - 1) 0
  else if 0x5100 ≤ idx ∧ idx ≤ 0x51FF ∧ sub = 1 then idx % 16 * 1024
  else if 0x6000 ≤ idx ∧ idx ≤ 0x6005 then
    if sub = 1 then (regionDefault (idx % 16)).1 else (regionDefault (idx % 16)).2
  else if idx = 0x7100 then (sub - 1) / 2048
  else match objRow? idx sub with
    | some r => r.dflt
    | none => 0

/-- Objects of the rule commit group (R376): the writable objects of R68 but 0x3800, 0x3810:01 and 0x3831,
the tree and neural action maps, and the rule commit time. -/
def isRuleObj (idx sub : Nat) : Bool :=
  (idx == 0x3810 && decide (2 ≤ sub) && decide (sub ≤ 4)) || idx == 0x3812 || idx == 0x3820 || idx == 0x3826 ||
  idx == 0x3827 || idx == 0x3830 || (decide (0x3900 ≤ idx) && decide (idx ≤ 0x39FF) && decide (1 ≤ sub) && decide (sub ≤ 10)) ||
  (decide (0x4810 ≤ idx) && decide (idx ≤ 0x481F)) || (decide (0x5080 ≤ idx) && decide (idx ≤ 0x508F)) || idx == 0x6809

/-- The commit group of an object (R376): 0 rule, 1 model, 2 region, 3 cyclic. -/
def groupOf (idx sub : Nat) : Option Nat :=
  if isRuleObj idx sub then some 0
  else if idx = 0x6803 then some 1
  else if 0x6000 ≤ idx ∧ idx ≤ 0x6005 then some 2
  else if idx = 0x1820 ∨ idx = 0x1821 ∨ idx = 0x1822 then some 3
  else none

/-- The value in force of an object: of the active rule bank for the rule group, else of the dictionary. -/
def State.get (s : State) (idx sub : Nat) : Nat :=
  if isRuleObj idx sub then Sparse.read objDefault s.intake.bank.objs (objKey idx sub)
  else Sparse.read objDefault s.dict (objKey idx sub)

/-- Writes the dictionary's value of an object. -/
def State.put (s : State) (idx sub v : Nat) : State :=
  { s with dict := Sparse.write objDefault s.dict (objKey idx sub) v }

/-- A staged entry holds the value plus 1, so that an unlisted key is one not staged. -/
def stagedDefault (_ : Nat) : Nat := 0

/-- Stages a write of an object of the model, region or cyclic group (R376). -/
def State.stage (s : State) (idx sub v : Nat) : State :=
  { s with staged := Sparse.write stagedDefault s.staged (objKey idx sub) (v + 1) }

/-- The value of an object as it would stand after its group's commit. -/
def State.stagedOr (s : State) (idx sub : Nat) : Nat :=
  let v := Sparse.read stagedDefault s.staged (objKey idx sub)
  if v = 0 then s.get idx sub else v - 1

/-- Adds `n` to a counter, which wraps modulo 2^64 (R428). -/
def State.bumpBy (s : State) (idx sub n : Nat) : State :=
  s.put idx sub ((Sparse.read objDefault s.dict (objKey idx sub) + n) % 2 ^ 64)

/-- Adds 1 to a counter. -/
def State.bump (s : State) (idx sub : Nat) : State := s.bumpBy idx sub 1

/-- The value of a BOOL object. -/
def State.flag (s : State) (idx sub : Nat) : Bool := decide (s.get idx sub ≠ 0)

/-! ## Grade -/

/-- Sixteen arrays are enabled (R3). -/
def Grade.sixteen : Grade → Bool
  | .dw16lc => true
  | .dw16af => true
  | .dw12lc => false
  | .dw12af => false

/-- Logical arrays of the grade (R3, R5). -/
def State.arrays (s : State) : Nat := if s.mfg.grade.sixteen then 16 else 12

/-- Logical array `a` exists (R5). -/
def State.hasArray (s : State) (a : Nat) : Bool := decide (a < s.arrays)

/-! ## Time -/

/-- The house clock runs: it stops only in OFF and on a cold reset (R345). -/
def State.clockRuns (s : State) : Bool := decide (s.dev.st ≠ .off) && !s.pwr.coldPending

/-- House time `t` is reached: the clock never goes back (R14). -/
def State.at (s : State) (t : Nat) : State :=
  if s.clockRuns then
    let h := Max.max s.clock.house (t % 2 ^ 64)
    { s with clock := { s.clock with house := h, elapsed := s.clock.elapsed + (h - s.clock.house) } }
  else s

/-- Present house time. -/
abbrev State.now (s : State) : Nat := s.clock.house

/-! ## Free values -/

/-- A value the manual leaves undefined, and the state with the counter advanced. -/
def State.fresh (s : State) : Nat × State := (Config.freeNat s.free, { s with free := s.free + 1 })

/-- A draw of the module's random source. -/
def State.draw (s : State) : Nat × State := (Config.random s.free, { s with free := s.free + 1 })

/-! ## Stacks bytes -/

/-- A byte of the stacks that nothing has written since BOOT zeroed them reads 0 (R268). -/
def memDefault (_ : Nat) : Byte := 0

/-- What an unlisted stacks byte reads as: zero, or what the region commit that emptied its range left (R266). -/
def State.memDef (s : State) (x : Nat) : Byte :=
  match s.memc.void.find? fun e => decide (e.1 ≤ x) && decide (x < e.1 + e.2.1) with
  | some (_, _, some seed) => Config.freeByte seed x
  | some (_, _, none) => memDefault x
  | none => memDefault x

/-- `n` bytes of the stacks at a local offset. -/
def State.memRead (s : State) (x n : Nat) : Bytes := Sparse.readList s.memDef s.mem x n

/-- Adds 64 bytes to the count of each line from line `l` on. -/
def countLines (m : Sparse Nat) (l : Nat) : Nat → Sparse Nat
  | 0 => m
  | n + 1 => countLines (Sparse.write (fun _ => 0) m (l / 4) (Sparse.read (fun _ => 0) m (l / 4) + 64)) (l + 1) n

/-- Lines that `n` bytes at `x` touch. -/
def lineSpan (x n : Nat) : Nat := if n = 0 then 0 else (x + n - 1) / 64 + 1 - x / 64

/-- Counts a read of the stacks by its channels (0x6013). -/
def State.countRead (s : State) (x n : Nat) : State :=
  { s with memc := { s.memc with rd := countLines s.memc.rd (x / 64) (lineSpan x n) } }

/-- Writes bytes at a local offset of the stacks, and counts them by channel (0x6014). -/
def State.memWrite (s : State) (x : Nat) (bs : Bytes) : State :=
  { s with
    mem := Sparse.writeList s.memDef s.mem x bs
    memc := { s.memc with wr := countLines s.memc.wr (x / 64) (lineSpan x bs.length) } }

/-- A range of the stacks loses its contents: it reads as zero, or as values the manual leaves undefined. -/
def State.memFill (s : State) (base size : Nat) (seed : Option Nat) : State :=
  { s with mem := Sparse.clear s.mem base size, memc := { s.memc with void := (base, size, seed) :: s.memc.void } }

/-- The channel-local address of a local offset (R257). -/
def channelLocal (x : Nat) : Nat := x / 2 ^ 14 % 2 ^ 21 * 256 + x % 256

/-- The channel of a granule (R257). -/
def State.channelOf (s : State) (granule : Nat) : Nat :=
  nxor (granule % 64) (Config.channelHash s.memc.seed (granule / 64) % 64)

/-- Sum of a count by granule over one channel. -/
def State.channelSum (s : State) (m : Sparse Nat) (c : Nat) : Nat :=
  m.foldl (fun n e => if s.channelOf e.1 = c then n + e.2 else n) 0

/-- Codewords corrected in the first `n` line reads of a channel that are not patrol's (R269). -/
def demandErrors (c : Nat) : Nat → Nat
  | 0 => 0
  | n + 1 => demandErrors c n + Config.readErrors c n % 5

/-- Correctable errors of a channel (R269): those that patrol reported, and those that other reads met, which no command reports: a
free value, log entry 2. -/
def State.correctable (s : State) (c : Nat) : Nat :=
  s.get 0x6011 (c + 1) + demandErrors c (s.channelSum s.memc.rd c / 64 - Sparse.read (fun _ => 0) s.memc.scrubbed c)

/-- Base and size in force of region `r` (R264). -/
def State.regionBase (s : State) (r : Nat) : Nat := s.get (0x6000 + r) 1
def State.regionSize (s : State) (r : Nat) : Nat := s.get (0x6000 + r) 2

/-- A range of the stacks lies inside region `r`. -/
def State.inRegion (s : State) (r x n : Nat) : Bool :=
  decide (s.regionBase r ≤ x) && decide (x + n ≤ s.regionBase r + s.regionSize r)

/-- Two ranges share a byte. -/
def overlap (x y : Nat × Nat) : Bool := decide (x.1 < y.1 + y.2) && decide (y.1 < x.1 + x.2) && decide (0 < x.2) && decide (0 < y.2)

/-- A map of the six regions overlaps or leaves the 32 GiB (R265). -/
def mapOver (f : Nat → Nat × Nat) : Bool :=
  (List.range 6).any fun i => decide (2 ^ 35 < (f i).1 + (f i).2) || ((List.range 6).any fun j => decide (i < j) && overlap (f i) (f j))

/-- The bytes from `x` to `y` lie in regions of `rs`, one after another. -/
def State.spans (s : State) (rs : List Nat) (y : Nat) : Nat → Nat → Bool
  | 0, _ => false
  | fuel + 1, x =>
    match rs.find? fun r => decide (s.regionBase r ≤ x) && decide (x < s.regionBase r + s.regionSize r) with
    | none => false
    | some r => decide (y ≤ s.regionBase r + s.regionSize r) || s.spans rs y fuel (s.regionBase r + s.regionSize r)

/-- Every byte of an extent lies in one of the regions allowed (R267); an extent may run from one into the next. -/
def State.inRegions (s : State) (rs : List Nat) (x n : Nat) : Bool :=
  rs.any (fun r => s.inRegion r x n) || s.spans rs (x + n) rs.length x

/-! ## What leaves the module -/

/-- The module sends `e`. -/
def State.emit (s : State) (e : Emission) : State := { s with out := e :: s.out }

/-- ODP is served (R22, R381): from ring join in BOOT, and in PREPARE, RUN, DRAIN and TEST. -/
def State.servesOdp (s : State) : Bool :=
  match s.dev.st with
  | .boot => s.mgmt.joined
  | .prepare => true
  | .run => true
  | .drain => true
  | .test => true
  | .off => false
  | .reset => false
  | .fault => false

/-- Device-state codes (R380); the states never read have none. -/
def DevState.code? : DevState → Option Nat
  | .boot => some 2
  | .prepare => some 3
  | .run => some 4
  | .drain => some 5
  | .test => some 6
  | .off => none
  | .reset => none
  | .fault => none

/-! ## Logbook -/

/-- Bytes of the circular area: the logbook region but its last 4 MiB (R436). -/
def State.logArea (s : State) : Nat := s.regionSize 3 - 0x400000

/-- A region of droop or throttle is stretched now: an array island under droop or a thermal step, region
16 (the feature front with the tree banks) under droop; with full redundancy a droop in either array of a pair
stretches both (R443, R487, R488). -/
def State.isStretched (s : State) (r : Nat) : Bool :=
  s.pwr.droop.testBit r || (decide (r < 16) && s.flag 0x8000 0 && s.pwr.droop.testBit (nxor r 1)) ||
  (decide (r < 16) && decide (s.get 0x9800 0 ≠ 0))

/-- The ARITH region of a record's source: unit kinds 1 (array), 2 (tree bank), 3 (feature front). -/
def stretchRegion (uKind unit : Nat) : Option Nat :=
  if uKind = 1 then some unit else if uKind = 2 ∨ uKind = 3 then some 16 else none

/-- STRETCH flag of a record of this source, and the state with the flag taken (R443). -/
def State.takeStretch (s : State) (uKind unit : Nat) : Bool × State :=
  match stretchRegion uKind unit with
  | none => (false, s)
  | some r =>
    let f := s.pwr.stretched.testBit r || s.isStretched r
    (f, { s with pwr := { s.pwr with stretched := setFld s.pwr.stretched r r (if s.isStretched r then 1 else 0) } })

/-- Writes whole lines at the write offset, wrapping at the end of the circular area (R436). -/
def State.logLines (s : State) : List Bytes → State
  | [] => s
  | l :: ls =>
    let o := s.get 0x8809 0
    let s := s.memWrite (s.regionBase 3 + o) (slice l 0 64)
    let o := o + 64
    let s := if s.logArea ≤ o then (s.put 0x8809 0 0).bump 0x880A 0 else s.put 0x8809 0 o
    State.logLines s ls

/-- The lines of a record: header of R437, then the payload, zero-padded. -/
def logRecLines (seq : Nat) (lostBefore : Bool) (r : LogRec) : List Bytes :=
  let more := (r.body.length + 16 + 63) / 64 - 1
  let flags := more * 32 + (if lostBefore then 2 else 0) + (if r.stretch then 1 else 0)
  let bytes := natLe 8 r.time ++ natLe 4 seq ++ natLe 1 r.kind ++ natLe 1 flags ++ natLe 1 r.uKind ++ natLe 1 r.unit ++ r.body
  (List.range (more + 1)).map fun i => slice bytes (64 * i) 64

/-- The area is full in stop mode (R436): the writer has wrapped or would wrap. -/
def State.logFull (s : State) (lines : Nat) : Bool :=
  decide (s.get 0x8808 0 = 1) && (decide (0 < s.get 0x880A 0) || decide (s.logArea < s.get 0x8809 0 + 64 * lines))

/-- Writes one record with the next sequence number; in stop mode a full area loses it (R436, R437). -/
def State.logWrite (s : State) (lostBefore : Bool) (r : LogRec) : State :=
  let seq := s.get 0x880B 0
  let ls := logRecLines seq lostBefore r
  if s.logFull ls.length then s.bump 0x880C r.cls
  else (s.put 0x880B 0 ((seq + 1) % 2 ^ 32)).logLines ls

/-- Payload of a gap record (R442). -/
def gapBody (kind cause uKind unit n first last : Nat) : Bytes :=
  natLe 1 kind ++ natLe 1 cause ++ natLe 1 uKind ++ natLe 1 unit ++ natLe 4 (Min.min n (2 ^ 32 - 1)) ++
  natLe 8 first ++ natLe 8 last ++ natLe 8 0

/-- FIFO depth of a source: 64 records, 1,024 for class 2 (R439). -/
def fifoDepth (cls : Nat) : Nat := if cls = 2 then 1024 else 64

/-- The logbook is kept in this state: it is not in OFF or RESET, where the stacks are not served. -/
def State.logServed (s : State) : Bool :=
  match s.dev.st with
  | .off => false
  | .reset => false
  | .boot => true
  | .prepare => true
  | .run => true
  | .drain => true
  | .test => true
  | .fault => true

/-- Records the loss of a record at a full FIFO (R440). -/
def addLost (uKind unit kind now : Nat) : List Lost → List Lost
  | [] => [⟨uKind, unit, kind, 1, now, now⟩]
  | l :: ls =>
    if l.uKind = uKind ∧ l.unit = unit ∧ l.kind = kind then { l with count := l.count + 1, last := now } :: ls
    else l :: addLost uKind unit kind now ls

/-- Writes a gap record (R442) past the FIFOs. -/
def State.writeGap (s : State) (kind cause uKind unit n first last : Nat) : State :=
  (s.bump 0x880D 0).logWrite false ⟨2, 0x40, 0, 0, s.now, gapBody kind cause uKind unit n first last, false⟩

/-- Writes a source's record, preceded by the gap records of what the source lost before it (R440). -/
def State.logPlace (s : State) (r : LogRec) : State :=
  let mine (l : Lost) : Bool := decide (l.uKind = r.uKind) && decide (l.unit = r.unit)
  let gaps := s.obs.lost.filter mine
  let s := gaps.foldl (fun s l => s.writeGap l.kind 0 l.uKind l.unit l.count l.first l.last) s
  ({ s with obs := { s.obs with lost := s.obs.lost.filter fun l => !(mine l) } }).logWrite (!gaps.isEmpty) r

/-- The PKT and ARITH units are frozen (R454). -/
def State.frozen (s : State) : Bool := match s.obs.freeze with | some f => f.frozen.isSome | none => false

/-- A source places a record of a house time. While a freeze holds the writer for the dump, it waits in the source's FIFO,
or is lost when that is full (R439, R440). -/
def State.logRecordAt (s : State) (time cls kind uKind unit : Nat) (body : Bytes) : State :=
  if s.logServed = false then s
  else
    let (st, s) := s.takeStretch uKind unit
    let r : LogRec := ⟨cls, kind, uKind, unit, time, body, st⟩
    if s.frozen then
      let held := (s.obs.fifo.filter fun q => q.cls = cls ∧ q.uKind = uKind ∧ q.unit = unit).length
      if fifoDepth cls ≤ held then
        ({ s with obs := { s.obs with lost := addLost uKind unit kind s.now s.obs.lost } }).bump 0x880C cls
      else { s with obs := { s.obs with fifo := s.obs.fifo ++ [r] } }
    else s.logPlace r

/-- A source places a record of this instant. -/
def State.logRecord (s : State) (cls kind uKind unit : Nat) (body : Bytes) : State :=
  s.logRecordAt s.now cls kind uKind unit body

/-- Places a gap record (R442). -/
def State.gapRecord (s : State) (kind cause uKind unit n first last : Nat) : State :=
  (s.bump 0x880D 0).logRecord 2 0x40 0 0 (gapBody kind cause uKind unit n first last)

/-! ## EVT_OUT trace trigger -/

/-- Drives the trace-trigger pulse of 1 µs; a later event extends it (R445). -/
def State.tracePulse (s : State) : State :=
  if s.flag 0x8810 2 then
    let s := if s.pwr.evtOut then s else s.emit (.evtOut s.now)
    { s with pwr := { s.pwr with evtOut := true, evtEnd := some (s.now + 1000) } }
  else s

/-! ## Markers -/

/-- Payload of a marker (R444). -/
def markBody (id array source seq acc : Nat) (detail : Bytes) : Bytes :=
  natLe 2 id ++ natLe 1 array ++ natLe 1 source ++ natLe 4 seq ++ natLe 2 acc ++ natLe 6 0 ++ slice detail 0 32

/-- A firmware marker, when 0x8812:00 is set (R444). The accession field of a marker that no cue wrote is
not stated: a free value (log entry 2). -/
def State.fwMarker (s : State) (id : Nat) (detail : Bytes) : State :=
  if s.flag 0x8812 0 then
    let (acc, s) := s.fresh
    let s := s.logRecord 4 0x10 0 0 (markBody id 0xFF 1 0 (acc % 65536) detail)
    if id = s.get 0x8810 3 then s.tracePulse else s
  else s

/-- Firmware's marker of a commit that takes effect, of a group that has no accession: those bytes are not stated, a free value
(R376, R444, log entry 2). -/
def State.commitMark (s : State) (group : Nat) : State :=
  let (acc, s) := s.fresh
  s.fwMarker 0x0002 (natLe 1 group ++ natLe 1 0 ++ natLe 2 acc)

/-! ## Events -/

/-- Raises an event (R365): its sequence number advances always; it is sent while ODP is served and at most
20,000 are sent in one second, else it counts as suppressed; the logbook's EVENT record holds its content. -/
def State.raiseC (s : State) (code idx sub cls sev : Nat) : State :=
  let seq := s.odp.eventSeq
  let second := s.now / 1000000000
  let count := if s.odp.evSecond = second then s.odp.evCount else 0
  let ok := s.servesOdp && decide (count < 20000)
  let s := { s with odp := { s.odp with
    eventSeq := (seq + 1) % 2 ^ 32, evSecond := second, evCount := if ok then count + 1 else count } }
  let s := if ok then (s.emit (.event code seq s.now idx sub)).bump 0x1815 0 else s.bump 0x1816 0
  s.logRecord 2 0x50 0 0
    (natLe 4 code ++ natLe 4 seq ++ natLe 8 s.now ++ natLe 2 idx ++ natLe 2 sub ++ natLe 4 0 ++ natLe 1 cls ++ natLe 1 sev)

/-- An event that no error record raises. -/
def State.raise (s : State) (code idx sub : Nat) : State := s.raiseC code idx sub 0 0

/-- Enters a device state; states with a code write the firmware marker 0x0001 (R444). The code of a state
that R380 gives none is a free value. -/
def State.enter (s : State) (d : DevState) : State :=
  let old := s.dev.st
  let s := { s with dev := { s.dev with st := d, since := s.now } }
  match d.code? with
  | none => s
  | some c =>
    let (o, s) := match old.code? with
      | some o => (o, s)
      | none => let (v, s) := s.fresh; (v % 256, s)
    s.fwMarker 0x0001 (natLe 1 o ++ natLe 1 c)

/-! ## Error records -/

/-- Severity of a class (R419): 0 informational, 1 recoverable, 2 suspect, 3 fatal. -/
def severity (cls : Nat) : Nat :=
  if 0x30 ≤ cls then 0 else if 0x20 ≤ cls then 3 else if 0x10 ≤ cls then 2 else 1

/-- The parts of an error record that its detector knows (R420). -/
structure ErrInfo where
  cls     : Nat
  uKind   : Nat
  unit    : Nat
  detail  : Bytes
  cueAddr : Nat := 0
  cueSeq  : Nat := 0
  opcode  : Nat := 0xFF
  ruleAcc  : Option Nat := none
  modelAcc : Option Nat := none
  /-- [3] hang dump taken, [2] retraction sent, [1] replacement flag set by this error. -/
  flags   : Nat := 0
  /-- Readings of the unit's sensor and rail, where the detector reports them. -/
  temp    : Option Nat := none
  volt    : Option Nat := none
  deriving DecidableEq, Repr, Inhabited

/-- The temperature sensor nearest a unit (0x9804 sub-index): array islands and DRAM dies their own. -/
def sensorOf (uKind unit : Nat) : Nat :=
  match uKind with
  | 1 => unit + 1
  | 2 => 0x11
  | 3 => 0x11
  | 4 => 0x12
  | 5 => 0x14
  | 6 => 0x13
  | 7 => 0x12
  | _ => if uKind = 10 ∧ unit < 29 then unit + 1 else 0x12

/-- The rail a unit hangs on: VISLa for an array, else VCORE (0x9806 and 0x9805). -/
def railOf (uKind unit : Nat) : Nat × Nat := if uKind = 1 then (0x9806, unit + 1) else (0x9805, 4)

/-- Reads a measured quantity (0x9802 to 0x9806): what the sensor shows is not the model's to say, a free value (log
entry 19); the rail of a gated array shows 0 (R505). -/
def State.measure (s : State) (idx sub : Nat) : Nat × State :=
  if idx = 0x9806 ∧ s.get (0x5010 + (sub - 1)) 2 = 0 then (0, s) else s.fresh

/-- The vendor section of R420, with the readings of temperature and rail voltage. -/
def State.vendorSection (s : State) (e : ErrInfo) (number flags temp volt : Nat) : Bytes :=
  natLe 2 0x0100 ++ natLe 2 64 ++ natLe 4 number ++ natLe 8 s.now ++ natLe 1 e.cls ++ natLe 1 (severity e.cls) ++
  natLe 1 e.uKind ++ natLe 1 e.unit ++ natLe 1 e.opcode ++ natLe 1 flags ++
  natLe 2 (e.ruleAcc.getD (s.get 0x3809 0)) ++ natLe 2 (e.modelAcc.getD (s.get 0x6800 0)) ++
  natLe 2 temp ++ natLe 2 volt ++ natLe 2 0 ++
  natLe 4 e.cueAddr ++ natLe 4 (e.cueSeq % 2 ^ 24) ++ slice e.detail 0 24

/-- Takes the readings of an error record. -/
def State.readings (s : State) (e : ErrInfo) : Nat × Nat × State :=
  let (t, s) := s.measure 0x9804 (sensorOf e.uKind e.unit)
  let (v, s) := s.measure (railOf e.uKind e.unit).1 (railOf e.uKind e.unit).2
  (e.temp.getD t, e.volt.getD v, s)

/-- Two decimal digits in one byte. -/
def bcd (n : Nat) : Nat := n / 10 % 10 * 16 + n % 10

/-- Civil date (year, month, day) of a day number counted from 1970-01-01. -/
def civil (days : Nat) : Nat × Nat × Nat :=
  let z := days + 719468
  let era := z / 146097
  let doe := z % 146097
  let yoe := (doe - doe / 1460 + doe / 36524 - doe / 146096) / 365
  let doy := doe - (365 * yoe + yoe / 4 - yoe / 100)
  let mp := (5 * doy + 2) / 153
  let d := doy - (153 * mp + 2) / 5 + 1
  let m := if mp < 10 then mp + 3 else mp - 9
  (yoe + era * 400 + (if m ≤ 2 then 1 else 0), m, d)

/-- The CPER timestamp (R421): house time in calendar form counting TAI seconds, precise bit set. -/
def cperTime (ns : Nat) : Bytes :=
  let sec := ns / 1000000000
  let (y, m, d) := civil (sec / 86400)
  natLe 1 (bcd (sec % 60)) ++ natLe 1 (bcd (sec / 60 % 60)) ++ natLe 1 (bcd (sec / 3600 % 24)) ++ natLe 1 1 ++
  natLe 1 (bcd d) ++ natLe 1 (bcd m) ++ natLe 1 (bcd (y % 100)) ++ natLe 1 (bcd (y / 100))

/-- A GUID of the family 8d2e6f14-3b7a-4c91-9e05-6a1f2c7b4dxx, in CPER byte order. -/
def vendorGuid (last : Nat) : Bytes :=
  natLe 4 0x8d2e6f14 ++ natLe 2 0x3b7a ++ natLe 2 0x4c91 ++ natBe 2 0x9e05 ++ natBe 5 0x6a1f2c7b4d ++ natLe 1 last

/-- Name of a grade (R8), ASCII, zero-padded to 16 bytes, as a little-endian number. -/
def Grade.name : Grade → Bytes
  | .dw16lc => [0x44, 0x57, 0x31, 0x36, 0x2D, 0x4C, 0x43]
  | .dw16af => [0x44, 0x57, 0x31, 0x36, 0x2D, 0x41, 0x46]
  | .dw12lc => [0x44, 0x57, 0x31, 0x32, 0x2D, 0x4C, 0x43]
  | .dw12af => [0x44, 0x57, 0x31, 0x32, 0x2D, 0x41, 0x46]

/-- The serial number as the twelve decimal digits of 0x1022:02 (R386). -/
def Mfg.serialDigits (m : Mfg) : Bytes := (List.range 12).map fun i => BitVec.ofNat 8 (48 + m.serial / 10 ^ (11 - i) % 10)

/-- CPER severity code of a record severity (R421). -/
def cperSeverity (sev : Nat) : Nat := if sev = 0 then 3 else if sev = 3 then 1 else 0

/-- The CPER record of 264 bytes of a vendor section (R421): header, one section descriptor, the section. -/
def State.cper (s : State) (r : Bytes) : Bytes :=
  let sev := cperSeverity (le r 17 1)
  let header := natLe 4 0x52455043 ++ natLe 2 0x0100 ++ natLe 4 0xFFFFFFFF ++ natLe 2 1 ++ natLe 4 sev ++ natLe 4 2 ++
    natLe 4 264 ++ cperTime (le r 8 8) ++ natLe 16 0 ++ natLe 16 0 ++ vendorGuid 0x80 ++ vendorGuid 0x81 ++
    natLe 8 (le r 4 4) ++ natLe 4 0 ++ natLe 8 0 ++ natLe 12 0
  let fru := s.mfg.grade.name ++ [0x20] ++ s.mfg.serialDigits
  let section_ := natLe 4 200 ++ natLe 4 64 ++ natLe 2 0x0100 ++ natLe 1 2 ++ natLe 1 0 ++ natLe 4 1 ++ vendorGuid 0x83 ++
    natLe 16 0 ++ natLe 4 sev ++ fru
  header ++ section_ ++ r

/-- Records the error journal holds (R503): its partition over the size of a CPER record. -/
def journalCapacity : Nat := 512 * 1048576 / 264

/-- Drops the oldest record that `p` allows. -/
def dropOldest (p : JournalRec → Bool) : List JournalRec → Option (List JournalRec)
  | [] => none
  | r :: rs => if p r then some rs else (dropOldest p rs).map (r :: ·)

/-- Appends to the journal; when full the oldest record of severity 0 or 1 goes first, and one of severity 2
or 3 gives way only to a newer one of severity 2 or 3 (R422). -/
def journalAdd (j : List JournalRec) (r : JournalRec) : List JournalRec :=
  if j.length < journalCapacity then j ++ [r]
  else match dropOldest (fun q => decide (le q 17 1 ≤ 1)) j with
    | some j => j ++ [r]
    | none => if 2 ≤ le r 17 1 then j.drop 1 ++ [r] else j

/-- Whether a record of severity 0 or 1 of this class still fits this minute (R422), and the new count. -/
def minuteCount (cls minute : Nat) (l : List (Nat × Nat × Nat)) : Bool × List (Nat × Nat × Nat) :=
  let n := match l.find? fun e => e.1 = cls with
    | some (_, m, n) => if m = minute then n else 0
    | none => 0
  (decide (n < 10), (cls, minute, n + 1) :: l.filter fun e => decide (e.1 ≠ cls))

/-- Puts a record into the journal under R422: severity 2 and 3 at once, but in FAULT kept with the logbook
until BOOT copies it; severity 0 and 1 at most ten per class and minute, the rest counted in 0x8031. -/
def State.journalRecord (s : State) (cls : Nat) (r : JournalRec) : State :=
  if 2 ≤ severity cls then
    if s.dev.st = .fault then { s with rel := { s.rel with faultLog := s.rel.faultLog ++ [r] } }
    else { s with flash := { s.flash with journal := journalAdd s.flash.journal r } }
  else
    let (ok, m) := minuteCount cls (s.now / 60000000000) s.rel.minute
    let s := { s with rel := { s.rel with minute := m } }
    if ok then { s with flash := { s.flash with journal := journalAdd s.flash.journal r } }
    else ({ s with rel := { s.rel with suppressed := cls :: s.rel.suppressed } }).bump 0x8031 cls

/-- Pushes a record to the collector while its address is not all zero and ODP is served, at most 1,000 in
one second (R423). -/
def State.pushRecord (s : State) (code seq : Nat) (r : JournalRec) : State :=
  if s.get 0x8002 0 = 0 ∨ s.servesOdp = false then s
  else
    let second := s.now / 1000000000
    let count := if s.odp.pushSecond = second then s.odp.pushCount else 0
    if count < 1000 then
      (({ s with odp := { s.odp with pushSecond := second, pushCount := count + 1 } }).emit
        (.push code seq s.now (s.cper r))).bump 0x8032 1
    else ({ s with odp := { s.odp with pushSecond := second, pushCount := count } }).bump 0x8032 2

/-- A detected error (R419 to R423): counted by class, recorded under the next record number, written to the
journal, raised as event 0x0001_0000 + class, and pushed. -/
def State.errorRecord (s : State) (e : ErrInfo) : State :=
  let s := s.bump 0x8033 e.cls
  let (st, s) := s.takeStretch e.uKind e.unit
  let sup := s.rel.suppressed.contains e.cls
  let flags := e.flags + (if st then 16 else 0) + (if sup then 1 else 0)
  let number := s.flash.recNo
  let (temp, volt, s) := s.readings e
  let r := s.vendorSection e number flags temp volt
  let s := { s with flash := { s.flash with recNo := (number + 1) % 2 ^ 32 } }
  let s := { s with rel := { s.rel with suppressed := s.rel.suppressed.filter fun c => decide (c ≠ e.cls) } }
  let s := s.journalRecord e.cls r
  let seq := s.odp.eventSeq
  let s := s.raiseC (0x00010000 + e.cls) 0 0 e.cls (severity e.cls)
  s.pushRecord (0x00010000 + e.cls) seq r

/-- An alert record of class 0x31 (R419): alert id, and raised or cleared. -/
def State.alert (s : State) (id uKind unit : Nat) (raised : Bool) : State :=
  s.errorRecord { cls := 0x31, uKind := uKind, unit := unit, detail := natLe 1 id ++ natLe 1 (if raised then 1 else 0) }

end Sys2Proof.Machine
end

