-- ==== Sys2Proof/Machine/CatOps.lean ====
section
/-! DEFINITION. The flow catalogue (03_catalogue.md): entries, buckets, parity, keys, and the operations on
buckets that need nothing of a packet but its key. -/

namespace Sys2Proof.Machine

open Sys2Proof.Bits

/-! ## Entries (R71), as little-endian numbers of 512 bits -/

/-- The parity byte of an entry's other 63 bytes. -/
def entryParity (e : Nat) : Nat :=
  (List.range 7).foldl (fun n i => n + parity 64 (fld e (64 * i + 63) (64 * i)) * 2 ^ i) 0 + parity 56 (fld e 503 448) * 128

/-- The entry with its parity byte computed afresh (R82). -/
def reparity (e : Nat) : Nat := let b := e % 2 ^ 504; b + entryParity b * 2 ^ 504

/-- The parity byte agrees. -/
def parityOk (e : Nat) : Bool := decide (e / 2 ^ 504 = entryParity (e % 2 ^ 504))

def entryValid (e : Nat) : Bool := bit e 503
def entryHit (e : Nat) : Bool := bit e 502
def entryAge (e : Nat) : Bool := bit e 501
def entryEpoch (e : Nat) : Nat := fld e 500 500
def entryProfile (e : Nat) : Nat := fld e 499 496
def entryKey (e : Nat) : Nat := fld e 319 0
def entryPackets (e : Nat) : Nat := fld e 351 320
def entryBytes (e : Nat) : Nat := fld e 383 352

/-- A key of 40 bytes, its first byte highest, as the entry stores it. -/
def storedKey (key : Nat) : Nat := leNat (natBe 40 key)

/-- A valid entry of this profile and key (R72). -/
def entryIs (profile key e : Nat) : Bool :=
  entryValid e && decide (entryProfile e = profile) && decide (entryKey e = storedKey key)

/-- A freed entry: its valid bit cleared, its parity rewritten. -/
def freed (e : Nat) : Nat := reparity (setFld e 503 503 0)

/-! ## Buckets (R69, R70) -/

/-- Buckets of the catalogue. -/
def bucketCount : Nat := 1048576

/-- The hot-cache way that holds a bucket. -/
def State.way? (s : State) (b : Nat) : Option CacheWay := s.cat.cache.find? fun w => w.bucket = b

/-- The four entries of a bucket: the cached copy while it exists, else the stacks. -/
def State.bucket (s : State) (b : Nat) : List Nat :=
  match s.way? b with
  | some w => w.data
  | none => (List.range 4).map fun i => leNat (s.memRead (s.regionBase 2 + 256 * b + 64 * i) 64)

/-- Number of valid entries. -/
def validCount (l : List Nat) : Nat := (l.filter entryValid).length

/-- Writes a bucket: into the cached copy while it exists, else to the stacks; the occupancy follows. -/
def State.setBucket (s : State) (b : Nat) (l : List Nat) : State :=
  let s := s.put 0x4001 0 (s.get 0x4001 0 + validCount l - validCount (s.bucket b))
  match s.way? b with
  | some _ =>
    { s with cat := { s.cat with
      cache := s.cat.cache.map fun w => if w.bucket = b then { w with data := l, used := true, dirty := true } else w } }
  | none => s.memWrite (s.regionBase 2 + 256 * b) (l.flatMap (natLe 64))

/-- Replaces one entry. -/
def State.setEntry (s : State) (b slot e : Nat) : State := s.setBucket b ((s.bucket b).set slot e)

/-- Frees the entries of a bucket whose parity disagrees, from `slot` on, and reports each (R82). -/
def State.checkSlots (s : State) (b : Nat) : List Nat → Nat → State
  | [], _ => s
  | e :: es, slot =>
    let s :=
      if entryValid e && !parityOk e then
        ((s.setEntry b slot (freed e)).bump 0x4008 0).errorRecord
          { cls := 0x0B, uKind := 4, unit := 0, detail := natLe 1 (entryProfile e) ++ natLe 4 b ++ natLe 1 slot }
      else s
    State.checkSlots s b es (slot + 1)

/-- A bucket is read: its cached copy is recently used (R70), or the stacks are read. -/
def State.touchBucket (s : State) (b : Nat) : State :=
  match s.way? b with
  | some _ => { s with cat := { s.cat with cache := s.cat.cache.map fun w => if w.bucket = b then { w with used := true } else w } }
  | none => s.countRead (s.regionBase 2 + 256 * b) 256

/-- The front reads a bucket for an operation: every valid entry's parity is checked (R82). -/
def State.checkBucket (s : State) (b : Nat) : State := (s.touchBucket b).checkSlots b (s.bucket b) 0

/-! ## Hashing (R73, R84) -/

/-- Bucket pair of a key under a pair of seeds. -/
def hashPair (seeds : Nat × Nat) (profile key : Nat) : Nat × Nat :=
  (Config.hash1 seeds.1 (profile * 2 ^ 320 + key) % bucketCount, Config.hash2 seeds.2 (profile * 2 ^ 320 + key) % bucketCount)

/-- The pair into which a key is learned: that of the new seeds while a rehash runs. -/
def State.learnPair (s : State) (profile key : Nat) : Nat × Nat :=
  hashPair (s.cat.newSeeds.getD s.cat.seeds) profile key

/-- Buckets a key may lie in: its pair, and during a rehash its new pair too. -/
def State.candidates (s : State) (profile key : Nat) : List Nat :=
  let p := hashPair s.cat.seeds profile key
  let l := match s.cat.newSeeds with
    | some n => let q := hashPair n profile key; [p.1, p.2, q.1, q.2]
    | none => [p.1, p.2]
  l.eraseDups

/-- A key at an operation's order point. -/
def State.catKey (s : State) (profile key : Nat) : CatKey :=
  ⟨profile, key, s.candidates profile key, s.learnPair profile key, s.get 0x400F 0⟩

/-- Slot of a key in a bucket. -/
def findSlot (profile key : Nat) : List Nat → Nat → Option Nat
  | [], _ => none
  | e :: es, i => if entryIs profile key e then some i else findSlot profile key es (i + 1)

/-- Bucket and slot of a key among buckets. -/
def State.findEntry (s : State) (profile key : Nat) : List Nat → Option (Nat × Nat)
  | [] => none
  | b :: bs => match findSlot profile key (s.bucket b) 0 with
    | some i => some (b, i)
    | none => State.findEntry s profile key bs

/-- Lowest free slot of a bucket. -/
def freeSlot (l : List Nat) : Option Nat := (List.range 4).find? fun i => !entryValid (l.getD i 0)

/-- The place of a new entry (R78): the bucket with fewer valid entries, H1's on a tie, its lowest free slot; none
when both are full (R79). -/
def State.place (s : State) (p : Nat × Nat) : Option (Nat × Nat) :=
  let b := if validCount (s.bucket p.2) < validCount (s.bucket p.1) then p.2 else p.1
  (freeSlot (s.bucket b)).map fun i => (b, i)

/-! ## Ordering (R74, R75) -/

/-- Profile and key of a stored entry, first key byte highest. -/
def entryFlow (e : Nat) : Nat × Nat := (entryProfile e, beNat (natLe 40 (entryKey e)))

/-- The entry is of the epoch before the rehash. -/
def State.oldEpoch (s : State) (e : Nat) : Bool := entryValid e && decide (entryEpoch e ≠ s.get 0x400F 0)

/-- Buckets a migration visit covers: the source, and both targets of each old-epoch entry (R84). -/
def State.migrateBuckets (s : State) (b : Nat) : List Nat :=
  (b :: ((s.bucket b).filter s.oldEpoch).flatMap fun e =>
    let p := s.learnPair (entryFlow e).1 (entryFlow e).2
    [p.1, p.2]).eraseDups

/-- The buckets an operation covers; those of a migration are the targets of the entries that its source holds now. -/
def State.opBuckets (s : State) : CatOp → List Nat
  | .lookup _ k => k.buckets
  | .writeback k _ => k.buckets
  | .sweep b => [b]
  | .migrate b => s.migrateBuckets b
  | .probe _ k => k.buckets
  | .probeDelete k => k.buckets

/-- An earlier operation still holds one of these buckets. -/
def State.catBlocked (s : State) (bs : List Nat) : Bool :=
  s.cat.waiting.any fun w => (s.opBuckets w.op).any fun b => bs.contains b

/-- 256 lookups wait for fetches: the front accepts none, and intake stalls behind it (R75). -/
def State.catFull (s : State) : Bool := decide (256 ≤ (s.cat.waiting.filter fun w => w.fetching).length)

/-- An operation joins those held. -/
def State.catHold (s : State) (w : CatWait) : State :=
  { s with cat := { s.cat with waiting := s.cat.waiting ++ [w] } }

/-- Writes the last-verdict byte of an entry still present (R80). -/
def State.writebackEffect (s : State) (k : CatKey) (byte : Nat) : State :=
  let s := k.buckets.foldl State.checkBucket s
  match s.findEntry k.profile k.key k.buckets with
  | some (b, i) => s.setEntry b i (reparity (setFld ((s.bucket b).getD i 0) 495 488 byte))
  | none => s

/-- A verdict returns to the catalogue front (R80, R112): source, class and action, in the order of its return. -/
def State.writeback (s : State) (p : Pkt) (src cls act : Nat) : State :=
  match p.flow with
  | none => s
  | some (profile, _, key) =>
    let byte := src * 64 + cls % 8 * 8 + act % 8
    let k := s.catKey profile key
    if s.catBlocked k.buckets then s.catHold ⟨.writeback k byte, false⟩ else s.writebackEffect k byte

/-- Firmware's marker of a rehash that started (0) or ended (1), and the entries it evicted (R85, R444). -/
def State.rehashMark (s : State) (ended evicted : Nat) : State :=
  s.fwMarker 0x0004 (natLe 1 ended ++ natLe 3 0 ++ natLe 8 evicted)

/-- A running rehash ends (R84, R85): the seeds drawn for it stay in force. -/
def State.endRehash (s : State) (evicted : Nat) : State :=
  if s.get 0x400C 0 = 0 then s
  else
    let s := { s.put 0x400C 0 0 with
      cat := { s.cat with seeds := s.cat.newSeeds.getD s.cat.seeds, newSeeds := none, migr := 0 } }
    s.rehashMark 1 evicted

/-- Empties the catalogue (R86): every entry and the hot cache. -/
def State.clearCatalogue (s : State) : State :=
  let s := { s with
    cat := { s.cat with cache := [], revived := [] }
    mem := Sparse.clear s.mem (s.regionBase 2) (s.regionSize 2) }
  s.put 0x4001 0 0

end Sys2Proof.Machine
end

