-- ==== Sys2Proof/Machine/Parse.lean ====
section
/-! DEFINITION. The parse walk (R42 to R46), the eCPRI sequence check (R49,
R50), keys and rule matching (R54, R55). -/

namespace Sys2Proof.Machine

open Sys2Proof.Bits

/-! ## The walk -/

/-- Bytes a parse pipe sees (R42). -/
def parseWindow : Nat := 192

/-- A field at header offset `o`, or the malformed class: the frame ends inside it, or it lies past byte 191. -/
def readField (bs : Bytes) (o : Nat) (f : Field) : Except Nat Nat :=
  let e := o + (f.off + f.width + 7) / 8
  if bs.length < e then .error 1
  else if parseWindow < e then .error 3
  else .ok (bits bs (8 * o + f.off) f.width)

/-- First transition whose masked value matches (R43). -/
def firstMatch (v : Nat) : List (Nat × Nat × Nat) → Option Nat
  | [] => none
  | (x, m, n) :: ts => if Nat.land (nxor v x) m = 0 then some n else firstMatch v ts

/-- Extracted fields of one state; those outside the window or the frame are not there. -/
def extracts (bs : Bytes) (o : Nat) (fs : List Field) : List (Nat × Nat) :=
  fs.filterMap fun f => match readField bs o f with | .ok v => some (v, f.width) | .error _ => none

/-- The walk stops malformed: class `c` in state `s`, whose ACCEPT profile a CONTINUE takes (R45, R47). -/
def stopMal (p : Parsed) (st : PState) (c : Nat) : Parsed :=
  { p with mal := c, profile := match st.dflt with | .accept k => k | .goto _ => 0 | .noValid => 0 }

/-- End of the next state's way: where to go after this header. -/
def leave (port : Nat) (bs : Bytes) (o len : Nat) (st : PState) : Except Nat Exit :=
  match st.sel with
  | none => .ok st.dflt
  | some f =>
    match readField bs (if st.selEnd then o + len - f.off / 8 else o) (if st.selEnd then ⟨0, f.width⟩ else f) with
    | .error c => .error c
    | .ok v =>
      match firstMatch v st.trans with
      | some n => .ok (.goto n)
      | none =>
        match st.ecpriNext with
        | some n => if port ≠ 0 ∧ v = port then .ok (.goto n) else .ok st.dflt
        | none => .ok st.dflt

/-- Notes what later stages need to know of a header that begins at `o`. -/
def noteHeader (bs : Bytes) (o len : Nat) (st : PState) (p : Parsed) : Parsed :=
  let p := if st.ecpri then
      { p with ecpri := some (be bs (o - 3) 1, be bs o 2, be bs (o + 2) 1, be bs (o + 3) 1) } else p
  let p := if st.section_ then { p with section_ := some (o, len) } else p
  match st.tag with
  | 1 => { p with vlan := some o }
  | 2 => if p.ip4.isNone ∧ p.ip6.isNone then { p with ip4 := some o } else p
  | 3 => if p.ip4.isNone ∧ p.ip6.isNone then { p with ip6 := some o } else p
  | 4 => { p with tcp := p.tcp ++ [o] }
  | 5 => { p with ptp := true }
  | 6 => { p with section_ := p.section_.map fun x => (x.1, x.2 + len) }
  | _ => p

/-- The walk from state `n` at offset `o` (R42 to R46); `port` is the eCPRI UDP port. A header counts as a layer once its checks are
passed (R47, R93). States that share a layer have no stated number: a walk that `fuel` (64, as many as there are states) does not
end is class 4 (DESIGN CHOICE, log entry 52). -/
def walk (graph : List PState) (port : Nat) (bs : Bytes) : Nat → Nat → Nat → Parsed → Parsed
  | 0, _, _, p => { p with mal := 4 }
  | fuel + 1, n, o, p =>
    match graph[n]? with
    | none => { p with mal := 4 }
    | some st =>
      if st.newLayer && decide (12 ≤ p.layers.length) then stopMal p st 4
      else
        let len : Except Nat Nat := match st.lenField with
          | none => .ok st.len
          | some f => match readField bs o f with | .ok v => .ok (v * st.mult + st.addend) | .error c => .error c
        match len with
        | .error c => stopMal p st c
        | .ok len =>
          if bs.length < o + len then stopMal p st 1
          else
            let chk : Except Nat Nat := match st.check with
              | none => .ok p.limit
              | some (f, unit, add) =>
                match readField bs o f with
                | .error c => .error c
                | .ok v =>
                  let claim := v * unit + add
                  if bs.length < o + claim ∨ claim < len then .error 2 else .ok (Min.min p.limit (o + claim))
            match chk with
            | .error c => stopMal p st c
            | .ok limit =>
              if parseWindow < o + len then stopMal { p with limit := limit } st 3
              else
                let p := if st.newLayer then { p with layers := p.layers ++ [o] } else p
                let p := { p with limit := limit, finish := o + len, extract := p.extract ++ extracts bs o st.extract }
                let p := noteHeader bs o len st p
                match leave port bs o len st with
                | .error c => stopMal p st c
                | .ok (.accept k) => { p with profile := k }
                | .ok .noValid => stopMal p st 4
                | .ok (.goto m) => walk graph port bs fuel m (o + len) p

/-- The parse of a frame under a bank's graph. -/
def parseFrame (b : Bank) (bs : Bytes) : Parsed :=
  walk b.graph (Sparse.read objDefault b.objs (objKey 0x3830 0)) bs 64 0 0 { limit := bs.length }

/-! ## eCPRI streams -/

/-- The stream of a packet: ingress port, message type and id. -/
def Stream.is (x : Stream) (port type id : Nat) : Bool :=
  decide (x.port = port) && decide (x.type = type) && decide (x.id = id)

/-- Checks a packet against its stream's tracked sequence and tracks it (R49, R50): in sequence or not, the
table, and whether the packet could not be checked because the table is full. An entry unused for 1 s is free. -/
def checkStream (table : List Stream) (port type id seq esub now : Nat) : Bool × List Stream × Bool :=
  let live := table.filter fun x => decide (now < x.last + 1000000000)
  let e := decide (128 ≤ esub)
  let sub := esub % 128
  let new : Stream := ⟨port, type, id, seq, sub, e, now⟩
  match live.find? fun x => x.is port type id with
  | none => if 4096 ≤ live.length then (true, live, true) else (true, live ++ [new], false)
  | some x =>
    let bad := (decide (sub = 0) && decide (seq ≠ (x.seq + 1) % 256)) ||
      (!x.e && !(decide (seq = x.seq) && decide (sub = x.sub + 1)))
    (!bad, live.map fun y => if y.is port type id then new else y, false)

/-! ## Keys and rules -/

/-- Fields of the parse result packed into `width` bits (R54). Their order is not stated, nor the unit of a catalogue key field's
offset (R72): the first field is highest, the unused low bits zero, an offset counts bytes from the layer's first (DESIGN CHOICE,
log entry 57). A field of a layer the packet does not have, or past byte 191, is zero. -/
def packKey (width : Nat) (p : Parsed) (bs : Bytes) (fs : List KeyField) : Nat :=
  let r := fs.foldl (fun (acc : Nat × Nat) f =>
    let o := match p.layers[f.layer]? with
      | some l => match readField bs l ⟨8 * f.off, f.width⟩ with | .ok v => v | .error _ => 0
      | none => 0
    (acc.1 * 2 ^ f.width + o, acc.2 + f.width)) (0, 0)
  r.1 * 2 ^ (width - r.2)

/-- A rule of the key profile matches (R55). -/
def ruleMatches (profile key : Nat) (r : Rule) : Bool :=
  r.pv.testBit 7 && decide (r.pv % 16 = profile) && decide (Nat.land (nxor key r.value) r.mask = 0)

/-- The lowest matching rule, with its index (R55). -/
def classify (b : Bank) (profile key : Nat) : Option (Nat × Rule) :=
  b.rules.find? fun e => ruleMatches profile key e.2

end Sys2Proof.Machine
end

