-- ==== Sys2Proof/Machine/EgressOps.lean ====
section
/-! DEFINITION. Operations of egress: queue choice, enqueue (R304), originated frames (R316 to R323), marking
(R57), completion in port order (R37 to R41), the hold pool (R310 to R313). -/

namespace Sys2Proof.Machine

open Sys2Proof.Bits

/-! ## Queues -/

/-- The FIFO of a queue. -/
def State.queue (s : State) (q : Nat) : List QItem := Sparse.read (fun _ => []) s.egr.q q

/-- Sets the FIFO of a queue. -/
def State.setQueue (s : State) (q : Nat) (l : List QItem) : State :=
  { s with egr := { s.egr with q := Sparse.write (fun _ => []) s.egr.q q l } }

/-- Frame length in bytes on transmit, FCS included, at least 64 (R304, R308). -/
def frameLen (bs : Bytes) : Nat := Max.max 64 (bs.length + 4)

/-- Depth of a queue in frame bytes (R324). -/
def queueBytes (l : List QItem) : Nat := l.foldl (fun n i => n + frameLen i.bytes) 0

/-- The port a queue is bound to (R302). -/
def State.queuePort (s : State) (q : Nat) : Nat := s.get 0x7100 (q + 1)

/-- Enqueues a frame (R304): dropped and counted against the queue when its depth would exceed the maximum or
its port is disabled. -/
def State.enqueue (s : State) (q : Nat) (i : QItem) : State :=
  let l := s.queue q
  if s.get 0x3001 (s.queuePort q + 1) = 0 ∨ s.get 0x7106 (q + 1) < queueBytes l + frameLen i.bytes then s.bump 0x710B (q + 1)
  else (s.setQueue q (l ++ [{ i with enq := s.now }])).bump 0x710A (q + 1)

/-- Lowest of the queues `q`, `q + 1`, … that no host has bound elsewhere. -/
def unbound (dict : Sparse Nat) (fuel q : Nat) : Nat :=
  match fuel with
  | 0 => q
  | n + 1 => if (dict.any fun e => e.1 = objKey 0x7100 (q + 1)) then unbound dict n (q + 1) else q

/-- The lowest-numbered queue bound to a port (R47). -/
def State.lowestQueue (s : State) (port : Nat) : Nat :=
  let moved := (s.dict.filter fun e => decide (e.1 / 65536 = 0x7100) && decide (e.2 = port)).map fun e => e.1 % 65536 - 1
  let own := unbound s.dict 2048 (port * 2048)
  moved.foldl (fun m q => Min.min m q) own

/-- The rule bank of a rule accession (R52): the retiring bank while it still stands under that accession. -/
def State.bankOf (s : State) (ra : Nat) : Bank :=
  match s.intake.retiring with
  | some b => if b.acc = ra ∧ s.intake.bank.acc ≠ ra then b else s.intake.bank
  | none => s.intake.bank

/-- A rule bank retires: one of an accession, or, under 0x0000, which is no accession, one whose packets are not all through
(R280, R298; log entry 57). -/
def State.ruleRetiring (s : State) : Bool :=
  match s.intake.retiring with
  | some b => decide (b.acc ≠ 0) || s.pkts.any fun p => decide (p.ra = b.acc)
  | none => false

/-- The value of a rule-group object in a bank. -/
def Bank.get (b : Bank) (idx sub : Nat) : Nat := Sparse.read objDefault b.objs (objKey idx sub)

/-- The pass queue of an ingress port under a bank (R47): 0xFFFF is the lowest queue of the in-line peer, or of
the port itself on a look-aside port. A number from 8,192 to 65,534 names no queue: it is taken modulo 8,192 (DESIGN CHOICE, log
entry 57). -/
def State.passQueue (s : State) (b : Bank) (port : Nat) : Nat :=
  let v := b.get 0x3826 (port + 1)
  if v ≠ 0xFFFF then v % 8192
  else
    let inLine := decide (s.get 0x3000 0 = 0) || (decide (s.get 0x3000 0 = 2) && decide (port < 2))
    s.lowestQueue (if inLine then nxor port 1 else port)

/-- The mirror queue of an ingress port (R47, R68), numbers as for the pass queue (DESIGN CHOICE, log entry 57). -/
def State.mirrorQueue (s : State) (b : Bank) (port : Nat) : Nat :=
  let v := b.get 0x3827 (port + 1)
  if v ≠ 0xFFFF then v % 8192 else s.passQueue b port

/-! ## Packet memory -/

/-- Bytes of bodies in burst SRAM outside the hold share, and in the packet buffer outside its share (R300). -/
def State.bodyBytes (s : State) (burst : Bool) : Nat :=
  (s.pkts.foldl (fun n p => if p.inBurst = burst ∧ p.stage ≠ .held then n + p.bytes.length else n) 0) +
  (s.egr.q.foldl (fun n e => n + e.2.foldl (fun n i => if i.inBurst = burst then n + i.bytes.length else n) 0) 0)

/-- Bytes of held bodies in the burst share or the packet-buffer share (R310). -/
def State.heldBytes (s : State) (burst : Bool) : Nat :=
  s.pkts.foldl (fun n p => if p.inBurst = burst ∧ p.stage = .held then n + p.bytes.length else n) 0

/-- Packets held. -/
def State.heldCount (s : State) : Nat := (s.pkts.filter fun p => decide (p.stage = .held)).length

/-- Capacity of the burst buffer: 32 MiB less the hold share (R275, R300). -/
def State.burstCap (s : State) : Nat := 0x2000000 - s.get 0x6020 0 * 0x100000

/-- Capacity of the packet buffer: its region less the hold share (R275, R300). -/
def State.bufferCap (s : State) : Nat := s.regionSize 1 - s.get 0x6021 0 * 0x100000

/-- Where a new body goes (R300): burst while its free space is at least the spill reserve and holds it, else
the packet buffer; none when both are full. -/
def State.placeBody (s : State) (n : Nat) : Option Bool :=
  let free := s.burstCap - s.bodyBytes true
  if s.get 0x7009 0 * 1024 ≤ free ∧ n ≤ free then some true
  else if s.bodyBytes false + n ≤ s.bufferCap then some false else none

/-- Where a body written to the packet buffer lies: the region's free space is given out in an order that is not stated (a free value,
log entry 2). -/
def State.bodyLoc (s : State) (pid : Nat) : Nat := s.regionBase 1 + Config.bodySlot pid % (s.regionSize 1 / 256) * 256

/-- Counts the writing of a body into the packet buffer (0x6014). -/
def State.countBody (s : State) (x n : Nat) : State :=
  { s with memc := { s.memc with wr := countLines s.memc.wr (x / 64) (lineSpan x n) } }

/-- Egress or the tap reads a body, from the packet buffer or from burst SRAM (R267, 0x6013). -/
def State.readBody (s : State) (inBurst : Bool) (loc n : Nat) : State := if inBurst then s else s.countRead loc n

/-! ## Packets -/

/-- The packet with this handle. -/
def State.pkt? (s : State) (pid : Nat) : Option Pkt := s.pkts.find? fun p => p.pid = pid

/-- Replaces a packet. -/
def State.setPkt (s : State) (p : Pkt) : State :=
  { s with pkts := s.pkts.map fun x => if x.pid = p.pid then p else x }

/-- Removes a packet. -/
def State.dropPkt (s : State) (pid : Nat) : State :=
  { s with pkts := s.pkts.filter fun x => decide (x.pid ≠ pid) }

/-- The record of a port. -/
def State.lineAt (s : State) (p : Nat) : Line := s.line.toList.getD p {}

/-- Changes the record of a port. -/
def State.modLine (s : State) (p : Nat) (f : Line → Line) : State :=
  { s with line := s.line.mapIdx fun i l => if i = p then f l else l }

/-- The frame of a packet as a queue item. -/
def Pkt.item (p : Pkt) : QItem := ⟨p.bytes, some p.port, p.stamp, p.inBurst, 0, p.loc⟩

/-- A packet leaves its port's window. -/
def State.freeSlot (s : State) (p : Pkt) : State :=
  s.modLine p.port fun l => { l with window := l.window.filter fun x => decide (x ≠ p.pid) }

/-- A packet completes (R37): one dropped without a mirror copy frees its number at once; any other decision stands until the
port's order reaches it. One whose slot was skipped is dropped and counted as late (R41). -/
def State.complete (s : State) (p : Pkt) (d : Decision) : State :=
  if (s.lineAt p.port).skipped.contains p.pid then
    ((s.dropPkt p.pid).modLine p.port fun l => { l with skipped := l.skipped.filter fun x => decide (x ≠ p.pid) }).bump
      0x3803 (p.port + 1)
  else if d = .drop ∧ p.mirror = none then (s.dropPkt p.pid).freeSlot p
  else s.setPkt { p with dec := some d, stage := .done }

/-! ## Marking (R57) -/

/-- Ones'-complement addition of 16-bit words. -/
def ocAdd (a b : Nat) : Nat := let x := a + b; x % 65536 + x / 65536

/-- Internet checksum adjusted for a word that changes (RFC 1624). -/
def ocAdjust (sum old new : Nat) : Nat := 0xFFFF - ocAdd (ocAdd (0xFFFF - sum) (0xFFFF - old)) new

/-- Writes the outer DSCP (R57). -/
def markDscp (p : Parsed) (bs : Bytes) (v : Nat) : Bytes :=
  match p.ip4, p.ip6 with
  | some o, _ =>
    let old := be bs o 2
    let new := setFld old 7 2 v
    let bs := patch bs o (natBe 2 new)
    patch bs (o + 10) (natBe 2 (ocAdjust (be bs (o + 10) 2) old new))
  | none, some o => patch bs o (natBe 2 (setFld (be bs o 2) 11 6 v))
  | none, none => bs

/-- Writes the outer PCP. -/
def markPcp (p : Parsed) (bs : Bytes) (v : Nat) : Bytes :=
  match p.vlan with
  | some o => patch bs o (natBe 2 (setFld (be bs o 2) 15 13 v))
  | none => bs

/-- Marking by code: 00 none, 01 DSCP, 10 PCP, 11 both. -/
def markBytes (p : Parsed) (bs : Bytes) (mark dscp pcp : Nat) : Bytes :=
  let bs := if mark % 2 = 1 then markDscp p bs dscp else bs
  if mark / 2 % 2 = 1 then markPcp p bs pcp else bs

/-! ## Originated frames -/

/-- Assembles an originated frame with the next record sequence number and enqueues it (R316 to R318); one
longer than its port's maximum frame size is dropped and counted (R323). -/
def State.originate (s : State) (q subtype ra ma : Nat) (body : Bytes) : State :=
  let seq := s.get 0x7010 0
  let vlan := s.get 0x700D 0
  let head := natLe 6 (s.get 0x700B 0) ++ natLe 6 (s.get 0x700C 0) ++
    (if vlan = 0 then [] else natBe 2 0x8100 ++ natBe 2 vlan) ++ natBe 2 (s.get 0x700A 0)
  let common := natBe 1 1 ++ natBe 1 subtype ++ natBe 2 body.length ++ natBe 2 (s.get 0x7800 0 % 512) ++ natBe 2 ra ++
    natBe 2 ma ++ natBe 2 0 ++ natBe 4 seq ++ natBe 8 s.now
  let frame := head ++ common ++ body
  let frame := frame ++ List.replicate (60 - frame.length) 0
  let s := s.put 0x7010 0 ((seq + 1) % 2 ^ 32)
  if s.get 0x3004 (s.queuePort q + 1) < frame.length + 4 then s.bump 0x7011 0
  else s.enqueue q ⟨frame, none, 0, true, 0, 0⟩

/-- Canonical NaN of FP32 (R108, R319). -/
def nan32 : Nat := 0x7FC00000

/-- A verdict record (R319): source 1 classifier, 2 tree, 3 neural; class 8 is undetermined. -/
def State.verdictRecord (s : State) (p : Pkt) (source act cls score ens queue : Nat) : State :=
  let profile := match p.flow with | some f => f.1 | none => p.action / 2 ^ 82 % 16
  let key := match p.flow with | some f => f.2.2 | none => 0
  let body := natBe 1 (source * 64 + act) ++ natBe 1 (if cls = 8 then 0xFF else cls) ++ natBe 2 p.seq ++ natBe 1 0 ++
    natBe 1 p.port ++ natBe 1 ens ++ natBe 1 profile ++ natBe 4 score ++ natBe 2 p.ruleIdx ++ natBe 2 queue ++
    natBe 8 p.stamp ++ natBe 40 key
  s.originate (s.get 0x700E 0) 0x01 p.ra p.ma body

/-! ## Fields of a classifier action (R56) -/

def actQueue (a : Nat) : Nat := fld a 127 115
def actMirrorQ (a : Nat) : Nat := fld a 114 102
def actMirror (a : Nat) : Bool := bit a 101
def actTap (a : Nat) : Bool := bit a 100
def actTapDesc (a : Nat) : Nat := fld a 99 92
def actPath (a : Nat) : Nat := fld a 91 90
def actEnsemble (a : Nat) : Nat := fld a 89 86
def actProfile (a : Nat) : Nat := fld a 85 82
def actMark (a : Nat) : Nat := fld a 81 80
def actDscp (a : Nat) : Nat := fld a 79 74
def actPcp (a : Nat) : Nat := fld a 73 71
def actPunt (a : Nat) : Bool := bit a 70
def actRecord (a : Nat) : Bool := bit a 69

/-! ## The undetermined action and the hold pool (R310 to R313) -/

/-- Where the undetermined action of a packet's ingress port leads (R313). -/
def State.undetermined (s : State) (p : Pkt) : Decision :=
  match s.get 0x7001 (p.port + 1) with
  | 1 => .drop
  | 2 => .enqueue (s.passQueue (s.bankOf p.ra) p.port)
  | _ => .enqueue (actQueue p.action)

/-- Queue of a decision, 0xFFFF when dropped. -/
def Decision.queue : Decision → Nat
  | .enqueue q => q
  | .drop => 0xFFFF

/-- Releases a held packet: it leaves the hold pool and is enqueued or dropped at once (R38, R311). -/
def State.releaseHeld (s : State) (p : Pkt) (d : Decision) : State :=
  let s := s.dropPkt p.pid
  match d with
  | .enqueue q => s.enqueue q p.item
  | .drop => s

/-- The holding action of a packet has its Verdict record bit (R313): the tree action-map entry's after a tree
verdict, else the classifier action's. -/
def State.holdRecord (s : State) (p : Pkt) : Bool :=
  match p.verdict with
  | none => actRecord p.action
  | some (e, c, _) => bit ((s.bankOf p.ra).get (0x4810 + e) (c + 1)) 35

/-- A held packet is released with the undetermined action (R313): the catalogue records source 11, class 0,
action 7, and behind the packet (R303) a verdict record of class 0xFF goes out when the holding action had its bit. -/
def State.releaseUndetermined (s : State) (p : Pkt) : State :=
  let d := s.undetermined p
  let record := s.holdRecord p
  let s := (s.writeback p 3 0 7).releaseHeld p d
  if record then s.verdictRecord p 3 7 8 nan32 0xFF d.queue else s

/-- Releases every held packet that `f` picks, in pool order. -/
def State.releaseAll (s : State) (f : Pkt → Bool) : State :=
  (s.pkts.filter fun p => decide (p.stage = .held) && f p).foldl (fun s p => s.releaseUndetermined p) s

/-- The pool can not take a packet (R310): neither share has room for its body, or 65,536 packets are held. -/
def State.poolFull (s : State) (p : Pkt) : Bool :=
  let n := p.bytes.length
  let burstRoom := decide (s.heldBytes true + n ≤ s.get 0x6020 0 * 0x100000)
  let bufRoom := decide (s.heldBytes false + n ≤ s.get 0x6021 0 * 0x100000)
  decide (65536 ≤ s.heldCount) || (!(p.inBurst && burstRoom) && !bufRoom)

/-- Parks a packet (R38, R310): it leaves its port's window; one that the pool can not take is not held but takes the
undetermined action at once. -/
def State.park (s : State) (p : Pkt) : State :=
  if (s.lineAt p.port).skipped.contains p.pid then s.complete p .drop
  else if s.poolFull p then
    let d := s.undetermined p
    let s := (s.writeback p 3 0 7).bump 0x7006 0
    let s := if s.holdRecord p then s.verdictRecord p 3 7 8 nan32 0xFF d.queue else s
    s.complete p d
  else
    let burstRoom := decide (s.heldBytes true + p.bytes.length ≤ s.get 0x6020 0 * 0x100000)
    let moves := p.inBurst && !burstRoom
    let p := { p with stage := .held, heldAt := s.now, inBurst := p.inBurst && burstRoom, loc := if moves then s.bodyLoc p.pid else p.loc }
    let s := if moves then s.countBody p.loc p.bytes.length else s
    (s.setPkt p).freeSlot p

/-! ## Links and flushing -/

/-- Every line port's link is down (R22). -/
def State.linksDown (s : State) : State :=
  let s := (((s.put 0x3005 1 0).put 0x3005 2 0).put 0x3005 3 0).put 0x3005 4 0
  { s with line := s.line.map fun l => { l with up := false } }

/-- Discards every packet in the module, queued and held (R315); `counted` adds them to the flushed-packet
counter. -/
def State.flushPackets (s : State) (counted : Bool) : State :=
  let n := s.egr.q.foldl (fun n e => n + e.2.length) 0 + s.heldCount
  let s := if counted then s.bumpBy 0x7012 0 n else s
  { s with
    pkts := []
    intake := { s.intake with tapQ := [] }
    egr := { s.egr with q := [], neural := [] }
    line := s.line.map fun l => { l with rx := [], tx := [], window := [], skipped := [] } }

/-- Every shaper's tokens are set to B on entry into RUN (R315). -/
def State.fillShapers (s : State) : State := { s with egr := { s.egr with tokens := [] } }

end Sys2Proof.Machine
end

