-- ==== Sys2Proof/Machine/IntakeOps.lean ====
section
/-! DEFINITION. Operations of intake: punting (R47), what follows classification and the catalogue (R56, R57,
R110), and the block floating point sections that the tap reads (R59). -/

namespace Sys2Proof.Machine

open Sys2Proof.Bits

/-- Writes a PUNT record (R438, R47): cause 0 malformed action, 1 Punt bit. At most 10,000 punts a second; the
rest are dropped. -/
def State.punt (s : State) (p : Pkt) (cause cls : Nat) : State :=
  let second := s.now / 1000000000
  let n := if s.intake.puntSecond = second then s.intake.puntCount else 0
  if 10000 ≤ n then s
  else
    let s := { s with intake := { s.intake with puntSecond := second, puntCount := n + 1 } }
    let line1 := natLe 4 (p.bytes.length + 4) ++ natLe 1 p.port ++ natLe 1 cause ++ natLe 2 p.seq ++ natLe 8 p.stamp ++
      natLe 2 p.ra ++ natLe 2 p.ma ++ natLe 1 cls ++ natLe 27 0
    s.logRecord 4 0x70 7 p.port (line1 ++ slice p.bytes 0 256)

/-- Action code of R112: the primary; FORWARD with Mark, Mirror or Verdict record set is 1, 3 or 6. -/
def actionCode (primary mark : Nat) (mirror record : Bool) : Nat :=
  if primary = 0 then if mark ≠ 0 then 1 else if mirror then 3 else if record then 6 else 0 else primary

/-- The tap descriptor's objects in a bank (R58, R68). -/
def Bank.tapKind (b : Bank) (d : Nat) : Nat := b.get (0x3900 + d) 1
def Bank.tapArray (b : Bank) (d : Nat) : Nat := b.get (0x3900 + d) 2
def Bank.tapBase (b : Bank) (d : Nat) : Nat := b.get (0x3900 + d) 3
def Bank.tapStride (b : Bank) (d : Nat) : Nat := b.get (0x3900 + d) 4
def Bank.tapRows (b : Bank) (d : Nat) : Nat := b.get (0x3900 + d) 5
def Bank.tapOffset (b : Bank) (d : Nat) : Nat := b.get (0x3900 + d) 6
def Bank.tapFormat (b : Bank) (d : Nat) : Nat := b.get (0x3900 + d) 7
def Bank.tapWidth (b : Bank) (d : Nat) : Nat := b.get (0x3900 + d) 8
def Bank.tapTrigger (b : Bank) (d : Nat) : Nat := b.get (0x3900 + d) 9
def Bank.tapLight (b : Bank) (d : Nat) : Nat := b.get (0x3900 + d) 10

/-- Mantissa widths the tap accepts (R59). -/
def bfpWidths : List Nat := [8, 9, 12, 14, 16]

/-- The sections of a packet from the section header at `o` on: for each its width, first block and number of
blocks; none when a width is not accepted or the blocks exceed the bytes that remain (R59). `hlen` is the
length of a section header: six bytes carry the compression header, whose width code 0 means 16. numPrbu 0
(all blocks of the carrier) takes the whole blocks that remain. -/
def bfpSections (bs : Bytes) (limit hlen width : Nat) : Nat → Nat → Option (List (Nat × Nat × Nat))
  | 0, _ => some []
  | fuel + 1, o =>
    if limit < o + hlen + 1 then some []
    else
      let code := if 6 ≤ hlen then be bs (o + 4) 1 / 16 else width
      let w := if code = 0 then 16 else code
      let block := 1 + 3 * w
      let n := be bs (o + 3) 1
      let n := if n = 0 then (limit - (o + hlen)) / block else n
      if bfpWidths.contains w = false ∨ limit < o + hlen + n * block then none
      else
        match bfpSections bs limit hlen width fuel (o + hlen + n * block) with
        | none => none
        | some l => some ((w, o + hlen, n) :: l)

/-- The sections of a packet under a descriptor's default width; none when a section is malformed (R59). -/
def packetSections (p : Parsed) (bs : Bytes) (width : Nat) : Option (List (Nat × Nat × Nat)) :=
  match p.section_ with
  | none => some []
  | some (o, hlen) => bfpSections bs p.limit hlen width 256 o

/-- 64-byte tensor words and scale words that a packet takes in its pipe's tap crossing (R14): the data of its rows packed, and the
scale words packed. -/
def tapWords (b : Bank) (j : TapJob) : Nat :=
  match b.tapKind j.desc with
  | 1 => match packetSections j.parsed j.bytes (b.tapWidth j.desc) with
    | some l => let n := l.foldl (fun n x => n + x.2.2) 0; (48 * n + 63) / 64 + (2 * n + 63) / 64
    | none => 0
  | 2 => (Min.min 1024 (j.parsed.limit - (j.parsed.finish + b.tapOffset j.desc)) + 63) / 64
  | 3 => 1
  | _ => 0

/-- A packet's payload goes to the tap crossing of its pipe (R14, R56). -/
def State.tapSend (s : State) (p : Pkt) (held : Bool) : State :=
  let s := s.readBody p.inBurst p.loc p.bytes.length
  { s with intake := { s.intake with
    tapQ := s.intake.tapQ ++
      [⟨p.pipe, p.pid, actTapDesc p.action, p.port, p.seq, p.ra, p.ma, p.bytes, p.parsed, p.quant, held⟩] } }

/-- A packet may reach the tap (R48): well formed, or of class 3 or 5 under CONTINUE. -/
def tappable (p : Parsed) : Bool := decide (p.mal = 0) || decide (p.mal = 3) || decide (p.mal = 5)

/-- A malformed packet takes the action of its class (R45, R47); none means CONTINUE, under which the caller counts it. -/
def State.malformed (s : State) (b : Bank) (p : Pkt) (cls : Nat) : Option State :=
  let s := s.bump (0x3820 + cls) (p.port + 1)
  match b.get 0x3820 cls with
  | 0 => none
  | 1 => some (s.complete p (.enqueue (s.passQueue b p.port)))
  | 2 => some (s.complete p .drop)
  | 3 => some (s.complete { p with mirror := some (s.mirrorQueue b p.port) } .drop)
  | _ => some ((s.punt p 0 cls).complete p .drop)

/-- A BFP-IQ tap of the packet finds a section of another width, or with blocks beyond its bytes (R59). -/
def badSections (b : Bank) (p : Pkt) (d : Nat) : Bool :=
  decide (b.tapKind d = 1) && tappable p.parsed && (packetSections p.parsed p.bytes (b.tapWidth d)).isNone

/-- A packet is held (R57, R310): outside RUN it takes the undetermined action, because no list starts (R22, R111); its verdict
record then has class 0xFF (R313), and a Tap bit of 1 taps it all the same (R110). Marking, mirror and verdict record of the
holding action take effect at parking, so not for a packet that the pool can not take or whose slot was skipped. A packet that
only the verdict sends to the tap, and whose sections are bad, is malformed of class 2 (R59). -/
def State.hold (s : State) (p : Pkt) (mark dscp pcp : Nat) (mirror record : Bool) (src act cls score ens : Nat) : State :=
  let b := s.bankOf p.ra
  match (if badSections b p (actTapDesc p.action) then s.malformed b { p with parsed := { p.parsed with mal := 2 } } 2 else none) with
  | some s => s
  | none =>
  if s.dev.st = .run then
    let parks := !(s.poolFull p) && !((s.lineAt p.port).skipped.contains p.pid)
    let p := if parks then { p with bytes := markBytes p.parsed p.bytes mark dscp pcp } else p
    let s := s.setPkt p
    let s := if mirror && parks then s.enqueue (actMirrorQ p.action) p.item else s
    let s := if record && parks then s.verdictRecord p src act cls score ens 0xFFFF else s
    let s := if tappable p.parsed then s.tapSend p parks else s
    s.park p
  else
    let p := { p with bytes := markBytes p.parsed p.bytes mark dscp pcp }
    let s := s.setPkt p
    let d := s.undetermined p
    let p := if mirror then { p with mirror := some (actMirrorQ p.action) } else p
    let s := if actTap p.action && tappable p.parsed then s.tapSend p false else s
    let s := if record then s.verdictRecord p 3 7 8 nan32 0xFF d.queue else s
    let s := s.writeback p 3 0 7
    s.complete p d

/-- What follows the catalogue, or classification without a lookup (R56): the packet's path. The classifier's own
decision is the last verdict of a packet not scored: source 01, class 0 (R80; DEDUCED, log entry 10). -/
def State.afterLookup (s : State) (p : Pkt) : State :=
  let a := p.action
  let code := actionCode (if actPath a = 3 then 5 else if actPath a = 2 then 4 else 0) (actMark a) (actMirror a) (actRecord a)
  let tap := actTap a && tappable p.parsed
  let s := if actPath a = 1 then s else s.writeback p 1 0 code
  match actPath a with
  | 1 => s.setPkt { p with stage := .vector }
  | 2 => s.hold p (actMark a) (actDscp a) (actPcp a) (actMirror a) (actRecord a) 1 code 0 0 0xFF
  | path =>
    let s := if tap then s.tapSend p false else s
    let d := if path = 3 then Decision.drop else .enqueue (actQueue a)
    let p := { p with bytes := markBytes p.parsed p.bytes (actMark a) (actDscp a) (actPcp a) }
    let s := if actRecord a then s.verdictRecord p 1 code 0 0 0xFF d.queue else s
    s.complete { p with mirror := if actMirror a then some (actMirrorQ a) else none } d

/-- The class of a packet after the eCPRI sequence check (R49, R50): tracks the stream. -/
def State.sequenceCheck (s : State) (p : Pkt) : Bool × State :=
  match p.parsed.ecpri with
  | none => (true, s)
  | some (type, id, seq, esub) =>
    if s.flag 0x3831 0 ∧ (type = 0 ∨ type = 2) then
      let (ok, table, full) := checkStream s.intake.streams p.port type id seq esub s.now
      let s := { s with intake := { s.intake with streams := table } }
      (ok, if full then s.bump 0x3832 0 else s)
    else (true, s)

/-- Destination addresses of IEEE 1588 messages: its two multicast addresses and the port's own (R67). -/
def State.ptpToModule (s : State) (p : Pkt) : Bool :=
  let da := be p.bytes 0 6
  decide (da = 0x011B19000000) || decide (da = 0x0180C200000E) ||
    decide (da = beNat (natLe 6 s.mfg.lineMac) + p.port)

/-- An IEEE 1588 message for the module goes to the clock servo with its arrival stamp (R67), past the limit of R47. -/
def State.toServo (s : State) (p : Pkt) : State :=
  { s with clock := { s.clock with servo := some (p.stamp, p.bytes) } }

/-- Classifies a parsed packet (R55, R56, R67) and sends it on. One under CONTINUE counts in its class here, unless bad sections
make it class 2, which comes first (R45). -/
def State.classifyPkt (s : State) (b : Bank) (p : Pkt) : State :=
  let key := packKey 320 p.parsed p.bytes (b.profiles.getD p.parsed.profile [])
  let hit := classify b p.parsed.profile key
  let action := match hit with
    | some (_, r) => r.action
    | none =>
      let v := b.get 0x3812 (p.parsed.profile + 1)
      if v = passQueueMark then s.passQueue b p.port * 2 ^ 115 else v
  let preloaded := hit.isNone && decide (b.get 0x3812 (p.parsed.profile + 1) = passQueueMark)
  let p := { p with action := action, ruleIdx := match hit with | some (i, _) => i | none => 0xFFFF }
  let s := match hit with
    | some (i, _) =>
      let bump (b : Bank) : Bank :=
        { b with hits := Sparse.write (fun _ => 0) b.hits i ((Sparse.read (fun _ => 0) b.hits i + 1) % 2 ^ 64) }
      if s.intake.bank.acc = p.ra then { s with intake := { s.intake with bank := bump s.intake.bank } }
      else { s with intake := { s.intake with retiring := s.intake.retiring.map bump } }
    | none => s
  if preloaded && p.parsed.ptp && decide (s.get 0x2400 0 = 2) && decide (s.get 0x2401 0 = p.port) && s.ptpToModule p then
    ((s.toServo p).setPkt p).complete p .drop
  else
    let d := actTapDesc action
    let wantsTap := actTap action || decide (actPath action = 2)
    let go (s : State) : State :=
      let s := if p.parsed.mal = 0 then s else s.bump (0x3820 + p.parsed.mal) (p.port + 1)
      let s := if actPunt action then s.punt p 1 0 else s
      if actProfile action = 0 then s.afterLookup p else s.setPkt { p with stage := .lookup }
    if wantsTap && badSections b p d then
      match s.malformed b { p with parsed := { p.parsed with mal := 2 } } 2 with
      | some s => s
      | none => go s
    else go s

end Sys2Proof.Machine
end

