-- ==== Sys2Proof/Machine/TreeOps.lean ====
section
/-! DEFINITION. Feature front and tree banks (04_trees.md): feature codes (R92 to R98), tree evaluation (R99 to
R106), links and class choice (R107, R108). -/

namespace Sys2Proof.Machine

open Sys2Proof.Bits Sys2Proof.Num

/-- The model content of a model accession: the active or the retiring one (R90). -/
def State.modelOf (s : State) (acc : Nat) : Option Model :=
  match s.lib.active with
  | some m => if m.acc = acc then some m else s.lib.retiring.filter fun m => decide (m.acc = acc)
  | none => s.lib.retiring.filter fun m => decide (m.acc = acc)

/-! ## Feature definitions (R92), by byte -/

def FeatDef.byte (f : FeatDef) (i : Nat) : Nat := fld f.raw (8 * i + 7) (8 * i)
def FeatDef.kind (f : FeatDef) : Nat := f.byte 0 % 16
def FeatDef.source (f : FeatDef) : Nat := f.byte 0 / 16
def FeatDef.scale (f : FeatDef) : FV := fp19.decode (fld f.raw 95 64)
def FeatDef.offset (f : FeatDef) : FV := fp19.decode (fld f.raw 127 96)

/-- A PACKET field in network order from the 192-byte window; none when missing (R93). -/
def packetField (p : Pkt) (f : FeatDef) : Option Nat :=
  match p.parsed.layers[f.byte 2]? with
  | none => none
  | some o => match readField p.bytes o ⟨8 * f.byte 3 + f.byte 4, f.byte 5⟩ with
    | .ok v => some v
    | .error _ => none

/-- A METADATA selector's value; none when missing (R93). -/
def metaValue (p : Pkt) (sel : Nat) : Option Nat :=
  match sel with
  | 0 => some p.port
  | 1 => some (p.bytes.length + 4)
  | 2 => some (p.parsed.limit - p.parsed.finish)
  | 3 => if p.ruleIdx = 0xFFFF then none else some p.ruleIdx
  | 4 => some p.parsed.profile
  | 5 => some p.parsed.layers.length
  | 6 => match p.parsed.ip4, p.parsed.ip6 with
    | some o, _ => some (be p.bytes (o + 1) 1 / 4)
    | none, some o => some (fld (be p.bytes o 2) 11 6)
    | none, none => none
  | 7 => p.parsed.vlan.map fun o => fld (be p.bytes o 2) 15 13
  | 8 => match p.parsed.ip4, p.parsed.ip6 with
    | some o, _ => some (be p.bytes (o + 8) 1)
    | none, some o => some (be p.bytes (o + 7) 1)
    | none, none => none
  | 9 => some p.parsed.mal
  | _ => none

/-- A PACKET field's value under its interpretation. -/
def interpret (code width v : Nat) : FV :=
  match code with
  | 1 => FV.ofDy false (.ofInt (toInt width v))
  | 2 => fp16.decode v
  | 3 => fp32.decode v
  | _ => FV.ofDy false (.ofInt v)

/-- The raw value of a NUMERIC feature; none when missing. -/
def rawValue (p : Pkt) (f : FeatDef) : Option FV :=
  match f.source with
  | 0 => (packetField p f).map (interpret (f.byte 6) (f.byte 5))
  | 1 => some (fp32.decode (p.quant.getD (f.byte 2) 0))
  | _ => (metaValue p (f.byte 2)).map fun v => FV.ofDy false (.ofInt v)

/-- y of R94. -/
def scaled (f : FeatDef) (raw : FV) : FV :=
  let x := (fp19.round (fp32.round raw).1).1
  let p := (fp19.round (f.scale.mul x).1).1
  (fp19.round (p.add f.offset).1).1

/-- The code of y (R95): the number of thresholds at or below it. -/
def binCode (thresh : List Nat) (y : FV) : Nat := (thresh.filter fun t => (fp19.decode t).le y).length

/-- A feature as missing bit and code, CROSS apart; and whether a NaN made it missing (R94 to R96). -/
def plainFeature (p : Pkt) (f : FeatDef) : (Bool × Nat) × Bool :=
  match f.kind with
  | 1 => match rawValue p f with
    | none => ((true, 0), false)
    | some raw =>
      let y := scaled f raw
      if y.isNan then ((true, 0), true)
      else ((false, binCode f.thresh y), false)
  | 2 => match packetField p f with
    | none => ((true, 0), false)
    | some v => ((false, v % 256), false)
  | _ => ((true, 0), false)

/-- missing × 256 + code. -/
def nine (x : Bool × Nat) : Nat := (if x.1 then 256 else 0) + x.2

/-- A CROSS code (R98). -/
def crossCode (a b salt : Nat) : Nat :=
  nxor ((a * 512 + b) * 0x9E3779B1 % 2 ^ 32 / 2 ^ 24) salt

/-- The vector of a packet, and how many features a NaN made missing (R93 to R98). -/
def vectorOf (m : Model) (p : Pkt) : List (Bool × Nat) × Nat :=
  let plain := m.feats.map fun f => plainFeature p f
  let get (i : Nat) : Bool × Nat := (plain.getD i ((true, 0), false)).1
  let all := m.feats.zip plain |>.map fun x =>
    if x.1.kind = 3 then (false, crossCode (nine (get (x.1.byte 2))) (nine (get (x.1.byte 3))) (x.1.byte 7)) else x.2.1
  (all, (plain.filter fun x => x.2).length)

/-! ## Ensembles (R102) -/

def ensByte (e i : Nat) : Nat := fld e (8 * i + 7) (8 * i)
def ensDepth (e : Nat) : Nat := ensByte e 0
def ensClasses (e : Nat) : Nat := ensByte e 1 % 16
def ensLink (e : Nat) : Nat := ensByte e 1 / 16
def ensPlacement (e : Nat) : Nat := ensByte e 2
def ensPort (e port : Nat) : Nat := fld (ensByte e 3) (2 * port + 1) (2 * port)
def ensFirst (e : Nat) : Nat := fld e 47 32
def ensCount (e : Nat) : Nat := fld e 63 48
def ensNodes (e : Nat) : Nat := fld e 79 64
def ensLeaves (e : Nat) : Nat := fld e 95 80
def ensCuts (e : Nat) : Nat := ensByte e 12
def ensBase (e c : Nat) : FV := fp32.decode (fld e (8 * (16 + 4 * c) + 31) (8 * (16 + 4 * c)))
def ensCut (e k : Nat) : FV := fp32.decode (fld e (8 * (48 + 4 * k) + 31) (8 * (48 + 4 * k)))

/-- The banks that score packets of a port: a single bank, a pair gang or the four gang (R103); none when the port
map names no such gang. -/
def ensBanks (e port : Nat) : List Nat :=
  let i := ensPort e port
  match ensPlacement e with
  | 0 => [i]
  | 1 => if i < 2 then [2 * i, 2 * i + 1] else []
  | _ => if i = 0 then [0, 1, 2, 3] else []

/-- A node's direction (R99, R100): 0 left, 1 right. -/
def direction (word : Nat) (v : List (Bool × Nat)) : Nat :=
  let f := v.getD (word % 256) (true, 0)
  if f.1 then fld word 16 16 else if f.2 < fld word 15 8 then 0 else 1

/-- Leaf number of a tree (R101), from node `k` with `depth` levels to go. -/
def descend (node : Nat → Nat) (v : List (Bool × Nat)) : Nat → Nat → Nat → Nat
  | 0, _, leaf => leaf
  | d + 1, k, leaf => let b := direction (node k) v; descend node v d (2 * k + 1 + b) (2 * leaf + b)

/-- The leaf value a tree of a bank reaches, and the tree's class. -/
def treeLeaf (m : Model) (e bank r : Nat) (v : List (Bool × Nat)) : FV × Nat :=
  let d := ensDepth e
  let node (k : Nat) : Nat := Sparse.read (fun _ => 0) m.nodes (bank * 65536 + ensNodes e + (r - ensFirst e) * (2 ^ d - 1) + k)
  let leaf := descend node v d 0 0
  (fp16.decode (Sparse.read (fun _ => 0) m.leaves (bank * 65536 + ensLeaves e + (r - ensFirst e) * 2 ^ d + leaf)),
   Sparse.read (fun _ => 0) m.classes (bank * 65536 + r))

/-- z of each class (R106): the exact sum of its leaves rounded once, plus the base. -/
def classScores (m : Model) (e : Nat) (banks : List Nat) (v : List (Bool × Nat)) : List FV :=
  let leaves := banks.flatMap fun b => (List.range (ensCount e)).map fun i => treeLeaf m e b (ensFirst e + i) v
  (List.range (ensClasses e)).map fun c =>
    let sum := leaves.foldl (fun a x => if x.2 = c then (a.add x.1).1 else a) FV.zero
    (addFp32 (fp32.round sum).1 (ensBase e c)).1

/-- e^x of an FP32 value within the bound of R107, as a code. -/
def linkExp (x : FV) : Nat :=
  match x with
  | .nan => nan32
  | .inf true => 0
  | .inf false => fp32.inf false
  | .fin _ _ _ => Elem.expFp32 x.dy (Config.linkOffset 3 (fp32.encode .nearest false x).1)

/-- y of each class (R107), as FP32 codes. The place within the bound is a free value of the operands. -/
def links (code : Nat) (z : List FV) : List Nat :=
  let op (x : FV) : Nat := (fp32.encode .nearest false x).1
  match code with
  | 1 => z.map fun x => match x with
    | .nan => nan32
    | .inf n => if n then 0 else op (.fin false 1 0)
    | .fin _ _ _ => Elem.logisticFp32 x.dy (Config.linkOffset 1 (op x))
  | 2 =>
    if z.any FV.isNan then z.map fun _ => nan32
    else
      let top := (z.filter fun x => decide (x = .inf false)).length
      if 0 < top then z.map fun x => if x = .inf false then fp32Of' 1 top else 0
      else
        let m := z.foldl FV.max (.inf true)
        let w := z.map fun x => match x with | .fin _ _ _ => Elem.exp (Elem.trim (x.dy.sub m.dy)) | _ => ⟨0, 0⟩
        let sum := w.foldl Dy.add ⟨0, 0⟩
        let all := z.foldl (fun a x => a * 2 ^ 32 + op x) 1
        if sum.m = 0 then z.map fun _ => nan32
        else w.mapIdx fun i x => Elem.within2 (Elem.div x (Elem.trim sum)) (Config.linkOffset 2 (all * 8 + i))
  | 3 => z.map linkExp
  | 4 => z.map fun x => if x.isNan then nan32 else if FV.le .zero x then op (.fin false 1 0) else 0
  | _ => z.map op
where
  /-- a / b as FP32. -/
  fp32Of' (a b : Nat) : Nat := (fp32.encode .nearest false (FV.ofDy false (Elem.div (.ofInt a) (.ofInt b)))).1

/-- Index and value of the largest, ties to the lowest index. -/
def largest : List FV → Nat → Option (Nat × FV)
  | [], _ => none
  | x :: xs, i => match largest xs (i + 1) with
    | none => some (i, x)
    | some (j, y) => if x.lt y then some (j, y) else some (i, x)

/-- Class and score of a vector (R108): class 8 is undetermined. -/
def verdictOf (m : Model) (e : Nat) (banks : List Nat) (v : List (Bool × Nat)) : Nat × Nat :=
  let y := links (ensLink e) (classScores m e banks v)
  if y.any fun c => (fp32.decode c).isNan then (8, nan32)
  else if ensClasses e = 1 then
    let y0 := y.getD 0 0
    (((List.range (ensCuts e)).filter fun k => (ensCut e k).le (fp32.decode y0)).length, y0)
  else match largest (y.map fp32.decode) 0 with
    | some (c, _) => (c, y.getD c 0)
    | none => (8, nan32)

/-! ## From verdict to action (R109 to R112) -/

/-- A tree verdict is applied (R109 to R112): class 8 is undetermined. -/
def State.applyVerdict (s : State) (p : Pkt) (ens cls score : Nat) : State :=
  let s := if cls = 8 then s.bump 0x4802 0 else s
  let s := s.bump (0x4820 + ens) (cls + 1)
  let e := (s.bankOf p.ra).get (0x4810 + ens) (cls + 1)
  let mark := fld e 47 46
  let primary := fld e 63 61
  let p := { p with verdict := some (ens, cls, score) }
  let code := if cls = 8 then 7 else actionCode primary mark (bit e 36) (bit e 35)
  let s := s.writeback p 2 (if cls = 8 then 0 else cls) code
  if primary = 4 then s.hold p mark (fld e 45 40) (fld e 39 37) (bit e 36) (bit e 35) 2 code cls score ens
  else
    let s := if actTap p.action && tappable p.parsed then s.tapSend p false else s
    let d := if primary = 5 then Decision.drop
      else if primary = 2 then .enqueue (fld e 60 48 % 8192) else .enqueue (actQueue p.action)
    let p := { p with
      bytes := markBytes p.parsed p.bytes mark (fld e 45 40) (fld e 39 37)
      mirror := if bit e 36 then some (actMirrorQ p.action) else none }
    let s := if bit e 35 then s.verdictRecord p 2 code cls score ens d.queue else s
    s.complete p d

end Sys2Proof.Machine
end

