-- ==== Sys2Proof/Machine/ListOps.lean ====
section
/-! DEFINITION. Operations on lists, cue lights, triggers and tap buffers that every family shares
(R212 to R242, R446, R447). -/

namespace Sys2Proof.Machine

open Sys2Proof.Bits

/-! ## Arrays and their stores -/

/-- The record of logical array `a`. -/
def State.arrAt (s : State) (a : Nat) : Arr := s.arr.toList.getD a {}

/-- Changes the record of logical array `a`. -/
def State.modArr (s : State) (a : Nat) (f : Arr → Arr) : State :=
  { s with arr := s.arr.mapIdx fun i x => if i = a then f x else x }

/-- What an unlisted byte of the wings reads as: 0, or a free value since a field scan discarded them (R417, log entry 47). -/
def Arr.wingDef (r : Arr) (x : Nat) : Byte := match r.scanned with | none => memDefault x | some seed => Config.freeByte seed x

/-- What an unlisted row tag reads as: 0, or a free value since a field scan (R417, log entry 47). -/
def Arr.tagDef (r : Arr) (line : Nat) : Nat := match r.scanned with | none => 0 | some seed => (Config.freeByte (seed + 1) line).toNat % 16

/-- `n` bytes of an array's wings. -/
def State.wings (s : State) (a x n : Nat) : Bytes := Sparse.readList (s.arrAt a).wingDef (s.arrAt a).wings x n

/-- Writes bytes to one array's wings. Row tags (R147), and the other array of a redundant pair, are the caller's. -/
def State.wingsWrite (s : State) (a x : Nat) (bs : Bytes) : State :=
  s.modArr a fun r => { r with wings := Sparse.writeList r.wingDef r.wings x bs }

/-- Sets the row tag of a line (R147). -/
def State.setTag (s : State) (a line tag : Nat) : State :=
  s.modArr a fun r => { r with tags := Sparse.write r.tagDef r.tags line (tag % 16) }

/-- The row tag of a line. -/
def State.tag (s : State) (a line : Nat) : Nat := Sparse.read (s.arrAt a).tagDef (s.arrAt a).tags line

/-- Bytes of an array's wings. -/
def wingsBytes : Nat := 0x200000

/-! ## Rings (R212, R213) -/

/-- Index of a ring's objects. -/
def ringObj (a r : Nat) : Nat := 0x5100 + 16 * a + r

/-- The 32 bytes at a cue address of an array. -/
def State.cueAt (s : State) (a addr : Nat) : Bytes :=
  if addr / 2 ^ 31 = 1 then s.memRead (addr % 2 ^ 30 * 32) 32
  else Sparse.readList memDefault (s.arrAt a).rings (addr % 2 ^ 30 * 32) 32

/-- Counts the fetch of a cue from the stacks, a whole line each (0x6013; log entry 38). -/
def State.countCue (s : State) (x : Nat) : State :=
  if x / 2 ^ 31 = 1 ∧ s.inRegion 0 (x % 2 ^ 30 * 32) 32 = true then s.countRead (x % 2 ^ 30 * 32) 32 else s

/-- Writes 32 bytes at a cue address. -/
def State.cueWrite (s : State) (a addr : Nat) (bs : Bytes) : State :=
  if addr / 2 ^ 31 = 1 then s.memWrite (addr % 2 ^ 30 * 32) (slice bs 0 32)
  else s.modArr a fun r => { r with rings := Sparse.writeList memDefault r.rings (addr % 2 ^ 30 * 32) (slice bs 0 32) }

/-- The array whose rings an array reads: the even one of its pair under full redundancy (R409). -/
def State.ringHome (s : State) (a : Nat) : Nat := if s.flag 0x8000 0 then a / 2 * 2 else a

/-- Cue address of ring index `i` (R213). -/
def State.slotAddr (s : State) (a r i : Nat) : Nat := s.get (ringObj a r) 1 + i % s.get (ringObj a r) 2

def State.producer (s : State) (a r : Nat) : Nat := s.get (ringObj a r) 7
def State.consumer (s : State) (a r : Nat) : Nat := s.get (ringObj a r) 8

/-- Cues the ring holds. -/
def State.occupancy (s : State) (a r : Nat) : Nat := (s.producer a r + 2 ^ 32 - s.consumer a r) % 2 ^ 32

/-- A ring index that the ring holds. -/
def State.inRing (s : State) (a r i : Nat) : Bool := decide ((i + 2 ^ 32 - s.consumer a r) % 2 ^ 32 < s.occupancy a r)

/-- The ring is full. -/
def State.ringFull (s : State) (a r : Nat) : Bool := decide (s.get (ringObj a r) 2 ≤ s.occupancy a r)

/-- Appends a cue in the slot of the producer index. -/
def State.append (s : State) (a r : Nat) (bs : Bytes) : State :=
  let p := s.producer a r
  (s.cueWrite a (s.slotAddr a r p) bs).put (ringObj a r) 7 ((p + 1) % 2 ^ 32)

/-- Word `i` of a cue. -/
def cueWord (bs : Bytes) (i : Nat) : Nat := le bs (4 * i) 4

/-- Word 7 (R216): the sequence, the parities of words 0 to 6, and its own parity. -/
def word7 (ws : List Nat) (seq : Nat) : Nat :=
  let par := (List.range 7).foldl (fun n i => n + parity 32 (ws.getD i 0) * 2 ^ (24 + i)) 0
  let w := seq % 2 ^ 24 + par
  w + parity 31 w * 2 ^ 31

/-- A cue of words 0 to 6 with its word 7. -/
def mkCue (ws : List Nat) (seq : Nat) : Bytes :=
  ((List.range 7).flatMap fun i => natLe 4 (ws.getD i 0)) ++ natLe 4 (word7 ws seq)

/-- The cue of a ring is a launch cue. -/
def isLaunch (bs : Bytes) : Bool := decide (cueWord bs 0 % 256 = 0x1A) && bit (cueWord bs 0) 8

/-- The launch cue at index `i` of a ring comes from a trigger: in a host-posted cue LAUNCH is illegal (R220). -/
def State.launchAt (s : State) (a r i : Nat) : Bool :=
  isLaunch (s.cueAt a (s.slotAddr a r i)) && !((s.arrAt a).hostLaunch.contains (r, i))

/-- The ring index after the run of cues from `i` up to the first with END (R214); `stop` when none has it. -/
def State.listEnd (s : State) (a r stop : Nat) : Nat → Nat → Nat
  | 0, _ => stop
  | fuel + 1, i =>
    if i = stop then stop
    else if bit (cueWord (s.cueAt a (s.slotAddr a r i)) 0) 15 then (i + 1) % 2 ^ 32
    else State.listEnd s a r stop fuel ((i + 1) % 2 ^ 32)

/-- End of the list at `i` of a ring: one launch cue, or a run of cues (R214). -/
def State.endOf (s : State) (a r i : Nat) : Nat :=
  if i ≠ s.producer a r ∧ isLaunch (s.cueAt a (s.slotAddr a r i)) = true then (i + 1) % 2 ^ 32
  else s.listEnd a r (s.producer a r) (s.get (ringObj a r) 2) i

/-! ## Tap buffers (R62, R237, R239, R241) -/

def State.tap (s : State) (d : Nat) : Tap := Sparse.read (fun _ => {}) s.sync.taps d

def State.setTap (s : State) (d : Nat) (x : Tap) : State :=
  { s with sync := { s.sync with taps := Sparse.write (fun _ => {}) s.sync.taps d x } }

def Tap.buf (x : Tap) (b : Nat) : TapBuf := if b = 0 then x.b0 else x.b1
def Tap.setBuf (x : Tap) (b : Nat) (y : TapBuf) : Tap := if b = 0 then { x with b0 := y } else { x with b1 := y }

/-- Frees a tap buffer, as one unit of its release light does (R62, R247). -/
def State.freeBuf (s : State) (d b : Nat) : State := s.setTap d ((s.tap d).setBuf b {})

/-- Frees a tap buffer and releases its held packets with the undetermined action (R232). -/
def State.discardBuf (s : State) (d b : Nat) : State :=
  let held := ((s.tap d).buf b).held
  (held.foldl (fun s h => match s.pkts.find? fun p => p.pid = h.1 ∧ p.stage = .held with
    | some p => s.releaseUndetermined p
    | none => s) s).freeBuf d b

/-- Tap descriptor and buffer of a launch word 0 (R218). -/
def tapOf (lw0 : Nat) : Nat × Nat := (fld lw0 16 9, lw0 % 2)

/-- Tap descriptor and buffer of the launch cue at index `i` of a ring, when a TAP trigger appended it (R218, R232). -/
def State.tapLaunch (s : State) (a r i : Nat) : Option (Nat × Nat) :=
  if (s.arrAt a).tapLaunch.contains (r, i) then some (tapOf (cueWord (s.cueAt a (s.slotAddr a r i)) 2)) else none

/-! ## Cue lights (R234 to R237) -/

def State.light (s : State) (l : Nat) : Nat := s.get 0x5400 (l + 1)
def State.setLight (s : State) (l n : Nat) : State := s.put 0x5400 (l + 1) n

/-- The head of a light's waiter queue is satisfied: it is served before tap descriptors and triggers (R236). -/
def State.headReady (s : State) (l : Nat) : Bool :=
  match s.sync.waiters.find? fun w => w.light = l with
  | some w => decide (w.n ≤ s.light l)
  | none => false

/-- The buffer of a descriptor that a unit of light `l` frees: the complete one whose rows came under that release light, the
older of two. -/
def Tap.oldest (x : Tap) (l : Nat) : Option Nat :=
  [x.cur, 1 - x.cur].find? fun b => (x.buf b).busy && decide ((x.buf b).light = l)

/-- Frees one buffer of a descriptor per unit of its release light's count (R236). -/
def State.releaseTap (s : State) (l d : Nat) : Nat → State
  | 0 => s
  | fuel + 1 =>
    match (s.tap d).oldest l with
    | some b => if 0 < s.light l then State.releaseTap ((s.setLight l (s.light l - 1)).freeBuf d b) l d fuel else s
    | none => s

/-- Serves a light's tap descriptors once no queued WAIT is ready (R62, R236): whenever the light's count rises or is written, a WAIT
leaves its queue, or a buffer completes. Its triggers follow as CUE_LIGHT_TRIGGER_FIRE. -/
def State.serveTaps (s : State) (l : Nat) : State :=
  if s.headReady l then s else s.sync.taps.foldl (fun s e => s.releaseTap l e.1 2) s

/-! ## The sync trace (R446, R447) -/

/-- Payload of a SYNC record. -/
def State.syncBody (s : State) (w : Waiter) (outcome ring seq : Nat) : Bytes :=
  let x := match Sparse.read (fun _ => none) s.sync.adds w.light with
    | some y => if w.from_ ≤ y.time then some y else none
    | none => none
  let (kind, unit, cue, simul, time) := match x with
    | some y => (y.kind, y.unit, y.cue, Min.min y.count 255, y.time)
    | none => (4, 0xFFFF, 0, 0, 0)
  natLe 2 w.light ++ natLe 1 w.array ++ natLe 1 ring ++ natLe 4 (outcome * 2 ^ 24 + seq % 2 ^ 24) ++ natLe 8 w.from_ ++
  natLe 2 w.n ++ natLe 2 (s.get 0x5400 (w.light + 1)) ++ natLe 1 kind ++ natLe 1 simul ++ natLe 2 unit ++
  natLe 4 (cue % 2 ^ 24) ++ natLe 4 0 ++ natLe 8 time ++ natLe 8 0

/-- Writes the SYNC record of a WAIT that leaves its queue, when the trace asks for it. -/
def State.syncRecord (s : State) (w : Waiter) (outcome ring seq : Nat) : State :=
  let wanted := s.flag 0x8820 0 && bit (s.get 0x8821 0) w.light
  let long := decide (outcome ≠ 0) || decide (s.get 0x8822 0 ≤ s.now - w.from_)
  if wanted && long then s.logRecord 3 0x20 1 w.array (s.syncBody w outcome ring seq) else s

/-- A list's WAIT leaves its light's queue; unless it completes (outcome 0), what the light's count still holds serves the next
consumers (R236). -/
def State.leaveQueue (s : State) (a outcome : Nat) (r : Run) : State :=
  match r.block with
  | .wait _ _ _ =>
    match s.sync.waiters.find? fun w => w.array = a with
    | none => s
    | some w =>
      let seq := match r.pos with | .ring i => (i + 2 ^ 24 - 1) % 2 ^ 24 | .body x => (x + 2 ^ 24 - 1) % 2 ^ 24
      let s := s.syncRecord w outcome r.ring seq
      let s : State := { s with sync := { s.sync with waiters := s.sync.waiters.filter fun w => decide (w.array ≠ a) } }
      if outcome = 0 then s else s.serveTaps w.light
  | .none => s
  | .fence _ => s
  | .signal _ _ _ _ _ => s
  | .doorbell _ => s
  | .hold _ => s
  | .stopped => s

/-! ## Lists -/

/-- Both banks of an array count as unopened. -/
def Arr.closeBanks (r : Arr) : Arr :=
  { r with bank0 := { r.bank0 with opened := false }, bank1 := { r.bank1 with opened := false } }

/-- The arrays that run a list of `a`: both of its pair under full redundancy. -/
def State.twins (s : State) (a : Nat) : List Nat := if s.flag 0x8000 0 then [a / 2 * 2, a / 2 * 2 + 1] else [a]

/-- The list at index `i` of a ring is an open host list: its END cue has not been posted (R241). -/
def State.openAt (s : State) (a r i : Nat) : Bool :=
  (s.arrAt a).openRings.contains r && decide (i ≠ s.producer a r) && decide (s.endOf a r i = s.producer a r)

/-- A ring's consumer index moves from the list at `i` to `j`. Past a list still open, the cues that follow up to its END belong to
it and are passed over as they come (R214, log entry 57). -/
def State.passList (s : State) (a r i j : Nat) : State :=
  let s := if s.openAt a r i then s.modArr a fun x => { x with tails := r :: x.tails } else s
  s.put (ringObj a r) 8 j

/-- Passes the lists at the head of a ring that a forced retirement has abandoned (R293). -/
def State.passDead (s : State) (a r : Nat) : Nat → State
  | 0 => s
  | fuel + 1 =>
    let i := s.consumer a r
    if (s.arrAt a).dead.contains (r, i) then
      ((s.passList a r i (s.endOf a r i)).modArr a fun x => { x with dead := x.dead.filter fun e => decide (e ≠ (r, i)) }).passDead a r fuel
    else s

/-- Advances a ring's consumer index past a list. -/
def State.consume (s : State) (a : Nat) (r : Run) : State :=
  if r.ring < 16 then
    let s := match r.skip with
      | some i => s.put (ringObj a r.ring) 8 i
      | none => s.passList a r.ring r.start (s.endOf a r.ring r.start)
    s.passDead a r.ring (s.arrAt a).dead.length
  else s.modArr a fun x => { x with instCons := x.instCons + 1 }

/-- Abandons a list (R232): it leaves its array, both banks are unopened, its ring's consumer index passes it, and a
TAP-launched list frees its buffer, unless it has been freed already. `outcome` is that of a waiting WAIT's SYNC record. -/
def State.abandonRun (s : State) (a outcome : Nat) (r : Run) : State :=
  let s := s.leaveQueue a outcome r
  let s := (s.twins a).foldl (fun s x => s.modArr x Arr.closeBanks) s
  let s := ((s.consume a r).bump (0x5040 + a) 5).put (0x8850 + a) 3 r.progress
  let s := s.modArr a fun x => { x with
    run := if x.run = some r then none else x.run
    susp := x.susp.filter fun y => decide (y ≠ r) }
  let s := if (s.arrAt a).run.isNone then s.put (0x5040 + a) 1 0xFF else s
  match r.tap with
  | some (d, b) => if ((s.tap d).buf b).busy = true ∧ ((s.tap d).buf b).acc = some r.acc then s.discardBuf d b else s
  | none => s

/-- The lists of an array that have started, the running one first. -/
def State.listsOf (s : State) (a : Nat) : List Run := (s.arrAt a).run.toList ++ (s.arrAt a).susp

/-- Some list of rings 0 to 15 runs or is suspended. -/
def State.listsRunning (s : State) : Bool :=
  (List.range 16).any fun a => (s.listsOf a).any fun r => decide (r.ring < 16)

/-- Abandons every list of rings 0 to 15 (R380); install lists go on (R295). -/
def State.abandonAll (s : State) : State :=
  (List.range 16).foldl (fun s a =>
    (s.listsOf a).foldl (fun s r => if r.ring < 16 then s.abandonRun a 2 r else s) s) s

/-! ## Discarding on entry into DRAIN (R242) -/

/-- Discards the lists of a ring from index `i` on. -/
def State.discardFrom (s : State) (a r : Nat) : Nat → Nat → State
  | 0, _ => s
  | fuel + 1, i =>
    if i = s.producer a r then s
    else
      let s := if (s.arrAt a).dead.contains (r, i) then s else s.bump (ringObj a r) 0xB
      let s := match s.tapLaunch a r i with
        | some (d, b) => s.discardBuf d b
        | none => s
      State.discardFrom s a r fuel (s.endOf a r i)

/-- Discards the lists of a ring that have not started; the consumer index passes them at once, or, behind a list that
has started, when that list ends. A list that has started goes on, open or not; the rest of an open one that is discarded is passed
over as it comes (R214). -/
def State.discardRing (s : State) (a r : Nat) : State :=
  let p := s.producer a r
  let open_ := (s.arrAt a).openRings.contains r
  match (s.listsOf a).find? fun x => decide (x.ring = r) with
  | none =>
    let s := s.discardFrom a r 65536 (s.consumer a r)
    let s := if open_ ∧ s.consumer a r ≠ p then s.modArr a fun x => { x with tails := r :: x.tails } else s
    s.put (ringObj a r) 8 p
  | some x =>
    let from_ := match x.skip with | some i => i | none => s.endOf a r x.start
    if from_ = p then s
    else
      let mark (y : Run) : Run := if y.ring = r then { y with skip := some p } else y
      (s.discardFrom a r 65536 from_).modArr a fun x =>
        { x with run := x.run.map mark, susp := x.susp.map mark, tails := if open_ then r :: x.tails else x.tails }

/-- A tap descriptor returns to buffer 0, row 0; a buffer whose list has started stays with it. -/
def Tap.rewind (x : Tap) : Tap :=
  { cur := 0, b0 := if x.b0.busy then x.b0 else {}, b1 := if x.b1.busy then x.b1 else {} }

/-- A pending firing is discarded and counted as suppressed. -/
def State.dropFiring (s : State) (t : Nat) (x : Trig) : State :=
  match x.wait with
  | none => s
  | some f =>
    let s := { s with sync := { s.sync with trigs := Sparse.write (fun _ => {}) s.sync.trigs t { x with wait := none } } }
    let s := s.bump (0x5200 + t) 0xD
    match f.tap with
    | some (d, b) => s.discardBuf d b
    | none => s

/-- Entry into DRAIN (R242). -/
def State.drainEntry (s : State) : State :=
  let s := (List.range 16).foldl (fun s a => (List.range 16).foldl (fun s r => s.discardRing a r) s) s
  let s := s.sync.trigs.foldl (fun s e => s.dropFiring e.1 e.2) s
  let taps : Sparse Tap := (s.sync.taps.map fun e => (e.1, Tap.rewind e.2)).filter fun e => decide (e.2 ≠ ({} : Tap))
  let s := { s with sync := { s.sync with taps := taps } }
  (List.range 16).foldl (fun s a => s.modArr a fun x => { x with dead := [] }) s

/-! ## Additions to cue lights (R234, R236) -/

/-- Notes an addition for the sync trace: in one cycle the lowest kind, then the lowest index, stands. -/
def noteAdd (old : Option LightAdd) (kind unit cue now : Nat) : LightAdd :=
  match old with
  | some x =>
    if x.time = now then
      if kind < x.kind ∨ (kind = x.kind ∧ unit < x.unit) then ⟨kind, unit, cue, now, x.count + 1⟩ else { x with count := x.count + 1 }
    else ⟨kind, unit, cue, now, 1⟩
  | none => ⟨kind, unit, cue, now, 1⟩

/-- An addition to a light (R234, R236): beyond 65,535 the count stays there and an error is reported. Signaller kind
and index are those of R446; `cue`, `addr` and `op` are the signalling cue's sequence, address and opcode (R233). -/
def State.addLight (s : State) (l n kind unit cue : Nat) (addr : Nat := 0) (op : Nat := 0) : State :=
  let c := s.light l + n
  let s := s.setLight l (Min.min c 65535)
  let note := noteAdd (Sparse.read (fun _ => none) s.sync.adds l) kind unit cue s.now
  let s := { s with sync := { s.sync with adds := Sparse.write (fun _ => none) s.sync.adds l (some note) } }
  let s := if 65535 < c then
      let cueSide := kind = 0 ∨ kind = 2
      (s.bump 0x5004 0).errorRecord
        { cls := 0x08, uKind := if cueSide then 1 else 0, unit := if cueSide then unit else 0, detail := natLe 2 l, cueSeq := cue, cueAddr := addr, opcode := op }
    else s
  s.serveTaps l

/-! ## Triggers (R237 to R242, R297) -/

def State.trig (s : State) (t : Nat) : Trig := Sparse.read (fun _ => {}) s.sync.trigs t
def State.setTrig (s : State) (t : Nat) (x : Trig) : State :=
  { s with sync := { s.sync with trigs := Sparse.write (fun _ => {}) s.sync.trigs t x } }

def State.trigSource (s : State) (t : Nat) : Nat := s.get (0x5200 + t) 1
def State.trigOn (s : State) (t : Nat) : Bool := s.flag (0x5200 + t) 0xA
def State.trigArray (s : State) (t : Nat) : Nat := s.get (0x5200 + t) 2
def State.trigRing (s : State) (t : Nat) : Nat := s.get (0x5200 + t) 3

/-- A firing that is not posted gives its tap buffer back (R232, R237, R239, R241). -/
def State.dropTap (s : State) (f : Firing) : State :=
  match f.tap with
  | some (d, b) => s.discardBuf d b
  | none => s

/-- The model accession active now. -/
def State.activeModel (s : State) : Nat := s.get 0x6800 0

/-- A scheduled commit whose time is reached: its accession (R288). -/
def due (x : Option Sched) (now : Nat) : Option Nat :=
  match x with
  | some c => if c.time ≤ now then some c.acc else none
  | none => none

/-- The model accession that a trigger's firing takes (R289): from the commit time on the new one, though the PKT boundary at which the
commit takes effect may be still to come. -/
def State.firingModel (s : State) : Nat :=
  match s.lib.staged, due s.lib.schedModel s.now with
  | some _, some v => v
  | _, _ => s.activeModel

/-- The model content under an accession, that of a commit now due among them. -/
def State.modelUnder (s : State) (acc : Nat) : Option Model :=
  match s.modelOf acc with
  | some m => some m
  | none => if due s.lib.schedModel s.now = some acc then s.lib.staged else none

/-- Cue address of a list of an accession on an array (R238, R239). -/
def State.listAddr (s : State) (acc list a : Nat) : Option Nat :=
  match s.modelUnder acc with
  | none => none
  | some m => (m.lists.find? fun e => e.1 = list ∧ e.2.1 = a).map fun e => e.2.2

/-- An install of the new accession is under way on the array: no list of it starts there yet (R297). -/
def State.installing (s : State) (a acc : Nat) : Bool :=
  decide (2 ≤ (s.arrAt a).instKind) && decide ((s.arrAt a).instAcc = acc)

/-- Appends the launch cue of a firing (R238). -/
def State.launch (s : State) (t : Nat) (f : Firing) (addr : Nat) : State :=
  let a := s.trigArray t
  let r := s.trigRing t
  let seq := s.producer a r
  let cue := mkCue [f.acc * 65536 + 256 + 0x1A, addr, f.lw0, t, f.evt % 2 ^ 32, f.evt / 2 ^ 32] seq
  let s := (s.append a r cue).bump (0x5200 + t) 0xB
  let s := s.modArr a fun x => { x with tapLaunch := (if f.tap.isSome then [(r, seq)] else []) ++ x.tapLaunch.filter fun e => s.inRing a e.1 e.2 }
  if s.get (0x5010 + a) 2 = 4 then s.bump (0x5040 + a) 7 else s

/-- A firing can not be appended now: its ring is full, holds an open host list, or its array's install of the
accession has not completed (R241, R297). -/
def State.mustWait (s : State) (t : Nat) (f : Firing) : Bool :=
  s.ringFull (s.trigArray t) (s.trigRing t) || (s.arrAt (s.trigArray t)).openRings.contains (s.trigRing t) ||
  s.installing (s.trigArray t) f.acc

/-- An enabled trigger fires (R238 to R242, R297). -/
def State.fireTrig (s : State) (t : Nat) (f : Firing) : State :=
  if s.dev.st ≠ .run then (s.bump (0x5200 + t) 0xD).dropTap f
  else match s.listAddr f.acc (s.get (0x5200 + t) 4) (s.trigArray t) with
    | none => (s.bump (0x5200 + t) 0xE).dropTap f
    | some addr =>
      if (s.trig t).wait.isSome then
        let s := s.bump (0x5200 + t) 0xC
        let s := if s.installing (s.trigArray t) f.acc then s.bump (0x6810 + s.trigArray t) 2 else s
        s.dropTap f
      else if s.mustWait t f then s.setTrig t { s.trig t with wait := some f }
      else s.launch t f addr

/-- Appends a trigger's pending firing once nothing holds it any more (R241, R297). -/
def State.appendWaiting (s : State) (t : Nat) : State :=
  match (s.trig t).wait with
  | none => s
  | some f =>
    if s.mustWait t f then s
    else
      let s := s.setTrig t { s.trig t with wait := none }
      match s.listAddr f.acc (s.get (0x5200 + t) 4) (s.trigArray t) with
      | none => (s.bump (0x5200 + t) 0xE).dropTap f
      | some addr => s.launch t f addr

/-- Completes a tap buffer and fires its descriptor's trigger (R62, R63, R218, R237). -/
def State.completeBuf (s : State) (bank : Bank) (d b : Nat) : State :=
  let x := s.tap d
  let y := x.buf b
  let s := s.setTap d ((x.setBuf b { y with busy := true }) |> fun x => { x with cur := 1 - b })
  let t := bank.tapTrigger d % 512
  let f : Firing := ⟨y.acc.getD 0, y.rows * 2 ^ 17 + d * 512 + b, s.now, some (d, b)⟩
  (if s.trigOn t = false ∨ s.trigSource t ≠ 1 then (s.bump (0x5200 + t) 0xD).dropTap f else s.fireTrig t f).serveTaps y.light

end Sys2Proof.Machine
end

