-- ==== Sys2Proof/Machine/ObsOps.lean ====
section
/-! DEFINITION. Operations of observability and containment that other families call: array power states (R199),
hang-dump requests (R453), and what follows when a unit becomes suspect (R415). -/

namespace Sys2Proof.Machine

open Sys2Proof.Bits

/-! ## Array power states (R199) -/

/-- Array state of 0x5010+a:02: 0 GATED, 1 RAMP-UP, 2 ACTIVE, 3 RAMP-DOWN, 4 SCAN. -/
def State.power (s : State) (a : Nat) : Nat := s.get (0x5010 + a) 2
def State.setPower (s : State) (a v : Nat) : State := s.put (0x5010 + a) 2 v

/-- The array's island is powered: its rail counts for R486 outside GATED, in a module whose cores run. -/
def State.islandPowered (s : State) (a : Nat) : Bool := s.hasArray a && decide (s.power a ≠ 0)

/-! ## Freezes (R453, R454) -/

/-- A dump can not be stored (R453): an upload of it runs, or one is held and the first is kept. One more request while a
dump is under way is lost too (DESIGN CHOICE, log entry 11). -/
def State.dumpBlocked (s : State) : Bool :=
  (s.odp.transfers.any fun x => x.upload && decide (x.idx = 0xA020)) ||
  (s.obs.dump && decide (s.get 0x8841 0 = 1)) || s.obs.freeze.isSome

/-- A dump is requested (R453): a freeze, or a gap record of cause 3 and a lost dump. -/
def State.takeDump (s : State) (cause recNo : Nat) (hang : Option Nat) : State :=
  if s.dumpBlocked then (s.gapRecord 0x60 3 0 0 1 s.now s.now).bump 0x8844 0
  else { s with obs := { s.obs with freeze := some ⟨cause, s.now, recNo, hang, none⟩ } }

/-- A dump is requested by a cause that 0x8840:00 may enable: bit 0 hang, 1 array fault, 2 FAULT. -/
def State.requestDump (s : State) (bit_ recNo : Nat) (hang : Option Nat) : State :=
  if bit (s.get 0x8840 0) bit_ then s.takeDump bit_ recNo hang else s

/-! ## Suspects (R414, R415) -/

/-- Notes the first suspect unit (0x8015:00). -/
def State.firstSuspect (s : State) (uKind unit : Nat) : State :=
  if s.get 0x8015 0 = 0xFFFF then s.put 0x8015 0 (uKind * 256 + unit) else s

/-- A held packet has its rows in a tap buffer of an array. -/
def State.rowsIn (s : State) (a : Nat) (p : Pkt) : Bool :=
  match p.tapRow with
  | some (d, _, _) => decide ((s.bankOf p.ra).tapArray d = a)
  | none => false

/-- An array stops issuing at once, its running list is abandoned, and its held packets are released (R415, R426). -/
def State.suspectArray (s : State) (a : Nat) : State :=
  let s := s.modArr a fun x => { x with suspect := true }
  let s := match (s.arrAt a).run with
    | some r => s.abandonRun a 2 r
    | none => s
  s.releaseAll fun p => s.rowsIn a p

/-- From RUN a suspect takes the module to DRAIN (R415). Device.lean enters it. -/
def State.drainForSuspect (s : State) : State :=
  if s.dev.st = .run then (s.enter .drain).drainEntry else s

/-- A unit becomes suspect (R415): the array stops, the replacement flag is set, the error record is written and raises
its event, and from RUN the module enters DRAIN. -/
def State.suspectUnit (s : State) (e : ErrInfo) : State :=
  let s := if e.uKind = 1 then s.suspectArray e.unit else s
  let first := !s.flash.replacement
  let s := { s with flash := { s.flash with replacement := true, dieScanPassed := false } }
  let s := s.firstSuspect e.uKind e.unit
  let s := s.errorRecord { e with flags := e.flags + (if first then 2 else 0) }
  s.drainForSuspect

/-- Both arrays of a pair become suspect with one record (R412, R414). -/
def State.suspectPair (s : State) (pair : Nat) (e : ErrInfo) : State :=
  let s := (s.suspectArray (2 * pair)).suspectArray (2 * pair + 1)
  s.suspectUnit { e with uKind := 1, unit := 2 * pair }

end Sys2Proof.Machine
end

