-- ==== Sys2Proof/Machine/Cue.lean ====
section
/-! DEFINITION. Cues: parity and sequence (R216), legality of fields (R215, R217, R220, R221), what the common flags add
(R219), and the control errors of the cue path (R233). -/

namespace Sys2Proof.Machine

open Sys2Proof.Bits

/-- A control error found on the cue path (R233), with what its record's detail names (R419). -/
inductive CueErr where
  | parity (mask : Nat)
  | sequence (expected found : Nat)
  | illegal
  | format
  | shape
  | skew (row expected found : Nat)
  | gather (k offset : Nat)
  | accession
  deriving DecidableEq, Repr

/-- Opcodes of R217. -/
def opNop : Nat := 0x00
def opShelve : Nat := 0x01
def opStage : Nat := 0x02
def opStream : Nat := 0x03
def opDrain : Nat := 0x04
def opSwap : Nat := 0x05
def opTap : Nat := 0x06
def opEmit : Nat := 0x07
def opCallslip : Nat := 0x08
def opWait : Nat := 0x10
def opSignal : Nat := 0x11
def opFence : Nat := 0x12
def opLoop : Nat := 0x18
def opEndloop : Nat := 0x19
def opCall : Nat := 0x1A
def opReturn : Nat := 0x1B
def opRestart : Nat := 0x1C
def opMark : Nat := 0x20
def opUnmark : Nat := 0x21
def opHold : Nat := 0x30

/-- The opcodes that are not reserved. -/
def opcodes : List Nat :=
  [0, 1, 2, 3, 4, 5, 6, 7, 8, 0x10, 0x11, 0x12, 0x18, 0x19, 0x1A, 0x1B, 0x1C, 0x20, 0x21, 0x30]

/-- The eight words of a cue. -/
def words (bs : Bytes) : List Nat := (List.range 8).map fun i => cueWord bs i

def w (ws : List Nat) (i : Nat) : Nat := ws.getD i 0

/-- Words whose parity fails (R216): bit i for word i. -/
def parityMask (ws : List Nat) : Nat :=
  let low := (List.range 7).foldl (fun n i => if parity 32 (w ws i) = fld (w ws 7) (24 + i) (24 + i) then n else n + 2 ^ i) 0
  if parity 32 (w ws 7) = 0 then low else low + 128

/-- Bits of word 0 [11:8] and of words 1 to 6 that an opcode defines (R220). -/
def usedBits (ws : List Nat) : List Nat :=
  let all := 0xFFFFFFFF
  match w ws 0 % 256 with
  | 0x01 => [0x100, 0x07FFFFFF, 0xF0007FFF, 0xFFF, 0, 0, 0]
  | 0x02 => [0, 0x1FFFFFFF, all, 0xFFFF, 0, 0, 0]
  | 0x03 => [0, all, all, 0xFFFFFFF8, all, 0x3FFFFFFF, if fld (w ws 1) 31 29 = 4 then all else 0x7FFF]
  | 0x04 => [0, 0xFFFFFFFC, 0xFFFFFFFE, all, 0xFFFFFFFC, all, all]
  | 0x06 => [0, 0x7FF, 0, 0, 0, 0, 0]
  | 0x07 => match fld (w ws 1) 31 30 with
    | 0 => [0, 0xC0000000, 0xFFF07FFF, 0xFF, 0, 0, 0]
    | 1 => [0, 0xDFFFFFFF, 0x7FFF, all, 0, 0, 0]
    | _ => [0, 0xDFFFFFFF, 0, 0, 0, 0, 0]
  | 0x08 => [0x100, 0x7FFFFF, 0xFFF, 0, 0, 0, 0]
  | 0x10 => [0x100, 0xFFFF07FF, 0, 0, 0, 0, 0]
  | 0x11 => [0, 0xFFFF07FF, 0xC00001FF, all, 0, 0, 0]
  | 0x12 => [0, 0x3F, 0, 0, 0, 0, 0]
  | 0x18 => [0, 0x1FFFF, all, all, 0, 0, 0]
  | 0x1A => if bit (w ws 0) 8 then [0x100, 0xBFFFFFFF, all, all, all, all, 0] else [0x100, 0xBFFFFFFF, 0, 0, 0, 0, 0]
  | 0x20 => [0, 0xFFFF, 0, 0, 0, 0, 0]
  | 0x21 => [0, 0xFFFF, 0, 0, 0, 0, 0]
  | 0x30 => [0, all, 0, 0, 0, 0, 0]
  | _ => [0, 0, 0, 0, 0, 0, 0]

/-- No reserved bit of the cue is set (R217). -/
def reservedClear (ws : List Nat) : Bool :=
  let m := usedBits ws
  decide (Nat.land (w ws 0) 0xF00 = Nat.land (w ws 0) (w m 0)) &&
  (List.range 6).all fun i => decide (Nat.land (w ws (i + 1)) (w m (i + 1)) = w ws (i + 1))

/-- A shelf address names a row that exists. -/
def shelfOk (x : Nat) : Bool := decide (x % 4096 < 3072)

/-- Field ranges of R220 and R221 that no address, format or shape rule covers: an M, N or K beyond its limit is an illegal shape
(R180). -/
def rangesOk (ws : List Nat) : Bool :=
  let w1 := w ws 1
  let w2 := w ws 2
  let w3 := w ws 3
  match w ws 0 % 256 with
  | 0x01 =>
    let rows := fld w3 11 0
    shelfOk (fld w2 14 0) && (match fld w2 31 30 with
    | 0 => decide (1 ≤ rows) && decide (fld w2 11 0 + rows ≤ 3072)
    | 1 => decide (rows = 2)
    | _ => false)
  | 0x02 => decide (fld w2 31 30 ≠ 3) && decide (1 ≤ w3) && decide (w3 ≤ 32768)
  | 0x03 =>
    let window := decide (fld w1 31 29 = 4)
    decide (fld w1 31 29 ≤ 4) &&
    (!window || decide (fld w1 16 0 % (fld (w ws 6) 22 15 + 1) = 0)) && decide (fld w2 28 27 ≠ 3) && decide (fld w2 25 24 ≠ 3) &&
    (bit (w ws 0) 13 || decide (1 ≤ fld w2 22 15)) && decide (1 ≤ fld w3 31 21) &&
    shelfOk (fld w3 20 6) && decide (fld (w ws 4) 16 0 ≤ 65536) && shelfOk (fld (w ws 5) 29 15) && shelfOk (fld (w ws 5) 14 0) &&
    (window || decide (1 ≤ fld (w ws 6) 14 0)) &&
    (!(bit w2 30) || bit w2 31)
  | 0x04 =>
    let act := fld w1 25 23
    decide (fld w1 31 30 ≠ 3) && decide (fld w1 4 2 ≤ 4) && (bit (w ws 0) 13 || decide (1 ≤ fld w1 12 5)) &&
    decide (1 ≤ fld w2 31 21) && decide (1 ≤ fld w2 8 1) &&
    (if fld w1 29 26 = 0xD then decide (fld w3 31 29 ≤ 4) else decide (fld w3 31 29 = 0)) &&
    (decide (fld w1 31 30 ≠ 0) || decide (fld w3 28 15 = 0)) && (decide (act = 2) || decide (fld (w ws 6) 31 15 = 0)) &&
    !(bit w1 22 && decide (act = 2))
  | 0x06 => decide (fld w1 9 8 = 1) || decide (fld w1 9 8 = 2)
  | 0x07 => match fld w1 31 30 with
    | 0 => decide (1 ≤ fld w2 31 28) && decide (fld w2 31 28 ≤ 8) && (decide (fld w2 27 24 = 6) || decide (fld w2 27 24 = 9)) && decide (1 ≤ fld w3 7 0)
    | 1 => decide (1 ≤ fld w3 15 0) && decide (fld w3 15 0 ≤ 128)
    | 2 => true
    | _ => false
  | 0x08 => decide (1 ≤ fld w1 22 15)
  | 0x10 => decide (1 ≤ fld w1 31 16)
  | 0x11 => decide (1 ≤ fld w1 31 16) && (!(bit w2 30) || (decide (fld w1 31 16 = 1) && decide (fld w1 10 0 < 512)))
  | 0x18 => decide (fld w1 16 0 ≤ 65536)
  | 0x1A => !(bit (w ws 0) 8)
  | _ => true

/-- The cue is legal in itself (R217, R221). -/
def legal (ws : List Nat) : Bool := opcodes.contains (w ws 0 % 256) && reservedClear ws && rangesOk ws

/-! ## What the common flags add (R219) -/

/-- The innermost open LOOP: iteration index and increments of shelf, wings and stacks. -/
def innerLoop : List Frame → Option (Nat × Int × Int × Int)
  | [] => none
  | .loop _ _ i sh wi st :: _ => some (i, sh, wi, st)
  | .call _ :: fs => innerLoop fs

/-- What a cue's addresses take from the list: LW0 and, under ADV, i times the increments. -/
structure Adds where
  buf    : Int := 0
  wings  : Int := 0
  shelf  : Int := 0
  stack : Int := 0
  deriving DecidableEq, Repr, Inhabited

/-- The additions of a cue; none when it has ADV and no LOOP is open (R219). -/
def State.adds (s : State) (a : Nat) (r : Run) (ws : List Nat) : Option Adds :=
  let buf : Int := if bit (w ws 0) 14 ∧ r.lw0 % 2 = 1 ∧ r.ring < 16 then (s.get (ringObj a r.ring) 5 : Nat) else 0
  if bit (w ws 0) 12 then
    match innerLoop r.stack with
    | none => none
    | some (i, sh, wi, st) => some ⟨buf, buf + i * wi, i * sh, i * st⟩
  else some ⟨buf, buf, 0, 0⟩

/-- A wings line after the additions, with `n` lines from it inside the wings. -/
def Adds.line (x : Adds) (l n : Nat) : Option Nat :=
  let y := (l : Int) + x.wings
  if 0 ≤ y ∧ y + n ≤ 32768 then some y.toNat else none

/-- A shelf address after the additions, as (bank, row), with `n` bytes from its first inside the bank. -/
def Adds.shelfAddr (x : Adds) (f n : Nat) : Option (Nat × Nat) :=
  let row := (f % 4096 : Nat) + x.shelf
  if 0 ≤ row ∧ row * 256 + n ≤ 786432 ∧ row < 3072 then some (f / 4096 % 8, row.toNat) else none

/-- A stacks address in 64-byte units after the additions. -/
def Adds.unit (x : Adds) (u : Nat) : Option Nat :=
  let y := (u : Int) + x.stack
  if 0 ≤ y ∧ y < 2 ^ 29 then some y.toNat else none

/-- Rows of a STREAM or DRAIN: ROWS takes them from LW0 (R219). -/
def rowsOf (r : Run) (ws : List Nat) (m : Nat) : Nat := if bit (w ws 0) 13 then fld r.lw0 31 17 else m

/-- Stored bits of one element of a format. -/
def fmtBits (f : Nat) : Nat := match Num.Fmt.ofCode f with | some x => x.bits | none => 8

/-- Bytes of `n` packed elements (R119). -/
def rowBytes (f n : Nat) : Nat := (n * fmtBits f + 7) / 8

/-- Lines of 64 bytes that `n` bytes take. -/
def linesOf (n : Nat) : Nat := (n + 63) / 64

/-- Counts the first `n` vectors of a gather list at wings line `l`, each of whole lines (R276, 0x6040+a:01); a zero vector is not
read. -/
def State.countGather (s : State) (a l lines n : Nat) : State :=
  let base := le (s.wings a (l * 64) 4) 0 4
  (List.range n).foldl (fun s k =>
    let e := le (s.wings a ((l + 1) * 64 + 4 * k) 4) 0 4
    if bit e 31 then s else (s.countRead ((base + fld e 28 0) * 64) (lines * 64)).bump (0x6040 + a) 1) s

/-! ## Regions that cues may reach (R267) -/

/-- Reads of SHELVE, STAGE and the gather path: library, spill space, export window. -/
def State.cueMayRead (s : State) (x n : Nat) : Bool := s.inRegions [0, 4, 5] x n

/-- Writes of STAGE and DRAIN: spill space and export window. -/
def State.cueMayWrite (s : State) (x n : Nat) : Bool := s.inRegions [4, 5] x n

/-- A cue address names a slot of ring SRAM, or a line of the model library (R212, R267). -/
def State.cueAddrOk (s : State) (x : Nat) : Bool :=
  if x / 2 ^ 31 = 1 then s.inRegion 0 (x % 2 ^ 30 * 32) 32 else decide (x % 2 ^ 30 < 16384)

/-! ## Lists' positions -/

/-- Cue address of a position. -/
def State.posAddr (s : State) (a : Nat) (r : Run) : Pos → Nat
  | .ring i => s.slotAddr (s.ringHome a) r.ring i
  | .body x => x

def Pos.next : Pos → Pos
  | .ring i => .ring ((i + 1) % 2 ^ 32)
  | .body x => .body (x / 2 ^ 30 * 2 ^ 30 + (x + 1) % 2 ^ 30)

/-- Sequence a cue at the position must carry (R216). -/
def Pos.seq : Pos → Nat
  | .ring i => i % 2 ^ 24
  | .body x => x % 2 ^ 24

/-- Changes the running list of an array. -/
def State.modRun (s : State) (a : Nat) (f : Run → Run) : State := s.modArr a fun x => { x with run := x.run.map f }

/-- The 32 bytes of the cue a list stands at; an install list's come from its install ring (R295). A body that has left the library is
not fetched (R264): its cue stands as zeros in the error record (log entry 13). -/
def State.cueBytes (s : State) (a : Nat) (r : Run) : Bytes :=
  match r.pos with
  | .ring i => if r.ring < 16 then s.cueAt (s.ringHome a) (s.posAddr a r (.ring i)) else mkCue ((s.arrAt a).install.getD i []) i
  | .body x => if s.cueAddrOk x then s.cueAt a x else List.replicate 32 0

/-- The cue a list stands at has been appended. -/
def State.posted (s : State) (a : Nat) (r : Run) : Bool :=
  match r.pos with
  | .ring i => if r.ring < 16 then decide (i ≠ s.producer (s.ringHome a) r.ring) else decide (i < (s.arrAt a).install.length)
  | .body _ => true

/-- Counts the fetch of the cue a list stands at (0x6013); an install list's cues come from the image. -/
def State.countFetch (s : State) (a : Nat) (r : Run) : State := if r.ring < 16 then s.countCue (s.posAddr a r r.pos) else s

/-- Keeps 0x5040+a:01 and :02 at the running list. -/
def State.showRun (s : State) (a : Nat) : State :=
  match (s.arrAt a).run with
  | none => s.put (0x5040 + a) 1 0xFF
  | some r => (s.put (0x5040 + a) 1 (if r.ring < 16 then r.ring else 0xFF)).put (0x5040 + a) 2 (s.posAddr a r r.pos % 2 ^ 32)

/-! ## Rewinds (R229, R230, R232) -/

/-- Discards banks: they count as unopened. -/
def Arr.discard (x : Arr) (banks : List Nat) : Arr :=
  { x with
    bank0 := if banks.contains 0 then { x.bank0 with opened := false } else x.bank0
    bank1 := if banks.contains 1 then { x.bank1 with opened := false } else x.bank1 }

/-- Rewinds the running list to its restart point (R230); one for a scale skew resumes after 1 µs. -/
def State.rewind (s : State) (a : Nat) (r : Run) (resume : Option Nat) : State :=
  let s := s.modArr a fun x => { x.discard r.restart.written with front := r.restart.front }
  (s.modRun a fun _ => { r with
    pos := r.restart.pos, stack := r.restart.stack, block := .none, ending := false, rewind := false, resume := resume
    restart := { r.restart with written := [] } }).showRun a

/-- A cue with an implied restart point is still running (R229). -/
def Run.impliedFlying (r : Run) : Bool := r.fly.any fun f => f.implied.isSome

/-- Aborts the running list to its restart point, or abandons it when it has done so more often in a row than the retry
limit (R230, R232). -/
def State.abortToRestart (s : State) (a : Nat) (r : Run) (resume : Option Nat) : State :=
  let s := s.bump (0x5040 + a) 4
  let r := { r with retries := r.retries + 1 }
  let s := s.modRun a fun _ => r
  if s.get 0x5003 0 < r.retries then s.abandonRun a 2 r
  else
    let s := s.leaveQueue a 2 r
    if r.impliedFlying then s.modRun a fun _ => { r with block := .none, ending := false, rewind := true, resume := resume }
    else s.rewind a r resume

/-- Record of a control error: class and detail (R419). The bank format is 1 for an FP32 bank, 0 for an integer bank
(log entry 13). -/
def CueErr.record (e : CueErr) (run bankFp : Nat) (ws : List Nat) : Nat × Bytes :=
  match e with
  | .parity m => (0x01, natLe 1 m)
  | .sequence x y => (0x02, natLe 3 x ++ natLe 3 y)
  | .illegal => (0x03, natLe 4 (w ws 0) ++ natLe 4 (w ws 1))
  | .format => (0x04, natLe 1 (fld (w ws 1) 25 22) ++ natLe 1 (fld (w ws 1) 21 18) ++ natLe 1 bankFp)
  | .shape => (0x05, natLe 1 (fld (w ws 1) 31 29) ++ natLe 2 (fld (w ws 2) 22 15) ++ natLe 2 (fld (w ws 3) 31 21) ++ natLe 4 (fld (w ws 1) 16 0))
  | .skew row x y => (0x06, natLe 4 row ++ natLe 1 x ++ natLe 1 y)
  | .gather k o => (0x09, natLe 4 k ++ natLe 4 o)
  | .accession => (0x07, natLe 2 run ++ natLe 2 (fld (w ws 0) 31 16))

/-- Notes banks written since the restart points (R229). -/
def Run.wrote (r : Run) (banks : List Nat) : Run :=
  { r with
    restart := { r.restart with written := banks ++ r.restart.written }
    fly := r.fly.map fun f => { f with implied := f.implied.map fun p => { p with written := banks ++ p.written } } }

/-- A STREAM that its feeder stops after a first step (R164, R277) has written its banks, which a rewind then discards: an
error in stored row or vector `k` with others before it, and not in M-major layout, where step 0 needs every row (log entry 54). -/
def CueErr.spoils (e : CueErr) (front : Nat) (ws : List Nat) : List Nat :=
  let banks := if 4 ≤ fld (w ws 1) 28 26 then [0, 1] else [front]
  match e with
  | .skew k _ _ => if k = 0 ∨ (bit (w ws 2) 26 = true ∧ fld (w ws 1) 31 29 ≠ 4) then [] else banks
  | .gather k _ => if k = 0 ∨ fld (w ws 1) 16 0 ≤ k then [] else banks
  | .parity _ => []
  | .sequence _ _ => []
  | .illegal => []
  | .format => []
  | .shape => []
  | .accession => []

/-- Counts of an error beside its record's (R180, R194, R278): shapes, skews, and the lines of a gather that were read. -/
def State.countError (s : State) (a : Nat) (r : Run) (ws : List Nat) (e : CueErr) : State :=
  match e with
  | .shape => s.bump (0x5010 + a) 0xD
  | .skew _ _ _ => (s.bump 0x5802 0).bump (0x5810 + a) 4
  | .gather k _ =>
    let s := s.bump (0x6040 + a) 2
    let lines := Max.max 1 (linesOf (rowBytes (fld (w ws 1) 25 22) (rowsOf r ws (fld (w ws 2) 22 15))))
    let l := ((fld (w ws 2) 14 0 : Nat) : Int) + ((s.adds a r ws).getD {}).wings
    if k < fld (w ws 1) 16 0 then s.countGather a l.toNat lines k else s
  | _ => s

/-- Reports a control error and ends its cue's issue (R233): the list is abandoned for an accession mismatch, and otherwise
aborted to its restart point. -/
def State.cueError (s : State) (a : Nat) (r : Run) (ws : List Nat) (e : CueErr) : State :=
  let x := s.arrAt a
  let fp := if x.front = 0 then x.bank0.fp else x.bank1.fp
  let (cls, detail) := e.record r.acc (if fp then 1 else 0) ws
  let s := s.countError a r ws e
  let s := s.errorRecord
    { cls := cls, uKind := 1, unit := a, detail := detail, cueAddr := s.posAddr a r r.pos, cueSeq := r.pos.seq,
      opcode := w ws 0 % 256, modelAcc := some r.acc }
  match e with
  | .accession => s.abandonRun a 2 r
  | .skew _ _ _ => s.abortToRestart a (r.wrote (e.spoils x.front ws)) (some (s.now + 1000))
  | _ => s.abortToRestart a (r.wrote (e.spoils x.front ws)) none

end Sys2Proof.Machine
end

