-- ==== Sys2Proof/Machine/Operands.lean ====
section
/-! DEFINITION. Operand forms of a STREAM: layouts (R119, R183 to R187, R276), scale words and tags (R146, R158 to R160,
R164), and the feeders' load conversions (R126, R135, R138, R139). -/

namespace Sys2Proof.Machine

open Sys2Proof.Bits Sys2Proof.Num

/-- Fields of a STREAM cue (R220), the list's additions made. -/
structure StreamCue where
  shape  : Nat
  mode   : Nat
  afmt   : Nat
  bfmt   : Nat
  float  : Bool
  k      : Nat
  opens  : Bool
  bias   : Bool
  trunc  : Bool
  akind  : Nat
  mMajor : Bool
  ascale : Nat
  tagged : Bool
  m      : Nat
  n      : Nat
  a      : Nat
  b      : Nat
  tg8    : Nat
  bscale : Bool
  sa     : Nat
  scan   : Nat
  biasAt : Nat
  sb     : Nat
  stride : Nat
  wstride : Nat
  dil    : Nat
  taps   : Nat
  cstride : Nat
  adds   : Adds
  deriving DecidableEq, Repr, Inhabited

/-- Reads the fields of a STREAM. -/
def streamCue (r : Run) (x : Adds) (ws : List Nat) : StreamCue :=
  let w1 := w ws 1
  let w2 := w ws 2
  let w3 := w ws 3
  let w6 := w ws 6
  { shape := fld w1 31 29, mode := fld w1 28 26, afmt := fld w1 25 22, bfmt := fld w1 21 18, float := bit w1 17, k := fld w1 16 0
    opens := bit w2 31, bias := bit w2 30, trunc := bit w2 29, akind := fld w2 28 27, mMajor := bit w2 26, ascale := fld w2 25 24
    tagged := bit w2 23, m := rowsOf r ws (fld w2 22 15), n := fld w3 31 21, a := fld w2 14 0, b := fld w3 20 6, tg8 := fld w3 5 4
    bscale := bit w3 3, sa := fld (w ws 4) 31 17, scan := fld (w ws 4) 16 0, biasAt := fld (w ws 5) 29 15, sb := fld (w ws 5) 14 0
    stride := fld w6 14 0, wstride := fld w6 31 29 + 1, dil := fld w6 28 23 + 1, taps := fld w6 22 15 + 1, cstride := fld w6 14 0, adds := x }

/-- Band count of a shape (R179). -/
def bands (shape : Nat) : Nat := match shape with | 1 => 2 | 2 => 4 | 3 => 8 | _ => 1

/-- Tile limits of a shape: M and N (R179). -/
def maxM (shape : Nat) : Nat := 128 / bands shape
def maxN (shape : Nat) : Nat := 128 * bands shape

def StreamCue.complex (c : StreamCue) : Bool := decide (c.mode = 4) || decide (c.mode = 5)
def StreamCue.f64 (c : StreamCue) : Bool := decide (c.mode = 6) || decide (c.mode = 7)
def StreamCue.window (c : StreamCue) : Bool := decide (c.shape = 4)

/-- STREAM mode class: 0 real, 1 complex, 2 FP64. -/
def StreamCue.kind (c : StreamCue) : Nat := if c.complex then 1 else if c.f64 then 2 else 0

/-- Formats R123 takes for a mode: no fmt 0xF; CI16 only in complex modes, with CI16; complex modes else take two pairs of one
of FP16, BF16 and FP19; FP64 modes take two FP64 operands and nothing else does. -/
def StreamCue.formatsOk (c : StreamCue) : Bool :=
  let x := c.afmt
  let y := c.bfmt
  if c.complex then (decide (x = 0xE) && decide (y = 0xE) && !c.float) || ([6, 7, 8].contains x && [6, 7, 8].contains y)
  else if c.f64 then decide (x = 0xA) && decide (y = 0xA)
  else !([0xA, 0xE, 0xF].contains x) && !([0xA, 0xE, 0xF].contains y)

/-- Floating or grid class of a format code (R115). -/
def floatClass (f : Nat) : Bool := decide (4 ≤ f) && decide (f ≤ 0xC)

/-- The STREAM is floating (R123). -/
def StreamCue.isFloat (c : StreamCue) : Bool :=
  c.float || floatClass c.afmt || floatClass c.bfmt || (decide (1 ≤ c.mode) && decide (c.mode ≤ 3))

/-- Formats that may carry scale words (R145). -/
def scalable (f : Nat) : Bool := [0, 1, 2, 3, 0xB, 0xC, 0xD].contains f

/-- The scale words the cue names are ones its operands can have (R145, R158). -/
def StreamCue.scalesOk (c : StreamCue) : Bool :=
  (decide (c.ascale = 0) || scalable c.afmt) && (!c.bscale || decide (c.bfmt = 0xB) || decide (c.bfmt = 0xC))

/-- Shape limits and the modes a shape takes (R179, R180, R185). -/
def StreamCue.shapeOk (c : StreamCue) : Bool :=
  decide (1 ≤ c.m) && decide (c.m ≤ maxM c.shape) && decide (c.n ≤ maxN c.shape) && decide (c.k ≤ 65536) &&
  (!c.f64 || decide (c.shape = 0)) &&
  (if c.window then decide (c.mode = 0) && decide (c.ascale ≠ 2) && decide (c.akind = 2) &&
      decide ((c.m - 1) * c.wstride + (c.taps - 1) * c.dil ≤ 255)
    else decide (c.akind ≠ 2))

/-! ## Scale words (R146) -/

def scaleShift (v : Nat) : Int := toInt 7 v
def scaleGrid (v : Nat) : Nat := fld v 8 7
def scaleTag (v : Nat) : Nat := fld v 12 9

/-- A scale word's grid may stand on a code of the format: never 11; BG4 on 4-bit and TG8 on 8-bit codes, not in an integer
STREAM (R123, R126, R146). -/
def gridOk (float : Bool) (f v : Nat) : Bool :=
  match scaleGrid v with
  | 0 => true
  | 1 => float && (decide (f = 3) || decide (f = 0xB))
  | 2 => float && (decide (f = 0) || decide (f = 0xC))
  | _ => false

/-- The 2-byte words of a byte string. -/
def wordsOf (bs : Bytes) : Nat → List Nat
  | 0 => []
  | n + 1 => le bs 0 2 :: wordsOf (bs.drop 2) n

/-! ## Elements -/

/-- Stored code of element `i` of a row (R119). -/
def codeAt (f : Nat) (bs : Bytes) (i : Nat) : Nat :=
  let b := fmtBits f
  if b = 4 then le bs (i / 2) 1 / 16 ^ (i % 2) % 16 else le bs (i * (b / 8)) (b / 8)

/-- Elements stored for each element of an operand: two in a complex mode over floating pairs. -/
def StreamCue.parts (c : StreamCue) (f : Nat) : Nat := if c.complex && decide (f ≠ 0xE) then 2 else 1

/-- The TG8 table an array holds (R121), as FP16 codes. -/
def State.tg8Table (s : State) (a t : Nat) : List Nat :=
  (List.range 256).map fun k => Sparse.read (fun _ => 0) (s.arrAt a).tg8 (t * 256 + k)

/-- Bytes of an array's shelf bank. -/
def State.shelfRead (s : State) (a bank off n : Nat) : Bytes :=
  Sparse.readList memDefault (s.arrAt a).shelf (bank * 786432 + off) n

/-- Exact value of a code with the scale word that applies to it (R126, R146): an integer, mantissa or level times 2^shift. -/
def loadExact (table : List Nat) (f code : Nat) (scale : Option Nat) : FV :=
  let sh : Int := match scale with | some v => scaleShift v | none => 0
  let grid := match scale with | some v => scaleGrid v | none => 0
  let x : FV :=
    if f = 0xC ∨ grid = 2 then tg8Level table code
    else if f = 0xB ∨ grid = 1 then bg4Level code
    else match Fmt.ofCode f with | some y => y.value code | none => .nan
  match x with
  | .fin n m e => .fin n m (e + sh)
  | y => y

/-- One-pass floating load (R126, R129): FP19 to nearest even, FP32 by truncation under the rounding bit. -/
def loadFp19 (trunc : Bool) (f : Nat) (x : FV) : FV × Exc :=
  let r := fp19.encode (if trunc && decide (f = 9) then .truncate else .nearest) false x
  (fp19.decode r.1, r.2)

/-- Column-scaled integer load (R159): aligned to the top and saturated to INT16. -/
def loadAligned (code : Int) (shift : Int) : Int × Exc :=
  let v := (Dy.mk code shift).roundEven
  if 32767 < v then (32767, { sat := true }) else if v < -32768 then (-32768, { sat := true }) else (v, { unf := decide (code ≠ 0) && decide (v = 0) })

/-- Integer value of a code of an integer-class or BFP-IQ format. -/
def loadInt (f code : Nat) : Int := match Fmt.ofCode f with | some y => y.value code |>.dy.m | none => 0

/-- q of R159. -/
def qOf (f : Nat) : Int := match f with | 3 => 3 | 0 => 7 | 1 => 8 | _ => 15

/-! ## Where the A operand lies -/

/-- Bytes of the A operand: by stored row, what the feeder reads (R183 to R187, R276); none when it would leave its memory. A
stored row is vector k in K-major layout, row m in M-major layout, channel c in WINDOW. -/
structure ARows where
  rows : List Bytes
  /-- Row tags by stored row; none where tags are not compared. -/
  tags : List Nat
  deriving DecidableEq, Repr, Inhabited

/-- Number of stored rows and bytes of one. -/
def StreamCue.aExtent (c : StreamCue) : Nat × Nat :=
  if c.window then (c.k / c.taps, rowBytes c.afmt 256)
  else if c.mMajor then (if c.k = 0 then 0 else c.m, rowBytes c.afmt (c.k * c.parts c.afmt))
  else (c.k, rowBytes c.afmt (c.m * c.parts c.afmt))

/-- Rows of an A operand in the wings. -/
def State.aWings (s : State) (a : Nat) (c : StreamCue) : Except CueErr ARows :=
  let (cnt, n) := c.aExtent
  let step := if c.window then c.cstride else c.stride
  match c.adds.line c.a (if cnt = 0 then 0 else (cnt - 1) * step + linesOf n) with
  | none => .error .illegal
  | some l => .ok
    ⟨(List.range cnt).map fun i => s.wings a ((l + i * step) * 64) n, (List.range cnt).map fun i => s.tag a (l + i * step)⟩

/-- Entries of a gather list as offsets in 64-byte units, none for a zero vector (R276); the first bad one is an error. -/
def gatherRows (s : State) (bytes n base : Nat) : Nat → Bytes → Nat → Except CueErr (List Bytes)
  | 0, _, _ => .ok []
  | fuel + 1, list, k =>
    let e := le list 0 4
    let rest := gatherRows s bytes n base fuel (list.drop 4) (k + 1)
    if bit e 31 then rest.map fun l => List.replicate n 0 :: l
    else
      let o := base + fld e 28 0
      if fld e 30 29 ≠ 0 ∨ s.cueMayRead (o * 64) bytes = false then .error (.gather k (fld e 28 0))
      else rest.map fun l => s.memRead (o * 64) n :: l

/-- Rows of a gathered A operand (R276, R277). -/
def State.aGather (s : State) (a : Nat) (c : StreamCue) : Except CueErr ARows :=
  if c.mMajor = true ∨ 3 < c.mode ∨ c.ascale = 1 then .error .illegal
  else match c.adds.line c.a (1 + (c.k + 15) / 16) with
    | none => .error .illegal
    | some l =>
      let head := s.wings a (l * 64) 64
      let n := rowBytes c.afmt c.m
      if le head 4 4 ≠ c.k then .error (.gather c.k (le head 4 4))
      else if le head 0 4 / 2 ^ 29 ≠ 0 ∨ leNat (head.drop 8) ≠ 0 then .error (.gather 0 (le head 0 4))
      else (gatherRows s (Max.max 1 (linesOf n) * 64) n (le head 0 4) c.k (s.wings a ((l + 1) * 64) (4 * c.k)) 0).map fun r => ⟨r, []⟩

/-- Rows of the A operand. -/
def State.aRows (s : State) (a : Nat) (c : StreamCue) : Except CueErr ARows :=
  if c.akind = 1 then s.aGather a c else s.aWings a c

/-- Stored row and element of step k, row m. -/
def StreamCue.aPlace (c : StreamCue) (k m : Nat) : Nat × Nat :=
  if c.window then (k / c.taps, m * c.wstride + k % c.taps * c.dil) else if c.mMajor then (m, k) else (k, m)

/-- Code of part `p` of the A element of step k, row m. -/
def StreamCue.aCode (c : StreamCue) (x : ARows) (k m p : Nat) : Nat :=
  let (i, j) := c.aPlace k m
  codeAt c.afmt (x.rows.getD i []) (j * c.parts c.afmt + p)

/-! ## The A operand's scale words -/

/-- Scale words of a STREAM: those of its own indices, and those its pre-scan reads (R159). -/
structure Scales where
  own  : List Nat := []
  scan : List Nat := []
  deriving DecidableEq, Repr, Inhabited

/-- Own scale words: one per K index (per channel in WINDOW) or one per row. -/
def StreamCue.ownScales (c : StreamCue) : Nat :=
  match c.ascale with | 1 => if c.window then c.k / c.taps else c.k | 2 => c.m | _ => 0

/-- The STREAM pre-scans (R159): it opens its bank, is an integer STREAM and has column scales. -/
def StreamCue.prescans (c : StreamCue) : Bool := c.opens && !c.isFloat && decide (c.ascale = 1)

/-- Reads the scale words; grids that may not stand on the format are illegal (R123, R146). -/
def State.aScales (s : State) (a : Nat) (c : StreamCue) : Except CueErr Scales :=
  if c.ascale = 0 then .ok {}
  else
    let own := c.ownScales
    let scan := if c.prescans then (if c.scan = 0 then own else c.scan) else 0
    match c.adds.line c.sa (linesOf (2 * Max.max own scan)) with
    | none => .error .illegal
    | some l =>
      let ws := wordsOf (s.wings a (l * 64) (2 * Max.max own scan)) (Max.max own scan)
      if (ws.all fun v => gridOk c.isFloat c.afmt v) = false then .error .format
      else .ok ⟨ws.take own, ws.take scan⟩

/-- Index of the scale word of step k, row m among the own words. -/
def StreamCue.scaleIdx (c : StreamCue) (k m : Nat) : Nat := if c.ascale = 2 then m else if c.window then k / c.taps else k

/-- First mismatch of a stored row's tag with the scale words that apply to it (R164). -/
def tagMismatch (words : Nat → List Nat) : List Nat → Nat → Option (Nat × Nat × Nat)
  | [], _ => none
  | t :: ts, i => match (words i).find? fun v => scaleTag v ≠ t with
    | some v => some (i, scaleTag v, t)
    | none => tagMismatch words ts (i + 1)

/-- Compares tags where the operand is tagged and names scale words (R164). -/
def StreamCue.skew (c : StreamCue) (x : ARows) (sc : Scales) : Option CueErr :=
  if c.tagged = false ∨ c.ascale = 0 then none
  else
    let words (i : Nat) : List Nat :=
      if c.ascale = 2 ∧ c.mMajor then (sc.own.drop i).take 1 else if c.prescans then sc.scan else sc.own
    (tagMismatch words x.tags 0).map fun e => .skew e.1 e.2.1 e.2.2

/-! ## The B operand -/

/-- Bytes of one row vector of a band (R187). -/
def StreamCue.bVector (c : StreamCue) : Nat := rowBytes c.bfmt (128 * c.parts c.bfmt)

/-- Row vectors by band and step; none when they leave their bank. -/
def State.bRows (s : State) (a : Nat) (c : StreamCue) : Except CueErr (List (List Bytes)) :=
  let v := c.bVector
  match c.adds.shelfAddr c.b (c.k * v) with
  | none => .error .illegal
  | some (bank, row) => .ok ((List.range (bands c.shape)).map fun b =>
      (List.range c.k).map fun k => s.shelfRead a ((bank + b) % 8) (row * 256 + k * v) v)

/-- Code of part `p` of the B element of step k, column n. -/
def StreamCue.bCode (c : StreamCue) (rows : List (List Bytes)) (k n p : Nat) : Nat :=
  codeAt c.bfmt ((rows.getD (n / 128) []).getD k []) (n % 128 * c.parts c.bfmt + p)

/-- B scale words by column (R158). -/
def State.bScales (s : State) (a : Nat) (c : StreamCue) : Except CueErr (List Nat) :=
  if c.bscale = false then .ok []
  else match c.adds.shelfAddr c.sb 256 with
    | none => .error .illegal
    | some (bank, row) =>
      let ws := (List.range (bands c.shape)).flatMap fun b => wordsOf (s.shelfRead a ((bank + b) % 8) (row * 256) 256) 128
      if ((ws.take c.n).all fun v => gridOk c.isFloat c.bfmt v) = false then .error .format else .ok ws

/-- Bias vector by column as 32-bit codes (R171). -/
def State.biasWords (s : State) (a : Nat) (c : StreamCue) : Except CueErr (Option (List Nat)) :=
  if c.bias = false then .ok none
  else match c.adds.shelfAddr c.biasAt 512 with
    | none => .error .illegal
    | some (bank, row) => .ok (some ((List.range (bands c.shape)).flatMap fun b =>
        (List.range 128).map fun i => le (s.shelfRead a ((bank + b) % 8) (row * 256) 512) (4 * i) 4))

/-- Everything a STREAM's feeders read. -/
structure Operand where
  arows : ARows
  ascale : Scales
  brows : List (List Bytes)
  bscale : List Nat
  bias  : Option (List Nat)
  table : List Nat
  deriving Inhabited

/-- Reads the operands, or the first error (R164, R219, R233, R277). -/
def State.operand (s : State) (a : Nat) (c : StreamCue) : Except CueErr Operand := do
  let ar ← s.aRows a c
  let sc ← s.aScales a c
  let br ← s.bRows a c
  let bs ← s.bScales a c
  let bi ← s.biasWords a c
  match c.skew ar sc with
  | some e => .error e
  | none => .ok ⟨ar, sc, br, bs, bi, s.tg8Table a c.tg8⟩

/-- Exact A element of a floating STREAM. -/
def StreamCue.aExact (c : StreamCue) (o : Operand) (k m p : Nat) : FV :=
  loadExact o.table c.afmt (c.aCode o.arows k m p) (if c.ascale = 0 then none else o.ascale.own[c.scaleIdx k m]?)

/-- Exact B element of a floating STREAM. -/
def StreamCue.bExact (c : StreamCue) (o : Operand) (k n p : Nat) : FV :=
  loadExact o.table c.bfmt (c.bCode o.brows k n p) (if c.bscale then o.bscale[n]? else none)

/-- s_top of R159 from the words a pre-scan reads. -/
def scanTop (f : Nat) (ws : List Nat) : Int :=
  match ws with
  | [] => 15
  | v :: vs => vs.foldl (fun t x => Max.max t (scaleShift x + qOf f)) (scaleShift v + qOf f)

/-- A element of an integer STREAM (R126, R159): with column scales it is aligned to σ + 15. -/
def StreamCue.aInt (c : StreamCue) (o : Operand) (sigma : Int) (k m : Nat) : Int × Exc :=
  let code := loadInt c.afmt (c.aCode o.arows k m 0)
  if c.ascale = 1 then loadAligned code (scaleShift (o.ascale.own.getD (c.scaleIdx k m) 0) - sigma)
  else (code, {})

end Sys2Proof.Machine
end

