-- ==== Sys2Proof/Machine/Tensor.lean ====
section
/-! DEFINITION. Accumulation: what a STREAM leaves in the accumulator banks (R124, R125, R135 to R144, R168 to R172). -/

namespace Sys2Proof.Machine

open Sys2Proof.Bits Sys2Proof.Num

/-- Unit exponent of FP64 partials. -/
def f64Unit : Int := -2400

/-- A cell of a bank; one that is masked since the bank's open holds a free value (R189). -/
def AccBank.cell (b : AccBank) (m n : Nat) : Int :=
  match (b.cells[m]?).bind fun r => r[n]? with
  | some v => v
  | none =>
    let v := Config.freeNat (b.seed + m * 1024 + n)
    if b.fp then ((v % 2 ^ 32 : Nat) : Int) else if b.kind = 2 then (v : Int) else toInt 48 v

/-- The cells after a STREAM: `f` gives those of its tile, the others stay. -/
def AccBank.update (b : AccBank) (m n : Nat) (f : Nat → Nat → Int) : List (List Int) :=
  let rows := Max.max m b.cells.length
  let cols := Max.max n ((b.cells.headD []).length)
  (List.range rows).map fun i => (List.range cols).map fun j => if i < m ∧ j < n then f i j else b.cell i j

/-- Steps of one cell of an FP32 bank, in order (R124, R170). -/
def stepsFp (bank : Nat) (l : List (FV × FV)) : Nat × Exc :=
  l.foldl (fun s p => let r := macFp32 s.1 p.1 p.2; (r.1, s.2.or r.2)) (bank, {})

/-- Steps of one cell of an integer bank, in order (R125). -/
def stepsInt (bank : Int) (l : List (Int × Int)) : Int × Exc :=
  l.foldl (fun s p => let r := macInt s.1 p.1 p.2; (r.1, s.2.or r.2)) (bank, {})

/-- Flags of every pair of a list. -/
def excs {α : Type} (l : List (α × Exc)) : Exc := l.foldl (fun e x => e.or x.2) {}

/-- All indices of a tile. -/
def tile (m n : Nat) : List (Nat × Nat) := (List.range m).flatMap fun i => (List.range n).map fun j => (i, j)

/-- Initial value of a cell: the bias of its column or zero when the STREAM opens the bank, else what it holds (R171). -/
def StreamCue.initial (c : StreamCue) (o : Operand) (b : AccBank) (biased : Bool) (m n : Nat) : Int :=
  if c.opens then
    match o.bias with
    | some v =>
      if biased then (if c.isFloat then ((v.getD n 0 : Nat) : Int) else toInt 32 (v.getD n 0)) else 0
    | none => 0
  else b.cell m n

/-! ## Real STREAMs -/

/-- Operand elements of each pass, A and B, of a floating STREAM: hi and lo of R135, or the one load of R126. -/
structure Halves where
  hi : FV
  lo : FV
  exc : Exc
  deriving Inhabited

def StreamCue.halves (c : StreamCue) (f : Nat) (x : FV) : Halves :=
  if c.mode = 0 ∨ 3 < c.mode then let r := loadFp19 c.trunc f x; ⟨r.1, .zero, r.2⟩ else let r := split32 x; ⟨r.1, r.2.1, r.2.2⟩

/-- Operand pairs of one cell over all passes (R135). -/
def StreamCue.floatSteps (c : StreamCue) (a b : Nat → Halves) : List (FV × FV) :=
  let ks := List.range c.k
  let p1 := ks.map fun k => ((a k).hi, (b k).hi)
  let p2 := ks.map fun k => ((a k).lo, (b k).hi)
  let p3 := ks.map fun k => ((a k).hi, (b k).lo)
  match c.mode with
  | 2 => p1 ++ p2
  | 3 => p1 ++ p2 ++ p3
  | _ => p1

/-- What a STREAM makes of a bank: its cells as a function of the tile, and the flags it raises. -/
structure Accum where
  cell : Nat → Nat → Int
  exc  : Exc

/-- A real floating STREAM. -/
def StreamCue.accFloat (c : StreamCue) (o : Operand) (b : AccBank) : Accum :=
  let av (m k : Nat) : Halves := c.halves c.afmt (c.aExact o k m 0)
  let bv (n k : Nat) : Halves := c.halves c.bfmt (c.bExact o k n 0)
  let run (m n : Nat) : Nat × Exc := stepsFp (c.initial o b true m n).toNat (c.floatSteps (av m) (bv n))
  let loads := ((tile c.m c.k).foldl (fun e x => e.or (av x.1 x.2).exc) ({} : Exc)).or
    ((tile c.n c.k).foldl (fun e x => e.or (bv x.1 x.2).exc) {})
  { cell := fun m n => ((run m n).1 : Int)
    exc := loads.or ((tile c.m c.n).foldl (fun e x => e.or (run x.1 x.2).2) {}) }

/-- A real integer STREAM. -/
def StreamCue.accInt (c : StreamCue) (o : Operand) (b : AccBank) (sigma : Int) : Accum :=
  let av (m k : Nat) : Int × Exc := c.aInt o sigma k m
  let bv (n k : Nat) : Int := loadInt c.bfmt (c.bCode o.brows k n 0)
  let run (m n : Nat) : Int × Exc := stepsInt (c.initial o b true m n) ((List.range c.k).map fun k => ((av m k).1, bv n k))
  let loads := (tile c.m c.k).foldl (fun e x => e.or (av x.1 x.2).2) ({} : Exc)
  { cell := fun m n => (run m n).1
    exc := loads.or ((tile c.m c.n).foldl (fun e x => e.or (run x.1 x.2).2) {}) }

/-! ## Complex STREAMs (R137, R138) -/

/-- Pairs of one cell's real bank and imaginary bank, from the parts of its operands, by k. -/
def complexSteps {α : Type} (neg : α → α) (add : α → α → α) (three : Bool) (k : Nat) (ar ai br bi : Nat → α) :
    List (α × α) × List (α × α) :=
  let ks := List.range k
  let rr := ks.map fun k => (ar k, br k)
  let ii := ks.map fun k => (neg (ai k), bi k)
  if three then
    (rr ++ ii, (ks.map fun k => (neg (ar k), br k)) ++ ii ++ (ks.map fun k => (add (ar k) (ai k), add (br k) (bi k))))
  else (rr ++ ii, (ks.map fun k => (ar k, bi k)) ++ (ks.map fun k => (ai k, br k)))

/-- Sum of two parts on an FP19 path, and on an INT16 path (R138). -/
def add19 (x y : FV) : FV × Exc := let s := x.add y; let r := fp19.round s.1; (r.1, s.2.or r.2)
def add16 (x y : Int) : Int × Exc :=
  let s := x + y
  if 32767 < s then (32767, { sat := true }) else if s < -32768 then (-32768, { sat := true }) else (s, {})

/-- The real and the imaginary bank of a complex STREAM over floating pairs. -/
def StreamCue.accComplexFp (c : StreamCue) (o : Operand) (b0 b1 : AccBank) : Accum × Accum :=
  let three := decide (c.mode = 4)
  let av (p m k : Nat) : FV := (loadFp19 false c.afmt (c.aExact o k m p)).1
  let bv (p n k : Nat) : FV := (loadFp19 false c.bfmt (c.bExact o k n p)).1
  let steps (m n : Nat) := complexSteps FV.neg (fun x y => (add19 x y).1) three c.k (av 0 m) (av 1 m) (bv 0 n) (bv 1 n)
  let re (m n : Nat) : Nat × Exc := stepsFp (c.initial o b0 true m n).toNat (steps m n).1
  let im (m n : Nat) : Nat × Exc := stepsFp (c.initial o b1 false m n).toNat (steps m n).2
  let sums := if three then
      ((tile c.m c.k).foldl (fun e x => e.or (add19 (av 0 x.1 x.2) (av 1 x.1 x.2)).2) ({} : Exc)).or
        ((tile c.n c.k).foldl (fun e x => e.or (add19 (bv 0 x.1 x.2) (bv 1 x.1 x.2)).2) {})
    else {}
  (⟨fun m n => ((re m n).1 : Int), sums.or ((tile c.m c.n).foldl (fun e x => e.or (re x.1 x.2).2) {})⟩,
   ⟨fun m n => ((im m n).1 : Int), (tile c.m c.n).foldl (fun e x => e.or (im x.1 x.2).2) {}⟩)

/-- The real and the imaginary bank of a complex STREAM over CI16. -/
def StreamCue.accComplexInt (c : StreamCue) (o : Operand) (b0 b1 : AccBank) : Accum × Accum :=
  let three := decide (c.mode = 4)
  let part (v p : Nat) : Int := toInt 16 (v / 2 ^ (16 * p))
  let av (p m k : Nat) : Int := part (c.aCode o.arows k m 0) p
  let bv (p n k : Nat) : Int := part (c.bCode o.brows k n 0) p
  let steps (m n : Nat) := complexSteps (fun x : Int => -x) (fun x y => (add16 x y).1) three c.k (av 0 m) (av 1 m) (bv 0 n) (bv 1 n)
  let re (m n : Nat) : Int × Exc := stepsInt (c.initial o b0 true m n) (steps m n).1
  let im (m n : Nat) : Int × Exc := stepsInt (c.initial o b1 false m n) (steps m n).2
  let sums := if three then
      ((tile c.m c.k).foldl (fun e x => e.or (add16 (av 0 x.1 x.2) (av 1 x.1 x.2)).2) ({} : Exc)).or
        ((tile c.n c.k).foldl (fun e x => e.or (add16 (bv 0 x.1 x.2) (bv 1 x.1 x.2)).2) {})
    else {}
  (⟨fun m n => (re m n).1, sums.or ((tile c.m c.n).foldl (fun e x => e.or (re x.1 x.2).2) {})⟩,
   ⟨fun m n => (im m n).1, (tile c.m c.n).foldl (fun e x => e.or (im x.1 x.2).2) {}⟩)

/-! ## FP64 by slicing (R139 to R144) -/

/-- Largest exponent of the finite non-zero elements, none when there is none (R139). -/
def topExp (l : List FV) : Option Int :=
  l.foldl (fun t x => if x.isZero || x.isNan || x.isInf then t else
    match t with | none => some x.dy.log2 | some e => some (Max.max e x.dy.log2)) none

/-- The aligned magnitude of an element, with its sign (R139, R140); NaN and infinities give zero slices (R144). -/
def aligned64 (top : Option Int) (x : FV) : Int :=
  match top with
  | none => 0
  | some e => if x.isNan || x.isInf then 0 else
    let v := ((x.dy.abs).scale (55 - e)).roundEven
    if x.isNeg then -v else v

/-- Slice i (1 to 4) of an aligned element (R139). -/
def slice64 (v : Int) (i : Nat) : Int :=
  let u := v.natAbs / 2 ^ (14 * (4 - i))
  let u := if i = 1 then u else u % 2 ^ 14
  if v < 0 then -(u : Int) else u

/-- The slice pairs of a mode (R141). -/
def slicePairs (sixteen : Bool) : List (Nat × Nat) :=
  (tile 4 4).map (fun p => (p.1 + 1, p.2 + 1)) |>.filter fun p => sixteen || decide (p.1 + p.2 ≤ 5)

/-- Weighted sum over the classes of one product of aligned elements (R142). -/
def product64 (pairs : List (Nat × Nat)) (x y : Int) : Int :=
  pairs.foldl (fun t p => t + slice64 x p.1 * slice64 y p.2 * (2 ^ (14 * (8 - p.1 - p.2)) : Nat)) 0

/-- What an FP64 STREAM makes of a tile: cells, and rows and columns with infinities and NaNs. -/
structure Accum64 where
  cell : Nat → Nat → Int
  infA : List Nat
  infB : List Nat
  nanA : List Nat
  nanB : List Nat

/-- An FP64 STREAM. -/
def StreamCue.acc64 (c : StreamCue) (o : Operand) (b : AccBank) : Accum64 :=
  let ks := List.range c.k
  let av (m k : Nat) : FV := fp64.decode (c.aCode o.arows k m 0)
  let bv (n k : Nat) : FV := fp64.decode (c.bCode o.brows k n 0)
  let ea (m : Nat) := topExp (ks.map (av m))
  let eb (n : Nat) := topExp (ks.map (bv n))
  let pairs := slicePairs (decide (c.mode = 7))
  let bias (m n : Nat) : Int :=
    if c.opens then match o.bias with
      | some v => let d := (fp32.decode (v.getD n 0)).dy; d.m * (2 ^ (d.e - f64Unit).toNat : Nat)
      | none => 0
    else b.cell m n
  let value (m n : Nat) : Int :=
    let p := ks.foldl (fun t k => t + product64 pairs (aligned64 (ea m) (av m k)) (aligned64 (eb n) (bv n k))) 0
    bias m n + p * (2 ^ ((ea m).getD 0 + (eb n).getD 0 - 110 - f64Unit).toNat : Nat)
  let pick (cnt : Nat) (f : Nat → FV → Bool) (g : Nat → Nat → FV) : List Nat :=
    (List.range cnt).filter fun i => ks.any fun k => f i (g i k)
  { cell := value
    infA := pick c.m (fun _ x => x.isInf) av
    infB := pick c.n (fun _ x => x.isInf) bv
    nanA := pick c.m (fun _ x => x.isNan) av
    nanB := pick c.n (fun _ x => x.isNan) bv }

/-! ## The banks after a STREAM -/

/-- Flags and bookkeeping of a bank: an opening STREAM sets its format. -/
def StreamCue.keep (c : StreamCue) (o : Operand) (b : AccBank) (ring seed : Nat) (sigma : Int) : AccBank :=
  let b := if c.opens then { opened := true, fp := c.isFloat && decide (c.kind ≠ 2), kind := c.kind, shape := c.shape, seed := seed } else b
  { b with
    owner := ring, drained := false
    cols := if c.opens then decide (c.ascale = 1) && !c.isFloat else b.cols
    sigma := sigma
    rho := if c.ascale = 2 ∧ c.isFloat = false then some (o.ascale.own.map scaleShift) else b.rho }

/-- σ that the STREAM's bank has (R159). -/
def StreamCue.sigma (c : StreamCue) (o : Operand) (b : AccBank) : Int :=
  if c.opens then (if c.prescans then scanTop c.afmt o.ascale.scan - 15 else 0) else b.sigma

/-- An array's banks after a STREAM. -/
def StreamCue.stream (c : StreamCue) (o : Operand) (x : Arr) (ring seed : Nat) : Arr :=
  let set (b : AccBank) (r : Accum) (sigma : Int) : AccBank :=
    let k := c.keep o b ring seed sigma
    { k with cells := k.update c.m c.n r.cell, exc := k.exc.or r.exc }
  match c.kind with
  | 1 =>
    let (re, im) := if c.afmt = 0xE then c.accComplexInt o x.bank0 x.bank1 else c.accComplexFp o x.bank0 x.bank1
    { x with bank0 := set x.bank0 re 0, bank1 := set x.bank1 im 0 }
  | 2 =>
    let r := c.acc64 o x.bank0
    let k := c.keep o x.bank0 ring seed 0
    let b := { k with
      cells := k.update c.m c.n r.cell
      infA := k.infA ++ r.infA, infB := k.infB ++ r.infB, nanA := k.nanA ++ r.nanA, nanB := k.nanB ++ r.nanB }
    { x with bank0 := b, bank1 := { b with cells := [] } }
  | _ =>
    let b := if x.front = 0 then x.bank0 else x.bank1
    let sg := c.sigma o b
    let b := set b (if c.isFloat then c.accFloat o b else c.accInt o b sg) sg
    if x.front = 0 then { x with bank0 := b } else { x with bank1 := b }

/-- Passes of a mode (R135, R137, R141). -/
def StreamCue.passes (c : StreamCue) : Nat :=
  match c.mode with | 2 => 2 | 3 => 3 | 4 => 3 | 5 => 4 | 6 => 10 | 7 => 16 | _ => 1

/-- Banks a STREAM writes. -/
def StreamCue.banks (c : StreamCue) (x : Arr) : List Nat := if c.kind = 0 then [x.front] else [0, 1]

/-- What the bank's present contents forbid (R159, R160, R172, R180). -/
def StreamCue.bankError (c : StreamCue) (x : Arr) : Option CueErr :=
  if c.opens then none
  else
    let b := if c.kind ≠ 0 ∨ x.front = 0 then x.bank0 else x.bank1
    let other := if c.kind = 0 then b else x.bank1
    let fp := c.isFloat && decide (c.kind ≠ 2)
    if b.opened = false ∨ other.opened = false ∨ b.fp ≠ fp then some .format
    else if b.shape ≠ c.shape then some .shape
    else if fp = false ∧ c.kind = 0 ∧ b.cols ≠ decide (c.ascale = 1) then some .format
    else if fp = false ∧ c.ascale = 2 ∧ b.rho.isSome then some .format
    else none

/-- Errors a STREAM shows in its issue cycle without reading an operand (R123, R158, R172, R180). -/
def StreamCue.issueError (c : StreamCue) (x : Arr) : Option CueErr :=
  if c.formatsOk = false ∨ c.scalesOk = false then some .format
  else if c.shapeOk = false then some .shape
  else c.bankError x

end Sys2Proof.Machine
end

