-- ==== Sys2Proof/Machine/Drain.lean ====
section
/-! DEFINITION. The drain: rows through the post-ops of R192 to their destination, the scale ledger (R149 to R157, R161 to
R163, R508, R509), the completion record (R133, R254) and tensor watch (R448, R449). -/

namespace Sys2Proof.Machine

open Sys2Proof.Bits Sys2Proof.Num

/-- Fields of a DRAIN cue (R220), the list's additions beside them. -/
structure DrainCue where
  dest   : Nat
  fmt    : Nat
  act    : Nat
  resid  : Bool
  rfmt   : Nat
  record : Bool
  close  : Bool
  watch  : Bool
  folded : Bool
  sat    : Bool
  m      : Nat
  shape  : Nat
  n      : Nat
  base   : Nat
  stride : Nat
  width  : Nat
  at_    : Nat
  sv     : Nat
  fold   : Nat
  lo     : Nat
  hi     : Nat
  adds   : Adds
  deriving DecidableEq, Repr, Inhabited

/-- The store format is floating: its elements carry no scale word (R145, R195). -/
def DrainCue.float (c : DrainCue) : Bool := decide (4 ≤ c.fmt) && decide (c.fmt ≤ 0xA)

/-- Reads the fields of a DRAIN. -/
def drainCue (r : Run) (x : Adds) (ws : List Nat) : DrainCue :=
  let w1 := w ws 1
  let w2 := w ws 2
  let w3 := w ws 3
  { dest := fld w1 31 30, fmt := fld w1 29 26, act := fld w1 25 23, resid := bit w1 22, rfmt := fld w1 21 18, record := bit w1 17
    close := bit w1 16, watch := bit w1 15, folded := bit w1 14, sat := bit w1 13, m := rowsOf r ws (fld w1 12 5), shape := fld w1 4 2
    n := fld w2 31 21, base := fld w2 20 9, stride := fld w2 8 1, width := [16, 8, 9, 12, 14].getD (fld w3 31 29) 16
    at_ := fld w3 28 0, sv := fld (w ws 4) 31 17, fold := fld (w ws 4) 16 2, lo := w ws 5, hi := w ws 6, adds := x }

/-! ## Channel records (R166) -/

def Rec.mu (r : Rec) : Int := toInt 32 r.img
def Rec.base (r : Rec) : Nat := fld r.img 39 32
def Rec.flagsByte (r : Rec) : Nat := fld r.img 47 40
def Rec.isFolded (r : Rec) : Bool := bit r.flagsByte 7
def Rec.halfUp (r : Rec) : Bool := bit r.flagsByte 6
def Rec.fallGrid (r : Rec) : Nat := fld r.flagsByte 5 4
def Rec.headroom (r : Rec) : Nat := if r.fall then fld r.flagsByte 1 0 else fld r.flagsByte 3 2
def Rec.window (r : Rec) : Nat := Max.max 1 (fld r.img 51 48)
def Rec.runN (r : Rec) : Nat := fld r.img 55 52
def Rec.seed (r : Rec) : Nat := fld r.img 63 56
def Rec.threshold (r : Rec) : Nat := fld r.img 79 64
def Rec.table (r : Rec) : Nat := fld r.img 81 80
def Rec.foldShift (r : Rec) : Nat := fld r.img 95 88
def Rec.tag (r : Rec) : Nat := r.step % 16

/-- Record `i` of an array. -/
def State.chanRec (s : State) (a i : Nat) : Rec := Sparse.read (fun _ => {}) (s.arrAt a).recs i

/-- Sets record `i` of an array. -/
def State.setChanRec (s : State) (a i : Nat) (r : Rec) : State :=
  s.modArr a fun x => { x with recs := Sparse.write (fun _ => {}) x.recs i r }

/-- A record at step 0 of an accession (R152): shift = seed shift, uniform grid. -/
def Rec.start (img acc : Nat) : Rec := let r : Rec := { img := img, acc := some acc }; { r with cur := r.seed % 128 }

/-- The grid a channel's codes are on: the format, or the active fallback grid (R155, R156). -/
def gridFmt (r : Option Rec) (fmt : Nat) : Nat :=
  match r with
  | some x => if x.fall then (if x.fallGrid = 1 ∧ fmt = 3 then 0xB else if x.fallGrid = 2 ∧ fmt = 0 then 0xC else fmt) else fmt
  | none => fmt

/-- Levels of a grid format with the TG8 table of the record, or table 0 (R146). -/
def State.gridOf (s : State) (a : Nat) (r : Option Rec) (fmt : Nat) : List (Nat × FV) :=
  if fmt = 0xB then bg4Pairs else tg8Pairs (s.tg8Table a (match r with | some x => x.table | none => 0))

/-! ## Shifts (R150, R151) -/

/-- Largest level magnitude. -/
def topLevel (pairs : List (Nat × FV)) : Dy := pairs.foldl (fun t p => if t.lt p.2.dy.abs then p.2.dy.abs else t) ⟨0, 0⟩

/-- g of a grid format. -/
def gridG (pairs : List (Nat × FV)) (fmt : Nat) : Int :=
  match fmt with
  | 3 => 2 | 0 => 6 | 1 => 7 | 0xB => 0
  | 0xC => let t := topLevel pairs; if t.m = 0 then 0 else t.log2
  | _ => 14

/-- A magnitude reaches the clip limit of a grid: storing it raises SA. -/
def clipsAt (pairs : List (Nat × FV)) (fmt : Nat) (x : Dy) : Bool :=
  if fmt = 0xB ∨ fmt = 0xC then
    let top := topLevel pairs
    let onTop := pairs.any fun p => !p.2.isNeg && decide (p.2.dy.abs.le top) && decide (top.le p.2.dy.abs)
    gridClips pairs (if onTop then x else x.neg)
  else
    let twice : Int := match fmt with | 3 => 15 | 0 => 255 | 1 => 511 | _ => 65535
    Dy.le ⟨twice, -1⟩ x

/-- shift_for of R150. -/
def shiftFor (m : Dy) (pairs : List (Nat × FV)) (fmt h : Nat) : Int :=
  if m.m = 0 then -64
  else
    let s := m.log2 - gridG pairs fmt + h
    let s := if h = 0 ∧ clipsAt pairs fmt (m.scale (-s)) = true then s + 1 else s
    Min.min (Max.max s (-64)) 63

/-! ## Post-ops -/

/-- Activation (R193); codes 4 to 7 lie within two units in the last place, wherever Config places them. -/
def activate (c lo hi : Nat) (x : FV) : FV × Exc :=
  let one : FV := .fin false 1 0
  let free (f : Dy → Int → Nat) : FV × Exc :=
    let code := f x.dy (Config.elemOffset c (fp32.encode .nearest false x).1)
    (fp32.decode code, { unf := !x.isZero && decide (code % 2 ^ 31 < 2 ^ 23) })
  match c with
  | 1 => (x.max .zero, {})
  | 2 => ((x.max (fp32.decode lo)).min (fp32.decode hi), {})
  | 3 => if x.isNan then (.nan, {}) else if FV.le .zero x then (x, {}) else mulFp32 (fp32.decode lo) x
  | 4 => match x with | .nan => (.nan, {}) | .inf n => (if n then .zero else one, {}) | .fin _ _ _ => free Elem.logisticFp32
  | 5 => match x with | .nan => (.nan, {}) | .inf n => (if n then one.neg else one, {}) | .fin _ _ _ => free Elem.tanhFp32
  | 6 => match x with | .nan => (.nan, {}) | .inf n => (if n then FV.neg .zero else .inf false, {}) | .fin _ _ _ => free Elem.geluFp32
  | 7 => match x with | .nan => (.nan, {}) | .inf n => (if n then FV.neg .zero else .inf false, {}) | .fin _ _ _ => free Elem.siluFp32
  | _ => (x, {})

/-- What the drain makes of one part of an element: the value stage 6 quantises (R195), the code, flags, and a clip event. -/
structure Cell where
  x    : FV
  code : Nat
  exc  : Exc
  clip : Bool
  /-- Code of the folded channel's slot. -/
  foldCode : Nat := 0
  deriving Inhabited

/-- Integer formats, the two CI16 parts among them. -/
def isInt (f : Nat) : Bool := f < 4 || f == 0xE

/-- Format of one stored part. -/
def partFmt (f : Nat) : Fmt := if f = 0xE then .int16 else (Fmt.ofCode f).getD .int8

/-- Stage 6 on a value (R127, R149, R162). -/
def storeValue (c : DrainCue) (pairs : List (Nat × FV)) (r : Option Rec) (x : FV) : Nat × Exc :=
  let g := gridFmt r c.fmt
  let sh : Int := match r with | some y => scaleShift y.cur | none => 0
  let scaled := match x with | .fin n m e => FV.fin n m (e - sh) | y => y
  if g = 0xB ∨ g = 0xC then gridStore (partFmt g) pairs scaled
  else if isInt g then intStore (partFmt g) scaled
  else match (partFmt g).ffmt with
    | some f => f.encode .nearest c.sat x
    | none => (0, {})

/-- Rounding of R161: to nearest even, or half-up under the record's bit. -/
def roundRec (r : Option Rec) (v : Dy) : Int := match r with | some y => if y.halfUp then v.roundHalfUp else v.roundEven | none => v.roundEven

/-- Stage 2: the integer route (R161, R162, R509). -/
def integerRoute (c : DrainCue) (pairs : List (Nat × FV)) (r : Option Rec) (sigma rho acc : Int) : Cell :=
  let fold := c.folded && (match r with | some y => y.isFolded | none => false)
  match r with
  | some y =>
    if fold then
      let v : Dy := ⟨acc, -(y.foldShift : Int)⟩
      let k := Fmt.int16.storeInt v v.roundEven
      ⟨(fp32.round (FV.ofDy false (v.scale (y.foldShift + sigma)))).1, 0, k.2, k.2.sat, k.1⟩
    else
      let v : Dy := ⟨acc * y.mu, -((y.base : Int) + scaleShift y.cur - sigma - rho)⟩
      let g := gridFmt r c.fmt
      let k := if g = 0xB ∨ g = 0xC then gridStore (partFmt g) pairs (FV.ofDy false v) else (partFmt g).storeInt v (roundRec r v)
      ⟨(fp32.round (FV.ofDy false (v.scale (scaleShift y.cur)))).1, k.1, k.2, k.2.sat, 0⟩
  | none =>
    let v : Dy := ⟨acc, sigma + rho⟩
    let k := (partFmt c.fmt).storeInt v v.roundEven
    ⟨(fp32.round (FV.ofDy false v)).1, k.1, k.2, k.2.sat, 0⟩

/-- Stage 3: the FP32 value of an integer bank (R161, last paragraph); without a record, or for a folded channel (R162), no
multiplier applies. -/
def toFp32 (r : Option Rec) (sigma rho acc : Int) : FV × Exc :=
  match r with
  | some y => fp32.round (FV.ofDy false ⟨acc * y.mu, sigma + rho - y.base⟩)
  | none => fp32.round (FV.ofDy false ⟨acc, sigma + rho⟩)

/-- Stages 4 to 6 on an FP32 value. -/
def floatRoute (c : DrainCue) (pairs : List (Nat × FV)) (r : Option Rec) (resid : Option FV) (x : FV) (e : Exc) : Cell :=
  let (x, e) := match resid with | some y => let q := addFp32 x y; (q.1, e.or q.2) | none => (x, e)
  let (y, e2) := activate c.act c.lo c.hi x
  let e := e.or e2
  let fold := c.folded && (match r with | some q => q.isFolded | none => false)
  match r with
  | some q =>
    if fold then
      let v := match y with | .fin n m ex => FV.fin n m (ex - q.foldShift) | z => z
      let k := intStore .int16 v
      ⟨y, 0, e.or k.2, k.2.sat, k.1⟩
    else let k := storeValue c pairs r y; ⟨y, k.1, e.or k.2, k.2.sat, 0⟩
  | none => let k := storeValue c pairs none y; ⟨y, k.1, e.or k.2, k.2.sat, 0⟩

/-- Value of an FP64 tile's element (R142, R144), as an FP64 code. -/
def AccBank.value64 (b : AccBank) (sat : Bool) (m n : Nat) : Nat × Exc :=
  if b.nanA.contains m ∨ b.nanB.contains n then (fp64.nan, {})
  else if b.infA.contains m ∨ b.infB.contains n then (fp64.nan, { nv := true })
  else fp64.encode .nearest sat (FV.ofDy false ⟨b.cell m n, f64Unit⟩)

/-- The bank takes the integer route (stage 2 of R192). -/
def AccBank.intRoute (b : AccBank) (c : DrainCue) : Bool := decide (b.kind ≠ 2) && !b.fp && isInt c.fmt && !c.resid && decide (c.act = 0)

/-- One part of an element through the drain. -/
def drainPart (c : DrainCue) (b : AccBank) (pairs : List (Nat × FV)) (r : Option Rec) (resid : Option FV) (m n : Nat) : Cell :=
  let rho := match b.rho with | some l => l.getD m 0 | none => 0
  if b.kind = 2 then
    let v := b.value64 c.sat m n
    if c.fmt = 0xA ∧ resid.isNone = true ∧ c.act = 0 then ⟨fp64.decode v.1, v.1, v.2, false, 0⟩
    else let q := fp32.encode .nearest c.sat (fp64.decode (b.value64 false m n).1); floatRoute c pairs r resid (fp32.decode q.1) (v.2.or q.2)
  else if b.fp then floatRoute c pairs r resid (fp32.decode (b.cell m n).toNat) {}
  else if isInt c.fmt ∧ resid.isNone = true ∧ c.act = 0 then integerRoute c pairs r b.sigma rho (b.cell m n)
  else
    let q := toFp32 (if c.folded && r.any Rec.isFolded then none else r) b.sigma rho (b.cell m n)
    floatRoute c pairs r resid q.1 q.2

/-! ## BFP-IQ blocks (R127, R508) -/

/-- Mantissa of a finite value under exponent e. -/
def mantissa (x : FV) (e : Nat) : Int := (x.dy.scale (-(e : Int))).roundEven

/-- A value fits w bits under exponent e. -/
def fits (w : Nat) (x : FV) (e : Nat) : Bool :=
  let v := mantissa x e
  decide (-(2 ^ (w - 1) : Nat) ≤ v) && decide (v < (2 ^ (w - 1) : Nat))

/-- Smallest exponent of 0 to 15 under which every finite value fits, else 15. -/
def blockExp (w : Nat) (xs : List FV) : Nat :=
  let fin := xs.filter fun x => !x.isNan && !x.isInf
  ((List.range 16).find? fun e => fin.all fun x => fits w x e).getD 15

/-- Mantissas of a block, and their flags. -/
def blockCodes (w : Nat) (xs : List FV) : Nat × List (Nat × Exc) :=
  let e := blockExp w xs
  let top : Int := (2 ^ (w - 1) : Nat) - 1
  let code (x : FV) : Nat × Exc :=
    match x with
    | .nan => (0, { nv := true })
    | .inf n => (ofInt 16 (if n then -top - 1 else top), { sat := true })
    | .fin _ _ _ =>
      let v := mantissa x e
      if top < v then (ofInt 16 top, { sat := true }) else if v < -top - 1 then (ofInt 16 (-top - 1), { sat := true })
      else (ofInt 16 v, { unf := decide (v = 0) && !x.isZero })
  (e, xs.map code)

/-- A list cut into pieces of 24. -/
def blocksOf {α : Type} : Nat → List α → List (List α)
  | 0, _ => []
  | n + 1, l => l.take 24 :: blocksOf n (l.drop 24)

/-- Number of blocks of an output row. -/
def DrainCue.blocks (c : DrainCue) : Nat := (c.n + 23) / 24

/-! ## Rows -/

/-- Packs codes into bytes (R119). -/
def packRow (f : Nat) : List Nat → Bytes
  | [] => []
  | [x] => if fmtBits f = 4 then natLe 1 (x % 16) else natLe (fmtBits f / 8) x
  | x :: y :: l => if fmtBits f = 4 then natLe 1 (x % 16 + 16 * (y % 16)) ++ packRow f l else natLe (fmtBits f / 8) x ++ packRow f (y :: l)

/-- A drained tile: its rows of stored bytes, fold rows, scale words, cells by row and column part. -/
structure Drained where
  rows  : List Bytes
  folds : List Bytes
  scale : List Nat
  cells : List (List Cell)
  exc   : Exc
  deriving Inhabited

/-- The tile is complex. -/
def DrainCue.parts (b : AccBank) : Nat := if b.kind = 1 then 2 else 1

/-- Step tag of a DRAIN: that of its first record, or 0 (R147). -/
def State.drainTag (s : State) (a : Nat) (c : DrainCue) : Nat := if c.record then (s.chanRec a c.base).tag else 0

/-- Record of column n. -/
def State.recOf (s : State) (a : Nat) (c : DrainCue) (n : Nat) : Option Rec := if c.record then some (s.chanRec a (c.base + n)) else none

/-- Residual element of row m, part index i (R192). -/
def State.residual (s : State) (a : Nat) (c : DrainCue) (line m i : Nat) : FV :=
  match Fmt.ofCode c.rfmt with
  | some f => f.value (codeAt c.rfmt (s.wings a ((line + m * c.stride) * 64) (rowBytes c.rfmt (i + 1))) i)
  | none => .nan

/-- The folded columns of a group of 128, ascending (R162). -/
def State.foldCols (s : State) (a : Nat) (c : DrainCue) (g : Nat) : List Nat :=
  (List.range 128).map (· + 128 * g) |>.filter fun n => decide (n < c.n) && (match s.recOf a c n with | some r => r.isFolded | none => false)

/-- Groups of 128 columns. -/
def DrainCue.groups (c : DrainCue) : Nat := (c.n + 127) / 128

/-- Runs the tile through the drain. -/
def State.drainTile (s : State) (a : Nat) (c : DrainCue) (b0 b1 : AccBank) (residLine : Nat) : Drained :=
  let np := DrainCue.parts b0
  let col (n : Nat) := s.recOf a c n
  let grid (n : Nat) := let g := gridFmt (col n) c.fmt; if g = 0xB ∨ g = 0xC then s.gridOf a (col n) g else []
  let cell (m i : Nat) : Cell :=
    let n := i / np
    drainPart c (if i % np = 0 then b0 else b1) (grid n) (col n) (if c.resid then some (s.residual a c residLine m i) else none) m n
  let cells := (List.range c.m).map fun m => (List.range (c.n * np)).map fun i => cell m i
  let tag := s.drainTag a c
  let exc0 := cells.foldl (fun e row => row.foldl (fun e x => e.or x.exc) e) ({} : Exc)
  if c.fmt = 0xD then
    let blocks := cells.map fun row => (blocksOf c.blocks (row.map (·.x))).map (blockCodes c.width)
    let exc := blocks.foldl (fun e row => row.foldl (fun e x => e.or (excs x.2)) e) exc0
    { rows := blocks.map fun row => row.flatMap fun x => slice (packRow 2 (x.2.map (·.1))) 0 48
      folds := []
      scale := blocks.flatMap fun row => row.map fun x => tag * 512 + x.1
      cells := cells.zip blocks |>.map fun p => p.1.mapIdx fun i x =>
        { x with clip := (((p.2.getD (i / 24) (0, [])).2.getD (i % 24) (0, {})).2).sat }
      exc := exc }
  else
    let elem (row : List Cell) : List Nat :=
      if c.fmt = 0xE then (List.range c.n).map fun n => (row.getD (2 * n) default).code + 65536 * (row.getD (2 * n + 1) default).code
      else row.map (·.code)
    { rows := cells.map fun row => packRow c.fmt (elem row)
      folds := if c.folded then cells.map fun row => (List.range c.groups).flatMap fun g =>
          slice (packRow 2 ((s.foldCols a c g).map fun n => (row.getD (n * np) default).foldCode)) 0 16 else []
      scale := if c.record then
          (if c.float then [] else (List.range c.n).map fun n => match col n with
            | some r => r.tag * 512 + (if c.folded && r.isFolded then ofInt 7 (-64) else r.cur % 512)
            | none => 0) ++
          (if c.folded then (List.range c.groups).flatMap fun g => ((List.range 8).map fun j =>
              match ((s.foldCols a c g)[j]?).bind col with
              | some r => r.tag * 512 + ofInt 7 ((r.foldShift : Int) + (if b0.intRoute c then b0.sigma else 0))
              | none => 0) else [])
        else []
      cells := cells
      exc := exc0 }

/-! ## The ledger after a DRAIN (R153, R154) -/

/-- Folds the DRAIN's values and counts into a record (R153). -/
def Rec.gather (r : Rec) (cells : List Cell) : Rec :=
  let top := fp32.round (cells.foldl (fun t x => t.max x.x.abs) (fp32.decode r.smax)) |>.1
  { r with
    smax := (fp32.encode .nearest false top).1
    clips := (r.clips + (cells.filter (·.clip)).length) % 2 ^ 32
    elems := (r.elems + cells.length) % 2 ^ 32
    bad := top.isNan || top.isInf }

/-- Largest valid entry of a history, none when there is none. -/
def validMax (h : List Nat) : Option Dy :=
  (h.filter fun v => !(fp32.decode v).isNan).foldl (fun t v =>
    let d := (fp32.decode v).dy
    match t with | none => some d | some e => some (if e.lt d then d else e)) none

/-- Ends a step on a record (R154, R156, R157): the new record, whether the step was invalid, and whether fallback begins, which a
folded channel's never does (R162).
`pairs` are the levels of a grid by format. -/
def Rec.closeStep (r : Rec) (fmt : Nat) (pairs : Nat → List (Nat × FV)) : Rec × Bool × Bool :=
  let hist := ((if r.bad then fp32.nan else r.smax) :: r.hist).take r.window
  let above := decide (r.threshold * r.elems < r.clips * 65536)
  let run := if r.clear then 0 else if above then Min.min 15 (r.run + 1) else 0
  let starts := !r.clear && !r.fall && !r.isFolded && decide (r.runN ≠ 0) && decide (r.runN ≤ run) && (decide (r.fallGrid = 1) || decide (r.fallGrid = 2))
  let fall := if r.clear then false else r.fall || starts
  let r' := { r with hist := hist, run := run, fall := fall, clear := false, smax := 0, clips := 0, elems := 0, bad := false, step := (r.step + 1) % 2 ^ 32 }
  let g := if fall then (if r.fallGrid = 1 then 0xB else 0xC) else fmt
  let grid := if fall then r.fallGrid else 0
  let shift := match validMax hist with
    | none => scaleShift r.cur
    | some m => if 4 ≤ fmt ∧ fmt ≤ 0xA then scaleShift r.cur else shiftFor m (pairs g) g r'.headroom
  ({ r' with cur := grid * 128 + ofInt 7 shift }, r.bad, starts)

/-- The records of a DRAIN after it: gathered, and closed when the cue says so. -/
def State.ledger (s : State) (a : Nat) (c : DrainCue) (np : Nat) (t : Drained) : State :=
  if c.record = false then s
  else (List.range c.n).foldl (fun s n =>
    let r := s.chanRec a (c.base + n)
    let cs := t.cells.flatMap fun row => (row.drop (n * np)).take np
    let g := r.gather cs
    let s := s.bumpBy (0x5810 + a) 1 (cs.filter (·.clip)).length
    if c.close then
      let (q, bad, starts) := g.closeStep c.fmt fun f => s.gridOf a (some g) f
      let s := s.setChanRec a (c.base + n) q
      let s := if bad then s.bump (0x5810 + a) 3 else s
      if starts then
        let s := s.bump (0x5810 + a) 2
        if s.flag 0x5801 0 then s.raise (Config.eventCode 5) (0x5810 + a) 2 else s
      else s
    else s.setChanRec a (c.base + n) g) s

/-! ## Tensor watch (R448, R449) -/

/-- FP64 sum with each addition rounded to nearest even. -/
def sum64 (l : List Dy) : Nat := l.foldl (fun t x => (fp64.encode .nearest false (FV.ofDy false ((fp64.decode t).dy.add x))).1) 0

/-- Payload of a TENSOR WATCH record. -/
def watchBody (a : Nat) (seq acc rows : Nat) (t : Drained) : Bytes :=
  let xs := t.cells.flatMap fun row => row.map (·.x)
  let fin := xs.filter fun x => !x.isNan && !x.isInf
  let top := fin.foldl (fun m x => if m.lt x.dy.abs then x.dy.abs else m) (⟨0, 0⟩ : Dy)
  natLe 1 a ++ natLe 1 0 ++ natLe 2 rows ++ natLe 4 seq ++ natLe 2 acc ++ natLe 2 0 ++
  natLe 4 (xs.filter (·.isNan)).length ++ natLe 4 (xs.filter (·.isInf)).length ++ natLe 4 (fin.filter (·.isZero)).length ++
  natLe 4 (fp32.encode .nearest false (FV.ofDy false top)).1 ++ natLe 8 (sum64 (fin.map (·.dy))) ++
  natLe 8 (sum64 (fin.map fun x => x.dy.mul x.dy)) ++ natLe 4 xs.length ++ natLe 32 (Hash.digest t.rows.flatten) ++ natLe 32 0

/-! ## Checks in the issue cycle -/

/-- Bytes of an output row. -/
def DrainCue.rowSize (c : DrainCue) (np : Nat) : Nat :=
  if c.fmt = 0xD then c.blocks * 48 else rowBytes c.fmt (if c.fmt = 0xE then c.n else c.n * np)

/-- Format, shape and record errors of a DRAIN (R152, R163, R172, R180, R192, R508). -/
def State.drainError (s : State) (a acc : Nat) (c : DrainCue) (b0 b1 : AccBank) : Option CueErr :=
  if c.fmt = 0xF ∨ b0.opened = false ∨ (b0.kind ≠ 0 ∧ (b1.opened = false ∨ b1.kind ≠ b0.kind)) then some .format
  else if (c.fmt = 0xE ∧ b0.kind ≠ 1) ∨ (b0.kind = 1 ∧ c.fmt ≠ 0xE ∧ (c.fmt < 4 ∨ 0xA < c.fmt)) then some .format
  else if c.resid ∧ (c.rfmt < 4 ∨ 9 < c.rfmt) then some .format
  else if c.folded ∧ b0.rho.isSome then some .format
  else if c.shape ≠ b0.shape ∨ c.m = 0 ∨ maxM c.shape < c.m ∨ maxN c.shape < c.n then some .shape
  else if c.record ∧ (4096 < c.base + c.n ∨ ((List.range c.n).any fun n => decide ((s.chanRec a (c.base + n)).acc ≠ some acc)) = true) then some .illegal
  else none

/-- Addresses of a DRAIN after the additions: main, residual, scale vector, fold base; none where one leaves its memory
(R219, R267). -/
def State.drainAddrs (s : State) (c : DrainCue) (np : Nat) : Option (Nat × Nat × Nat × Nat) :=
  let span := (c.m - 1) * c.stride + linesOf (c.rowSize np)
  let main := match c.dest with
    | 0 => c.adds.line c.at_ span
    | 1 => (c.adds.unit c.at_).bind fun u =>
        if (List.range c.m).all fun m => s.cueMayWrite ((u + m * c.stride) * 64) (linesOf (c.rowSize np) * 64) then some u else none
    | _ => some 0
  let words := if c.fmt = 0xD then c.m * c.blocks else if c.record then (if c.float then 0 else c.n) + (if c.folded then 8 * c.groups else 0) else 0
  let resid := if c.resid then c.adds.line (c.hi % 2 ^ 15) ((c.m - 1) * c.stride + linesOf (rowBytes c.rfmt (c.n * np))) else some 0
  let sv := if words = 0 then some 0 else c.adds.line c.sv (linesOf (2 * words))
  let fold := if c.folded then c.adds.line c.fold (linesOf (16 * c.groups * c.m)) else some 0
  match main, resid, sv, fold with
  | some x, some y, some z, some v => some (x, y, z, v)
  | _, _, _, _ => none

/-! ## Writing -/

/-- Writes to the wings of an array, or of both arrays of its pair under full redundancy (R409, R411). -/
def State.wingsPut (s : State) (a x : Nat) (bs : Bytes) : State := (s.twins a).foldl (fun s i => s.wingsWrite i x bs) s

/-- Sets a row tag likewise. -/
def State.tagPut (s : State) (a line tag : Nat) : State := (s.twins a).foldl (fun s i => s.setTag i line tag) s

/-- Writes lines as a user whose writes carry tag 0 (R147). -/
def State.wingsPlain (s : State) (a line : Nat) (bs : Bytes) : State :=
  (List.range (linesOf bs.length)).foldl (fun s i => s.tagPut a (line + i) 0) (s.wingsPut a (line * 64) bs)

/-- Tensor-result frames of a DRAIN to emit (R320). -/
def State.drainFrames (s : State) (a acc seq : Nat) (c : DrainCue) : Nat → Nat → List Bytes → State
  | 0, _, _ => s
  | fuel + 1, first, rows =>
    if rows.isEmpty then s
    else
      let size := (rows.headD []).length
      let per := Max.max 1 (8192 / Max.max 1 size)
      let part := rows.take per
      let body := natBe 2 (fld c.at_ 28 13) ++ natBe 1 a ++ natBe 1 1 ++ natBe 4 first ++ natBe 2 part.length ++ natBe 2 size ++ natBe 4 seq ++ part.flatten
      (s.originate (fld c.at_ 12 0) 0x02 0 acc body).drainFrames a acc seq c fuel (first + part.length) (rows.drop per)

/-- Writes a drained tile to its destination, with row tags, scale words and fold rows (R147, R162, R192 stage 8). -/
def State.drainWrite (s : State) (a acc seq : Nat) (c : DrainCue) (t : Drained) (main sv fold : Nat) : State :=
  let tag := s.drainTag a c
  let s := match c.dest with
    | 0 => (t.rows.zip (List.range t.rows.length)).foldl (fun s p =>
        let l := main + p.2 * c.stride
        let s := s.wingsPut a (l * 64) p.1
        s.tagPut a l tag) s
    | 1 => (t.rows.zip (List.range t.rows.length)).foldl (fun s p => s.memWrite ((main + p.2 * c.stride) * 64) p.1) s
    | _ => s.drainFrames a acc seq c c.m 0 t.rows
  let s := if t.scale.isEmpty then s else s.wingsPut a (sv * 64) (t.scale.flatMap fun v => natLe 2 v)
  if t.folds.isEmpty then s
  else
    let s := s.wingsPut a (fold * 64) t.folds.flatten
    (List.range (linesOf t.folds.flatten.length)).foldl (fun s i => s.tagPut a (fold + i) tag) s

/-- NaN report of a tile (R133): count, first row and column in row-major order. -/
def nanReport (np : Nat) (t : Drained) : Nat × Nat × Nat :=
  let bad := (t.cells.zip (List.range t.cells.length)).flatMap fun p =>
    (p.1.zip (List.range p.1.length)).filterMap fun q => if q.1.x.isNan then some (p.2, q.2 / np) else none
  match bad with
  | [] => (0, 0xFFFF, 0xFFFF)
  | x :: _ => (bad.length, x.1, x.2)

end Sys2Proof.Machine
end

