-- ==== Sys2Proof/Machine/Open.lean ====
section
/-! DEFINITION. Byte layouts and placements that the manual leaves open, as constants without a body (log entry 15). -/

namespace Sys2Proof.Config

open Sys2Proof.Machine

/-- Channel records of a section 0x12 (R282): record number and its bytes 0 to 11. -/
opaque recordsOf : Bytes → List (Nat × Nat)

/-- TG8 tables of a section 0x13: table number and 256 FP16 levels. -/
opaque tablesOf : Bytes → List (Nat × List Nat)

/-- List bodies of a section 0x14: cue address and bytes. -/
opaque bodiesOf : Bytes → List (Nat × Bytes)

/-- Entries of a section 0x15: list number, array, cue address. -/
opaque listsOf : Bytes → List (Nat × Nat × Nat)

/-- The image marks every consumer of a grid channel as a floating STREAM (R155): section 0x12, section 0x14. -/
opaque consumersFloat : Bytes → Bytes → Bool

/-- Cue words that a section 0x16 lists (R282, R283): array, cue address, and word of the cue. -/
opaque relocsOf : Bytes → List (Nat × Nat × Nat)

/-- Sections 0x20 to 0x22 of a rule set image. -/
opaque graphOf : Bytes → List PState
opaque profilesOf : Bytes → List (List KeyField)
opaque rulesOf : Bytes → List (Nat × Rule)

/-- Sections 0x23 to 0x26 of a rule set image: index, sub-index, value. -/
opaque ruleObjsOf : Nat → Bytes → List (Nat × Nat × Nat)

/-- A rule bank in the layout of the sections 0x20 to 0x26 (R471). -/
opaque bankBytes : Bank → Bytes

end Sys2Proof.Config
end

