-- ==== Sys2Proof/Machine/TrustOps.lean ====
section
/-! DEFINITION. Signatures, enforcement and anti-rollback as every verifier uses them (R459 to R465). -/

namespace Sys2Proof.Machine

open Sys2Proof.Bits

/-- The owner key hash is set, so that enforcement bits [2:0] have effect (R460). -/
def Trust.ownerSet (t : Trust) : Bool := decide (t.ownerHash ≠ 0)

/-- Enforcement bit `i` is blown, and has effect. -/
def Trust.enforces (t : Trust) (i : Nat) : Bool := bit t.enforcement i && (decide (3 ≤ i) || t.ownerSet)

/-- SHA-256 of a public key of 64 bytes. -/
def keyHash (key : Nat) : Nat := Hash.digest (natLe 64 key)

/-- A vendor public key is accepted (R463). -/
def State.vendorKey (s : State) (key : Nat) : Bool :=
  decide (keyHash key = s.mfg.vendorHash1) || (decide (keyHash key = s.mfg.vendorHash0) && !s.trust.vendor0Revoked)

/-- A vendor signature is valid: key, SHA-256 signed, signature (R463). -/
def State.vendorValid (s : State) (key sha sig : Nat) : Bool := s.vendorKey key && Config.ecdsaVerify key sha sig

/-- An owner signature is valid (R463). -/
def State.ownerValid (s : State) (key sha sig : Nat) : Bool :=
  s.trust.ownerSet && decide (keyHash key = s.trust.ownerHash) && Config.ecdsaVerify key sha sig

/-- The signature block of R462 is acceptable over `sha`: the vendor's valid, the owner's valid when `owner` says it is present,
and present where enforcement bit `bit_` requires it (R464). -/
def State.signedOk (s : State) (block : Bytes) (sha : Nat) (owner : Bool) (bit_ : Nat) : Bool :=
  s.vendorValid (le block 0 64) sha (le block 64 64) &&
  (if owner then s.ownerValid (le block 128 64) sha (le block 192 64) else !(s.trust.enforces bit_))

/-- Value of an anti-rollback counter (R459, R465). -/
def State.counter (s : State) (c : Nat) : Nat := Sparse.read (fun _ => 0) s.trust.counters c

/-- The counter a model image is checked against (R465). -/
def modelCounter (id : Nat) : Nat := 4 + id % 60

/-- A verification failure is counted in 0x9024:00 (R464, R479). -/
def State.verifyFailed (s : State) : State := s.bump 0x9024 0

/-- Header fields of a signed object (R461). -/
def objMagic (b : Bytes) : Nat := le b 0 4
def objKind (b : Bytes) : Nat := le b 4 1
def objOwner (b : Bytes) : Bool := bit (le b 5 1) 0
def objVersion (b : Bytes) : Nat := le b 8 4
def objSecurity (b : Bytes) : Nat := le b 12 4
def objLength (b : Bytes) : Nat := le b 16 4

/-- SHA-256 over header bytes 0 to 127. -/
def headerDigest (b : Bytes) : Nat := Hash.digest (slice b 0 128)

/-- A signed object of a kind passes R464: kind 1 firmware against counter 0 under enforcement bit 0, kind 2 scan content
against counter 1. -/
def State.objectOk (s : State) (b : Bytes) (kind : Nat) : Bool :=
  let n := objLength b
  decide (objMagic b = 0x4B474D57) && decide (objKind b = kind) && decide (b.length = 384 + n) &&
  decide (n ≤ (if kind = 1 then 64 * 0x100000 else 2 ^ 31) - 384) &&
  decide (Hash.digest (slice b 128 n) = le b 24 32) &&
  s.signedOk (slice b (128 + n) 256) (headerDigest b) (objOwner b) (if kind = 1 then 0 else 8) &&
  decide (s.counter (kind - 1) ≤ objSecurity b)

end Sys2Proof.Machine
end

