-- ==== Sys2Proof/Machine/Image.lean ====
section
/-! DEFINITION. The Slokiger image: header and section table (R281, R282), the load checks (R285), the content of a model
image and of a rule set image. -/

namespace Sys2Proof.Machine

open Sys2Proof.Bits Sys2Proof.Num

/-! ## Header and section table -/

/-- Header fields (R281). -/
def imgGen (b : Bytes) : Nat := le b 4 1
def imgKind (b : Bytes) : Nat := le b 5 1
def imgCount (b : Bytes) : Nat := le b 6 2
def imgId (b : Bytes) : Nat := le b 8 4
def imgSize (b : Bytes) : Nat := le b 12 4
def imgArrays (b : Bytes) : Nat := le b 18 2
def imgFlags (b : Bytes) : Nat := le b 20 4
def imgTableSha (b : Bytes) : Nat := le b 32 32
def imgSecurity (b : Bytes) : Nat := if imgGen b = 3 then le b 68 4 else 0

/-- A section table entry (R282). -/
structure Sect where
  type  : Nat
  array : Nat
  flags : Nat
  off   : Nat
  len   : Nat
  place : Nat
  sha   : Nat
  deriving DecidableEq, Repr, Inhabited

/-- Entry `k` of the section table. -/
def sectAt (b : Bytes) (k : Nat) : Sect :=
  let o := 128 + 64 * k
  ⟨le b o 2, le b (o + 2) 1, le b (o + 3) 1, le b (o + 4) 4, le b (o + 8) 4, le b (o + 12) 4, le b (o + 32) 32⟩

/-- The section table. -/
def sections (b : Bytes) : List Sect := (List.range (imgCount b)).map fun k => sectAt b k

/-- Payload of a section. -/
def Sect.bytes (x : Sect) (b : Bytes) : Bytes := slice b x.off x.len

/-- Payloads of the sections of one type, in table order. -/
def payloads (b : Bytes) (type : Nat) : List Bytes := ((sections b).filter fun x => x.type = type).map fun x => x.bytes b

/-- Section types of a kind and generation (R282). -/
def typesOf (kind gen : Nat) : List Nat :=
  (if kind = 1 then [1, 2, 3, 0x10, 0x11, 0x12, 0x13, 0x14, 0x15] ++ (if gen = 3 then [0x16] else [])
   else [0x20, 0x21, 0x22, 0x23, 0x24, 0x25, 0x26]) ++ [0xF0]

/-- Banks of a shelf section's mask. -/
def Sect.banks (x : Sect) : List Nat := (List.range 8).filter fun k => bit x.place (24 + k)

/-- Rows of each bank of a shelf section: its payload holds them bank after bank (log entry 15). -/
def Sect.rows (x : Sect) : Nat := if x.banks = [] then 0 else x.len / 256 / x.banks.length

/-- Types whose sections hold what one array takes: shelf content, channel records, TG8 tables, list bodies. -/
def arrayTypes : List Nat := [0x10, 0x12, 0x13, 0x14]

/-- A section's own fields are consistent: offset, length, type, array, and for shelf content whole rows inside the banks. -/
def Sect.formOk (x : Sect) (b : Bytes) : Bool :=
  decide (x.off % 64 = 0) && decide (128 + 64 * imgCount b ≤ x.off) && decide (x.off + x.len ≤ b.length) &&
  (typesOf (imgKind b) (imgGen b)).contains x.type && (!(arrayTypes.contains x.type) || decide (x.array < 16)) &&
  (if x.type = 0x10 then !x.banks.isEmpty && decide (x.len = 256 * x.banks.length * x.rows) && decide (fld x.place 11 0 + x.rows ≤ 3072)
   else if x.type = 0xF0 then decide (x.len = 256) else true)

/-- First check of R285: magic, generation, kind, sizes, offsets, section types. -/
def formOk (b : Bytes) (kind : Nat) : Bool :=
  let c := imgCount b
  decide (128 ≤ b.length) && decide (le b 0 4 = 0x494B4C53) && (decide (imgGen b = 2) || decide (imgGen b = 3)) && decide (imgKind b = kind) &&
  decide (1 ≤ c) && decide (c ≤ (if imgGen b = 2 then 64 else 255)) && decide (128 + 64 * c ≤ b.length) && decide (imgSize b ≤ 2 ^ 31) &&
  decide (b.length ≤ imgSize b) && (sections b).all fun x => x.formOk b

/-- The anti-rollback counter of an image (R465). -/
def imgCounter (b : Bytes) : Nat := if imgKind b = 2 then 2 else modelCounter (imgId b)

/-- Second check: signature, enforcement, security version (R283, R285, R464). -/
def State.imageSigned (s : State) (b : Bytes) : Bool :=
  match payloads b 0xF0 with
  | [p] => s.signedOk p (headerDigest b) (decide (imgGen b = 3) && bit (imgFlags b) 0) 1 && decide (s.counter (imgCounter b) ≤ imgSecurity b)
  | _ => false

/-- Digest of the rows of one bank of a shelf section; `k` is the bank's place in its mask. -/
def shelfDigest (x : Sect) (b : Bytes) (k : Nat) : Nat := Hash.digest (slice b (x.off + k * x.rows * 256) (x.rows * 256))

/-- Golden digests that a generation-3 image carries for the shelf sections of an array: 32 bytes for each bank of each section,
in order (log entry 15). -/
def goldenCarried (b : Bytes) (array : Nat) : List Nat :=
  ((sections b).filter fun x => x.type = 0x11 ∧ x.array = array).flatMap fun x => (List.range (x.len / 32)).map fun k => le (x.bytes b) (32 * k) 32

/-- Digests of an array's shelf sections, bank by bank. -/
def goldenFound (b : Bytes) (array : Nat) : List Nat :=
  ((sections b).filter fun x => x.type = 0x10 ∧ x.array = array).flatMap fun x => (List.range x.banks.length).map fun k => shelfDigest x b k

/-- Third check: section table digest, section digests, golden digests (R285). -/
def digestsOk (b : Bytes) : Bool :=
  decide (Hash.digest (slice b 128 (64 * imgCount b)) = imgTableSha b) &&
  ((sections b).all fun x => decide (x.type = 0xF0) || decide (Hash.digest (x.bytes b) = x.sha)) &&
  (decide (imgGen b = 2) || (List.range 16).all fun a => decide (goldenCarried b a = goldenFound b a))

/-- Fourth check: the arrays used, in the header and by sections, exist on the grade (R5, R285). -/
def State.arraysOk (s : State) (b : Bytes) : Bool :=
  decide (imgArrays b < 2 ^ s.arrays) && (sections b).all fun x => !(arrayTypes.contains x.type) || decide (x.array < s.arrays)

/-! ## Model content -/

/-- The feature definitions: 256 entries of 16 bytes and 255 FP19 thresholds (R92, R273). -/
def featsOf (p : Bytes) : List FeatDef :=
  (List.range (p.length / 1036)).map fun i =>
    { raw := le p (1036 * i) 16, thresh := (List.range (le p (1036 * i + 1) 1)).map fun k => le p (1036 * i + 16 + 4 * k) 4 }

/-- Non-zero entries of a table of `n` entries, keyed from `base`. -/
def tableFrom (base n : Nat) (f : Nat → Nat) : Sparse Nat :=
  (List.range n).filterMap fun i => if f i = 0 then none else some (base + i, f i)

/-- The tree stores, one section for each bank in order (R273, R282): nodes, leaves, classes. -/
def nodesOf (l : List Bytes) : Sparse Nat :=
  (l.zip (List.range 4)).flatMap fun x => tableFrom (x.2 * 65536) 65536 fun i => le x.1 (4 * i) 4
def leavesOf (l : List Bytes) : Sparse Nat :=
  (l.zip (List.range 4)).flatMap fun x => tableFrom (x.2 * 65536) 65536 fun i => le x.1 (262144 + 2 * i) 2
def classesOf (l : List Bytes) : Sparse Nat :=
  (l.zip (List.range 4)).flatMap fun x => tableFrom (x.2 * 65536) 1024 fun i => leNat (slice x.1 393216 384) / 2 ^ (3 * i) % 8

/-- The ensemble descriptors (R102). -/
def ensemblesOf (p : Bytes) : List Nat := (List.range 16).map fun i => le p (80 * i) 80

/-- The shelf sections of an image. -/
def shelvesOf (b : Bytes) : List ShelfSec :=
  ((sections b).filter fun x => x.type = 0x10).map fun x => ⟨x.array, fld x.place 31 24, fld x.place 11 0, x.bytes b, x.off, bit x.flags 0⟩

/-- What the sections of a type hold for each array. -/
def perArray {α : Type} (b : Bytes) (type : Nat) (f : Nat → Bytes → List α) : List α :=
  ((sections b).filter fun x => x.type = type).flatMap fun x => f x.array (x.bytes b)

/-- Banks of a shelf section, and its rows in each. -/
def ShelfSec.banks (x : ShelfSec) : List Nat := (List.range 8).filter fun k => bit x.mask k
def ShelfSec.rows (x : ShelfSec) : Nat := if x.banks = [] then 0 else x.data.length / 256 / x.banks.length

/-- Bytes of FP16 levels. -/
def levelBytes (l : List Nat) : Bytes := l.flatMap fun v => natLe 2 v

/-- The golden digests of a model (R404). -/
def Model.goldens (m : Model) : List Golden :=
  (m.shelf.flatMap fun x => (x.banks.zip (List.range 8)).map fun y =>
    { unit := .array ⟨x.array % 16, Nat.mod_lt _ (by decide)⟩, reason := 1, bank := y.1, first := x.row, rows := x.rows
      digest := Hash.digest (slice x.data (y.2 * x.rows * 256) (x.rows * 256)) : Golden }) ++
  ((m.treeSha.zip (List.range 4)).map fun y => { unit := .bank ⟨y.2 % 4, Nat.mod_lt _ (by decide)⟩, reason := 2, digest := y.1 : Golden }) ++
  [{ unit := .front, reason := 3, digest := m.featSha : Golden }] ++
  (m.tg8.map fun x =>
    { unit := .array ⟨x.1 % 16, Nat.mod_lt _ (by decide)⟩, reason := 4, first := x.2.1, rows := 1, digest := Hash.digest (levelBytes x.2.2) : Golden }) ++
  (m.recs.map fun x =>
    { unit := .array ⟨x.1 % 16, Nat.mod_lt _ (by decide)⟩, reason := 4, first := x.2.1, digest := Hash.digest (natLe 12 x.2.2) : Golden })

/-- A store's content of `n` bytes: a section, and zero where it says nothing (R114, R273). -/
def storeBytes (n : Nat) (bs : Bytes) : Bytes := bs ++ List.replicate (n - bs.length) 0

/-- Bytes of the feature-definition store and of a bank's tree store (R273). -/
def featBytes : Nat := 256 * 1036
def treeBytes : Nat := 393600

/-- The content of a model image. -/
def modelOfImage (b : Bytes) (slot : Nat) : Model :=
  let feats := (payloads b 1).headD []
  let trees := payloads b 2
  let m : Model :=
    { slot := slot, feats := featsOf feats, nodes := nodesOf trees, leaves := leavesOf trees, classes := classesOf trees
      ens := ensemblesOf ((payloads b 3).headD []), featSha := Hash.digest (storeBytes featBytes feats)
      treeSha := (List.range 4).map fun k => Hash.digest (storeBytes treeBytes (trees.getD k [])), shelf := shelvesOf b
      recs := perArray b 0x12 fun a p => (Config.recordsOf p).map fun x => (a, x.1 % 4096, x.2 % 2 ^ 96)
      tg8 := perArray b 0x13 fun a p => (Config.tablesOf p).map fun x => (a, x.1 % 4, x.2)
      bodies := perArray b 0x14 fun a p => (Config.bodiesOf p).map fun x => (a, x.1, x.2)
      lists := perArray b 0x15 fun _ p => Config.listsOf p, version := imgSecurity b }
  { m with golden := m.goldens }

/-! ## Content checks (R285) -/

/-- An FP19 value in its 32-bit container: the low 13 bits are zero (R92). -/
def fp19Box (v : Nat) : Bool := decide (v % 2 ^ 13 = 0)

/-- A feature definition stands under R92. -/
def FeatDef.formOk (f : FeatDef) : Bool :=
  let k := f.kind
  decide (k ≤ 3) && decide (f.source ≤ 2) && (decide (k ≠ 1) || (fp19Box (fld f.raw 95 64) && fp19Box (fld f.raw 127 96) && f.thresh.all fp19Box)) &&
  (if k = 0 then true
   else if k = 3 then true
   else match (if k = 2 then 0 else f.source) with
     | 0 => decide (f.byte 2 ≤ 11) && decide (f.byte 3 ≤ 63) && decide (f.byte 4 ≤ 7) && decide (1 ≤ f.byte 5) && decide (f.byte 5 ≤ 32) && decide (f.byte 6 ≤ 3) &&
         (decide (f.byte 6 ≠ 2) || decide (f.byte 5 = 16)) && (decide (f.byte 6 ≠ 3) || decide (f.byte 5 = 32))
     | 1 => decide (f.byte 2 ≤ 31)
     | _ => decide (f.byte 2 ≤ 9))

/-- Thresholds are finite and strictly ascending (R97). -/
def ascending : List FV → Bool
  | [] => true
  | [x] => !x.isNan && !x.isInf
  | x :: y :: l => !x.isNan && !x.isInf && x.lt y && ascending (y :: l)

/-- Cuts are finite and ascending; two may be equal (R102, where R97 says strictly). -/
def cutsOk : List FV → Bool
  | [] => true
  | [x] => !x.isNan && !x.isInf
  | x :: y :: l => !x.isNan && !x.isInf && FV.le x y && cutsOk (y :: l)

/-- The feature definitions stand under R92 and R97. -/
def featsOk (l : List FeatDef) : Bool :=
  let kindAt (i : Nat) : Nat := (l.getD i default).kind
  decide ((l.filter fun f => f.kind = 3).length ≤ 64) &&
  l.all fun f => f.formOk && (decide (f.kind ≠ 1) || ascending (f.thresh.map fp19.decode)) &&
    (decide (f.kind ≠ 3) || ((kindAt (f.byte 2) == 1 || kindAt (f.byte 2) == 2) && (kindAt (f.byte 3) == 1 || kindAt (f.byte 3) == 2)))

/-- An ensemble descriptor stands under R102 and R103; one of all zeros is not defined. -/
def ensembleOk (e : Nat) : Bool :=
  if e = 0 then true
  else
    let d := ensDepth e
    let c := ensClasses e
    let n := ensCount e
    let gangs := if ensPlacement e = 0 then 4 else if ensPlacement e = 1 then 2 else 1
    decide (1 ≤ d) && decide (d ≤ 8) && decide (1 ≤ c) && decide (c ≤ 8) && decide (ensLink e ≤ 4) && (decide (ensLink e ≠ 2) || decide (2 ≤ c)) &&
    decide (ensPlacement e ≤ 2) && decide (1 ≤ n) && decide (n ≤ 1024) && decide (ensFirst e + n ≤ 1024) && decide (ensCuts e ≤ 7) &&
    decide (ensNodes e + n * (2 ^ d - 1) ≤ 65536) && decide (ensLeaves e + n * 2 ^ d ≤ 65536) &&
    ((List.range 4).all fun p => decide (ensPort e p < gangs)) &&
    ((List.range c).all fun i => !(ensBase e i).isNan && !(ensBase e i).isInf) && cutsOk ((List.range (ensCuts e)).map fun k => ensCut e k)

/-- Two shelf sections of one image share a row. -/
def shelfClash (x y : ShelfSec) : Bool :=
  decide (x.array = y.array) && decide (x.mask &&& y.mask ≠ 0) && decide (x.row < y.row + y.rows) && decide (y.row < x.row + x.rows)

/-- No two of a list are in conflict. -/
def noClash {α : Type} (f : α → α → Bool) : List α → Bool
  | [] => true
  | x :: l => (l.all fun y => !(f x y)) && noClash f l

/-- Two bodies share a cue slot: of one array's ring SRAM, or of the stacks, which all arrays share (R212). -/
def bodyClash (x y : Nat × Nat × Bytes) : Bool :=
  (decide (x.1 = y.1) || decide (x.2.1 / 2 ^ 31 = 1)) && decide (x.2.1 / 2 ^ 31 = y.2.1 / 2 ^ 31) &&
  decide (x.2.1 % 2 ^ 30 < y.2.1 % 2 ^ 30 + (y.2.2.length + 31) / 32) && decide (y.2.1 % 2 ^ 30 < x.2.1 % 2 ^ 30 + (x.2.2.length + 31) / 32)

/-- A list table entry's target lies in a body of its array. -/
def listTargetOk (m : Model) (e : Nat × Nat × Nat) : Bool :=
  m.bodies.any fun x => decide (x.1 = e.2.1) && decide (x.2.1 / 2 ^ 31 = e.2.2 / 2 ^ 31) && decide (x.2.1 % 2 ^ 30 ≤ e.2.2 % 2 ^ 30) &&
    decide (e.2.2 % 2 ^ 30 < x.2.1 % 2 ^ 30 + (x.2.2.length + 31) / 32)

/-- The cues of a body, as words. -/
def bodyCues (bs : Bytes) : List (List Nat) := (List.range (bs.length / 32)).map fun j => words (slice bs (32 * j) 32)

/-- The DRAINs with their record bit set in the list bodies of a model: array and words (R152). -/
def Model.drains (m : Model) : List (Nat × List Nat) :=
  m.bodies.flatMap fun x => ((bodyCues x.2.2).filter fun ws => decide (w ws 0 % 256 = opDrain) && bit (w ws 1) 17).map fun ws => (x.1, ws)

/-- The records that columns `i` to `i + n` of a DRAIN name. -/
def Model.drainRecs (m : Model) (d : Nat × List Nat) (i n : Nat) : List (Nat × Nat × Nat) :=
  let base := fld (w d.2 2) 20 9
  let cols := fld (w d.2 2) 31 21
  m.recs.filter fun x => decide (x.1 = d.1) && decide (base + i ≤ x.2.1) && decide (x.2.1 < base + Min.min cols (i + n))

/-- At most 8 folded channels in each group of 128 columns of a DRAIN (R162). -/
def foldedOk (m : Model) : Bool :=
  m.drains.all fun d => (List.range ((fld (w d.2 2) 31 21 + 127) / 128)).all fun g =>
    decide (((m.drainRecs d (128 * g) 128).filter fun x => bit x.2.2 47).length ≤ 8)

/-- Store formats that a fallback grid stands on: BG4 on INT4, TG8 on INT8, none on any (R155). -/
def gridStands (grid fmt : Nat) : Bool := decide (grid = 0) || (decide (grid = 1) && decide (fmt = 3)) || (decide (grid = 2) && decide (fmt = 0))

/-- Every DRAIN stores a format that the fallback grids of its records stand on (R155). -/
def fallbackOk (m : Model) : Bool :=
  m.drains.all fun d => (m.drainRecs d 0 1024).all fun x => gridStands (fld x.2.2 45 44) (fld (w d.2 1) 29 26)

/-- No two payloads of an image overlap (R285). -/
def payloadsApart (b : Bytes) : Bool := noClash (fun x y => overlap (x.off, x.len) (y.off, y.len)) (sections b)

/-- The list table stays within its generation's size: 256 or 1,024 lists, each number once (R282). -/
def listTableOk (b : Bytes) (m : Model) : Bool :=
  let n := if imgGen b = 2 then 256 else 1024
  (m.lists.all fun e => decide (e.1 < n)) && noClash (fun x y => decide (x.1 = y.1)) m.lists

/-- Sixth check: the content (R97, R103, R121, R155, R162, overlaps, list targets). -/
def contentOk (b : Bytes) (m : Model) : Bool :=
  featsOk m.feats && m.ens.all ensembleOk &&
  (m.ens.all fun e => decide (e = 0) || (List.range 4).all fun p => (ensBanks e p).all fun k => decide (k < (payloads b 2).length)) &&
  ((payloads b 2).all fun p => decide (p.length = treeBytes)) && decide ((payloads b 2).length ≤ 4) && decide ((payloads b 1).length ≤ 1) &&
  ((payloads b 1).all fun p => decide (p.length = featBytes)) &&
  decide ((payloads b 3).length ≤ 1) && (m.tg8.all fun x => decide (x.2.2.length = 256) && ascending (x.2.2.map fp16.decode)) &&
  (m.recs.all fun x => decide (fld x.2.2 45 44 ≤ 2) && decide (1 ≤ fld x.2.2 51 48) && decide (fld x.2.2 51 48 ≤ 8)) &&
  Config.consumersFloat ((payloads b 0x12).flatten) ((payloads b 0x14).flatten) && fallbackOk m && foldedOk m && payloadsApart b && listTableOk b m &&
  noClash shelfClash m.shelf && noClash bodyClash m.bodies && m.lists.all (listTargetOk m)

/-- The load checks of R285 on a model image: its extent, the abort code of the first that fails, or the content. -/
def State.checkModel (s : State) (b : Bytes) (slot extent : Nat) : Except Nat Model :=
  if formOk b 1 = false then .error 0x08000047
  else if s.imageSigned b = false then .error 0x08000045
  else if digestsOk b = false then .error 0x08000046
  else if s.arraysOk b = false then .error 0x08000048
  else if extent < imgSize b then .error 0x08000049
  else
    let m := modelOfImage b slot
    if b.length = imgSize b ∧ contentOk b m = true then .ok m else .error 0x08000047

/-! ## Rule set images -/

/-- The rule bank of a rule set image. -/
def bankOfImage (b : Bytes) : Bank :=
  let objs := [0x23, 0x24, 0x25, 0x26].flatMap fun t => (payloads b t).flatMap fun p => Config.ruleObjsOf t p
  { acc := 0
    graph := (payloads b 0x20).flatMap Config.graphOf
    profiles := (payloads b 0x21).flatMap Config.profilesOf
    rules := ((payloads b 0x22).flatMap Config.rulesOf).foldl (fun m e => Sparse.write (fun _ => {}) m (e.1 % 16384) e.2) []
    objs := objs.foldl (fun m e => if isRuleObj e.1 e.2.1 then Sparse.write objDefault m (objKey e.1 e.2.1) e.2.2 else m) []
    fromImage := some (imgSecurity b)
    image := b }

/-- Sections 0x20 to 0x26 of an image, joined in type order (R471). -/
def ruleSections (b : Bytes) : Bytes := [0x20, 0x21, 0x22, 0x23, 0x24, 0x25, 0x26].flatMap fun t => (payloads b t).flatten

/-- No tap descriptor of a rule bank targets an array the grade lacks (R5, R285). -/
def State.tapArraysOk (s : State) (b : Bank) : Bool := (List.range 256).all fun d => decide (b.tapKind d = 0) || s.hasArray (b.tapArray d)

/-- The checks of R285 on a rule set image; its transfer is the room reserved for it. -/
def State.checkRules (s : State) (b : Bytes) : Except Nat Bank :=
  if formOk b 2 = false then .error 0x08000047
  else if s.imageSigned b = false then .error 0x08000045
  else if digestsOk b = false then .error 0x08000046
  else if s.arraysOk b = false ∨ s.tapArraysOk (bankOfImage b) = false then .error 0x08000048
  else if b.length < imgSize b then .error 0x08000049
  else if payloadsApart b = false then .error 0x08000047
  else .ok (bankOfImage b)

end Sys2Proof.Machine
end

