-- ==== Sys2Proof/Machine/OdpCore.lean ====
section
/-! DEFINITION. Serving ODP requests: addressing (R358), authentication (R370), answer history (R362), the
nine checks of R364, object types (R373) and access rights (R374). -/

namespace Sys2Proof.Machine

open Sys2Proof.Bits

/-- Service codes (R363, R371). -/
def svcRead : Nat := 0x01
def svcWrite : Nat := 0x02
def svcOpen : Nat := 0x10
def svcAuth : Nat := 0x11
def svcClose : Nat := 0x12
def svcDownloadInit : Nat := 0x20
def svcSegment : Nat := 0x21
def svcAck : Nat := 0x22
def svcDownloadEnd : Nat := 0x23
def svcUploadInit : Nat := 0x24
def svcUploadEnd : Nat := 0x25
def svcTransferAbort : Nat := 0x26

/-- The request addresses this module: by ring address, or by ring position with bit 15 set (R358, R361). -/
def State.addressed (s : State) (target : Nat) : Bool :=
  if 0x8000 ≤ target then s.mgmt.posSeen.isSome && decide (target % 0x8000 = s.get 0x1804 0 % 0x8000)
  else decide (target ≠ 0) && decide (target = s.get 0x1803 0)

/-! ## Authentication -/

/-- The datagram that the trailer's HMAC covers (R361, R370): header, data, session id and counter. -/
def authBytes (svc : Nat) (r : Req) (idx sub : Nat) (data : Bytes) (tr : Trailer) : Bytes :=
  natLe 1 svc ++ natLe 1 0x40 ++ natLe 2 r.target ++ natLe 2 r.reqId ++ natLe 2 idx ++ natLe 2 sub ++
  natLe 2 data.length ++ natLe 4 0 ++ data ++ natLe 4 tr.session ++ natLe 4 tr.counter

/-- The first 16 bytes of HMAC-SHA-256 under the session key (R370), as a little-endian number. -/
def tagOf (key : Bytes) (m : Bytes) : Nat := leNat ((Hash.hmac key m).take 16)

/-- A counter is acceptable: above the highest yet received, or within the 64 below it and not yet
received (R370). -/
def Session.counterOk (x : Session) (c : Nat) : Bool :=
  match x.highest with
  | none => true
  | some h => decide (h < c) || (decide (c < h) && decide (h ≤ c + 64) && !(x.seen.contains c))

/-- The session after a datagram with this counter. -/
def Session.accept (x : Session) (c now : Nat) : Session :=
  let h := match x.highest with | none => c | some h => Max.max h c
  { x with highest := some h, seen := (c :: x.seen).filter (fun k => decide (h ≤ k + 64)), last := now }

/-- Replaces the session with this id. -/
def setSession (l : List Session) (x : Session) : List Session :=
  l.map fun y => if y.sid = x.sid then x else y

/-- Checks the trailer of an authenticated datagram (R370): the state with the session's counter advanced,
or none when the datagram is discarded. A session lives 60 s from its last valid datagram (R369). -/
def State.authenticate (s : State) (svc : Nat) (r : Req) (idx sub : Nat) (data : Bytes) : Option State :=
  match r.trailer with
  | none => some s
  | some tr =>
    match s.odp.sessions.find? fun x => x.sid = tr.session with
    | none => none
    | some x =>
      if x.authed && decide (s.now < x.last + 60000000000) && x.counterOk tr.counter && decide (tagOf x.key (authBytes svc r idx sub data tr) = tr.tag) then
        some { s with odp := { s.odp with sessions := setSession s.odp.sessions (x.accept tr.counter s.now) } }
      else none

/-- The request comes in a session that may make it: a bootstrap session writes only host key slots and the
attestation nonce (R370, R475). -/
def State.inSession (s : State) (r : Req) (idx : Nat) : Bool :=
  match r.trailer with
  | none => false
  | some tr =>
    match s.odp.sessions.find? fun x => x.sid = tr.session with
    | none => false
    | some x => x.authed && (!x.bootstrap || (decide (0x9010 ≤ idx) && decide (idx ≤ 0x9017)) || decide (idx = 0x901B))

/-! ## Answers -/

/-- Sends an answer, counts it, and keeps it among the last 256 (R362, R382). -/
def State.answer (s : State) (a : Answer) : State :=
  let s := (s.emit (.answer a)).bump 0x1812 0
  let s := if a.abort = 0 then s else s.bump 0x1813 0
  { s with odp := { s.odp with history := (a :: s.odp.history).take 256 } }

/-- The answer to a request. -/
def mkAnswer (svc : Nat) (r : Req) (idx sub abort : Nat) (data : Bytes) : Answer :=
  ⟨r.gen, svc, r.source, r.reqId, idx, sub, abort, data, r.udp⟩

/-- A service that only ODP-3 has (R363). -/
def svcGen3 (svc : Nat) : Bool := decide (svc ≠ svcRead) && decide (svc ≠ svcWrite)

/-- An answer goes to the sender of a request: the same transport and source (R360). -/
def Answer.toSender (a : Answer) (r : Req) : Bool := a.udp == r.udp && decide (a.source = r.source)

/-- An answer is that of the request, or of one it repeats (R362). -/
def Answer.isOf (a : Answer) (r : Req) : Bool := a.toSender r && decide (a.reqId = r.reqId)

/-- Requests of a sender that are not answered yet: its probes held in the catalogue and its save in progress. -/
def State.outstanding (s : State) (r : Req) : Nat :=
  (s.cat.waiting.filter fun w => match w.op with | .probe a _ => a.toSender r | _ => false).length +
  (match s.saving with | some x => if x.answer.toSender r then 1 else 0 | none => 0)

/-- Frame, generation and device state (R364 steps 1 to 3, R381; UDP carries ODP-1 and ODP-3 only, R360), and the sixteen requests a source may have
outstanding: the abort code, or none. -/
def State.checkFrame (s : State) (svc : Nat) (r : Req) (idx : Nat) : Option Nat :=
  if r.wellFormed = false ∨ r.gen < 1 ∨ 3 < r.gen ∨ (r.udp ∧ r.gen = 2) then some 0x01000001
  else if 16 ≤ s.outstanding r then some 0x01000004
  else if svcGen3 svc ∧ r.gen ≠ 3 then some 0x01000002
  else if s.dev.st = .boot ∧ ¬ (svc = svcRead ∧ r.gen = 1 ∧ 0x1000 ≤ idx ∧ idx ≤ 0x17FF) then some 0x08000010
  else none

/-- What serving a request comes to: abort code (0: success), the answer's data, and the new state. -/
structure Reply where
  abort : Nat
  data  : Bytes
  st    : State

/-- Admits one request: nothing happens unless ODP is served and the module is addressed; a discarded
authenticated datagram is counted and not answered (R370); a repeated request is answered from the history
(R362); one refused before its object is looked at is answered so; else `body` serves it. -/
def State.receive (s : State) (svc : Nat) (r : Req) (idx sub : Nat) (data : Bytes) (body : State → State) : State :=
  if s.servesOdp = false ∨ s.addressed r.target = false then s
  else match s.authenticate svc r idx sub data with
    | none => s.bump 0x1817 0
    | some s =>
      match s.odp.history.find? fun a => a.isOf r with
      | some a => (s.emit (.answer a)).bump 0x1814 0
      | none =>
        match s.checkFrame svc r idx with
        | some code => s.answer (mkAnswer svc r idx sub code [])
        | none => body s

/-- Serves one request at once: `body` gives the reply. -/
def State.serve (s : State) (svc : Nat) (r : Req) (idx sub : Nat) (data : Bytes) (body : State → Reply) : State :=
  s.receive svc r idx sub data fun s =>
    let y := body s
    y.st.answer (mkAnswer svc r idx sub y.abort y.data)

/-! ## Objects -/

/-- The logical array an index belongs to, in the families numbered by array (R385). -/
def arrayOfIndex (idx : Nat) : Option Nat :=
  if (0x5010 ≤ idx ∧ idx ≤ 0x502F) ∨ (0x5040 ≤ idx ∧ idx ≤ 0x504F) ∨ (0x5060 ≤ idx ∧ idx ≤ 0x507F) ∨
     (0x5810 ≤ idx ∧ idx ≤ 0x581F) ∨ (0x6040 ≤ idx ∧ idx ≤ 0x604F) ∨ (0x6810 ≤ idx ∧ idx ≤ 0x681F) ∨
     (0x8020 ≤ idx ∧ idx ≤ 0x802F) ∨ (0x8850 ≤ idx ∧ idx ≤ 0x885F) then some (idx % 16)
  else if 0x5100 ≤ idx ∧ idx ≤ 0x51FF then some (idx / 16 % 16)
  else none

/-- The logical array a sub-index belongs to, in 0x9804, 0x9806 and 0x9807 (R505). -/
def arrayOfSub (idx sub : Nat) : Option Nat :=
  if (idx = 0x9804 ∨ idx = 0x9806 ∨ idx = 0x9807) ∧ 1 ≤ sub ∧ sub ≤ 16 then some (sub - 1) else none

/-- The unit an object belongs to is absent on this grade (R5, R385). -/
def State.absentUnit (s : State) (idx sub : Nat) : Bool :=
  (match arrayOfIndex idx with | some a => !s.hasArray a | none => false) ||
  (match arrayOfSub idx sub with | some a => !s.hasArray a | none => false)

/-- Row of sub-index 0 of a family: its entry count (R373, R385). -/
def countRow : ObjRow := ⟨0, 0, 0, 0, .u 2, .ro, 0, 0, 65535⟩

/-- Object and sub-index exist (R364 step 4): the row, or the abort code. -/
def State.findObj (s : State) (idx sub : Nat) : Except Nat ObjRow :=
  if objIndex? idx = false ∨ s.absentUnit idx sub then .error 0x02000003
  else match objRow? idx sub with
    | some r => .ok r
    | none => if sub = 0 then .ok countRow else .error 0x02000004

/-- Bytes a value of the type has (R373). -/
def tySize : Ty → Nat
  | .bool => 1
  | .u n => n
  | .i n => n
  | .str n => n
  | .oct n => n
  | .domain => 0

/-- Data length against type (R364 step 7, R373). -/
def lengthOk (ty : Ty) (n : Nat) : Bool :=
  match ty with
  | .str m => decide (1 ≤ n) && decide (n ≤ m)
  | .bool => decide (n = 1)
  | .u m => decide (n = m)
  | .i m => decide (n = m)
  | .oct m => decide (n = m)
  | .domain => false

/-- A power of two. -/
def isPow2 (v : Nat) : Bool := decide (v ≠ 0) && decide (2 ^ Nat.log2 v = v)

/-- Port mode codes of R28. -/
def portModes : List Nat := List.range 10

/-- Total width in bits of a catalogue profile's fields (R72). -/
def keyWidth (v : Nat) : Nat := (List.range 8).foldl (fun n i => n + Bits.fld v (32 * i + 31) (32 * i + 16)) 0

/-- Ranges that are no simple interval. -/
def specialRange (idx sub v : Nat) : Bool :=
  if idx = 0x3001 then portModes.contains v
  else if 0x3900 ≤ idx ∧ idx ≤ 0x39FF ∧ sub = 3 then decide (v % 64 = 0)
  else if 0x3900 ≤ idx ∧ idx ≤ 0x39FF ∧ sub = 4 then decide (v % 64 = 0)
  else if 0x4011 ≤ idx ∧ idx ≤ 0x401F ∧ sub = 1 then decide (keyWidth v ≤ 320)
  else if 0x5100 ≤ idx ∧ idx ≤ 0x51FF ∧ sub = 2 then isPow2 v
  else if 0x6000 ≤ idx ∧ idx ≤ 0x6005 then decide (v % 0x4000000 = 0)
  else if idx = 0x6021 then decide (v % 64 = 0)
  else if idx = 0x6030 ∧ sub = 1 then decide (v % 64 = 0)
  else if idx = 0x7000 then decide (-64 ≤ toInt 8 v)
  else if idx = 0x7800 ∨ idx = 0x7802 then decide (v < 512) || decide (v = 0xFFFF)
  else if 0x8850 ≤ idx ∧ idx ≤ 0x885F ∧ sub = 1 then decide (v = 0) || (decide (10 ≤ v) && decide (v ≤ 10000000))
  else true

/-- Value within range (R364 step 8). -/
def rangeOk (row : ObjRow) (idx sub v : Nat) : Bool :=
  (match row.ty with
    | .bool => decide (v ≤ 1)
    | .u _ => decide (row.mn ≤ v) && decide (v ≤ row.mx)
    | .i _ => true
    | .str _ => true
    | .oct _ => true
    | .domain => false) && specialRange idx sub v

/-- A write needs a session (R370): in the 0x9000 range, of 0x1808:00, and any while 0x1808:00 is 1. -/
def State.needsSession (s : State) (idx : Nat) : Bool :=
  (decide (0x9000 ≤ idx) && decide (idx ≤ 0x97FF)) || decide (idx = 0x1808) || s.flag 0x1808 0

/-- Access right of a write (R364 step 6, R374): the abort code, or none. -/
def State.writeRight (s : State) (row : ObjRow) : Option Nat :=
  match row.ty with
  | .domain => some 0x02000002
  | .bool | .u _ | .i _ | .str _ | .oct _ =>
    match row.acc with
    | .ro => some 0x02000002
    | .const => some 0x02000002
    | .rwp => if s.dev.st = .prepare ∨ s.dev.st = .drain then none else some 0x08000011
    | .rw => none
    | .wo => none

/-- Checks 4 to 8 of a WRITE (R364): the abort code of the first that fails. -/
def State.checkWrite (s : State) (inSession : Bool) (idx sub : Nat) (data : Bytes) : Except Nat ObjRow :=
  match s.findObj idx sub with
  | .error c => .error c
  | .ok row =>
    if s.needsSession idx && !inSession then .error 0x04000001
    else match s.writeRight row with
      | some c => .error c
      | none =>
        if lengthOk row.ty data.length = false then .error 0x02000005
        else if rangeOk row idx sub (leNat data) = false then .error 0x02000006
        else .ok row

/-- Checks 4 to 6 of a READ (R364, R374). -/
def State.checkRead (s : State) (idx sub : Nat) : Except Nat ObjRow :=
  match s.findObj idx sub with
  | .error c => .error c
  | .ok row =>
    match row.ty with
    | .domain => .error 0x02000001
    | .bool | .u _ | .i _ | .str _ | .oct _ => if row.acc = .wo then .error 0x02000001 else .ok row

/-- Serves a WRITE whose effect is given: the effect answers the new state, or the abort code of the rules of
the object's chapter (R364 step 9); a refused write leaves nothing of it in effect. -/
def State.serveWrite (s : State) (r : Req) (idx sub : Nat) (data : Bytes) (eff : State → Except Nat State) : State :=
  s.serve svcWrite r idx sub data fun s =>
    match s.checkWrite (s.inSession r idx) idx sub data with
    | .error c => ⟨c, [], s⟩
    | .ok _ => match eff s with
      | .error c => ⟨c, [], s⟩
      | .ok s' => ⟨0, [], s'⟩

end Sys2Proof.Machine
end

