-- ==== Sys2Proof/Machine/Route.lean ====
section
/-! DEFINITION. Routing in the Bilzo fabric: module numbers, the modules a flooded link state reaches, and the route of a chunk
(R328, R330, R333, R338, R339, R350). -/

namespace Sys2Proof.Machine

/-! ## Module numbers and wiring (R327 to R330) -/

/-- The module number; 0xFFFF is unset (R330). -/
def State.moduleNo (s : State) : Nat := s.get 0x7800 0
def State.bays (s : State) : Nat := s.get 0x7801 0
def State.edgeNo (s : State) : Nat := s.get 0x7802 0

/-- The bay of a module number, and its slot. -/
def bayOf (m : Nat) : Nat := m / 8
def baySlot (m : Nat) : Nat := m % 8

/-- Port states of 0x7810. -/
def State.portState (s : State) (f : Nat) : Nat := s.get 0x7810 (f + 1)
def State.portUp (s : State) (f : Nat) : Bool := decide (s.portState f = 1)
def State.peerOf (s : State) (f : Nat) : Nat := s.get 0x7811 (f + 1)

/-- The bay slot that a bay port's own rule names (R327). -/
def ruleSlot (slot k : Nat) : Nat := (slot + 1 + k) % 8

/-- The port that R328 connects to global port `G` of bay `b`: bay and bay port number; none when it stays unconnected. -/
def globalPeer (nb b g : Nat) : Option (Nat × Nat) :=
  if nb < 2 ∨ 62 < g then none
  else
    let d := 1 + g % (nb - 1)
    let i := g / (nb - 1)
    let g' := nb - d - 1 + i * (nb - 1)
    if g' ≤ 62 then some ((b + d) % nb, g') else none

/-- The fabric ports that lead to other modules: all but the edge port. -/
def linkPorts : List Nat := (List.range 16).filter fun f => decide (f ≠ 7)

/-- Modules that have a working link to this one. -/
def State.neighbours (s : State) : List Nat := (linkPorts.filter s.portUp).map s.peerOf

/-- Modules that a set reaches in one more hop by the flooded link states (R350). -/
def State.spread (s : State) (l : List Nat) : List Nat :=
  (s.fab.links.filter fun x => l.contains x.module).foldl (fun l x => x.neighbours.foldl (fun l m => if l.contains m then l else m :: l) l) l

/-- Modules reached in at most `n` more hops. -/
def State.reachIn (s : State) : Nat → List Nat → List Nat
  | 0, l => l
  | n + 1, l => s.reachIn n (s.spread l)

/-- The module has a path to module `m` (R351). -/
def State.reaches (s : State) (m : Nat) : Bool := (s.reachIn 512 s.neighbours).contains m

/-- Reachable modules other than this one. -/
def State.others (s : State) : List Nat := (s.reachIn 512 s.neighbours).filter fun m => decide (m ≠ s.moduleNo)

/-- Hops from module `m` to `dest` over flooded link states, up to `n`. -/
def State.hopsFrom (s : State) (m dest : Nat) : Nat → Nat → Option Nat
  | _, 0 => none
  | k, n + 1 => if (s.reachIn k [m]).contains dest then some k else s.hopsFrom m dest (k + 1) n

/-- Ports of the best next hop to a module: direct links first, else the links of the neighbours with the fewest hops (R338). -/
def State.nextPorts (s : State) (dest : Nat) : List Nat :=
  let up := linkPorts.filter s.portUp
  let hops (f : Nat) : Option Nat := s.hopsFrom (s.peerOf f) dest 0 6
  let best := up.foldl (fun b f => match hops f, b with
    | none, _ => b
    | some h, none => some h
    | some h, some x => some (Min.min h x)) none
  up.filter fun f => decide (best.isSome) && decide (hops f = best)

/-! ## Edge numbers (R333) -/

/-- The module whose edge port a number stands for, or the module of that number. -/
def State.homeOf (s : State) (m : Nat) : Nat :=
  if m = s.edgeNo ∧ m ≠ 0xFFFF then s.moduleNo
  else match s.fab.links.find? fun x => decide (x.edge = m) && decide (m ≠ 0xFFFF) with
    | some x => x.module
    | none => m

/-- A number has a path: this module's edge port is up, or the module it stands for is reached. -/
def State.reachesNo (s : State) (m : Nat) : Bool :=
  if m = s.edgeNo ∧ m ≠ 0xFFFF then s.portUp 7 else s.reaches (s.homeOf m)

/-! ## Routes (R338, R339) -/

/-- Up ports whose peer satisfies `p`. -/
def State.portsTo (s : State) (p : Nat → Bool) : List Nat := linkPorts.filter fun f => s.portUp f && p (s.peerOf f)

/-- A module has a working link to one that satisfies `p`. -/
def State.linksTo (s : State) (m : Nat) (p : Nat → Bool) : Bool := s.fab.links.any fun x => decide (x.module = m) && x.neighbours.any p

/-- Up ports to a module that satisfies `p`, else to one of this bay that has a link to such a module. -/
def State.within2Ports (s : State) (p : Nat → Bool) : List Nat :=
  let direct := s.portsTo p
  if direct.isEmpty then s.portsTo fun m => decide (bayOf m = bayOf s.moduleNo) && s.linksTo m p else direct

/-- First hops of minimal routes to a module: its direct links, in its own bay 2 hops through another slot, and to another bay
through a link of the bay pair. -/
def State.minimalPorts (s : State) (dest : Nat) : List Nat :=
  if bayOf dest = bayOf s.moduleNo ∨ (s.portsTo fun m => decide (m = dest)).isEmpty = false then s.within2Ports fun m => decide (m = dest)
  else s.within2Ports fun m => decide (bayOf m = bayOf dest)

/-- The port with the fewest queued flits at decision `n`: what the output queues hold is measured (a free value, log entry 2). -/
def leastQueued (n : Nat) : List Nat → Option Nat
  | [] => none
  | f :: fs => match leastQueued n fs with
    | some g => if Config.queued n g < Config.queued n f then some g else some f
    | none => some f

/-- The first hop among ports: in rotation over parallel links to one module, else the one with the fewest queued flits. -/
def State.firstHop (s : State) (ports : List Nat) : Option Nat × State :=
  match ports with
  | [] => (none, s)
  | f :: _ =>
    if ports.all fun g => decide (s.peerOf g = s.peerOf f) then
      (ports[s.fab.rot % ports.length]?, { s with fab := { s.fab with rot := s.fab.rot + 1 } })
    else (leastQueued s.free ports, { s with free := s.free + 1 })

/-- Bays that a Valiant route to a bay may go through. -/
def State.viaBays (s : State) (bay : Nat) : List Nat :=
  (List.range s.bays).filter fun b => decide (b ≠ bayOf s.moduleNo) && decide (b ≠ bay) &&
    !(s.within2Ports fun m => decide (bayOf m = b)).isEmpty

/-- The route of a chunk between bays (R339): minimal or Valiant by the mode 0x7807 and the queues of their first hops; a pair of bays
with no working link is reached by Valiant routes only. -/
def State.bayRoute (s : State) (dest : Nat) : Way × State :=
  let vias := s.viaBays (bayOf dest)
  let (v, s) := s.draw
  let via := vias[v % vias.length]?
  let n := s.free
  let (p, s) := s.firstHop (s.minimalPorts dest)
  let (q, s) := match via with | some b => s.firstHop (s.within2Ports fun m => decide (bayOf m = b)) | none => (none, s)
  let mode := s.get 0x7807 0
  match p, q with
  | some x, some y =>
    if mode = 1 ∨ (mode ≠ 2 ∧ Config.queued n x ≤ 2 * Config.queued n y + s.get 0x7808 0) then (⟨some x, none⟩, s) else (⟨some y, via⟩, s)
  | some x, none => (⟨some x, none⟩, s)
  | none, some y => (⟨some y, via⟩, s)
  | none, none => (⟨none, none⟩, s)

/-- The route of a chunk to a number: the edge port, within the bay, or between bays; where R338 has none, the fewest hops. -/
def State.route (s : State) (dest : Nat) : Way × State :=
  let home := s.homeOf dest
  if home = s.moduleNo then (⟨some 7, none⟩, s)
  else
    let (w, s) :=
      if bayOf home = bayOf s.moduleNo then let (p, s) := s.firstHop (s.minimalPorts home); (Way.mk p none, s) else s.bayRoute home
    if w.port.isSome then (w, s) else let (p, s) := s.firstHop (s.nextPorts home); (⟨p, none⟩, s)

end Sys2Proof.Machine
end

