-- ==== Sys2Proof/Machine/RunOps.lean ====
section
/-! DEFINITION. Issue and completion of cues (R210, R211, R224 to R233), which ring runs (R251 to R253), array power
(R199 to R202) and completion records (R133, R254). -/

namespace Sys2Proof.Machine

open Sys2Proof.Bits

/-! ## Which list runs -/

/-- An array, or the other of its pair under full redundancy, is suspect: it issues nothing (R206, R415). -/
def State.halted (s : State) (a : Nat) : Bool := (s.twins a).any fun i => (s.arrAt i).suspect

/-- A list of rings 0 to 15 may start: RUN, the array not suspect, not under scan (R22, R242, R415). -/
def State.mayStart (s : State) (a : Nat) : Bool :=
  s.hasArray a && decide (s.dev.st = .run) && !(s.halted a) && !((s.twins a).any fun i => decide (s.power i = 4)) &&
  !(s.flag 0x8000 0 && decide (a % 2 = 1)) && !s.frozen

/-- Priority of ring `r`; ring 16 is the install ring (R251, R295). -/
def State.ringPrio (s : State) (a r : Nat) : Nat := if r < 16 then s.get (ringObj a r) 3 else s.get 0x680F 0

/-- Accession in word 0 of the cue at a ring's head. -/
def State.headAcc (s : State) (a r : Nat) : Nat := fld (cueWord (s.cueAt a (s.slotAddr a r (s.consumer a r))) 0) 31 16

/-- Ring `r` is enabled and holds a list that has not started, not one whose accession the array's ripple has yet to install
(R297). -/
def State.ringReady (s : State) (a r : Nat) : Bool :=
  if r < 16 then
    s.flag (ringObj a r) 6 && decide (s.consumer a r ≠ s.producer a r) && !((s.listsOf a).any fun x => decide (x.ring = r)) && s.mayStart a &&
    !(s.installing a (s.headAcc a r))
  else decide ((s.arrAt a).instKind ≠ 2) && decide ((s.arrAt a).instCons = 0) && !(s.arrAt a).install.isEmpty && !((s.listsOf a).any fun x => decide (x.ring = 16))

/-- Order of choice: priority downward, then the rotation that starts after the ring last started (R251). -/
def ringKey (rot prio r : Nat) : Nat := (7 - prio) * 32 + (r + 16 - rot) % 17

/-- The ring whose list the prompter would start next. -/
def State.nextRing (s : State) (a : Nat) : Option Nat :=
  let rot := (s.arrAt a).rot
  ((List.range 17).filter fun r => s.ringReady a r).foldl (fun b r => match b with
    | none => some r
    | some x => if ringKey rot (s.ringPrio a r) r < ringKey rot (s.ringPrio a x) x then some r else some x) none

/-- Priority of a started list's ring. -/
def State.runPrio (s : State) (a : Nat) (r : Run) : Nat := s.ringPrio a r.ring

/-- A ring of strictly higher priority than a list is ready (R252, R253). -/
def State.higherReady (s : State) (a : Nat) (r : Run) : Option Nat :=
  match s.nextRing a with
  | some q => if s.runPrio a r < s.ringPrio a q then some q else none
  | none => none

/-! ## Power (R199 to R202, R225) -/

/-- Requests admission for a GATED array. -/
def State.wantPower (s : State) (a : Nat) : State :=
  (s.twins a).foldl (fun s i =>
    if s.power i = 0 ∧ (s.arrAt i).wantFrom.isNone then s.modArr i fun x => { x with wantFrom := some s.now } else s) s

/-- ARITH cycles of a time at the nominal 900 MHz. -/
def arithCycles (ns : Nat) : Nat := ns * 9 / 10

/-- ARITH cycles that an array's clock delivered in what would be `n` at the nominal clock: fewer while it is stretched, how many is
measured (R203; a free value, log entry 19). -/
def State.delivered (s : State) (a n : Nat) : Nat × State :=
  if s.isStretched a then
    let (v, s) := s.fresh
    (v % (n + 1), s)
  else (n, s)

/-- A ramp-down cut short counts the cycles it delivered, and ramps up again for as many (R199, R203). -/
def State.rampBack (s : State) (i : Nat) : State :=
  let (n, s) := s.delivered i (Min.min 900 (arithCycles (s.now - (s.arrAt i).rampFrom)))
  let s := ((s.bumpBy (0x5010 + i) 3 n).bumpBy (0x5010 + i) 6 n).bump (0x5010 + i) 0xC
  (s.modArr i fun x => { x with rampFrom := s.now, rampLen := n }).setPower i 1

/-- A STREAM or DRAIN wakes its array: from GATED by a request, from RAMP-DOWN back into RAMP-UP without admission (R199, R225). -/
def State.wake (s : State) (a : Nat) : State :=
  (s.twins a).foldl (fun s i => if s.power i = 3 then s.rampBack i else s) (s.wantPower a)

/-! ## Issue (R210, R211, R224, R233) -/

/-- The running list of an array, when its prompter may issue its next cue. -/
def State.issuing (s : State) (a : Nat) : Option Run :=
  let x := s.arrAt a
  let served := match s.dev.st with | .run => true | .drain => true | .prepare => true | _ => false
  if s.frozen || s.halted a || !served || (s.flag 0x8000 0 && decide (a % 2 = 1)) then none
  else match x.run with
    | none => none
    | some r => if r.block = .none ∧ r.ending = false ∧ r.rewind = false ∧ r.resume.isNone ∧ s.posted a r then some r else none

/-- Errors found before a cue's own rules: a body that has left the library (R267), parity, sequence, accession, legality, and ADV without a LOOP. -/
def State.firstError (s : State) (a : Nat) (r : Run) (ws : List Nat) : Option CueErr :=
  if (match r.pos with | .body x => s.cueAddrOk x | .ring _ => true) = false then some .illegal
  else if parityMask ws ≠ 0 then some (.parity (parityMask ws))
  else if fld (w ws 7) 23 0 ≠ r.pos.seq then some (.sequence r.pos.seq (fld (w ws 7) 23 0))
  else if fld (w ws 0) 31 16 ≠ r.acc then some .accession
  else if legal ws = false then some .illegal
  else if (s.adds a r ws).isNone then some .illegal
  else none

/-- A cue whose effect leaves the pair, performed once by the even array (R410). -/
def externalCue (ws : List Nat) : Bool :=
  let op := w ws 0 % 256
  decide (op = opSignal) || decide (op = opCallslip) || decide (op = opEmit) || decide (op = opTap) ||
  (decide (op = opStage) && decide (fld (w ws 2) 31 30 = 1))

/-- Record of a lockstep disagreement (class 0x11): output row, arbiter array, outcome 0 majority or 1 undecidable. -/
def lockstepInfo (a row arbiter outcome : Nat) : ErrInfo :=
  { cls := 0x11, uKind := 1, unit := a, detail := natLe 2 row ++ natLe 1 arbiter ++ natLe 1 outcome }

/-- An undecidable lockstep disagreement (R412 step 7, R414): the list is abandoned and both arrays are suspect. -/
def State.undecidable (s : State) (pair row arbiter : Nat) : State :=
  let s := (s.bump 0x8009 4)
  s.suspectPair pair (lockstepInfo (2 * pair) row arbiter 1)

/-- Moves the running list past the cue it issues. -/
def State.advance (s : State) (a : Nat) (r : Run) (ws : List Nat) : State :=
  s.modRun a fun _ => { r with
    pos := r.pos.next, last := r.pos, ending := bit (w ws 0) 15, issued := r.issued + 1, progress := s.now
    evt := if r.launched = false ∧ r.issued = 0 then s.now else r.evt }

/-- Issues the running list's next cue when it has the opcode (a reserved opcode counts as NOP): the understudy's
comparison, the checks of R233, then the cue's own effect `body` on the state in which the list has moved on. -/
def State.issue (s : State) (a op : Nat) (c : CueCheck) (body : State → Run → List Nat → Adds → Except CueErr State) : State :=
  match s.issuing a with
  | none => s
  | some r =>
    let ws := words (s.cueBytes a r)
    let code := w ws 0 % 256
    if code ≠ op ∧ ¬ (op = opNop ∧ opcodes.contains code = false) then s
    else
      let s := s.countFetch a r
      match c with
      | .understudy item => s.suspectUnit
          { cls := 0x10, uKind := 1, unit := a, detail := natLe 1 item, cueAddr := s.posAddr a r r.pos, cueSeq := r.pos.seq,
            opcode := code, modelAcc := some r.acc }
      | .agree => go s r ws
      | .lockstepCue =>
        if s.flag 0x8000 0 ∧ externalCue ws = true then (s.bump 0x8009 2).undecidable (a / 2) 0xFFFF 0xFF else go s r ws
where
  go (s : State) (r : Run) (ws : List Nat) : State :=
    match s.firstError a r ws with
    | some e => s.cueError a r ws e
    | none =>
      match body (s.advance a r ws) r ws ((s.adds a r ws).getD {}) with
      | .error e => s.cueError a r ws e
      | .ok s => s.showRun a

/-! ## Restart points and completion (R226, R229) -/

/-- Changes the list of a ring, running or suspended. -/
def State.modList (s : State) (a ring : Nat) (f : Run → Run) : State :=
  let g (r : Run) : Run := if r.ring = ring then f r else r
  s.modArr a fun x => { x with run := x.run.map g, susp := x.susp.map g }

/-- Front-bank pointer of a list: its array's while it runs, its own while it is suspended. -/
def State.frontOf (s : State) (a : Nat) (r : Run) : Nat := if (s.arrAt a).run.map Run.ring = some r.ring then (s.arrAt a).front else r.front

/-- A restart point before a list's next cue. -/
def State.pointHere (s : State) (a : Nat) (r : Run) : Restart := ⟨r.pos, r.stack, s.frontOf a r, [], r.issued⟩

/-- A restart point takes effect unless a later one has (R229); a later point ends the run of aborts (R232). -/
def Run.setRestart (r : Run) (p : Restart) : Run := if r.restart.ord < p.ord then { r with restart := p, retries := 0 } else r

/-- A cue of the running list stays in flight; `external` sets an implied restart point after it. -/
def State.fly (s : State) (a : Nat) (f : Fly) (external : Bool) : State :=
  match (s.arrAt a).run with
  | none => s
  | some r => s.modRun a fun r' => { r' with fly := r'.fly ++ [{ f with implied := if external then some (s.pointHere a r) else none }] }

/-- Sets a restart point at once. -/
def State.restartHere (s : State) (a : Nat) : State :=
  match (s.arrAt a).run with
  | none => s
  | some r => s.modRun a fun r' => r'.setRestart (s.pointHere a r)

/-- A list ends (R214, R226). -/
def State.endList (s : State) (a : Nat) (r : Run) : State :=
  let s := ((s.consume a r).bump (0x5040 + a) 3).put (0x8850 + a) 3 s.now
  (s.modArr a fun x => { x with
    run := if x.run.map Run.ring = some r.ring then none else x.run
    susp := x.susp.filter fun y => decide (y.ring ≠ r.ring) }).showRun a

/-- A doorbell leaves for a module, to this module's own number without a link (R331); to one with no path it completes at once with
UNREACHABLE (R351), and its SIGNAL, which no destination accepts, does not complete. -/
def State.sendBell (s : State) (o : FabOp) (m : Nat) (d : Doorbell) : State :=
  if m ≠ s.moduleNo ∧ s.reachesNo m = false then s.bump 0x7820 4
  else
    let s := { s with fab := { s.fab with ops := s.fab.ops ++ [o] } }
    if m = s.moduleNo then s
    else
      let (w, s) := s.route m
      s.emit (.doorbellOut o.id m d w)

/-- A list's signal takes effect (R234, R237, R243); a remote one sends a doorbell. -/
def State.signal (s : State) (a : Nat) (r : Run) (light n : Nat) (trigger : Bool) (remote : Option Nat) (param : Nat) : State :=
  let seq := r.last.seq
  match remote with
  | some m =>
    let id := s.fab.nextOp
    let d := if trigger then Doorbell.trigger light param else .light light n
    let op : FabOp := { id := id, array := a, line := 0, opcode := 0, length := 0, remote := m, second := 0, result := 0, wings := false, a := 0,
                        b := 0, tag := 0, ordered := false, async := false, light := none, sent := some s.now, bell := some d, seq := seq }
    let s := { s with fab := { s.fab with nextOp := id + 1 } }
    (s.sendBell op m d).modList a r.ring fun r => { r with block := .doorbell id }
  | none =>
    if trigger then
      if s.trigOn light ∧ s.trigSource light = 5 then s.fireTrig light ⟨s.firingModel, param, s.now, none⟩ else s.bump 0x7822 0
    else s.addLight light n 0 a seq (s.posAddr a r r.last) opSignal

/-- A list's waiting SIGNAL acts once its earlier cues are complete (R224, R226, R229). -/
def State.signalDone (s : State) (a : Nat) (r : Run) : State :=
  match r.block with
  | .signal l n tr re pa =>
    if r.fly.isEmpty then
      let s := s.modList a r.ring fun r => { r with block := .none, progress := s.now }
      let s := s.signal a r l n tr re pa
      match re with
      | some _ => s
      | none => s.modList a r.ring fun y => y.setRestart (s.pointHere a r)
    else s
  | _ => s

/-- What follows a completion in the list of a ring, running or suspended (R224, R226): a SIGNAL whose earlier cues are complete, the
end of the list. -/
def State.settle (s : State) (a ring : Nat) : State :=
  match (s.listsOf a).find? fun r => r.ring = ring with
  | none => s
  | some r =>
    if r.rewind then s
    else
      let s := s.signalDone a r
      match (s.listsOf a).find? fun r => r.ring = ring with
      | none => s
      | some r => if r.ending ∧ r.block = .none ∧ r.fly.isEmpty = true then s.endList a r else s

/-- What follows a completion in the running list (R224, R226, R229): an ordered rewind, or what `State.settle` says. -/
def State.progress (s : State) (a : Nat) : State :=
  match (s.arrAt a).run with
  | none => s
  | some r =>
    if r.rewind then (if r.impliedFlying then s else s.rewind a r r.resume)
    else
      let s := s.settle a r.ring
      match (s.arrAt a).run with
      | none => s
      | some _ => s.showRun a

/-- The lists of an array with a cue of a class in flight: changes the first such list's first such cue. -/
def Run.hasFly (r : Run) (f : Fly → Bool) : Bool := r.fly.any f

/-- Removes the first cue that `f` picks, and lets its restart point take effect. -/
def Run.land (r : Run) (f : Fly → Bool) (now : Nat) : Run :=
  match r.fly.find? f with
  | none => r
  | some x =>
    let r := { r with fly := r.fly.erase x, progress := now }
    match x.implied with
    | some p => r.setRestart p
    | none => r

/-- Replaces the first list that satisfies `f`, the running one first, then the suspended ones. -/
def Arr.modFirst (x : Arr) (f : Run → Bool) (g : Run → Run) : Arr :=
  match x.run with
  | some r => if f r then { x with run := some (g r) } else { x with susp := modHead x.susp }
  | none => { x with susp := modHead x.susp }
where
  modHead : List Run → List Run
    | [] => []
    | r :: l => if f r then g r :: l else r :: modHead l

/-- A cue in flight completes (R226): the first of an array's lists that `f` picks. A suspended list's SIGNAL acts, and the list
ends, as a running one's. -/
def State.land (s : State) (a : Nat) (f : Fly → Bool) : State :=
  let s := (s.modArr a fun x => x.modFirst (fun r => r.hasFly f) fun r => r.land f s.now).progress a
  (s.arrAt a).susp.foldl (fun s r => s.settle a r.ring) s

/-- The cue in flight that `f` picks, with its list. -/
def State.flying (s : State) (a : Nat) (f : Fly → Bool) : Option (Run × Fly) :=
  (s.listsOf a).findSome? fun r => (r.fly.find? f).map fun x => (r, x)

/-! ## Suspension (R204, R205, R252, R253) -/

/-- The running list is suspended; a waiting WAIT or HOLD counts as not yet issued. -/
def State.suspend (s : State) (a : Nat) (r : Run) : State :=
  let s := s.leaveQueue a 1 r
  let back := match r.block with | .wait _ _ _ => true | .hold _ => true | _ => false
  let r := if back then { r with pos := r.last, block := .none, ending := false, issued := r.issued - 1 } else r
  let s := s.bump (0x5040 + a) 6
  (s.modArr a fun x => { x with run := none, susp := { r with front := x.front } :: x.susp }).showRun a

/-- The latest suspended list resumes (R204, R253): at its next cue, or from its restart point when a bank it had not drained
was opened again. -/
def State.resumeList (s : State) (a : Nat) : State :=
  match (s.arrAt a).susp with
  | [] => s
  | r :: l =>
    ((s.modArr a fun x => { x with run := some r, susp := l, front := r.front }).progress a).showRun a

/-- Suspended lists that lose undrained banks to an opening STREAM (R204). -/
def Arr.loseBanks (x : Arr) (ring : Nat) (banks : List Nat) : Arr :=
  let lost (b : AccBank) : Option Nat := if b.opened && !b.drained && decide (b.owner ≠ ring) then some b.owner else none
  let gone := banks.filterMap fun i => lost (if i = 0 then x.bank0 else x.bank1)
  { x with susp := x.susp.map fun r => if gone.contains r.ring then { r with rewind := true } else r }

/-! ## Completion records (R133, R134, R254, R441) -/

/-- The completion record of R254. -/
def completionBytes (a acc lw1 now : Nat) (d : DrainRes) : Bytes :=
  natLe 4 (a * 2 ^ 24 + d.seq % 2 ^ 24) ++ natLe 2 acc ++ natLe 1 d.flags ++ natLe 1 0 ++ natLe 8 now ++ natLe 4 (Min.min d.nans (2 ^ 32 - 1)) ++
  natLe 2 d.nanRow ++ natLe 2 d.nanCol ++ natLe 2 d.rows ++ natLe 2 (lw1 % 65536) ++ natLe 4 0

/-- Raises an event for each sticky flag that rises with its enable bit set (R133, R134). -/
def State.stickyEvents (s : State) (a old new : Nat) : State :=
  (List.range 4).foldl (fun s i =>
    if bit new i && !(bit old i) && bit (s.get (0x5060 + a) 3) i then s.raise (Config.eventCode 4) (0x5060 + a) 1 else s) s

/-- A DRAIN's completion record is issued: into the completion log, the logbook when selected, and the sticky flags. -/
def State.completionRecord (s : State) (a : Nat) (r : Run) (d : DrainRes) : State :=
  let bs := completionBytes a r.acc r.lw1 s.now d
  let i := s.get (0x5070 + a) 1
  let s := s.modArr a fun x => { x with log := Sparse.write (fun _ => 0) x.log (i % 256) (leNat bs) }
  let s := s.put (0x5070 + a) 1 ((i + 1) % 2 ^ 32)
  let s := if bit (s.get 0x880E 0) a then s.logRecord 4 0x31 1 a bs else s
  let s := s.bumpBy (0x5060 + a) 2 d.nans
  let old := s.get (0x5060 + a) 1
  let s := (s.put (0x5060 + a) 1 (old ||| d.flags)).stickyEvents a old (old ||| d.flags)
  if d.watch.isEmpty then s else (s.logRecord 4 0x30 1 a d.watch).bump 0x8831 0

end Sys2Proof.Machine
end

