-- ==== Sys2Proof/Machine/Lists.lean ====
section
/-! DEFINITION. Starting, pre-empting and resuming lists (R214, R222, R251 to R253), and array power (R199 to R202). -/

namespace Sys2Proof.Machine

open Sys2Proof.Bits

/-- A list that starts at a position (R218, R222, R229): its first cue is a restart point. -/
def newRun (ring start : Nat) (launched : Bool) (acc lw0 lw1 evt : Nat) (pos : Pos) (front now : Nat) : Run :=
  { ring := ring, start := start, launched := launched, acc := acc, lw0 := lw0, lw1 := lw1, evt := evt, pos := pos,
    restart := ⟨pos, [], front, [], 0⟩, progress := now, last := pos }

/-- An accession under which lists may run: the active one, that of a commit now due, or the one that retires (R222, R289). -/
def State.accessionLive (s : State) (acc : Nat) : Bool :=
  decide (acc = s.activeModel) || decide (acc = s.firingModel) || (match s.lib.retiring with | some m => decide (m.acc = acc) | none => false)

/-- Starts the list at the head of ring `r`. The launch cue, and a host list's first cue, are checked for parity, sequence and
accession in this order (R216, R222, R223, R233); a launch cue that fails is read again at each of the list's attempts. -/
def State.startList (s : State) (a r : Nat) : State :=
  let i := s.consumer a r
  let bs := s.cueAt a (s.slotAddr a r i)
  let ws := words bs
  let front := (s.arrAt a).front
  let acc := fld (w ws 0) 31 16
  let bad : Option CueErr :=
    if parityMask ws ≠ 0 then some (.parity (parityMask ws))
    else if fld (w ws 7) 23 0 ≠ i % 2 ^ 24 then some (.sequence (i % 2 ^ 24) (fld (w ws 7) 23 0))
    else if s.accessionLive acc then none else some .accession
  let run := if s.launchAt a r i then
      let pos : Pos := if bad.isNone then .body (w ws 1) else .ring i
      { newRun r i true acc (w ws 2) (w ws 3) (w ws 4 + w ws 5 * 2 ^ 32) pos front s.now with tap := s.tapLaunch a r i }
    else newRun r i false acc 0 0x200 s.now (.ring i) front s.now
  let s := ((s.countCue (s.slotAddr a r i)).modArr a fun x => { x with run := some run, rot := r }).bump (ringObj a r) 0xA
  let s := (s.wantPower a).showRun a
  match bad with
  | some e => s.cueError a run ws e
  | none => s

/-- LIST_START (R214, R222, R251, R253): no list runs; the highest-priority ready ring starts its list. -/
def execListStart (a : Fin 16) (t : Nat) (s : State) : Result :=
  let s := s.at t
  match (s.arrAt a.val).run, s.nextRing a.val with
  | none, some r =>
    let above := match (s.arrAt a.val).susp with | [] => true | x :: _ => decide (s.runPrio a.val x < s.ringPrio a.val r)
    if r < 16 ∧ above = true then .next (s.startList a.val r) else .next s
  | _, _ => .next s

/-- A list may be taken off its array: it stands at a cue boundary (R204). -/
def Run.atBoundary (r : Run) : Bool := match r.block with | .doorbell _ => false | .stopped => false | _ => true

/-- The pre-emption by ring `q` is urgent (R252). -/
def State.isUrgent (s : State) (a q : Nat) (r : Run) : Bool :=
  decide (q < 16) && s.flag (ringObj a q) 4 && !(decide (r.ring < 16) && s.flag (ringObj a r.ring) 4)

/-- PRE_EMPTION (R204, R252): a ring of strictly higher priority is ready. -/
def execPreEmption (a : Fin 16) (t : Nat) (s : State) : Result :=
  let s := s.at t
  match (s.arrAt a.val).run with
  | none => .next s
  | some r => match s.higherReady a.val r with
    | some q => if r.atBoundary ∧ s.isUrgent a.val q r = false then .next (s.suspend a.val r) else .next s
    | none => .next s

/-- URGENT_PRE_EMPTION (R205, R252): the running STREAM is aborted and its bank discarded, and the list rewound. -/
def execUrgentPreEmption (a : Fin 16) (t : Nat) (s : State) : Result :=
  let s := s.at t
  match (s.arrAt a.val).run with
  | none => .next s
  | some r => match s.higherReady a.val r with
    | some q =>
      if r.atBoundary ∧ s.isUrgent a.val q r = true then
        let cut := r.fly.filter fun f : Fly => decide (f.cls = CueClass.stream)
        let s := if cut.isEmpty then s else s.bump (0x5010 + a.val) 0xE
        let s := s.modArr a.val fun x => x.discard (cut.flatMap fun f => if f.bank = 2 then [0, 1] else [f.bank])
        let s := s.leaveQueue a.val 1 r
        let r := { r with fly := r.fly.filter fun f : Fly => decide (f.cls ≠ CueClass.stream) }
        let s := if r.impliedFlying then s.modRun a.val fun _ => { r with block := .none, ending := false, rewind := true }
                 else s.rewind a.val r none
        match (s.arrAt a.val).run with
        | some r => .next (s.suspend a.val r)
        | none => .next s
      else .next s
    | none => .next s

/-- LIST_RESUME (R204, R253): no list runs, and no ring of higher priority than the latest suspended list is ready. -/
def execListResume (a : Fin 16) (t : Nat) (s : State) : Result :=
  let s := s.at t
  match (s.arrAt a.val).run, (s.arrAt a.val).susp with
  | none, r :: _ =>
    if (s.higherReady a.val r).isNone ∧ s.halted a.val = false ∧ s.frozen = false then .next (s.resumeList a.val) else .next s
  | _, _ => .next s

/-- SKEW_RESUME (R230): a list rewound for a scale skew resumes 1 µs later. -/
def execSkewResume (a : Fin 16) (t : Nat) (s : State) : Result :=
  let s := s.at t
  match (s.arrAt a.val).run with
  | none => .next s
  | some r => match r.resume with
    | some x => if x ≤ s.now then .next (s.modRun a.val fun r => { r with resume := none, progress := s.now }) else .next s
    | none => .next s

/-! ## The governor and the power ramps -/

/-- The array admitted next: the earliest request, the lowest number among equals (R200). -/
def State.nextAdmitted (s : State) : Option Nat :=
  (List.range 16).foldl (fun b a => match (s.arrAt a).wantFrom, b with
    | none, _ => b
    | some _, none => if s.power a = 0 then some a else none
    | some x, some c => if s.power a = 0 ∧ x < ((s.arrAt c).wantFrom.getD 0) then some a else b) none

/-- GOVERNOR_ADMIT (R199, R200): at most one array in 256 ARITH cycles enters RAMP-UP. -/
def execGovernorAdmit (cycle t : Nat) (s : State) : Result :=
  let s := s.at t
  let free : Bool := match s.sync.lastAdmit with | none => true | some c => decide (c + s.get 0x5001 0 ≤ cycle)
  match s.nextAdmitted with
  | none => .next s
  | some a =>
    if free = true ∧ s.frozen = false then
      let (waited, s) := s.delivered a (arithCycles (s.now - ((s.arrAt a).wantFrom.getD s.now)))
      let s := ((s.bumpBy (0x5010 + a) 0xB waited).bump (0x5010 + a) 0xC).setPower a 1
      let s := s.modArr a fun x => { x with wantFrom := none, rampFrom := s.now, rampLen := 256 }
      .next { s with sync := { s.sync with lastAdmit := some cycle } }
    else .next s

/-- RAMP_UP_COMPLETE (R199, R201). -/
def execRampUpComplete (a : Fin 16) (t : Nat) (s : State) : Result :=
  let s := s.at t
  if s.power a.val = 1 ∧ s.frozen = false then
    let n := (s.arrAt a.val).rampLen
    .next (((s.bumpBy (0x5010 + a.val) 3 n).bumpBy (0x5010 + a.val) 6 n).setPower a.val 2)
  else .next s

/-- No STREAM or DRAIN of the array, or of its pair under full redundancy, is in flight (R202, R409). -/
def State.quiet (s : State) (a : Nat) : Bool :=
  (s.twins a).all fun i => (s.listsOf i).all fun r => r.fly.all fun f => decide (f.cls ≠ .stream) && decide (f.cls ≠ .drain)

/-- RAMP_DOWN_START (R188, R201, R202): a gap longer than the hold period, with gating enabled and no DRAIN pending. The gap's last
cycle is the ramp's first; those before it are bubbles, the first `hold` of them with a dummy operation. -/
def execRampDownStart (a : Fin 16) (gap t : Nat) (s : State) : Result :=
  let s := s.at t
  let hold := s.get (0x5020 + a.val) 1
  if s.power a.val = 2 ∧ s.flag (0x5020 + a.val) 2 ∧ hold < gap ∧ s.quiet a.val = true ∧ s.frozen = false then
    let s := ((s.bumpBy (0x5010 + a.val) 3 (gap - 1)).bumpBy (0x5010 + a.val) 5 (gap - 1)).bumpBy (0x5010 + a.val) 6 hold
    .next ((s.modArr a.val fun x => { x with rampFrom := s.now }).setPower a.val 3)
  else .next s

/-- RAMP_DOWN_COMPLETE (R199, R202): the island is gated and its banks count as unopened. -/
def execRampDownComplete (a : Fin 16) (t : Nat) (s : State) : Result :=
  let s := s.at t
  if s.power a.val = 3 ∧ s.frozen = false then
    let (n, s) := s.delivered a.val 900
    let s := (s.bumpBy (0x5010 + a.val) 3 n).bumpBy (0x5010 + a.val) 6 n
    .next ((s.modArr a.val Arr.closeBanks).setPower a.val 0)
  else .next s

end Sys2Proof.Machine
end

