-- ==== Sys2Proof/Machine/Reset.lean ====
section
/-! DEFINITION. What a reset clears (R345, R365, R375, R425, R428): everything but the flash, the fuses and what is named
here. -/

namespace Sys2Proof.Machine

/-- Read-only objects that a warm reset keeps: the last reset and fault causes, the clock state, the uncorrectable errors
since cold start, and the logbook's write offset, wraps and sequence (R269, R424, R437, R493). -/
def keptRo (idx : Nat) : Bool :=
  idx == 0x2004 || idx == 0x2005 || idx == 0x2405 || idx == 0x6018 || idx == 0x8809 || idx == 0x880A || idx == 0x880B

/-- An object keeps its value through a warm reset: what the host writes, but not the cue lights, the sticky exceptions
and peek data (R375, R397). -/
def keptWarm (k : Nat) : Bool :=
  let idx := k / 65536
  let sub := k % 65536
  if idx = 0x5400 ∨ idx = 0x1808 ∨ (0x5060 ≤ idx ∧ idx ≤ 0x506F ∧ sub = 1) then false
  else if keptRo idx then true
  else match objRow? idx sub with
    | some r => decide (r.acc = .rw) || decide (r.acc = .rwp)
    | none => false

/-- Everything volatile is cleared; a cold reset takes every object to its default and the house clock with it. A trigger that stays
enabled keeps its place among its occurrences (R240). -/
def State.clearVolatile (s : State) (cold : Bool) : State :=
  { s with
    dict := if cold then [] else s.dict.filter fun e => keptWarm e.1
    staged := []
    clock := if cold then { house := s.clock.house } else { s.clock with parent := none }
    mgmt := {}
    odp := { eventSeq := if cold then 0 else s.odp.eventSeq }
    saving := none
    line := Vector.replicate 4 {}
    intake := { bank := { graph := preloadGraph } }
    pkts := []
    egr := {}
    cat := {}
    tree := {}
    arr := Vector.replicate 16 {}
    sync := if cold then {} else {
      trigs := (s.sync.trigs.map fun e => (e.1, { e.2 with wait := none, fired := none })).filter fun e => decide (e.2 ≠ ({} : Trig)) }
    lib := {}
    fab := {}
    memc := { seed := if cold then 0 else s.memc.seed, void := s.memc.void }
    rel := { faultLog := if cold then [] else s.rel.faultLog }
    obs := { dump := !cold && s.obs.dump, dumpTime := if cold then 0 else s.obs.dumpTime }
    trust := { s.trust with
      challenge := if cold then 0 else s.trust.challenge
      tainted := !cold && s.trust.tainted
      level := 0, report := none, instruction := 0, ownerWrite := none } }

end Sys2Proof.Machine
end

