-- ==== Sys2Proof/Machine/Device.lean ====
section
/-! DEFINITION. The device state machine (R22 to R24, R378 to R381), resets (R492, R493) and the safety
curtain (R33, R485, R496) as operations. -/

namespace Sys2Proof.Machine

open Sys2Proof.Bits

/-! ## Curtain -/

/-- In-line pairs in use under the attach mode (R33): both in IN-LINE, P0/P1 in MIXED, none in LOOK-ASIDE. -/
def State.pairInUse (s : State) (pair : Nat) : Bool :=
  match s.get 0x3000 0 with
  | 0 => true
  | 2 => decide (pair = 0)
  | _ => false

/-- The ports of an in-line pair in use differ in port mode, FEC or electrical interface (R32; log entry 20). -/
def State.pairMismatch (s : State) : Bool :=
  [0, 1].any fun k => s.pairInUse k &&
    ([0x3001, 0x3002, 0x3003].any fun idx => decide (s.get idx (2 * k + 1) ≠ s.get idx (2 * k + 2)))

/-- An element whose gate is connected to VCG starts to open (R485, R496). -/
def Elem.open_ : Elem → Elem
  | .closed => .opening
  | .closing => .opening
  | .opening => .opening
  | .isOpen => .isOpen

/-- An element whose gate is discharged starts to close (R485, R496). -/
def Elem.close : Elem → Elem
  | .isOpen => .closing
  | .opening => .closing
  | .closing => .closing
  | .closed => .closed

/-- An element completes its switch (R496). -/
def Elem.settle : Elem → Elem
  | .opening => .isOpen
  | .closing => .closed
  | .isOpen => .isOpen
  | .closed => .closed

/-- Each pair follows the in-line gate switch when it is in use; one not in use stays closed, or closes (R33, R485). -/
def State.setPairs (s : State) : State :=
  { s with pwr := { s.pwr with
    pair01 := if s.pairInUse 0 && s.pwr.gateInline then s.pwr.pair01.open_ else s.pwr.pair01.close
    pair23 := if s.pairInUse 1 && s.pwr.gateInline then s.pwr.pair23.open_ else s.pwr.pair23.close } }

/-- Connects the gates of the pairs in use to VCG (R485); without VCG nothing opens. -/
def State.openCurtain (s : State) : State :=
  if s.pwr.vcgUp then { s with pwr := { s.pwr with gateInline := true } }.setPairs else s

/-- Opens the in-line gate switch: both pairs close (R33, R485). -/
def State.closeCurtain (s : State) : State :=
  { s with pwr := { s.pwr with gateInline := false, pair01 := s.pwr.pair01.close, pair23 := s.pwr.pair23.close } }

/-- Connects the management-ring bypass gates to VCG (R356, R485). -/
def State.openRing (s : State) : State :=
  if s.pwr.vcgUp then { s with pwr := { s.pwr with gateRing := true, ring := s.pwr.ring.open_ } } else s

/-- Opens the ring gate switch: the management-ring bypass closes (R356, R485). -/
def State.closeRing (s : State) : State :=
  { s with pwr := { s.pwr with gateRing := false, ring := s.pwr.ring.close } }

/-- On any reset assertion and every entry into FAULT, hardware opens both gate switches (R24, R485, R493). -/
def State.closeAll (s : State) : State := s.closeCurtain.closeRing

/-- Loss of VCG closes every element (R496). -/
def State.loseVcg (s : State) : State :=
  let s := s.closeAll
  { s with pwr := { s.pwr with vcgUp := false } }

/-- The management ports leave the ring: R356 closes the bypass, both links fall. -/
def State.leaveRing (s : State) : State :=
  ({ s with mgmt := { s.mgmt with link0 := false, link1 := false, joined := false, joinStart := none, retryAt := none } }.put
    0x1801 1 0).put 0x1801 2 0

/-! ## Resets -/

/-- A cold reset outranks a warm one (R493). -/
def BootKind.isCold : BootKind → Bool
  | .cold => true
  | .resetN => false
  | .host => false
  | .fault => false
  | .test => false

/-- Codes of the last reset cause (0x2004:00). -/
def causePowerOn : Nat := 1
def causeResetN : Nat := 2
def causeHost : Nat := 3
def causeFault : Nat := 4
def causeTest : Nat := 5

/-- Enters RESET (R22, R378, R492). A reset that overlaps one under way forms one reset with it, and only a
cold one over a warm one changes its kind and cause (R493). -/
def State.toReset (s : State) (kind : BootKind) (cause : Nat) : State :=
  if s.dev.st = .off then s
  else if s.dev.st = .reset ∧ (kind.isCold = false ∨ s.dev.boot.isCold = true) then s
  else
    let s := (s.closeAll).leaveRing
    let s := s.enter .reset
    let s := s.clearVolatile kind.isCold
    { s with
      dev := { s.dev with boot := kind, trans := .none, noFaultReset := false }
      dict := Sparse.write objDefault s.dict (objKey 0x2004 0) cause
      pwr := { s.pwr with evtOut := false, evtEnd := none, throttledFrom := none } }

/-- Enters OFF (R482, R485): VCG is discharged first, then the other rails; the house clock stops (R345). -/
def State.toOff (s : State) : State :=
  let s := s.loseVcg.leaveRing
  let s := s.enter .off
  let s := s.clearVolatile true
  { s with
    dev := { s.dev with boot := .cold, trans := .none, noFaultReset := false }
    pwr := { s.pwr with
      railsGood := false, coldPending := false, evtOut := false, evtEnd := none, outOfBand := false, throttledFrom := none
      droop := 0, stretched := 0 } }

/-- The rails are raised in the order of R485 and declared good: VCG stands, both gate switches stay open,
and the house clock starts from 0 (R345). -/
def State.railsUp (s : State) : State :=
  { s with
    pwr := { s.pwr with railsGood := true, vcgUp := true, gateInline := false, gateRing := false, coldPending := false }
    clock := { s.clock with house := 0 } }

/-- Entry into FAULT (R22 to R24, R378, R424): the curtain closes, lists stop, packets are discarded and not
counted (R315), and the record of the cause is written. In FAULT a further fault only writes its record;
in OFF nothing happens. -/
def State.toFault (s : State) (e : ErrInfo) : State :=
  if s.dev.st = .off then s
  else if s.dev.st = .fault then s.errorRecord e
  else
    let s := (s.closeAll).leaveRing
    let s := s.enter .fault
    let s := { s with dev := { s.dev with trans := .none, stopAt := some s.now } }
    let s := ((s.abandonAll).flushPackets false).linksDown
    let s := s.put 0x2005 0 e.cls
    let recNo := s.flash.recNo
    let s := s.errorRecord e
    s.requestDump 2 recNo none

/-! ## State requests (R379, R380) -/

/-- Enters DRAIN from RUN: unstarted lists, pending firings and the like are discarded (R242). -/
def State.toDrain (s : State) : State := (s.enter .drain).drainEntry

/-- Leaves DRAIN for PREPARE (R380, R315): remaining lists abandoned, packets discarded and counted, curtain
closed. -/
def State.drainToPrepare (s : State) : State :=
  let s := ((s.abandonAll).flushPackets true).closeCurtain.linksDown
  let s := s.enter .prepare
  { s with dev := { s.dev with trans := .none } }

/-- A transition is in progress (R379). -/
def Trans.busy : Trans → Bool
  | .none => false
  | .toRun _ => true
  | .toPrepare _ => true

/-- Begins the way from PREPARE to RUN (R33): SerDes powered, transmitters squelched (link status 2). -/
def State.startRun (s : State) : State :=
  let s := { s with dev := { s.dev with trans := .toRun s.now } }
  let sq (s : State) (p : Nat) : State := if s.pairInUse (p / 2) then s.put 0x3005 (p + 1) 2 else s
  sq (sq (sq (sq s 0) 1) 2) 3

/-- Enters TEST: the whole scan content is applied to the die, whose clocks stop (R418, R443), and a running rehash ends (R84). -/
def State.enterTest (s : State) : State :=
  let s := (s.enter .test).endRehash 0
  let s := { s with dev := { s.dev with stopAt := some s.now } }
  s.fwMarker 0x0005 (natLe 1 0xFF ++ natLe 1 0)

/-- A write of a target code to the state request object (R378, R379, R416): the new state, or the abort
code. 0x5A is always accepted. -/
def State.stateRequest (s : State) (code : Nat) : Except Nat State :=
  if code = 0x5A then .ok (s.toReset .host causeHost)
  else if code < 2 ∨ 6 < code then .error 0x02000006
  else if s.dev.trans.busy then .error 0x08000010
  else match s.dev.st, code with
    | .prepare, 4 => if s.flash.replacement then .error 0x08000012 else if s.pairMismatch then .error 0x08000036 else .ok s.startRun
    | .prepare, 6 => .ok (s.enterTest)
    | .run, 5 => .ok s.toDrain
    | .drain, 4 => if s.flash.replacement then .error 0x08000012 else if s.pairMismatch then .error 0x08000036
                   else .ok (s.openCurtain.enter .run).fillShapers
    | .drain, 3 => .ok { s with dev := { s.dev with trans := .toPrepare s.now } }
    | .drain, 6 => if s.listsRunning then .error 0x08000010
                   else .ok ((s.closeCurtain.linksDown).enterTest)
    | .test, 3 => .ok (s.toReset .test causeTest)
    | _, _ => .error 0x08000010

end Sys2Proof.Machine
end

