-- ==== Sys2Proof/Machine/Power.lean ====
section
/-! DEFINITION. Power, pins and device state: the commands of chapter Power, reset, safety curtain and
connectors and of the device state machine. A command whose condition does not hold leaves the state as
it is but for house time (log entry 8). -/

namespace Sys2Proof.Machine

open Sys2Proof.Bits

/-- INPUT_BELOW_RANGE (R482, R485): below 36.0 V the module enters OFF. -/
def execInputBelowRange (mv t : Nat) (s : State) : Result :=
  let s := s.at t
  if mv < 36000 ∧ s.dev.st ≠ .off then
    let s := s.toOff
    .next { s with pwr := { s.pwr with vin := mv } }
  else .next s

/-- INPUT_VALID (R482, R483, R485): above 38.0 V for 10 ms the module leaves OFF for RESET. -/
def execInputValid (mv t : Nat) (s : State) : Result :=
  let s := s.at t
  if 38000 < mv ∧ s.dev.st = .off then
    let s := s.railsUp
    let s := s.enter .reset
    .next { s with
      pwr := { s.pwr with vin := mv, outOfBand := decide (mv < 40000) || decide (60000 < mv) }
      dev := { s.dev with boot := .cold }
      dict := Sparse.write objDefault s.dict (objKey 0x2004 0) causePowerOn }
  else .next s

/-- A supply-limit record (class 0x24): unit sensor, detail rail and voltage in mV. -/
def supplyLimit (rail : Nat) (mv : Int) : ErrInfo :=
  { cls := 0x24, uKind := 10, unit := rail, detail := natLe 2 rail ++ natLe 4 (ofInt 32 mv)
    volt := if rail = 4 then some (ofInt 16 mv) else none }

/-- INPUT_OVERVOLTAGE (R482): above 62.0 V for 10 µs. -/
def execInputOvervoltage (mv t : Nat) (s : State) : Result :=
  let s := s.at t
  if 62000 < mv ∧ s.dev.st ≠ .off then
    .next (({ s with pwr := { s.pwr with vin := mv, outOfBand := true } }).toFault (supplyLimit 0 mv))
  else .next s

/-- INPUT_VOLTAGE_EVENT (R481): the input leaves or returns to 40.0–60.0 V while the module keeps running. -/
def execInputVoltageEvent (mv t : Nat) (s : State) : Result :=
  let s := s.at t
  if s.dev.st ≠ .off ∧ 36000 ≤ mv ∧ mv ≤ 62000 then
    let out := decide (mv < 40000) || decide (60000 < mv)
    let changed := out != s.pwr.outOfBand
    let s := { s with pwr := { s.pwr with vin := mv, outOfBand := out } }
    if changed then .next (s.raise 0x00040001 0x9801 0) else .next s
  else .next s

/-- RESET_N_ASSERTED (R492, R493): a low of 0.5 µs is recognised, one below 0.2 µs is not, one between may
be (a free value). A low of 1 s or more stays low for COLD_RESET. -/
def execResetNAsserted (lowNs t : Nat) (s : State) : Result :=
  let s := s.at t
  let seen := decide (500 ≤ lowNs) || (decide (200 ≤ lowNs) && Config.pulseSeen s.free)
  let s := { s with free := s.free + 1 }
  if seen then
    let s := s.toReset .resetN causeResetN
    .next { s with pwr := { s.pwr with resetN := decide (lowNs < 1000000000) } }
  else .next s

/-- COLD_RESET (R492): RESET_N has stayed low for 1 s: the rails are lowered as in OFF, and the cold start
waits for RESET_N to rise. -/
def execColdReset (t : Nat) (s : State) : Result :=
  let s := s.at t
  if s.pwr.resetN = false ∧ s.dev.st ≠ .off ∧ s.pwr.coldPending = false then
    let s := (s.toReset .cold causeResetN).loseVcg
    .next { s with pwr := { s.pwr with coldPending := true, railsGood := false, droop := 0, stretched := 0 } }
  else .next s

/-- RESET_N_RISES (R492): after a cold reset the module performs a cold start, raising its rails. -/
def execResetNRises (t : Nat) (s : State) : Result :=
  let s := s.at t
  let s := { s with pwr := { s.pwr with resetN := true } }
  if s.pwr.coldPending then .next s.railsUp else .next s

/-- Set voltage of a rail in mV (R484). -/
def railSet : Rail → Int
  | .vbus => 6000
  | .v3p3 => 3300
  | .vcg => -5000
  | .vcore => 750
  | .vsram => 800
  | .vserdes => 900
  | .vserdesh => 1200
  | .vio => 1800
  | .vpp => 1800
  | .vdd2 => 1050
  | .vddq => 500
  | .visl _ => 750

/-- Code of a rail in records and objects (R505). -/
def railCode : Rail → Nat
  | .vbus => 1
  | .v3p3 => 2
  | .vcg => 3
  | .vcore => 4
  | .vsram => 5
  | .vserdes => 6
  | .vserdesh => 7
  | .vio => 8
  | .vpp => 9
  | .vdd2 => 10
  | .vddq => 11
  | .visl a => 16 + a.val

/-- A rail stands more than 8 % off its set voltage (R486). -/
def railOut (r : Rail) (mv : Int) : Bool := decide ((railSet r).natAbs * 8 < (mv - (railSet r)).natAbs * 100)

/-- The rail counts: once the rails are good, and not that of a gated island (R486). -/
def State.railCounts (s : State) (r : Rail) : Bool :=
  s.pwr.railsGood && (match r with
    | .visl a => s.islandPowered a.val
    | .vbus => true | .v3p3 => true | .vcg => true | .vcore => true | .vsram => true | .vserdes => true
    | .vserdesh => true | .vio => true | .vpp => true | .vdd2 => true | .vddq => true)

/-- RAIL_OUT_OF_TOLERANCE (R486, R496): a rail outside ±8 % for 10 µs. The rail of a gated island counts
for nothing; loss of VCG closes every element. -/
def execRailOutOfTolerance (rail : Rail) (mv : Int) (t : Nat) (s : State) : Result :=
  let s := s.at t
  if railOut rail mv && s.railCounts rail && decide (s.dev.st ≠ .off) then
    let s := if rail = .vcg then s.loseVcg else s
    .next (s.toFault (supplyLimit (railCode rail) mv))
  else .next s

/-- DROOP_DETECTED (R487): the region's clock runs at half frequency; the droop is counted. -/
def execDroopDetected (region : Fin 17) (t : Nat) (s : State) : Result :=
  let s := s.at t
  let r := region.val
  if s.pwr.railsGood = false ∨ (r < 16 ∧ s.hasArray r = false) ∨ s.pwr.droop.testBit r then .next s
  else
    let s := { s with pwr := { s.pwr with droop := setFld s.pwr.droop r r 1, stretched := setFld s.pwr.stretched r r 1 } }
    let s := if r < 16 ∧ s.flag 0x8000 0 then
        { s with pwr := { s.pwr with stretched := setFld s.pwr.stretched (nxor r 1) (nxor r 1) 1 } } else s
    .next (s.bump 0x9807 (r + 1))

/-- DROOP_RECOVERED (R487): the rail has stayed above 97 % for 1 µs. -/
def execDroopRecovered (region : Fin 17) (t : Nat) (s : State) : Result :=
  let s := s.at t
  .next { s with pwr := { s.pwr with droop := setFld s.pwr.droop region.val region.val 0 } }

/-- Entry temperature of thermal step `n` in 1/16 °C (R488). -/
def stepEnter (n : Nat) : Int := 16 * (match n with | 1 => 95 | 2 => 98 | 3 => 101 | _ => 103)

/-- Temperature below which step `n` is left, in 1/16 °C (R488). -/
def stepLeave (n : Nat) : Int := 16 * (match n with | 1 => 92 | 2 => 95 | 3 => 98 | _ => 100)

/-- The step after one evaluation: at most one step up or down (R488). -/
def thermalNext (step : Nat) (hottest : Int) : Nat :=
  if step < 4 ∧ stepEnter (step + 1) ≤ hottest then step + 1
  else if 0 < step ∧ hottest < stepLeave step then step - 1
  else step

/-- THERMAL_EVALUATION (R488): every 1 ms the step moves by at most one; each entry upward raises a throttle
event. House time at step 1 or above accumulates in 0x9809. -/
def execThermalEvaluation (hottest : Int) (t : Nat) (s : State) : Result :=
  let s := s.at t
  if s.dev.st = .off ∨ s.dev.st = .reset ∨ s.dev.st = .fault then .next s
  else
    let old := s.get 0x9800 0
    let new := thermalNext old hottest
    if new = old then .next s
    else
      let s := s.put 0x9800 0 new
      let s := { s with pwr := { s.pwr with stretched := s.pwr.stretched ||| 0xFFFF } }
      let s := match s.pwr.throttledFrom with
        | none => { s with pwr := { s.pwr with throttledFrom := if new = 0 then none else some s.now } }
        | some t0 =>
          if new = 0 then ({ s with pwr := { s.pwr with throttledFrom := none } }).bumpBy 0x9809 0 (s.now - t0) else s
      if old < new then .next ((s.bump 0x9808 new).raise 0x00040002 0x9800 0) else .next s

/-- THERMAL_LIMIT (R489): a die or DRAM-die sensor at 105 °C or above; the board inlet sensor is neither. -/
def execThermalLimit (sensor : Fin 29) (temp : Int) (t : Nat) (s : State) : Result :=
  let s := s.at t
  if 16 * 105 ≤ temp ∧ sensor.val < 28 ∧ s.dev.st ≠ .off then
    .next (s.toFault { cls := 0x23, uKind := 10, unit := sensor.val, detail := natLe 2 (ofInt 16 temp), temp := some (ofInt 16 temp) })
  else .next s

/-- DRAM_REFRESH_ADJUST (R489): at 85 °C a die's refresh interval is halved, below 82 °C restored. -/
def execDramRefreshAdjust (die : Fin 8) (temp : Int) (t : Nat) (s : State) : Result :=
  let s := s.at t
  if s.dev.st = .off then .next s
  else
    if 16 * 85 ≤ temp then
      .next { s with pwr := { s.pwr with refreshHalved := setFld s.pwr.refreshHalved die.val die.val 1 } }
    else if temp < 16 * 82 then
      .next { s with pwr := { s.pwr with refreshHalved := setFld s.pwr.refreshHalved die.val die.val 0 } }
    else .next s

/-- A whole second nearest a house time. -/
def nearestSecond (h : Nat) : Nat := (h + 500000000) / 1000000000 * 1000000000

/-- House time moves so that the edge, 3 ns of input delay back, lies at `want` (R347, R500). -/
def State.ppsSet (s : State) (want : Nat) : State :=
  { s with clock := { s.clock with house := want + 3, ppsBad := 0, ppsNext := none, ppsLocked := true } }

/-- PPS_IN_EDGE (R347, R500): used only while the source is PPS_IN. The first edge, or one after a write of
0x2404:00, sets the seconds; a locked clock discards an edge more than 100 µs off, and after three
consecutive discards relocks with a step. -/
def execPpsInEdge (t : Nat) (s : State) : Result :=
  let s := s.at t
  if s.get 0x2400 0 ≠ 1 ∨ s.clockRuns = false then .next s
  else
    let edge := s.now - 3
    let near := match s.clock.ppsNext with
      | some v => v * 1000000000
      | none => nearestSecond edge
    let far := decide (100000 < near - edge + (edge - near))
    if s.clock.ppsLocked && far then
      let s := (s.bump 0x240C 0)
      let bad := s.clock.ppsBad + 1
      let s := { s with clock := { s.clock with ppsBad := bad } }
      if bad < 3 then .next s
      else .next (((s.ppsSet near).bump 0x2409 0).put 0x2405 0 3)
    else if s.clock.ppsLocked then .next (s.ppsSet near)
    else .next ((((s.ppsSet near).bump 0x2409 0).put 0x2405 0 3))

/-- REF_IN_CHANGE (R501): the TIME reference follows a valid REF_IN, else the oven-controlled oscillator; no
house time steps; each loss or return raises a reference event. -/
def execRefInChange (sig : RefSignal) (t : Nat) (s : State) : Result :=
  let s := s.at t
  if s.clockRuns = false then .next s
  else
    let now := decide (sig = .valid)
    let changed := now != s.clock.refLocked
    let s := { s with clock := { s.clock with refLocked := now } }
    let s := s.put 0x240B 0 (match sig with | .absent => 0 | .valid => 2 | .outOfRange => 3)
    if changed then .next (s.raise 0x00040003 0x240B 0) else .next s

/-- The error record of a FAULT cause (R20, R272, R419); eight channels to a DRAM die (R256). -/
def faultInfo (c : FaultCause) : ErrInfo :=
  match c with
  | .dramUncorrectable ch bank row =>
    { cls := 0x20, uKind := 5, unit := ch.val, detail := natLe 1 (ch.val / 8) ++ natLe 1 ch.val ++ natLe 2 bank ++ natLe 4 row }
  | .stageSramUncorrectable a => { cls := 0x21, uKind := 9, unit := 0, detail := natLe 4 a }
  | .firmwareWatchdog core => { cls := 0x22, uKind := 9, unit := core.val, detail := natLe 1 core.val }

/-- FAULT_ENTRY (R20, R272, R378). -/
def execFaultEntry (c : FaultCause) (t : Nat) (s : State) : Result :=
  let s := s.at t
  if s.dev.st = .off then .next s
  else
    let s := match c with
      | .dramUncorrectable _ _ _ => s.bump 0x6018 0
      | .stageSramUncorrectable _ => s
      | .firmwareWatchdog _ => s
    .next (s.toFault (faultInfo c))

/-- FAULT_RESET (R23, R378, R455): not after a boot that found no firmware, nor with automatic fault reset
disabled, nor before a dump taken on entry into FAULT is written. -/
def execFaultReset (t : Nat) (s : State) : Result :=
  let s := s.at t
  if s.dev.st = .fault ∧ s.dev.noFaultReset = false ∧ s.flag 0x2003 0 ∧ s.obs.freeze.isNone then
    .next (s.toReset .fault causeFault)
  else .next s

/-- DRAIN_EXIT_COMPLETE (R380): no list runs any longer after a PREPARE request. -/
def execDrainExitComplete (t : Nat) (s : State) : Result :=
  let s := s.at t
  match s.dev.trans with
  | .toPrepare _ => if s.dev.st = .drain ∧ s.listsRunning = false then .next s.drainToPrepare else .next s
  | .none => .next s
  | .toRun _ => .next s

/-- DRAIN_EXIT_TIMEOUT (R380): the drain-exit timeout expires. -/
def execDrainExitTimeout (t : Nat) (s : State) : Result :=
  let s := s.at t
  match s.dev.trans with
  | .toPrepare t0 =>
    if s.dev.st = .drain ∧ t0 + s.get 0x2007 0 * 1000000 ≤ s.now then .next s.drainToPrepare else .next s
  | .none => .next s
  | .toRun _ => .next s

/-- CURTAIN_OPEN (R33, R315, R378): the SerDes are ready; the pairs in use open and the state reads RUN. -/
def execCurtainOpen (t : Nat) (s : State) : Result :=
  let s := s.at t
  match s.dev.trans with
  | .toRun _ =>
    if s.dev.st = .prepare then
      let s := s.openCurtain
      let s := s.linksDown
      let s := (s.enter .run).fillShapers
      .next { s with dev := { s.dev with trans := .none } }
    else .next s
  | .none => .next s
  | .toPrepare _ => .next s

/-- CURTAIN_SWITCH_COMPLETE (R496): an element completes its switch. -/
def execCurtainSwitchComplete (b : Bypass) (t : Nat) (s : State) : Result :=
  let s := s.at t
  match b with
  | .pair01 => .next { s with pwr := { s.pwr with pair01 := s.pwr.pair01.settle } }
  | .pair23 => .next { s with pwr := { s.pwr with pair23 := s.pwr.pair23.settle } }
  | .ring => .next { s with pwr := { s.pwr with ring := s.pwr.ring.settle } }

/-- TEST_COMPLETE (R418, R419, R443): the whole-die scan ends; a failure is a class 0x15 record of the module
and sets the replacement flag; the test reset follows. -/
def execTestComplete (pass : Bool) (pattern chains t : Nat) (s : State) : Result :=
  let s := s.at t
  if s.dev.st = .test then
    let s := { s with flash := { s.flash with
      dieResult := if pass then 1 else 2
      dieTime := s.now
      dieScanPassed := pass } }
    let s := match s.dev.stopAt with
      | some t0 => s.gapRecord 0 1 0 0 0 t0 s.now
      | none => s
    let s := { s with dev := { s.dev with stopAt := none } }
    let s := s.fwMarker 0x0005 (natLe 1 0xFF ++ natLe 1 (if pass then 1 else 2))
    let s := if pass then s else
      let first := !s.flash.replacement
      let s := ({ s with flash := { s.flash with replacement := true } }).firstSuspect 0 0
      s.errorRecord { cls := 0x15, uKind := 0, unit := 0, detail := natLe 4 pattern ++ natLe 4 chains, flags := if first then 2 else 0 }
    .next (s.toReset .test causeTest)
  else .next s

/-- EVT_OUT_PULSE_END (R445). -/
def execEvtOutPulseEnd (t : Nat) (s : State) : Result :=
  let s := s.at t
  match s.pwr.evtEnd with
  | some e => if e ≤ s.now then .next { s with pwr := { s.pwr with evtOut := false, evtEnd := none } } else .next s
  | none => .next s

/-- PPS_OUTPUT (R445): with EVT_OUT set to PPS output the pin rises at a whole TAI second, for 100 ms. -/
def execPpsOutput (t : Nat) (s : State) : Result :=
  let s := s.at t
  if s.flag 0x8810 1 ∧ s.now % 1000000000 ≤ 5 ∧ s.dev.st ≠ .off ∧ s.dev.st ≠ .reset then
    let s := s.emit (.evtOut s.now)
    .next { s with pwr := { s.pwr with evtOut := true, evtEnd := some (s.now / 1000000000 * 1000000000 + 100000000) } }
  else .next s

end Sys2Proof.Machine
end

