-- ==== Sys2Proof/Machine/Memory.lean ====
section
/-! DEFINITION. The stacks controller (R256 to R278): patrol scrub, channel occupancy, the region commit, the hold-pool
shares and the peek objects. -/

namespace Sys2Proof.Machine

open Sys2Proof.Bits

/-! ## Patrol and ECC (R269 to R271) -/

/-- Lines of the stacks. -/
def stackLines : Nat := 2 ^ 29

/-- The correctable-rate alert of a channel (R271), judged at each patrol read: raised when the errors of this hour, since its first patrol
read, exceed the threshold. -/
def State.rateCheck (s : State) (c : Nat) : State :=
  let hour := s.now / 3600000000000 + 1
  let total := s.correctable c
  let (h, n) := Sparse.read (fun _ => (0, 0)) s.memc.hourly c
  let base := if h = hour ∨ h = 0 then n else total
  let known := if h = hour then s.memc.rateAlert else s.memc.rateAlert.filter fun x => decide (x ≠ c)
  let above := decide (s.get 0x6017 0 < total - base) && !(known.contains c)
  let s := { s with memc := { s.memc with
    hourly := Sparse.write (fun _ => (0, 0)) s.memc.hourly c (hour, base), rateAlert := if above then c :: known else known } }
  if above then s.alert 3 5 c true else s

/-- A corrected error that patrol reports (R269, R270): counted. -/
def State.corrected (s : State) (c : Nat) : State := (s.bump 0x6011 (c + 1)).rateCheck c

/-- The stacks are served: not in OFF, RESET or FAULT. -/
def State.stacksServed (s : State) : Bool :=
  match s.dev.st with
  | .off => false
  | .reset => false
  | .fault => false
  | .boot => true
  | .prepare => true
  | .run => true
  | .drain => true
  | .test => true

/-- PATROL_READ (R269, R270): the controller reads the next line. -/
def execPatrolRead (rep : EccReport) (t : Nat) (s : State) : Result :=
  let s := s.at t
  if s.stacksServed = false then .next s
  else
    let l := s.memc.patrol
    let s := s.countRead (64 * l) 64
    let c := s.channelOf (l / 4)
    let s := { s with memc := { s.memc with
      patrol := (l + 1) % stackLines
      scrubbed := Sparse.write (fun _ => 0) s.memc.scrubbed c (Sparse.read (fun _ => 0) s.memc.scrubbed c + 1) } }
    match rep with
    | .clean => .next (s.rateCheck c)
    | .corrected => .next (s.corrected (s.channelOf (l / 4)))
    | .uncorrectable bank row =>
      let c := s.channelOf (l / 4)
      .next ((s.bump 0x6018 0).toFault (faultInfo (.dramUncorrectable ⟨c % 64, Nat.mod_lt _ (by decide)⟩ bank row)))

/-! ## Occupancy (R259) -/

/-- MEM cycles of a window of 1 ms. -/
def windowCycles : Nat := 1600000

/-- A window counts toward imbalance: the busiest channel at 25 % or more, and above four times the mean of the 64. -/
def imbalanced (busy : List Nat) : Bool :=
  let top := busy.foldl Max.max 0
  decide (windowCycles ≤ 4 * top) && decide (busy.foldl (· + ·) 0 < 16 * top)

/-- Adds each channel's busy cycles to its counter. -/
def State.addBusy (s : State) : Nat → List Nat → State
  | _, [] => s
  | i, n :: l => (s.bumpBy 0x6012 i n).addBusy (i + 1) l

/-- Consecutive windows that raise or clear the alert. -/
def imbalanceRun : Nat := 1000

/-- IMBALANCE_WINDOW (R259): `busy` holds the 64 channels' busy MEM cycles in the window. -/
def execImbalanceWindow (busy : List Nat) (t : Nat) (s : State) : Result :=
  let s := s.at t
  if s.stacksServed = false then .next s
  else
    let busy := busy.take 64
    let s := s.addBusy 1 busy
    let counts := imbalanced busy
    let up := if counts then Min.min (s.memc.counting + 1) imbalanceRun else 0
    let down := if counts then 0 else Min.min (s.memc.calm + 1) imbalanceRun
    let s := { s with memc := { s.memc with counting := up, calm := down } }
    let on := s.flag 0x6015 0
    if on = false ∧ up = imbalanceRun then .next (((s.put 0x6015 0 1).bump 0x6016 0).alert 2 5 0 true)
    else if on = true ∧ down = imbalanceRun then .next ((s.put 0x6015 0 0).alert 2 5 0 false)
    else .next s

/-! ## The form of the stacks -/

/-- The stacks are kept in their one form: addresses strictly rising, no byte listed that an unlisted address would read as. -/
def Memory.wf (s : State) : Bool := Sparse.wf s.memDef s.mem

/-! ## Hold-pool shares (R275) -/

/-- A write of a hold-pool share: the packet-buffer share is at most half the packet buffer; in DRAIN it waits for an empty
pool. -/
def State.setHoldShare (s : State) (idx v : Nat) : Except Nat State :=
  if idx = 0x6021 ∧ s.regionSize 1 < 2 * (v * 0x100000) then .error 0x02000006
  else if s.dev.st = .drain ∧ s.heldCount ≠ 0 then
    .ok { s with memc := if idx = 0x6020 then { s.memc with burstShare := some v } else { s.memc with bufShare := some v } }
  else
    let s := s.put idx 0 v
    .ok { s with memc := if idx = 0x6020 then { s.memc with burstShare := none } else { s.memc with bufShare := none } }

/-- HOLD_POOL_SHARE_APPLY (R26, R275): the hold pool is empty; the partition never changes in RUN. -/
def execHoldPoolShareApply (t : Nat) (s : State) : Result :=
  let s := s.at t
  if s.heldCount = 0 ∧ (s.dev.st = .drain ∨ s.dev.st = .prepare) then
    let s := match s.memc.burstShare with | some v => s.put 0x6020 0 v | none => s
    let s := match s.memc.bufShare with | some v => s.put 0x6021 0 v | none => s
    .next { s with memc := { s.memc with burstShare := none, bufShare := none } }
  else .next s

/-! ## Regions (R264 to R266) -/

/-- Least and greatest size of region `r`. -/
def regionLimits (r : Nat) : Nat × Nat :=
  let g := 2 ^ 30
  match r with
  | 0 => (g, 32 * g)
  | 1 => (g, 8 * g)
  | 2 => (g / 4, g / 4)
  | 3 => (g / 16, 2 * g)
  | 4 => (0, 31 * g)
  | _ => (0, 16 * g)

/-- A write of a region's size lies within its limits (R264, R278). -/
def regionSizeOk (idx sub v : Nat) : Bool :=
  let (lo, hi) := regionLimits (idx - 0x6000)
  decide (sub ≠ 2) || (decide (lo ≤ v) && decide (v ≤ hi))

/-- Base and size a region would have after the commit. -/
def State.stagedRegion (s : State) (r : Nat) : Nat × Nat := (s.stagedOr (0x6000 + r) 1, s.stagedOr (0x6000 + r) 2)

/-- The staged regions overlap or leave the 32 GiB (R265). -/
def State.overcommitted (s : State) : Bool :=
  mapOver s.stagedRegion

/-- Storage of a ring in the stacks, as a range; none when it lies in ring SRAM. -/
def State.ringExtent (s : State) (a r : Nat) : Option (Nat × Nat) :=
  let b := s.get (ringObj a r) 1
  if b / 2 ^ 31 = 1 then some (b % 2 ^ 30 * 32, s.get (ringObj a r) 2 * 32) else none

/-- Highest end address of an image or a ring that the library holds (R266). -/
def State.libraryEnd (s : State) : Nat :=
  let images := s.lib.slots.toList.foldl (fun m x => if 0 < x.len then Max.max m (x.off + x.len) else m) 0
  (List.range 16).foldl (fun m a => (List.range 16).foldl (fun m r => match s.ringExtent a r with
    | some e => Max.max m (e.1 + e.2)
    | none => m) m) images

/-- The shares of R260 stand. -/
def State.sharesOk (s : State) : Bool :=
  decide (s.get 0x6019 1 + s.get 0x6019 2 + s.get 0x6019 3 + s.get 0x6019 4 = 100) &&
  (List.range 4).all fun i => decide (5 ≤ s.get 0x6019 (i + 1))

/-- A region other than the library is emptied (R266). -/
def State.emptyRegion (s : State) (r : Nat) : State :=
  let base := s.regionBase r
  let size := s.regionSize r
  if r = 2 then (s.memFill base size none).clearCatalogue
  else
    let s := s.memFill base size (some s.free)
    let s := { s with free := s.free + 1 }
    if r = 3 then ((s.put 0x8809 0 0).put 0x880A 0 0).gapRecord 0 2 0 0 0 s.now s.now else s

/-- A write of the region commit object (R260, R265, R266): the whole map is stored, in the store, in a save under way, and beside a store
that a restore has voided. -/
def State.regionCommit (s : State) (v : Nat) : Except Nat State :=
  if v = 0 then .ok s
  else if s.dev.st = .drain then .error 0x08000040
  else if s.dev.st ≠ .prepare then .error 0x08000010
  else if s.overcommitted then .error 0x08000035
  else if s.sharesOk = false then .error 0x08000042
  else if (s.stagedRegion 0).1 ≠ s.regionBase 0 ∨ (s.stagedRegion 0).1 + (s.stagedRegion 0).2 < s.libraryEnd then .error 0x08000040
  else
    let mine (e : Nat × Nat) : Bool := decide (groupOf (e.1 / 65536) (e.1 % 65536) = some 2)
    let changed := (List.range 6).filter fun r => decide (r ≠ 0) && decide (s.stagedRegion r ≠ (s.regionBase r, s.regionSize r))
    let put (m : Sparse Nat) : Sparse Nat := (List.range 6).foldl (fun m r =>
      Sparse.write objDefault (Sparse.write objDefault m (objKey (0x6000 + r) 1) (s.stagedRegion r).1) (objKey (0x6000 + r) 2)
        (s.stagedRegion r).2) m
    let s := { s with
      dict := put s.dict
      staged := s.staged.filter fun e => !(mine e)
      flash := { s.flash with config := some (put (s.flash.config.getD [])), configRaw := none, regionMap := some (put []) }
      saving := s.saving.map fun x => { x with values := put x.values } }
    .ok ((changed.foldl State.emptyRegion s).commitMark 2)

/-- REGION_COMMIT (R266). -/
def execRegionCommit (r : Req) (s : State) : Result :=
  .next ((s.at r.t).serveWrite r 0x6008 0 [1] fun s => s.regionCommit 1)

/-! ## Peek (R267) -/

/-- The line at the peek address, of spill space, the export window or the logbook. -/
def State.peekRead (s : State) : Except Nat (Bytes × State) :=
  let x := s.get 0x6030 1
  if s.inRegion 3 x 64 ∨ s.inRegion 4 x 64 ∨ s.inRegion 5 x 64 then .ok (s.memRead x 64, s.countRead x 64) else .error 0x08000041

/-- Writes the line at the peek address, of spill space or the export window. -/
def State.peekWrite (s : State) (v : Nat) : Except Nat State :=
  let x := s.get 0x6030 1
  if s.inRegion 4 x 64 ∨ s.inRegion 5 x 64 then .ok (s.memWrite x (natLe 64 v)) else .error 0x08000041

/-- Serves a READ of peek data (R267). -/
def State.servePeek (s : State) (r : Req) : State :=
  s.serve svcRead r 0x6030 2 [] fun s =>
    match s.checkRead 0x6030 2 with
    | .error c => ⟨c, [], s⟩
    | .ok _ => match s.peekRead with
      | .error c => ⟨c, [], s⟩
      | .ok (d, s) => ⟨0, d, s⟩

/-- PEEK (R267): a READ of 0x6030:02. A WRITE of it is WRITE's. -/
def execPeek (r : Req) (s : State) : Result := .next ((s.at r.t).servePeek r)

end Sys2Proof.Machine
end

