-- ==== Sys2Proof/Machine/Tap.lean ====
section
/-! DEFINITION. The payload tap (R58 to R64, R148, R290): rows of a packet into a buffer in an array's wings. -/

namespace Sys2Proof.Machine

open Sys2Proof.Bits Sys2Proof.Num

/-- A row that the tap writes: its bytes, its scale word when the tensor has any, its tag (R60, R61). -/
structure TapRow where
  data  : Bytes
  scale : Option Nat
  tag   : Nat
  deriving DecidableEq, Repr, Inhabited

/-- The rows of `n` blocks of mantissa width `wd` from offset `o`; the first is block `b` of its packet (R60, R61). -/
def blockRows (bs : Bytes) (wd o seq b : Nat) : Nat → List TapRow
  | 0 => []
  | n + 1 =>
    let mantissa (i : Nat) : Nat := ofInt 16 (toInt wd (bits bs (8 * (o + 1) + wd * i) wd))
    let tag := (seq + b) % 16
    ⟨(List.range 24).flatMap fun i => natLe 2 (mantissa i), some (tag * 512 + be bs o 1 % 16), tag⟩ ::
      blockRows bs wd (o + 1 + 3 * wd) seq (b + 1) n

/-- The rows of a packet's sections, blocks counted across all of them (R61). -/
def sectionRows (bs : Bytes) (seq b : Nat) : List (Nat × Nat × Nat) → List TapRow
  | [] => []
  | (wd, o, n) :: l => blockRows bs wd o seq b n ++ sectionRows bs seq (b + n) l

/-- Splits a payload into rows of at most `n` bytes; `fuel` bounds their number. -/
def cutRows (n : Nat) : Nat → Bytes → List TapRow
  | 0, _ => []
  | fuel + 1, bs => if bs.isEmpty then [] else ⟨bs.take n, none, 0⟩ :: cutRows n fuel (bs.drop n)

/-- Exchanges the bytes of each pair: elements of network order are stored little-endian (R11; DEDUCED, log entry 14). -/
def swapPairs : Bytes → Bytes
  | a :: b :: l => b :: a :: swapPairs l
  | _ => []

/-- The elements of a BYTES tap (R58): up to 1,024 bytes from the payload offset. Of the formats it names, INT16 and FP16 have two
bytes; the bytes of any other code are copied as they stand (DESIGN CHOICE, log entry 14). -/
def tapBytes (b : Bank) (j : TapJob) : Bytes :=
  let d := j.desc
  let o := j.parsed.finish + b.tapOffset d
  let raw := ((j.bytes.take j.parsed.limit).drop o).take 1024
  if b.tapFormat d = 2 ∨ b.tapFormat d = 6 then swapPairs raw else raw

/-- The rows a packet yields under its descriptor (R58); a BYTES payload longer than the row stride takes further rows
(DEDUCED, log entry 14). -/
def tapRowsOf (b : Bank) (j : TapJob) : List TapRow :=
  let d := j.desc
  match b.tapKind d with
  | 1 => match packetSections j.parsed j.bytes (b.tapWidth d) with
    | some l => sectionRows j.bytes (match j.parsed.ecpri with | some (_, _, seq, _) => seq | none => j.seq % 256) 0 l
    | none => []
  | 2 => cutRows (b.tapStride d) 1024 (tapBytes b j)
  | 3 =>
    let codes := (List.range 32).map fun i => (fp16.encode .nearest true (fp32.decode (j.quant.getD i 0))).1
    [⟨codes.flatMap fun c => natLe 2 c, none, 0⟩]
  | _ => []

/-- Bytes of one buffer of a descriptor: its rows, and for BFP-IQ its scale words, rounded up to 64 (R148). -/
def Bank.tapSize (b : Bank) (d : Nat) : Nat :=
  b.tapRows d * b.tapStride d + (if b.tapKind d = 1 then roundUp (2 * b.tapRows d) 64 else 0)

/-- Byte offset of buffer `k` of a descriptor in the wings: the second lies behind the first (DEDUCED, log entry 14). -/
def Bank.tapStart (b : Bank) (d k : Nat) : Nat := b.tapBase d + k * b.tapSize d

/-- Writes rows from row `i` of a buffer on, with their tags and scale words (R60 to R62, R147, R148). -/
def State.tapWrite (s : State) (b : Bank) (d k : Nat) : Nat → List TapRow → State
  | _, [] => s
  | i, r :: rs =>
    let a := b.tapArray d
    let x := b.tapStart d k + i * b.tapStride d
    let s := (s.wingsPut a x r.data).tagPut a (x / 64) r.tag
    let s := match r.scale with
      | some v =>
        let y := b.tapStart d k + b.tapRows d * b.tapStride d + 2 * i
        (s.wingsPut a y (natLe 2 v)).tagPut a (y / 64) r.tag
      | none => s
    s.tapWrite b d k (i + 1) rs

/-- A packet that finds no buffer is not tapped and counts as an overrun; a held one is released (R63). -/
def State.tapOverrun (s : State) (j : TapJob) : State :=
  let s := s.bump (0x3900 + j.desc) 0xB
  if j.held then match s.pkts.find? fun p => p.pid = j.pid ∧ p.stage = .held with
    | some p => s.releaseUndetermined p
    | none => s
  else s

/-- Writes a packet's rows into buffer `k`, and completes it when it is full (R62). -/
def State.tapInto (s : State) (b : Bank) (j : TapJob) (k : Nat) (rows : List TapRow) : State :=
  let d := j.desc
  let x := s.tap d
  let y := x.buf k
  let s := s.tapWrite b d k y.rows rows
  let s := s.setTap d (x.setBuf k { y with
    rows := y.rows + rows.length, acc := some j.ma, ra := j.ra, light := b.tapLight d
    held := if j.held then y.held ++ [(j.pid, y.rows)] else y.held })
  let s := match s.pkts.find? fun p => p.pid = j.pid with
    | some p => s.setPkt { p with tapRow := some (d, k, y.rows) }
    | none => s
  if y.rows + rows.length = b.tapRows d then s.completeBuf b d k else s

/-- The tap takes a packet (R62 to R64, R290). One with more rows than a tensor of its descriptor finds no buffer that it fits: it
counts as an overrun (DESIGN CHOICE, log entry 14). -/
def State.tapTake (s : State) (j : TapJob) : State :=
  let b := s.bankOf j.ra
  let d := j.desc
  let rows := tapRowsOf b j
  if s.dev.st ≠ .run ∨ rows.isEmpty = true then s
  else
    let y := (s.tap d).buf (s.tap d).cur
    let full := decide (0 < y.rows) && (decide (y.acc ≠ some j.ma) || decide (y.ra ≠ j.ra) || decide (b.tapRows d < y.rows + rows.length))
    let s := if y.busy = false ∧ full = true then s.completeBuf (s.bankOf y.ra) d (s.tap d).cur else s
    let x := s.tap d
    let k := if (x.buf x.cur).busy then 1 - x.cur else x.cur
    if (x.buf k).busy ∨ b.tapRows d < rows.length then s.tapOverrun j
    else (s.setTap d { x with cur := k }).tapInto b j k rows

/-- No packet of a model accession can still reach the tap. -/
def State.tapPassed (s : State) (acc : Nat) : Bool :=
  !(s.intake.tapQ.any fun j => j.ma = acc) &&
  !(s.pkts.any fun p => decide (p.ma = acc) && decide (p.stage ≠ .done) && decide (p.stage ≠ .held))

/-- Completes the buffers of a model accession whose last packet has passed the tap (R290). -/
def State.tapFlushModel (s : State) (acc : Nat) : State :=
  if s.tapPassed acc then
    s.sync.taps.foldl (fun s e =>
      let x := s.tap e.1
      let y := x.buf x.cur
      if y.busy = false ∧ 0 < y.rows ∧ y.acc = some acc then s.completeBuf (s.bankOf y.ra) e.1 x.cur else s) s
  else s

/-- Completes buffers of the retiring model accession when its last packet has passed. -/
def State.tapRetire (s : State) : State :=
  match s.lib.retiring with
  | some m => s.tapFlushModel m.acc
  | none => s

/-- A command after which a packet may have passed the tap, or left without being tapped (R290). -/
def tapsFlushed (x : Result) : Result :=
  match x with
  | .next s => .next (if s.frozen then s else s.tapRetire)
  | .fault f => .fault f
  | .refused r => .refused r

/-- Removes the first job of a pipe. -/
def takeJob (pipe : Nat) : List TapJob → Option (TapJob × List TapJob)
  | [] => none
  | j :: l => if j.pipe = pipe then some (j, l) else (takeJob pipe l).map fun x => (x.1, j :: x.2)

/-- TAP_ROWS_WRITTEN (R58 to R64, R290): the next packet of a pipe's tap crossing. -/
def execTapRowsWritten (pipe : Fin 4) (t : Nat) (s : State) : Result :=
  let s := s.at t
  if s.frozen then .next s
  else match takeJob pipe.val s.intake.tapQ with
    | none => .next s.tapRetire
    | some (j, l) =>
      let s := { s with intake := { s.intake with tapQ := l } }
      .next ((s.tapTake j).tapRetire)

end Sys2Proof.Machine
end

