-- ==== Sys2Proof/Machine/Library.lean ====
section
/-! DEFINITION. Operations of the model library and of scene changes (R279 to R298, R507). -/

namespace Sys2Proof.Machine

open Sys2Proof.Bits

/-! ## Accessions (R279, R280) -/

/-- Accession `x` is newer than `y`; anything is newer than none. -/
def newer (x y : Nat) : Bool :=
  let d := (x + 65536 - y) % 65536
  decide (y = 0) || (decide (1 ≤ d) && decide (d ≤ 32767))

/-! ## Slots (R284, R507) -/

/-- Slot states of 0x6820+s:01. -/
def slotEmpty : Nat := 0
def slotLoading : Nat := 1
def slotValid : Nat := 2
def slotStaged : Nat := 3
def slotRipple : Nat := 4
def slotActive : Nat := 5
def slotRetiring : Nat := 6

def State.slotState (s : State) (k : Nat) : Nat := s.get (0x6820 + k) 1
def State.setSlotState (s : State) (k v : Nat) : State := s.put (0x6820 + k) 1 v

/-- The record of slot `k`. -/
def State.slotAt (s : State) (k : Nat) : LibSlot := s.lib.slots.toList.getD k {}

/-- Changes the record of slot `k`. -/
def State.modSlot (s : State) (k : Nat) (f : LibSlot → LibSlot) : State :=
  { s with lib := { s.lib with slots := s.lib.slots.mapIdx fun i x => if i = k then f x else x } }

/-- Ranges of the library that images of other slots and stacks rings occupy. -/
def State.occupied (s : State) (k : Nat) : List (Nat × Nat) :=
  ((List.range 16).filterMap fun i =>
    if i ≠ k ∧ s.slotState i ≠ slotEmpty then some ((s.slotAt i).off, (s.slotAt i).len) else none) ++
  (List.range 16).flatMap fun a => (List.range 16).filterMap fun r => s.ringExtent a r

/-- The lowest extent of `n` bytes, a multiple of 4 KiB, free for slot `k` (R507). -/
def State.freeExtent (s : State) (k n : Nat) : Option Nat :=
  let occ := s.occupied k
  let tries := (s.regionBase 0 :: occ.map fun e => roundUp (e.1 + e.2) 4096).filter fun x =>
    decide (s.regionBase 0 ≤ x) && decide (x + n ≤ s.regionBase 0 + s.regionSize 0) && !(occ.any fun e => overlap (x, n) e)
  tries.foldl (fun m x => match m with | none => some x | some y => some (Min.min x y)) none

/-- A slot may be written or erased (R284): the abort code when it may not. -/
def State.slotBusy (s : State) (k : Nat) : Bool := decide (s.slotState k ≠ slotEmpty) && decide (s.slotState k ≠ slotValid)

/-- Voids a slot's persisted copy. -/
def State.voidPersisted (s : State) (k : Nat) : State :=
  { s with flash := { s.flash with models := s.flash.models.filter fun x => decide (x.slot ≠ k) } }

/-- A slot being staged is given up with its install lists (R284: a VALID slot is writable). -/
def State.dropStaging (s : State) (k : Nat) : State :=
  match s.lib.staged with
  | some m =>
    if m.slot = k then
      let off (x : Arr) : Arr := if x.instKind = 1 then
          { x with install := [], instKind := 0, instCons := 0, run := x.run.filter fun r => decide (r.ring ≠ 16), susp := x.susp.filter fun r => decide (r.ring ≠ 16) }
        else x
      let idle := (List.range 16).filter fun a => decide ((s.arrAt a).instKind = 1)
      let s := { s with lib := { s.lib with staged := none }, arr := s.arr.map off }
      idle.foldl (fun s a => (s.put (0x6810 + a) 1 0).showRun a) s
    else s
  | none => s

/-- A slot returns to EMPTY and frees its extent; its load abort stays. -/
def State.emptySlot (s : State) (k : Nat) : State :=
  let s := (s.dropStaging k).modSlot k fun _ => {}
  (((s.setSlotState k slotEmpty).put (0x6820 + k) 2 0).put (0x6820 + k) 3 0).put (0x6820 + k) 4 0 |>.put (0x6820 + k) 5 0

/-- A download begins: the slot's extent is chosen (R507). -/
def State.beginImage (s : State) (k size : Nat) : State :=
  let n := roundUp size 4096
  let s := s.emptySlot k
  match s.freeExtent k n with
  | none => s
  | some off => (s.modSlot k fun _ => { off := off, len := n, size := size }).setSlotState k slotLoading

/-- Free bytes of the flash model store (R503, R504). -/
def State.modelStoreFree (s : State) : Nat := 6144 * 0x100000 - s.flash.models.foldl (fun n x => n + x.content.length) 0

/-- Commit word of a persisted copy, written last (R286). -/
def commitWord : Nat := 0x434B4C53

/-- Copies a slot's image to the flash model store when its persist bit is set; one that finds too little room makes no
copy and raises an event (R286, R504). -/
def State.persistSlot (s : State) (k : Nat) : State :=
  if s.flag (0x6820 + k) 7 ∧ (s.slotAt k).model.isSome = true then
    let x := s.slotAt k
    let s := s.voidPersisted k
    if s.modelStoreFree < x.size then s.raise 0x00040004 (0x6820 + k) 0
    else
      let b := s.memRead x.off x.size
      { s with flash := { s.flash with models := s.flash.models ++ [⟨k, b, Hash.digest b, commitWord⟩] } }
  else s

/-- A slot's image has passed: VALID. -/
def State.slotPasses (s : State) (k : Nat) (b : Bytes) (m : Model) : State :=
  let i := 0x6820 + k
  let s := (s.modSlot k fun x => { x with model := some m }).setSlotState k slotValid
  ((((s.put i 2 (imgId b)).put i 3 (imgGen b)).put i 4 (imgSize b)).put i 5 (imgTableSha b)).put i 9 0

/-- Checks the image of a slot (R285). -/
def State.loadCheck (s : State) (k : Nat) : State :=
  let x := s.slotAt k
  let b := s.memRead x.off x.size
  match s.checkModel b k x.len with
  | .ok m => (s.slotPasses k b m).persistSlot k
  | .error c => ((if c = 0x08000045 then s.verifyFailed else s).emptySlot k).put (0x6820 + k) 9 c

/-- A write of a slot's erase object. -/
def State.eraseSlot (s : State) (k v : Nat) : Except Nat State :=
  if v = 0 then .ok s
  else if s.slotBusy k then .error 0x0800004A
  else .ok ((s.emptySlot k).voidPersisted k)

/-- A write of a slot's persist bit. -/
def State.setPersist (s : State) (k v : Nat) : State := (s.put (0x6820 + k) 7 v).persistSlot k

/-! ## What the arrays hold of a model -/

/-- Writes a model's TG8 tables and list bodies (R294). -/
def State.writeTables (s : State) (m : Model) : State :=
  let s := m.tg8.foldl (fun s x => s.modArr x.1 fun r => { r with tg8 := Sparse.writeList (fun _ => 0) r.tg8 (x.2.1 * 256) x.2.2 }) s
  m.bodies.foldl (fun s x =>
    if x.2.1 / 2 ^ 31 = 1 then s.memWrite (x.2.1 % 2 ^ 30 * 32) x.2.2
    else s.modArr x.1 fun r => { r with rings := Sparse.writeList memDefault r.rings (x.2.1 % 2 ^ 30 * 32) x.2.2 }) s

/-- Allocates a model's channel records: step 0, seed shift, uniform grid, no history (R152). -/
def State.startRecords (s : State) (m : Model) (acc : Nat) : State :=
  m.recs.foldl (fun s x => s.setChanRec x.1 x.2.1 (Rec.start x.2.2 acc)) s

/-- Frees the channel records of an accession (R292). -/
def State.freeRecords (s : State) (acc : Nat) : State :=
  { s with arr := s.arr.map fun x => { x with recs := x.recs.filter fun e => decide (e.2.acc ≠ some acc) } }

/-- Writes a model's shelf content at once, as BOOT installs it (R287). -/
def State.writeShelves (s : State) (m : Model) : State :=
  m.shelf.foldl (fun s x => (x.banks.zip (List.range 8)).foldl (fun s y =>
    (s.twins x.array).foldl (fun s a => s.modArr a fun r =>
      { r with shelf := Sparse.writeList memDefault r.shelf (y.1 * 786432 + x.row * 256) (slice x.data (y.2 * x.rows * 256) (x.rows * 256)) }) s) s) s

/-! ## Staging (R283, R294) -/

/-- Two shelf sections are the same: placement and payload. -/
def sameShelf (x y : ShelfSec) : Bool :=
  decide (x.array = y.array) && decide (x.mask = y.mask) && decide (x.row = y.row) && decide (x.data = y.data)

/-- Shelf sections that the installed model does not already hold. -/
def changedShelf (old : Option Model) (m : Model) : List ShelfSec :=
  m.shelf.filter fun x => !((old.map Model.shelf).getD []).any (sameShelf x)

/-- Storage of a ring in ring SRAM overlaps a body. -/
def State.ringTakes (s : State) (x : Nat × Nat × Bytes) : Bool :=
  (List.range 16).any fun r =>
    let b := s.get (ringObj x.1 r) 1
    decide (b / 2 ^ 31 = x.2.1 / 2 ^ 31) &&
      overlap (b % 2 ^ 30, s.get (ringObj x.1 r) 2) (x.2.1 % 2 ^ 30, (x.2.2.length + 31) / 32)

/-- A body lies where nothing else is kept: in ring SRAM, apart from the rings; in the stacks, inside the model library and apart from
the images of other slots and from rings (R212, R507). -/
def State.bodyFree (s : State) (slot : Nat) (x : Nat × Nat × Bytes) : Bool :=
  let i := x.2.1 % 2 ^ 30
  let n := (x.2.2.length + 31) / 32
  if x.2.1 / 2 ^ 31 = 1 then s.inRegion 0 (i * 32) (n * 32) && !((s.occupied slot).any fun e => overlap (i * 32, n * 32) e)
  else !(s.ringTakes x) && decide (i + n ≤ 16384)

/-- Records, tables and bodies of a model fit beside the installed one (R152, R294). -/
def State.tablesFit (s : State) (old : Option Model) (m : Model) : Bool :=
  let o := old.getD {}
  (m.recs.all fun x => !(o.recs.any fun y => decide (x.1 = y.1) && decide (x.2.1 = y.2.1))) &&
  (m.tg8.all fun x => !(o.tg8.any fun y => decide (x.1 = y.1) && decide (x.2.1 = y.2.1) && decide (x.2.2 ≠ y.2.2))) &&
  (m.bodies.all fun x => s.bodyFree m.slot x && !(o.bodies.any fun y => bodyClash x y && decide (x ≠ y)))

/-- Shelf rows of a model fit beside the installed one. -/
def shelfFits (old : Option Model) (m : Model) : Bool :=
  (changedShelf old m).all fun x => !((old.map Model.shelf).getD []).any (shelfClash x)

/-! ## The loader (R283, R294)

It moves what a relocatable image may move, each item to the first place that takes it (DESIGN CHOICE, log entry 15). -/

/-- Gives each item a place: its own where it fits, or else the first of its tries that fits and clashes with none placed. -/
def placeAll {α : Type} (fits : α → Bool) (tries : α → List α) (clash : α → α → Bool) : List α → List α → List α
  | _, [] => []
  | taken, x :: l =>
    let y := if fits x then x else ((tries x).find? fun y => fits y && !(taken.any (clash y))).getD x
    y :: placeAll fits tries clash (y :: taken) l

/-- Arrays of which a section of a type is fixed in its place (R282). -/
def fixedArrays (b : Bytes) (type : Nat) : List Nat := ((sections b).filter fun x => decide (x.type = type) && bit x.flags 0).map Sect.array

/-- Shelf sections beside those installed: other rows of the same banks. -/
def placeShelf (o m : Model) : List ShelfSec :=
  let fits (x : ShelfSec) : Bool := o.shelf.all fun y => sameShelf x y || !(shelfClash x y)
  let tries (x : ShelfSec) : List ShelfSec := if x.fixed then [] else (List.range (3073 - x.rows)).map fun r => { x with row := r }
  placeAll fits tries shelfClash (m.shelf.filter fits) m.shelf

/-- TG8 tables beside those installed: other numbers. -/
def placeTables (fixed : List Nat) (o m : Model) : List (Nat × Nat × List Nat) :=
  let same (x y : Nat × Nat × List Nat) : Bool := decide (x.1 = y.1) && decide (x.2.1 = y.2.1)
  let fits (x : Nat × Nat × List Nat) : Bool := o.tg8.all fun y => !(same x y) || decide (x = y)
  let tries (x : Nat × Nat × List Nat) : List (Nat × Nat × List Nat) :=
    if fixed.contains x.1 then [] else (List.range 4).map fun k => (x.1, k, x.2.2)
  placeAll fits tries same (m.tg8.filter fits) m.tg8

/-- How far an array's records move, all together and by a multiple of 128: not at all, or else to the lowest place free of the
records installed. -/
def recordShift (fixed : List Nat) (o m : Model) (a : Nat) : Int :=
  let mine : List Nat := (m.recs.filter fun x => decide (x.1 = a)).map fun x => x.2.1
  let theirs : List Nat := (o.recs.filter fun x => decide (x.1 = a)).map fun x => x.2.1
  let free (d : Int) : Bool := mine.all fun x => decide (0 ≤ (x : Int) + d) && decide ((x : Int) + d < 4096) && !(theirs.any fun y => decide ((x : Int) + d = y))
  let low := (mine.foldl Nat.min 4095) / 128
  if free 0 || fixed.contains a then 0
  else (((List.range 32).map fun g : Nat => 128 * ((g : Int) - low)).find? free).getD 0

/-- List bodies beside those installed: elsewhere in the array's ring SRAM. -/
def State.placeBodies (s : State) (fixed : List Nat) (o m : Model) : List (Nat × Nat × Bytes) :=
  let fits (x : Nat × Nat × Bytes) : Bool := s.bodyFree m.slot x && o.bodies.all fun y => decide (x = y) || !(bodyClash x y)
  let tries (x : Nat × Nat × Bytes) : List (Nat × Nat × Bytes) :=
    if fixed.contains x.1 || decide (x.2.1 / 2 ^ 31 = 1) then [] else (List.range (16385 - (x.2.2.length + 31) / 32)).map fun i => (x.1, i, x.2.2)
  placeAll fits tries bodyClash (m.bodies.filter fits) m.bodies

/-- Where the loader has put what an array's cues name. -/
structure Moves where
  shelf  : List (ShelfSec × Nat)
  tables : List (Nat × Nat)
  recs   : Int
  bodies : List (Nat × Nat × Nat)

/-- The moves of an array from one placement of a model to another. -/
def movesOf (m p : Model) (a : Nat) (recs : Int) : Moves :=
  { shelf := ((m.shelf.zip p.shelf).filter fun x => decide (x.1.array = a)).map fun x => (x.1, x.2.row)
    tables := ((m.tg8.zip p.tg8).filter fun x => decide (x.1.1 = a)).map fun x => (x.1.2.1, x.2.2.1)
    recs := recs
    bodies := ((m.bodies.zip p.bodies).filter fun x => decide (x.1.1 = a)).map fun x => (x.1.2.1, (x.1.2.2.length + 31) / 32, x.2.2.1) }

/-- A shelf address after the moves. -/
def Moves.shelfAddr (v : Moves) (x : Nat) : Nat :=
  match v.shelf.find? fun e => bit e.1.mask (x / 4096) && decide (e.1.row ≤ x % 4096) && decide (x % 4096 < e.1.row + e.1.rows) with
  | some e => x / 4096 * 4096 + (x % 4096 - e.1.row + e.2)
  | none => x

/-- A TG8 table number after the moves. -/
def Moves.table (v : Moves) (k : Nat) : Nat := match v.tables.find? fun e => e.1 = k with | some e => e.2 | none => k

/-- A cue address after the moves. -/
def Moves.cueAddr (v : Moves) (x : Nat) : Nat :=
  match v.bodies.find? fun e => decide (e.1 ≤ x) && decide (x < e.1 + e.2.1) with
  | some e => x - e.1 + e.2.2
  | none => x

/-- A listed cue word rewritten: the shelf rows, TG8 table number, record base or body address that word `i` of its opcode holds (R220,
R282). -/
def Moves.cueWord (v : Moves) (op i x : Nat) : Nat :=
  if op = opShelve ∧ i = 2 then
    if fld x 31 30 = 1 then setFld x 29 28 (v.table (fld x 29 28)) else setFld x 14 0 (v.shelfAddr (fld x 14 0))
  else if op = opStream ∧ i = 3 then setFld (setFld x 20 6 (v.shelfAddr (fld x 20 6))) 5 4 (v.table (fld x 5 4))
  else if op = opStream ∧ i = 5 then setFld (setFld x 29 15 (v.shelfAddr (fld x 29 15))) 14 0 (v.shelfAddr (fld x 14 0))
  else if op = opDrain ∧ i = 2 then setFld x 20 9 ((fld x 20 9 : Int) + v.recs).toNat
  else if op = opCall ∧ i = 1 then v.cueAddr x
  else x

/-- A body as the loader writes it at address `new`: listed words rewritten, and word 7, whose sequence is the cue's own address,
computed again for each cue rewritten or moved (R216, R283). -/
def Moves.body (v : Moves) (listed : List (Nat × Nat)) (old new : Nat) (bs : Bytes) : Bytes :=
  ((bodyCues bs).zip (List.range (bs.length / 32))).flatMap fun c =>
    let mine := (listed.filter fun e => e.1 = old + c.2).map Prod.snd
    let ws := (c.1.zip (List.range 8)).map fun y => if mine.contains y.2 then v.cueWord (w c.1 0 % 256) y.2 y.1 else y.1
    if mine = [] ∧ old = new then c.1.flatMap (natLe 4) else mkCue ws (new + c.2)

/-- The model as the loader places it (R283, R294): where the image fixes it, or, relocatable and beside another model, where there is
room; `side` says that its shelf rows are to stand beside the installed ones. -/
def State.placeModel (s : State) (b : Bytes) (m : Model) (side : Bool) : Model :=
  match s.lib.active with
  | none => m
  | some o =>
    if imgGen b = 3 ∧ bit (imgFlags b) 1 then
      let shift (a : Nat) : Int := recordShift (fixedArrays b 0x12) o m a
      let bodies := s.placeBodies (fixedArrays b 0x14) o m
      let p := { m with
        shelf := if side then placeShelf o m else m.shelf
        tg8 := placeTables (fixedArrays b 0x13) o m
        recs := m.recs.map fun (x : Nat × Nat × Nat) => (x.1, ((x.2.1 : Int) + shift x.1).toNat, x.2.2)
        bodies := bodies }
      let v (a : Nat) : Moves := movesOf m p a (shift a)
      let listed := (payloads b 0x16).flatMap Config.relocsOf
      let p := { p with
        bodies := (m.bodies.zip bodies).map fun (x : (Nat × Nat × Bytes) × (Nat × Nat × Bytes)) =>
          (x.1.1, x.2.2.1, (v x.1.1).body ((listed.filter fun (e : Nat × Nat × Nat) => e.1 = x.1.1).map Prod.snd) x.1.2.1 x.2.2.1 x.1.2.2)
        lists := m.lists.map fun (e : Nat × Nat × Nat) => (e.1, e.2.1, (v e.2.1).cueAddr e.2.2) }
      { p with golden := p.goldens }
    else m

/-- SHELVE cues that install a shelf section from its slot (R249, R295). A payload lies at a multiple of 64 bytes (R282), a SHELVE's
source at one of 256: the rest stands behind the cue's words, where only firmware's own cues have it (DESIGN CHOICE, log entry 15). -/
def State.sectionCues (s : State) (m : Model) (acc : Nat) (front : Bool) (x : ShelfSec) : List (List Nat) :=
  (x.banks.zip (List.range 8)).map fun y =>
    let src := (s.slotAt m.slot).off + x.off + y.2 * x.rows * 256
    [acc * 65536 + (if front then 256 else 0) + opShelve, src / 256, y.1 * 4096 + x.row, x.rows, 0, 0, 0, src % 256]

/-- The last cue of an install list carries END. -/
def markEnd : List (List Nat) → List (List Nat)
  | [] => []
  | [ws] => [match ws with | x :: r => (x + 32768) :: r | [] => []]
  | ws :: l => ws :: markEnd l

/-- Queues the install lists of a model's changed sections (R295, R296): kind 1 side-by-side, 2 ripple. -/
def State.queueInstalls (s : State) (old : Option Model) (m : Model) (acc kind : Nat) : State :=
  (List.range 16).foldl (fun s a =>
    let mine := (changedShelf old m).filter fun x => decide (x.array = a)
    if mine.isEmpty then s
    else
      let cues := markEnd (mine.flatMap fun x => s.sectionCues m acc (decide (kind = 2)) x)
      (s.modArr a fun r => { r with install := cues, instCons := 0, instAcc := acc, instKind := kind }).put (0x6810 + a) 1 kind) s

/-- Install lists of a staging are under way. -/
def State.staging (s : State) : Bool := (List.range 16).any fun a => decide ((s.arrAt a).instKind = 1)

/-- An earlier staged image gives way: its slot is VALID again (log entry 16). -/
def State.dropStaged (s : State) : State :=
  match s.lib.staged with
  | some m => ({ s with lib := { s.lib with staged := none } }).setSlotState m.slot slotValid
  | none => s

/-- A stage request (R280, R283, R294). While a model commit is scheduled it is refused as a change to that commit (DESIGN CHOICE, log
entry 16). -/
def State.stageRequest (s : State) (k mode : Nat) : Except Nat State :=
  if 2 < mode then .error 0x02000006
  else if s.lib.retiring.isSome then .error 0x08000043
  else if s.lib.schedModel.isSome then .error 0x0800004D
  else match (s.slotAt k).model with
    | none => .error 0x0800004A
    | some m0 =>
      if s.slotState k ≠ slotValid ∨ s.staging = true then .error 0x0800004A
      else
        let b := s.memRead (s.slotAt k).off (s.slotAt k).size
        let old := s.lib.active
        let side := decide (mode = 0) || (decide (mode = 2) && shelfFits old (s.placeModel b m0 true))
        let m := s.placeModel b m0 side
        if s.tablesFit old m = false ∨ (side = true ∧ shelfFits old m = false) then .error 0x08000033
        else
          let s := s.dropStaged.writeTables m
          let s := { s with lib := { s.lib with staged := some m } }
          if side then .ok (s.queueInstalls old m 0 1) else .ok (s.setSlotState k slotRipple)

/-! ## Counts in flight (R291) -/

/-- Ring indices of the lists that wait in a ring from index `i` on. -/
def State.queuedFrom (s : State) (a r : Nat) : Nat → Nat → List Nat
  | 0, _ => []
  | fuel + 1, i => if i = s.producer a r then [] else i :: State.queuedFrom s a r fuel (s.endOf a r i)

/-- Index of a ring's first list that has not started. -/
def State.queueStart (s : State) (a r : Nat) : Nat :=
  match (s.listsOf a).find? fun x => x.ring = r with
  | some x => (match x.skip with | some i => i | none => s.endOf a r x.start)
  | none => s.consumer a r

/-- Accessions of the lists of an array that have not started. -/
def State.queuedAccs (s : State) (a : Nat) : List Nat :=
  (List.range 16).flatMap fun r => ((s.queuedFrom a r (s.get (ringObj a r) 2) (s.queueStart a r)).filter fun i =>
    !((s.arrAt a).dead.contains (r, i))).map fun i => fld (cueWord (s.cueAt a (s.slotAddr a r i)) 0) 31 16

/-- Accessions of the firings that wait to be appended on an array (R241). -/
def State.firingAccs (s : State) (a : Nat) : List Nat :=
  s.sync.trigs.filterMap fun e => match e.2.wait with
    | some f => if s.trigArray e.1 = a then some f.acc else none
    | none => none

/-- Tap buffers whose launches wait in an array's rings. -/
def State.queuedTaps (s : State) (a : Nat) : List (Nat × Nat) :=
  (List.range 16).flatMap fun r => (s.queuedFrom a r (s.get (ringObj a r) 2) (s.queueStart a r)).filterMap fun i => s.tapLaunch a r i

/-- A list that a tap buffer launched has not ended, or its firing is still held (R291). -/
def State.launchOpen (s : State) (d b : Nat) : Bool :=
  ((List.range 16).any fun a => ((s.listsOf a).any fun x => decide (x.tap = some (d, b))) ||
    (s.queuedTaps a).contains (d, b)) ||
  s.sync.trigs.any fun e => match e.2.wait with | some f => decide (f.tap = some (d, b)) | none => false

/-- Lists of an accession on an array: started, waiting in a ring, and launched but not yet appended. -/
def State.listsUnder (s : State) (a acc : Nat) : Nat :=
  ((s.listsOf a).filter fun x => decide (x.ring < 16) && decide (x.acc = acc)).length +
  ((s.queuedAccs a ++ s.firingAccs a).filter fun x => decide (x = acc)).length

/-- Packets of a model accession before they leave the feature front, the tree banks and the tap. -/
def State.modelPackets (s : State) (acc : Nat) : Nat :=
  (s.pkts.filter fun p => decide (p.ma = acc) && decide (p.stage ≠ .done) && decide (p.stage ≠ .held)).length +
  (s.intake.tapQ.filter fun j => decide (j.ma = acc)).length

/-- Tap buffers that count under a model accession: from the first row until their list ends (R291). -/
def State.modelBuffers (s : State) (acc : Nat) : Nat :=
  let counts (d b : Nat) (y : TapBuf) : Nat := if 0 < y.rows ∧ y.acc = some acc ∧ (y.busy = false ∨ s.launchOpen d b = true) then 1 else 0
  s.sync.taps.foldl (fun n e => n + counts e.1 0 e.2.b0 + counts e.1 1 e.2.b1) 0

/-- Lists of a model accession, install lists among them. -/
def State.modelLists (s : State) (acc : Nat) : Nat :=
  (List.range 16).foldl (fun n a =>
    n + s.listsUnder a acc + (if (s.arrAt a).instKind ≠ 0 ∧ (s.arrAt a).instAcc = acc then 1 else 0)) 0

/-- Packets of a rule accession not yet enqueued, dropped, punted or released. -/
def State.rulePackets (s : State) (acc : Nat) : Nat := (s.pkts.filter fun p => decide (p.ra = acc)).length

/-- The old accession's work on an array is done, so that a ripple's front may start (R296). -/
def State.frontMayStart (s : State) (a : Nat) : Bool :=
  match s.lib.retiring with
  | none => true
  | some m =>
    s.tapPassed m.acc &&
    !(s.sync.taps.any fun e =>
      let y := e.2.buf e.2.cur
      decide (y.busy = false) && decide (0 < y.rows) && decide (y.acc = some m.acc) && decide ((s.bankOf y.ra).tapArray e.1 = a)) &&
    !((s.queuedAccs a ++ s.firingAccs a).contains m.acc) &&
    !((s.arrAt a).susp.any fun x => decide (x.acc = m.acc)) &&
    (match (s.arrAt a).run with | some x => decide (x.acc ≠ m.acc) || x.ending | none => true)

/-! ## Commits (R280, R288) -/

/-- A write of the model commit object. -/
def State.modelCommit (s : State) (v : Nat) : Except Nat State :=
  if s.lib.schedModel.isSome then
    if v = 0 then .ok { s with lib := { s.lib with schedModel := none } } else .error 0x0800004D
  else if s.lib.retiring.isSome then .error 0x08000043
  else if v = 0 ∨ newer v s.activeModel = false then .error 0x08000044
  else
    let k := s.stagedOr 0x6803 1
    match s.lib.staged with
    | none => .error 0x0800004B
    | some m =>
      if m.slot = k ∧ (s.slotState k = slotStaged ∨ s.slotState k = slotRipple) then
        .ok { s with lib := { s.lib with schedModel := some ⟨v, s.stagedOr 0x6803 3⟩ } }
      else .error 0x0800004B

/-- The bank that a rule commit would make active. -/
def State.stagedBank (s : State) : Bank := s.intake.staged.getD { s.intake.bank with hits := [] }

/-- Primaries of an action map's entries in a bank (R109). -/
def Bank.primaries (b : Bank) (lo hi : Nat) : List Nat :=
  (b.objs.filter fun e => decide (lo ≤ e.1 / 65536) && decide (e.1 / 65536 ≤ hi)).map fun e => fld e.2 63 61

/-- A classifier action holds packets without an enabled tap descriptor (R57, R110). -/
def Bank.holdsUntapped (b : Bank) (act : Nat) : Bool :=
  let holds := decide (actPath act = 2) ||
    (decide (actPath act = 1) && (b.primaries (0x4810 + actEnsemble act) (0x4810 + actEnsemble act)).contains 4)
  holds && decide (b.tapKind (actTapDesc act) = 0)

/-- The checks of a rule commit on its bank (R57, R109, R245): the abort code, or none. -/
def Bank.commitError (b : Bank) : Option Nat :=
  let acts := ((b.rules.filter fun e => bit e.2.pv 7).map fun e => e.2.action) ++
    ((b.objs.filter fun e => decide (e.1 / 65536 = 0x3812) && decide (e.2 ≠ passQueueMark)).map fun e => e.2)
  if acts.any b.holdsUntapped then some 0x08000038
  else if (b.primaries 0x4810 0x481F).any fun p => !([0, 2, 4, 5].contains p) then some 0x0800003B
  else if (b.primaries 0x5080 0x508F).any fun p => !([0, 2, 5].contains p) then some 0x0800003B
  else none

/-- A write of the rule commit object (R32, R280, R288). -/
def State.ruleCommit (s : State) (v : Nat) : Except Nat State :=
  if s.lib.schedRule.isSome then
    if v = 0 then .ok { s with lib := { s.lib with schedRule := none } } else .error 0x0800004D
  else if s.ruleRetiring then .error 0x08000043
  else if v = 0 ∨ newer v (s.get 0x3809 0) = false then .error 0x08000044
  else if s.pairMismatch then .error 0x08000036
  else match s.stagedBank.commitError with
    | some c => .error c
    | none => .ok { s with lib := { s.lib with schedRule := some ⟨v, s.stagedBank.get 0x6809 0⟩ } }

/-- A rule commit takes effect (R53, R289): the bank staged becomes active, the one before it retires. It stands on a cycle boundary:
the sequencing cycle under way takes no further frame. -/
def State.applyRule (s : State) (v : Nat) : State :=
  let old := s.intake.bank
  let new := { s.stagedBank with acc := v }
  let s := { s with
    intake := { s.intake with bank := new, retiring := some old, staged := none, seqPos := 4 }
    lib := { s.lib with schedRule := none, ruleFrom := s.now, ruleLate := false } }
  let s := (s.put 0x3809 0 v).put 0x6802 0 old.acc
  let s := if new.fromImage.isSome then { s with flash := { s.flash with savedRule := some v, ruleSet := new.image } } else s
  s.fwMarker 0x0002 (natLe 1 0 ++ natLe 1 0 ++ natLe 2 v)

/-- A model commit takes effect (R289, R290, R296). -/
def State.applyModel (s : State) (v : Nat) : State :=
  match s.lib.staged with
  | none => { s with lib := { s.lib with schedModel := none } }
  | some m0 =>
    let m := { m0 with acc := v }
    let old := s.lib.active
    let ripple := decide (s.slotState m.slot = slotRipple)
    let mine (e : Nat × Nat) : Bool := decide (groupOf (e.1 / 65536) (e.1 % 65536) = some 1)
    let due := s.staged.filter mine
    let s := due.foldl (fun s e => { s with dict := Sparse.write objDefault s.dict e.1 (e.2 - 1) }) s
    let s := { s with
      staged := s.staged.filter fun e => !(mine e)
      intake := { s.intake with seqPos := 4 }
      lib := { s.lib with staged := none, active := some m, retiring := old, schedModel := none, modelFrom := s.now, modelLate := false } }
    let s := (s.put 0x6800 0 v).put 0x6801 0 ((old.map Model.acc).getD 0)
    let s := match old with | some o => s.setSlotState o.slot slotRetiring | none => s
    let s := (s.setSlotState m.slot slotActive).startRecords m v
    let s := if ripple then s.queueInstalls old m v 2 else s
    let s := if s.flag 0x6803 4 then { s with flash := { s.flash with savedModel := some (m.slot, v) } } else s
    s.tapRetire.fwMarker 0x0002 (natLe 1 1 ++ natLe 1 0 ++ natLe 2 v)

/-- The commits that are due take effect (R288, R289), a rule commit and a model commit of one time together. -/
def State.applyDue (s : State) : State :=
  let s := match due s.lib.schedRule s.now with | some v => s.applyRule v | none => s
  match due s.lib.schedModel s.now with | some v => s.applyModel v | none => s

/-! ## Retirement (R292, R293) -/

/-- The retiring model accession retires. -/
def State.retireModel (s : State) (m : Model) : State :=
  let s := (s.freeRecords m.acc).setSlotState m.slot slotValid
  let s := { s with lib := { s.lib with retiring := none, modelLate := false } }
  let s := ((s.put 0x6801 0 0).bump 0x680D 0).raise (Config.eventCode 8) 0x6801 0
  s.fwMarker 0x0003 (natLe 1 1 ++ natLe 1 0 ++ natLe 2 m.acc)

/-- The retiring rule bank retires; the bank of accession 0x0000, which is none, leaves without an event. -/
def State.retireRule (s : State) (b : Bank) : State :=
  let s := { s with intake := { s.intake with retiring := none }, lib := { s.lib with ruleLate := false } }
  if b.acc = 0 then s
  else
    let s := ((s.put 0x6802 0 0).bump 0x680D 0).raise (Config.eventCode 8) 0x6802 0
    s.fwMarker 0x0003 (natLe 1 2 ++ natLe 1 0 ++ natLe 2 b.acc)

/-- Abandons the queued lists of an accession in a ring, from index `i` on: each is counted and its tap buffer discarded now, and the
consumer index passes it in its turn (R293, log entry 55). -/
def State.killQueued (s : State) (a r acc : Nat) : Nat → Nat → State
  | 0, _ => s
  | fuel + 1, i =>
    if i = s.producer a r then s
    else
      let mine := decide (fld (cueWord (s.cueAt a (s.slotAddr a r i)) 0) 31 16 = acc) && !((s.arrAt a).dead.contains (r, i))
      let s := if mine then
          let s := (s.modArr a fun x => { x with dead := (r, i) :: x.dead }).bump (0x5040 + a) 5
          match s.tapLaunch a r i with
          | some (d, b) => s.discardBuf d b
          | none => s
        else s
      s.killQueued a r acc fuel (s.endOf a r i)

/-- Abandons an accession's queued lists in a ring, and passes those at its head. -/
def State.killRing (s : State) (a r acc : Nat) : State :=
  let s := s.killQueued a r acc (s.get (ringObj a r) 2) (s.queueStart a r)
  if (s.listsOf a).any fun x => decide (x.ring = r) then s else s.passDead a r (s.arrAt a).dead.length

/-- Abandons a trigger's pending firing of an accession (R293). -/
def State.killFiring (s : State) (t acc : Nat) : State :=
  match (s.trig t).wait with
  | some f => if f.acc = acc then ((s.setTrig t { s.trig t with wait := none }).bump (0x5040 + s.trigArray t) 5).dropTap f else s
  | none => s

/-- Abandons the lists of a model accession, started, queued or pending, frees its tap buffers, releases its held packets (R293). -/
def State.forceModel (s : State) (acc : Nat) : State :=
  let s := (List.range 16).foldl (fun s a =>
    let s := (s.listsOf a).foldl (fun s x => if x.ring < 16 ∧ x.acc = acc then s.abandonRun a 2 x else s) s
    (List.range 16).foldl (fun s r => s.killRing a r acc) s) s
  let s := s.sync.trigs.foldl (fun s e => s.killFiring e.1 acc) s
  let s := s.sync.taps.foldl (fun s e =>
    let s := if 0 < e.2.b0.rows ∧ e.2.b0.acc = some acc then s.discardBuf e.1 0 else s
    if 0 < e.2.b1.rows ∧ e.2.b1.acc = some acc then s.discardBuf e.1 1 else s) s
  s.releaseAll fun p => decide (p.ma = acc)

/-- A write of force retire. -/
def State.forceRetire (s : State) (v : Nat) : Except Nat State :=
  match v with
  | 1 => match s.lib.retiring with
    | some m => .ok (s.forceModel m.acc)
    | none => .ok s
  | 2 => match s.intake.retiring with
    | some b => .ok (s.releaseAll fun p => decide (p.ra = b.acc))
    | none => .ok s
  | _ => .error 0x02000006

/-! ## Restoring at BOOT (R287, R467) -/

/-- A persisted copy is whole: its commit word stands and its digest agrees (R286). -/
def Persisted.whole (p : Persisted) : Bool := decide (p.commit = commitWord) && decide (Hash.digest p.content = p.sha)

/-- Restores one persisted image into its slot; a copy that is not whole is ignored (R286), and an image that fails is refused. -/
def State.restoreImage (s : State) (p : Persisted) : State :=
  if p.whole = false then s else
  let s := s.beginImage p.slot p.content.length
  let x := s.slotAt p.slot
  if x.len = 0 then s
  else
    let s := s.memWrite x.off p.content
    match s.checkModel p.content p.slot x.len with
    | .ok m => s.slotPasses p.slot p.content m
    | .error c => ((if c = 0x08000045 then s.verifyFailed else s).emptySlot p.slot).put (0x6820 + p.slot) 9 c

/-- Installs the recorded model under its recorded accession. -/
def State.restoreModel (s : State) : State :=
  match s.flash.savedModel with
  | none => s
  | some (k, acc) => match (s.slotAt k).model with
    | none => s
    | some m0 =>
      let m := { m0 with acc := acc }
      let s := ((s.writeTables m).writeShelves m).startRecords m acc
      let s := { s with lib := { s.lib with active := some m } }
      (s.put 0x6800 0 acc).setSlotState k slotActive

/-- Installs the recorded rule set under its recorded accession. -/
def State.restoreRules (s : State) : State :=
  match s.flash.savedRule with
  | none => s
  | some acc => match s.checkRules s.flash.ruleSet with
    | .ok b => ({ s with intake := { s.intake with bank := { b with acc := acc } } }).put 0x3809 0 acc
    | .error c => if c = 0x08000045 then s.verifyFailed else s

/-- The persisted images, the recorded model and the recorded rule set. -/
def State.restoreLibrary (s : State) : State := ((s.flash.models.foldl State.restoreImage s).restoreModel).restoreRules

end Sys2Proof.Machine
end

