-- ==== Sys2Proof/Machine/Reliability.lean ====
section
/-! DEFINITION. Array island faults, the weight-digest scrub, field scans and the fabric-residual alert (R206, R402, R404 to R408,
R415 to R418). -/

namespace Sys2Proof.Machine

open Sys2Proof.Bits

/-! ## Array island faults (R206) -/

/-- The module's cores run and its arrays with them. -/
def State.coresRun (s : State) : Bool :=
  match s.dev.st with
  | .prepare => true
  | .run => true
  | .drain => true
  | _ => false

/-- The list of a pair runs on its even array: a fault of the odd one abandons it there (R206, R409). -/
def State.abandonPaired (s : State) (a : Nat) : State :=
  if s.flag 0x8000 0 ∧ a % 2 = 1 then match (s.arrAt (a - 1)).run with
    | some r => s.abandonRun (a - 1) 2 r
    | none => s
  else s

/-- ARRAY_ISLAND_FAULT (R206, R415, R453): the banks are lost, a dump is requested, and the array is suspect, in TEST too. -/
def execArrayIslandFault (a : Fin 16) (source t : Nat) (s : State) : Result :=
  let s := s.at t
  if s.hasArray a.val ∧ (s.coresRun = true ∨ s.dev.st = .test) ∧ s.frozen = false then
    let s := (s.modArr a.val Arr.closeBanks).abandonPaired a.val
    let taken := bit (s.get 0x8840 0) 1 && !s.dumpBlocked
    let recNo := s.flash.recNo
    let s := s.requestDump 1 recNo none
    .next (s.suspectUnit { cls := 0x14, uKind := 1, unit := a.val, detail := natLe 4 source, flags := if taken then 8 else 0 })
  else .next s

/-! ## Golden digests (R404) -/

/-- A section's place: two goldens of one place and digest are one section. -/
def Golden.same (x y : Golden) : Bool :=
  decide (x.reason = y.reason) && decide (x.bank = y.bank) && decide (x.first = y.first) && decide (x.rows = y.rows) && decide (x.digest = y.digest)

/-- Two shelf sections share rows of a bank. -/
def Golden.clash (x y : Golden) : Bool := decide (x.bank = y.bank) && overlap (x.first, x.rows) (y.first, y.rows)

/-- The shelf section of a golden digest is installed: its model's install on the array is done. -/
def State.shelfIn (s : State) (a : Nat) (m : Model) (g : Golden) : Bool :=
  if decide (s.lib.staged = some m) then decide (s.slotState m.slot = slotStaged)
  else if decide (s.lib.retiring = some m) then
    !(((s.lib.active.map Model.golden).getD []).any fun x =>
      decide (x.unit = g.unit) && decide (x.reason = 1) && x.clash g && !(x.same g))
  else !(decide (2 ≤ (s.arrAt a).instKind) && decide ((s.arrAt a).instAcc = m.acc))

/-- The resident models: active, retiring, staged. -/
def State.residents (s : State) : List Model := s.lib.active.toList ++ s.lib.retiring.toList ++ s.lib.staged.toList

/-- The unit that holds a unit's golden digests: the even array of a pair under full redundancy (R407). -/
def State.goldenUnit (s : State) (u : DigestUnit) : DigestUnit :=
  match u with
  | .array a => if s.flag 0x8000 0 then .array ⟨a.val / 2 * 2, by omega⟩ else u
  | .bank b => .bank b
  | .front => .front

/-- The array of a digest unit. -/
def unitArray (u : DigestUnit) : Nat := match u with | .array a => a.val | .bank _ => 16 | .front => 16

/-- Accessions and golden digests of every section that a unit holds. -/
def State.sectionsOf (s : State) (u : DigestUnit) : List (Nat × Golden) :=
  s.residents.flatMap fun m =>
    (m.golden.filter fun g => decide (g.unit = s.goldenUnit u) && (decide (g.reason ≠ 1) || s.shelfIn (unitArray u) m g)).map fun g => (m.acc, g)

/-- The sections of a unit, each once. -/
def distinct : List (Nat × Golden) → List Golden → List Golden
  | [], l => l.reverse
  | x :: r, l => if l.any x.2.same then distinct r l else distinct r (x.2 :: l)

/-- What the array holds of a section, digested; the golden digest itself for stores that the model keeps with the image. -/
def State.digestNow (s : State) (a acc : Nat) (g : Golden) : Nat :=
  if g.reason = 1 then Hash.digest (Sparse.readList memDefault (s.arrAt a).shelf (g.bank * 786432 + g.first * 256) (g.rows * 256))
  else if g.reason = 4 ∧ g.rows = 1 then Hash.digest (levelBytes (Sparse.readList (fun _ => 0) (s.arrAt a).tg8 (g.first * 256) 256))
  else if g.reason = 4 then
    let r := s.chanRec a g.first
    if r.acc = some acc then Hash.digest (natLe 12 r.img) else g.digest
  else g.digest

/-- Sections whose digest differs: found in the stores, or seen wrong by the digest engines at the places `bad` of the list. -/
def State.mismatches (s : State) (u : DigestUnit) (bad : List Nat) : List Golden :=
  let l := s.sectionsOf u
  let d := distinct l []
  let wrong (x : Golden × Nat) : Bool :=
    bad.contains x.2 || l.any fun e => e.2.same x.1 && decide (s.digestNow (unitArray u) e.1 x.1 ≠ x.1.digest)
  ((d.zip (List.range d.length)).filter wrong).map Prod.fst

/-! ## Scrub passes (R405 to R408) -/

/-- Every digest unit of the grade. -/
def State.digestUnits (s : State) : List DigestUnit :=
  ((List.finRange 16).filter fun a => s.hasArray a.val).map DigestUnit.array ++ (List.finRange 4).map DigestUnit.bank ++ [.front]

/-- SCRUB_PASS_START (R405): at a multiple of the weight-digest interval; a unit still in a pass keeps going. -/
def execScrubPassStart (t : Nat) (s : State) : Result :=
  let s := s.at t
  let step := s.get 0x8001 0 * 1000000
  let start := s.now / step * step
  if s.coresRun ∧ s.frozen = false ∧ s.rel.lastPass < start then
    let busy (u : DigestUnit) : Bool := s.rel.passes.any fun p => decide (p.unit = u)
    let new := (s.digestUnits.filter fun u => !busy u).map fun u => (⟨u, start, s.get 0x7010 0⟩ : Pass)
    .next { s with rel := { s.rel with passes := s.rel.passes ++ new, lastPass := start } }
  else .next s

/-- Unit kind and index of a digest unit (R420), and its name in a retraction notice (R408). -/
def unitKind : DigestUnit → Nat × Nat
  | .array a => (1, a.val)
  | .bank b => (2, b.val)
  | .front => (3, 0)
def unitName : DigestUnit → Nat
  | .array a => a.val
  | .bank b => 0xF0 + b.val
  | .front => 0xFF

/-- Start and first record sequence of the last pass in which a unit matched. -/
def State.lastGood (s : State) (u : DigestUnit) : Nat × Nat :=
  match s.rel.good.find? fun e => e.1 = u with
  | some (_, t, q) => (t, q)
  | none => (0, 0)

/-- Body of a retraction notice (R321, R408). -/
def retractBody (u : DigestUnit) (reason first last good now : Nat) : Bytes :=
  natBe 2 0 ++ natBe 1 (unitName u) ++ natBe 1 0 ++ natBe 4 first ++ natBe 4 last ++ natBe 4 reason ++ natBe 8 good ++ natBe 8 now

/-- Last record sequence number assigned. -/
def State.lastSeq (s : State) : Nat := (s.get 0x7010 0 + 2 ^ 32 - 1) % 2 ^ 32

/-- Sends the retraction notices of a mismatching section: one for each accession that uses it. -/
def State.retract (s : State) (u : DigestUnit) (g : Golden) : State :=
  let (t, q) := s.lastGood u
  (s.sectionsOf u).foldl (fun s e =>
    if e.2.same g ∧ e.1 ≠ 0 then (s.originate (s.get 0x700F 0) 3 0 e.1 (retractBody u g.reason q s.lastSeq t s.now)).bump 0x8008 0 else s) s

/-- The record of a digest mismatch (class 0x12). -/
def State.mismatchInfo (s : State) (u : DigestUnit) (g : Golden) (last : Nat) : ErrInfo :=
  { cls := 0x12, uKind := (unitKind u).1, unit := (unitKind u).2
    detail := natLe 1 g.reason ++ natLe 1 g.bank ++ natLe 2 g.first ++ natLe 4 (s.lastGood u).2 ++ natLe 4 last, flags := 4 }

/-- A mismatching section (R407, R408, R415): its notices first, then its unit is suspect. -/
def State.mismatch (s : State) (u : DigestUnit) (g : Golden) : State :=
  let last := s.lastSeq
  let s := (s.bump 0x8007 0).retract u g
  let s := match u with
    | .bank b => { s with tree := { s.tree with suspect := if s.tree.suspect.contains b.val then s.tree.suspect else b.val :: s.tree.suspect } }
    | .array _ => s
    | .front => s
  s.suspectUnit (s.mismatchInfo u g last)

/-- Notes a pass in which every section matched. -/
def State.noteGood (s : State) (p : Pass) : State :=
  let s := { s with rel := { s.rel with good := (p.unit, p.start, p.seqAt) :: s.rel.good.filter fun e => decide (e.1 ≠ p.unit) } }
  match p.unit with
  | .array a => s.put (0x8020 + a.val) 1 p.start
  | .bank b => s.put (0x8038 + b.val) 0 p.start
  | .front => s

/-- A DRAIN armed for tensor watch has the array's digest unit, ahead of the scrub (R26, R406). -/
def State.watching (s : State) (u : DigestUnit) : Bool :=
  match u with
  | .array a => (s.twins a.val).any fun i => (s.listsOf i).any fun r => r.fly.any fun f =>
      match f.drain with | some d => !d.watch.isEmpty | none => false
  | .bank _ => false
  | .front => false

/-- SCRUB_PASS_END (R406 to R408): the digests of a unit's pass are compared. -/
def execScrubPassEnd (u : DigestUnit) (bad : List Nat) (t : Nat) (s : State) : Result :=
  let s := s.at t
  match s.rel.passes.find? fun p => p.unit = u with
  | none => .next s
  | some p =>
    if s.frozen ∨ s.watching u = true then .next s
    else
      let s := { s with rel := { s.rel with passes := s.rel.passes.filter fun q => decide (q.unit ≠ u) } }
      let s := s.bump 0x8005 0
      let late := s.now - (p.start + 60000)
      let s := if 0 < late then
          (s.bump 0x8006 0).errorRecord { cls := 0x30, uKind := (unitKind u).1, unit := (unitKind u).2, detail := natLe 8 late }
        else s
      match s.mismatches u bad with
      | [] => .next (s.noteGood p)
      | l => .next (l.foldl (fun s g => s.mismatch u g) s)

/-! ## Field scans (R417) -/

/-- A write of the scan request. -/
def State.scanRequest (s : State) (mask : Nat) : Except Nat State :=
  if 2 ^ s.arrays ≤ mask then .error 0x02000006
  else if s.dev.st ≠ .drain ∨ s.flash.scanGood = false then .error 0x08000010
  else
    let ask := (List.finRange 16).filter fun a => bit mask a.val || s.rel.scanQueue.contains a
    let s := { s with rel := { s.rel with scanQueue := ask } }
    .ok (ask.foldl (fun s a => s.put (0x8020 + a.val) 3 1) s)

/-- An array may go into SCAN: in DRAIN, its lists finished, gated, or with gating off, which leaves it ACTIVE (R199, R417). -/
def State.scanReady (s : State) (a : Nat) : Bool :=
  decide (s.dev.st = .drain) && !s.frozen && ((s.twins a).all fun i => (s.listsOf i).isEmpty) &&
  (decide (s.power a = 0) || (decide (s.power a = 2) && !(s.flag (0x5020 + a) 2)))

/-- FIELD_SCAN_START (R26, R199, R417): the next array in ascending order. -/
def execFieldScanStart (a : Fin 16) (t : Nat) (s : State) : Result :=
  let s := s.at t
  match s.rel.scanning, s.rel.scanQueue with
  | none, x :: l =>
    if x = a ∧ s.scanReady a.val = true then
      let s := { s with rel := { s.rel with scanQueue := l, scanning := some a, scanFrom := s.now } }
      let s := (s.setPower a.val 4).put (0x8020 + a.val) 3 2
      let s := s.modArr a.val fun x => { x with wantFrom := none }
      .next (s.fwMarker 0x0005 (natLe 1 a.val ++ natLe 1 0))
    else .next s
  | _, _ => .next s

/-- FIELD_SCAN_COMPLETE (R417): the scan has discarded wings, whose bytes and row tags are free values from then on (log entry 47),
and banks; the array is gated again, or suspect. -/
def execFieldScanComplete (a : Fin 16) (pass : Bool) (pattern chains t : Nat) (s : State) : Result :=
  let s := s.at t
  if s.rel.scanning = some a ∧ s.frozen = false then
    let s := { s with rel := { s.rel with scanning := none } }
    let s := s.modArr a.val fun x => { x with wings := [], tags := [], scanned := some s.free, bank0 := {}, bank1 := {} }
    let s := { s with free := s.free + 2 }
    let (n, s) := s.delivered a.val (arithCycles (s.now - s.rel.scanFrom))
    let s := (s.bumpBy (0x5010 + a.val) 3 n).setPower a.val 0
    let s := s.put (0x8020 + a.val) 3 (if pass then 3 else 4)
    let s := s.gapRecord 0 1 1 a.val 0 s.rel.scanFrom s.now
    let s := s.fwMarker 0x0005 (natLe 1 a.val ++ natLe 1 (if pass then 1 else 2))
    if pass then .next (s.put (0x8020 + a.val) 2 s.now)
    else .next (s.suspectUnit { cls := 0x15, uKind := 1, unit := a.val, detail := natLe 4 pattern ++ natLe 4 chains })
  else .next s

/-! ## The replacement flag and the fabric residual -/

/-- A write of the clear object (R416). -/
def State.clearReplacement (s : State) (inSession : Bool) (v : Nat) : Except Nat State :=
  if v = 0 then .ok s
  else if inSession ∧ s.dev.st = .prepare ∧ s.flash.dieScanPassed = true then
    .ok { s with flash := { s.flash with replacement := false } }
  else .error 0x08000010

/-- Uncorrectable fabric codewords of all ports. -/
def State.fabResidual (s : State) : Nat := (List.range 16).foldl (fun n f => n + s.get 0x7818 (f + 1)) 0

/-- FABRIC_RESIDUAL_CHECK (R402): the end of an hour of house time. -/
def execFabricResidualCheck (t : Nat) (s : State) : Result :=
  let s := s.at t
  let hour := s.now / 3600000000000
  if s.rel.fabHour < hour ∧ s.stacksServed = true then
    let n := s.fabResidual - s.rel.fabBase
    let limit := s.get 0x8003 0
    let s := { s with rel := { s.rel with fabHour := hour, fabBase := s.fabResidual } }
    if limit < n ∧ s.flag 0x8004 0 = false then .next ((s.put 0x8004 0 1).alert 4 6 0 true)
    else if n < limit ∧ s.flag 0x8004 0 = true then .next ((s.put 0x8004 0 0).alert 4 6 0 false)
    else .next s
  else .next s

end Sys2Proof.Machine
end

