-- ==== Sys2Proof/Machine/CueCtl.lean ====
section
/-! DEFINITION. The cues that steer a list (R220, R224 to R229, R234 to R237, R248, R444), cue lights and triggers from
outside a list, the post object (R213) and clear fallback (R157). -/

namespace Sys2Proof.Machine

open Sys2Proof.Bits

/-! ## WAIT, SIGNAL, FENCE, HOLD -/

/-- WAIT (R224, R235): it joins its light's waiter queue. -/
def execWait (a : Fin 16) (c : CueCheck) (t : Nat) (s : State) : Result :=
  let s := s.at t
  .next (s.issue a.val opWait c fun s _ ws _ =>
    let l := fld (w ws 1) 10 0
    let n := fld (w ws 1) 31 16
    let peek := bit (w ws 0) 8
    let y : Waiter := ⟨l, a.val, n, peek, s.now⟩
    let s : State := { s with sync := { s.sync with waiters := s.sync.waiters ++ [y] } }
    .ok ((s.modRun a.val fun r => { r with block := .wait l n peek }).showRun a.val))

/-- WAIT_COMPLETE (R235, R236): the head of a light's queue is satisfied; the count falls by n unless it peeks. -/
def execWaitComplete (light : Fin 2048) (t : Nat) (s : State) : Result :=
  let s := s.at t
  let l := light.val
  match s.sync.waiters.find? fun x => x.light = l with
  | none => .next s
  | some x =>
    if x.n ≤ s.light l ∧ s.frozen = false then
      match (s.arrAt x.array).run with
      | none => .next s
      | some r =>
        let s := s.leaveQueue x.array 0 r
        let s := if x.peek then s else s.setLight l (s.light l - x.n)
        let s := s.modRun x.array fun r => { r with block := .none, progress := s.now }
        .next ((s.progress x.array).serveTaps l)
    else .next s

/-- SIGNAL (R224, R226, R234, R243): it acts once every earlier cue of its list is complete. -/
def execSignal (a : Fin 16) (c : CueCheck) (t : Nat) (s : State) : Result :=
  let s := s.at t
  .next (s.issue a.val opSignal c fun s _ ws _ =>
    let remote := if bit (w ws 2) 31 then some (fld (w ws 2) 8 0) else none
    let b : Block := .signal (fld (w ws 1) 10 0) (fld (w ws 1) 31 16) (bit (w ws 2) 30) remote (w ws 3)
    .ok ((s.modRun a.val fun r => { r with block := b }).progress a.val))

/-- Bit of a class in a FENCE mask (R220). -/
def CueClass.fenceBit : CueClass → Nat
  | .stream => 5
  | .emit => 4
  | .callslip => 3
  | .shelve => 2
  | .stage => 1
  | .drain => 0

/-- A cue of a class in the mask is in flight. -/
def Run.fenced (r : Run) (mask : Nat) : Bool := r.fly.any fun f => bit mask f.cls.fenceBit

/-- FENCE (R224, R226): issue stops while an earlier cue of a class in the mask is in flight. -/
def execFence (a : Fin 16) (c : CueCheck) (t : Nat) (s : State) : Result :=
  let s := s.at t
  .next (s.issue a.val opFence c fun s r ws _ =>
    let mask := fld (w ws 1) 5 0
    if r.fenced mask then .ok ((s.modRun a.val fun r => { r with block := .fence mask }).showRun a.val)
    else .ok (s.progress a.val))

/-- FENCE_COMPLETE (R226). -/
def execFenceComplete (a : Fin 16) (t : Nat) (s : State) : Result :=
  let s := s.at t
  match (s.arrAt a.val).run with
  | none => .next s
  | some r => match r.block with
    | .fence mask =>
      if r.fenced mask = false ∧ s.frozen = false then
        .next ((s.modRun a.val fun r => { r with block := .none, progress := s.now }).progress a.val)
      else .next s
    | _ => .next s

/-- HOLD (R248): until house time reaches the list's event time plus the offset; a target already past completes at
issue. -/
def execHold (a : Fin 16) (c : CueCheck) (t : Nat) (s : State) : Result :=
  let s := s.at t
  .next (s.issue a.val opHold c fun s _ ws _ =>
    let evt := match (s.arrAt a.val).run with | some r => r.evt | none => 0
    let target := evt + w ws 1
    if target ≤ s.now then .ok (s.progress a.val)
    else .ok ((s.modRun a.val fun r => { r with block := .hold target }).showRun a.val))

/-- HOLD_COMPLETE (R248). -/
def execHoldComplete (a : Fin 16) (t : Nat) (s : State) : Result :=
  let s := s.at t
  match (s.arrAt a.val).run with
  | none => .next s
  | some r => match r.block with
    | .hold target =>
      if target ≤ s.now ∧ s.frozen = false then
        .next ((s.modRun a.val fun r => { r with block := .none, progress := s.now }).progress a.val)
      else .next s
    | _ => .next s

/-! ## LOOP, CALL, RESTART (R227 to R229) -/

/-- What the search for a LOOP's ENDLOOP finds: the cue after it and whether it carries END, no cue posted yet, or none
in this list. -/
inductive Found where
  | after (p : Pos) (ending : Bool) | unposted | missing
  deriving DecidableEq, Repr

/-- Searches for the ENDLOOP that matches a LOOP already passed; `depth` LOOPs are open inside it. -/
def State.matchEnd (s : State) (a : Nat) (r : Run) : Nat → Nat → Pos → Found
  | 0, _, _ => .missing
  | fuel + 1, depth, p =>
    let r := { r with pos := p }
    if s.posted a r = false then .unposted
    else
      let w0 := w (words (s.cueBytes a r)) 0
      if w0 % 256 = opEndloop ∧ depth = 0 then .after p.next (bit w0 15)
      else if bit w0 15 then .missing
      else State.matchEnd s a r fuel
        (if w0 % 256 = opLoop then depth + 1 else if w0 % 256 = opEndloop then depth - 1 else depth) p.next

/-- Cues a search for an ENDLOOP looks at: a ring's greatest depth. -/
def searchCues : Nat := 65536

/-- LOOP (R227): with count 0 the list goes on after the matching ENDLOOP, and waits for it to be posted. -/
def execLoop (a : Fin 16) (c : CueCheck) (t : Nat) (s : State) : Result :=
  let s := s.at t
  .next (s.issue a.val opLoop c fun s' r ws _ =>
    let count := fld (w ws 1) 16 0
    if count = 0 then match s'.matchEnd a.val r searchCues 0 r.pos.next with
      | .after p e => .ok ((s'.modRun a.val fun r => { r with pos := p, ending := r.ending || e }).progress a.val)
      | .unposted => .ok s
      | .missing => .error .illegal
    else if 4 ≤ r.stack.length then .error .illegal
    else
      let f : Frame := .loop r.pos.next count 0 (toInt 16 (fld (w ws 2) 31 16)) (toInt 16 (fld (w ws 2) 15 0)) (toInt 32 (w ws 3))
      .ok ((s'.modRun a.val fun r => { r with stack := f :: r.stack }).progress a.val))

/-- ENDLOOP (R227): back to the cue after the LOOP while iterations remain. -/
def execEndloop (a : Fin 16) (c : CueCheck) (t : Nat) (s : State) : Result :=
  let s := s.at t
  .next (s.issue a.val opEndloop c fun s r _ _ => match r.stack with
    | .loop start count i sh wi st :: rest =>
      if i + 1 < count then
        .ok ((s.modRun a.val fun r => { r with stack := .loop start count (i + 1) sh wi st :: rest, pos := start }).progress a.val)
      else .ok ((s.modRun a.val fun r => { r with stack := rest }).progress a.val)
    | .call _ :: _ => .error .illegal
    | [] => .error .illegal)

/-- CALL (R220, R227, R228): LAUNCH is set only in the launch cue of a trigger, which starts a list and is not issued. -/
def execCall (a : Fin 16) (c : CueCheck) (t : Nat) (s : State) : Result :=
  let s := s.at t
  .next (s.issue a.val opCall c fun s r ws _ =>
    if bit (w ws 0) 8 = true ∨ 4 ≤ r.stack.length ∨ s.cueAddrOk (w ws 1) = false then .error .illegal
    else .ok ((s.modRun a.val fun y => { y with stack := .call r.pos.next :: y.stack, pos := .body (w ws 1) }).progress a.val))

/-- RETURN (R227, R228): at depth 0 of a launched body it ends the list. -/
def execRet (a : Fin 16) (c : CueCheck) (t : Nat) (s : State) : Result :=
  let s := s.at t
  .next (s.issue a.val opReturn c fun s r _ _ => match r.stack with
    | .call back :: rest => .ok ((s.modRun a.val fun y => { y with stack := rest, pos := back }).progress a.val)
    | .loop _ _ _ _ _ _ :: _ => .error .illegal
    | [] => if r.launched then .ok ((s.modRun a.val fun y => { y with ending := true }).progress a.val) else .error .illegal)

/-- RESTART (R229). -/
def execRestart (a : Fin 16) (c : CueCheck) (t : Nat) (s : State) : Result :=
  let s := s.at t
  .next (s.issue a.val opRestart c fun s _ _ _ => .ok ((s.restartHere a.val).progress a.val))

/-! ## Markers (R444, R445) -/

/-- MARK (R444, R445): its record, and the trace-trigger pulse of the range id in 0x8810:03. -/
def execMark (a : Fin 16) (c : CueCheck) (t : Nat) (s : State) : Result :=
  let s := s.at t
  .next (s.issue a.val opMark c fun s r ws _ =>
    let id := fld (w ws 1) 15 0
    let s := s.logRecord 4 0x10 1 a.val (markBody id a.val 0 r.pos.seq r.acc [])
    .ok ((if id = s.get 0x8810 3 then s.tracePulse else s).progress a.val))

/-- UNMARK (R444). -/
def execUnmark (a : Fin 16) (c : CueCheck) (t : Nat) (s : State) : Result :=
  let s := s.at t
  .next (s.issue a.val opUnmark c fun s r ws _ =>
    .ok ((s.logRecord 4 0x11 1 a.val (markBody (fld (w ws 1) 15 0) a.val 0 r.pos.seq r.acc [])).progress a.val))

/-! ## Cue lights and triggers from outside -/

/-- CUE_LIGHT_SIGNAL (R234, R236): a host write to a light's signal object. -/
def execCueLightSignal (r : Req) (light : Fin 2048) (v : Nat) (s : State) : Result :=
  .next ((s.at r.t).serveWrite r 0x5401 (light.val + 1) (natLe 2 v) fun s => .ok (s.addLight light.val (v % 65536) 3 0xFFFF 0))

/-- CUE_LIGHT_TRIGGER_FIRE (R236, R237, R242): once no queued WAIT is served, at most once per ARITH cycle. -/
def execCueLightTriggerFire (trig : Fin 512) (t : Nat) (s : State) : Result :=
  let s := s.at t
  let x := trig.val
  let l := s.get (0x5200 + x) 7
  let n := s.get (0x5200 + x) 8
  if s.trigOn x = true ∧ s.trigSource x = 3 ∧ n ≤ s.light l ∧ s.headReady l = false ∧ (s.trig x).fired ≠ some s.now ∧ s.frozen = false then
    let s := (s.setLight l (s.light l - n)).setTrig x { s.trig x with fired := some s.now }
    .next (s.fireTrig x ⟨s.firingModel, n, s.now, none⟩)
  else .next s

/-- A write of the fire object of an enabled DICTIONARY trigger (R237). -/
def State.fireWrite (s : State) (x v : Nat) : Except Nat State :=
  if s.trigOn x = false ∨ s.trigSource x ≠ 4 then .error 0x0800003F else .ok (s.fireTrig x ⟨s.firingModel, v, s.now, none⟩)

/-- FIRE (R237): a WRITE of a trigger's fire object. -/
def execFire (r : Req) (trig : Fin 512) (v : Nat) (s : State) : Result :=
  .next ((s.at r.t).serveWrite r (0x5200 + trig.val) 9 (natLe 4 v) fun s => s.fireWrite trig.val (v % 2 ^ 32))

/-- Smallest `n` whose occurrence φ + n × P lies at or after `from_`. -/
def firstOccurrence (phase period from_ : Nat) : Nat := (from_ - phase + period - 1) / period

/-- CLOCK_TRIGGER_FIRE (R240, R242): the latest occurrence passed fires; those passed over count as lost, or outside RUN as
suppressed. -/
def execClockTriggerFire (trig : Fin 512) (t : Nat) (s : State) : Result :=
  let s := s.at t
  let x := trig.val
  let i := 0x5200 + x
  let period := s.get i 5
  let phase := s.get i 6
  if s.trigOn x = true ∧ s.trigSource x = 2 ∧ phase ≤ s.now ∧ s.frozen = false then
    let y := s.trig x
    let n := (s.now - phase) / period
    let first := Max.max (firstOccurrence phase period y.from_) (match y.last with | some k => k + 1 | none => 0)
    if first ≤ n then
      let s := s.setTrig x { y with last := some n }
      let s := s.bumpBy i (if s.dev.st = .run then 0xC else 0xD) (n - first)
      .next (s.fireTrig x ⟨s.firingModel, n % 2 ^ 32, phase + n * period, none⟩)
    else .next s
  else .next s

/-- PENDING_FIRING_APPEND (R241, R297). -/
def execPendingFiringAppend (trig : Fin 512) (t : Nat) (s : State) : Result :=
  let s := s.at t
  if s.frozen then .next s else .next (s.appendWaiting trig.val)

/-! ## Host objects of lists and records -/

/-- A cue just appended is the rest of a list that has been passed over: the consumer index passes it too, or the ring's started list
will, and END ends it (R214, log entry 57). -/
def State.passTail (s : State) (a r : Nat) (ending : Bool) : State :=
  if (s.arrAt a).tails.contains r then
    let p := s.producer a r
    let s := if ending then s.modArr a fun x => { x with tails := x.tails.filter fun y => decide (y ≠ r) } else s
    if (s.listsOf a).any fun x => decide (x.ring = r) then
      let mark (y : Run) : Run := if y.ring = r then { y with skip := some p } else y
      s.modArr a fun x => { x with run := x.run.map mark, susp := x.susp.map mark }
    else s.put (ringObj a r) 8 p
  else s

/-- A cue that the host appends (R213, R214, R237, R297): the ring is open until its cue carries END; a cue with the LAUNCH
flag that begins a list is a list by itself. -/
def State.postHost (s : State) (a r : Nat) (cue : Bytes) : Except Nat State :=
  if s.flag 0x8000 0 ∧ a % 2 = 1 then .error 0x08000034
  else if 2 ≤ (s.arrAt a).instKind then .error 0x0800004C
  else if s.ringFull a r then .error 0x0800003D
  else
    let i := s.producer a r
    let ending := bit (cueWord cue 0) 15 || (isLaunch cue && !((s.arrAt a).openRings.contains r))
    let s := (s.append a r cue).modArr a fun x => { x with
      hostLaunch := (if isLaunch cue then [(r, i)] else []) ++ x.hostLaunch.filter fun e => s.inRing a e.1 e.2
      openRings := if ending then x.openRings.filter fun y => decide (y ≠ r)
        else if x.openRings.contains r then x.openRings else r :: x.openRings }
    .ok (s.passTail a r ending)

/-- POST_CUE (R213). -/
def execPostCue (r : Req) (a ring : Fin 16) (cue : Bytes) (s : State) : Result :=
  .next ((s.at r.t).serveWrite r (ringObj a.val ring.val) 9 cue fun s => s.postHost a.val ring.val cue)

/-- Clears the probed record's fallback at its next step close (R157). -/
def State.clearProbed (s : State) (v : Nat) : State :=
  if v = 1 then
    let a := s.get 0x5808 1
    let i := s.get 0x5808 2
    s.setChanRec a i { s.chanRec a i with clear := (s.chanRec a i).fall }
  else s

/-- CLEAR_FALLBACK (R157). -/
def execClearFallback (r : Req) (s : State) : Result :=
  .next ((s.at r.t).serveWrite r 0x5808 4 [1] fun s => .ok (s.clearProbed 1))

end Sys2Proof.Machine
end

