-- ==== Sys2Proof/Machine/FabricOps.lean ====
section
/-! DEFINITION. Operations of the Bilzo fabric (R326 to R351): wiring, reachability, call slips, doorbells, the house clock's
neighbours. -/

namespace Sys2Proof.Machine

open Sys2Proof.Bits

/-! ## Wiring (R327 to R329) -/

/-- Another reachable module announces a source other than the fabric (R346). -/
def State.otherSource (s : State) : Bool := s.fab.links.any fun x => x.announces && decide (x.module ≠ s.moduleNo) && s.reaches x.module

/-- Whether R327 uses a bay port of a single-bay system: its peer slot is present. -/
def State.slotPresent (s : State) (slot peer : Nat) : Bool := decide (slot = baySlot peer) || s.reaches slot

/-- Ports of a pair of modules of one bay stand under R327 in a single-bay system: a port that the rule uses joins its rule
peer; any other two but F7 may be joined. -/
def State.singleBayOk (s : State) (f : Nat) (p : Peer) : Bool :=
  let me := baySlot s.moduleNo
  let him := baySlot p.module
  let mine := decide (f ≤ 6) && s.slotPresent (ruleSlot me f) p.module
  let his := decide (p.port ≤ 6) && (decide (ruleSlot him p.port = me) || s.reaches (ruleSlot him p.port))
  decide (p.module < 8) && decide (p.port < 16) && decide (p.port ≠ 7) &&
  (!mine || (decide (him = ruleSlot me f) && decide (p.port = 6 - f))) &&
  (!his || (decide (me = ruleSlot him p.port) && decide (f = 6 - p.port)))

/-- A peer stands under R327 to R329; the edge port has no wiring rule. -/
def State.wiredOk (s : State) (f : Nat) (p : Peer) : Bool :=
  if f = 7 then decide (p.bays = s.bays) && decide (p.module ≠ s.moduleNo)
  else
    let me := s.moduleNo
    decide (p.bays = s.bays) && decide (p.module ≠ me) && decide (p.module < 512) &&
    (if s.bays < 2 then s.singleBayOk f p
     else if f ≤ 6 then decide (p.module = bayOf me * 8 + ruleSlot (baySlot me) f) && decide (p.port = 6 - f)
     else
       let g := 8 * baySlot me + (f - 8)
       if g = 63 then decide (p.module % 8 = 7) && decide (p.port = 15) && decide (bayOf p.module ≠ bayOf me) && decide (bayOf p.module < s.bays)
       else match globalPeer s.bays (bayOf me) g with
         | some (b, g') => decide (p.module = b * 8 + g' / 8) && decide (p.port = 8 + g' % 8)
         | none => false)

/-- A write of module number or bay count leaves the number's bay below the bay count (R330). -/
def bayOk (number bays : Nat) : Bool := decide (number = 0xFFFF) || decide (bayOf number < bays)

/-! ## Link state (R350) -/

/-- What this module floods. -/
def State.ownLink (s : State) : LinkState :=
  ⟨s.moduleNo, s.mfg.serial, s.fab.firstUp.getD 0, decide (s.get 0x2400 0 ≠ 0), s.neighbours, s.edgeNo⟩

/-- Floods this module's link state. -/
def State.flood (s : State) : State := s.emit (.linkState s.ownLink)

/-- Changes the link layer of a port. -/
def State.modPort (s : State) (f : Nat) (g : FabPort → FabPort) : State :=
  { s with fab := { s.fab with ports := s.fab.ports.mapIdx fun i x => if i = f then g x else x } }

/-- Sends a flit out of a port: numbered, kept for replay, and counted (R343). -/
def State.sendFlit (s : State) (f : Nat) (x : Flit) : State :=
  let p := s.fab.ports.toList.getD f {}
  let x := { x with linkSeq := p.nextSeq }
  let s := s.modPort f fun p => { p with nextSeq := (p.nextSeq + 1) % 4096, replay := (x :: p.replay).take 128 }
  (s.emit (.flit f x)).bump 0x7814 (f + 1)

/-! ## Remote access (R332) -/

/-- Statuses of R335. -/
def stOk : Nat := 1
def stNoAccess : Nat := 2
def stOutOfWindow : Nat := 3
def stUnreachable : Nat := 4
def stLost : Nat := 5
def stIllegal : Nat := 6
def stCheck : Nat := 7

/-- A bay's bit in an export mask. -/
def State.bayMay (s : State) (idx src : Nat) : Bool := bit (s.get idx 0) (bayOf src)

/-- The check of a remote operation at its target: the status that refuses it, or none. -/
def State.remoteCheck (s : State) (src : Nat) (write : Bool) (offset n : Nat) : Option Nat :=
  if s.bayMay (if write then 0x7804 else 0x7803) src = false then some stNoAccess
  else if s.inRegion 5 offset n = false then some stOutOfWindow
  else none

/-- The word of an atomic operation, and the stacks with its new value (R263, R334). -/
def State.atomic (s : State) (offset : Nat) (f : Nat → Nat) : Nat × State :=
  let old := leNat (s.memRead offset 8)
  (old, (s.countRead offset 8).memWrite offset (natLe 8 (f old)))

/-! ## Doorbells (R243, R244, R332) -/

/-- A doorbell from a bay that may ring it acts; else it is discarded and counted. -/
def State.doorbell (s : State) (src : Nat) (d : Doorbell) : Bool × State :=
  if s.bayMay 0x7805 src = false then (false, s.bump 0x7822 0)
  else match d with
    | .light l n => (true, s.addLight (l % 2048) n 1 src 0)
    | .trigger t p =>
      let t := t % 512
      if s.trigOn t ∧ s.trigSource t = 5 then (true, s.fireTrig t ⟨s.firingModel, p, s.now, none⟩) else (true, s.bump 0x7822 0)

/-! ## Call slips (R335 to R337, R250) -/

/-- The slip in a wings line, as an operation of a CALLSLIP. -/
def slipOp (bs : Bytes) (id group a line : Nat) (async : Bool) (light : Option Nat) (addr seq : Nat) : FabOp :=
  { id := id, array := a, line := line, opcode := le bs 0 1, length := le bs 4 4, remote := le bs 8 8, second := le bs 16 8
    result := le bs 40 4 % 2 ^ 15, wings := bit (le bs 1 1) 6, a := le bs 24 8, b := le bs 32 8, tag := le bs 44 4
    ordered := bit (le bs 1 1) 7, async := async, light := light, sent := none, addr := addr, seq := seq, group := group }

/-- The check word of a slip (R335). -/
def slipCrcOk (bs : Bytes) : Bool :=
  decide (le bs 60 4 = (Hash.crc32c (bs.take 2 ++ [0, 0] ++ slice bs 4 56)).toNat)

/-- A local address of a slip lies where R335 allows. -/
def State.localOk (s : State) (wings : Bool) (x n : Nat) : Bool :=
  decide (x % 64 = 0) && (if wings then decide (x + n ≤ wingsBytes) else s.inRegions [4, 5] x n)

/-- Module and offset of a global address (R331). -/
def gaModule (x : Nat) : Nat := x / 2 ^ 35
def gaOffset (x : Nat) : Nat := x % 2 ^ 35

/-- A side of a COPY on this module is a local side, as the worked example of R351 has it. -/
def State.copySideOk (s : State) (x n : Nat) : Bool :=
  decide (x < 2 ^ 44) && decide (x % 64 = 0) &&
  (decide (gaModule x ≠ s.moduleNo) || s.inRegions [4, 5] (gaOffset x) n)

/-- Opcode, length, alignment and local side of a slip stand (R334, R335). -/
def State.slipLegal (s : State) (o : FabOp) : Bool :=
  match o.opcode with
  | 1 | 2 => decide (64 ≤ o.length) && decide (o.length ≤ 4096) && decide (o.length % 64 = 0) && decide (o.remote < 2 ^ 44) &&
             decide (o.remote % 64 = 0) && s.localOk o.wings o.second o.length
  | 3 | 4 => decide (o.length = 8) && decide (o.remote < 2 ^ 44) && decide (o.remote % 8 = 0)
  | 5 => decide (64 ≤ o.length) && decide (o.length ≤ 2 ^ 24) && decide (o.length % 64 = 0) && s.copySideOk o.remote o.length &&
         s.copySideOk o.second o.length
  | _ => false

/-- The modules that an operation needs. -/
def FabOp.targets (o : FabOp) : List Nat := if o.opcode = 5 then [gaModule o.remote, gaModule o.second] else [gaModule o.remote]

/-- An operation's modules all have a path. -/
def State.pathOk (s : State) (o : FabOp) : Bool := o.targets.all fun m => decide (m = s.moduleNo) || s.reachesNo m

/-- A doorbell from the fabric acts and is answered. -/
def State.ringBell (s : State) (x : Nat × Doorbell) : State :=
  let (ok, s) := s.doorbell x.1 x.2
  s.emit (.reply ⟨x.1, false⟩ (if ok then stOk else stNoAccess) [])

/-- After a thaw the doorbells that waited act in order (R455). -/
def State.ringBells (s : State) : State := s.fab.bells.foldl State.ringBell { s with fab := { s.fab with bells := [] } }

/-- Data that an operation carries from this module. -/
def State.outData (s : State) (o : FabOp) : Bytes :=
  match o.opcode with
  | 2 => if o.wings then s.wings o.array o.second o.length else s.memRead o.second o.length
  | 3 => natLe 8 o.a
  | 4 => natLe 8 o.a ++ natLe 8 o.b
  | _ => []

/-- Writes bytes to the local side of an operation. -/
def State.localWrite (s : State) (o : FabOp) (bs : Bytes) : State :=
  if o.wings then s.wingsPlain o.array (o.second / 64) bs else s.memWrite o.second bs

/-- The reply of this module to an operation addressed to its own number, and what the operation does here (R331). -/
def State.ownReply (s : State) (o : FabOp) : SlipReply × State :=
  let off := gaOffset o.remote
  match o.opcode with
  | 1 => match s.remoteCheck s.moduleNo false off o.length with
    | some st => (⟨st, []⟩, s.bump 0x7821 0)
    | none => (⟨stOk, s.memRead off o.length⟩, s.countRead off o.length)
  | 2 => match s.remoteCheck s.moduleNo true off o.length with
    | some st => (⟨st, []⟩, s.bump 0x7821 0)
    | none =>
      let data := s.outData o
      (⟨stOk, []⟩, (if o.wings then s else s.countRead o.second o.length).memWrite off data)
  | 3 | 4 => match s.remoteCheck s.moduleNo true off 8 with
    | some st => (⟨st, []⟩, s.bump 0x7821 0)
    | none =>
      let (old, s) := s.atomic off fun v => if o.opcode = 3 then (v + o.a) % 2 ^ 64 else if v = o.a then o.b else v
      (⟨stOk, natLe 8 old⟩, s)
  | _ => (⟨stOk, s.memRead off o.length⟩, s.countRead off o.length)

/-- Sends a chunk of an operation by its own route (R339). -/
def State.sendChunk (s : State) (id op dest off len chunk : Nat) (data : Bytes) : State :=
  let (w, s) := s.route dest
  s.emit (.request id op dest off len chunk data w)

/-- Sends an operation's bytes in chunks of 4 KiB, `n` of them at most (R334, R339). -/
def State.sendChunks (s : State) (id op dest off len chunk : Nat) (data : Bytes) : Nat → State
  | 0 => s
  | n + 1 =>
    if len = 0 then s
    else
      let k := Min.min 4096 len
      (s.sendChunk id op dest off k chunk (data.take k)).sendChunks id op dest (off + k) (len - k) (chunk + k) (data.drop k) n

/-- The writes of a COPY to another module, in chunks (R334). -/
def State.copyOut (s : State) (o : FabOp) (data : Bytes) : State :=
  s.sendChunks o.id 2 (gaModule o.second) (gaOffset o.second) o.length 0 data ((o.length + 4095) / 4096)

/-- What an operation that completed with OK writes on this module (R334); the data of a COPY between two other modules passes
through this one on its way (log entry 36). -/
def State.slipData (s : State) (o : FabOp) (data : Bytes) : State :=
  match o.opcode with
  | 1 => s.localWrite o (slice data 0 o.length)
  | 3 | 4 => s.wingsPlain o.array o.result (slice (slice data 0 8) 0 64)
  | 5 =>
    if gaModule o.second = s.moduleNo then s.memWrite (gaOffset o.second) (slice data 0 o.length)
    else if gaModule o.remote = s.moduleNo then s
    else s.copyOut o (slice data 0 o.length)
  | _ => s

/-- Writes a slip's status byte (R335). -/
def State.slipStatus (s : State) (o : FabOp) (st : Nat) : State :=
  s.wingsPlain o.array o.line (patch (s.wings o.array (o.line * 64) 64) 2 (natLe 1 st))

/-- Removes an operation. -/
def State.dropOp (s : State) (id : Nat) : State := { s with fab := { s.fab with ops := s.fab.ops.filter fun o => decide (o.id ≠ id) } }

/-- A list of the array has the slip's cue in flight. -/
def holdsSlip (id : Nat) (f : Fly) : Bool := decide (f.cls = .callslip) && f.slips.contains id

/-- A failed slip of a CALLSLIP without ASYNC (R336): its list aborts to its restart point, or, for a lost atomic, is abandoned;
slips of the cue not yet sent are not sent. -/
def State.slipFails (s : State) (o : FabOp) (st : Nat) : State :=
  let s := { s with fab := { s.fab with ops := s.fab.ops.filter fun p => decide (p.group ≠ o.group) || p.sent.isSome } }
  match s.flying o.array (holdsSlip o.id) with
  | none => s
  | some (r, f) =>
    let s := s.modArr o.array fun x => x.modFirst (fun r => r.hasFly (holdsSlip o.id)) fun r => { r with fly := r.fly.erase f }
    let r' := { r with fly := r.fly.erase f }
    if (o.opcode = 3 ∨ o.opcode = 4) ∧ st = stLost then s.abandonRun o.array 2 r'
    else if (s.arrAt o.array).run = some r' then s.abortToRestart o.array r' none
    else
      let s := s.bump (0x5040 + o.array) 4
      if s.get 0x5003 0 < r.retries + 1 then s.abandonRun o.array 2 r'
      else s.modArr o.array fun x => { x with susp := x.susp.map fun y => if y = r' then { y with retries := y.retries + 1, rewind := true } else y }

/-- A slip completes with a status (R335, R336): counted, written into its line, and, OK, its data placed; then its cue, its
light, or the error. -/
def State.slipDone (s : State) (o : FabOp) (st : Nat) (data : Bytes) : State :=
  let s := (s.bump 0x7820 st).dropOp o.id
  let s := if st = stOk then s.slipData o data else s
  let s := s.slipStatus o st
  if st = stOk then
    let s := match o.light with
      | some l => s.addLight l 1 2 o.array o.seq o.addr opCallslip
      | none => s
    if o.async then s
    else
      let s := s.modArr o.array fun x => x.modFirst (fun r => r.hasFly (holdsSlip o.id)) fun r =>
        { r with fly := r.fly.map fun f => if holdsSlip o.id f then { f with slips := f.slips.filter fun i => decide (i ≠ o.id) } else f }
      s.land o.array fun f => decide (f.cls = .callslip) && f.slips.isEmpty
  else
    let s := s.errorRecord
      { cls := 0x0A, uKind := 1, unit := o.array, detail := natLe 4 o.tag ++ natLe 1 st ++ natLe 8 o.remote, cueAddr := o.addr, cueSeq := o.seq,
        opcode := opCallslip }
    if o.async then s else s.slipFails o st

/-- Notes that an operation is sent. -/
def State.markSent (s : State) (id : Nat) : State :=
  let f (p : FabOp) : FabOp := if p.id = id then { p with sent := some s.now } else p
  { s with fab := { s.fab with ops := s.fab.ops.map f } }

/-- A slip is sent, or completes at once with UNREACHABLE, ILLEGAL or CHECK; one on this module's own number uses no link (R331), and a
COPY is sent as the reads or the writes of its chunks. -/
def State.sendSlip (s : State) (o : FabOp) : State :=
  let bs := s.wings o.array (o.line * 64) 64
  if slipCrcOk bs = false then s.slipDone o stCheck []
  else if s.slipLegal o = false then s.slipDone o stIllegal []
  else if s.pathOk o = false then s.slipDone o stUnreachable []
  else
    let s := s.markSent o.id
    if o.targets.all (fun m => decide (m = s.moduleNo)) then s
    else if o.opcode = 5 then
      if gaModule o.remote = s.moduleNo then (s.countRead (gaOffset o.remote) o.length).copyOut o (s.memRead (gaOffset o.remote) o.length)
      else s.sendChunks o.id 1 (gaModule o.remote) (gaOffset o.remote) o.length 0 [] ((o.length + 4095) / 4096)
    else
      let s := if o.opcode = 2 ∧ o.wings = false then s.countRead o.second o.length else s
      s.sendChunk o.id o.opcode (gaModule o.remote) (gaOffset o.remote) o.length 0 (s.outData o)

/-- The first slip of a cue that is not sent and may be: an ORDERED one waits for the earlier ones of its cue (R337). -/
def State.nextSlip (s : State) (group : Nat) : Option FabOp :=
  match s.fab.ops.find? fun o => decide (o.group = group) && o.bell.isNone && o.sent.isNone with
  | none => none
  | some o => if o.ordered && (s.fab.ops.any fun p => decide (p.group = group) && p.bell.isNone && decide (p.id < o.id)) then none else some o

/-- Sends a cue's slips in line order as far as they may be sent. -/
def State.sendSlips (s : State) (group : Nat) : Nat → State
  | 0 => s
  | n + 1 => match s.nextSlip group with
    | none => s
    | some o => (s.sendSlip o).sendSlips group n

/-- Queues the slips of a CALLSLIP: one for each line from `line` on. -/
def State.queueSlips (s : State) (a line : Nat) (async : Bool) (light : Option Nat) (addr seq : Nat) (group : Nat) : Nat → State
  | 0 => s
  | n + 1 =>
    let id := s.fab.nextOp
    let o := slipOp (s.wings a (line * 64) 64) id group a line async light addr seq
    ({ s with fab := { s.fab with nextOp := id + 1, ops := s.fab.ops ++ [o] } }).queueSlips a (line + 1) async light addr seq group n

end Sys2Proof.Machine
end

