-- ==== Sys2Proof/Machine/RingOps.lean ====
section
/-! DEFINITION. Operations of the management ring (R353 to R359) and of the cyclic images of ODP-2 (R366 to R368, R376, R389,
R393 to R396) that the dictionary's objects call. -/

namespace Sys2Proof.Machine

open Sys2Proof.Bits


/-- Link of management port `i`. -/
def State.mgmtLink (s : State) (i : Nat) : Bool := if i = 0 then s.mgmt.link0 else s.mgmt.link1

/-- Sets the link of management port `i`. -/
def State.setMgmtLink (s : State) (i : Nat) (b : Bool) : State :=
  if i = 0 then { s with mgmt := { s.mgmt with link0 := b } } else { s with mgmt := { s.mgmt with link1 := b } }

/-- Ring state of 0x1802:00: M0 down reads 2, M1 down reads 3, both down 4. -/
def State.ringState (s : State) : Nat :=
  if s.mgmt.joined = false then 0
  else match s.mgmt.link0, s.mgmt.link1 with
    | true, true => 1
    | false, true => 2
    | true, false => 3
    | false, false => 4

/-- States in which firmware runs and the module may be on the ring. -/
def DevState.onRing : DevState → Bool
  | .boot => true
  | .prepare => true
  | .run => true
  | .drain => true
  | .test => true
  | .off => false
  | .reset => false
  | .fault => false

/-- The port a frame that came in on `i` leaves through: the other one, or `i` itself while the other is
down (R354, R357). -/
def State.ringOut (s : State) (i : Nat) : Nat := if s.mgmtLink (1 - i) then 1 - i else i

/-- Forwards a frame with its hop count advanced, unless the module originated it; one whose hop count would
exceed 1,024 is discarded and counted (R354, R355). -/
def State.forward (s : State) (i : Nat) (f : RingFrame) : State :=
  if s.mgmt.joined = false ∨ (f.source ≠ 0 ∧ f.source = s.get 0x1803 0) then s
  else if 1024 < f.hop + 1 then s.bump 0x1811 0
  else
    let o := s.ringOut i
    (s.emit (.ringFrame o { f with hop := f.hop + 1 })).bump 0x1810 (o + 1)

/-- Ring position (R358): from the first east copy of each cycle or ring-status frame; 0x8000 more than the hop
count of the west copy when only west copies come. -/
def State.takePosition (s : State) (f : RingFrame) : State :=
  let c := f.sequence
  if f.west then
    if s.mgmt.posEast = some c ∨ s.mgmt.posEast = some (c - 1) then s
    else ({ s with mgmt := { s.mgmt with posSeen := some c } }).put 0x1804 0 (0x8000 + f.hop + 1)
  else if s.mgmt.posEast = some c then s
  else ({ s with mgmt := { s.mgmt with posSeen := some c, posEast := some c } }).put 0x1804 0 (f.hop + 1)

/-- The entries of a mapping array in force: (index, sub-index, bytes) (R382, R393). -/
def State.mapping (s : State) (idx : Nat) : List (Nat × Nat × Nat) :=
  (List.range (s.get idx 0)).map fun k =>
    let e := s.get idx (k + 1)
    (fld e 31 16, fld e 15 8, fld e 7 0)

/-- Bytes of a mapping. -/
def mapBytes (m : List (Nat × Nat × Nat)) : Nat := m.foldl (fun n e => n + e.2.2) 0

/-- The output slot: exchange flag, device-state code, then the latched objects (R367). -/
def State.outSlot (s : State) : Bytes :=
  natLe 1 (s.mgmt.cycle.number % 256) ++ natLe 1 ((s.dev.st.code?).getD 0) ++ s.mgmt.outLatch

/-- The cyclic group takes effect at a cycle start (R376). -/
def State.cyclicStart (s : State) : State :=
  match s.mgmt.cyclicDue with
  | none => s
  | some m =>
    let s := m.foldl (fun s e => { s with dict := Sparse.write objDefault s.dict e.1 (e.2 - 1) }) s
    State.commitMark { s with mgmt := { s.mgmt with cyclicDue := none, inApplied := none } } 3

/-- A mapped WO object acts when its value differs from the last applied, or in the first image after the
commit when it is not zero (R396). -/
def woActs (last : Option Nat) (v : Nat) : Bool :=
  match last with
  | none => decide (v ≠ 0)
  | some w => decide (v ≠ w)

/-- The values of an input image in mapping order. -/
def imageValues : List (Nat × Nat × Nat) → Bytes → List Nat
  | [], _ => []
  | (_, _, n) :: m, bs => leNat (bs.take n) :: imageValues m (bs.drop n)

/-- Bytes of the image area of a cycle frame: 1,518 less Ethernet header, FCS, frame header and the two
times (R360, R366). -/
def imageArea : Nat := 1518 - 18 - 16 - 16

/-- Ring cycle period in ns (0x1806:00 counts µs). -/
def State.cyclePeriod (s : State) : Nat := s.get 0x1806 0 * 1000

/-- Cycle frames of another master arrive: one came within the last two cycle periods (R359). -/
def State.hearsMaster (s : State) : Bool :=
  match s.mgmt.otherMaster with | none => false | some h => decide (s.now < h + 2 * s.cyclePeriod)

/-- A module that has the ring-master role sees another master's cycle frame (R359): a master-conflict event,
and it stops sending if its ring address is the higher. -/
def State.masterConflict (s : State) (other : Nat) : State :=
  let fresh_ := !s.hearsMaster
  let s := { s with mgmt := { s.mgmt with
    otherMaster := some s.now, stopped := s.mgmt.stopped || decide (other < s.get 0x1803 0) } }
  if fresh_ then s.raise (Config.eventCode 2) 0x1805 0 else s

/-- Cuts a downloaded master image into the image areas of cycle frames, in frame-index order (R389). -/
def cutImages : Nat → Bytes → List Bytes
  | 0, _ => []
  | n + 1, bs => if bs.isEmpty then [] else bs.take imageArea :: cutImages n (bs.drop imageArea)

/-- Content of 0x1840:01 (R389): cycle number, then the returned image areas in frame-index order. -/
def State.masterOutputs (s : State) : Bytes :=
  natLe 4 s.mgmt.masterDone ++
  (List.range 64).foldl (fun b n => b ++ ((s.mgmt.masterOut.find? fun e => e.1 = n).map (·.2)).getD []) []

/-- A write of the ring-master role (R359): refused while cycle frames of another master arrive. -/
def State.setRingMaster (s : State) (v : Nat) : Except Nat State :=
  if v = 1 ∧ s.hearsMaster = true then .error 0x08000013
  else .ok (({ s with mgmt := { s.mgmt with stopped := false, otherMaster := none } }).put 0x1805 0 v)

/-- A write of the cycle period (R366): a master refuses one shorter than 1.1 times its measured round trip,
which includes the frames' serialisation. -/
def State.setCyclePeriod (s : State) (v : Nat) : Except Nat State :=
  if s.flag 0x1805 0 ∧ v * 1000 * 10 < 11 * s.mgmt.roundTrip then .error 0x08000051 else .ok (s.put 0x1806 0 v)

/-- A type a cyclic image may carry (R393). -/
def mappableType : Ty → Bool
  | .bool => true
  | .u _ => true
  | .i _ => true
  | .str _ => false
  | .oct _ => false
  | .domain => false

/-- Objects excluded from both images, and from the input image (R395). -/
def excludedBoth (idx sub : Nat) : Bool :=
  (idx == 0x4020 && (sub == 1 || sub == 2)) || (idx == 0x5808 && (sub == 1 || sub == 2)) ||
  (decide (0x5070 ≤ idx) && decide (idx ≤ 0x507F) && sub == 2) || (idx == 0x6030 && sub == 1)

/-- Objects excluded from the input image only (R395). -/
def excludedIn (idx sub : Nat) : Bool :=
  [0x1808, 0x2001, 0x2011, 0x2020, 0x2021, 0x4021, 0x400B, 0x680B, 0x1828].contains idx ||
  (idx == 0x4020 && sub == 4) || (decide (0x6820 ≤ idx) && decide (idx ≤ 0x682F) && (sub == 6 || sub == 8))

/-- Whether a mapping entry is allowed in a direction: none, or the abort code (R393, R394, R396). -/
def State.mapEntry (s : State) (input : Bool) (e : Nat × Nat × Nat) : Option Nat :=
  let idx := e.1
  let sub := e.2.1
  match s.findObj idx sub with
  | .error _ => some 0x02000007
  | .ok row =>
    let accOk := match row.acc with
      | .ro => !input
      | .rw => true
      | .rwp => true
      | .wo => input
      | .const => false
    let place := !(decide (0xA000 ≤ idx) && decide (idx ≤ 0xAFFF)) && !(excludedBoth idx sub) &&
      (if input then !(excludedIn idx sub) && !(decide (0x9000 ≤ idx) && decide (idx ≤ 0x97FF)) else !(idx == 0xA021))
    if accOk && place && mappableType row.ty then
      if e.2.2 = tySize row.ty then none else some 0x02000005
    else some 0x02000007

/-- First refusal among the entries. -/
def State.mapErrors (s : State) (input : Bool) : List (Nat × Nat × Nat) → Option Nat
  | [] => none
  | e :: m =>
    match s.mapEntry input e with
    | some c => some c
    | none => if input && (m.any fun x => x.1 = e.1 ∧ x.2.1 = e.2.1) then some 0x02000007 else s.mapErrors input m

/-- CYCLIC commit (R367, R376): the staged mappings are checked as a whole; they take effect at the first cycle
start after the commit. A slot has at most 256 bytes and lies within its frame, one of the 64 (R360). -/
def State.cyclicCommit (s : State) (v : Nat) : Except Nat State :=
  if v = 0 then .ok s
  else
    let mine (e : Nat × Nat) : Bool := decide (groupOf (e.1 / 65536) (e.1 % 65536) = some 3)
    let due := s.staged.filter mine
    let s' := due.foldl (fun s e => { s with dict := Sparse.write objDefault s.dict e.1 (e.2 - 1) }) s
    let outs := s'.mapping 0x1820
    let ins := s'.mapping 0x1821
    match s'.mapErrors false outs, s'.mapErrors true ins with
    | some c, _ => .error c
    | none, some c => .error c
    | none, none =>
      if 256 < mapBytes outs + 2 ∨ 256 < mapBytes ins ∨
         63 < fld (s'.get 0x1822 1) 31 24 ∨ 63 < fld (s'.get 0x1822 2) 31 24 ∨
         imageArea < fld (s'.get 0x1822 1) 15 0 + mapBytes outs + 2 ∨ imageArea < fld (s'.get 0x1822 2) 15 0 + mapBytes ins then
        .error 0x02000008
      else .ok { s with
        staged := s.staged.filter fun e => !(mine e)
        mgmt := { s.mgmt with cyclicDue := some due } }

end Sys2Proof.Machine
end

