-- ==== Sys2Proof/Machine/Store.lean ====
section
/-! DEFINITION. The configuration store (R375, R392, R397, R398): what it holds, its record, and how a cold start applies
it. The layout of the record is not stated; the model's stands in log entry 17. -/

namespace Sys2Proof.Machine

open Sys2Proof.Bits

/-- Selectors, peek data and run-time state that are not stored, and the groups restored with models and rule sets (R397). -/
def notStored (idx sub : Nat) : Bool :=
  (idx == 0x4020 && (sub == 1 || sub == 2)) || (idx == 0x5808 && (sub == 1 || sub == 2)) ||
  (decide (0x5070 ≤ idx) && decide (idx ≤ 0x507F) && sub == 2) || (idx == 0x6030 && (sub == 1 || sub == 2)) ||
  (idx == 0x3810 && sub == 1) || (decide (0x5060 ≤ idx) && decide (idx ≤ 0x506F) && sub == 1) || idx == 0x5400 ||
  idx == 0x6803 || idx == 0x1808 || isRuleObj idx sub

/-- The save object stores the object (R397): RW and RW-P objects of the map outside 0xA000 to 0xAFFF. -/
def State.stores (s : State) (idx sub : Nat) : Bool :=
  if notStored idx sub ∨ (0xA000 ≤ idx ∧ idx ≤ 0xAFFF) then false
  else match s.findObj idx sub with
    | .ok row => decide (row.acc = .rw) || decide (row.acc = .rwp)
    | .error _ => false

/-- Every object the save object stores, in ascending order: index, sub-index, bytes. -/
def State.storedObjects (s : State) : List (Nat × Nat × Nat) :=
  (List.range 0x9800).flatMap fun idx =>
    if objIndex? idx then
      (List.range (entryCount idx + 1)).filterMap fun sub =>
        if s.stores idx sub then some (idx, sub, (match objRow? idx sub with | some r => tySize r.ty | none => 0)) else none
    else []

/-- One object in a configuration: its index, sub-index and length as U16, and its value (R471). -/
def configEntry (idx sub n v : Nat) : Bytes := natLe 2 idx ++ natLe 2 sub ++ natLe 2 n ++ natLe n v

/-- The payload that holds the values of a configuration. -/
def State.configPayload (s : State) (value : Nat → Nat → Nat) : Bytes :=
  s.storedObjects.flatMap fun x => configEntry x.1 x.2.1 x.2.2 (value x.1 x.2.1)

/-- A record: payload, its SHA-256, the commit word. -/
def configRecord (payload : Bytes) : Bytes := payload ++ Hash.sha256 payload ++ natLe 4 commitWord

/-- Payload of a record whose digest and commit word are right. -/
def configOpen (b : Bytes) : Option Bytes :=
  let n := b.length - 36
  let p := b.take n
  if 36 ≤ b.length ∧ Hash.sha256 p = slice b n 32 ∧ le b (n + 32) 4 = commitWord then some p else none

/-- The entries of a payload: index, sub-index, bytes, value. -/
def configEntries : Nat → Bytes → List (Nat × Nat × Nat × Nat)
  | 0, _ => []
  | fuel + 1, b =>
    if b.length < 6 then []
    else
      let n := le b 4 2
      (le b 0 2, le b 2 2, n, le b 6 n) :: configEntries fuel (b.drop (6 + n))

/-- An entry names an object of the map that the store holds, with a value of its size and within its range. -/
def State.entryOk (s : State) (e : Nat × Nat × Nat × Nat) : Bool :=
  s.stores e.1 e.2.1 && (match objRow? e.1 e.2.1 with
    | some row => decide (tySize row.ty = e.2.2.1) && rangeOk row e.1 e.2.1 e.2.2.2 &&
        (decide (e.1 < 0x6000) || decide (0x6005 < e.1) || regionSizeOk e.1 e.2.1 e.2.2.2)
    | none => false)

/-- The entries of a record that can be applied, as values by key. -/
def State.validEntries (s : State) (l : List (Nat × Nat × Nat × Nat)) : Sparse Nat :=
  l.foldl (fun m e => if s.entryOk e then Sparse.write objDefault m (objKey e.1 e.2.1) e.2.2.2 else m) []

/-- Counts a skipped entry in the error journal (R392): a record whose class the manual does not state, a free value. -/
def State.skipEntry (s : State) (e : Nat × Nat × Nat × Nat) : State :=
  let (c, s) := s.fresh
  let number := s.flash.recNo
  let i : ErrInfo := { cls := c % 256, uKind := 9, unit := 0, detail := natLe 2 e.1 ++ natLe 2 e.2.1 }
  let (temp, volt, s) := s.readings i
  let r := s.vendorSection i number 0 temp volt
  { s with flash := { s.flash with
    skipped := s.flash.skipped + 1, recNo := (number + 1) % 2 ^ 32, journal := journalAdd s.flash.journal r } }

/-- The region map of a configuration overlaps or leaves the stacks (R265). -/
def configOver (cfg : Sparse Nat) : Bool :=
  mapOver fun r => (Sparse.read objDefault cfg (objKey (0x6000 + r) 1), Sparse.read objDefault cfg (objKey (0x6000 + r) 2))

/-- Writes the values of a configuration into the dictionary. -/
def State.putConfig (s : State) (cfg : Sparse Nat) : State :=
  { s with dict := cfg.foldl (fun m e => Sparse.write objDefault m e.1 e.2) s.dict }

/-- A cold start applies the configuration store (R375, R392): a store that a restore has voided is dropped, and with it the
records of R286 that it holds, but for a region map committed since (R266). Entries out of range are skipped, and so are the region values
of a map that R265 forbids: the default map stands. -/
def State.applyConfig (s : State) : State :=
  if s.flash.configVoid then
    let map := s.flash.regionMap
    let s := { s with flash := { s.flash with config := map, configRaw := none, configVoid := false, savedModel := none, savedRule := none } }
    s.putConfig (map.getD [])
  else
    let cfg := s.flash.config.getD []
    let isRegion (idx : Nat) : Bool := decide (0x6000 ≤ idx) && decide (idx ≤ 0x6005)
    let clash := configOver cfg
    let entries := ((s.flash.configRaw.bind configOpen).map fun p => configEntries p.length p).getD []
    let s := (entries.filter fun e => !(s.entryOk e) || (clash && isRegion e.1)).foldl State.skipEntry s
    s.putConfig (cfg.filter fun e => !(clash && isRegion (e.1 / 65536)))

/-- The values in force that a save stores. -/
def State.savedValues (s : State) : Sparse Nat := s.dict.filter fun e => s.stores (e.1 / 65536) (e.1 % 65536)

/-- Content of the configuration store as an upload reads it; empty when it holds no record. -/
def State.configContent (s : State) : Bytes :=
  match s.flash.configRaw, s.flash.config with
  | some b, _ => b
  | none, some m => configRecord (s.configPayload fun idx sub => Sparse.read objDefault m (objKey idx sub))
  | none, none => []

/-- A download of the configuration store is complete (R392). -/
def State.storeConfig (s : State) (b : Bytes) : Except Nat State :=
  match configOpen b with
  | none => .error 0x04000007
  | some p => .ok { s with flash := { s.flash with
      config := some (s.validEntries (configEntries p.length p)), configRaw := some b, configVoid := false } }

/-- A save request (R375, R398): the answer waits for the commit word. -/
def State.startSave (s : State) (a : Answer) : Except Nat State :=
  if s.saving.isSome then .error 0x08000010
  else .ok { s with saving := some ⟨a, s.savedValues, s.now⟩ }

/-- A WRITE of the save object. A repeat of the request whose save is under way is not executed again (R362). -/
def State.serveSave (s : State) (r : Req) (data : Bytes) : State :=
  s.receive svcWrite r 0x2020 0 data fun s =>
    let again := match s.saving with | some x => x.answer.isOf r | none => false
    let a (c : Nat) : Answer := mkAnswer svcWrite r 0x2020 0 c []
    match s.checkWrite (s.inSession r 0x2020) 0x2020 0 data with
    | .error c => s.answer (a c)
    | .ok _ =>
      if leNat data = 0 then s.answer (a 0)
      else if again then s
      else match s.startSave (a 0) with
        | .error c => s.answer (a c)
        | .ok s => s

/-- SAVE_CONFIGURATION (R375): a WRITE of 1 to 0x2020:00. -/
def execSaveConfiguration (r : Req) (s : State) : Result := .next ((s.at r.t).serveSave r [1])

/-- SAVE_COMPLETE (R398): the commit word is written and the save answered. -/
def execSaveComplete (t : Nat) (s : State) : Result :=
  let s := s.at t
  match s.saving with
  | none => .next s
  | some x =>
    if s.servesOdp then
      let s := { s with saving := none, flash := { s.flash with config := some x.values, configRaw := none, configVoid := false } }
      .next (s.answer x.answer)
    else .next s

end Sys2Proof.Machine
end

