-- ==== Sys2Proof/Machine/TransferOps.lean ====
section
/-! DEFINITION. What transfers do to the domain objects (R284, R389 to R392, R465 to R468): allowed or refused, begun, done,
given up; and the verification of firmware and scan content. -/

namespace Sys2Proof.Machine

open Sys2Proof.Bits

/-! ## Firmware slots -/

/-- A firmware slot: 0 A, 1 B. -/
def State.fwSlot (s : State) (k : Nat) : FwSlot := if k = 0 then s.flash.slotA else s.flash.slotB

/-- Changes a firmware slot. -/
def State.setFwSlot (s : State) (k : Nat) (x : FwSlot) : State :=
  if k = 0 then { s with flash := { s.flash with slotA := x } } else { s with flash := { s.flash with slotB := x } }

/-- A download to the preferred slot while another runs returns the preference to the running one (R468). -/
def State.returnPreference (s : State) (k : Nat) : State :=
  match s.flash.running with
  | some j => if s.flash.preferred = k ∧ j ≠ k then { s with flash := { s.flash with preferred := j, trial := false, trialRan := false } } else s
  | none => s

/-! ## Downloads -/

/-- Packets of the retiring rule accession that the classifier has passed on have not left the feature front or the tree banks
(R91). -/
def State.treesHold (s : State) : Bool :=
  match s.intake.retiring with
  | none => false
  | some b => s.pkts.any fun p => decide (p.ra = b.acc) && decide (actPath p.action = 1) &&
      (decide (p.stage = .lookup) || decide (p.stage = .fetch) || decide (p.stage = .vector) || decide (p.stage = .banks))

/-- The staged rule bank may be written (R54, R288): the abort code when it may not. -/
def State.bankBusy (s : State) : Option Nat :=
  if s.ruleRetiring then some 0x08000037 else if s.lib.schedRule.isSome then some 0x0800004D else none

/-- A rule set image may be written into the staged bank: its action maps too stand still while the trees hold packets (R91). -/
def State.ruleSetBusy (s : State) : Option Nat := if s.treesHold then some 0x0800003A else s.bankBusy

/-- A scan runs or waits (R390). -/
def State.scanActive (s : State) : Bool := s.rel.scanning.isSome || !s.rel.scanQueue.isEmpty

/-- Whether a download may begin (R390): the abort code, or none. -/
def State.downloadCheck (s : State) (idx sub size : Nat) : Option Nat :=
  if idx = 0xA000 ∨ idx = 0xA001 then (if s.flash.running = some (idx - 0xA000) then some 0x0800004A else none)
  else if 0xA010 ≤ idx ∧ idx ≤ 0xA01F then
    if s.slotBusy (idx - 0xA010) then some 0x0800004A
    else if (s.freeExtent (idx - 0xA010) (roundUp size 4096)).isNone then some 0x08000049
    else none
  else if idx = 0xA040 then (if (s.dev.st = .prepare ∨ s.dev.st = .drain) ∧ s.scanActive = false then none else some 0x08000010)
  else if idx = 0xA050 then (if s.dev.st = .prepare then none else some 0x08000010)
  else if idx = 0x1840 ∧ sub = 2 then (if s.flag 0x1805 0 then none else some 0x08000010)
  else if idx = 0x380A then s.ruleSetBusy
  else none

/-- A download begins. -/
def State.downloadBegin (s : State) (idx size : Nat) : State :=
  if idx = 0xA000 ∨ idx = 0xA001 then (s.returnPreference (idx - 0xA000)).setFwSlot (idx - 0xA000) {}
  else if 0xA010 ≤ idx ∧ idx ≤ 0xA01F then (s.voidPersisted (idx - 0xA010)).beginImage (idx - 0xA010) size
  else if idx = 0xA040 then { s with flash := { s.flash with scanState := 1, scanNew := none } }
  else s

/-- Scan content state without a download under way: valid content, or none. -/
def scanRest (f : Flash) : Nat := if f.scanGood then 2 else if f.scan = [] then 0 else 3

/-- A download is given up: its object returns to what it was, or stays empty. -/
def State.downloadAborted (s : State) (idx : Nat) : State :=
  if 0xA010 ≤ idx ∧ idx ≤ 0xA01F then s.emptySlot (idx - 0xA010)
  else if idx = 0xA040 then { s with flash := { s.flash with scanState := scanRest s.flash, scanNew := none } }
  else s

/-- A rule set image written to 0x380A:00 becomes the staged bank (R285, R471); the commit time staged at 0x6809, which no section of
it holds, stays. -/
def State.takeRuleSet (s : State) (b : Bytes) : Except Nat State :=
  match s.ruleSetBusy with
  | some c => .error c
  | none => match s.checkRules b with
    | .ok x =>
      let x := { x with objs := Sparse.write objDefault x.objs (objKey 0x6809 0) (s.stagedBank.get 0x6809 0) }
      .ok { s with intake := { s.intake with staged := some x } }
    | .error c => .error c

/-- A download is complete and its size and digest are right. -/
def State.downloadDone (s : State) (idx sub : Nat) (content : Bytes) : Except Nat State :=
  if idx = 0xA000 ∨ idx = 0xA001 then .ok (s.setFwSlot (idx - 0xA000) { content := content })
  else if 0xA010 ≤ idx ∧ idx ≤ 0xA01F then .ok (s.memWrite (s.slotAt (idx - 0xA010)).off content)
  else if idx = 0xA040 then .ok { s with flash := { s.flash with scanNew := some content } }
  else if idx = 0xA050 then s.storeConfig content
  else if idx = 0x1840 ∧ sub = 2 then .ok { s with mgmt := { s.mgmt with masterIn := cutImages content.length content } }
  else if idx = 0x380A then s.takeRuleSet content
  else .ok s

/-- A download refused at its end counts as a verification failure when a signature failed (R464). -/
def State.downloadRefused (s : State) (idx code : Nat) : State :=
  (if code = 0x08000045 then s.verifyFailed else s).downloadAborted idx

/-! ## Uploads -/

/-- First byte of the dump area, the last 4 MiB of the logbook region, and bytes of a dump (R436, R456). -/
def State.dumpBase (s : State) : Nat := s.regionBase 3 + s.logArea
def dumpSize : Nat := 1664 * 1024

/-- Content of an upload as it stands now (R390, R391). -/
def State.uploadContent (s : State) (idx sub : Nat) : Except Nat Bytes :=
  if idx = 0xA020 then (if s.obs.dump then .ok (s.memRead s.dumpBase dumpSize) else .error 0x08000010)
  else if idx = 0xA030 then .ok (s.flash.journal.flatMap s.cper)
  else if idx = 0xA050 then .ok s.configContent
  else if idx = 0x1840 ∧ sub = 1 then (if s.flag 0x1805 0 then .ok s.masterOutputs else .error 0x08000010)
  else .ok []

/-! ## Verification -/

/-- A download into an object is under way. -/
def State.downloading (s : State) (idx : Nat) : Bool := s.odp.transfers.any fun x => !x.upload && decide (x.idx = idx)

/-- FIRMWARE_SLOT_VERIFY (R390, R464): a slot whose download is complete. -/
def execFirmwareSlotVerify (slot : Fin 2) (t : Nat) (s : State) : Result :=
  let s := s.at t
  let x := s.fwSlot slot.val
  if x.code = 0 ∧ x.content ≠ [] ∧ s.downloading (0xA000 + slot.val) = false then
    if s.objectOk x.content 1 then
      .next (s.setFwSlot slot.val { x with good := true, counter := objSecurity x.content, version := objVersion x.content, code := 1 })
    else .next (s.verifyFailed.setFwSlot slot.val { x with code := 3 })
  else .next s

/-- SCAN_CONTENT_VERIFY (R390, R464): content that fails leaves the previous content valid. -/
def execScanContentVerify (t : Nat) (s : State) : Result :=
  let s := s.at t
  match s.flash.scanNew with
  | none => .next s
  | some b =>
    if s.downloading 0xA040 then .next s
    else if s.objectOk b 2 then
      .next { s with flash := { s.flash with scan := b, scanNew := none, scanState := 2, scanGood := true, scanVersion := objVersion b } }
    else
      let s := s.verifyFailed
      .next { s with flash := { s.flash with scanNew := none, scanState := 3 } }

end Sys2Proof.Machine
end

