-- ==== Sys2Proof/Machine/TrustReport.lean ====
section
/-! DEFINITION. The attestation key, certificate and report (R469 to R471). -/

namespace Sys2Proof.Machine

open Sys2Proof.Bits

/-- Header digest of a firmware slot; the factory's firmware, of which the model holds no content, has its own. -/
def State.slotDigest (s : State) (x : FwSlot) : Nat := if x.content = [] then s.mfg.fwDigest else headerDigest x.content

/-- The firmware that runs; before BOOT, the preferred slot's. -/
def State.runningFw (s : State) : FwSlot := s.fwSlot (s.flash.running.getD s.flash.preferred)

/-- Digest and security version of the firmware that runs: what the attestation key is derived from (R469). -/
def State.fwDigest (s : State) : Nat := s.slotDigest s.runningFw

/-- A signature under the attestation key. -/
def State.attestSign (s : State) (sha : Nat) : Nat := Config.attestSign s.fwDigest s.runningFw.counter sha

/-- Version word of a firmware slot (R461); that of the factory's firmware is 3.0.0. -/
def fwVersion (x : FwSlot) : Nat := if x.content = [] then 0x030000 else x.version

/-- The attestation certificate (R469). -/
def State.attestCert (s : State) : Bytes :=
  let body := natLe 64 (Config.attestKey s.fwDigest s.runningFw.counter) ++ natLe 32 s.fwDigest ++ natLe 4 s.runningFw.counter ++
    natLe 4 (fwVersion s.runningFw) ++ natLe 24 0
  body ++ natLe 64 (Config.identitySign (Hash.digest body))

/-- Digest of a rule bank (R471): of its image's sections, or of its content in their layout. -/
def bankDigest (b : Bank) : Nat :=
  Hash.digest (if b.fromImage.isSome then ruleSections b.image else Config.bankBytes b)

/-- Digest of the section table of a model's image, 0 when there is none. -/
def State.modelDigest (s : State) (m : Option Model) : Nat := match m with | some m => s.get (0x6820 + m.slot) 5 | none => 0

/-- A trial boot is under way and not confirmed (R468). -/
def Flash.onTrial (f : Flash) : Bool := f.trial && f.trialRan

/-- Flags of the report. -/
def State.reportFlags (s : State) : Nat :=
  let bit (b : Bool) (i : Nat) : Nat := if b then 2 ^ i else 0
  bit s.flash.replacement 0 + bit s.trust.tainted 1 + bit s.trust.ownerSet 2 + bit (s.flag 0x1808 0) 3 + bit s.flash.onTrial 4

/-- The other firmware slot's digest, 0 when it is not valid. -/
def State.otherDigest (s : State) : Nat :=
  let x := s.fwSlot (1 - s.flash.running.getD s.flash.preferred)
  if x.good then s.slotDigest x else 0

/-- Bytes 0 to 447 of the report, for a nonce. -/
def State.reportBody (s : State) (nonce : Nat) : Bytes :=
  natLe 4 0x5454414B ++ natLe 2 1 ++ natLe 2 512 ++ natLe 32 nonce ++ natLe 8 s.now ++ natLe 16 (leNat s.mfg.serialDigits) ++
  natLe 32 s.mfg.romDigest ++ natLe 32 s.fwDigest ++ natLe 32 s.otherDigest ++
  natLe 32 (s.modelDigest s.lib.active) ++ natLe 32 (s.modelDigest s.lib.retiring) ++
  natLe 32 (bankDigest s.intake.bank) ++ natLe 32 ((s.intake.retiring.map bankDigest).getD 0) ++
  natLe 32 (Hash.digest (s.configPayload s.get)) ++ natLe 32 (if s.flash.scanGood then headerDigest s.flash.scan else 0) ++
  natLe 2 (s.get 0x6800 0) ++ natLe 2 (s.get 0x6801 0) ++ natLe 2 (s.get 0x3809 0) ++ natLe 2 (s.get 0x6802 0) ++
  natLe 1 ((s.dev.st.code?).getD 0) ++ natLe 1 s.reportFlags ++ natLe 2 0 ++ natLe 4 s.runningFw.counter ++
  ((List.range 64).flatMap fun c => natLe 1 (s.counter c)) ++ natLe 16 0

/-- The attestation report (R470). -/
def State.report (s : State) (nonce : Nat) : Bytes :=
  let b := s.reportBody nonce
  b ++ natLe 64 (s.attestSign (Hash.digest b))

end Sys2Proof.Machine
end

