-- ==== Sys2Proof/Machine/Trust.lean ====
section
/-! DEFINITION. Trust (R459 to R480): fuses, anti-rollback, firmware slots, attestation, host keys and the debug port. -/

namespace Sys2Proof.Machine

open Sys2Proof.Bits

/-- Device states as the rules of this chapter name them. -/
def State.inPrepare (s : State) : Bool := decide (s.dev.st = .prepare)
def State.prepareOrDrain (s : State) : Bool := decide (s.dev.st = .prepare) || decide (s.dev.st = .drain)

/-! ## Owner provisioning (R474) -/

/-- A write of the owner key hash. -/
def State.ownerHashWrite (s : State) (v : Nat) : Except Nat State :=
  if s.trust.ownerSet then .error 0x02000002
  else if s.inPrepare = false then .error 0x08000010
  else .ok { s with trust := { s.trust with ownerWrite := some v } }

/-- A write of the confirm object: the fuse is blown only when both values are equal. -/
def State.ownerHashConfirm (s : State) (v : Nat) : Except Nat State :=
  if s.trust.ownerSet then .error 0x02000002
  else if s.inPrepare = false then .error 0x08000010
  else if s.trust.ownerWrite = some v then .ok { s with trust := { s.trust with ownerHash := v, ownerWrite := none } }
  else .error 0x02000006

/-- OWNER_KEY_HASH_CONFIRM (R474): a WRITE of 0x9004:02. -/
def execOwnerKeyHashConfirm (r : Req) (hash : Nat) (s : State) : Result :=
  .next ((s.at r.t).serveWrite r 0x9004 2 (natLe 32 hash) fun s => s.ownerHashConfirm (hash % 2 ^ 256))

/-- A write of the enforcement-program object: bits [2:0] need the owner key hash; [7:6] are 0. -/
def State.enforcementProgram (s : State) (mask : Nat) : Except Nat State :=
  if s.inPrepare = false then .error 0x08000010
  else if 64 ≤ mask ∨ (s.trust.ownerSet = false ∧ mask % 8 ≠ 0) then .error 0x02000006
  else .ok { s with trust := { s.trust with enforcement := s.trust.enforcement ||| mask } }

/-- ENFORCEMENT_PROGRAM (R474): a WRITE of 0x9005:00. -/
def execEnforcementProgram (r : Req) (mask : Nat) (s : State) : Result :=
  .next ((s.at r.t).serveWrite r 0x9005 0 (natLe 1 mask) fun s => s.enforcementProgram (mask % 256))

/-! ## Anti-rollback (R463, R472, R473) -/

/-- Security version that a raise of counter `c` takes, or the abort code. -/
def State.raiseTo (s : State) (c : Nat) : Except Nat Nat :=
  match c with
  | 0 => if s.flash.onTrial then .error 0x08000010 else .ok s.runningFw.counter
  | 1 => if s.flash.scanGood then .ok (objSecurity s.flash.scan) else .error 0x08000010
  | 2 => if s.ruleRetiring then .error 0x08000043
         else match s.intake.bank.fromImage with | some v => .ok v | none => .error 0x02000006
  | 3 => .error 0x02000006
  | _ => if s.lib.retiring.isSome then .error 0x08000043
         else match s.lib.active with
           | some m => if modelCounter (s.get (0x6820 + m.slot) 2) = c then .ok m.version else .error 0x02000006
           | none => .error 0x02000006

/-- Library slots whose image belongs to counter `c` and lies below `v`. -/
def State.slotsBelow (s : State) (c v : Nat) : List Nat :=
  (List.range 16).filter fun k => match (s.slotAt k).model with
    | some m => decide (modelCounter (s.get (0x6820 + k) 2) = c) && decide (m.version < v)
    | none => false

/-- A slot is erased by a raise, with what is staged from it, and its persisted copy voided. -/
def State.eraseBelow (s : State) (k : Nat) : State := (s.emptySlot k).voidPersisted k

/-- The firmware that runs was signed under vendor key hash 1. -/
def State.signedUnder1 (s : State) : Bool :=
  let b := s.runningFw.content
  decide (b ≠ []) && decide (keyHash (le b (128 + objLength b) 64) = s.mfg.vendorHash1)

/-- A write of the raise object. -/
def State.raiseCounter (s : State) (c : Nat) : Except Nat State :=
  if s.prepareOrDrain = false then .error 0x08000011
  else match s.raiseTo c with
    | .error e => .error e
    | .ok version =>
      let v := Max.max (s.counter c) (Min.min 64 version)
      let gone := if 4 ≤ c then s.slotsBelow c v else []
      let revoke := decide (c = 0) && s.signedUnder1
      let s := { s with trust := { s.trust with
        counters := Sparse.write (fun _ => 0) s.trust.counters c v, vendor0Revoked := s.trust.vendor0Revoked || revoke } }
      let s := gone.foldl State.eraseBelow s
      .ok (s.raise 0x00030002 0x9006 (c + 1))

/-- RAISE_COUNTER (R472): a WRITE of 0x9007:00. -/
def execRaiseCounter (r : Req) (c : Nat) (s : State) : Result :=
  .next ((s.at r.t).serveWrite r 0x9007 0 (natLe 1 c) fun s => s.raiseCounter (c % 256))

/-! ## Firmware slots (R468) -/

/-- A write of the activate object: the slot is preferred from the next reset, and that boot is a trial. -/
def State.activateSlot (s : State) (k : Nat) : Except Nat State :=
  if s.flash.onTrial then .error 0x08000010
  else
    let run := s.flash.running.getD s.flash.preferred
    .ok { s with flash := { s.flash with preferred := k, previous := run, trial := decide (k ≠ run), trialRan := false } }

/-- ACTIVATE_FIRMWARE_SLOT (R468): a WRITE of 0x9009:00. -/
def execActivateFirmwareSlot (r : Req) (slot : Nat) (s : State) : Result :=
  .next ((s.at r.t).serveWrite r 0x9009 0 (natLe 1 slot) fun s => s.activateSlot (slot % 256))

/-- A write of the confirm object: the trial is confirmed. -/
def State.confirmFirmware (s : State) (v : Nat) : Except Nat State :=
  if v = 1 ∧ s.flash.onTrial = true then
    .ok { s with flash := { s.flash with trial := false, trialRan := false, previous := s.flash.preferred } }
  else .ok s

/-- CONFIRM_FIRMWARE (R468): a WRITE of 1 to 0x900A:00. -/
def execConfirmFirmware (r : Req) (s : State) : Result :=
  .next ((s.at r.t).serveWrite r 0x900A 0 [1] fun s => s.confirmFirmware 1)

/-! ## Attestation (R470, R479) -/

/-- A write of the attestation nonce: the report is taken at this instant and placed when it is ready. -/
def State.attestationNonce (s : State) (nonce : Nat) : Except Nat State :=
  if s.trust.tainted then .error 0x08000010
  else .ok { s with trust := { s.trust with report := some (leNat (s.report nonce), s.now) } }

/-- ATTESTATION_NONCE (R470): a WRITE of 0x901B:00. -/
def execAttestationNonce (r : Req) (nonce : Nat) (s : State) : Result :=
  .next ((s.at r.t).serveWrite r 0x901B 0 (natLe 32 nonce) fun s => s.attestationNonce (nonce % 2 ^ 256))

/-- ATTESTATION_REPORT_READY (R470). -/
def execAttestationReportReady (t : Nat) (s : State) : Result :=
  let s := s.at t
  match s.trust.report with
  | some (v, _) => .next (({ s with trust := { s.trust with report := none } }).put 0x901C 0 v)
  | none => .next s

/-! ## Host keys (R475) -/

/-- A write of host key slot `k`. -/
def State.hostKeyWrite (s : State) (k key : Nat) : Except Nat State :=
  let others := (List.range 8).any fun j => decide (j ≠ k) && decide (s.get (0x9010 + j) 0 ≠ 0)
  if key = 0 ∧ s.get (0x9010 + k) 0 ≠ 0 ∧ others = false then .error 0x02000006
  else
    let keep (x : Session) : Bool := !(x.authed && !x.bootstrap && decide (x.slot = k))
    .ok (({ s with odp := { s.odp with sessions := s.odp.sessions.filter keep } }).put (0x9010 + k) 0 key)

/-- HOST_KEY_SLOT_WRITE (R475): a WRITE of 0x9010+k:00. -/
def execHostKeySlotWrite (r : Req) (k : Fin 8) (key : Nat) (s : State) : Result :=
  .next ((s.at r.t).serveWrite r (0x9010 + k.val) 0 (natLe 64 key) fun s => s.hostKeyWrite k.val (key % 2 ^ 512))

/-! ## The debug port (R477 to R479) -/

/-- A token is valid (R478). -/
def State.tokenValid (s : State) (b : Bytes) : Bool :=
  let sha := Hash.digest (slice b 0 128)
  let vendor := Config.ecdsaVerifyHashed s.mfg.vendorHash1 sha (le b 128 64) ||
    (!s.trust.vendor0Revoked && Config.ecdsaVerifyHashed s.mfg.vendorHash0 sha (le b 128 64))
  let owner := !(s.trust.enforces 2) || Config.ecdsaVerifyHashed s.trust.ownerHash sha (le b 192 64)
  decide (le b 0 4 = 0x4E4B5444) && decide (le b 4 4 = 1) && (decide (le b 124 2 = 1) || decide (le b 124 2 = 2)) &&
  decide (le b 44 16 = leNat s.mfg.serialDigits) && decide (le b 60 32 = keyHash s.mfg.identityPub) && decide (le b 92 32 = s.trust.challenge) &&
  vendor && owner && !(bit s.trust.enforcement 5)

/-- A write of the debug token object: zeros relock the port; a valid token unlocks it and takes a new challenge; an invalid
one is refused and counted (R479). -/
def State.tokenReply (s : State) (b : Bytes) : Reply :=
  if leNat b = 0 then ⟨0, [], { s with trust := { s.trust with level := 0 } }⟩
  else if s.dev.st ≠ .prepare ∧ s.dev.st ≠ .test then ⟨0x08000010, [], s⟩
  else if s.tokenValid b then
    let (c, s) := s.draw
    let level := le b 124 2
    ⟨0, [], ({ s with trust := { s.trust with
      challenge := c % 2 ^ 256, level := level, tainted := s.trust.tainted || decide (level = 2) } }).bump 0x9023 0⟩
  else ⟨0x04000002, [], s.verifyFailed⟩

/-- Serves a WRITE of 0x9021:00. -/
def State.serveToken (s : State) (r : Req) (b : Bytes) : State :=
  s.serve svcWrite r 0x9021 0 b fun s =>
    match s.checkWrite (s.inSession r 0x9021) 0x9021 0 b with
    | .error c => ⟨c, [], s⟩
    | .ok _ => s.tokenReply b

/-- DEBUG_TOKEN (R479): a WRITE of 0x9021:00. -/
def execDebugToken (r : Req) (token : Bytes) (s : State) : Result := .next ((s.at r.t).serveToken r token)

/-- DEBUG_RELOCK (R479): a WRITE of zeros to 0x9021:00. -/
def execDebugRelock (r : Req) (s : State) : Result := .next ((s.at r.t).serveToken r (List.replicate 256 0))

/-- The instructions of the port, numbered by the model: 0 BYPASS, 1 IDCODE, 2 SAMPLE/PRELOAD, 3 EXTEST, 4 internal scan,
5 debug registers. -/
def jtagBypass : Nat := 0
def jtagIdcode : Nat := 1
def jtagSample : Nat := 2
def jtagExtest : Nat := 3
def jtagScan : Nat := 4
def jtagDebug : Nat := 5

/-- The debug level an instruction needs. -/
def jtagLevel (ins : Nat) : Nat := if ins ≤ jtagIdcode then 0 else if ins ≤ jtagExtest then 1 else 2

/-- Selects an instruction and captures its register. -/
def State.jtagSelect (s : State) (ins value : Nat) : State :=
  ({ s with trust := { s.trust with instruction := ins } }).emit (.debug value)

/-- DEBUG_PORT_INSTRUCTION (R477): one the level does not give selects BYPASS. What the boundary-scan register captures is not
stated, a free value; what the die's internal scan and debug registers are is not stated either. -/
def execDebugPortInstruction (ins : Nat) (s : State) : Result :=
  if s.pwr.railsGood = false then .next s
  else if s.trust.level < jtagLevel ins ∨ jtagDebug < ins ∨ ins = jtagBypass then .next (s.jtagSelect jtagBypass 0)
  else if ins = jtagIdcode then .next (s.jtagSelect jtagIdcode 0x1D716A4B)
  else if ins ≤ jtagExtest then
    let (v, s) := s.fresh
    .next (s.jtagSelect ins v)
  else .refused .scanChainUnspecified

end Sys2Proof.Machine
end

