-- ==== Sys2Proof/Machine/Boot.lean ====
section
/-! DEFINITION. From RESET through BOOT (R23, R268, R286, R287, R375, R378, R381, R422, R443, R460, R466 to R468): the boot ROM's
choice of a firmware slot, what firmware does first, and where BOOT goes on to. -/

namespace Sys2Proof.Machine

open Sys2Proof.Bits

/-! ## The boot ROM (R466, R468) -/

/-- A firmware slot passes the boot ROM's verification. The factory's firmware, of which the model holds no content, carries the
signature of vendor key 0 and none of an owner (log entry 3). -/
def State.slotBoots (s : State) (k : Nat) : Bool :=
  let x := s.fwSlot k
  if x.content = [] then x.good && !s.trust.vendor0Revoked && !(s.trust.enforces 0) && decide (s.counter 0 ≤ x.counter)
  else s.objectOk x.content 1

/-- Verifies a slot: one that passes is valid, one that fails is marked failed. -/
def State.romVerify (s : State) (k : Nat) : State :=
  let x := s.fwSlot k
  if s.slotBoots k then
    if x.content = [] then s
    else s.setFwSlot k { x with good := true, counter := objSecurity x.content, version := objVersion x.content, code := 1 }
  else s.verifyFailed.setFwSlot k { x with good := false, code := 3 }

/-- A trial that a reset ended unconfirmed gives the preference back to the previous slot (R468). -/
def State.revertTrial (s : State) : State :=
  if s.flash.onTrial then { s with flash := { s.flash with preferred := s.flash.previous, trial := false, trialRan := false } } else s

/-- The ROM's choice: the preferred slot, else the other one, else none. -/
def State.romChoose (s : State) : State :=
  let p := s.flash.preferred
  let s := s.romVerify p
  let s := if s.slotBoots p then s else s.romVerify (1 - p)
  let run := if s.slotBoots p then some p else if s.slotBoots (1 - p) then some (1 - p) else none
  { s with flash := { s.flash with running := run, trialRan := s.flash.trial && decide (run = some p) } }

/-! ## What firmware does first -/

/-- The stacks are written with zero: all of them after a cold start, else all but the logbook region (R268). -/
def State.zeroStacks (s : State) : State :=
  if s.dev.boot.isCold then { s with mem := [], memc := { s.memc with void := [] } }
  else
    let x := s.regionBase 3
    let e := x + s.regionSize 3
    { s with
      mem := s.mem.filter fun c => decide (x ≤ c.1) && decide (c.1 < e)
      memc := { s.memc with void :=
        (0, x, none) :: (e, 2 ^ 35 - e, none) :: s.memc.void.filter fun v => decide (v.1 < e) && decide (x < v.1 + v.2.1) } }

/-- The seeds that BOOT draws: the catalogue's at every boot (R73); at a cold start the interleave seed (R258) and the debug
challenge (R478) too. -/
def State.drawSeeds (s : State) : State :=
  let (a, s) := s.draw
  let (b, s) := s.draw
  let s := { s with cat := { s.cat with seeds := (a % 2 ^ 128, b % 2 ^ 128) } }
  if s.dev.boot.isCold then
    let (i, s) := s.draw
    let (c, s) := s.draw
    { s with memc := { s.memc with seed := i % 2 ^ 128 }, trust := { s.trust with challenge := c % 2 ^ 256 } }
  else s

/-- The scan content is verified (R467). -/
def State.bootScan (s : State) : State :=
  if s.flash.scan = [] then { s with flash := { s.flash with scanState := 0, scanGood := false, scanNew := none } }
  else if s.objectOk s.flash.scan 2 then
    { s with flash := { s.flash with scanState := 2, scanGood := true, scanNew := none } }
  else
    let s := s.verifyFailed
    { s with flash := { s.flash with scanState := 3, scanGood := false, scanNew := none } }

/-- The gap record of clocks that stopped before the reset (R443), and the records of FAULT into the journal (R422). -/
def State.bootRecords (s : State) : State :=
  let stop := s.dev.stopAt
  let log := s.rel.faultLog
  let s := { s with
    dev := { s.dev with stopAt := none }
    rel := { s.rel with faultLog := [] }
    flash := { s.flash with journal := log.foldl journalAdd s.flash.journal } }
  match stop with
  | some t0 => if s.dev.boot.isCold then s else s.gapRecord 0 1 0 0 0 t0 s.now
  | none => s

/-- Firmware starts: seeds, stacks, configuration, authenticated management (R460), scan content, records, and the revert event
when the trial it follows was not confirmed. -/
def State.firmwareStart (s : State) (reverted : Bool) : State :=
  let s := s.zeroStacks.drawSeeds
  let s := if s.dev.boot.isCold then s.applyConfig else s
  let s := s.put 0x1808 0 (if bit s.trust.enforcement 3 then 1 else 0)
  let s := (s.enter .boot).bootRecords.bootScan
  if reverted then s.raise 0x00030001 0x9008 0 else s

/-- RESET_TO_BOOT (R378, R466): when no slot passes the module enters FAULT, and no fault reset follows. -/
def execResetToBoot (t : Nat) (s : State) : Result :=
  let s := s.at t
  if s.dev.st = .reset ∧ s.pwr.resetN = true ∧ s.pwr.railsGood = true ∧ s.pwr.coldPending = false then
    let reverted := s.flash.onTrial
    let s := s.revertTrial.romChoose
    if s.flash.running.isSome then .next (s.firmwareStart reverted)
    else
      let s := (s.closeAll.leaveRing).enter .fault
      .next { s with dev := { s.dev with trans := .none, noFaultReset := true, stopAt := some s.now } }
  else .next s

/-! ## The end of BOOT -/

/-- BOOT goes on to RUN (R381, R416, R33): after a cold start or a fault reset, under boot target RUN, with an installed model or
rule set recorded. -/
def State.bootsToRun (s : State) : Bool :=
  (decide (s.dev.boot = .cold) || decide (s.dev.boot = .fault)) && decide (s.get 0x2002 0 = 4) &&
  (s.flash.savedModel.isSome || s.flash.savedRule.isSome) && !s.flash.replacement && !s.pairMismatch

/-- BOOT_COMPLETE (R287, R356, R381): images and accessions are restored; outside BOOT the management-ring bypass is open. -/
def execBootComplete (t : Nat) (s : State) : Result :=
  let s := s.at t
  if s.dev.st = .boot then
    let s := s.restoreLibrary
    let s := if s.mgmt.joined then s else s.openRing
    let s := s.enter .prepare
    if s.bootsToRun then .next s.startRun else .next s
  else .next s

end Sys2Proof.Machine
end

