-- ==== Sys2Proof/Machine/Catalogue.lean ====
section
/-! DEFINITION. The flow catalogue (03_catalogue.md): lookups, fetches, the sweeper, rehash and probes. -/

namespace Sys2Proof.Machine

open Sys2Proof.Bits Sys2Proof.Num

/-! ## Times and quantities -/

/-- Idle time x of R76: stamp less the reconstructed last-seen (R71). -/
def idleTime (stamp e : Nat) : Nat := (stamp + 2 ^ 38 - fld e 415 384 * 64 % 2 ^ 38) % 2 ^ 38

/-- Age: stamp less the reconstructed first-seen (R71). -/
def flowAge (stamp e : Nat) : Nat := (stamp + 2 ^ 48 - fld e 431 416 * 2 ^ 32) % 2 ^ 48

/-- The FP32 code of a number. -/
def fp32Of (x : Dy) : Nat := (fp32.encode .nearest false (FV.ofDy false x)).1

/-- A natural number over a natural number, as FP32. -/
def fp32Ratio (a b : Nat) : Nat := fp32Of (Elem.div (.ofInt a) (.ofInt b))

/-- log2 (1 + n) within 2^-12 of the exact value (R88). -/
def logCount (n : Nat) : Nat :=
  let off := Max.max (2 - 2 ^ 48 : Int) (Min.min (2 ^ 48 - 1) (Config.logOffset n))
  fp32Of ((Elem.log2 (1 + n)).add ⟨off, -60⟩)

/-- The 32 quantities of R88 as FP32, of an entry after its update. -/
def quantities (stamp idle e : Nat) : List Nat :=
  let mean := bf16.decode (fld e 447 432)
  let var := bf16.decode (fld e 463 448)
  let int (n : Nat) : Nat := fp32Of (.ofInt n)
  [int 1, logCount (entryPackets e), logCount (entryBytes e), fp32Ratio (flowAge stamp e) 1000000000, fp32Ratio idle 1000,
   fp32Of (Elem.div mean.dy (.ofInt 1000)), fp32Of (Elem.div (Elem.sqrt var.dy) (.ofInt 1000)),
   int (fld e 495 494), int (fld e 493 491), int (fld e 490 488)] ++
  ((List.range 8).map fun k => int (fld e (464 + 2 * k + 1) (464 + 2 * k))) ++
  ((List.range 4).map fun k => int (fld e (480 + 2 * k + 1) (480 + 2 * k))) ++
  [int (entryProfile e)] ++ List.replicate 9 0

/-! ## Update and learning (R76 to R78) -/

/-- Inter-arrival statistics (R76): mean and variance as BF16 codes, from the packet count before, the smoothing
shift and x. -/
def interArrival (before shift mean var x : Nat) : Nat × Nat :=
  let xv := (fp32.round (FV.ofDy false (.ofInt x))).1
  if before = 1 then ((bf16.encode .nearest false xv).1, 0)
  else
    let w := FV.fin false 1 (-(shift : Int))
    let m := bf16.decode mean
    let v := bf16.decode var
    let d := (addFp32 xv m.neg).1
    let wd := (mulFp32 w d).1
    let m' := (addFp32 m wd).1
    let wdd := (mulFp32 wd d).1
    let k := FV.fin false (2 ^ shift - 1) (-(shift : Int))
    let v' := (mulFp32 k (addFp32 v wdd).1).1
    ((bf16.encode .nearest false m').1, (bf16.encode .nearest false v').1)

/-- Size-histogram bin of a frame length (R77). -/
def sizeBin (l : Nat) : Nat := ([128, 256, 512, 768, 1024, 1519, 4096].filter fun b => decide (b ≤ l)).length

/-- Increments a bin; an increment from 3 first halves all eight (R77). -/
def histAdd (h k : Nat) : Nat :=
  let bin (h i : Nat) : Nat := fld h (2 * i + 1) (2 * i)
  let h := if bin h k = 3 then (List.range 8).foldl (fun a i => a + bin h i / 2 * 4 ^ i) 0 else h
  h + 4 ^ k

/-- Conditions of the four flag counts (R77): SYN, FIN, RST of a TCP header, CE of the outer IP header. -/
def flagsOf (p : Parsed) (bs : Bytes) : List Bool :=
  let t (b : Nat) : Bool := p.tcp.any fun o => bit (be bs (o + 13) 1) b
  let ce := match p.ip4, p.ip6 with
    | some o, _ => decide (be bs (o + 1) 1 % 4 = 3)
    | none, some o => decide (fld (be bs o 2) 5 4 = 3)
    | none, none => false
  [t 1, t 0, t 2, ce]

/-- Adds to the saturating flag counts. -/
def flagAdd (f : Nat) (cs : List Bool) : Nat :=
  (List.range 4).foldl (fun a i =>
    let c := fld f (2 * i + 1) (2 * i)
    a + (if cs.getD i false ∧ c < 3 then c + 1 else c) * 4 ^ i) 0

/-- A hit (R76): the entry after its seven steps. -/
def hitEntry (shift : Nat) (p : Pkt) (e : Nat) : Nat :=
  let len := p.bytes.length + 4
  let (m, v) := interArrival (entryPackets e) shift (fld e 447 432) (fld e 463 448) (idleTime p.stamp e)
  let e := setFld (setFld e 447 432 m) 463 448 v
  let e := setFld e 351 320 (entryPackets e + 1)
  let e := setFld e 383 352 (entryBytes e + len)
  let e := setFld e 479 464 (histAdd (fld e 479 464) (sizeBin len))
  let e := setFld e 487 480 (flagAdd (fld e 487 480) (flagsOf p.parsed p.bytes))
  let e := setFld e 415 384 (fld p.stamp 37 6)
  reparity (setFld (setFld e 502 502 1) 501 501 0)

/-- A new entry (R78). -/
def newEntry (epoch profile key : Nat) (p : Pkt) : Nat :=
  let len := p.bytes.length + 4
  reparity (storedKey key + 2 ^ 320 + len % 2 ^ 32 * 2 ^ 352 + fld p.stamp 37 6 * 2 ^ 384 + fld p.stamp 47 32 * 2 ^ 416 +
    4 ^ sizeBin len * 2 ^ 464 + flagAdd 0 (flagsOf p.parsed p.bytes) * 2 ^ 480 +
    (128 + 64 + epoch % 2 * 16 + profile % 16) * 2 ^ 496)

/-! ## Keys (R72, R89) -/

/-- The fields of a catalogue profile, as 0x4010+p:01 holds them; fields of width 0 are unused. -/
def profileFields (v : Nat) : List KeyField :=
  ((List.range 8).map fun i =>
    (⟨fld v (32 * i + 7) (32 * i), fld v (32 * i + 15) (32 * i + 8), fld v (32 * i + 31) (32 * i + 16)⟩ : KeyField)).filter
    fun f => decide (f.width ≠ 0)

/-- The value of one field. -/
def keyField (p : Parsed) (bs : Bytes) (f : KeyField) : Nat := packKey f.width p bs [f]

/-- Exchanges a pair of fields whose first is the greater (R72). -/
def orderPair (l : List (Nat × Nat)) (i : Nat) : List (Nat × Nat) :=
  match l[i]?, l[i + 1]? with
  | some a, some b => if b.1 < a.1 then (l.set i b).set (i + 1) a else l
  | _, _ => l

/-- The key of a packet under a profile: 40 bytes, first byte highest, zero beyond the key (R71, R72). -/
def State.flowKey (s : State) (profile : Nat) (p : Pkt) : Nat :=
  let vals := (profileFields (s.get (0x4010 + profile) 1)).map fun f => (keyField p.parsed p.bytes f, f.width)
  let vals := if s.flag (0x4010 + profile) 3 then orderPair (orderPair vals 0) 2 else vals
  let r := vals.foldl (fun (a : Nat × Nat) x => (a.1 * 2 ^ x.2 + x.1, a.2 + x.2)) (0, 0)
  r.1 * 2 ^ (320 - r.2)

/-! ## Insertion failures (R79) -/

/-- An insertion failure: counted, an event of at most 10,000 in one second, and the alert when the failures of one
second exceed the threshold. The alert clears at a failure that opens a second after one at or below it. -/
def State.insertFail (s : State) : State :=
  let s := s.bump 0x4003 0
  let sec := s.now / 1000000000
  let same := decide (s.cat.second = sec)
  let calm := s.cat.alert && !same && (decide (s.cat.fails ≤ s.get 0x4005 0) || decide (s.cat.second + 1 < sec))
  let s := if calm then ({ s with cat := { s.cat with alert := false } }).alert 1 4 0 false else s
  let fails := (if same then s.cat.fails else 0) + 1
  let events := if same then s.cat.events else 0
  let s := { s with cat := { s.cat with second := sec, fails := fails, events := events } }
  let s := if events < 10000 then
      ({ s with cat := { s.cat with events := events + 1 } }).raise (Config.eventCode 6) 0x4003 0
    else s.bump 0x4004 0
  if s.get 0x4005 0 < fails ∧ s.cat.alert = false then
    ({ s with cat := { s.cat with alert := true } }).alert 1 4 0 true
  else s

/-! ## Lookup -/

/-- A lookup takes effect (R76 to R79), and the packet goes on (R56). -/
def State.lookupEffect (s : State) (p : Pkt) (k : CatKey) : State :=
  let s := k.buckets.foldl State.checkBucket s
  match s.findEntry k.profile k.key k.buckets with
  | some (b, i) =>
    let e := (s.bucket b).getD i 0
    let e' := hitEntry (s.get (0x4010 + k.profile) 4) p e
    let s := if entryHit e = false ∧ entryAge e = true then
        { s with cat := { s.cat with revived := (b, i, s.now) :: s.cat.revived } } else s
    let s := s.setEntry b i e'
    s.afterLookup { p with flow := some (k.profile, b, k.key), quant := quantities p.stamp (idleTime p.stamp e) e' }
  | none =>
    if s.flag (0x4010 + k.profile) 2 = false then s.afterLookup p
    else match s.place k.pair with
      | some (b, i) =>
        let e := newEntry k.epoch k.profile k.key p
        ((s.setEntry b i e).bump 0x4002 0).afterLookup
          { p with flow := some (k.profile, b, k.key), quant := quantities p.stamp 0 e }
      | none => s.insertFail.afterLookup p

/-- The key of a packet's lookup at its order point. -/
def State.pktKey (s : State) (p : Pkt) : CatKey := s.catKey (actProfile p.action) (s.flowKey (actProfile p.action) p)

/-- CATALOGUE_LOOKUP (R74 to R79): the next packet in sequencing order. It waits when its buckets are fetched or held;
while 256 wait for fetches the front accepts none. -/
def execCatalogueLookup (t : Nat) (s : State) : Result :=
  tapsFlushed <|
  let s := s.at t
  if s.frozen then .next s else
  match s.pkts.find? fun p => p.stage = .lookup with
  | none => .next s
  | some p =>
    let k := s.pktKey p
    let missing := k.buckets.any fun b => (s.way? b).isNone
    if s.catFull then .next s
    else
      let s := s.bump (if missing then 0x400A else 0x4009) 0
      if missing || s.catBlocked k.buckets then
        .next ((s.setPkt { p with stage := .fetch }).catHold ⟨.lookup p.pid k, missing⟩)
      else .next (s.lookupEffect p k)

/-! ## Operations held, and fetches -/

/-- The probed key at the probe's order point. -/
def State.probeKey (s : State) : CatKey := s.catKey (s.get 0x4020 1) (beNat (natLe 40 (s.get 0x4020 2)))

/-- The entry of a key as it stands, or 64 zero bytes (R89). -/
def State.probeResult (s : State) (k : CatKey) : Bytes :=
  match s.findEntry k.profile k.key k.buckets with
  | some (b, i) => natLe 64 ((s.bucket b).getD i 0)
  | none => natLe 64 0

/-- A probe takes effect: the buckets are read, and it is answered (R82, R89). -/
def State.probeEffect (s : State) (a : Answer) (k : CatKey) : State :=
  let s := k.buckets.foldl State.checkBucket s
  s.answer { a with data := s.probeResult k }

/-- Removes the entry of a key (R89). -/
def State.probeRemove (s : State) (k : CatKey) : State :=
  let s := k.buckets.foldl State.checkBucket s
  match s.findEntry k.profile k.key k.buckets with
  | some (b, i) => s.setEntry b i (freed ((s.bucket b).getD i 0))
  | none => s

/-- The sweeper's decisions on one bucket (R83). -/
def State.sweepSlots (s : State) (b : Nat) : List Nat → Nat → State
  | [], _ => s
  | e :: es, i =>
    let s :=
      if entryValid e = false then s
      else if entryHit e then
        let saved := s.cat.revived.any fun r => decide (r.1 = b) && decide (r.2.1 = i) && decide (s.now ≤ r.2.2 + 29)
        let s := s.setEntry b i (reparity (setFld (setFld e 502 502 0) 501 501 0))
        if saved then s.bump 0x4007 0 else s
      else if entryAge e = false then s.setEntry b i (reparity (setFld e 501 501 1))
      else (s.setEntry b i (freed e)).bump 0x4006 0
    State.sweepSlots s b es (i + 1)

/-- A sweeper visit takes effect. -/
def State.sweepEffect (s : State) (b : Nat) : State :=
  let s := s.checkBucket b
  let s := s.sweepSlots b (s.bucket b) 0
  { s with cat := { s.cat with revived := s.cat.revived.filter fun r => decide (r.1 ≠ b) } }

/-- Moves the old-epoch entries of one bucket into their new pairs; one whose new pair is full stays (R84, R85). Its own slot
counts as free (DESIGN CHOICE, log entry 57). -/
def State.migrateSlots (s : State) (b : Nat) : List Nat → Nat → State
  | [], _ => s
  | e :: es, i =>
    let s :=
      if s.oldEpoch e then
        let (profile, key) := entryFlow e
        let e' := reparity (setFld e 500 500 (s.get 0x400F 0))
        let s0 := s.setEntry b i (freed e)
        match s0.place (s0.learnPair profile key) with
        | some (b', i') => s0.setEntry b' i' e'
        | none => s
      else s
    State.migrateSlots s b es (i + 1)

/-- The buckets that hold old-epoch entries, in index order but for those in the hot cache, which come first. -/
def State.oldBuckets (s : State) : List Nat :=
  let base := s.regionBase 2
  let cached := (s.cat.cache.filter fun w => w.data.any s.oldEpoch).map fun w => w.bucket
  let rest := (s.mem.filter fun c => decide (base ≤ c.1) && decide (c.1 < base + 256 * bucketCount)).map fun c => (c.1 - base) / 256
  cached ++ rest.eraseDups.filter fun b => (s.way? b).isNone && (s.bucket b).any s.oldEpoch

/-- Old-epoch entries of a bucket. -/
def State.oldCount (s : State) (b : Nat) : Nat := ((s.bucket b).filter s.oldEpoch).length

/-- Removes the old-epoch entries of a bucket, counted as evicted by the rehash (R85). -/
def State.evictBucket (s : State) (b : Nat) : State :=
  let s := s.checkBucket b
  (s.setBucket b ((s.bucket b).map fun e => if s.oldEpoch e then freed e else e)).bumpBy 0x400E 0 (s.oldCount b)

/-- A migration pass ends once its last visit took effect (R85): after the third, or one that leaves no old-epoch entry, the
migration ends, those left are removed and reported in one event. -/
def State.endPass (s : State) : State :=
  if s.cat.migr < bucketCount ∨ (s.cat.waiting.any fun w => match w.op with | .migrate _ => true | _ => false) = true then s
  else
    let old := s.oldBuckets
    if old = [] then s.endRehash 0
    else if s.get 0x400C 0 < 3 then { s.put 0x400C 0 (s.get 0x400C 0 + 1) with cat := { s.cat with migr := 0 } }
    else ((old.foldl State.evictBucket s).raise (Config.eventCode 7) 0x400E 0).endRehash (old.foldl (fun n b => n + s.oldCount b) 0)

/-- A migration visit takes effect: the source and the target pairs are read (R82), and the entries moved. -/
def State.migrateEffect (s : State) (b : Nat) : State :=
  let s := s.checkBucket b
  let s := ((s.migrateBuckets b).drop 1).foldl State.checkBucket s
  (s.migrateSlots b (s.bucket b) 0).endPass

/-- An operation takes effect. -/
def State.catEffect (s : State) : CatOp → State
  | .lookup pid k => match s.pkt? pid with
    | some p => s.lookupEffect p k
    | none => s
  | .writeback k byte => s.writebackEffect k byte
  | .sweep b => s.sweepEffect b
  | .migrate b => s.migrateEffect b
  | .probe a k => s.probeEffect a k
  | .probeDelete k => s.probeRemove k

/-- The first operation held that waits for no fetch and for no earlier operation on its buckets. -/
def State.nextReady (s : State) : List CatWait → List CatWait → Option (CatWait × List CatWait)
  | _, [] => none
  | before, w :: ws =>
    if w.fetching || before.any (fun x => (s.opBuckets x.op).any fun b => (s.opBuckets w.op).contains b) then
      State.nextReady s (before ++ [w]) ws
    else some (w, before ++ ws)

/-- Releases the operations held, in order (R75); a lookup released may add its own write-back. -/
def State.catRelease (s : State) : Nat → State
  | 0 => s
  | fuel + 1 =>
    match s.nextReady [] s.cat.waiting with
    | none => s
    | some (w, rest) => State.catRelease (({ s with cat := { s.cat with waiting := rest } }).catEffect w.op) fuel

/-- Ways of a set (R70). -/
def cacheWays : Nat := 8

/-- Puts a fetched bucket into the hot cache: the set's free way, else one not recently used, which is evicted and, if
dirty, written back. The choice among those not recently used is free (log entry 2); when all are used, the marks of
the others are cleared. -/
def State.cacheFill (s : State) (b : Nat) : State :=
  if (s.way? b).isSome then s
  else
    let data := s.bucket b
    let s := s.countRead (s.regionBase 2 + 256 * b) 256
    let set := Config.cacheSet b % 4096
    let mine := s.cat.cache.filter fun w => decide (Config.cacheSet w.bucket % 4096 = set)
    let s :=
      if mine.length < cacheWays then s
      else
        let cold := mine.filter fun w => !w.used
        let pool := if cold = [] then mine else cold
        let (v, s) := s.fresh
        match pool[v % pool.length]? with
        | none => s
        | some w =>
          let s := if w.dirty then s.memWrite (s.regionBase 2 + 256 * w.bucket) (w.data.flatMap (natLe 64)) else s
          { s with cat := { s.cat with
            cache := (s.cat.cache.filter fun x => decide (x.bucket ≠ w.bucket)).map fun x =>
              if cold = [] ∧ Config.cacheSet x.bucket % 4096 = set then { x with used := false } else x } }
    { s with cat := { s.cat with cache := s.cat.cache ++ [⟨b, data, true, false⟩] } }

/-- The operation held is the lookup of a packet. -/
def CatWait.isLookup (w : CatWait) (pid : Nat) : Bool := match w.op with | .lookup p _ => decide (p = pid) | _ => false

/-- BUCKET_FETCH_COMPLETE (R75): the missing buckets of a lookup have come; it takes effect, and so do the operations
held behind it. -/
def execBucketFetchComplete (pid t : Nat) (s : State) : Result :=
  tapsFlushed <|
  let s := s.at t
  if s.frozen then .next s else
  match s.cat.waiting.find? fun w => w.isLookup pid && w.fetching with
  | none => .next s
  | some w =>
    let s := (s.opBuckets w.op).foldl State.cacheFill s
    let l := s.cat.waiting.map fun (x : CatWait) => if x.isLookup pid then { x with fetching := false } else x
    let s := { s with cat := { s.cat with waiting := l } }
    .next (s.catRelease (2 * s.cat.waiting.length))

/-! ## Sweeper and rehash -/

/-- The catalogue front works: from PREPARE to DRAIN; in TEST it is under scan (R84). -/
def State.catRuns (s : State) : Bool :=
  decide (s.dev.st = .prepare) || decide (s.dev.st = .run) || decide (s.dev.st = .drain)

/-- When the sweeper's next bucket is due: the buckets stand evenly over the period (R83), by the clock's count. -/
def State.sweepDue (s : State) : Nat :=
  let period := s.get 0x4000 0 * 1000000
  s.cat.sweepFrom + if s.cat.sweep = 0 then period else s.cat.sweep * period / bucketCount

/-- SWEEPER_VISIT (R83): the next bucket in index order, not before it is due. -/
def execSweeperVisit (t : Nat) (s : State) : Result :=
  let s := s.at t
  if s.frozen then .next s else
  if s.catRuns = false ∨ s.clock.elapsed < s.sweepDue then .next s
  else
    let b := s.cat.sweep
    let s := { s with cat := { s.cat with
      sweep := (b + 1) % bucketCount, sweepFrom := if b = 0 then s.clock.elapsed else s.cat.sweepFrom } }
    if s.catBlocked [b] then .next (s.catHold ⟨.sweep b, false⟩) else .next (s.sweepEffect b)

/-- MIGRATION_VISIT (R84, R85): the next bucket of the pass under way, one per migration interval (a PKT cycle is 20/27 ns). -/
def execMigrationVisit (t : Nat) (s : State) : Result :=
  let s := s.at t
  if s.frozen then .next s else
  if s.catRuns = false ∨ s.get 0x400C 0 = 0 ∨ bucketCount ≤ s.cat.migr ∨ 27 * s.clock.elapsed < s.cat.migrDue then .next s
  else
    let b := s.cat.migr
    let s := { s with cat := { s.cat with
      migr := b + 1, migrDue := Max.max (s.cat.migrDue + 20 * s.get 0x400D 0) (27 * s.clock.elapsed) } }
    if s.catBlocked (s.migrateBuckets b) then .next (s.catHold ⟨.migrate b, false⟩) else .next (s.migrateEffect b)

/-- A write of the rehash request (R84). -/
def State.setRehash (s : State) (v : Nat) : Except Nat State :=
  if s.dev.st = .test then .error 0x08000010
  else if v ≠ 1 then .ok s
  else if s.get 0x400C 0 ≠ 0 then .error 0x08000039
  else
    let (a, s) := s.draw
    let (b, s) := s.draw
    let s := (s.put 0x400F 0 (1 - s.get 0x400F 0)).put 0x400C 0 1
    let s := { s with cat := { s.cat with newSeeds := some (a % 2 ^ 128, b % 2 ^ 128), migr := 0, migrDue := 27 * s.clock.elapsed } }
    .ok (s.rehashMark 0 0)

/-- A write of probe delete (R89): ordered like any other operation. -/
def State.setProbeDelete (s : State) (v : Nat) : Except Nat State :=
  if v ≠ 1 then .ok s
  else if s.catBlocked s.probeKey.buckets then .ok (s.catHold ⟨.probeDelete s.probeKey, false⟩)
  else .ok (s.probeRemove s.probeKey)

/-- A write of the clear object (R86). -/
def State.setClear (s : State) (v : Nat) : Except Nat State :=
  if s.dev.st ≠ .prepare ∧ s.dev.st ≠ .drain then .error 0x08000011
  else if v ≠ 1 then .ok s else .ok s.clearCatalogue

/-- REHASH_REQUEST (R84): a WRITE of 1 to 0x400B:00. -/
def execRehashRequest (r : Req) (s : State) : Result :=
  .next ((s.at r.t).serveWrite r 0x400B 0 [1] fun s => s.setRehash 1)

/-- Serves a READ of the probe: answered once the operations ordered before it on its buckets took effect. A repeat of a probe
that still waits is not executed again (R362). -/
def State.serveProbe (s : State) (r : Req) : State :=
  s.receive svcRead r 0x4020 3 [] fun s =>
    let waits := s.cat.waiting.any fun w => match w.op with | .probe a _ => a.isOf r | _ => false
    if waits then s
    else
      let a := mkAnswer svcRead r 0x4020 3 0 []
      if s.catBlocked s.probeKey.buckets then s.catHold ⟨.probe a s.probeKey, false⟩ else s.probeEffect a s.probeKey

/-- PROBE (R89): a READ of 0x4020:03. -/
def execProbe (r : Req) (s : State) : Result := .next ((s.at r.t).serveProbe r)

/-- PROBE_DELETE (R89): a WRITE of 1 to 0x4020:04. -/
def execProbeDelete (r : Req) (s : State) : Result :=
  .next ((s.at r.t).serveWrite r 0x4020 4 [1] fun s => s.setProbeDelete 1)

/-- CATALOGUE_CLEAR (R86): a WRITE of 1 to 0x4021:00. -/
def execCatalogueClear (r : Req) (s : State) : Result :=
  .next ((s.at r.t).serveWrite r 0x4021 0 [1] fun s => s.setClear 1)

end Sys2Proof.Machine
end

