-- ==== Sys2Proof/Machine/Cues.lean ====
section
/-! DEFINITION. The cues that move and compute data (R220): NOP, SHELVE, STAGE, STREAM, DRAIN, SWAP, TAP, EMIT, and how
they complete (R226). -/

namespace Sys2Proof.Machine

open Sys2Proof.Bits Sys2Proof.Num

/-- NOP (R220): no effect; still checked. -/
def execNop (a : Fin 16) (c : CueCheck) (t : Nat) (s : State) : Result :=
  let s := s.at t
  .next (s.issue a.val opNop c fun s _ _ _ => .ok (s.progress a.val))

/-! ## SHELVE and STAGE -/

/-- Source of a SHELVE as a byte offset: 256-byte units, the stacks increments in lines (R219). -/
def shelveSource (ws : List Nat) (x : Adds) : Option Nat :=
  let y : Int := (fld (w ws 1) 26 0 * 256 : Nat) + x.stack * 64
  if 0 ≤ y ∧ y % 256 = 0 then some y.toNat else none

/-- Bytes by which an install cue's source lies past its 256-byte unit (R282, log entry 15): 0 for any other cue. -/
def State.installShift (s : State) (a : Nat) (r : Run) : Nat :=
  match r.pos with
  | .ring i => if r.ring < 16 then 0 else ((s.arrAt a).install.getD i []).getD 7 0
  | .body _ => 0

/-- What a SHELVE writes (R220, R249, R409): rows of a shelf bank, or a TG8 table, of the array and its pair. -/
def State.shelveData (s : State) (a : Nat) (r : Run) (ws : List Nat) (x : Adds) : Except CueErr State :=
  let rows := fld (w ws 3) 11 0
  match shelveSource ws x with
  | none => .error .illegal
  | some unit =>
    let src := unit + s.installShift a r
    if s.cueMayRead src (rows * 256) = false then .error .illegal
    else
      let data := s.memRead src (rows * 256)
      let s := s.countRead src (rows * 256)
      if fld (w ws 2) 31 30 = 1 then
        let table := fld (w ws 2) 29 28
        .ok ((s.twins a).foldl (fun s i => s.modArr i fun y =>
          { y with tg8 := Sparse.writeList (fun _ => 0) y.tg8 (table * 256) (wordsOf data 256) }) s)
      else match x.shelfAddr (fld (w ws 2) 14 0) (rows * 256) with
        | none => .error .illegal
        | some (bank, row) => .ok ((s.twins a).foldl (fun s i => s.modArr i fun y =>
          { y with shelf := Sparse.writeList memDefault y.shelf (bank * 786432 + row * 256) data }) s)

/-- SHELVE (R220, R249). -/
def execShelve (a : Fin 16) (c : CueCheck) (t : Nat) (s : State) : Result :=
  let s := s.at t
  .next (s.issue a.val opShelve c fun s r ws x => match s.shelveData a.val r ws x with
    | .error e => .error e
    | .ok s => .ok (s.fly a.val { cls := .shelve, addr := s.posAddr a.val r r.pos, seq := r.pos.seq } false))

/-- What a STAGE moves (R220, R267): stacks to wings, wings to stacks, or wings to wings. -/
def State.stageData (s : State) (a : Nat) (ws : List Nat) (x : Adds) : Except CueErr State :=
  let n := w ws 3
  let dir := fld (w ws 2) 31 30
  match x.line (fld (w ws 2) 14 0) n with
  | none => .error .illegal
  | some l =>
    if dir = 2 then match x.line (fld (w ws 2) 29 15) n with
      | none => .error .illegal
      | some d => .ok (s.wingsPlain a d (s.wings a (l * 64) (n * 64)))
    else match x.unit (fld (w ws 1) 28 0) with
      | none => .error .illegal
      | some u =>
        if dir = 0 then
          if s.cueMayRead (u * 64) (n * 64) then .ok ((s.countRead (u * 64) (n * 64)).wingsPlain a l (s.memRead (u * 64) (n * 64))) else .error .illegal
        else if s.cueMayWrite (u * 64) (n * 64) then .ok (s.memWrite (u * 64) (s.wings a (l * 64) (n * 64)))
        else .error .illegal

/-- STAGE (R220, R229, R249). -/
def execStage (a : Fin 16) (c : CueCheck) (t : Nat) (s : State) : Result :=
  let s := s.at t
  .next (s.issue a.val opStage c fun s r ws x => match s.stageData a.val ws x with
    | .error e => .error e
    | .ok s => .ok (s.fly a.val { cls := .stage, addr := s.posAddr a.val r r.pos, seq := r.pos.seq } (decide (fld (w ws 2) 31 30 = 1))))

/-- SHELVE_COMPLETE (R226): its last write is done. -/
def execShelveComplete (a : Fin 16) (t : Nat) (s : State) : Result :=
  let s := s.at t
  if s.frozen then .next s else .next (s.land a.val fun f => decide (f.cls = .shelve))

/-- STAGE_COMPLETE (R226). -/
def execStageComplete (a : Fin 16) (t : Nat) (s : State) : Result :=
  let s := s.at t
  if s.frozen then .next s else .next (s.land a.val fun f => decide (f.cls = .stage))

/-! ## STREAM -/

/-- Counts what a gather STREAM reads of the stacks (R276). -/
def StreamCue.countGather (c : StreamCue) (s : State) (a : Nat) : State :=
  if c.akind = 1 then s.countGather a ((c.a : Int) + c.adds.wings).toNat (Max.max 1 (linesOf (rowBytes c.afmt c.m))) c.k else s

/-- Two cues in flight use a common bank; 2 stands for both. -/
def sameBank (x y : Nat) : Bool := decide (x = y) || decide (x = 2) || decide (y = 2)

/-- A DRAIN of an array's bank is in flight. -/
def State.draining (s : State) (a bank : Nat) : Bool :=
  (s.listsOf a).any fun r => r.fly.any fun f => decide (f.cls = .drain) && sameBank f.bank bank

/-- Bubbles of a gap or a STREAM that carry a dummy operation: all of them with gating off, or within the hold period; of more, how many
lie within it is measured (R201; a free value, log entry 19). -/
def State.dummies (s : State) (a n : Nat) : Nat × State :=
  let hold := s.get (0x5020 + a) 1
  if s.flag (0x5020 + a) 2 = false ∨ n ≤ hold then (n, s)
  else
    let (v, s) := s.fresh
    (hold + v % (n - hold + 1), s)

/-- Counts bubbles of an array (R188, R201). -/
def State.bubbles (s : State) (a n : Nat) : State :=
  let (d, s) := s.dummies a n
  ((s.bumpBy (0x5010 + a) 3 n).bumpBy (0x5010 + a) 5 n).bumpBy (0x5010 + a) 6 d

/-- Counts the bubbles of the gap that a STREAM ends on an ACTIVE array: how many there were is measured (R188; a free value, log entry
19). -/
def State.gapBubbles (s : State) (a : Nat) : State :=
  (s.twins a).foldl (fun s i =>
    if s.power i = 2 ∧ ((s.listsOf a).any fun r => r.fly.any fun f => decide (f.cls = .stream)) = false then
      let (v, s) := s.fresh
      s.bubbles i v
    else s) s

/-- The ARITH cycles that an opening STREAM waits for DRAINs of its bank: a measured quantity, here a free value (R177, log entry 19). -/
def State.waitForDrain (s : State) (a : Nat) : State :=
  let (v, s) := s.fresh
  s.bumpBy (0x5010 + a) 7 v

/-- STREAM (R123, R158 to R160, R164, R168 to R191, R276): K steps into the front bank. -/
def execStream (a : Fin 16) (c : CueCheck) (t : Nat) (s : State) : Result :=
  let s := s.at t
  .next (s.issue a.val opStream c fun s r ws x =>
    let q := streamCue r x ws
    match q.issueError (s.arrAt a.val) with
    | some e => .error e
    | none => match s.operand a.val q with
      | .error e => .error e
      | .ok o =>
        let banks := q.banks (s.arrAt a.val)
        let s := s.modArr a.val fun y => (if q.opens then y.loseBanks r.ring banks else y)
        let s := s.modArr a.val fun y => q.stream o y r.ring s.free
        let s := if q.opens then { s with free := s.free + 131072 } else s
        let s := s.modRun a.val fun y => y.wrote banks
        let bank := if q.kind = 0 then banks.headD 0 else 2
        let s := if q.opens && s.draining a.val bank then s.waitForDrain a.val else s
        let s := s.gapBubbles a.val
        let s := q.countGather s a.val
        let f : Fly := { cls := .stream, steps := q.k * q.passes, bank := bank, addr := s.posAddr a.val r r.pos, seq := r.pos.seq }
        .ok ((s.fly a.val f false).wake a.val))

/-- STREAM_COMPLETE (R188, R201, R226): the last valid step has entered; `bubbles` cycles held none. The arrays of a pair count
alike (R409). -/
def execStreamComplete (a : Fin 16) (bubbles starveA starveB t : Nat) (s : State) : Result :=
  let s := s.at t
  match s.flying a.val fun f => decide (f.cls = .stream) with
  | none => .next s
  | some (_, f) =>
    if s.power a.val = 2 ∧ s.frozen = false then
      let s := (s.twins a.val).foldl (fun s j =>
        let i := 0x5010 + j
        ((((s.bumpBy i 3 f.steps).bumpBy i 4 f.steps).bubbles j bubbles).bumpBy i 8 starveA).bumpBy i 9 starveB) s
      .next (s.land a.val fun f => decide (f.cls = .stream))
    else .next s

/-- SWAP (R176): exchanges the front and the back bank. -/
def execSwap (a : Fin 16) (c : CueCheck) (t : Nat) (s : State) : Result :=
  let s := s.at t
  .next (s.issue a.val opSwap c fun s _ _ _ => .ok ((s.modArr a.val fun x => { x with front := 1 - x.front }).progress a.val))

/-! ## DRAIN -/

/-- The banks a DRAIN reads: the back bank, or both of a complex or FP64 tile (R178). One that counts as unopened is no tile
(R172). -/
def Arr.backBanks (x : Arr) : AccBank × AccBank :=
  let b := if x.front = 0 then x.bank1 else x.bank0
  if b.opened = false ∨ b.kind = 0 then (b, b) else (x.bank0, x.bank1)

/-- The banks after a DRAIN has read them (R204). -/
def Arr.afterDrain (x : Arr) : Arr :=
  let done (b : AccBank) : AccBank := { b with drained := true }
  let b := if x.front = 0 then x.bank1 else x.bank0
  if b.kind ≠ 0 then { x with bank0 := done x.bank0, bank1 := done x.bank1 }
  else if x.front = 0 then { x with bank1 := done x.bank1 } else { x with bank0 := done x.bank0 }

/-- A row of a tile in the version of the array that won an arbitration (R412). -/
def Drained.withRow (t : Drained) (row : Option (Nat × Bytes)) : Drained :=
  match row with
  | none => t
  | some (i, bs) => { t with rows := t.rows.mapIdx fun k x => if k = i then bs else x }

/-- Lowest-numbered pair with no running list, as its even array (R412 step 3). -/
def State.arbiterFor (s : State) (pair : Nat) : Option Nat :=
  ((List.range 8).find? fun k => decide (k ≠ pair) && s.hasArray (2 * k) && (s.arrAt (2 * k)).run.isNone).map (2 * ·)

/-- An arbiter takes a copy of an array's wings, shelf sections and channel records; its own are lost (R412 step 4). -/
def Arr.replica (own x : Arr) : Arr :=
  { own with wings := x.wings, tags := x.tags, scanned := x.scanned, shelf := x.shelf, recs := x.recs, tg8 := x.tg8 }

/-- A lockstep disagreement in a drained row (R412, R414, R415): the list stops; without an arbiter, or with differing wings, it
is undecidable; else arbitration begins, the replacement flag is set, and the module drains. -/
def State.disagree (s : State) (a : Nat) (r : Run) (d : RowDiff) (t : Drained) : State :=
  let s := s.bump 0x8009 2
  match s.arbiterFor (a / 2) with
  | some x =>
    if d.wingsDiffer then s.undecidable (a / 2) d.row 0xFF
    else
      let arb : Arb := ⟨a / 2, d.row, t.rows.getD d.row [], d.oddVersion, x, s.now⟩
      let s := { s with rel := { s.rel with arb := s.rel.arb ++ [arb] }, flash := { s.flash with replacement := true, dieScanPassed := false } }
      ((s.modRun a fun _ => { r with block := .stopped }).modArr x fun y => y.replica (s.arrAt a)).drainForSuspect
  | none => s.undecidable (a / 2) d.row 0xFF

/-- The effect of a DRAIN (R192): rows to their destination, the ledger, and what its completion record will hold. -/
def State.drainEffect (s : State) (a : Nat) (r : Run) (c : DrainCue) (t : Drained) (b0 : AccBank) (exc1 : Exc)
    (addrs : Nat × Nat × Nat × Nat) : State :=
  let np := DrainCue.parts b0
  let armed := c.watch && bit (s.get 0x8830 0) a
  let (nans, nr, nc) := nanReport np t
  let seq := r.pos.seq
  let res : DrainRes := ⟨seq, ((b0.exc.or exc1).or t.exc).byte, nans, nr, nc, c.m, if armed then watchBody a seq r.acc c.m t else []⟩
  let s := s.drainWrite a r.acc seq c t addrs.1 addrs.2.2.1 addrs.2.2.2
  let s := s.ledger a c np t
  let s := if s.flag 0x8000 0 then s.bumpBy 0x8009 1 c.m else s
  let bank := if b0.kind = 0 then 1 - (s.arrAt a).front else 2
  let s := s.modArr a Arr.afterDrain
  let f : Fly := { cls := .drain, bank := bank, drain := some res, addr := s.posAddr a r r.pos, seq := seq }
  (s.fly a f (decide (c.dest ≠ 0))).wake a

/-- The effect of a DRAIN that passes its checks, or its control error. -/
def State.drainIssue (s : State) (a : Nat) (won : Option (Nat × Bytes)) (diff : Option RowDiff) (r : Run) (q : DrainCue) : Except CueErr State :=
  let (b0, b1) := (s.arrAt a).backBanks
  match s.drainError a r.acc q b0 b1 with
  | some e => .error e
  | none => match s.drainAddrs q (DrainCue.parts b0) with
    | none => .error .illegal
    | some addrs =>
      let tile := (s.drainTile a q b0 b1 addrs.2.1).withRow won
      let s := { s with rel := { s.rel with arb := s.rel.arb.filter fun x => decide (x.pair ≠ 2 ^ 10 + a / 2) } }
      let plain := s.drainEffect a r q tile b0 (if b0.kind = 0 then {} else b1.exc) addrs
      match diff with
      | some d => .ok (if s.flag 0x8000 0 && decide (d.row < q.m) && won.isNone then s.disagree a r d tile else plain)
      | none => .ok plain

/-- DRAIN (R161 to R163, R172, R175, R192 to R196, R411): `diff` says where the two arrays of a pair differ under full
redundancy. -/
def execDrain (a : Fin 16) (c : CueCheck) (diff : Option RowDiff) (t : Nat) (s : State) : Result :=
  let s := s.at t
  let won := (s.rel.arb.find? fun x => decide (x.pair = 2 ^ 10 + a.val / 2)).map fun x => (x.row, x.oddRow)
  .next (s.issue a.val opDrain c fun s r ws x => s.drainIssue a.val won diff r (drainCue r x ws))

/-- DRAIN_COMPLETE (R175, R194, R226, R254): the last row is written and the completion record issued; not before the STREAMs of its
bank. -/
def execDrainComplete (a : Fin 16) (stall t : Nat) (s : State) : Result :=
  let s := s.at t
  match s.flying a.val fun f => decide (f.cls = .drain) with
  | none => .next s
  | some (r, f) =>
    let behind := (r.fly.takeWhile fun g => decide (g ≠ f)).any fun g => decide (g.cls = .stream) && sameBank g.bank f.bank
    if s.power a.val = 2 ∧ behind = false ∧ s.frozen = false then
      let s := s.bumpBy (0x5010 + a.val) 0xA stall
      let s := match f.drain with | some d => s.completionRecord a.val r d | none => s
      .next (s.land a.val fun f => decide (f.cls = .drain))
    else .next s

/-- ARBITRATION_COMPLETE (R412 steps 5 to 7): the arbiter's row equals exactly one version, and the pair goes on with it, or the
case is undecidable. The DRAIN is issued again with the version that won. -/
def execArbitrationComplete (a : Fin 16) (row : Bytes) (t : Nat) (s : State) : Result :=
  let s := s.at t
  let pair := a.val / 2
  match s.rel.arb.find? fun x => decide (x.pair = pair) with
  | none => .next s
  | some x =>
    let rest := s.rel.arb.filter fun y => decide (y.pair ≠ pair)
    let even := decide (row = x.evenRow)
    let odd := decide (row = x.oddRow)
    if even = odd then .next (({ s with rel := { s.rel with arb := rest } }).undecidable pair x.row x.arbiter)
    else
      -- the winning row waits under the pair's number + 1024 for the DRAIN that is issued again
      let s := { s with rel := { s.rel with arb := { x with pair := 2 ^ 10 + pair, oddRow := row } :: rest } }
      let s := s.bump 0x8009 3
      let minority := if even then 2 * pair + 1 else 2 * pair
      let s := (s.firstSuspect 1 minority).errorRecord { lockstepInfo minority x.row x.arbiter 0 with flags := 2 }
      .next (s.modRun (2 * pair) fun r => { r with block := .none, progress := s.now })

/-- ARBITRATION_TIMEOUT (R412 step 7). -/
def execArbitrationTimeout (a : Fin 16) (t : Nat) (s : State) : Result :=
  let s := s.at t
  let pair := a.val / 2
  match s.rel.arb.find? fun x => decide (x.pair = pair) with
  | none => .next s
  | some x =>
    if x.start + s.get 0x8011 0 * 1000 ≤ s.now then
      let s := { s with rel := { s.rel with arb := s.rel.arb.filter fun y => decide (y.pair ≠ pair) } }
      .next (s.undecidable pair x.row x.arbiter)
    else .next s

/-! ## TAP and EMIT -/

/-- The running list's next cue is a TAP of this action. -/
def State.nextTap (s : State) (a action : Nat) : Bool :=
  match s.issuing a with
  | none => false
  | some r => decide (fld (w (words (s.cueBytes a r)) 1) 9 8 = action)

/-- TAP FLUSH (R247) completes the descriptor's current buffer when it holds a row; a TAP of a reserved action is an illegal cue here
too. -/
def execTapFlush (a : Fin 16) (c : CueCheck) (t : Nat) (s : State) : Result :=
  let s := s.at t
  if s.nextTap a.val 2 then .next s
  else
    .next (s.issue a.val opTap c fun s _ ws _ =>
      let d := fld (w ws 1) 7 0
      if fld (w ws 1) 9 8 = 1 then
        let y := (s.tap d).buf (s.tap d).cur
        let s := if 0 < y.rows ∧ y.busy = false then s.completeBuf (s.bankOf y.ra) d (s.tap d).cur else s
        .ok ((s.restartHere a.val).progress a.val)
      else .error .illegal)

/-- TAP RELEASE (R219, R247): BUF takes the buffer from LW0. -/
def execTapRelease (a : Fin 16) (c : CueCheck) (t : Nat) (s : State) : Result :=
  let s := s.at t
  if s.nextTap a.val 2 then
    .next (s.issue a.val opTap c fun s r ws _ =>
      let d := fld (w ws 1) 7 0
      let b := if bit (w ws 0) 14 then r.lw0 % 2 else fld (w ws 1) 10 10
      let s := if ((s.tap d).buf b).busy then s.freeBuf d b else s
      .ok ((s.restartHere a.val).progress a.val))
  else .next s

/-- Class and score of one packet's scores (R245): class 8 is undetermined. -/
def neuralClass (fmt : Nat) (scores : List Nat) : Nat × Nat :=
  let dec (v : Nat) : FV := if fmt = 6 then fp16.decode v else fp32.decode v
  let code (v : Nat) : Nat := (fp32.encode .nearest false (dec v)).1
  let xs := scores.map dec
  if xs.any FV.isNan then (8, nan32)
  else match xs with
    | [x] => (if FV.le .zero x then 1 else 0, code (scores.headD 0))
    | _ => match largest xs 0 with
      | some (i, _) => (i, code (scores.getD i 0))
      | none => (8, nan32)

/-- EMIT VERDICT (R245): one neural verdict for each packet the buffer holds, in tap order. -/
def State.emitVerdicts (s : State) (a : Nat) (r : Run) (ws : List Nat) (x : Adds) : Except CueErr State :=
  let classes := fld (w ws 2) 31 28
  let fmt := fld (w ws 2) 27 24
  let stride := fld (w ws 3) 7 0
  match r.tap with
  | none => .error .illegal
  | some (d, b) =>
    let held := ((s.tap d).buf b).held
    let rows := held.foldl (fun m h => Max.max m (h.2 + 1)) 0
    match x.line (fld (w ws 2) 14 0) (if rows = 0 then 0 else (rows - 1) * stride + 1) with
    | none => .error .illegal
    | some l =>
      let verdict (h : Nat × Nat) : Neural :=
        let bs := s.wings a ((l + h.2 * stride) * 64) 64
        let k := neuralClass fmt ((List.range classes).map fun i => codeAt fmt bs i)
        ⟨h.1, a, fld (w ws 2) 23 20, k.1, k.2⟩
      .ok { s with egr := { s.egr with neural := s.egr.neural ++ held.map verdict } }

/-- The next cue of the running list is an EMIT of this kind. -/
def State.nextEmit (s : State) (a kind : Nat) : Bool :=
  match s.issuing a with
  | none => false
  | some r => decide (fld (w (words (s.cueBytes a r)) 1) 31 30 = kind)

/-- What an EMIT leaves in flight. -/
def State.emitFly (s : State) (a : Nat) (r : Run) : State :=
  s.fly a { cls := .emit, addr := s.posAddr a r r.pos, seq := r.pos.seq } true

/-- EMIT VERDICT; an EMIT of the reserved kind is an illegal cue here too. -/
def execEmitVerdict (a : Fin 16) (c : CueCheck) (t : Nat) (s : State) : Result :=
  let s := s.at t
  if s.nextEmit a.val 0 ∨ s.nextEmit a.val 3 then
    .next (s.issue a.val opEmit c fun s r ws x => match s.emitVerdicts a.val r ws x with
      | .error e => .error e
      | .ok s => .ok (s.emitFly a.val r))
  else .next s

/-- EMIT TENSOR (R246, R320): one tensor-result frame of the cue's lines. -/
def execEmitTensor (a : Fin 16) (c : CueCheck) (t : Nat) (s : State) : Result :=
  let s := s.at t
  if s.nextEmit a.val 1 then
    .next (s.issue a.val opEmit c fun s r ws x =>
      let n := fld (w ws 3) 15 0
      match x.line (fld (w ws 2) 14 0) n with
      | none => .error .illegal
      | some l =>
        let body := natBe 2 (fld (w ws 1) 15 0) ++ natBe 1 a.val ++ natBe 1 0 ++ natBe 4 (fld (w ws 3) 31 16) ++ natBe 2 n ++ natBe 2 64 ++
          natBe 4 r.pos.seq ++ s.wings a.val (l * 64) (n * 64)
        .ok ((s.originate (fld (w ws 1) 28 16) 0x02 0 r.acc body).emitFly a.val r))
  else .next s

/-- EMIT MARKER (R246, R322). -/
def execEmitMarker (a : Fin 16) (c : CueCheck) (t : Nat) (s : State) : Result :=
  let s := s.at t
  if s.nextEmit a.val 2 then
    .next (s.issue a.val opEmit c fun s r ws _ =>
      let body := natBe 2 (fld (w ws 1) 15 0) ++ natBe 1 a.val ++ natBe 1 0 ++ natBe 4 r.pos.seq
      .ok ((s.originate (fld (w ws 1) 28 16) 0x04 0 r.acc body).emitFly a.val r))
  else .next s

/-- Words that the emit crossing holds (R14). -/
def emitDepth : Nat := 256

/-- EMIT_COMPLETE (R226): the last line or verdict is in the emit crossing. A full crossing stops its writer (R15): the verdicts beyond
its depth are still to enter it. -/
def execEmitComplete (a : Fin 16) (t : Nat) (s : State) : Result :=
  let s := s.at t
  if s.frozen ∨ emitDepth < s.egr.neural.length then .next s else .next (s.land a.val fun f => decide (f.cls = .emit))

end Sys2Proof.Machine
end

