-- ==== Sys2Proof/Machine/Fabric.lean ====
section
/-! DEFINITION. The Bilzo fabric and the house clock's exchange (R243, R244, R250, R326 to R351): their commands. -/

namespace Sys2Proof.Machine

open Sys2Proof.Bits

/-! ## Call slips -/

/-- CALLSLIP (R250, R335 to R337): issues its slips in line order. -/
def execCallslip (a : Fin 16) (c : CueCheck) (t : Nat) (s : State) : Result :=
  let s := s.at t
  .next (s.issue a.val opCallslip c fun s r ws x =>
    let n := fld (w ws 1) 22 15
    match x.line (fld (w ws 1) 14 0) n with
    | none => .error .illegal
    | some line =>
      let async := bit (w ws 0) 8
      let light := if bit (w ws 2) 11 then some (fld (w ws 2) 10 0) else none
      let group := s.fab.nextOp
      let addr := s.posAddr a.val r r.pos
      let s := if async then s.restartHere a.val
        else s.fly a.val { cls := .callslip, slips := (List.range n).map fun i => group + i, addr := addr, seq := r.pos.seq } true
      .ok (((s.queueSlips a.val line async light addr r.pos.seq group n).sendSlips group n).progress a.val))

/-- SLIP_COMPLETE (R334 to R336): the fabric brings the reply of an operation, or, for one addressed to this module's own number
on every side, the module has served it itself (R331). -/
def execSlipComplete (opId : Nat) (reply : SlipReply) (t : Nat) (s : State) : Result :=
  let s := s.at t
  match s.fab.ops.find? fun o => decide (o.id = opId) && o.sent.isSome with
  | none => .next s
  | some o =>
    if s.frozen then .next s
    else if o.bell.isSome then
      if 2 ≤ reply.status ∧ reply.status ≤ 7 then .next ((s.bump 0x7820 reply.status).dropOp opId) else .next s
    else if o.targets.all (fun m => decide (m = s.moduleNo)) = true then
      let (y, s) := s.ownReply o
      .next ((s.slipDone o y.status y.data).sendSlips o.group 256)
    else if 1 ≤ reply.status ∧ reply.status ≤ 7 then .next ((s.slipDone o reply.status reply.data).sendSlips o.group 256)
    else .next s

/-- OPERATION_TIMEOUT (R351): the operation timeout has passed since the send. -/
def execOperationTimeout (opId t : Nat) (s : State) : Result :=
  let s := s.at t
  match s.fab.ops.find? fun o => decide (o.id = opId) with
  | none => .next s
  | some o => match o.sent with
    | none => .next s
    | some t0 =>
      if t0 + s.get 0x7806 0 * 1000 ≤ s.now ∧ s.frozen = false then
        if o.bell.isSome then .next ((s.bump 0x7820 stLost).dropOp opId)
        else .next ((s.slipDone o stLost []).sendSlips o.group 256)
      else .next s

/-! ## Doorbells -/

/-- DOORBELL_RECEIVED (R244, R332); in a freeze it waits (R15, R455). -/
def execDoorbellReceived (src : Nat) (d : Doorbell) (t : Nat) (s : State) : Result :=
  let s := s.at t
  if s.stacksServed = false then .next s
  else if s.frozen then .next { s with fab := { s.fab with bells := s.fab.bells ++ [(src, d)] } }
  else .next (s.ringBell (src, d))

/-- The SIGNAL that sent a doorbell completes (R243). -/
def State.bellDone (s : State) (o : FabOp) : State :=
  match (s.listsOf o.array).find? fun r => r.block = .doorbell o.id with
  | none => s
  | some r =>
    let s := s.modList o.array r.ring fun r => ({ r with block := .none, progress := s.now }).setRestart (s.pointHere o.array r)
    if (s.arrAt o.array).run.map Run.ring = some r.ring then s.progress o.array else s.settle o.array r.ring

/-- DOORBELL_ACCEPTED (R243, R331): the named module has accepted the doorbell; one addressed to this module rings here. -/
def execDoorbellAccepted (opId t : Nat) (s : State) : Result :=
  let s := s.at t
  match s.fab.ops.find? fun o => decide (o.id = opId) && o.bell.isSome with
  | none => .next s
  | some o =>
    if s.frozen then .next s
    else match o.bell with
      | none => .next s
      | some d =>
        let own := decide (o.remote = s.moduleNo)
        let (ok, s) := if own then s.doorbell s.moduleNo d else (true, s)
        let s := s.dropOp opId
        if ok then .next ((s.bump 0x7820 stOk).bellDone o) else .next (s.bump 0x7820 stNoAccess)

/-! ## Remote operations (R332, R334) -/

/-- REMOTE_READ (R332, R334). -/
def execRemoteRead (src : Requester) (offset len t : Nat) (s : State) : Result :=
  let s := s.at t
  if s.stacksServed = false then .next s
  else match s.remoteCheck src.module false offset len with
    | some st => .next ((s.bump 0x7821 0).emit (.reply src st []))
    | none => .next ((s.countRead offset len).emit (.reply src stOk (s.memRead offset len)))

/-- REMOTE_WRITE (R332, R334). -/
def execRemoteWrite (src : Requester) (offset : Nat) (data : Bytes) (t : Nat) (s : State) : Result :=
  let s := s.at t
  if s.stacksServed = false then .next s
  else match s.remoteCheck src.module true offset data.length with
    | some st => .next ((s.bump 0x7821 0).emit (.reply src st []))
    | none => .next ((s.memWrite offset data).emit (.reply src stOk []))

/-- An atomic of a remote module: the old word is the reply's data. -/
def State.remoteAtomic (s : State) (src : Requester) (offset : Nat) (f : Nat → Nat) : State :=
  if s.stacksServed = false then s
  else match s.remoteCheck src.module true offset 8 with
    | some st => (s.bump 0x7821 0).emit (.reply src st [])
    | none =>
      let (old, s) := s.atomic offset f
      s.emit (.reply src stOk (natLe 8 old))

/-- REMOTE_FETCH_ADD (R263, R334). -/
def execRemoteFetchAdd (src : Requester) (offset addend t : Nat) (s : State) : Result :=
  .next ((s.at t).remoteAtomic src offset fun v => (v + addend) % 2 ^ 64)

/-- REMOTE_COMPARE_SWAP (R263, R334). -/
def execRemoteCompareSwap (src : Requester) (offset cmp swp t : Nat) (s : State) : Result :=
  .next ((s.at t).remoteAtomic src offset fun v => if v = cmp % 2 ^ 64 then swp % 2 ^ 64 else v)

/-! ## Links (R329, R343, R350) -/

/-- FAB_LINK_UP (R329, R330): this end sends its number, port and bay count, and checks the peer; a port that breaks a rule stays down as
miswired. The event names the port, and the rows 0x7811 and 0x7812 of the same sub-index the other end. -/
def execFabLinkUp (f : Fin 16) (peer : Peer) (t : Nat) (s : State) : Result :=
  let s := s.at t
  let i := f.val
  if s.stacksServed = false ∨ s.moduleNo = 0xFFFF ∨ s.fab.duplicate = true ∨ s.portUp i = true then .next s
  else
  let s := s.emit (.linkHello i s.moduleNo s.bays)
  if s.wiredOk i peer then
    let s := ((s.put 0x7810 (i + 1) 1).put 0x7811 (i + 1) (peer.module % 65536)).put 0x7812 (i + 1) (peer.port % 256)
    let s := { s with fab := { s.fab with firstUp := some (s.fab.firstUp.getD s.now) } }
    .next ((s.modPort i fun _ => {}).flood)
  else
    let s := ((s.put 0x7810 (i + 1) 2).put 0x7811 (i + 1) (peer.module % 65536)).put 0x7812 (i + 1) (peer.port % 256)
    .next (s.raise (Config.eventCode 10) 0x7810 (i + 1))

/-- Codes of the causes of R350 in a class 0x32 record (log entry 13). -/
def linkFailCode : LinkFail → Nat
  | .lockLost => 1
  | .quiet => 2
  | .retries16 => 3
  | .retries1000 => 4

/-- A parent whose link is no longer up is none (R348). -/
def State.orphan (s : State) : State :=
  if s.clock.parent.any fun f => !s.portUp f then { s with clock := { s.clock with parent := none } } else s

/-- FAB_LINK_FAILED (R350): the failure is counted and recorded, the replay buffer discarded, and link state flooded. -/
def execFabLinkFailed (f : Fin 16) (cause : LinkFail) (t : Nat) (s : State) : Result :=
  let s := s.at t
  let i := f.val
  if s.portUp i then
    let s := (s.put 0x7810 (i + 1) 3).bump 0x7819 (i + 1)
    let s := (s.modPort i fun _ => {}).orphan
    .next ((s.errorRecord { cls := 0x32, uKind := 6, unit := i, detail := natLe 1 (linkFailCode cause) }).flood)
  else .next s

/-- Forwards an accepted flit toward another module, by the minimal route or, where R338 has none, the fewest hops; traffic to the edge
number leaves through F7 (R333). -/
def State.forwardFlit (s : State) (x : Flit) : State :=
  let home := s.homeOf x.dest
  if home = s.moduleNo then (if s.portUp 7 then s.sendFlit 7 x else s)
  else
    let ports := s.minimalPorts home
    let (p, s) := s.firstHop (if ports.isEmpty then s.nextPorts home else ports)
    match p with
    | some p => s.sendFlit p { x with vc := if h : x.vc.val + 1 < 4 then ⟨x.vc.val + 1, h⟩ else x.vc }
    | none => s

/-- A flit that enters at F7 carries this module's number and the edge bit (R333), but an answer of the edge module itself. -/
def State.edgeStamp (s : State) (x : Flit) : Flit :=
  if x.source = s.edgeNo ∧ s.edgeNo ≠ 0xFFFF then x else { x with source := s.moduleNo, edge := true }

/-- FLIT_RECEIVED (R340, R343): accepted and acknowledged, or answered with a retry request; an aged flit is discarded, one for
another module forwarded. What a flit for this module asks is a command of its own. -/
def execFlitReceived (f : Fin 16) (x : Flit) (crcGood fecGood : Bool) (t : Nat) (s : State) : Result :=
  let s := s.at t
  let i := f.val
  let p := s.fab.ports.toList.getD i {}
  if s.portUp i then
    let s := if fecGood then s else s.bump 0x7818 (i + 1)
    if crcGood ∧ fecGood ∧ x.linkSeq = p.expect then
      let s := (s.modPort i fun p => { p with expect := (p.expect + 1) % 4096 }).bump 0x7815 (i + 1)
      let s := s.emit (.flitAck i x.linkSeq)
      let x := if i = 7 then s.edgeStamp x else x
      if 100000 < x.age then .next (s.bump 0x7823 0)
      else if x.dest = s.moduleNo then .next s
      else .next (s.forwardFlit x)
    else .next ((s.bump 0x7816 (i + 1)).emit (.flitRetry i p.expect))
  else .next s

/-- Takes every fabric port down: this module's number belongs to another (R329). -/
def State.fabricDown (s : State) : State :=
  let s := { s with fab := { s.fab with duplicate := true } }
  ((List.range 16).foldl (fun s f => if s.portUp f then (s.put 0x7810 (f + 1) 0).modPort f fun _ => {} else s) s).orphan

/-- LINK_STATE_UPDATE (R329, R350). -/
def execLinkStateUpdate (l : LinkState) (t : Nat) (s : State) : Result :=
  let s := s.at t
  if s.stacksServed = false ∨ s.neighbours = [] then .next s
  else if l.module = s.moduleNo then
    let mine := s.fab.firstUp.getD 0
    if l.serial = s.mfg.serial then .next s
    else if l.firstUp < mine ∨ (l.firstUp = mine ∧ l.serial < s.mfg.serial) then .next (s.fabricDown.raise (Config.eventCode 11) 0x7800 0)
    else .next s
  else if s.fab.links.contains l then .next s
  else
    let s := { s with fab := { s.fab with links := l :: s.fab.links.filter fun x => decide (x.module ≠ l.module) } }
    .next (s.emit (.linkState l))

/-! ## The house clock (R346, R348, R349, R351) -/

/-- This port's neighbour is a better parent than the present one (R348). -/
def State.betterParent (s : State) (f hops : Nat) : Bool :=
  match s.clock.parent with
  | none => true
  | some p =>
    decide (p = f) || decide (hops + 1 < s.get 0x2407 0) ||
    (decide (hops + 1 = s.get 0x2407 0) &&
      (decide (s.peerOf f < s.peerOf p) || (decide (s.peerOf f = s.peerOf p) && decide (f < p))))

/-- A correction in ns that slewing allows, at most 100 ppm of the time since the last one was spent, and the count up to which this one
spends it (R349). -/
def State.slew (s : State) (off : Int) : Int × Nat :=
  let room : Int := ((s.clock.elapsed - s.clock.slewFrom) / 10000 : Nat)
  let move := Max.max (-room) (Min.min room off)
  (move, if move = off then s.clock.elapsed else s.clock.slewFrom + move.natAbs * 10000)

/-- TIMESTAMP_EXCHANGE (R348, R349): the parent's offset in ps, corrected by the port's asymmetry, steps or slews the house time. -/
def execTimestampExchange (f : Fin 16) (offset : Int) (hops grandmaster t : Nat) (s : State) : Result :=
  let s := s.at t
  let i := f.val
  if s.clockRuns = false ∨ s.portUp i = false ∨ s.get 0x2400 0 ≠ 0 ∨ grandmaster = s.moduleNo ∨ s.betterParent i hops = false then .next s
  else
    let off := offset - toInt 16 (s.get 0x7813 (i + 1))
    let step := decide (1000000 < off.natAbs)
    let (move, spent) := if step then (off / 1000, s.clock.elapsed) else s.slew (off / 1000)
    let house := ((s.clock.house : Int) - move).toNat % 2 ^ 64
    let s := { s with clock := { s.clock with house := house, parent := some i, lostAt := none, slewFrom := spent } }
    let s := if step then s.bump 0x2409 0 else s
    .next ((((s.put 0x2405 0 1).put 0x2406 0 (grandmaster % 65536)).put 0x2407 0 ((hops + 1) % 256)).put 0x2408 0 (ofInt 32 off))

/-- HOLDOVER (R349): no path leads to the grandmaster any more. -/
def execHoldover (t : Nat) (s : State) : Result :=
  let s := s.at t
  if s.clockRuns ∧ s.get 0x2400 0 = 0 ∧ s.get 0x2405 0 = 1 ∧ s.reaches (s.get 0x2406 0) = false then
    let s := { s with clock := { s.clock with parent := none, lostAt := some s.now } }
    .next ((s.put 0x2405 0 2).errorRecord { cls := 0x34, uKind := 0, unit := 0, detail := natLe 4 (s.get 0x2408 0) })
  else .next s

/-- This module has the lowest number of those that reach each other. -/
def State.lowestModule (s : State) : Bool := decide (s.moduleNo ≠ 0xFFFF) && s.others.all fun m => decide (s.moduleNo < m)

/-- GRANDMASTER_ELECTION (R346, R351): 1 ms after the grandmaster is lost, with no other source reachable, the reachable module
with the lowest number serves in free run. -/
def execGrandmasterElection (t : Nat) (s : State) : Result :=
  let s := s.at t
  let late := match s.clock.lostAt with | some x => decide (x + 1000000 ≤ s.now) | none => decide (s.get 0x2405 0 = 0)
  if s.clockRuns ∧ s.get 0x2400 0 = 0 ∧ late = true ∧ s.get 0x2405 0 ≠ 1 ∧ s.otherSource = false ∧ s.lowestModule = true then
    let s := { s with clock := { s.clock with parent := none, lostAt := none } }
    .next (((s.put 0x2405 0 3).put 0x2406 0 s.moduleNo).put 0x2407 0 0)
  else .next s

/-- Selects a house-clock source: a source other than the fabric makes this module the grandmaster (R346). -/
def State.setSource (s : State) (v : Nat) : State :=
  let s := s.put 0x2400 0 v
  let s := { s with clock := { s.clock with parent := none, lostAt := none, ppsLocked := false, ppsBad := 0 } }
  let s := (s.put 0x2405 0 (if v = 2 ∨ v = 3 then 3 else 0)).put 0x2407 0 0
  (s.put 0x2406 0 (if v = 0 then 0xFFFF else s.moduleNo)).flood

/-- SOURCE_CONFLICT (R346): two writes within one announce interval; the higher-numbered module returns to fabric. -/
def execSourceConflict (other t : Nat) (s : State) : Result :=
  let s := s.at t
  if s.clockRuns ∧ s.get 0x2400 0 ≠ 0 ∧ other < s.moduleNo then
    .next (((s.setSource 0).bump 0x240A 0).raise (Config.eventCode 3) 0x2400 0)
  else .next s

/-- A write of the house-clock source (R25, R346): the abort code, or the new state. -/
def State.writeSource (s : State) (v : Nat) : Except Nat State :=
  if v ≠ 0 ∧ s.otherSource = true then .error 0x08000032
  else if v = s.get 0x2400 0 then .ok s
  else .ok (s.setSource v)

end Sys2Proof.Machine
end

