-- ==== Sys2Proof/Machine/Intake.lean ====
section
/-! DEFINITION. Line ports, intake and egress: the commands of chapters Line ports and packet intake and
Egress queues, scheduling and shaping. -/

namespace Sys2Proof.Machine

open Sys2Proof.Bits

/-- Egress and intake run in RUN and DRAIN (R22, R315). -/
def State.forwards (s : State) : Bool := decide (s.dev.st = .run) || decide (s.dev.st = .drain)

/-- Lanes of a port mode (R28): the lanes beyond them are powered down and their transmitters squelched. -/
def modeLanes (mode : Nat) : Nat := [0, 4, 2, 4, 1, 2, 4, 1, 1, 1].getD mode 0

/-- Lane `l` is used in a port mode; every lane of a mode starts at L0. -/
def laneUsed (mode l : Nat) : Bool := decide (l < modeLanes mode)

/-- LINK_UP (R28, R33, R36): a port that is not disabled comes up; its sequence numbers start at 0. -/
def execLinkUp (p : Fin 4) (t : Nat) (s : State) : Result :=
  let s := s.at t
  if s.forwards && laneUsed (s.get 0x3001 (p.val + 1)) 0 then
    let s := s.put 0x3005 (p.val + 1) 1
    .next (s.modLine p.val fun l => { l with up := true, nextSeq := if l.up then l.nextSeq else 0 })
  else .next s

/-- LINK_DOWN (R304): link status falls to down; queues keep accepting packets. -/
def execLinkDown (p : Fin 4) (t : Nat) (s : State) : Result :=
  let s := s.at t
  .next ((s.put 0x3005 (p.val + 1) 0).modLine p.val fun l => { l with up := false })

/-- Feature vectors, and 64-byte words, that wait in a pipe's crossings to ARITH (R14). -/
def State.vectorsIn (s : State) (pipe : Nat) : Nat := (s.pkts.filter fun p => decide (p.stage = .vector) && decide (p.pipe = pipe)).length
def State.tapWordsIn (s : State) (pipe : Nat) : Nat :=
  (s.intake.tapQ.filter fun j => decide (j.pipe = pipe)).foldl (fun n j => n + tapWords (s.bankOf j.ra) j) 0

/-- A pipe stands still: its feature-vector crossing (64) or its tap crossing (256 words) is full (R14, R15). What left the pipe
before stands at the crossing's input. -/
def State.pipeStopped (s : State) (pipe : Nat) : Bool := decide (64 ≤ s.vectorsIn pipe) || decide (256 ≤ s.tapWordsIn pipe)

/-- 64-byte words of a frame in a crossing. -/
def frameWords (bs : Bytes) : Nat := (bs.length + 4 + 63) / 64

/-- FRAME_RECEIVED (R15, R18, R30, R31): `bytes` without the FCS; `t` is the instant of the start-frame
delimiter at the receive reference point. -/
def execFrameReceived (p : Fin 4) (bytes : Bytes) (fcsGood : Bool) (t : Nat) (s : State) : Result :=
  let s := s.at t
  let l := s.lineAt p.val
  let n := bytes.length + 4
  let u := p.val + 1
  if s.forwards = false ∨ l.up = false then .next s
  else if fcsGood = false then .next (s.bump 0x3011 u)
  else if n < 64 then .next (s.bump 0x3012 u)
  else if s.get 0x3004 u < n then .next (s.bump 0x3013 u)
  else if 512 < l.rx.foldl (fun k f => k + frameWords f.bytes) 0 + frameWords bytes then .next (s.bump 0x3010 u)
  else
    let stamp := ((s.now : Int) - toInt 16 (s.get 0x3008 u)).toNat
    .next ((s.bump 0x3014 u).modLine p.val fun l => { l with rx := l.rx ++ [⟨bytes, stamp⟩] })

/-- FRAME_SEQUENCED (R35, R36, R40, R52, R300): in PKT cycle `cycle` the sequencer serves port `p`, ports in order
from a start pointer that advances by one each cycle, at most one frame a port; a commit that is due takes effect before the cycle (R289). A port with 4,096 numbers
outstanding only counts the stall, in a cycle in which a frame of its waits (whether it counts without one the manual does not say:
DESIGN CHOICE, log entry 57); without room for the body, or while the catalogue front accepts no lookup (R75), intake stops. -/
def execFrameSequenced (p : Fin 4) (cycle t : Nat) (s : State) : Result :=
  let s := s.at t
  if s.frozen || s.catFull then .next s else
  let s := if s.intake.seqCycle < cycle then s.applyDue else s
  let pos := (p.val + 4 - cycle % 4) % 4
  let order := decide (s.intake.seqCycle < cycle) || (decide (s.intake.seqCycle = cycle) && decide (s.intake.seqPos ≤ pos))
  let l := s.lineAt p.val
  if s.forwards = false ∨ order = false then .next s
  else
    match l.rx with
    | [] => .next s
    | f :: rest =>
      let s := { s with intake := { s.intake with seqCycle := cycle, seqPos := pos + 1 } }
      if 4096 ≤ l.window.length then .next (s.bump 0x3801 (p.val + 1))
      else match s.placeBody f.bytes.length with
        | none => .next s
        | some burst =>
          let pkt : Pkt :=
            { pid := s.nextPid, port := p.val, seq := l.nextSeq, pipe := s.intake.pipeRot % 4, stamp := f.stamp,
              ra := s.intake.bank.acc, ma := s.get 0x6800 0, bytes := f.bytes, inBurst := burst, loc := if burst then 0 else s.bodyLoc s.nextPid }
          let s := if burst then s else s.countBody pkt.loc f.bytes.length
          let s := s.modLine p.val fun l =>
            { l with rx := rest, nextSeq := (l.nextSeq + 1) % 65536, window := l.window ++ [s.nextPid] }
          .next { s with
            pkts := s.pkts ++ [pkt]
            nextPid := s.nextPid + 1
            intake := { s.intake with pipeRot := (s.intake.pipeRot + 1) % 4 } }

/-- PACKET_CLASSIFIED (R42 to R50, R55 to R57, R67): the oldest packet in the parse pipes, whose latency is fixed; a pipe whose
crossings to ARITH are full stands still, and so do all while the catalogue front accepts no lookup (R15, R75). -/
def execPacketClassified (t : Nat) (s : State) : Result :=
  tapsFlushed <|
  let s := s.at t
  if s.frozen || s.catFull then .next s else
  match s.pkts.find? fun p => p.stage = .parse ∧ s.pipeStopped p.pipe = false with
  | none => .next s
  | some p =>
    let b := s.bankOf p.ra
    let p := { p with parsed := parseFrame b p.bytes }
    let s := { s with intake := { s.intake with
      parsedCount := s.intake.parsedCount.mapIdx fun i n => if i = p.pipe then n + 1 else n } }
    let (inOrder, s) := s.sequenceCheck p
    let p := if p.parsed.mal = 0 ∧ inOrder = false then { p with parsed := { p.parsed with mal := 5 } } else p
    if p.parsed.mal = 0 then .next (s.classifyPkt b p)
    else
      match s.malformed b p p.parsed.mal with
      | some s => .next s
      | none => .next (s.classifyPkt b p)

/-- ECPRI_STREAM_EXPIRE (R50): 1 s without a packet of the stream. -/
def execEcpriStreamExpire (p : Fin 4) (msgType id t : Nat) (s : State) : Result :=
  let s := s.at t
  if s.frozen then .next s else
  .next { s with intake := { s.intake with
    streams := s.intake.streams.filter fun x => !(x.is p.val msgType id && decide (x.last + 1000000000 ≤ s.now)) } }

/-- Releases completed packets of a port from the front of its window; a mirror copy goes ahead of its original
(R37, R39). -/
def State.releasePort (s : State) (port : Nat) : Nat → State
  | 0 => s
  | fuel + 1 =>
    match (s.lineAt port).window with
    | [] => s
    | pid :: rest =>
      match s.pkt? pid with
      | none => (s.modLine port fun l => { l with window := rest }).releasePort port fuel
      | some p =>
        match p.dec with
        | none => s
        | some d =>
          let s := (s.modLine port fun l => { l with window := rest }).dropPkt pid
          let s := match p.mirror with | some q => s.enqueue q p.item | none => s
          let s := match d with | .enqueue q => s.enqueue q p.item | .drop => s
          s.releasePort port fuel

/-- REORDER_RELEASE (R13, R37, R39, R304). -/
def execReorderRelease (p : Fin 4) (t : Nat) (s : State) : Result :=
  let s := s.at t
  if s.frozen then .next s else
  .next (s.releasePort p.val (s.lineAt p.val).window.length)

/-- REORDER_TIMEOUT (R41): the oldest outstanding packet has stood for the reorder timeout; its slot is skipped,
counted and reported (class 0x0C). -/
def execReorderTimeout (p : Fin 4) (t : Nat) (s : State) : Result :=
  let s := s.at t
  if s.frozen then .next s else
  match (s.lineAt p.val).window with
  | [] => .next s
  | pid :: rest =>
    match s.pkt? pid with
    | none => .next s
    | some k =>
      if k.dec.isNone ∧ k.stamp + s.get 0x3800 (p.val + 1) * 1000 ≤ s.now then
        let s := s.modLine p.val fun l => { l with window := rest, skipped := pid :: l.skipped }
        let s := s.bump 0x3802 (p.val + 1)
        .next (s.errorRecord { cls := 0x0C, uKind := 7, unit := p.val, detail := natLe 2 k.seq,
                               ruleAcc := some k.ra, modelAcc := some k.ma })
      else .next s

/-! ## Scheduler and shapers -/

/-- Counted length of a frame out of a port (R308). -/
def State.counted (s : State) (port : Nat) (bs : Bytes) : Nat :=
  ((frameLen bs : Int) + toInt 8 (s.get 0x7000 (port + 1))).toNat

/-- Rate (Mb/s) and burst (bytes) of a bucket: queue q, or group g at 8192 + g (R307). -/
def State.bucketRate (s : State) (k : Nat) : Nat := if k < 8192 then s.get 0x7104 (k + 1) else s.get 0x7021 (k - 8192 + 1)
def State.bucketBurst (s : State) (k : Nat) : Nat := if k < 8192 then s.get 0x7105 (k + 1) else s.get 0x7022 (k - 8192 + 1)

/-- Tokens of a bucket now, unit 2^-16 byte: they rise at rate/8 bytes a second, never above B (R307); a step of house time is no
time. -/
def State.tokensNow (s : State) (k : Nat) : Int :=
  let cap : Int := s.bucketBurst k * 65536
  match Sparse.read (fun _ => none) s.egr.tokens k with
  | none => cap
  | some (v, t0) => Min.min cap (v + (s.bucketRate k * (s.clock.elapsed - t0) * 8192 / 1000 : Nat))

/-- A shaper allows (R307): unshaped, or tokens at least 0. -/
def State.allows (s : State) (k : Nat) : Bool := decide (s.bucketRate k = 0) || decide (0 ≤ s.tokensNow k)

/-- Takes a counted length from a bucket, of an unshaped one too (R307). -/
def State.spend (s : State) (k n : Nat) : State :=
  { s with egr := { s.egr with
    tokens := Sparse.write (fun _ => none) s.egr.tokens k (some (s.tokensNow k - (n * 65536 : Nat), s.clock.elapsed)) } }

/-- The group bucket of a queue. -/
def State.queueGroup (s : State) (q : Nat) : Option Nat :=
  let g := s.get 0x7102 (q + 1)
  if g < 256 then some (8192 + g) else none

/-- A queue is eligible (R305): not empty, and both its shapers allow it. -/
def State.eligible (s : State) (q : Nat) : Bool :=
  !(s.queue q).isEmpty && s.allows q && (match s.queueGroup q with | some k => s.allows k | none => true)

/-- Non-empty queues of a port and level, in queue-number order. -/
def State.levelQueues (s : State) (port level : Nat) : List Nat :=
  (s.egr.q.map (·.1)).filter fun q => decide (s.queuePort q = port) && decide (s.get 0x7101 (q + 1) = level)

/-- The first of `qs` at or after `q`, else the first of all: whose turn comes next. -/
def nextTurn (qs : List Nat) (q : Nat) : Nat :=
  match qs.find? fun x => q ≤ x with
  | some x => x
  | none => qs.headD 0

/-- Deficit of a queue. -/
def State.deficit (s : State) (q : Nat) : Nat := Sparse.read (fun _ => 0) s.egr.deficit q

/-- Sets the deficit of a queue. -/
def State.setDeficit (s : State) (q n : Nat) : State :=
  { s with egr := { s.egr with deficit := Sparse.write (fun _ => 0) s.egr.deficit q n } }

/-- Sets whose turn it is. -/
def State.setTurn (s : State) (k q : Nat) (open_ : Bool) : State :=
  { s with egr := { s.egr with turn := Sparse.write (fun _ => (0, false)) s.egr.turn k (q, open_) } }

/-- Deficit-weighted round robin (R306) until one head is chosen: turns pass in queue-number order; an
ineligible queue keeps its deficit and gets no quantum. -/
def State.roundRobin (s : State) (port level : Nat) (qs : List Nat) : Nat → Option (Nat × State)
  | 0 => none
  | fuel + 1 =>
    let k := port * 8 + level
    let (q0, opened) := Sparse.read (fun _ => (0, false)) s.egr.turn k
    let q := nextTurn qs q0
    let opened := opened && decide (q = q0)
    if s.eligible q = false then
      (s.setTurn k (q + 1) false).roundRobin port level qs fuel
    else
      let s := if opened then s else s.setDeficit q (s.deficit q + s.get 0x7103 (q + 1) * 1024)
      match s.queue q with
      | [] => none
      | i :: _ =>
        let n := s.counted port i.bytes
        if n ≤ s.deficit q then some (q, (s.setDeficit q (s.deficit q - n)).setTurn k q true)
        else (s.setTurn k (q + 1) false).roundRobin port level qs fuel

/-- Sends the head of a queue into the line-transmit crossing (R305 to R308). -/
def State.sendHead (s : State) (port level q : Nat) : State :=
  match s.queue q with
  | [] => s
  | i :: rest =>
    let n := s.counted port i.bytes
    let s := (s.readBody i.inBurst i.loc i.bytes.length).spend q n
    let s := match s.queueGroup q with | some k => s.spend k n | none => s
    let s := (s.setQueue q rest).bumpBy 0x710C (q + 1) (frameLen i.bytes)
    let s := if rest.isEmpty then (s.setDeficit q 0).setTurn (port * 8 + level) (q + 1) false else s
    s.modLine port fun l => { l with tx := l.tx ++ [i] }

/-- The highest level with an eligible queue (R305). -/
def State.bestLevel (s : State) (port : Nat) : Option Nat :=
  [7, 6, 5, 4, 3, 2, 1, 0].find? fun v => (s.levelQueues port v).any fun q => s.eligible q

/-- SCHEDULER_SELECT (R301, R305 to R308): the crossing has room for the start of a frame. -/
def execSchedulerSelect (p : Fin 4) (t : Nat) (s : State) : Result :=
  let s := s.at t
  if s.frozen then .next s else
  let l := s.lineAt p.val
  if s.forwards = false ∨ 512 ≤ l.tx.foldl (fun k f => k + frameWords f.bytes) 0 then .next s
  else match s.bestLevel p.val with
    | none => .next s
    | some v =>
      let qs := s.levelQueues p.val v
      match s.roundRobin p.val v qs (qs.length * 64 + 64) with
      | none => .next s
      | some (q, s) => .next (s.sendHead p.val v q)

/-! ## Transmission and the transparent clock -/

/-- A frame is an IEEE 1588 event message: message types 0 to 3, over Ethernet or UDP port 319 (R65). The offset
of the message and, for UDP, of the UDP header and whether the IP is version 4. -/
def ptpEvent (bs : Bytes) : Option (Nat × Option (Nat × Bool)) :=
  let p := walk preloadGraph 0 bs 64 0 0 { limit := bs.length }
  if p.ptp then
    let o := p.finish - 34
    if 4 ≤ be bs o 1 % 16 then none
    else match p.ip4, p.ip6 with
      | some _, _ => if be bs (o - 6) 2 = 319 then some (o, some (o - 8, true)) else none
      | none, some _ => if be bs (o - 6) 2 = 319 then some (o, some (o - 8, false)) else none
      | none, none => some (o, none)
  else none

/-- Adds the residence time to the correctionField (2^-16 ns) and mends the UDP checksum, but for a zero one over
IPv4 (R66); a sum of zero is sent as 0xFFFF, since 0 says that there is none. -/
def addResidence (bs : Bytes) (o : Nat) (udp : Option (Nat × Bool)) (ns : Int) : Bytes :=
  let old := be bs (o + 8) 8
  let new := ofInt 64 (toInt 64 old + ns * 65536)
  let out := patch bs (o + 8) (natBe 8 new)
  match udp with
  | none => out
  | some (u, v4) =>
    let sum := be bs (u + 6) 2
    if v4 ∧ sum = 0 then out
    else
      let step (c k : Nat) : Nat := ocAdjust c (old / 2 ^ (16 * k) % 65536) (new / 2 ^ (16 * k) % 65536)
      let c := step (step (step (step sum 0) 1) 2) 3
      patch out (u + 6) (natBe 2 (if c = 0 then 0xFFFF else c))

/-- FRAME_TRANSMITTED (R18, R65, R66): the departure stamp, plus the egress latency correction, of a frame whose
link is up; a frame that entered the other port of its in-line pair has its residence time added. -/
def execFrameTransmitted (p : Fin 4) (t : Nat) (s : State) : Result :=
  let s := s.at t
  let l := s.lineAt p.val
  match l.tx with
  | [] => .next s
  | i :: rest =>
    if s.forwards = false ∨ l.up = false then .next s
    else
      let stamp := ((s.now : Int) + toInt 16 (s.get 0x3009 (p.val + 1))).toNat
      let pair := p.val / 2
      let inLine := decide (s.get 0x3000 0 = 0) || (decide (s.get 0x3000 0 = 2) && decide (pair = 0))
      let tc := inLine && s.flag 0x3007 (pair + 1) && decide (i.ingress = some (nxor p.val 1))
      let bytes := match ptpEvent i.bytes with
        | some (o, udp) => if tc then addResidence i.bytes o udp ((stamp : Int) - i.stamp) else i.bytes
        | none => i.bytes
      let s := s.modLine p.val fun l => { l with tx := rest }
      .next ((s.emit (.lineFrame p.val (bytes ++ List.replicate (60 - bytes.length) 0) stamp)).bump 0x3015 (p.val + 1))

/-! ## Neural verdicts and the hold pool -/

/-- NEURAL_VERDICT_APPLY (R109, R245, R311, R312): the oldest verdict out of the emit crossing. One for a packet no
longer held is discarded and counted as late. -/
def execNeuralVerdictApply (t : Nat) (s : State) : Result :=
  let s := s.at t
  if s.frozen then .next s else
  match s.egr.neural with
  | [] => .next s
  | v :: rest =>
    let s := { s with egr := { s.egr with neural := rest } }
    match s.pkts.find? fun p => p.pid = v.pid ∧ p.stage = .held with
    | none => .next (s.bump 0x7008 0)
    | some p =>
      let e := (s.bankOf p.ra).get (0x5080 + v.map) (v.cls + 1)
      let primary := fld e 63 61
      let d := if primary = 5 then Decision.drop else if primary = 2 then .enqueue (fld e 60 48 % 8192) else .enqueue (actQueue p.action)
      let p := { p with bytes := markBytes p.parsed p.bytes (fld e 47 46) (fld e 45 40) (fld e 39 37) }
      let s := s.setPkt p
      let code := if v.cls = 8 then 7 else actionCode primary (fld e 47 46) (bit e 36) (bit e 35)
      let s := s.writeback p 3 (if v.cls = 8 then 0 else v.cls) code
      let s := if bit e 36 then s.enqueue (actMirrorQ p.action) p.item else s
      let s := s.releaseHeld p d
      .next (if bit e 35 then s.verdictRecord p 3 code v.cls v.score v.map d.queue else s)

/-- HOLD_TIMEOUT (R312, R313). -/
def execHoldTimeout (pid t : Nat) (s : State) : Result :=
  let s := s.at t
  if s.frozen then .next s else
  match s.pkts.find? fun p => p.pid = pid ∧ p.stage = .held with
  | none => .next s
  | some p =>
    if p.heldAt + s.get 0x7002 0 * 1000 ≤ s.now then .next ((s.bump 0x7007 0).releaseUndetermined p) else .next s

/-! ## Writes of bindings and shapers (R302, R307, R309) -/

/-- A write of a queue port, queue level, queue group or group port (R302). -/
def State.setBinding (s : State) (idx sub v : Nat) : Except Nat State :=
  let bad :=
    if idx = 0x7100 then
      let g := s.get 0x7102 sub
      decide (3 < v) || (decide (g < 256) && decide (s.get 0x7020 (g + 1) ≠ v))
    else if idx = 0x7101 then decide (7 < v)
    else if idx = 0x7102 then decide (v ≠ 0xFFFF) && (decide (255 < v) || decide (s.get 0x7020 (v + 1) ≠ s.get 0x7100 sub))
    else decide (3 < v) || (s.dict.any fun e =>
      decide (e.1 / 65536 = 0x7102) && decide (e.2 = sub - 1) && decide (s.get 0x7100 (e.1 % 65536) ≠ v))
  if bad then .error 0x0800004E else .ok (s.put idx sub v)

/-- A write of a rate or burst (R307, R309): the tokens now are kept and clipped to the new burst; rate 0 sets
them to B. -/
def State.setShaper (s : State) (idx sub v : Nat) : Except Nat State :=
  let isRate := decide (idx = 0x7021) || decide (idx = 0x7104)
  let k := if idx = 0x7021 ∨ idx = 0x7022 then 8192 + (sub - 1) else sub - 1
  if (isRate ∧ 400000 < v) ∨ (isRate = false ∧ (v < 64 ∨ 16777216 < v)) then .error 0x0800004F
  else
    let held := s.tokensNow k
    let s := s.put idx sub v
    let cap : Int := s.bucketBurst k * 65536
    let e : Option (Int × Nat) := if isRate ∧ v = 0 then none else some (Min.min held cap, s.clock.elapsed)
    .ok { s with egr := { s.egr with tokens := Sparse.write (fun _ => none) s.egr.tokens k e } }

end Sys2Proof.Machine
end

