-- ==== Sys2Proof/Machine/Reads.lean ====
section
/-! DEFINITION. What a READ returns (R8, R68, R89, R114, R134, R167, R209, R255, R278, R299, R325, R352, R374, R376, R382, R386,
R389, R427, R458, R480, R505): objects whose value is computed from the state, and the rest from the dictionary. -/

namespace Sys2Proof.Machine

open Sys2Proof.Bits

/-! ## Identity -/

/-- A number below 256 in decimal, ASCII. -/
def ascii (n : Nat) : Bytes :=
  let d (x : Nat) : Byte := BitVec.ofNat 8 (48 + x % 10)
  if 100 ≤ n then [d (n / 100), d (n / 10), d n] else if 10 ≤ n then [d (n / 10), d n] else [d n]

/-- Firmware version in the form "3.minor.patch" (R8), as the STR object's value. -/
def versionStr (v : Nat) : Nat :=
  leNat (ascii (fld v 23 16) ++ [0x2E] ++ ascii (fld v 15 8) ++ [0x2E] ++ ascii (fld v 7 0))

/-- Thermal design power of the grade in W (R3). -/
def Grade.tdp (g : Grade) : Nat := if g.sixteen then 230 else 175

/-- Physical array of logical array `a` (R207): on a DW-12 the enabled ones in ascending order. -/
def Mfg.physical (m : Mfg) (a : Nat) : Nat :=
  if m.grade.sixteen then a else ((List.range 16).filter fun k => !m.fused.contains k).getD a 0

/-- Objects of the 0x1000 range. -/
def State.readIdentity (s : State) (idx sub : Nat) : Option Nat :=
  match idx, sub with
  | 0x1020, 2 => some (leNat s.mfg.grade.name)
  | 0x1020, 4 => some (versionStr (fwVersion s.runningFw))
  | 0x1021, 1 => some (2 ^ s.arrays - 1)
  | 0x1021, 2 => some s.arrays
  | 0x1021, 3 => some s.mfg.grade.tdp
  | 0x1022, 2 => some (leNat s.mfg.serialDigits)
  | 0x1022, 3 => some s.mfg.boardRev
  | 0x1022, 4 => some s.mfg.romVersion
  | 0x1022, 5 => some (s.flash.running.getD s.flash.preferred)
  | 0x1023, 1 => some s.mfg.mgmtMac
  | 0x1023, 2 => some s.mfg.lineMac
  | _, _ => none

/-! ## Management, state, line ports and intake -/

/-- Groups that hold staged values (0x2010:00). -/
def State.stagedGroups (s : State) : Nat :=
  let some_ (g : Nat) : Nat := if s.staged.any fun e => decide (groupOf (e.1 / 65536) (e.1 % 65536) = some g) then 2 ^ g else 0
  (if s.intake.staged.isSome then 1 else 0) + some_ 1 + some_ 2 + some_ 3

/-- Curtain state of 0x3006:00. -/
def State.curtainState (s : State) : Nat :=
  let open_ (e : Elem) (n : Nat) : Nat := match e with | .isOpen => n | .closed => 0 | .opening => 0 | .closing => 0
  open_ s.pwr.pair01 1 + open_ s.pwr.pair23 2 + open_ s.pwr.ring 4

/-- The rule that the selector names, in the active bank (R68). -/
def State.selectedRule (s : State) : Rule := Sparse.read (fun _ => {}) s.intake.bank.rules (s.get 0x3810 1)

/-- Value and mask of a rule as the 80 octets of its object, each with its first octet highest. -/
def Rule.octets (r : Rule) : Nat := leNat (natBe 40 r.value ++ natBe 40 r.mask)

/-- Objects of 0x1800 to 0x3FFF. -/
def State.readManagement (s : State) (idx sub : Nat) : Option Nat :=
  match idx, sub with
  | 0x1802, 0 => some s.ringState
  | 0x1830, 0 => some s.odp.sessions.length
  | 0x2000, 0 => some ((s.dev.st.code?).getD 0)
  | 0x2006, 0 => some (if s.flash.replacement then 1 else 0)
  | 0x2010, 0 => some s.stagedGroups
  | 0x2403, 0 => some s.now
  | 0x3006, 0 => some s.curtainState
  | 0x3810, 2 => some s.selectedRule.octets
  | 0x3810, 3 => some s.selectedRule.pv
  | 0x3810, 4 => some s.selectedRule.action
  | 0x3810, 5 => some (Sparse.read (fun _ => 0) s.intake.bank.hits (s.get 0x3810 1))
  | _, _ => none

/-! ## Trees, arrays, ledger and library -/

/-- A field of the active model. -/
def State.ofActive (s : State) (f : Model → Nat) : Nat := match s.lib.active with | some m => f m | none => 0

/-- A channel record in the layout of R166. -/
def Rec.bytes (r : Rec) : Bytes :=
  natLe 12 r.img ++ natLe 4 r.step ++ ((List.range 8).flatMap fun i => natLe 4 (r.hist.getD i nan32)) ++ natLe 4 r.smax ++
  natLe 4 r.clips ++ natLe 4 r.elems ++ natLe 2 (r.step % 16 * 512 + r.cur % 512) ++ natLe 1 r.run ++
  natLe 1 ((if r.bad then 2 else 0) + (if r.fall then 1 else 0))

/-- The record that the probe objects name; one of an absent array or of no model reads all 0. -/
def State.probedRecord (s : State) : Nat :=
  match (s.arrAt (s.get 0x5808 1)).recs.find? fun e => e.1 = s.get 0x5808 2 with
  | some e => leNat e.2.bytes
  | none => 0

/-- Last progress of an array's running list, or of the last that ran. -/
def State.lastProgress (s : State) (a : Nat) : Nat :=
  match (s.arrAt a).run with
  | some r => r.progress
  | none => s.get (0x8850 + a) 3

/-- Objects of 0x4000 to 0x6FFF. -/
def State.readCompute (s : State) (idx sub : Nat) : Option Nat :=
  if 0x4830 ≤ idx ∧ idx ≤ 0x483F ∧ sub = 0 then some (s.ofActive fun m => m.ens.getD (idx - 0x4830) 0)
  else if idx = 0x4840 ∧ sub = 0 then some (s.ofActive Model.featSha)
  else if idx = 0x4841 ∧ 1 ≤ sub ∧ sub ≤ 4 then some (s.ofActive fun m => m.treeSha.getD (sub - 1) 0)
  else if 0x5010 ≤ idx ∧ idx ≤ 0x501F ∧ sub = 1 then some (s.mfg.physical (idx - 0x5010))
  else if 0x5070 ≤ idx ∧ idx ≤ 0x507F ∧ sub = 3 then
    some (Sparse.read (fun _ => 0) (s.arrAt (idx - 0x5070)).log (s.get idx 2))
  else if idx = 0x5808 ∧ sub = 3 then some s.probedRecord
  else if idx = 0x6011 ∧ 1 ≤ sub ∧ sub ≤ 64 then some (s.correctable (sub - 1) % 2 ^ 64)
  else if idx = 0x6013 ∧ 1 ≤ sub ∧ sub ≤ 64 then some (s.channelSum s.memc.rd (sub - 1))
  else if idx = 0x6014 ∧ 1 ≤ sub ∧ sub ≤ 64 then some (s.channelSum s.memc.wr (sub - 1))
  else if idx = 0x680C then match sub with
    | 1 => some ((s.lib.retiring.map fun m => s.modelPackets m.acc).getD 0)
    | 2 => some ((s.lib.retiring.map fun m => s.modelBuffers m.acc).getD 0)
    | 3 => some ((s.lib.retiring.map fun m => s.modelLists m.acc).getD 0)
    | 4 => some ((s.intake.retiring.map fun b => if b.acc = 0 then 0 else s.rulePackets b.acc).getD 0)
    | _ => none
  else none

/-! ## Egress, reliability, trust, power and domain bookkeeping -/

/-- Bytes of frames queued for an egress port in burst SRAM or in the packet buffer. -/
def State.portBytes (s : State) (port : Nat) (burst : Bool) : Nat :=
  s.egr.q.foldl (fun n e =>
    if s.queuePort e.1 = port then e.2.foldl (fun n i => if i.inBurst = burst then n + i.bytes.length else n) n else n) 0

/-- Delay of a queue's head frame in ns. -/
def State.headDelay (s : State) (q : Nat) : Nat := match s.queue q with | [] => 0 | i :: _ => s.now - i.enq

/-- Objects of 0x7000 to 0x8FFF. -/
def State.readEgress (s : State) (idx sub : Nat) : Option Nat :=
  if idx = 0x7003 ∧ sub = 0 then some s.heldCount
  else if idx = 0x7004 ∧ sub = 0 then some (s.heldBytes true)
  else if idx = 0x7005 ∧ sub = 0 then some (s.heldBytes false)
  else if idx = 0x7013 ∧ 1 ≤ sub then some (s.portBytes (sub - 1) true)
  else if idx = 0x7014 ∧ 1 ≤ sub then some (s.portBytes (sub - 1) false)
  else if idx = 0x7107 ∧ 1 ≤ sub then some (queueBytes (s.queue (sub - 1)))
  else if idx = 0x7108 ∧ 1 ≤ sub then some (s.queue (sub - 1)).length
  else if idx = 0x7109 ∧ 1 ≤ sub then some (s.headDelay (sub - 1))
  else if idx = 0x8013 ∧ sub = 0 then some s.flash.dieResult
  else if idx = 0x8014 ∧ sub = 0 then some s.flash.dieTime
  else if 0x8850 ≤ idx ∧ idx ≤ 0x885F ∧ sub = 3 then some (s.lastProgress (idx - 0x8850))
  else none

/-- Objects of 0x9000 to 0x97FF. -/
def State.readTrust (s : State) (idx sub : Nat) : Option Nat :=
  match idx, sub with
  | 0x9000, 0 => some s.trust.enforcement
  | 0x9001, 1 => some s.mfg.vendorHash0
  | 0x9001, 2 => some s.mfg.vendorHash1
  | 0x9002, 0 => some (if s.trust.vendor0Revoked then 1 else 0)
  | 0x9003, 0 => some s.trust.ownerHash
  | 0x9006, c + 1 => some (s.counter c)
  | 0x9008, 0 => some s.flash.preferred
  | 0x900B, 0 => some (if s.flash.onTrial then 1 else 0)
  | 0x9018, 0 => some s.mfg.identityPub
  | 0x9019, 1 => some s.mfg.certLen
  | 0x9019, 2 => some s.mfg.cert
  | 0x901A, 0 => some (leNat s.attestCert)
  | 0x9020, 0 => some s.trust.challenge
  | 0x9022, 0 => some s.trust.level
  | 0x9025, 0 => some s.mfg.romDigest
  | _, _ => none

/-- Time at a thermal step, with the stay under way (0x9809:00). -/
def State.throttledTime (s : State) : Nat :=
  s.get 0x9809 0 + (match s.pwr.throttledFrom with | some t => s.now - t | none => 0)

/-- State code of a firmware slot (0xA002). -/
def State.slotCode (s : State) (k : Nat) : Nat := if s.flash.running = some k then 2 else (s.fwSlot k).code

/-- Objects of 0x9800 to 0xAFFF. -/
def State.readPower (s : State) (idx sub : Nat) : Option Nat :=
  match idx, sub with
  | 0x9801, 0 => some s.pwr.vin
  | 0x9809, 0 => some s.throttledTime
  | 0x980A, 0 => some (s.modelStoreFree / 0x100000)
  | 0xA002, 1 => some (s.slotCode 0)
  | 0xA002, 2 => some (s.slotCode 1)
  | 0xA003, 1 => some (if s.flash.slotA.good then versionStr (fwVersion s.flash.slotA) else 0)
  | 0xA003, 2 => some (if s.flash.slotB.good then versionStr (fwVersion s.flash.slotB) else 0)
  | 0xA021, 0 => some (if s.obs.dump then s.obs.dumpTime else 0)
  | 0xA031, 0 => some s.flash.journal.length
  | 0xA041, 0 => some s.flash.scanState
  | 0xA042, 0 => some s.flash.scanVersion
  | _, _ => none

/-- The value of an object that the state computes, if it is one. -/
def State.readComputed (s : State) (idx sub : Nat) : Option Nat :=
  if idx < 0x1800 then s.readIdentity idx sub
  else if idx < 0x4000 then s.readManagement idx sub
  else if idx < 0x7000 then s.readCompute idx sub
  else if idx < 0x9000 then s.readEgress idx sub
  else if idx < 0x9800 then s.readTrust idx sub
  else s.readPower idx sub

/-- A quantity that a sensor measures (R505). -/
def isMeasured (idx : Nat) : Bool := decide (0x9802 ≤ idx) && decide (idx ≤ 0x9806)

/-- The value of an object that reading does not change (R374, R376): computed, or its value in force. -/
def State.valueOf (s : State) (idx sub : Nat) : Nat :=
  match s.readComputed idx sub with
  | some v => v
  | none =>
    if sub = 0 ∧ (objRow? idx 0).isNone then entryCount idx
    else s.get idx sub

/-- Reads an object. -/
def State.readValue (s : State) (idx sub : Nat) : Nat × State :=
  if isMeasured idx ∧ 1 ≤ sub + (if idx ≤ 0x9803 then 1 else 0) then s.measure idx sub else (s.valueOf idx sub, s)

/-- Bytes that a READ of an object of the type returns. -/
def readBytes (row : ObjRow) (v : Nat) : Bytes := natLe (tySize row.ty) v

end Sys2Proof.Machine
end

