-- ==== Sys2Proof/Machine/Observability.lean ====
section
/-! DEFINITION. Observability as commands (R431 to R435, R444, R451 to R457): samples, host markers, hangs, freezes and dumps. -/

namespace Sys2Proof.Machine

open Sys2Proof.Bits

/-! ## Samples (R435) -/

/-- A value of a sample line: an object, a count that no object shows (a free value, log entry 19), the packets parsed by a
pipe, or 0. -/
inductive Sampled where
  | obj (idx sub : Nat)
  | unseen
  | parsed (pipe : Nat)
  | zero
  deriving DecidableEq, Repr

/-- Takes one value. -/
def State.sampled (s : State) : Sampled → Nat × State
  | .obj idx sub => s.readValue idx sub
  | .unseen => s.fresh
  | .parsed p => (s.intake.parsedCount.getD p 0, s)
  | .zero => (0, s)

/-- One line of a sample: group, unit kind and unit of its header, unit of its payload, line within the unit, values. -/
structure SampleLine where
  group : Nat
  uKind : Nat
  unit  : Nat
  line  : Nat
  vals  : List Sampled
  deriving DecidableEq, Repr

/-- Lines of the units `0 .. n-1` of a group. -/
def unitLines (group uKind n : Nat) (lines : Nat → List (List Sampled)) : List SampleLine :=
  (List.range n).flatMap fun u => ((lines u).zip (List.range 8)).map fun x => ⟨group, uKind, u, x.2, x.1⟩

/-- The lines that a group writes. -/
def State.groupLines (s : State) (g : Nat) : List SampleLine :=
  match g with
  | 0 => [⟨0, 0, 0, 0, List.replicate 5 .unseen⟩]
  | 1 => unitLines 1 7 4 fun p =>
      [[.obj 0x3014 (p + 1), .obj 0x3015 (p + 1), .obj 0x3010 (p + 1), .obj 0x3011 (p + 1), .unseen],
       [.obj 0x3801 (p + 1), .obj 0x3802 (p + 1), .obj 0x3803 (p + 1), .unseen, .unseen]]
  | 2 => unitLines 2 0 4 fun p => [[.unseen, .unseen, .unseen, .unseen, .parsed p]]
  | 3 => unitLines 3 4 1 fun _ =>
      [[.obj 0x4001 0, .obj 0x4002 0, .obj 0x4003 0, .obj 0x4006 0, .obj 0x4007 0],
       [.obj 0x4008 0, .obj 0x4009 0, .obj 0x400A 0, .unseen, .unseen]]
  | 4 => unitLines 4 2 4 fun b => [[.obj 0x4800 (b + 1), .obj 0x4801 (b + 1), .unseen, .unseen, .zero]]
  | 5 => unitLines 5 1 s.arrays fun a =>
      [(List.range 5).map fun i => .obj (0x5010 + a) (3 + i),
       ((List.range 4).map fun i => .obj (0x5010 + a) (8 + i)) ++ [.unseen],
       [.unseen, .unseen, .unseen, .unseen, .obj (0x5040 + a) 3]]
  | 6 => unitLines 6 5 64 fun c => [[.obj 0x6012 (c + 1), .obj 0x6013 (c + 1), .obj 0x6014 (c + 1), .obj 0x6011 (c + 1), .unseen]]
  | 7 => unitLines 7 6 16 fun f => [[.obj 0x7814 (f + 1), .obj 0x7815 (f + 1), .obj 0x7816 (f + 1), .unseen, .unseen]]
  | 8 => (List.range (s.get 0x8802 2)).map fun k =>
      let q := s.get 0x8802 1 + k
      ⟨8, 0, q, 0, [0x7107, 0x7108, 0x7109, 0x710A, 0x710B].map fun i => .obj i (q + 1)⟩
  | 9 => [⟨9, 0, 0, 0, [0x7003, 0x7004, 0x7005, 0x7006, 0x7007].map fun i => .obj i 0⟩]
  | _ => []

/-- The lines that the sample group mask selects. -/
def State.sampleLines (s : State) : List SampleLine :=
  ((List.range 10).filter fun g => bit (s.get 0x8801 0) g).flatMap s.groupLines

/-- The five values of a line. -/
def State.sampleValues (s : State) : List Sampled → Bytes × State
  | [] => ([], s)
  | v :: vs =>
    let (x, s) := s.sampled v
    let (b, s) := s.sampleValues vs
    (natLe 8 x ++ b, s)

/-- Writes one SAMPLE record of strobe time `time`; the header's unit index has eight bits. -/
def State.writeSample (time : Nat) (s : State) (l : SampleLine) : State :=
  let (b, s) := s.sampleValues l.vals
  s.logRecordAt time 5 0x01 l.uKind (l.unit % 256) (natLe 1 l.group ++ natLe 1 l.line ++ natLe 2 l.unit ++ natLe 4 0 ++ b)

/-- The states in which the strobe fires (R431). -/
def State.strobes (s : State) : Bool :=
  match s.dev.st with
  | .prepare => true
  | .run => true
  | .drain => true
  | .test => true
  | .off => false
  | .reset => false
  | .boot => false
  | .fault => false

/-- A strobe that a freeze holds back is skipped and counted (R434). -/
def State.skipStrobe (s : State) (time : Nat) : State :=
  let x := match s.obs.skipped with | some (f, _, n) => (f, time, n + 1) | none => (time, time, 1)
  ({ s with obs := { s.obs with skipped := some x } }).bump 0x8804 0

/-- The gap record of the strobes skipped, when sampling resumes. -/
def State.coverSkipped (s : State) : State :=
  match s.obs.skipped with
  | some (f, l, n) => ({ s with obs := { s.obs with skipped := none } }).gapRecord 1 4 0 0 n f l
  | none => s

/-- Takes a sample at strobe time `time` (R432, R435, R438). -/
def State.takeSample (s : State) (time : Nat) : State :=
  let s := s.coverSkipped
  let lines := s.sampleLines
  let s := lines.foldl (State.writeSample time) s
  let last := natLe 4 lines.length ++ natLe 2 (s.get 0x8801 0) ++ natLe 2 0 ++ natLe 8 s.now
  (s.logRecordAt time 5 0x02 0 0 last).bump 0x8803 0

/-- SAMPLING_STROBE (R431, R434): at a multiple of the sampling interval. -/
def execSamplingStrobe (t : Nat) (s : State) : Result :=
  let s := s.at t
  let step := s.get 0x8800 0 * 1000
  let time := s.now / step * step
  if s.strobes = true ∧ s.obs.lastStrobe < time then
    let s := { s with obs := { s.obs with lastStrobe := time } }
    if s.frozen then .next (s.skipStrobe time) else .next (s.takeSample time)
  else .next s

/-! ## Host markers (R444, R445) -/

/-- A write of the host-marker object. The accession of a marker that no cue wrote is a free value (log entry 2). -/
def State.hostMarker (s : State) (v : Nat) : State :=
  let (acc, s) := s.fresh
  let un := bit v 16
  let s := s.logRecord 4 (if un then 0x11 else 0x10) 0 0 (markBody (v % 65536) 0xFF 2 0 (acc % 65536) [])
  if un = false ∧ v % 65536 = s.get 0x8810 3 then s.tracePulse else s

/-- HOST_MARK (R444). -/
def execHostMark (r : Req) (id : Nat) (s : State) : Result :=
  .next ((s.at r.t).serveWrite r 0x8811 0 (natLe 4 (id % 65536)) fun s => .ok (s.hostMarker (id % 65536)))

/-- HOST_UNMARK (R444). -/
def execHostUnmark (r : Req) (id : Nat) (s : State) : Result :=
  .next ((s.at r.t).serveWrite r 0x8811 0 (natLe 4 (65536 + id % 65536)) fun s => .ok (s.hostMarker (65536 + id % 65536)))

/-! ## Hangs (R451, R452) -/

/-- The list waits at a HOLD whose target lies in the future, which counts as progress. -/
def Run.holding (r : Run) (now : Nat) : Bool := match r.block with | .hold target => decide (now < target) | _ => false

/-- Cause byte of a hang record; that of a list that waits for none of the five is not stated. -/
def Run.hangCause (r : Run) (other : Nat) : Nat :=
  match r.block with
  | .wait _ _ _ => 0
  | .fence _ => 1
  | _ => match r.fly.getLast? with
    | some f => match f.cls with
      | .stream => 2
      | .drain => 3
      | .callslip => 4
      | .stage => other
      | .shelve => other
      | .emit => other
    | none => other

/-- Detail of a hang record (R452). -/
def State.hangDetail (s : State) (r : Run) (cause freezeTime : Nat) : Bytes :=
  let (light, n) := match r.block with | .wait l n _ => (l, n) | _ => (0xFFFF, 0)
  let count := if light < 2048 then s.light light else 0
  natLe 1 r.ring ++ natLe 1 cause ++ natLe 2 light ++ natLe 2 count ++ natLe 2 n ++ natLe 8 r.progress ++ natLe 8 freezeTime

/-- A hang is declared (R452): the record and its event, the trace-trigger pulse, the dump; without a freeze the list is
abandoned at once. -/
def State.declareHang (s : State) (a : Nat) (r : Run) : State :=
  let taken := bit (s.get 0x8840 0) 0 && !s.dumpBlocked
  let (other, s) := s.fresh
  let recNo := s.flash.recNo
  let addr := s.posAddr a r r.last
  let s := (s.bump (0x8850 + a) 2).errorRecord
    { cls := 0x0D, uKind := 1, unit := a, detail := s.hangDetail r (r.hangCause (other % 256)) (if taken then s.now else 0),
      cueAddr := addr, cueSeq := r.last.seq, opcode := cueWord (s.cueAt a addr) 0 % 256, modelAcc := some r.acc,
      flags := if taken then 8 else 0 }
  let s := s.tracePulse.requestDump 0 recNo (some a)
  if taken then s else s.abandonRun a 3 r

/-- HANG_DECLARED (R451): the running list has made no progress for the array's watchdog time. -/
def execHangDeclared (a : Fin 16) (t : Nat) (s : State) : Result :=
  let s := s.at t
  let limit := s.get (0x8850 + a.val) 1
  match (s.arrAt a.val).run with
  | none => .next s
  | some r =>
    let waits := match s.obs.freeze with | some f => f.hang = some a.val || f.frozen.isSome | none => false
    if limit = 0 ∨ s.coresRun = false ∨ r.holding s.now = true ∨ waits = true ∨ s.now < r.progress + limit * 1000 then .next s
    else .next (s.declareHang a.val r)

/-! ## Freezes and dumps (R453 to R456) -/

/-- A write of the freeze request: at the written house time, 0 or a time past at once. -/
def State.freezeRequest (s : State) (v : Nat) : State :=
  { s with obs := { s.obs with freezeAt := some (if v = 0 then s.now else v) } }

/-- FREEZE_REQUEST (R453, R454): a WRITE of 0x8842:00. -/
def execFreezeRequest (r : Req) (at_ : Nat) (s : State) : Result :=
  .next ((s.at r.t).serveWrite r 0x8842 0 (natLe 8 at_) fun s => .ok (s.freezeRequest (at_ % 2 ^ 64)))

/-- The host's freeze request falls due: it is taken, or lost as R453 gives. -/
def State.hostFreeze (s : State) : State :=
  match s.obs.freezeAt with
  | some x =>
    if x ≤ s.now then
      let s := { s with obs := { s.obs with freezeAt := none } }
      let lost := s.dumpBlocked
      let s := s.takeDump 3 0 none
      if lost then s else { s with obs := { s.obs with freeze := s.obs.freeze.map fun (f : Freeze) => { f with at_ := x } } }
    else s
  | none => s

/-- FREEZE (R454): the wave of a freeze whose request time is reached. -/
def execFreeze (t : Nat) (s : State) : Result :=
  let s := (s.at t).hostFreeze
  match s.obs.freeze with
  | some f =>
    if f.frozen.isNone ∧ f.at_ ≤ s.now then .next { s with obs := { s.obs with freeze := some { f with frozen := some s.now } } }
    else .next s
  | none => .next s

/-- The first record of each source, and the rest. -/
def firstOfEach : List LogRec → List (Nat × Nat) → List LogRec × List LogRec
  | [], _ => ([], [])
  | r :: rs, seen =>
    if seen.contains (r.uKind, r.unit) then
      let (f, l) := firstOfEach rs seen
      (f, r :: l)
    else
      let (f, l) := firstOfEach rs ((r.uKind, r.unit) :: seen)
      (r :: f, l)

/-- Records of a class as the writer takes them: the sources in rotation, each one's in order (R439). -/
def inRotation : Nat → List LogRec → List LogRec
  | 0, l => l
  | n + 1, l =>
    let (f, l) := firstOfEach l []
    f ++ inRotation n l

/-- Writes the records that waited in the FIFOs, the highest class first (R439). -/
def State.drainFifos (s : State) : State :=
  let l := s.obs.fifo
  let s := { s with obs := { s.obs with fifo := [] } }
  [1, 2, 3, 4, 5].foldl (fun s c => (inRotation l.length (l.filter fun r => decide (r.cls = c))).foldl State.logPlace s) s

/-- The DUMP record (R438): cause, request time, first and last freeze, bytes. -/
def dumpBody (f : Freeze) (first last : Nat) : Bytes :=
  natLe 1 f.cause ++ natLe 7 0 ++ natLe 8 f.at_ ++ natLe 8 first ++ natLe 8 last ++ natLe 4 dumpSize

/-- The dump is stored and the units thaw (R455): its bytes are a free value (log entry 2), the last unit froze at most 71 ns
after the first; the list a hang stopped is abandoned (R452), and doorbells that waited act. -/
def State.storeDump (s : State) (f : Freeze) (first : Nat) : State :=
  let s := s.memFill s.dumpBase dumpSize (some s.free)
  let (d, s) := s.fresh
  let s := ({ s with obs := { s.obs with dump := true, dumpTime := f.at_, freeze := none } }).bump 0x8843 0
  let s := s.logWrite false ⟨1, 0x60, 0, 0, s.now, dumpBody f first (first + d % 72), false⟩
  let s := s.drainFifos
  let s := match f.hang with
    | some a => match (s.arrAt a).run with
      | some r => s.abandonRun a 3 r
      | none => s
    | none => s
  s.ringBells

/-- DUMP_WRITTEN (R455). -/
def execDumpWritten (t : Nat) (s : State) : Result :=
  let s := s.at t
  match s.obs.freeze with
  | some f => match f.frozen with
    | some first => .next (s.storeDump f first)
    | none => .next s
  | none => .next s

/-- A write of the hang-dump clear object (R389, R391). -/
def State.dumpClear (s : State) (v : Nat) : Except Nat State :=
  if v = 0 then .ok s
  else if s.odp.transfers.any fun x => x.upload && decide (x.idx = 0xA020) then .error 0x08000010
  else .ok { s with obs := { s.obs with dump := false, dumpTime := 0 } }

/-- HANG_DUMP_CLEAR (R389): a WRITE of 1 to 0xA022:00. -/
def execHangDumpClear (r : Req) (s : State) : Result :=
  .next ((s.at r.t).serveWrite r 0xA022 0 [1] fun s => s.dumpClear 1)

end Sys2Proof.Machine
end

