-- ==== Sys2Proof/Machine/Effects.lean ====
section
/-! DEFINITION. What a WRITE of an object does beyond the checks of R364 steps 1 to 8: the rules of the object's own chapter, which
answer the new state or an abort code (R364 step 9, R374, R376). -/

namespace Sys2Proof.Machine

open Sys2Proof.Bits

/-! ## The rule group (R53, R54, R68, R91, R114, R148, R288, R471, R476) -/

/-- Why the rule group's object may not be written now: the abort code, or none. -/
def State.ruleRefusal (s : State) (idx : Nat) : Option Nat :=
  if idx = 0x6809 then (if s.lib.schedRule.isSome then some 0x0800004D else none)
  else if bit s.trust.enforcement 4 then some 0x02000002
  else if 0x4810 ≤ idx ∧ idx ≤ 0x481F ∧ s.treesHold = true then some 0x0800003A
  else s.bankBusy

/-- A rule from the 80 octets of its object, each number's first octet highest (log entry 22). -/
def Rule.withOctets (r : Rule) (v : Nat) : Rule :=
  let b := natLe 80 v
  { r with value := leNat (slice b 0 40).reverse, mask := leNat (slice b 40 40).reverse }

/-- A rule with one of its objects written. -/
def Rule.write (r : Rule) (sub v : Nat) : Rule :=
  if sub = 2 then r.withOctets v else if sub = 3 then { r with pv := v } else { r with action := v }

/-- The staged bank with an object written. One written so is no image's any more; its commit time is no part of an image (R288). -/
def Bank.write (b : Bank) (sel idx sub v : Nat) : Bank :=
  let b := if idx = 0x6809 then b else { b with fromImage := none, image := [] }
  if idx = 0x3810 then
    { b with rules := Sparse.write (fun _ => ({} : Rule)) b.rules sel ((Sparse.read (fun _ => ({} : Rule)) b.rules sel).write sub v) }
  else { b with objs := Sparse.write objDefault b.objs (objKey idx sub) v }

/-- The two buffers of a descriptor lie within the wings (R148). -/
def Bank.tapFits (b : Bank) (d : Nat) : Bool := decide (b.tapBase d + 2 * b.tapSize d ≤ wingsBytes)

/-- A write of an object of the rule group is staged. A tap's target is a logical array of the grade (R5). -/
def State.ruleWrite (s : State) (idx sub v : Nat) : Except Nat State :=
  match s.ruleRefusal idx with
  | some c => .error c
  | none =>
    let b := s.stagedBank.write (s.get 0x3810 1) idx sub v
    if idx = 0x3820 ∧ (sub = 1 ∨ sub = 2 ∨ sub = 4) ∧ v = 0 then .error 0x02000006
    else if 0x3900 ≤ idx ∧ idx ≤ 0x39FF ∧ sub = 2 ∧ s.hasArray v = false then .error 0x02000006
    else if 0x3900 ≤ idx ∧ idx ≤ 0x39FF ∧ b.tapFits (idx - 0x3900) = false then .error 0x0800003C
    else .ok { s with intake := { s.intake with staged := some b } }

/-- A write of attach mode, port mode, FEC or electrical interface (R28, R33). A pair that goes out of use closes and one that comes
into use opens with the in-line gate switch; a port whose mode changes brings its link up anew. -/
def State.lineWrite (s : State) (idx sub v : Nat) : State :=
  let old := s.get idx sub
  let s := s.put idx sub v
  if idx = 0x3000 then s.setPairs
  else if 0x3001 ≤ idx ∧ idx ≤ 0x3003 ∧ v ≠ old then (s.put 0x3005 sub 0).modLine (sub - 1) fun l => { l with up := false }
  else s

/-! ## Management, state and clock -/

/-- A write of authenticated management (R460). -/
def State.authenticatedWrite (s : State) (v : Nat) : Except Nat State :=
  if v = 0 ∧ bit s.trust.enforcement 3 = true then .error 0x02000006 else .ok (s.put 0x1808 0 v)

/-- A write of the discard object (R376): the staged values of the named groups are dropped, unless a commit of one of them is
scheduled (R288). -/
def State.discardStaged (s : State) (v : Nat) : Except Nat State :=
  if (bit v 0 && s.lib.schedRule.isSome) || (bit v 1 && s.lib.schedModel.isSome) then .error 0x0800004D
  else
    let keep (e : Nat × Nat) : Bool := match groupOf (e.1 / 65536) (e.1 % 65536) with | some g => !(bit v g) | none => true
    .ok { s with
      staged := s.staged.filter keep
      intake := if bit v 0 then { s.intake with staged := none } else s.intake }

/-- A write of the restore object (R375). -/
def State.restoreDefaults (s : State) (v : Nat) : Except Nat State :=
  if v = 1 then .ok { s with flash := { s.flash with configVoid := true, regionMap := none } } else .ok s

/-- Objects of 0x1800 to 0x2FFF. -/
def State.effectManagement (s : State) (idx sub v : Nat) : Except Nat State :=
  if idx = 0x1805 then s.setRingMaster v
  else if idx = 0x1806 then s.setCyclePeriod v
  else if idx = 0x1808 then s.authenticatedWrite v
  else if 0x1820 ≤ idx ∧ idx ≤ 0x1822 then .ok (s.stage idx sub v)
  else if idx = 0x1828 then s.cyclicCommit v
  else if idx = 0x2001 then s.stateRequest v
  else if idx = 0x2011 then s.discardStaged v
  else if idx = 0x2020 then .ok s
  else if idx = 0x2021 then s.restoreDefaults v
  else if idx = 0x2400 then s.writeSource v
  else if idx = 0x2404 then .ok { s with clock := { s.clock with ppsNext := some v } }
  else .ok (s.put idx sub v)

/-! ## Rings and triggers (R212, R237, R240) -/

/-- An odd array of a pair that runs in lockstep (R25). -/
def State.pairedOdd (s : State) (a : Nat) : Bool := s.flag 0x8000 0 && decide (a % 2 = 1)

/-- List bodies that resident images place in an array's ring SRAM (space 0), or in the stacks (space 1), overlap a range of cues of
it. -/
def State.bodyIn (s : State) (a space : Nat) (x : Nat × Nat) : Bool :=
  (s.lib.active.toList ++ s.lib.retiring.toList ++ s.lib.staged.toList).any fun m => m.bodies.any fun y =>
    (decide (y.1 = a) || decide (space = 1)) && decide (y.2.1 / 2 ^ 31 = space) && overlap x (y.2.1 % 2 ^ 30, (y.2.2.length + 31) / 32)

/-- Base and depth, in cues, of a ring of ring SRAM. -/
def State.sramRing (s : State) (a r : Nat) : Option (Nat × Nat) :=
  let b := s.get (ringObj a r) 1
  if b / 2 ^ 31 = 0 then some (b % 2 ^ 30, s.get (ringObj a r) 2) else none

/-- The storage a ring would have breaks R212. -/
def State.ringConflict (s : State) (a r base depth : Nat) : Bool :=
  let i := base % 2 ^ 30
  if base / 2 ^ 31 = 0 then
    decide (16384 < i + depth) || s.bodyIn a 0 (i, depth) ||
    ((List.range 16).any fun q => decide (q ≠ r) && (match s.sramRing a q with | some x => overlap x (i, depth) | none => false))
  else
    let x := (i * 32, depth * 32)
    !(s.inRegion 0 x.1 x.2) || s.bodyIn a 1 (i, depth) ||
    (s.lib.slots.toList.any fun y => overlap (y.off, y.len) x) ||
    ((List.range 16).any fun b => (List.range 16).any fun q =>
      decide (b ≠ a ∨ q ≠ r) && (match s.ringExtent b q with | some y => overlap y x | none => false))

/-- A write of ring base or ring depth (R212). -/
def State.setRingStorage (s : State) (idx sub v : Nat) : Except Nat State :=
  let base := if sub = 1 then v else s.get idx 1
  let depth := if sub = 2 then v else s.get idx 2
  if s.ringConflict ((idx - 0x5100) / 16) (idx % 16) base depth then .error 0x0800003E else .ok (s.put idx sub v)

/-- A write of a ring's object. -/
def State.ringWrite (s : State) (idx sub v : Nat) : Except Nat State :=
  let a := (idx - 0x5100) / 16
  if sub = 1 ∨ sub = 2 then s.setRingStorage idx sub v
  else if sub = 6 then (if v = 1 ∧ s.pairedOdd a = true then .error 0x08000034 else .ok (s.put idx sub v))
  else if sub = 9 then s.postHost a (idx % 16) (natLe 32 v)
  else .ok (s.put idx sub v)

/-- A trigger is enabled or its clock changes: its occurrences count from now (R240). -/
def State.restartClock (s : State) (x : Nat) : State := s.setTrig x { s.trig x with last := none, from_ := s.now }

/-- A write of a trigger's object. -/
def State.trigWrite (s : State) (idx sub v : Nat) : Except Nat State :=
  let x := idx - 0x5200
  let old := s.get idx sub
  if sub = 9 then s.fireWrite x v
  else if sub = 2 ∧ s.hasArray v = false then .error 0x0800003F
  else if sub = 2 ∧ s.pairedOdd v = true then .error 0x08000034
  else if sub = 0xA ∧ v = 1 ∧ s.pairedOdd (s.get idx 2) = true then .error 0x08000034
  else
    let s := s.put idx sub v
    if v ≠ old ∧ ((sub = 0xA ∧ v = 1) ∨ sub = 5 ∨ sub = 6) then .ok (s.restartClock x) else .ok s

/-- Objects of 0x4000 to 0x5FFF outside the rule group. -/
def State.effectCompute (s : State) (idx sub v : Nat) : Except Nat State :=
  if idx = 0x400B then s.setRehash v
  else if idx = 0x4020 ∧ sub = 4 then s.setProbeDelete v
  else if idx = 0x4021 then s.setClear v
  else if 0x5060 ≤ idx ∧ idx ≤ 0x506F ∧ sub = 1 then .ok (s.put idx sub (s.get idx sub &&& v))
  else if 0x5100 ≤ idx ∧ idx ≤ 0x51FF then s.ringWrite idx sub v
  else if 0x5200 ≤ idx ∧ idx ≤ 0x53FF then s.trigWrite idx sub v
  else if idx = 0x5400 then .ok ((s.put idx sub v).serveTaps (sub - 1))
  else if idx = 0x5401 then .ok (s.addLight (sub - 1) v 3 0xFFFF 0)
  else if idx = 0x5808 ∧ sub = 1 ∧ s.hasArray v = false then .error 0x02000006
  else if idx = 0x5808 ∧ sub = 4 then .ok (s.clearProbed v)
  else .ok (s.put idx sub v)

/-! ## Memory and library -/

/-- A write of an object of the model group (R288). -/
def State.modelGroupWrite (s : State) (idx sub v : Nat) : Except Nat State :=
  if s.lib.schedModel.isSome then .error 0x0800004D else .ok (s.stage idx sub v)

/-- A write of a region's base or size (R264, R278). -/
def State.regionWrite (s : State) (idx sub v : Nat) : Except Nat State :=
  if regionSizeOk idx sub v then .ok (s.stage idx sub v) else .error 0x02000006

/-- Objects of 0x6000 to 0x6FFF outside the rule group. -/
def State.effectMemory (s : State) (idx sub v : Nat) : Except Nat State :=
  if idx ≤ 0x6005 then s.regionWrite idx sub v
  else if idx = 0x6008 then s.regionCommit v
  else if idx = 0x6020 ∨ idx = 0x6021 then s.setHoldShare idx v
  else if idx = 0x6030 ∧ sub = 2 then s.peekWrite v
  else if idx = 0x6803 then s.modelGroupWrite idx sub v
  else if idx = 0x6808 then s.modelCommit v
  else if idx = 0x680B then s.forceRetire v
  else if 0x6820 ≤ idx ∧ idx ≤ 0x682F then
    if sub = 6 then s.stageRequest (idx - 0x6820) v
    else if sub = 7 then .ok (s.setPersist (idx - 0x6820) v)
    else s.eraseSlot (idx - 0x6820) v
  else .ok (s.put idx sub v)

/-! ## Egress and fabric -/

/-- The fabric ports go down, to come up under another module number (R329, R330). -/
def State.renumber (s : State) : State :=
  let s := s.fabricDown
  { s with fab := { s.fab with duplicate := false, firstUp := none } }

/-- A write of module number or bay count (R330). -/
def State.setModule (s : State) (idx v : Nat) : Except Nat State :=
  let ok := if idx = 0x7800 then bayOk v s.bays else bayOk s.moduleNo v
  if ok = false then .error 0x08000050
  else if idx = 0x7800 ∧ v ≠ s.moduleNo then .ok (s.renumber.put idx 0 v)
  else .ok (s.put idx 0 v)

/-- Objects of 0x7000 to 0x7FFF. -/
def State.effectEgress (s : State) (idx sub v : Nat) : Except Nat State :=
  if idx = 0x7020 ∨ idx = 0x7100 ∨ idx = 0x7101 ∨ idx = 0x7102 then s.setBinding idx sub v
  else if idx = 0x7021 ∨ idx = 0x7022 ∨ idx = 0x7104 ∨ idx = 0x7105 then s.setShaper idx sub v
  else if idx = 0x7802 then .ok (s.put idx 0 v).flood
  else if idx = 0x7800 ∨ idx = 0x7801 then s.setModule idx v
  else .ok (s.put idx sub v)

/-! ## Reliability, observability and trust -/

/-- An odd array has an enabled ring, or is the target of an enabled trigger (R25). -/
def State.oddInUse (s : State) : Bool :=
  ((List.range 16).any fun a => decide (a % 2 = 1) && ((List.range 16).any fun r => s.flag (ringObj a r) 6)) ||
  ((List.range 512).any fun x => s.trigOn x && decide (s.trigArray x % 2 = 1))

/-- A write of full redundancy (R25). -/
def State.setRedundancy (s : State) (v : Nat) : Except Nat State :=
  if v = 1 ∧ s.oddInUse = true then .error 0x08000034 else .ok (s.put 0x8000 0 v)

/-- A write of an EVT_OUT function (R388). -/
def State.setEvtOut (s : State) (sub v : Nat) : Except Nat State :=
  if v = 1 ∧ s.flag 0x8810 (3 - sub) = true then .error 0x08000031 else .ok (s.put 0x8810 sub v)

/-- A write of the range of sampled queues (R458). -/
def State.setSampledQueues (s : State) (sub v : Nat) : Except Nat State :=
  if 8192 < v + s.get 0x8802 (3 - sub) then .error 0x02000006 else .ok (s.put 0x8802 sub v)

/-- A write of the sampling interval: its strobes are those after this instant (R431). -/
def State.setInterval (s : State) (v : Nat) : State :=
  { s.put 0x8800 0 v with obs := { s.obs with lastStrobe := Max.max s.obs.lastStrobe s.now } }

/-- Objects of 0x8000 to 0x8FFF. -/
def State.effectObserve (s : State) (inSession : Bool) (idx sub v : Nat) : Except Nat State :=
  if idx = 0x8000 then s.setRedundancy v
  else if idx = 0x8010 then s.clearReplacement inSession v
  else if idx = 0x8012 then s.scanRequest v
  else if idx = 0x8800 then .ok (s.setInterval v)
  else if idx = 0x8802 then s.setSampledQueues sub v
  else if idx = 0x8810 ∧ sub ≤ 2 then s.setEvtOut sub v
  else if idx = 0x8811 then .ok (s.hostMarker v)
  else if idx = 0x8842 then .ok (s.freezeRequest v)
  else .ok (s.put idx sub v)

/-- Objects of 0x9000 to 0xAFFF. The debug token answers on its own (`State.serveToken`). -/
def State.effectTrust (s : State) (idx sub v : Nat) : Except Nat State :=
  if idx = 0x9004 ∧ sub = 1 then s.ownerHashWrite v
  else if idx = 0x9004 then s.ownerHashConfirm v
  else if idx = 0x9005 then s.enforcementProgram v
  else if idx = 0x9007 then s.raiseCounter v
  else if idx = 0x9009 then s.activateSlot v
  else if idx = 0x900A then s.confirmFirmware v
  else if 0x9010 ≤ idx ∧ idx ≤ 0x9017 then s.hostKeyWrite (idx - 0x9010) v
  else if idx = 0x901B then s.attestationNonce v
  else if idx = 0xA022 then s.dumpClear v
  else .ok s

/-- What a WRITE of an object that passed the checks does. -/
def State.effect (s : State) (inSession : Bool) (idx sub v : Nat) : Except Nat State :=
  if isRuleObj idx sub then s.ruleWrite idx sub v
  else if idx = 0x3808 then s.ruleCommit v
  else if idx < 0x3000 then s.effectManagement idx sub v
  else if idx < 0x4000 then .ok (s.lineWrite idx sub v)
  else if idx < 0x6000 then s.effectCompute idx sub v
  else if idx < 0x7000 then s.effectMemory idx sub v
  else if idx < 0x8000 then s.effectEgress idx sub v
  else if idx < 0x9000 then s.effectObserve inSession idx sub v
  else s.effectTrust idx sub v

end Sys2Proof.Machine
end

