-- ==== Sys2Proof/Machine/Requests.lean ====
section
/-! DEFINITION. READ and WRITE, and the rows that are a WRITE of one object (R364, R374, R376, R379). -/

namespace Sys2Proof.Machine

/-- A WRITE of an object, with the rules of its chapter. -/
def State.serveObject (s : State) (r : Req) (idx sub : Nat) (data : Bytes) : State :=
  s.serveWrite r idx sub data fun s => s.effect (s.inSession r idx) idx sub (Bits.leNat data)

/-- A READ of an object. -/
def State.serveRead (s : State) (r : Req) (idx sub : Nat) : State :=
  s.serve svcRead r idx sub [] fun s =>
    match s.checkRead idx sub with
    | .error c => ⟨c, [], s⟩
    | .ok row =>
      let (v, s) := s.readValue idx sub
      ⟨0, readBytes row v, s⟩

/-- A WRITE of the state request object: answered when it is accepted, before the transition or the reset begins (R379). -/
def State.serveState (s : State) (r : Req) (data : Bytes) : State :=
  s.receive svcWrite r 0x2001 0 data fun s =>
    let a (c : Nat) : Answer := mkAnswer svcWrite r 0x2001 0 c []
    match s.checkWrite (s.inSession r 0x2001) 0x2001 0 data with
    | .error c => s.answer (a c)
    | .ok _ => match s.stateRequest (Bits.leNat data) with
      | .error c => s.answer (a c)
      | .ok _ => match (s.answer (a 0)).stateRequest (Bits.leNat data) with
        | .ok s => s
        | .error _ => s.answer (a 0)

/-- A WRITE: of the state request, the save object or the debug token, which answer in their own way, or of another object. -/
def State.serveAny (s : State) (r : Req) (idx sub : Nat) (data : Bytes) : State :=
  if idx = 0x2001 ∧ sub = 0 then s.serveState r data
  else if idx = 0x2020 ∧ sub = 0 then s.serveSave r data
  else if idx = 0x9021 ∧ sub = 0 then s.serveToken r data
  else s.serveObject r idx sub data

/-- A WRITE of a value to an object, in as many bytes as its type has. -/
def State.serveValue (s : State) (r : Req) (idx sub v : Nat) : State :=
  s.serveAny r idx sub (Bits.natLe ((objRow? idx sub).elim 0 fun row => tySize row.ty) v)

/-! ## READ and WRITE -/

/-- READ (R364, R374). -/
def execRead (r : Req) (idx sub : Nat) (s : State) : Result :=
  let s := s.at r.t
  if idx = 0x4020 ∧ sub = 3 then .next (s.serveProbe r)
  else if idx = 0x6030 ∧ sub = 2 then .next (s.servePeek r)
  else .next (s.serveRead r idx sub)

/-- WRITE (R364, R374). -/
def execWrite (r : Req) (idx sub : Nat) (data : Bytes) (s : State) : Result := .next ((s.at r.t).serveAny r idx sub data)

/-! ## State requests (R378 to R380) -/

/-- STATE_REQUEST_PREPARE (R380). -/
def execStateRequestPrepare (r : Req) (s : State) : Result := .next ((s.at r.t).serveState r [3])

/-- STATE_REQUEST_RUN (R379). -/
def execStateRequestRun (r : Req) (s : State) : Result := .next ((s.at r.t).serveState r [4])

/-- STATE_REQUEST_DRAIN (R378). -/
def execStateRequestDrain (r : Req) (s : State) : Result := .next ((s.at r.t).serveState r [5])

/-- STATE_REQUEST_TEST (R418). -/
def execStateRequestTest (r : Req) (s : State) : Result := .next ((s.at r.t).serveState r [6])

/-- RESET_REQUEST (R379, R492). -/
def execResetRequest (r : Req) (s : State) : Result := .next ((s.at r.t).serveState r [0x5A])

/-! ## Commits, staging and retirement (R280, R288, R293, R294, R376) -/

/-- RULE_COMMIT (R288): a WRITE of 0x3808:00. -/
def execRuleCommit (r : Req) (acc : Nat) (s : State) : Result := .next ((s.at r.t).serveValue r 0x3808 0 acc)

/-- MODEL_COMMIT (R288): a WRITE of 0x6808:00. -/
def execModelCommit (r : Req) (acc : Nat) (s : State) : Result := .next ((s.at r.t).serveValue r 0x6808 0 acc)

/-- COMMIT_CANCEL (R288): a WRITE of 0 to a commit object. -/
def execCommitCancel (r : Req) (kind : AccKind) (s : State) : Result :=
  .next ((s.at r.t).serveValue r (match kind with | .rule => 0x3808 | .model => 0x6808) 0 0)

/-- FORCE_RETIRE_MODEL (R293): a WRITE of 1 to 0x680B:00. -/
def execForceRetireModel (r : Req) (s : State) : Result := .next ((s.at r.t).serveValue r 0x680B 0 1)

/-- FORCE_RETIRE_RULE (R293): a WRITE of 2 to 0x680B:00. -/
def execForceRetireRule (r : Req) (s : State) : Result := .next ((s.at r.t).serveValue r 0x680B 0 2)

/-- STAGE_REQUEST (R294): a WRITE of 0x6820+s:06. -/
def execStageRequest (r : Req) (slot : Fin 16) (mode : Nat) (s : State) : Result :=
  .next ((s.at r.t).serveValue r (0x6820 + slot.val) 6 mode)

/-- ERASE (R284): a WRITE of 1 to 0x6820+s:08. -/
def execErase (r : Req) (slot : Fin 16) (s : State) : Result := .next ((s.at r.t).serveValue r (0x6820 + slot.val) 8 1)

/-- CYCLIC_COMMIT (R376): a WRITE of 1 to 0x1828:00. -/
def execCyclicCommit (r : Req) (s : State) : Result := .next ((s.at r.t).serveValue r 0x1828 0 1)

/-- DISCARD_STAGED (R376): a WRITE of 0x2011:00. -/
def execDiscardStaged (r : Req) (bits : Nat) (s : State) : Result := .next ((s.at r.t).serveValue r 0x2011 0 bits)

/-- RESTORE_DEFAULTS (R375): a WRITE of 1 to 0x2021:00. -/
def execRestoreDefaults (r : Req) (s : State) : Result := .next ((s.at r.t).serveValue r 0x2021 0 1)

/-! ## Objects with checks of their own -/

/-- RING_MASTER_ROLE_WRITE (R359): a WRITE of 0x1805:00. -/
def execRingMasterRoleWrite (r : Req) (v : Nat) (s : State) : Result := .next ((s.at r.t).serveValue r 0x1805 0 v)

/-- CLOCK_SOURCE_WRITE (R346): a WRITE of 0x2400:00. -/
def execClockSourceWrite (r : Req) (v : Nat) (s : State) : Result := .next ((s.at r.t).serveValue r 0x2400 0 v)

/-- EVT_OUT_FUNCTION_WRITE (R388): a WRITE of 0x8810. -/
def execEvtOutFunctionWrite (r : Req) (sub v : Nat) (s : State) : Result := .next ((s.at r.t).serveValue r 0x8810 sub v)

/-- RING_STORAGE_WRITE (R212): a WRITE of ring base or depth. -/
def execRingStorageWrite (r : Req) (a ring : Fin 16) (sub v : Nat) (s : State) : Result :=
  .next ((s.at r.t).serveValue r (ringObj a.val ring.val) sub v)

/-- QUEUE_BINDING_WRITE (R302): a WRITE of a queue port, queue level, queue group or group port. -/
def execQueueBindingWrite (r : Req) (idx sub v : Nat) (s : State) : Result := .next ((s.at r.t).serveValue r idx sub v)

/-- SHAPER_WRITE (R309): a WRITE of a rate or burst. -/
def execShaperWrite (r : Req) (idx sub v : Nat) (s : State) : Result := .next ((s.at r.t).serveValue r idx sub v)

/-- CLEAR_REPLACEMENT_FLAG (R416): a WRITE of 1 to 0x8010:00. -/
def execClearReplacementFlag (r : Req) (s : State) : Result := .next ((s.at r.t).serveValue r 0x8010 0 1)

/-- SCAN_REQUEST (R417): a WRITE of 0x8012:00. -/
def execScanRequest (r : Req) (mask : Nat) (s : State) : Result := .next ((s.at r.t).serveValue r 0x8012 0 mask)

end Sys2Proof.Machine
end

