-- ==== Sys2Proof/Machine/Ring.lean ====
section
/-! DEFINITION. The management ring (R353 to R359) and the cyclic images of ODP-2 (R366 to R368, R389,
R393 to R396). -/

namespace Sys2Proof.Machine

open Sys2Proof.Bits


/-- MGMT_LINK_DOWN (R357, R419): the port is declared down, frames for it loop out of the other port, and the
ring-break record (class 0x33) raises its event. -/
def execMgmtLinkDown (i : Fin 2) (t : Nat) (s : State) : Result :=
  let s := s.at t
  if s.mgmtLink i.val then
    let s := (s.setMgmtLink i.val false).put 0x1801 (i.val + 1) 0
    if s.mgmt.joined then
      let s := if s.mgmtLink (1 - i.val) then s.bump 0x181B 0 else s
      .next (s.errorRecord { cls := 0x33, uKind := 8, unit := i.val, detail := [] })
    else .next s
  else .next s

/-- Rates of the T1 modes in Mb/s (R353). -/
def t1Rates : List Nat := [10000, 5000, 2500, 1000, 100]

/-- A management port can link at a rate: that of its T1 mode, or any of them under auto-negotiation (R353). -/
def State.rateFits (s : State) (i rate : Nat) : Bool :=
  match s.get 0x1800 (i + 1) with
  | 0 => t1Rates.contains rate
  | m + 1 => decide (t1Rates[m]? = some rate)

/-- MGMT_LINK_UP (R353, R356, R357): the port's link comes up at `rate` Mb/s; it joins a module that is joining,
and ends the loopback of one that had joined, with a ring-restored event. -/
def execMgmtLinkUp (i : Fin 2) (rate t : Nat) (s : State) : Result :=
  let s := s.at t
  if s.pwr.gateRing = false ∨ s.mgmtLink i.val ∨ s.rateFits i.val rate = false then .next s
  else
    let wasJoined := s.mgmt.joined
    let s := (s.setMgmtLink i.val true).put 0x1801 (i.val + 1) rate
    let s := { s with mgmt := { s.mgmt with joined := true, joinStart := none } }
    if wasJoined then .next (s.raise (Config.eventCode 1) 0x1802 0) else .next s

/-- RING_JOIN (R356): firmware opens the bypass and brings up both ports; one linked port is enough to join. -/
def execRingJoin (up0 up1 : Bool) (t : Nat) (s : State) : Result :=
  let s := s.at t
  let due := match s.mgmt.retryAt with | none => true | some r => decide (r ≤ s.now)
  if s.dev.st.onRing && !s.mgmt.joined && due then
    let s := s.openRing
    .next { s with mgmt := { s.mgmt with
      link0 := up0, link1 := up1, joined := up0 || up1
      joinStart := if up0 || up1 then none else some s.now
      retryAt := none } }
  else .next s

/-- RING_JOIN_TIMEOUT (R356): neither port linked within 1 s; retry after a random 1–2 s. -/
def execRingJoinTimeout (t : Nat) (s : State) : Result :=
  let s := s.at t
  match s.mgmt.joinStart with
  | none => .next s
  | some j =>
    if j + 1000000000 ≤ s.now ∧ s.mgmt.joined = false then
      let (x, s) := s.draw
      let s := s.closeRing
      .next { s with mgmt := { s.mgmt with joinStart := none, retryAt := some (s.now + 1000000000 + x % 1000000001) } }
    else .next s

/-- RING_FRAME_RECEIVED (R354, R355, R357, R358): ODP and IPv6 frames are forwarded; a ring-status frame gives
the position. Requests delivered to the module arrive as their own commands. -/
def execRingFrameReceived (i : Fin 2) (f : RingFrame) (t : Nat) (s : State) : Result :=
  let s := s.at t
  if s.mgmt.joined = false ∨ s.mgmtLink i.val = false then .next s
  else if f.ethertype = 0x88B5 ∨ f.ethertype = 0x86DD then
    let s := if f.ethertype = 0x88B5 ∧ f.kind = 2 ∧ f.hop + 1 ≤ 1024 then s.takePosition f else s
    .next (s.forward i.val f)
  else .next s

/-- Latches the mapped output objects (R368). -/
def State.latchOutputs (s : State) : State :=
  let take (x : Bytes × State) (e : Nat × Nat × Nat) : Bytes × State :=
    let (v, s) := x.2.readValue e.1 e.2.1
    (x.1 ++ natLe e.2.2 v, s)
  let (bytes, s) := (s.mapping 0x1820).foldl take ([], s)
  { s with mgmt := { s.mgmt with outLatch := bytes } }

/-- A cycle starts: a committed cyclic group takes effect and the mapped outputs are latched (R368, R376). -/
def State.latchNow (s : State) : State :=
  let s := s.cyclicStart.latchOutputs
  { s with mgmt := { s.mgmt with latchedAt := some s.now } }

/-- Start of the latest cycle frame's cycle: its T_k, or its arrival when T_k is 0 (R368). -/
def State.cycleBase (s : State) : Nat := if s.mgmt.cycle.tk = 0 then s.mgmt.latchedAt.getD 0 else s.mgmt.cycle.tk

/-- Writes one mapped input value (R368, R394): refused values are skipped and counted. -/
def State.applyOne (s : State) (idx sub n v : Nat) : State :=
  match s.checkWrite false idx sub (natLe n v) with
  | .error _ => { s with mgmt := { s.mgmt with skipped := s.mgmt.skipped + 1 } }
  | .ok _ =>
    match s.effect false idx sub v with
    | .error _ => { s with mgmt := { s.mgmt with skipped := s.mgmt.skipped + 1 } }
    | .ok s => s

/-- Applies the values of an input image in mapping order; `last` holds those of the image before. -/
def State.applyList (s : State) (last : Option (List Nat)) : List (Nat × Nat × Nat) → Bytes → Nat → State
  | [], _, _ => s
  | (idx, sub, n) :: m, bs, k =>
    let v := leNat (bs.take n)
    let wo := match objRow? idx sub with | some r => decide (r.acc = .wo) | none => false
    let s := if wo && !(woActs (last.map fun l => l.getD k 0) v) then s else s.applyOne idx sub n v
    s.applyList last m (bs.drop n) (k + 1)

/-- Applies an input image (R368, R396). -/
def State.applyImage (s : State) (bytes : Bytes) : State :=
  let m := s.mapping 0x1821
  let last := s.mgmt.inApplied
  let s := { s with mgmt := { s.mgmt with inSlot := none, inApplied := some (imageValues m bytes) } }
  s.applyList last m bytes 0

/-- An input slot read from the first copy of its frame (R367, R368): applied on arrival when A_k is 0, late when
it arrives after A_k. -/
def State.takeInput (s : State) (ak : Nat) (bytes : Bytes) : State :=
  if ak = 0 then s.applyImage bytes
  else if ak < s.now then s.bump 0x1819 0
  else { s with mgmt := { s.mgmt with inSlot := some ⟨ak, bytes⟩ } }

/-- CYCLE_FRAME_EXCHANGE (R358, R359, R366 to R368): in hardware, as the frame passes. -/
def execCycleFrameExchange (i : Fin 2) (f : RingFrame) (t : Nat) (s : State) : Result :=
  let s := s.at t
  if s.mgmt.joined = false ∨ s.mgmtLink i.val = false ∨ 1024 < f.hop + 1 then
    if s.mgmt.joined && s.mgmtLink i.val then .next (s.bump 0x1811 0) else .next s
  else if s.flag 0x1805 0 ∧ f.source = s.get 0x1803 0 ∧ s.mgmt.stopped = false then
    -- the master's own frame returns: its image area is collected
    let area := f.body.drop 16
    let rest := s.mgmt.masterOut.filter fun e => decide (e.1 ≠ f.index)
    .next { s with mgmt := { s.mgmt with
      masterOut := if s.mgmt.masterDone = f.sequence then rest ++ [(f.index, area)] else [(f.index, area)]
      masterDone := f.sequence
      roundTrip := s.now - s.mgmt.sentAt } }
  else
    let s := if s.flag 0x1805 0 then s.masterConflict f.source
             else { s with mgmt := { s.mgmt with otherMaster := some s.now } }
    let s := s.takePosition f
    let tk := le f.body 0 8
    let ak := le f.body 8 8
    let newCycle := decide (s.mgmt.cycle.number ≠ f.sequence) || s.mgmt.seen.isEmpty
    let s := if newCycle then
        let period := tk - s.mgmt.cycle.tk
        let learn := decide (s.mgmt.cycle.number + 1 = f.sequence) && decide (0 < s.mgmt.cycle.tk) && decide (0 < period)
        let s := { s with mgmt := { s.mgmt with cycle := ⟨f.sequence, tk, ak⟩, seen := [] } }
        let s := if learn && !(s.flag 0x1805 0) then s.put 0x1806 0 (period / 1000) else s
        let s := s.bump 0x1818 0
        if tk = 0 then s.latchNow else s
      else s
    let first := !(s.mgmt.seen.contains f.index)
    let s := { s with mgmt := { s.mgmt with seen := f.index :: s.mgmt.seen } }
    let inPos := s.get 0x1822 2
    let inMap := s.mapping 0x1821
    let s := if first && decide (fld inPos 31 24 = f.index) && !inMap.isEmpty then
        s.takeInput ak (slice f.body (16 + fld inPos 15 0) (mapBytes inMap)) else s
    let outPos := s.get 0x1822 1
    let f := if fld outPos 31 24 = f.index then { f with body := patch f.body (16 + fld outPos 15 0) s.outSlot } else f
    .next (s.forward i.val f)

/-- A cycle has started since the outputs were last latched: one of the T_k that the last cycle frame's T_k and the cycle period
give. A module that no cycle frame has reached knows no T_k but takes the first one named to it (R368). -/
def State.latchDue (s : State) : Bool :=
  match s.mgmt.latchedAt with
  | none => true
  | some l =>
    let b := s.mgmt.cycle.tk
    if b = 0 then decide (l + s.cyclePeriod ≤ s.now) && s.mgmt.seen.isEmpty
    else decide (b ≤ s.now) && decide (l < b + (s.now - b) / s.cyclePeriod * s.cyclePeriod)

/-- OUTPUT_IMAGE_LATCH (R368, R376): at T_k the mapped outputs are latched through shadow latches of their own
(R433), and a committed cyclic group takes effect. -/
def execOutputImageLatch (t : Nat) (s : State) : Result :=
  let s := s.at t
  if s.mgmt.joined && s.latchDue then .next s.latchNow else .next s

/-- INPUT_IMAGE_APPLY (R368, R394, R396): at A_k. -/
def execInputImageApply (t : Nat) (s : State) : Result :=
  let s := s.at t
  match s.mgmt.inSlot with
  | none => .next s
  | some x => if x.ak ≤ s.now then .next (s.applyImage x.bytes) else .next s

/-- MISSED_CYCLE (R368): no frame of the cycle after the last one seen, or counted missed, by the next cycle's start; the last
inputs stay. -/
def execMissedCycle (t : Nat) (s : State) : Result :=
  let s := s.at t
  if s.mgmt.joined ∧ s.cycleBase + 2 * s.cyclePeriod ≤ s.now ∧ s.mgmt.missedAt + s.cyclePeriod ≤ s.now then
    .next (({ s with mgmt := { s.mgmt with missedAt := s.now, seen := [] } }).bump 0x181A 0)
  else .next s

/-- The cycle frames of cycle `k`, both copies, frame indices upward (R355, R366). -/
def State.sendFrames (s : State) (k tk ak : Nat) : List Bytes → Nat → State
  | [], _ => s
  | img :: rest, n =>
    let f : RingFrame :=
      { ethertype := 0x88B5, gen := 2, kind := 1, west := false, hop := 0, source := s.get 0x1803 0,
        sequence := k % 2 ^ 24, index := n, body := natLe 8 tk ++ natLe 8 ak ++ img }
    let s := if s.mgmt.link0 then s.emit (.ringFrame 0 f) else s
    let s := if s.mgmt.link1 then s.emit (.ringFrame 1 { f with west := true }) else s
    s.sendFrames k tk ak rest (n + 1)

/-- CYCLE_SEND (R359, R366): a ring-master module sends the frames of the cycle at T_k = phase + k × P_c. The
apply time a module master gives is not stated: a free value (log entry 2). -/
def execCycleSend (t : Nat) (s : State) : Result :=
  let s := s.at t
  let phase := s.get 0x1807 0
  let k := (s.now - phase) / s.cyclePeriod
  let tk := phase + k * s.cyclePeriod
  if s.flag 0x1805 0 ∧ s.mgmt.stopped = false ∧ s.mgmt.joined ∧ phase ≤ s.now ∧ s.mgmt.nextCycle ≤ k then
    let (ak, s) := s.fresh
    let imgs := if s.mgmt.masterIn.isEmpty then [[]] else s.mgmt.masterIn
    let s := s.sendFrames k tk (ak % 2 ^ 64) imgs 0
    .next { s with mgmt := { s.mgmt with nextCycle := k + 1, sentAt := s.now } }
  else .next s

end Sys2Proof.Machine
end

