-- ==== Sys2Proof/Machine/Scene.lean ====
section
/-! DEFINITION. Scene changes as the module's own steps (R285, R288 to R297): load checks, commits taking effect, retirement,
and install lists. -/

namespace Sys2Proof.Machine

open Sys2Proof.Bits

/-- IMAGE_LOAD_CHECK (R285): the transfer of a slot's image has ended. -/
def execImageLoadCheck (slot : Fin 16) (t : Nat) (s : State) : Result :=
  let s := s.at t
  let k := slot.val
  if s.slotState k = slotLoading ∧ (s.odp.transfers.any fun x => !x.upload && decide (x.idx = 0xA010 + k)) = false then .next (s.loadCheck k)
  else .next s

/-- COMMIT_TAKES_EFFECT (R288, R289): a PKT cycle boundary at or after the commit times; a rule commit and a model commit of one
time take effect at the same boundary. -/
def execCommitTakesEffect (t : Nat) (s : State) : Result :=
  let s := s.at t
  if s.frozen then .next s
  else .next s.applyDue

/-- Every count of the retiring model accession is zero (R291). -/
def State.modelIdle (s : State) (acc : Nat) : Bool :=
  decide (s.modelPackets acc = 0) && decide (s.modelBuffers acc = 0) && decide (s.modelLists acc = 0)

/-- ACCESSION_RETIRE (R290, R292): the last count of a retiring accession has reached zero. -/
def execAccessionRetire (kind : AccKind) (t : Nat) (s : State) : Result :=
  let s := s.at t
  if s.frozen then .next s
  else match kind with
    | .model =>
      let s := s.tapRetire
      match s.lib.retiring with
      | some m => if s.modelIdle m.acc then .next (s.retireModel m) else .next s
      | none => .next s
    | .rule => match s.intake.retiring with
      | some b => if s.rulePackets b.acc = 0 then .next (s.retireRule b) else .next s
      | none => .next s

/-- RETIREMENT_OVERDUE (R293): raised once for a retirement that outlasts the retire timeout; the module keeps waiting. -/
def execRetirementOverdue (kind : AccKind) (t : Nat) (s : State) : Result :=
  let s := s.at t
  let limit := s.get 0x680A 0 * 1000000
  match kind with
  | .model =>
    if s.lib.retiring.isSome ∧ s.lib.modelLate = false ∧ s.lib.modelFrom + limit ≤ s.now then
      let s := { s with lib := { s.lib with modelLate := true } }
      .next ((s.bump 0x680E 0).raise (Config.eventCode 9) 0x6801 0)
    else .next s
  | .rule =>
    if s.get 0x6802 0 ≠ 0 ∧ s.lib.ruleLate = false ∧ s.lib.ruleFrom + limit ≤ s.now then
      let s := { s with lib := { s.lib with ruleLate := true } }
      .next ((s.bump 0x680E 0).raise (Config.eventCode 9) 0x6802 0)
    else .next s

/-- STAGING_COMPLETE (R294): the side-by-side install lists are done and the slot is STAGED. -/
def execStagingComplete (slot : Fin 16) (t : Nat) (s : State) : Result :=
  let s := s.at t
  match s.lib.staged with
  | some m =>
    if m.slot = slot.val ∧ s.slotState slot.val = slotValid ∧ s.staging = false then .next (s.setSlotState slot.val slotStaged) else .next s
  | none => .next s

/-- The array's install list may be started now (R251, R295, R296). -/
def State.installReady (s : State) (a : Nat) : Bool :=
  let x := s.arrAt a
  let served := match s.dev.st with | .prepare => true | .run => true | .drain => true | _ => false
  served && !s.frozen && !(s.halted a) && x.run.isNone && !x.install.isEmpty && decide (x.instCons = 0) &&
  (decide (x.instKind = 1) || (decide (x.instKind = 2) && s.frontMayStart a))

/-- Starts the install list (R225, R295, R296): in a ripple the front begins to move. -/
def State.startInstall (s : State) (a : Nat) : State :=
  let kind := (s.arrAt a).instKind
  let s := (s.modArr a fun x => { x with
    rot := 16
    run := some (newRun 16 0 false x.instAcc 0 0x200 s.now (.ring 0) x.front s.now) }).put (0x6810 + a) 1 kind
  (s.wantPower a).showRun a

/-- INSTALL_LIST_START (R251, R295, R296): the install ring's turn among the ready rings has come. -/
def execInstallListStart (a : Fin 16) (t : Nat) (s : State) : Result :=
  let s := s.at t
  if s.installReady a.val then
    let s := s.modArr a.val fun x => { x with instKind := if x.instKind = 2 then 3 else x.instKind }
    let above := match (s.arrAt a.val).susp with | [] => true | x :: _ => decide (s.runPrio a.val x < s.ringPrio a.val 16)
    if s.nextRing a.val = some 16 ∧ above = true then .next (s.startInstall a.val)
    else .next (s.modArr a.val fun x => { x with instKind := if x.instKind = 3 then 2 else x.instKind })
  else .next s

/-- Appends one pending firing of each trigger that targets an array (R297). -/
def State.appendFor (s : State) (a : Nat) : State :=
  s.sync.trigs.foldl (fun s e => if s.trigArray e.1 = a then s.appendWaiting e.1 else s) s

/-- INSTALL_COMPLETE (R295, R297): the array's install list has run to its end. -/
def execInstallComplete (a : Fin 16) (t : Nat) (s : State) : Result :=
  let s := s.at t
  let x := s.arrAt a.val
  let running := (s.listsOf a.val).any fun r => decide (r.ring = 16)
  if (x.instKind = 1 ∨ x.instKind = 3) ∧ x.instCons = 1 ∧ running = false then
    let front := decide (x.instKind = 3)
    let s := (s.modArr a.val fun x => { x with install := [], instCons := 0, instKind := 0 }).put (0x6810 + a.val) 1 0
    .next (if front then s.appendFor a.val else s)
  else .next s

end Sys2Proof.Machine
end

