-- ==== Sys2Proof/Machine/Transfer.lean ====
section
/-! DEFINITION. ODP-3: sessions (R369, R475) and segmented transfer (R371, R372, R390). -/

namespace Sys2Proof.Machine

open Sys2Proof.Bits

/-- A refused request: the abort code, and nothing else changed. -/
def refuse (c : Nat) (s : State) : Reply := ⟨c, [], s⟩

/-- The items both signatures of a session cover (R369): host key, own key, both nonces, the slot. -/
def sessionItems (x : Session) : Nat :=
  Hash.digest (natLe 64 x.hostKey ++ natLe 64 x.ownKey ++ natLe 16 x.hostNonce ++ natLe 16 x.ownNonce ++ natLe 1 x.slot)

/-- Session key by HKDF-SHA-256 from the ECDH secret, salted with the two nonces (R369); the info string is not stated. -/
def sessionKey (hostKey own hostNonce ownNonce : Nat) : Bytes :=
  let prk := Hash.hmac (natLe 16 hostNonce ++ natLe 16 ownNonce) (Config.ecdhSecret hostKey own)
  Hash.hmac prk (Config.hkdfInfo ++ [1])

/-- OPEN (R369, R479): refused when eight sessions are held. -/
def execOpenSession (r : Req) (key nonce slot : Nat) (s : State) : Result :=
  let s := s.at r.t
  .next <| s.serve svcOpen r 0 0 (natLe 64 key ++ natLe 16 nonce ++ natLe 1 slot) fun s =>
    if 7 < slot then refuse 0x02000006 s
    else if s.trust.tainted then refuse 0x04000002 s
    else if 8 ≤ s.odp.sessions.length then refuse 0x04000003 s
    else
      let (sid, s) := s.draw
      let (own, s) := s.draw
      let (ownNonce, s) := s.draw
      let x : Session :=
        { sid := sid % 2 ^ 32, slot := slot, hostKey := key, ownKey := Config.ephemeralKey own % 2 ^ 512,
          hostNonce := nonce, ownNonce := ownNonce % 2 ^ 128, authed := false, bootstrap := false,
          key := sessionKey key own nonce (ownNonce % 2 ^ 128), highest := none, seen := [], last := s.now }
      let answer := natLe 4 x.sid ++ natLe 64 x.ownKey ++ natLe 16 x.ownNonce ++ natLe 64 (s.attestSign (sessionItems x))
      ⟨0, answer, { s with odp := { s.odp with sessions := s.odp.sessions ++ [x] } }⟩

/-- The session list without this id. -/
def dropSession (sid : Nat) (l : List Session) : List Session := l.filter fun x => decide (x.sid ≠ sid)

/-- Every host key slot is empty (R475). -/
def State.noHostKey (s : State) : Bool := (List.range 8).all fun k => decide (s.get (0x9010 + k) 0 = 0)

/-- AUTH (R369, R475): the host's signature over the items of the session, under the key of its slot; while
all eight slots are empty, under the ephemeral key of the OPEN, which opens a bootstrap session. A failed
AUTH closes the session. -/
def execAuth (r : Req) (sid sig : Nat) (s : State) : Result :=
  let s := s.at r.t
  .next <| s.serve svcAuth r 0 0 (natLe 4 sid ++ natLe 64 sig) fun s =>
    match s.odp.sessions.find? fun x => x.sid = sid with
    | none => refuse 0x04000004 s
    | some x =>
      if x.last + 60000000000 ≤ s.now then
        refuse 0x04000004 { s with odp := { s.odp with sessions := dropSession sid s.odp.sessions } }
      else
        let slotKey := s.get (0x9010 + x.slot) 0
        let boot := s.noHostKey
        let ok := if boot then Config.ecdsaVerify x.hostKey (sessionItems x) sig
                  else decide (slotKey ≠ 0) && Config.ecdsaVerify slotKey (sessionItems x) sig
        if ok then
          let y := { x with authed := true, bootstrap := boot, last := s.now }
          ⟨0, [], { s with odp := { s.odp with sessions := setSession s.odp.sessions y } }⟩
        else refuse 0x04000002 { s with odp := { s.odp with sessions := dropSession sid s.odp.sessions } }

/-- CLOSE (R363, R369): closes the session it comes in. -/
def execClose (r : Req) (s : State) : Result :=
  let s := s.at r.t
  .next <| s.serve svcClose r 0 0 [] fun s =>
    match r.trailer with
    | none => refuse 0x04000001 s
    | some tr => ⟨0, [], { s with odp := { s.odp with sessions := dropSession tr.session s.odp.sessions } }⟩

/-- SESSION_EXPIRY (R369): 60 s without a valid datagram. -/
def execSessionExpiry (sid t : Nat) (s : State) : Result :=
  let s := s.at t
  match s.odp.sessions.find? fun x => x.sid = sid with
  | none => .next s
  | some x =>
    if x.last + 60000000000 ≤ s.now then
      .next { s with odp := { s.odp with sessions := dropSession sid s.odp.sessions } }
    else .next s

/-! ## Transfers -/

/-- The transfer with this id. -/
def State.transfer? (s : State) (tid : Nat) : Option Transfer := s.odp.transfers.find? fun x => x.tid = tid

/-- Replaces a transfer. -/
def State.setTransfer (s : State) (x : Transfer) : State :=
  { s with odp := { s.odp with transfers := s.odp.transfers.map fun y => if y.tid = x.tid then x else y } }

/-- Removes a transfer. -/
def State.dropTransfer (s : State) (tid : Nat) : State :=
  { s with odp := { s.odp with transfers := s.odp.transfers.filter fun y => decide (y.tid ≠ tid) } }

/-- Checks a transfer's object and the transfer limits (R371, R389): the abort code, or none. `upload` says
which access the domain object needs. -/
def State.transferCheck (s : State) (r : Req) (upload : Bool) (idx sub : Nat) : Option Nat :=
  match s.findObj idx sub with
  | .error c => some c
  | .ok row =>
    if s.inSession r idx = false then some 0x04000001
    else if row.ty ≠ .domain then some (if upload then 0x02000001 else 0x02000002)
    else if upload = true ∧ row.acc = .wo then some 0x02000001
    else if upload = false ∧ row.acc = .ro then some 0x02000002
    else if s.odp.transfers.any fun x => x.idx = idx ∧ x.sub = sub then some 0x04000005
    else if 4 ≤ s.odp.transfers.length then some 0x04000008
    else none

/-- DOWNLOAD-INIT (R371, R390). -/
def execDownloadInit (r : Req) (idx sub size sha seg win : Nat) (s : State) : Result :=
  let s := s.at r.t
  .next <| s.serve svcDownloadInit r idx sub (natLe 8 size ++ natLe 32 sha ++ natLe 2 seg ++ natLe 2 win) fun s =>
    match s.transferCheck r false idx sub with
    | some c => refuse c s
    | none =>
      if 0x80000000 < size ∨ seg < 256 ∨ 1384 < seg ∨ win < 1 ∨ 64 < win then refuse 0x02000006 s
      else match s.downloadCheck idx sub size with
        | some c => refuse c s
        | none =>
          let tid := s.odp.nextTid
          let x : Transfer :=
            { tid := tid, upload := false, idx := idx, sub := sub,
              sid := (match r.trailer with | some tr => tr.session | none => 0),
              size := size, sha := sha, seg := seg, window := win, content := [], acked := 0, sent := 0,
              unacked := 0, lastSeg := none, last := s.now }
          let s := { s with odp := { s.odp with transfers := s.odp.transfers ++ [x], nextTid := (tid + 1) % 65536 } }
          ⟨0, natLe 2 tid ++ natLe 2 win, s.downloadBegin idx size⟩

/-- A transfer datagram that has no answer of its own (SEGMENT, ACK): served, authenticated, and refused
without a session; `body` is its effect. -/
def State.serveQuiet (s : State) (svc : Nat) (r : Req) (data : Bytes) (body : State → State) : State :=
  if s.servesOdp = false ∨ s.addressed r.target = false then s
  else match s.authenticate svc r 0 0 data with
    | none => s.bump 0x1817 0
    | some s =>
      match s.checkFrame svc r 0 with
      | some c => s.answer (mkAnswer svc r 0 0 c [])
      | none => if s.inSession r 0 then body s else s.answer (mkAnswer svc r 0 0 0x04000001 [])

/-- Receiver of a download: what a segment does (R372). -/
def State.placeSegment (s : State) (tid offset : Nat) (data : Bytes) : State :=
  match s.transfer? tid with
  | none => s
  | some x =>
    if x.upload then s
    else
      let next := x.content.length
      if offset = next ∧ 0 < data.length ∧ data.length ≤ x.seg ∧ next + data.length ≤ x.size then
        let half := Max.max 1 (x.window / 2)
        let y := { x with content := x.content ++ data, lastSeg := some s.now, last := s.now }
        if half ≤ x.unacked + 1 then
          (s.setTransfer { y with unacked := 0 }).emit (.ack tid (next + data.length))
        else s.setTransfer { y with unacked := x.unacked + 1 }
      else (s.setTransfer { x with lastSeg := some s.now }).emit (.ack tid next)

/-- SEGMENT (R371, R372). -/
def execSegment (r : Req) (tid offset : Nat) (data : Bytes) (s : State) : Result :=
  let s := s.at r.t
  .next <| s.serveQuiet svcSegment r (natLe 2 tid ++ natLe 2 0 ++ natLe 8 offset ++ data) fun s =>
    s.placeSegment tid offset data

/-- Segment size of an upload, which UPLOAD-INIT does not carry: a free value between 256 and 1,384 (R371). -/
def uploadSegment (free : Nat) : Nat := 256 + free % 1129

/-- Sends segments up to the granted window past the acknowledged data (R372); `n` bounds their number. -/
def State.sendSegments (s : State) (x : Transfer) : Nat → State × Transfer
  | 0 => (s, x)
  | n + 1 =>
    if x.sent < x.size ∧ x.sent < x.acked + x.window * x.seg then
      let d := (x.content.drop x.sent).take x.seg
      (s.emit (.segment x.tid x.sent d)).sendSegments { x with sent := x.sent + d.length } n
    else (s, x)

/-- ACK from the receiver of an upload (R372): an ACK that acknowledges nothing new below data already sent
resends from its offset. -/
def State.takeAck (s : State) (tid offset : Nat) : State :=
  match s.transfer? tid with
  | none => s
  | some x =>
    if x.upload = false ∨ x.sent < offset then s
    else
      let back := decide (offset ≤ x.acked) && decide (offset < x.sent)
      let y := { x with acked := offset, sent := if back then offset else x.sent, last := s.now }
      let (s, y) := s.sendSegments y y.window
      s.setTransfer y

/-- ACK (R371, R372). -/
def execAck (r : Req) (tid offset : Nat) (s : State) : Result :=
  let s := s.at r.t
  .next <| s.serveQuiet svcAck r (natLe 2 tid ++ natLe 2 0 ++ natLe 8 offset) fun s => s.takeAck tid offset

/-- ACK_TIMER (R372): 200 µs after the last segment received. -/
def execAckTimer (tid t : Nat) (s : State) : Result :=
  let s := s.at t
  match s.transfer? tid with
  | none => .next s
  | some x =>
    match x.lastSeg with
    | none => .next s
    | some t0 =>
      if x.upload = false ∧ t0 + 200000 ≤ s.now then
        .next ((s.setTransfer { x with lastSeg := none, unacked := 0 }).emit (.ack tid x.content.length))
      else .next s

/-- DOWNLOAD-END (R372, R392): size and digest are compared, then the object's own check follows. -/
def execDownloadEnd (r : Req) (tid : Nat) (s : State) : Result :=
  let s := s.at r.t
  .next <| s.serve svcDownloadEnd r 0 0 (natLe 2 tid) fun s =>
    if s.inSession r 0 = false then refuse 0x04000001 s
    else match s.transfer? tid with
      | none => refuse 0x04000006 s
      | some x =>
        if x.upload then refuse 0x04000006 s
        else
          let s := s.dropTransfer tid
          if x.content.length = x.size ∧ Hash.digest x.content = x.sha then
            match s.downloadDone x.idx x.sub x.content with
            | .ok s => ⟨0, [], s⟩
            | .error c => refuse c (s.downloadRefused x.idx c)
          else refuse 0x04000007 (s.downloadAborted x.idx)

/-- UPLOAD-INIT (R371, R390, R391): the content as it stands now. -/
def execUploadInit (r : Req) (idx sub win : Nat) (s : State) : Result :=
  let s := s.at r.t
  .next <| s.serve svcUploadInit r idx sub (natLe 2 win) fun s =>
    match s.transferCheck r true idx sub with
    | some c => refuse c s
    | none =>
      if win < 1 ∨ 64 < win then refuse 0x02000006 s
      else match s.uploadContent idx sub with
        | .error c => refuse c s
        | .ok content =>
          let tid := s.odp.nextTid
          let sha := Hash.digest content
          let (f, s) := s.fresh
          let x : Transfer :=
            { tid := tid, upload := true, idx := idx, sub := sub,
              sid := (match r.trailer with | some tr => tr.session | none => 0),
              size := content.length, sha := sha, seg := uploadSegment f, window := win, content := content,
              acked := 0, sent := 0, unacked := 0, lastSeg := none, last := s.now }
          let (s, x) := s.sendSegments x win
          let s := { s with odp := { s.odp with transfers := s.odp.transfers ++ [x], nextTid := (tid + 1) % 65536 } }
          ⟨0, natLe 2 tid ++ natLe 8 content.length ++ natLe 32 sha, s⟩

/-- UPLOAD-END (R371). -/
def execUploadEnd (r : Req) (tid : Nat) (s : State) : Result :=
  let s := s.at r.t
  .next <| s.serve svcUploadEnd r 0 0 (natLe 2 tid) fun s =>
    if s.inSession r 0 = false then refuse 0x04000001 s
    else match s.transfer? tid with
      | none => refuse 0x04000006 s
      | some _ => ⟨0, [], s.dropTransfer tid⟩

/-- A transfer ends without its content: a download's object returns to what it was. -/
def State.abortTransfer (s : State) (x : Transfer) : State :=
  let s := s.dropTransfer x.tid
  if x.upload then s else s.downloadAborted x.idx

/-- TRANSFER-ABORT from the host (R371). -/
def execTransferAbort (r : Req) (tid code : Nat) (s : State) : Result :=
  let s := s.at r.t
  .next <| s.serve svcTransferAbort r 0 0 (natLe 2 tid ++ natLe 4 code) fun s =>
    if s.inSession r 0 = false then refuse 0x04000001 s
    else match s.transfer? tid with
      | none => refuse 0x04000006 s
      | some x => ⟨0, [], s.abortTransfer x⟩

/-- TRANSFER_TIMEOUT (R372): 10 s without a valid segment or ACK. -/
def execTransferTimeout (tid t : Nat) (s : State) : Result :=
  let s := s.at t
  match s.transfer? tid with
  | none => .next s
  | some x =>
    if x.last + 10000000000 ≤ s.now then .next ((s.abortTransfer x).emit (.transferAbort tid 0x04000006))
    else .next s

end Sys2Proof.Machine
end

