-- ==== Sys2Proof/Machine/Trees.lean ====
section
/-! DEFINITION. The commands of the feature front and the tree banks (R104, R105, R110, R113, R413). -/

namespace Sys2Proof.Machine

open Sys2Proof.Bits

/-- The verdict crossing of a bank holds 64 entries (R14); what the bank still evaluates counts with them. -/
def State.crossingFull (s : State) (b : Nat) : Bool := decide (64 ≤ (s.tree.jobs.filter fun j => j.banks.head? = some b).length)

/-- A head waits in this cycle for banks; a bank counts a cycle once (R113, 0x4801). -/
def State.waitBanks (s : State) (banks : List Nat) : State :=
  let s := (banks.filter fun b => !(s.tree.waited.contains b)).foldl (fun s b => s.bump 0x4801 (b + 1)) s
  { s with tree := { s.tree with waited := banks ++ s.tree.waited } }

/-- TREE_VECTOR_ENTRY (R93 to R98, R104, R113): the head of a pipe's vector queue in one ARITH cycle. The rotation
starts one pipe later in each cycle; a head is served when every bank it needs is still free, and otherwise it waits, and the
cycle counts once for each bank it needs. A bank whose verdict crossing (64) is full takes none (R15). A vector that no bank scores is
undetermined at once (R108, R413); the features that a NaN made missing count all the same (R96). -/
def execTreeVectorEntry (pipe : Fin 4) (cycle t : Nat) (s : State) : Result :=
  tapsFlushed <|
  let s := s.at t
  if s.frozen then .next s else
  let pos := (pipe.val + 4 - cycle % 4) % 4
  let s := if cycle ≤ s.tree.cycle then s else { s with tree := { s.tree with cycle := cycle, used := [], pos := 0, waited := [] } }
  if cycle < s.tree.cycle ∨ pos < s.tree.pos then .next s
  else match s.pkts.find? fun p => p.stage = .vector ∧ p.pipe = pipe.val with
    | none => .next s
    | some p =>
      let s := { s with tree := { s.tree with pos := pos + 1 } }
      let ens := actEnsemble p.action
      let none_ (s : State) : State := s.applyVerdict p ens 8 nan32
      match s.modelOf p.ma with
      | none => .next (none_ s)
      | some m =>
        let e := m.ens.getD ens 0
        let banks := ensBanks e p.port
        let (v, nans) := vectorOf m p
        if e = 0 ∨ banks = [] ∨ (banks.any fun b => s.tree.suspect.contains b) = true then .next (none_ (s.bumpBy 0x4803 0 nans))
        else if banks.any fun b => s.tree.used.contains b || s.crossingFull b then .next (s.waitBanks banks)
        else
          let s := s.bumpBy 0x4803 0 nans
          let s := s.setPkt { p with stage := .banks }
          .next { s with tree := { s.tree with
            used := banks ++ s.tree.used
            jobs := s.tree.jobs ++ [⟨p.pid, ens, banks, v, s.now⟩] } }

/-- TREE_VERDICT (R104 to R112): the oldest verdict of the crossing of bank `b`, the lowest of its gang. -/
def execTreeVerdict (b : Fin 4) (t : Nat) (s : State) : Result :=
  tapsFlushed <|
  let s := s.at t
  if s.frozen then .next s else
  match s.tree.jobs.find? fun j => j.banks.head? = some b.val with
  | none => .next s
  | some j =>
    let s := { s with tree := { s.tree with jobs := s.tree.jobs.filter fun x => decide (x.pid ≠ j.pid) } }
    let s := j.banks.foldl (fun s b => s.bump 0x4800 (b + 1)) s
    match s.pkt? j.pid with
    | none => .next s
    | some p =>
      match s.modelOf p.ma with
      | none => .next (s.applyVerdict p j.ens 8 nan32)
      | some m =>
        let (c, y) := verdictOf m (m.ens.getD j.ens 0) j.banks j.feats
        .next (s.applyVerdict p j.ens c y)

/-- TREE_BANK_TIMEOUT (R413, R415): a bank has held a vector for 64 ARITH cycles (71 ns at the nominal clock). The bank
is suspect, and what it holds takes the undetermined verdict. -/
def execTreeBankTimeout (b : Fin 4) (t : Nat) (s : State) : Result :=
  tapsFlushed <|
  let s := s.at t
  if s.frozen then .next s else
  match s.tree.jobs.find? fun j => j.banks.contains b.val && decide (j.entry + 71 ≤ s.now) with
  | none => .next s
  | some j =>
    let stuck := s.tree.jobs.filter fun x => x.banks.contains b.val
    let s := { s with tree := { s.tree with
      suspect := b.val :: s.tree.suspect.filter fun x => decide (x ≠ b.val)
      jobs := s.tree.jobs.filter fun x => !x.banks.contains b.val } }
    let s := stuck.foldl (fun s x => match s.pkt? x.pid with
      | some p => s.applyVerdict p x.ens 8 nan32
      | none => s) s
    .next (s.suspectUnit { cls := 0x13, uKind := 2, unit := b.val, detail := natLe 1 j.ens })

end Sys2Proof.Machine
end

