-- ==== Sys2Proof/Machine/Dispatch.lean ====
section
/-! DEFINITION. One arm per command: a direct call of its meaning. -/

namespace Sys2Proof.Machine

def exec (i : Instr) (s : State) : Host.Outcome State Fault Refusal :=
  match i with
  | .inputBelowRange mv t => Sys2Proof.Machine.execInputBelowRange mv t s
  | .inputValid mv t => Sys2Proof.Machine.execInputValid mv t s
  | .inputOvervoltage mv t => Sys2Proof.Machine.execInputOvervoltage mv t s
  | .inputVoltageEvent mv t => Sys2Proof.Machine.execInputVoltageEvent mv t s
  | .resetNAsserted lowNs t => Sys2Proof.Machine.execResetNAsserted lowNs t s
  | .coldReset t => Sys2Proof.Machine.execColdReset t s
  | .resetToBoot t => Sys2Proof.Machine.execResetToBoot t s
  | .bootComplete t => Sys2Proof.Machine.execBootComplete t s
  | .ringJoin up0 up1 t => Sys2Proof.Machine.execRingJoin up0 up1 t s
  | .ringJoinTimeout t => Sys2Proof.Machine.execRingJoinTimeout t s
  | .railOutOfTolerance rail mv t => Sys2Proof.Machine.execRailOutOfTolerance rail mv t s
  | .droopDetected region t => Sys2Proof.Machine.execDroopDetected region t s
  | .droopRecovered region t => Sys2Proof.Machine.execDroopRecovered region t s
  | .thermalEvaluation hottest t => Sys2Proof.Machine.execThermalEvaluation hottest t s
  | .thermalLimit sensor temp t => Sys2Proof.Machine.execThermalLimit sensor temp t s
  | .dramRefreshAdjust die temp t => Sys2Proof.Machine.execDramRefreshAdjust die temp t s
  | .ppsInEdge t => Sys2Proof.Machine.execPpsInEdge t s
  | .refInChange sig t => Sys2Proof.Machine.execRefInChange sig t s
  | .faultEntry cause t => Sys2Proof.Machine.execFaultEntry cause t s
  | .faultReset t => Sys2Proof.Machine.execFaultReset t s
  | .arrayIslandFault a source t => Sys2Proof.Machine.execArrayIslandFault a source t s
  | .stateRequestPrepare r => Sys2Proof.Machine.execStateRequestPrepare r s
  | .drainExitComplete t => Sys2Proof.Machine.execDrainExitComplete t s
  | .drainExitTimeout t => Sys2Proof.Machine.execDrainExitTimeout t s
  | .stateRequestRun r => Sys2Proof.Machine.execStateRequestRun r s
  | .curtainOpen t => Sys2Proof.Machine.execCurtainOpen t s
  | .curtainSwitchComplete b t => Sys2Proof.Machine.execCurtainSwitchComplete b t s
  | .stateRequestDrain r => Sys2Proof.Machine.execStateRequestDrain r s
  | .stateRequestTest r => Sys2Proof.Machine.execStateRequestTest r s
  | .testComplete pass pattern chains t => Sys2Proof.Machine.execTestComplete pass pattern chains t s
  | .resetRequest r => Sys2Proof.Machine.execResetRequest r s
  | .mgmtLinkDown port t => Sys2Proof.Machine.execMgmtLinkDown port t s
  | .mgmtLinkUp port rate t => Sys2Proof.Machine.execMgmtLinkUp port rate t s
  | .ringFrameReceived port f t => Sys2Proof.Machine.execRingFrameReceived port f t s
  | .cycleFrameExchange port f t => Sys2Proof.Machine.execCycleFrameExchange port f t s
  | .cycleSend t => Sys2Proof.Machine.execCycleSend t s
  | .outputImageLatch t => Sys2Proof.Machine.execOutputImageLatch t s
  | .inputImageApply t => Sys2Proof.Machine.execInputImageApply t s
  | .missedCycle t => Sys2Proof.Machine.execMissedCycle t s
  | .read r idx sub => Sys2Proof.Machine.execRead r idx sub s
  | .write r idx sub data => Sys2Proof.Machine.execWrite r idx sub data s
  | .openSession r key nonce slot => Sys2Proof.Machine.execOpenSession r key nonce slot s
  | .auth r sid sig => Sys2Proof.Machine.execAuth r sid sig s
  | .close r => Sys2Proof.Machine.execClose r s
  | .sessionExpiry sid t => Sys2Proof.Machine.execSessionExpiry sid t s
  | .downloadInit r idx sub size sha seg win => Sys2Proof.Machine.execDownloadInit r idx sub size sha seg win s
  | .segment r tid offset data => Sys2Proof.Machine.execSegment r tid offset data s
  | .ack r tid offset => Sys2Proof.Machine.execAck r tid offset s
  | .ackTimer tid t => Sys2Proof.Machine.execAckTimer tid t s
  | .downloadEnd r tid => Sys2Proof.Machine.execDownloadEnd r tid s
  | .uploadInit r idx sub win => Sys2Proof.Machine.execUploadInit r idx sub win s
  | .uploadEnd r tid => Sys2Proof.Machine.execUploadEnd r tid s
  | .transferAbort r tid code => Sys2Proof.Machine.execTransferAbort r tid code s
  | .transferTimeout tid t => Sys2Proof.Machine.execTransferTimeout tid t s
  | .imageLoadCheck slot t => Sys2Proof.Machine.execImageLoadCheck slot t s
  | .firmwareSlotVerify slot t => Sys2Proof.Machine.execFirmwareSlotVerify slot t s
  | .scanContentVerify t => Sys2Proof.Machine.execScanContentVerify t s
  | .ruleCommit r acc => Sys2Proof.Machine.execRuleCommit r acc s
  | .modelCommit r acc => Sys2Proof.Machine.execModelCommit r acc s
  | .commitCancel r kind => Sys2Proof.Machine.execCommitCancel r kind s
  | .commitTakesEffect t => Sys2Proof.Machine.execCommitTakesEffect t s
  | .accessionRetire kind t => Sys2Proof.Machine.execAccessionRetire kind t s
  | .retirementOverdue kind t => Sys2Proof.Machine.execRetirementOverdue kind t s
  | .forceRetireModel r => Sys2Proof.Machine.execForceRetireModel r s
  | .forceRetireRule r => Sys2Proof.Machine.execForceRetireRule r s
  | .stageRequest r slot mode => Sys2Proof.Machine.execStageRequest r slot mode s
  | .stagingComplete slot t => Sys2Proof.Machine.execStagingComplete slot t s
  | .installListStart a t => Sys2Proof.Machine.execInstallListStart a t s
  | .installComplete a t => Sys2Proof.Machine.execInstallComplete a t s
  | .erase r slot => Sys2Proof.Machine.execErase r slot s
  | .regionCommit r => Sys2Proof.Machine.execRegionCommit r s
  | .cyclicCommit r => Sys2Proof.Machine.execCyclicCommit r s
  | .discardStaged r bits => Sys2Proof.Machine.execDiscardStaged r bits s
  | .saveConfiguration r => Sys2Proof.Machine.execSaveConfiguration r s
  | .saveComplete t => Sys2Proof.Machine.execSaveComplete t s
  | .restoreDefaults r => Sys2Proof.Machine.execRestoreDefaults r s
  | .ringMasterRoleWrite r v => Sys2Proof.Machine.execRingMasterRoleWrite r v s
  | .clockSourceWrite r v => Sys2Proof.Machine.execClockSourceWrite r v s
  | .evtOutFunctionWrite r sub v => Sys2Proof.Machine.execEvtOutFunctionWrite r sub v s
  | .ringStorageWrite r a ring sub v => Sys2Proof.Machine.execRingStorageWrite r a ring sub v s
  | .queueBindingWrite r idx sub v => Sys2Proof.Machine.execQueueBindingWrite r idx sub v s
  | .shaperWrite r idx sub v => Sys2Proof.Machine.execShaperWrite r idx sub v s
  | .holdPoolShareApply t => Sys2Proof.Machine.execHoldPoolShareApply t s
  | .hostKeySlotWrite r k key => Sys2Proof.Machine.execHostKeySlotWrite r k key s
  | .linkUp p t => Sys2Proof.Machine.execLinkUp p t s
  | .frameReceived p bytes fcsGood t => Sys2Proof.Machine.execFrameReceived p bytes fcsGood t s
  | .frameSequenced p cycle t => Sys2Proof.Machine.execFrameSequenced p cycle t s
  | .packetClassified t => Sys2Proof.Machine.execPacketClassified t s
  | .ecpriStreamExpire p msgType id t => Sys2Proof.Machine.execEcpriStreamExpire p msgType id t s
  | .catalogueLookup t => Sys2Proof.Machine.execCatalogueLookup t s
  | .bucketFetchComplete pid t => Sys2Proof.Machine.execBucketFetchComplete pid t s
  | .sweeperVisit t => Sys2Proof.Machine.execSweeperVisit t s
  | .rehashRequest r => Sys2Proof.Machine.execRehashRequest r s
  | .migrationVisit t => Sys2Proof.Machine.execMigrationVisit t s
  | .probe r => Sys2Proof.Machine.execProbe r s
  | .probeDelete r => Sys2Proof.Machine.execProbeDelete r s
  | .catalogueClear r => Sys2Proof.Machine.execCatalogueClear r s
  | .treeVectorEntry pipe cycle t => Sys2Proof.Machine.execTreeVectorEntry pipe cycle t s
  | .treeVerdict b t => Sys2Proof.Machine.execTreeVerdict b t s
  | .treeBankTimeout b t => Sys2Proof.Machine.execTreeBankTimeout b t s
  | .tapRowsWritten pipe t => Sys2Proof.Machine.execTapRowsWritten pipe t s
  | .reorderRelease p t => Sys2Proof.Machine.execReorderRelease p t s
  | .reorderTimeout p t => Sys2Proof.Machine.execReorderTimeout p t s
  | .schedulerSelect p t => Sys2Proof.Machine.execSchedulerSelect p t s
  | .frameTransmitted p t => Sys2Proof.Machine.execFrameTransmitted p t s
  | .neuralVerdictApply t => Sys2Proof.Machine.execNeuralVerdictApply t s
  | .holdTimeout pid t => Sys2Proof.Machine.execHoldTimeout pid t s
  | .listStart a t => Sys2Proof.Machine.execListStart a t s
  | .preEmption a t => Sys2Proof.Machine.execPreEmption a t s
  | .urgentPreEmption a t => Sys2Proof.Machine.execUrgentPreEmption a t s
  | .listResume a t => Sys2Proof.Machine.execListResume a t s
  | .skewResume a t => Sys2Proof.Machine.execSkewResume a t s
  | .nop a c t => Sys2Proof.Machine.execNop a c t s
  | .shelve a c t => Sys2Proof.Machine.execShelve a c t s
  | .stage a c t => Sys2Proof.Machine.execStage a c t s
  | .stream a c t => Sys2Proof.Machine.execStream a c t s
  | .streamComplete a bubbles starveA starveB t => Sys2Proof.Machine.execStreamComplete a bubbles starveA starveB t s
  | .drain a c diff t => Sys2Proof.Machine.execDrain a c diff t s
  | .drainComplete a stall t => Sys2Proof.Machine.execDrainComplete a stall t s
  | .arbitrationComplete a row t => Sys2Proof.Machine.execArbitrationComplete a row t s
  | .arbitrationTimeout a t => Sys2Proof.Machine.execArbitrationTimeout a t s
  | .swap a c t => Sys2Proof.Machine.execSwap a c t s
  | .tapFlush a c t => Sys2Proof.Machine.execTapFlush a c t s
  | .tapRelease a c t => Sys2Proof.Machine.execTapRelease a c t s
  | .emitVerdict a c t => Sys2Proof.Machine.execEmitVerdict a c t s
  | .emitTensor a c t => Sys2Proof.Machine.execEmitTensor a c t s
  | .emitMarker a c t => Sys2Proof.Machine.execEmitMarker a c t s
  | .callslip a c t => Sys2Proof.Machine.execCallslip a c t s
  | .slipComplete opId reply t => Sys2Proof.Machine.execSlipComplete opId reply t s
  | .operationTimeout opId t => Sys2Proof.Machine.execOperationTimeout opId t s
  | .wait a c t => Sys2Proof.Machine.execWait a c t s
  | .waitComplete light t => Sys2Proof.Machine.execWaitComplete light t s
  | .signal a c t => Sys2Proof.Machine.execSignal a c t s
  | .cueLightSignal r light v => Sys2Proof.Machine.execCueLightSignal r light v s
  | .cueLightTriggerFire trig t => Sys2Proof.Machine.execCueLightTriggerFire trig t s
  | .fence a c t => Sys2Proof.Machine.execFence a c t s
  | .fenceComplete a t => Sys2Proof.Machine.execFenceComplete a t s
  | .loop a c t => Sys2Proof.Machine.execLoop a c t s
  | .endloop a c t => Sys2Proof.Machine.execEndloop a c t s
  | .call a c t => Sys2Proof.Machine.execCall a c t s
  | .ret a c t => Sys2Proof.Machine.execRet a c t s
  | .restart a c t => Sys2Proof.Machine.execRestart a c t s
  | .mark a c t => Sys2Proof.Machine.execMark a c t s
  | .unmark a c t => Sys2Proof.Machine.execUnmark a c t s
  | .hold a c t => Sys2Proof.Machine.execHold a c t s
  | .holdComplete a t => Sys2Proof.Machine.execHoldComplete a t s
  | .postCue r a ring cue => Sys2Proof.Machine.execPostCue r a ring cue s
  | .fire r trig v => Sys2Proof.Machine.execFire r trig v s
  | .clockTriggerFire trig t => Sys2Proof.Machine.execClockTriggerFire trig t s
  | .doorbellReceived src d t => Sys2Proof.Machine.execDoorbellReceived src d t s
  | .pendingFiringAppend trig t => Sys2Proof.Machine.execPendingFiringAppend trig t s
  | .governorAdmit cycle t => Sys2Proof.Machine.execGovernorAdmit cycle t s
  | .rampUpComplete a t => Sys2Proof.Machine.execRampUpComplete a t s
  | .rampDownStart a gap t => Sys2Proof.Machine.execRampDownStart a gap t s
  | .rampDownComplete a t => Sys2Proof.Machine.execRampDownComplete a t s
  | .clearFallback r => Sys2Proof.Machine.execClearFallback r s
  | .fabLinkUp f peer t => Sys2Proof.Machine.execFabLinkUp f peer t s
  | .fabLinkFailed f cause t => Sys2Proof.Machine.execFabLinkFailed f cause t s
  | .flitReceived f flit crcGood fecGood t => Sys2Proof.Machine.execFlitReceived f flit crcGood fecGood t s
  | .linkStateUpdate l t => Sys2Proof.Machine.execLinkStateUpdate l t s
  | .remoteRead src offset len t => Sys2Proof.Machine.execRemoteRead src offset len t s
  | .remoteWrite src offset data t => Sys2Proof.Machine.execRemoteWrite src offset data t s
  | .remoteFetchAdd src offset addend t => Sys2Proof.Machine.execRemoteFetchAdd src offset addend t s
  | .remoteCompareSwap src offset cmp swp t => Sys2Proof.Machine.execRemoteCompareSwap src offset cmp swp t s
  | .timestampExchange f offset hops grandmaster t => Sys2Proof.Machine.execTimestampExchange f offset hops grandmaster t s
  | .holdover t => Sys2Proof.Machine.execHoldover t s
  | .grandmasterElection t => Sys2Proof.Machine.execGrandmasterElection t s
  | .sourceConflict other t => Sys2Proof.Machine.execSourceConflict other t s
  | .patrolRead rep t => Sys2Proof.Machine.execPatrolRead rep t s
  | .imbalanceWindow occupancy t => Sys2Proof.Machine.execImbalanceWindow occupancy t s
  | .fabricResidualCheck t => Sys2Proof.Machine.execFabricResidualCheck t s
  | .peek r => Sys2Proof.Machine.execPeek r s
  | .scrubPassStart t => Sys2Proof.Machine.execScrubPassStart t s
  | .scrubPassEnd u bad t => Sys2Proof.Machine.execScrubPassEnd u bad t s
  | .clearReplacementFlag r => Sys2Proof.Machine.execClearReplacementFlag r s
  | .scanRequest r mask => Sys2Proof.Machine.execScanRequest r mask s
  | .fieldScanStart a t => Sys2Proof.Machine.execFieldScanStart a t s
  | .fieldScanComplete a pass pattern chains t => Sys2Proof.Machine.execFieldScanComplete a pass pattern chains t s
  | .samplingStrobe t => Sys2Proof.Machine.execSamplingStrobe t s
  | .hostMark r id => Sys2Proof.Machine.execHostMark r id s
  | .hostUnmark r id => Sys2Proof.Machine.execHostUnmark r id s
  | .hangDeclared a t => Sys2Proof.Machine.execHangDeclared a t s
  | .freezeRequest r at_ => Sys2Proof.Machine.execFreezeRequest r at_ s
  | .freeze t => Sys2Proof.Machine.execFreeze t s
  | .dumpWritten t => Sys2Proof.Machine.execDumpWritten t s
  | .hangDumpClear r => Sys2Proof.Machine.execHangDumpClear r s
  | .ownerKeyHashConfirm r hash => Sys2Proof.Machine.execOwnerKeyHashConfirm r hash s
  | .enforcementProgram r mask => Sys2Proof.Machine.execEnforcementProgram r mask s
  | .raiseCounter r c => Sys2Proof.Machine.execRaiseCounter r c s
  | .activateFirmwareSlot r slot => Sys2Proof.Machine.execActivateFirmwareSlot r slot s
  | .confirmFirmware r => Sys2Proof.Machine.execConfirmFirmware r s
  | .attestationNonce r nonce => Sys2Proof.Machine.execAttestationNonce r nonce s
  | .attestationReportReady t => Sys2Proof.Machine.execAttestationReportReady t s
  | .debugToken r token => Sys2Proof.Machine.execDebugToken r token s
  | .debugRelock r => Sys2Proof.Machine.execDebugRelock r s
  | .linkDown p t => Sys2Proof.Machine.execLinkDown p t s
  | .stageComplete a t => Sys2Proof.Machine.execStageComplete a t s
  | .shelveComplete a t => Sys2Proof.Machine.execShelveComplete a t s
  | .emitComplete a t => Sys2Proof.Machine.execEmitComplete a t s
  | .doorbellAccepted opId t => Sys2Proof.Machine.execDoorbellAccepted opId t s
  | .resetNRises t => Sys2Proof.Machine.execResetNRises t s
  | .ppsOutput t => Sys2Proof.Machine.execPpsOutput t s
  | .evtOutPulseEnd t => Sys2Proof.Machine.execEvtOutPulseEnd t s
  | .debugPortInstruction ins => Sys2Proof.Machine.execDebugPortInstruction ins s

end Sys2Proof.Machine
end

