-- ==== Sys2Proof/Safety.lean ====
section
/-! DEFINITION. What counts as a safe run, and the terms in which the statements speak: tables in their one form, what is fixed or
blown once, what a command answers, and what it leaves unchanged. -/

namespace Sys2Proof.Machine

/-! ## Invariants -/

/-- The stacks and the tables of objects, counters, triggers, tap buffers and queues are in their one form. -/
def State.canonical (s : State) : Bool :=
  Memory.wf s && Sparse.wf objDefault s.dict && Sparse.wf stagedDefault s.staged && Sparse.wf (fun _ => 0) s.trust.counters &&
  Sparse.wf (fun _ => ({} : Trig)) s.sync.trigs && Sparse.wf (fun _ => ({} : Tap)) s.sync.taps &&
  Sparse.wf (fun _ => ([] : List QItem)) s.egr.q

/-- The fuses of `u` hold whatever those of `t` hold (R459): no enforcement bit is cleared, a set owner key hash stays, a revoked
vendor key stays revoked, and no anti-rollback counter falls. -/
structure Trust.Blown (t u : Trust) : Prop where
  enforcement : t.enforcement &&& u.enforcement = t.enforcement
  ownerHash   : t.ownerHash ≠ 0 → u.ownerHash = t.ownerHash
  revoked     : t.vendor0Revoked = true → u.vendor0Revoked = true
  counters    : ∀ c, Sparse.read (fun _ => 0) t.counters c ≤ Sparse.read (fun _ => 0) u.counters c

/-- What no command changes: what is fixed at manufacture, and the commands that wait; and the fuses only blow. -/
structure State.Keeps (s u : State) : Prop where
  mfg     : u.mfg = s.mfg
  pending : u.pending = s.pending
  fuses   : s.trust.Blown u.trust

/-- The gate switches stand as R22, R24 and R356 let them: the in-line curtain's is on only in RUN and DRAIN, and the
management-ring bypass's never in OFF, RESET or FAULT; without VCG neither is (R496). -/
def State.curtainSafe (s : State) : Bool :=
  (!s.pwr.gateInline || decide (s.dev.st = .run) || decide (s.dev.st = .drain)) &&
  (!s.pwr.gateRing || (decide (s.dev.st ≠ .off) && decide (s.dev.st ≠ .reset) && decide (s.dev.st ≠ .fault))) &&
  (s.pwr.vcgUp || (!s.pwr.gateInline && !s.pwr.gateRing))

/-- The rows of the table of R378. -/
def deviceMove : DevState → DevState → Bool
  | _, .off => true
  | _, .fault => true
  | _, .reset => true
  | .reset, .boot => true
  | .boot, .prepare => true
  | .prepare, .run => true
  | .prepare, .test => true
  | .run, .drain => true
  | .drain, .run => true
  | .drain, .prepare => true
  | .drain, .test => true
  | _, _ => false

/-! ## What a command leaves unchanged -/

/-- The parts of the state. -/
inductive Part where
  | mfg | dict | staged | pwr | dev | clock | mgmt | odp | flash | saving | mem | line | intake | pkts | nextPid | egr | cat | tree
  | arr | sync | lib | fab | memc | rel | obs | trust | free | out | pending
  deriving DecidableEq, Repr

/-- Part `p` is the same in both states. -/
def Part.Same (p : Part) (s u : State) : Prop :=
  match p with
  | .mfg => u.mfg = s.mfg
  | .dict => u.dict = s.dict
  | .staged => u.staged = s.staged
  | .pwr => u.pwr = s.pwr
  | .dev => u.dev = s.dev
  | .clock => u.clock = s.clock
  | .mgmt => u.mgmt = s.mgmt
  | .odp => u.odp = s.odp
  | .flash => u.flash = s.flash
  | .saving => u.saving = s.saving
  | .mem => u.mem = s.mem
  | .line => u.line = s.line
  | .intake => u.intake = s.intake
  | .pkts => u.pkts = s.pkts
  | .nextPid => u.nextPid = s.nextPid
  | .egr => u.egr = s.egr
  | .cat => u.cat = s.cat
  | .tree => u.tree = s.tree
  | .arr => u.arr = s.arr
  | .sync => u.sync = s.sync
  | .lib => u.lib = s.lib
  | .fab => u.fab = s.fab
  | .memc => u.memc = s.memc
  | .rel => u.rel = s.rel
  | .obs => u.obs = s.obs
  | .trust => u.trust = s.trust
  | .free => u.free = s.free
  | .out => u.out = s.out
  | .pending => u.pending = s.pending

/-- Only the parts `ps` change. -/
def Within (ps : List Part) (s u : State) : Prop := ∀ p : Part, p ∉ ps → p.Same s u

/-- The dictionary's value of an object. -/
def State.obj (s : State) (idx sub : Nat) : Nat := Sparse.read objDefault s.dict (objKey idx sub)

/-- Only objects whose index and sub-index `k` picks change. -/
def ObjsBut (k : Nat → Nat → Bool) (s u : State) : Prop :=
  ∀ idx sub, sub < 65536 → k idx sub = false → u.obj idx sub = s.obj idx sub

/-- The byte of the stacks at a local offset. -/
def State.byteAt (s : State) (x : Nat) : Byte := Sparse.read s.memDef s.mem x

/-- Only bytes of the stacks that `p` picks change. -/
def BytesBut (p : Nat → Bool) (s u : State) : Prop := ∀ x, p x = false → u.byteAt x = s.byteAt x

/-- Only buckets of the catalogue that `p` picks change their entries. -/
def BucketsBut (p : Nat → Bool) (s u : State) : Prop := ∀ b, p b = false → u.bucket b = s.bucket b

/-- Only arrays that `p` picks change. -/
def ArraysBut (p : Nat → Bool) (s u : State) : Prop := ∀ a : Fin 16, p a.val = false → u.arrAt a.val = s.arrAt a.val

/-- Only tap buffers of descriptors that `p` picks change. -/
def TapsBut (p : Nat → Bool) (s u : State) : Prop := ∀ d, p d = false → u.tap d = s.tap d

/-- Only triggers that `p` picks change. -/
def TrigsBut (p : Nat → Bool) (s u : State) : Prop := ∀ t, p t = false → u.trig t = s.trig t

/-- Only egress queues that `p` picks change. -/
def QueuesBut (p : Nat → Bool) (s u : State) : Prop := ∀ q, p q = false → u.queue q = s.queue q

/-- Only entries of a table that `p` picks change, `f` giving what an unlisted one reads as. -/
def SparseBut {α : Type} [DecidableEq α] (f : Nat → α) (p : Nat → Bool) (x y : Sparse α) : Prop :=
  ∀ k, p k = false → Sparse.read f y k = Sparse.read f x k

/-- A patrol read of channel `c` that leaves state `u` raises the correctable-rate alert (R271): the errors since the hour's first patrol
read exceed the threshold, and the alert is not yet raised in this hour. -/
def State.overRate (s u : State) (c : Nat) : Bool :=
  let h := u.now / 3600000000000 + 1
  let x := Sparse.read (fun _ => (0, 0)) s.memc.hourly c
  decide (s.get 0x6017 0 < u.correctable c - (if x.1 = h ∨ x.1 = 0 then x.2 else u.correctable c)) &&
  !(decide (x.1 = h) && s.memc.rateAlert.contains c)

/-- The channel that patrol reads next (R270). -/
def State.patrolChannel (s : State) : Nat := s.channelOf (s.memc.patrol / 4)

/-- Every one of these buckets is in the hot cache, and the parity of its entries agrees (R70, R82). -/
def State.hotSound (s : State) (bs : List Nat) : Bool :=
  bs.all fun b => (s.way? b).isSome && (s.bucket b).all fun e => !entryValid e || parityOk e

/-! ## Events, error records and the logbook -/

/-- Objects in which events, error records and the logbook keep their counts (R365, R422, R423, R437, R440). -/
def noteObj (idx : Nat) : Bool :=
  [0x1815, 0x1816, 0x8031, 0x8032, 0x8033, 0x8809, 0x880A, 0x880B, 0x880C, 0x880D].contains idx

/-- The byte lies in the circular area of the logbook (R436). -/
def State.inLog (s : State) (x : Nat) : Bool := decide (s.regionBase 3 ≤ x) && decide (x < s.regionBase 3 + s.logArea)

/-- The dictionary is in its one form, and the logbook's write offset names a line of the circular area (R436). -/
structure State.LogSound (s : State) : Prop where
  form  : Sparse.wf objDefault s.dict = true
  whole : s.logArea % 64 = 0
  line  : s.get 0x8809 0 % 64 = 0
  below : s.get 0x8809 0 < s.logArea

/-- Beside the objects that `k` picks only those change in which events, records and the logbook count, and of the stacks only the
logbook's circular area. -/
structure Notes (k : Nat → Nat → Bool) (s u : State) : Prop where
  objs  : ObjsBut (fun i j => k i j || noteObj i) s u
  bytes : s.LogSound → BytesBut s.inLog s u

/-- The objects that count answers (R362, R382). -/
def ansObj (idx sub : Nat) : Bool := (idx == 0x1812 || idx == 0x1813) && sub == 0

/-- No object is picked. -/
def noObj (_ _ : Nat) : Bool := false

/-- One event was raised (R365): its sequence number is taken, and it was sent or counted as suppressed. -/
structure Raised (code idx sub : Nat) (s u : State) : Prop where
  number : u.odp.eventSeq = (s.odp.eventSeq + 1) % 2 ^ 32
  sent   : Emission.event code s.odp.eventSeq u.now idx sub ∈ u.out ∨ u.obj 0x1816 0 = (s.obj 0x1816 0 + 1) % 2 ^ 64

/-- One error of class `cls` was reported (R419, R420, R365): a record number is taken and the class's event raised. -/
structure Reported (cls : Nat) (s u : State) : Prop where
  number : u.flash.recNo = (s.flash.recNo + 1) % 2 ^ 32
  event  : Raised (0x00010000 + cls) 0 0 s u

/-- The youngest record of the error journal, or in FAULT of those kept with the logbook (R422). -/
def State.lastRecord (u : State) : Option JournalRec :=
  if u.dev.st = .fault then u.rel.faultLog.getLast? else u.flash.journal.getLast?

/-- One error of severity 2 or 3 was recorded (R419, R420, R422): under the next record number, with its class and unit. -/
structure Recorded (cls uKind unit : Nat) (s u : State) : Prop where
  number : u.flash.recNo = (s.flash.recNo + 1) % 2 ^ 32
  record : u.lastRecord.any (fun r => decide (Bits.le r 16 1 = cls) && decide (Bits.le r 18 1 = uKind) && decide (Bits.le r 19 1 = unit) &&
    decide (Bits.le r 4 4 = s.flash.recNo)) = true

/-! ## The ring -/

/-- A cycle frame of another source passes on at a joined module that is no ring master (R355, R357, R366). -/
def State.passes (s : State) (i : Fin 2) (f : RingFrame) : Bool :=
  s.mgmt.joined && s.mgmtLink i.val && decide (f.hop + 1 ≤ 1024) && !(s.flag 0x1805 0) &&
  (decide (f.source = 0) || decide (f.source ≠ s.get 0x1803 0))

/-- The frames of cycle `k` with apply time `ak` left a ring master (R355, R359, R366): one for each image, or an empty one, on each
port that is up, west out of M1. -/
structure SentCycle (s u : State) (k ak : Nat) : Prop where
  east : s.mgmt.link0 = true → ∀ n img, (if s.mgmt.masterIn.isEmpty then [[]] else s.mgmt.masterIn)[n]? = some img →
    .ringFrame 0 {
      ethertype := 0x88B5, gen := 2, kind := 1, west := false, hop := 0, source := s.get 0x1803 0, sequence := k % 2 ^ 24,
      index := n, body := Bits.natLe 8 (s.get 0x1807 0 + k * s.cyclePeriod) ++ Bits.natLe 8 ak ++ img } ∈ u.out
  west : s.mgmt.link1 = true → ∀ n img, (if s.mgmt.masterIn.isEmpty then [[]] else s.mgmt.masterIn)[n]? = some img →
    .ringFrame 1 {
      ethertype := 0x88B5, gen := 2, kind := 1, west := true, hop := 0, source := s.get 0x1803 0, sequence := k % 2 ^ 24,
      index := n, body := Bits.natLe 8 (s.get 0x1807 0 + k * s.cyclePeriod) ++ Bits.natLe 8 ak ++ img } ∈ u.out
  count : u.out.length = s.out.length + (Max.max 1 s.mgmt.masterIn.length) *
    ((if s.mgmt.link0 then 1 else 0) + (if s.mgmt.link1 then 1 else 0))

/-! ## Reset and FAULT -/

/-- The gate switches stand open and every bypass element closes or stays closed (R24, R485). -/
structure State.Closed (s u : State) : Prop where
  inline_ : u.pwr.gateInline = false
  ring    : u.pwr.gateRing = false
  pair01  : u.pwr.pair01 = s.pwr.pair01.close
  pair23  : u.pwr.pair23 = s.pwr.pair23.close
  bypass  : u.pwr.ring = s.pwr.ring.close

/-- A reset was entered (R22, R428, R492, R493): its kind and cause, the curtain closed, every object at its default but those a
warm reset keeps, every packet, list, session and queue gone; stacks and flash as they were, fuses blown as they were or more. -/
structure State.Restarted (s u : State) (kind : BootKind) (cause : Nat) : Prop where
  entered : u.dev.st = .reset ∧ u.dev.boot = kind ∧ u.dev.trans = .none ∧ u.dev.noFaultReset = false
  cause   : u.obj 0x2004 0 = cause
  objects : ObjsBut (fun i j => i == 0x2004 && j == 0) { s with dict := if kind.isCold then [] else s.dict.filter fun e => keptWarm e.1 } u
  closed  : s.Closed u
  empty   : u.staged = [] ∧ u.saving = none ∧ u.pkts = [] ∧ u.egr = {} ∧ u.cat = {} ∧ u.tree = {} ∧ u.lib = {} ∧ u.fab = {} ∧ u.mgmt = {} ∧
    u.line = Vector.replicate 4 {} ∧ u.arr = Vector.replicate 16 {}
  odp     : u.odp = { eventSeq := if kind.isCold then 0 else s.odp.eventSeq }
  fuses   : s.trust.Blown u.trust ∧ u.trust.level = 0
  frame   : Within [.dict, .staged, .pwr, .dev, .clock, .mgmt, .odp, .saving, .line, .intake, .pkts, .egr, .cat, .tree, .arr, .sync, .lib,
    .fab, .memc, .rel, .obs, .trust] s u

/-- FAULT was entered for a cause of class `cls` (R22, R24, R315, R424): the curtain closed, both management links down, no packet left,
the class in 0x2005:00, and its record kept for BOOT. -/
structure State.Faulted (s u : State) (cls uKind unit : Nat) : Prop where
  entered : u.dev.st = .fault ∧ u.dev.trans = .none ∧ u.dev.stopAt = some u.now
  cause   : u.obj 0x2005 0 = cls
  closed  : s.Closed u
  ring    : u.mgmt.joined = false ∧ u.mgmt.link0 = false ∧ u.mgmt.link1 = false
  record  : Recorded cls uKind unit s u
  kept    : u.rel.faultLog.length = s.rel.faultLog.length + 1 ∧ u.flash = { s.flash with recNo := (s.flash.recNo + 1) % 2 ^ 32 }
  empty   : u.pkts = []
  frame   : Within [.dict, .pwr, .dev, .clock, .mgmt, .odp, .flash, .mem, .line, .intake, .pkts, .egr, .arr, .sync, .fab, .memc, .rel, .obs,
    .free, .out] s u

/-! ## Requests -/

/-- The request reaches its service (R361 to R364 steps 1 to 3, R370): ODP is served, the module is addressed, the trailer, if any,
is authentic, no answer to it stands in the history, and frame, generation and device state allow the service. `u` is the state in
which its object is looked at. -/
structure State.Admits (s : State) (svc : Nat) (r : Req) (idx sub : Nat) (data : Bytes) (u : State) : Prop where
  served    : (s.at r.t).servesOdp = true
  addressed : (s.at r.t).addressed r.target = true
  authentic : (s.at r.t).authenticate svc r idx sub data = some u
  fresh     : (u.odp.history.find? fun a => a.isOf r) = none
  allowed   : u.checkFrame svc r idx = none

/-- The answer leaves the module and stands first in the history (R361, R362). -/
structure State.Answered (u : State) (svc : Nat) (r : Req) (idx sub abort : Nat) (data : Bytes) : Prop where
  sent : u.out.head? = some (.answer (mkAnswer svc r idx sub abort data))
  kept : u.odp.history.head? = some (mkAnswer svc r idx sub abort data)

/-- What serving a request changes beside its answer, from the state `u` that admitted it: the parts `ps` and the objects that `k` picks;
of ODP the history alone, and of what leaves the module the answer alone. -/
structure Served (ps : List Part) (k : Nat → Nat → Bool) (s u v : State) : Prop where
  frame   : Within (ps ++ [.odp, .out, .dict, .clock]) s v
  objects : ObjsBut (fun i j => k i j || ansObj i j) s v
  odp     : v.odp = { u.odp with history := v.odp.history }
  out     : v.out.tail = s.out

/-- A WRITE of `v` to the object passes the checks of R364. -/
def State.Writable (s : State) (r : Req) (idx sub v : Nat) (u : State) : Prop :=
  let data := Bits.natLe ((objRow? idx sub).elim 0 fun row => tySize row.ty) v
  s.Admits svcWrite r idx sub data u ∧ (u.checkWrite (u.inSession r idx) idx sub data).toOption.isSome = true

/-! ## Cues -/

/-- The eight words of the cue a list stands at. -/
def State.cueWords (s : State) (a : Nat) (r : Run) : List Nat := words (s.cueBytes a r)

/-- The list's next cue has this opcode and passes the checks of R216, R217, R219 and R222, and the comparison of its two
understudies or arrays, if any, agrees (R407, R412). -/
def State.mayIssue (s : State) (a op : Nat) (c : CueCheck) (r : Run) : Bool :=
  decide (w (s.cueWords a r) 0 % 256 = op) && decide (s.firstError a r (s.cueWords a r) = none) &&
  (match c with | .agree => true | .lockstepCue => !(s.flag 0x8000 0 && externalCue (s.cueWords a r)) | .understudy _ => false)

/-- The words of the cue at the head of a ring. -/
def State.headWords (s : State) (a r : Nat) : List Nat := words (s.cueAt a (s.slotAddr a r (s.consumer a r)))

/-- The head of a ring has its parity and its sequence (R216). -/
def State.headSound (s : State) (a r : Nat) : Bool :=
  decide (parityMask (s.headWords a r) = 0) && decide (Bits.fld (w (s.headWords a r) 7) 23 0 = s.consumer a r % 2 ^ 24)

/-- The running list, if any, waits for nothing and is not to be rewound. -/
def State.runClear (s : State) (a : Nat) : Bool :=
  match (s.arrAt a).run with
  | none => true
  | some r => decide (r.block = .none) && !r.rewind

/-- The running list's next cue has this opcode; a reserved opcode counts as NOP. -/
def State.nextIs (s : State) (a op : Nat) : Bool :=
  match s.issuing a with
  | none => false
  | some r => decide (w (s.cueWords a r) 0 % 256 = op) || decide (op = opNop) && !(opcodes.contains (w (s.cueWords a r) 0 % 256))

/-- The list after a cue has been issued (R214, R218, R226). -/
def Run.stepped (r : Run) (ws : List Nat) (now : Nat) : Run :=
  { r with
    pos := r.pos.next, last := r.pos, ending := Bits.bit (w ws 0) 15, issued := r.issued + 1, progress := now
    evt := if r.launched = false ∧ r.issued = 0 then now else r.evt }

/-- The list after an abort to its restart point (R229, R230, R232). -/
def Run.rewound (r : Run) (resume : Option Nat) : Run :=
  { r with
    pos := r.restart.pos, stack := r.restart.stack, retries := r.retries + 1, block := .none, ending := false, rewind := false
    resume := resume, restart := { r.restart with written := [] } }

/-- Cues of a class in flight on an array. -/
def State.inFlight (s : State) (a : Nat) (c : CueClass) : Nat :=
  (((s.listsOf a).flatMap fun r => r.fly).filter fun f => decide (f.cls = c)).length

/-- Where the running list of an array stands: its position, the last cue issued, and what it waits for. -/
def State.stand (s : State) (a : Nat) : Option (Pos × Pos × Block) := (s.arrAt a).run.map fun r => (r.pos, r.last, r.block)

/-- Where a restart point of a list lies once its cue has been issued (R229). -/
def State.pointAfter (s : State) (a : Nat) (r : Run) : Restart := ⟨r.pos.next, r.stack, (s.arrAt a).front, [], r.issued + 1⟩

/-- The verdict of a held packet by EMIT VERDICT (R245): its handle and first row, from the scores that lie at line `l`. -/
def State.neuralOf (s : State) (a : Nat) (ws : List Nat) (l : Nat) (h : Nat × Nat) : Neural :=
  let k := neuralClass (Bits.fld (w ws 2) 27 24) ((List.range (Bits.fld (w ws 2) 31 28)).map fun i =>
    codeAt (Bits.fld (w ws 2) 27 24) (s.wings a ((l + h.2 * Bits.fld (w ws 3) 7 0) * 64) 64) i)
  ⟨h.1, a, Bits.fld (w ws 2) 23 20, k.1, k.2⟩

/-- The operation that the slip in line `l` stands for (R250, R335). -/
def State.slipAt (s : State) (a : Nat) (r : Run) (ws : List Nat) (l : Nat) : FabOp :=
  slipOp (s.wings a (l * 64) 64) s.fab.nextOp s.fab.nextOp a l (Bits.bit (w ws 0) 8)
    (if Bits.bit (w ws 2) 11 then some (Bits.fld (w ws 2) 10 0) else none) (s.posAddr a r r.pos) r.pos.seq

/-- The wings and row tags of one array change at one line only, as both arrays of its pair under full redundancy (R409). -/
def WingLine (a l : Nat) (s u : State) : Prop :=
  ∀ b : Fin 16, u.arrAt b.val = { s.arrAt b.val with
      run := (u.arrAt b.val).run, susp := (u.arrAt b.val).susp, wings := (u.arrAt b.val).wings, tags := (u.arrAt b.val).tags } ∧
    SparseBut (s.arrAt b.val).wingDef (fun z => b.val / 2 == a / 2 && z / 64 == l) (s.arrAt b.val).wings (u.arrAt b.val).wings ∧
    SparseBut (s.arrAt b.val).tagDef (fun z => b.val / 2 == a / 2 && z == l) (s.arrAt b.val).tags (u.arrAt b.val).tags

/-- What the end of a list changes in the dictionary: what runs on its array, how many lists ended and when, its ring's consumer
index. -/
def listObj (a ring i j : Nat) : Bool :=
  i == 0x5040 + a && (j == 1 || j == 2 || j == 3) || i == ringObj a ring && j == 8 || i == 0x8850 + a && j == 3

/-- The frame that the module originates now (R316 to R318): its header, the common fields under the next record sequence number, and a
body, padded to 60 bytes. -/
def State.originated (s : State) (now subtype ra ma : Nat) (body : Bytes) : Bytes :=
  let f := Bits.natLe 6 (s.get 0x700B 0) ++ Bits.natLe 6 (s.get 0x700C 0) ++
    (if s.get 0x700D 0 = 0 then [] else Bits.natBe 2 0x8100 ++ Bits.natBe 2 (s.get 0x700D 0)) ++ Bits.natBe 2 (s.get 0x700A 0) ++
    Bits.natBe 1 1 ++ Bits.natBe 1 subtype ++ Bits.natBe 2 body.length ++ Bits.natBe 2 (s.get 0x7800 0 % 512) ++ Bits.natBe 2 ra ++
    Bits.natBe 2 ma ++ Bits.natBe 2 0 ++ Bits.natBe 4 (s.get 0x7010 0) ++ Bits.natBe 8 now ++ body
  f ++ List.replicate (60 - f.length) 0

/-- A queue takes an originated frame of `n` octets (R304, R323): its port is enabled and admits the size, and its depth has room. -/
def State.takesFrame (s : State) (q n : Nat) : Bool :=
  decide (s.get 0x3001 (s.queuePort q + 1) ≠ 0) && decide (n + 4 ≤ s.get 0x3004 (s.queuePort q + 1)) &&
  decide (queueBytes (s.queue q) + Max.max 64 (n + 4) ≤ s.get 0x7106 (q + 1))

/-- The trigger's launch cue stands in its ring, under the firing's accession, launch word and event time, and the firing is counted
(R218, R238). -/
structure State.Posted (s u : State) (t acc lw0 evt : Nat) : Prop where
  producer : u.producer (s.trigArray t) (s.trigRing t) = (s.producer (s.trigArray t) (s.trigRing t) + 1) % 2 ^ 32
  count    : u.obj (0x5200 + t) 0xB = (s.obj (0x5200 + t) 0xB + 1) % 2 ^ 64
  cue      : Sparse.wf memDefault (s.arrAt (s.trigArray t)).rings = true → s.trigArray t < 16 →
    ∀ addr, s.listAddr acc (s.get (0x5200 + t) 4) (s.trigArray t) = some addr →
    u.cueAt (s.trigArray t) (s.slotAddr (s.trigArray t) (s.trigRing t) (s.producer (s.trigArray t) (s.trigRing t))) =
      mkCue [acc * 65536 + 0x11A, addr, lw0, t, evt % 2 ^ 32, evt / 2 ^ 32] (s.producer (s.trigArray t) (s.trigRing t))

/-- A firing of a trigger for an accession is posted at once (R238 to R242, R297). -/
def State.posts (s : State) (t acc : Nat) : Bool :=
  decide (s.dev.st = .run) && (s.listAddr acc (s.get (0x5200 + t) 4) (s.trigArray t)).isSome && (s.trig t).wait.isNone &&
  !(s.mustWait t ⟨acc, 0, 0, none⟩)

end Sys2Proof.Machine
end

