-- ==== Sys2Proof/Certificates/Slice0/Obligations.lean ====
section
/-! DEFINITION. The statements: what the spec's rules say each command does, as propositions for the provers. -/

open Sys2Proof Sys2Proof.Machine

/-- INPUT_BELOW_RANGE, under 36.0 V outside OFF, enters OFF: rails and VCG down, every bypass element closed or closing, every
object at its default, no packet left; flash, stacks and what leaves the module are unchanged. INPUT_VALID, above 38.0 V for 10
ms in OFF, goes to RESET and changes nothing but power, device state, clock and 0x2004:00. INPUT_OVERVOLTAGE, above 62.0 V for
10 µs outside OFF and FAULT, goes to FAULT with a supply-limit record of class 0x24 and the next record number. (R482
(spec/18_power_pins.md)) -/
def Obligations.InputLimits : Prop :=
  (∀ (s : State) (mv t : Nat),
     mv < 36000 → s.dev.st ≠ .off →
     ∃ u, Sys2Proof.Machine.exec (.inputBelowRange mv t) s = .next u ∧ (
       u.dev.st = .off ∧ u.pwr.vin = mv ∧ u.pwr.railsGood = false ∧ u.pwr.vcgUp = false ∧ u.pwr.gateInline = false ∧
       u.pwr.gateRing = false ∧ u.pwr.pair01 = s.pwr.pair01.close ∧ u.pwr.pair23 = s.pwr.pair23.close ∧
       u.pwr.ring = s.pwr.ring.close ∧ u.dict = [] ∧ u.pkts = [] ∧ u.odp.sessions = [] ∧ s.trust.Blown u.trust ∧
       Within [.dict, .staged, .pwr, .dev, .clock, .mgmt, .odp, .saving, .line, .intake, .pkts, .egr, .cat, .tree, .arr, .sync, .lib,
         .fab, .memc, .rel, .obs, .trust] s u)) ∧
  (∀ (s : State) (mv t : Nat),
     38000 < mv → s.dev.st = .off →
     ∃ u, Sys2Proof.Machine.exec (.inputValid mv t) s = .next u ∧ (
       u.dev.st = .reset ∧ u.dev.boot = .cold ∧ u.pwr.vin = mv ∧ u.pwr.railsGood = true ∧ u.pwr.vcgUp = true ∧
       u.clock.house = 0 ∧ u.obj 0x2004 0 = 1 ∧ Within [.dict, .pwr, .dev, .clock] s u ∧
       ObjsBut (fun i j => i == 0x2004 && j == 0) s u)) ∧
  (∀ (s : State) (mv t : Nat),
     62000 < mv → s.dev.st ≠ .off → s.dev.st ≠ .fault →
     ∃ u, Sys2Proof.Machine.exec (.inputOvervoltage mv t) s = .next u ∧ (
       u.dev.st = .fault ∧ u.pwr.vin = mv ∧ u.obj 0x2005 0 = 0x24 ∧
       (∃ rec, u.rel.faultLog = s.rel.faultLog ++ [rec] ∧ Bits.le rec 16 1 = 0x24) ∧ u.flash.recNo = (s.flash.recNo + 1) % 2 ^ 32 ∧
       u.pwr.pair01 = s.pwr.pair01.close ∧ u.pwr.pair23 = s.pwr.pair23.close ∧ u.pwr.ring = s.pwr.ring.close))

/-- INPUT_VOLTAGE_EVENT between 36.0 and 62.0 V outside OFF records the voltage and whether it lies outside 40.0 to 60.0 V; when
that changes it raises event 0x0004_0001, and else nothing but house time changes. A rail more than 8 % off its set voltage that
counts, outside OFF and FAULT, enters FAULT with a record of class 0x24 whose unit is the rail; loss of VCG takes VCG away. Any
rail in OFF, one within 8 % and one that does not count changes nothing but house time. (spec/18_power_pins.md, Input and rails,
spec/18_power_pins.md, The safety curtain, spec/15_reliability.md, Error records) -/
def Obligations.SupplyCommands : Prop :=
  (∀ (s : State) (mv t : Nat),
     s.canonical = true → s.dev.st ≠ .off → 36000 ≤ mv → mv ≤ 62000 → s.pwr.outOfBand = (decide (mv < 40000) || decide (60000 < mv)) →
     ∃ u, Sys2Proof.Machine.exec (.inputVoltageEvent mv t) s = .next u ∧ (
       u.pwr = { s.pwr with vin := mv } ∧ Within [.pwr, .clock] s u)) ∧
  (∀ (s : State) (mv t : Nat),
     s.canonical = true → s.dev.st ≠ .off → 36000 ≤ mv → mv ≤ 62000 → s.pwr.outOfBand = !(decide (mv < 40000) || decide (60000 < mv)) →
     ∃ u, Sys2Proof.Machine.exec (.inputVoltageEvent mv t) s = .next u ∧ (
       u.pwr = { s.pwr with vin := mv, outOfBand := !s.pwr.outOfBand } ∧ Raised 0x00040001 0x9801 0 s u ∧
       Within [.pwr, .clock, .dict, .mem, .memc, .obs, .odp, .out] s u ∧ Notes noObj s u)) ∧
  (∀ (s : State) (rail : Rail) (mv : Int) (t : Nat),
     railOut rail mv = true → s.railCounts rail = true → s.dev.st ≠ .off → s.dev.st ≠ .fault →
     ∃ u, Sys2Proof.Machine.exec (.railOutOfTolerance rail mv t) s = .next u ∧ (
       s.Faulted u 0x24 10 (railCode rail) ∧ u.pwr.vcgUp = (s.pwr.vcgUp && decide (rail ≠ .vcg)))) ∧
  (∀ (s : State) (rail : Rail) (mv : Int) (t : Nat),
     (railOut rail mv = false ∨ s.railCounts rail = false ∨ s.dev.st = .off) →
     ∃ u, Sys2Proof.Machine.exec (.railOutOfTolerance rail mv t) s = .next u ∧ (
       Within [.clock] s u))

/-- RESET_N low for 0.5 µs or longer outside OFF and RESET enters RESET, warm, with cause 2. A low of 1 s becomes a cold reset:
every object but the cause at its default, the rails and VCG down, a cold start pending. The rise of RESET_N then raises the
rails and starts house time at 0; with no cold start pending it changes only the pin. FAULT_RESET in FAULT enters RESET with
cause 4 when automatic fault reset is on, the FAULT is not that of a boot without firmware, and no dump is being written.
(spec/18_power_pins.md, Reset, spec/01_module.md, Device states, spec/13_dictionary_protocol.md, The device state machine,
spec/16_observability.md, Counters and occupancy) -/
def Obligations.ResetCommands : Prop :=
  (∀ (s : State) (lowNs t : Nat),
     500 ≤ lowNs → s.dev.st ≠ .off → s.dev.st ≠ .reset →
     ∃ u, Sys2Proof.Machine.exec (.resetNAsserted lowNs t) s = .next u ∧ (
       { s with free := s.free + 1 }.Restarted u .resetN 2 ∧ u.pwr.resetN = decide (lowNs < 1000000000) ∧ u.pwr.vcgUp = s.pwr.vcgUp ∧
       u.pwr.railsGood = s.pwr.railsGood)) ∧
  (∀ (s : State) (t : Nat),
     s.pwr.resetN = false → s.pwr.coldPending = false → s.dev.st ≠ .off → s.dev.st ≠ .reset →
     ∃ u, Sys2Proof.Machine.exec (.coldReset t) s = .next u ∧ (
       s.Restarted u .cold 2 ∧ u.pwr.coldPending = true ∧ u.pwr.railsGood = false ∧ u.pwr.vcgUp = false ∧ u.pwr.resetN = false)) ∧
  (∀ (s : State) (t : Nat),
     s.pwr.coldPending = true →
     ∃ u, Sys2Proof.Machine.exec (.resetNRises t) s = .next u ∧ (
       u.pwr = { s.pwr with resetN := true, coldPending := false, railsGood := true, vcgUp := true, gateInline := false, gateRing := false } ∧
       u.clock.house = 0 ∧ Within [.pwr, .clock] s u)) ∧
  (∀ (s : State) (t : Nat),
     s.pwr.coldPending = false →
     ∃ u, Sys2Proof.Machine.exec (.resetNRises t) s = .next u ∧ (
       u.pwr = { s.pwr with resetN := true } ∧ Within [.pwr, .clock] s u)) ∧
  (∀ (s : State) (t : Nat),
     s.dev.st = .fault → s.dev.noFaultReset = false → s.flag 0x2003 0 = true → s.obs.freeze = none →
     ∃ u, Sys2Proof.Machine.exec (.faultReset t) s = .next u ∧ (
       s.Restarted u .fault 4 ∧ u.rel.faultLog = s.rel.faultLog ∧ u.pwr.vcgUp = s.pwr.vcgUp ∧ u.pwr.railsGood = s.pwr.railsGood))

/-- RESET_TO_BOOT with RESET_N high, the rails good and no trial open enters BOOT and runs the preferred slot when that slot passes
the boot ROM; 0x1808:00 then reads enforcement bit [3], and after a warm reset every byte of the stacks outside the logbook
region reads 0. When neither slot passes it enters FAULT with no fault reset to follow. BOOT_COMPLETE enters PREPARE; under boot
target RUN after a cold start with a recorded model, no replacement flag and no pair mismatch it starts the way to RUN, and
under another target none. RING_JOIN takes both links as they are, joins with one or two, and opens the ring bypass;
RING_JOIN_TIMEOUT after 1 s without link closes it and sets the retry 1 to 2 s ahead. (spec/17_trust.md, Boot, spec/17_trust.md,
Changing firmware, spec/13_dictionary_protocol.md, The device state machine, spec/13_dictionary_protocol.md, The ring,
spec/09_memory.md, Regions, spec/17_trust.md, Fuses) -/
def Obligations.BootCommands : Prop :=
  (∀ (s : State) (t : Nat),
     s.dev.st = .reset → s.pwr.resetN = true → s.pwr.railsGood = true → s.pwr.coldPending = false →
     s.flash.onTrial = false → s.slotBoots s.flash.preferred = true → s.flash.preferred ≤ 1 → s.canonical = true → s.dev.boot ≠ .cold →
     s.LogSound → s.regionBase 3 + s.regionSize 3 ≤ 2 ^ 35 →
     ∃ u, Sys2Proof.Machine.exec (.resetToBoot t) s = .next u ∧ (
       u.dev.st = .boot ∧ u.dev.boot = s.dev.boot ∧ u.dev.stopAt = none ∧ u.flash.running = some s.flash.preferred ∧
       u.obj 0x1808 0 = s.trust.enforcement / 8 % 2 ∧ u.rel.faultLog = [] ∧ BytesBut (fun x => s.inRegion 3 x 1) { s with mem := [], memc := {} } u ∧
       Within [.dict, .dev, .clock, .flash, .mem, .memc, .cat, .rel, .obs, .free, .pwr, .out] s u ∧
       Notes (fun i j => (i == 0x1808 || i == 0x9024) && j == 0) { s with mem := u.mem } u)) ∧
  (∀ (s : State) (t : Nat),
     s.dev.st = .reset → s.pwr.resetN = true → s.pwr.railsGood = true → s.pwr.coldPending = false →
     s.flash.onTrial = false → s.slotBoots s.flash.preferred = true → s.flash.preferred ≤ 1 → s.dev.boot = .cold →
     ∃ u, Sys2Proof.Machine.exec (.resetToBoot t) s = .next u ∧ (
       u.dev.st = .boot ∧ u.dev.boot = .cold ∧ u.flash.running = some s.flash.preferred ∧ u.rel.faultLog = [] ∧
       Within [.dict, .dev, .clock, .flash, .mem, .memc, .cat, .trust, .rel, .obs, .free, .pwr, .odp, .out] s u ∧
       u.trust = { s.trust with challenge := u.trust.challenge })) ∧
  (∀ (s : State) (t : Nat),
     s.dev.st = .reset → s.pwr.resetN = true → s.pwr.railsGood = true → s.pwr.coldPending = false →
     s.flash.onTrial = false → s.slotBoots 0 = false → s.slotBoots 1 = false → s.flash.preferred ≤ 1 →
     ∃ u, Sys2Proof.Machine.exec (.resetToBoot t) s = .next u ∧ (
       u.dev.st = .fault ∧ u.dev.noFaultReset = true ∧ u.dev.stopAt = some u.now ∧ u.flash.running = none ∧ s.Closed u ∧ u.mgmt.joined = false ∧
       Within [.dict, .dev, .clock, .flash, .mgmt, .pwr] s u ∧ ObjsBut (fun i j => i == 0x9024 || (i == 0x1801 && decide (1 ≤ j))) s u)) ∧
  (∀ (s : State) (t : Nat),
     s.dev.st = .boot → s.get 0x2002 0 ≠ 4 →
     ∃ u, Sys2Proof.Machine.exec (.bootComplete t) s = .next u ∧ (
       u.dev.st = .prepare ∧ u.dev.trans = s.dev.trans ∧ u.pwr.gateInline = s.pwr.gateInline ∧
       Within [.dict, .pwr, .dev, .clock, .mem, .intake, .arr, .lib, .memc, .obs, .free, .out] s u)) ∧
  (∀ (s : State) (t : Nat),
     s.dev.st = .boot → s.dev.boot = .cold → s.get 0x2002 0 = 4 → s.flash.savedModel.isSome = true → s.flash.replacement = false →
     s.pairMismatch = false →
     ∃ u, Sys2Proof.Machine.exec (.bootComplete t) s = .next u ∧ (
       u.dev.st = .prepare ∧ u.dev.trans = .toRun u.now ∧ u.pwr.gateInline = s.pwr.gateInline ∧
       Within [.dict, .pwr, .dev, .clock, .mem, .intake, .arr, .lib, .memc, .obs, .free, .out] s u)) ∧
  (∀ (s : State) (up0 up1 : Bool) (t : Nat),
     s.dev.st.onRing = true → s.mgmt.joined = false → s.mgmt.retryAt = none → s.pwr.vcgUp = true →
     ∃ u, Sys2Proof.Machine.exec (.ringJoin up0 up1 t) s = .next u ∧ (
       u.mgmt = { s.mgmt with link0 := up0, link1 := up1, joined := up0 || up1, joinStart := if up0 || up1 then none else some u.now } ∧
       u.pwr = { s.pwr with gateRing := true, ring := s.pwr.ring.open_ } ∧ Within [.pwr, .mgmt, .clock] s u)) ∧
  (∀ (s : State) (t : Nat),
     s.mgmt.joinStart.isSome = true → s.mgmt.joinStart.getD 0 + 1000000000 ≤ (s.at t).now → s.mgmt.joined = false →
     ∃ u, Sys2Proof.Machine.exec (.ringJoinTimeout t) s = .next u ∧ (
       u.mgmt.joinStart = none ∧ u.mgmt.joined = false ∧ u.now + 1000000000 ≤ u.mgmt.retryAt.getD 0 ∧ u.mgmt.retryAt.getD 0 ≤ u.now + 2000000000 ∧
       u.pwr = { s.pwr with gateRing := false, ring := s.pwr.ring.close } ∧ Within [.pwr, .mgmt, .clock, .free] s u))

/-- A droop of a present region not under droop sets the region's bit and counts in 0x9807; its recovery clears that bit alone. A
thermal evaluation in RUN moves the step of 0x9800:00 up by one when the next step's entry temperature is reached, which counts
the entry and raises event 0x0004_0002, down by one below its leave temperature, and else leaves it. A die or DRAM sensor at 105
°C or above outside OFF and FAULT enters FAULT with a record of class 0x23. A DRAM die at 85 °C or above halves its refresh
interval, below 82 °C restores it, and between them keeps it. (spec/18_power_pins.md, Droop and thermal response) -/
def Obligations.ThermalAndDroop : Prop :=
  (∀ (s : State) (region : Fin 17) (t : Nat),
     s.canonical = true → s.pwr.railsGood = true → (region.val = 16 ∨ s.hasArray region.val = true) → s.pwr.droop.testBit region.val = false →
     ∃ u, Sys2Proof.Machine.exec (.droopDetected region t) s = .next u ∧ (
       u.pwr.droop.testBit region.val = true ∧ u.obj 0x9807 (region.val + 1) = (s.obj 0x9807 (region.val + 1) + 1) % 2 ^ 64 ∧
       Within [.pwr, .dict, .clock] s u ∧ ObjsBut (fun i j => i == 0x9807 && j == region.val + 1) s u)) ∧
  (∀ (s : State) (region : Fin 17) (t : Nat),
     ∃ u, Sys2Proof.Machine.exec (.droopRecovered region t) s = .next u ∧ (
       u.pwr = { s.pwr with droop := Bits.setFld s.pwr.droop region.val region.val 0 } ∧ u.pwr.droop.testBit region.val = false ∧
       Within [.pwr, .clock] s u)) ∧
  (∀ (s : State) (hottest : Int) (t : Nat),
     s.canonical = true → s.dev.st = .run → s.obj 0x9800 0 < 4 → stepEnter (s.obj 0x9800 0 + 1) ≤ hottest →
     ∃ u, Sys2Proof.Machine.exec (.thermalEvaluation hottest t) s = .next u ∧ (
       u.obj 0x9800 0 = s.obj 0x9800 0 + 1 ∧ u.obj 0x9808 (s.obj 0x9800 0 + 1) = (s.obj 0x9808 (s.obj 0x9800 0 + 1) + 1) % 2 ^ 64 ∧
       Raised 0x00040002 0x9800 0 s u ∧ Within [.pwr, .dict, .clock, .odp, .out, .mem, .memc, .obs] s u ∧
       Notes (fun i j => (i == 0x9800 && j == 0) || (i == 0x9808 && j == s.obj 0x9800 0 + 1)) s u)) ∧
  (∀ (s : State) (hottest : Int) (t : Nat),
     s.canonical = true → s.dev.st = .run → 0 < s.obj 0x9800 0 → s.obj 0x9800 0 ≤ 4 → hottest < stepLeave (s.obj 0x9800 0) →
     ∃ u, Sys2Proof.Machine.exec (.thermalEvaluation hottest t) s = .next u ∧ (
       u.obj 0x9800 0 = s.obj 0x9800 0 - 1 ∧ Within [.pwr, .dict, .clock] s u ∧
       ObjsBut (fun i j => (i == 0x9800 || i == 0x9809) && j == 0) s u)) ∧
  (∀ (s : State) (hottest : Int) (t : Nat),
     s.dev.st = .run → s.obj 0x9800 0 ≤ 4 → (s.obj 0x9800 0 < 4 → hottest < stepEnter (s.obj 0x9800 0 + 1)) →
     (0 < s.obj 0x9800 0 → stepLeave (s.obj 0x9800 0) ≤ hottest) →
     ∃ u, Sys2Proof.Machine.exec (.thermalEvaluation hottest t) s = .next u ∧ (
       Within [.clock] s u)) ∧
  (∀ (s : State) (sensor : Fin 29) (temp : Int) (t : Nat),
     1680 ≤ temp → sensor.val < 28 → s.dev.st ≠ .off → s.dev.st ≠ .fault →
     ∃ u, Sys2Proof.Machine.exec (.thermalLimit sensor temp t) s = .next u ∧ (
       s.Faulted u 0x23 10 sensor.val ∧ u.pwr.vcgUp = s.pwr.vcgUp)) ∧
  (∀ (s : State) (die : Fin 8) (temp : Int) (t : Nat),
     s.dev.st ≠ .off → (1360 ≤ temp ∨ temp < 1312) →
     ∃ u, Sys2Proof.Machine.exec (.dramRefreshAdjust die temp t) s = .next u ∧ (
       u.pwr = { s.pwr with refreshHalved := Bits.setFld s.pwr.refreshHalved die.val die.val (if 1360 ≤ temp then 1 else 0) } ∧
       u.pwr.refreshHalved.testBit die.val = decide (1360 ≤ temp) ∧ Within [.pwr, .clock] s u)) ∧
  (∀ (s : State) (die : Fin 8) (temp : Int) (t : Nat),
     s.dev.st ≠ .off → 1312 ≤ temp → temp < 1360 →
     ∃ u, Sys2Proof.Machine.exec (.dramRefreshAdjust die temp t) s = .next u ∧ (
       Within [.clock] s u))

/-- While the clock source is PPS_IN and no second was written to 0x2404:00, the first edge puts the edge itself, 3 ns of input
delay back, at a whole second and locks the clock; so does an edge up to 100 µs past a whole second on a locked clock. On a
locked clock an edge farther off, with fewer than two discarded before it, is discarded and counted. REF_IN moves no house time,
shows its state in 0x240B:00, and raises event 0x0004_0003 when it is lost or returns. With EVT_OUT set to PPS output the pin
rises at the whole second until 100 ms later, and falls at its pulse's end. (spec/12_fabric.md, The house clock,
spec/18_power_pins.md, Time references, spec/16_observability.md, Range markers) -/
def Obligations.PinCommands : Prop :=
  (∀ (s : State) (t : Nat),
     s.canonical = true → s.clockRuns = true → s.get 0x2400 0 = 1 → s.clock.ppsLocked = false → s.clock.ppsNext = none →
     ∃ u, Sys2Proof.Machine.exec (.ppsInEdge t) s = .next u ∧ (
       u.now = nearestSecond ((s.at t).now - 3) + 3 ∧ u.clock.ppsLocked = true ∧ u.clock.ppsBad = 0 ∧ u.obj 0x2405 0 = 3 ∧
       u.obj 0x2409 0 = (s.obj 0x2409 0 + 1) % 2 ^ 64 ∧ Within [.clock, .dict] s u ∧ ObjsBut (fun i j => (i == 0x2405 || i == 0x2409) && j == 0) s u)) ∧
  (∀ (s : State) (t : Nat),
     s.clockRuns = true → s.get 0x2400 0 = 1 → s.clock.ppsLocked = true → s.clock.ppsNext = none →
     3 ≤ (s.at t).now → ((s.at t).now - 3) % 1000000000 ≤ 100000 →
     ∃ u, Sys2Proof.Machine.exec (.ppsInEdge t) s = .next u ∧ (
       u.now = ((s.at t).now - 3) / 1000000000 * 1000000000 + 3 ∧ u.clock.ppsBad = 0 ∧ Within [.clock] s u)) ∧
  (∀ (s : State) (t : Nat),
     s.canonical = true → s.clockRuns = true → s.get 0x2400 0 = 1 → s.clock.ppsLocked = true → s.clock.ppsNext = none →
     3 ≤ (s.at t).now → 100000 < ((s.at t).now - 3) % 1000000000 → ((s.at t).now - 3) % 1000000000 < 999900000 → s.clock.ppsBad < 2 →
     ∃ u, Sys2Proof.Machine.exec (.ppsInEdge t) s = .next u ∧ (
       u.now = (s.at t).now ∧ u.clock.ppsBad = s.clock.ppsBad + 1 ∧ u.obj 0x240C 0 = (s.obj 0x240C 0 + 1) % 2 ^ 64 ∧
       Within [.clock, .dict] s u ∧ ObjsBut (fun i j => i == 0x240C && j == 0) s u)) ∧
  (∀ (s : State) (sig : RefSignal) (t : Nat),
     s.canonical = true → s.clockRuns = true → s.clock.refLocked = !(decide (sig = .valid)) →
     ∃ u, Sys2Proof.Machine.exec (.refInChange sig t) s = .next u ∧ (
       u.now = (s.at t).now ∧ u.clock.refLocked = decide (sig = .valid) ∧
       u.obj 0x240B 0 = (match sig with | .absent => 0 | .valid => 2 | .outOfRange => 3) ∧ Raised 0x00040003 0x240B 0 s u ∧
       Within [.clock, .dict, .odp, .out, .mem, .memc, .obs] s u ∧ Notes (fun i j => i == 0x240B && j == 0) s u)) ∧
  (∀ (s : State) (sig : RefSignal) (t : Nat),
     s.canonical = true → s.clockRuns = true → s.clock.refLocked = decide (sig = .valid) →
     ∃ u, Sys2Proof.Machine.exec (.refInChange sig t) s = .next u ∧ (
       u.now = (s.at t).now ∧ u.clock.refLocked = s.clock.refLocked ∧
       u.obj 0x240B 0 = (match sig with | .absent => 0 | .valid => 2 | .outOfRange => 3) ∧
       Within [.clock, .dict] s u ∧ ObjsBut (fun i j => i == 0x240B && j == 0) s u)) ∧
  (∀ (s : State) (t : Nat),
     s.flag 0x8810 1 = true → (s.at t).now % 1000000000 ≤ 5 → s.dev.st ≠ .off → s.dev.st ≠ .reset →
     ∃ u, Sys2Proof.Machine.exec (.ppsOutput t) s = .next u ∧ (
       u.pwr = { s.pwr with evtOut := true, evtEnd := some (u.now / 1000000000 * 1000000000 + 100000000) } ∧ u.out = .evtOut u.now :: s.out ∧
       Within [.pwr, .clock, .out] s u)) ∧
  (∀ (s : State) (t : Nat),
     s.pwr.evtEnd.isSome = true → s.pwr.evtEnd.getD 0 ≤ (s.at t).now →
     ∃ u, Sys2Proof.Machine.exec (.evtOutPulseEnd t) s = .next u ∧ (
       u.pwr = { s.pwr with evtOut := false, evtEnd := none } ∧ Within [.pwr, .clock] s u))

/-- FAULT_ENTRY outside OFF and FAULT enters FAULT with the record of its cause; in FAULT it leaves state and last cause as they are
and keeps one more record. ARRAY_ISLAND_FAULT of a present array, in PREPARE, RUN, DRAIN or TEST with nothing frozen, makes it
suspect, closes both its banks, ends its running list, sets the replacement flag, takes the module from RUN to DRAIN, and writes
a record of class 0x14. (spec/01_module.md, Integrity: checks on control, not on data, spec/01_module.md, Device states,
spec/09_memory.md, DRAM ECC and what is checked, spec/15_reliability.md, Error records, spec/07_arrays.md, Stopping mid-pass,
spec/15_reliability.md, Suspects and the whole-chip drain) -/
def Obligations.FaultCommands : Prop :=
  (∀ (s : State) (cause : FaultCause) (t : Nat),
     s.dev.st ≠ .off → s.dev.st ≠ .fault →
     ∃ u, Sys2Proof.Machine.exec (.faultEntry cause t) s = .next u ∧ (
       s.Faulted u (faultInfo cause).cls (faultInfo cause).uKind (faultInfo cause).unit ∧ u.pwr.vcgUp = s.pwr.vcgUp)) ∧
  (∀ (s : State) (cause : FaultCause) (t : Nat),
     s.canonical = true → s.dev.st = .fault →
     ∃ u, Sys2Proof.Machine.exec (.faultEntry cause t) s = .next u ∧ (
       Recorded (faultInfo cause).cls (faultInfo cause).uKind (faultInfo cause).unit s u ∧
       u.rel.faultLog.length = s.rel.faultLog.length + 1 ∧ u.flash = { s.flash with recNo := (s.flash.recNo + 1) % 2 ^ 32 } ∧
       Within [.dict, .mem, .memc, .obs, .odp, .out, .flash, .rel, .free, .clock] s u ∧ Notes (fun i j => i == 0x6018 && j == 0) s u)) ∧
  (∀ (s : State) (a : Fin 16) (source t : Nat),
     s.hasArray a.val = true → (s.coresRun = true ∨ s.dev.st = .test) → s.frozen = false → (s.flag 0x8000 0 = true → a.val % 2 = 0) →
     ∃ u, Sys2Proof.Machine.exec (.arrayIslandFault a source t) s = .next u ∧ (
       (u.arrAt a.val).suspect = true ∧ (u.arrAt a.val).bank0.opened = false ∧ (u.arrAt a.val).bank1.opened = false ∧
       (u.arrAt a.val).run = none ∧ u.flash.replacement = true ∧ u.flash.dieScanPassed = false ∧
       u.dev.st = (if s.dev.st = .run then .drain else s.dev.st) ∧ Recorded 0x14 1 a.val s u ∧
       Within [.dict, .pwr, .dev, .clock, .odp, .flash, .mem, .pkts, .intake, .line, .egr, .cat, .arr, .sync, .fab, .memc, .rel, .obs, .free, .out] s u))

/-- The request reaches its service and may be written. With no transition in progress, no replacement flag and no pair mismatch,
RUN from PREPARE is answered and starts the way to RUN, and RUN from DRAIN is answered and enters RUN. PREPARE from DRAIN is
answered and starts the drain exit; DRAIN from RUN is answered and enters DRAIN; TEST from PREPARE is answered and enters TEST.
A reset request in any state that serves ODP is answered and enters RESET, warm, with cause 3. (spec/13_dictionary_protocol.md,
The device state machine, spec/02_intake.md, Attach modes and the safety curtain, spec/15_reliability.md, Suspects and the
whole-chip drain, spec/15_reliability.md, Field scan, spec/18_power_pins.md, Reset, spec/03_catalogue.md, Rehash under a new
seed) -/
def Obligations.StateRequestCommands : Prop :=
  (∀ (s : State) (r : Req),
     ∀ u, s.Writable r 0x2001 0 4 u → u.dev.trans = .none → u.dev.st = .prepare → u.flash.replacement = false → u.pairMismatch = false →
     ∃ v, Sys2Proof.Machine.exec (.stateRequestRun r) s = .next v ∧ (
       v.Answered svcWrite r 0x2001 0 0 [] ∧ v.dev = { u.dev with trans := .toRun u.now } ∧ Within [.odp, .out, .dict, .dev, .clock] s v ∧
       ObjsBut (fun i _ => i == 0x1812 || i == 0x3005) u v)) ∧
  (∀ (s : State) (r : Req),
     ∀ u, s.Writable r 0x2001 0 4 u → u.dev.trans = .none → u.dev.st = .drain → u.flash.replacement = false → u.pairMismatch = false →
     ∃ v, Sys2Proof.Machine.exec (.stateRequestRun r) s = .next v ∧ (
       .answer (mkAnswer svcWrite r 0x2001 0 0 []) ∈ v.out ∧ v.dev.st = .run ∧ v.dev.trans = .none ∧ v.egr = { u.egr with tokens := [] } ∧
       Within [.odp, .out, .dict, .pwr, .dev, .clock, .mem, .memc, .obs, .free, .egr] s v)) ∧
  (∀ (s : State) (r : Req),
     ∀ u, s.Writable r 0x2001 0 3 u → u.dev.trans = .none → u.dev.st = .drain →
     ∃ v, Sys2Proof.Machine.exec (.stateRequestPrepare r) s = .next v ∧ (
       v.Answered svcWrite r 0x2001 0 0 [] ∧ v.dev = { u.dev with trans := .toPrepare u.now } ∧ Within [.odp, .out, .dict, .dev, .clock] s v ∧
       ObjsBut (fun i _ => i == 0x1812) u v)) ∧
  (∀ (s : State) (r : Req),
     ∀ u, s.Writable r 0x2001 0 5 u → u.dev.trans = .none → u.dev.st = .run →
     ∃ v, Sys2Proof.Machine.exec (.stateRequestDrain r) s = .next v ∧ (
       .answer (mkAnswer svcWrite r 0x2001 0 0 []) ∈ v.out ∧ v.dev.st = .drain ∧ v.dev.trans = .none ∧ v.pwr.gateInline = s.pwr.gateInline ∧
       Within [.odp, .out, .dict, .pwr, .dev, .clock, .mem, .memc, .obs, .free, .arr, .sync, .intake, .egr, .line, .pkts, .cat] s v)) ∧
  (∀ (s : State) (r : Req),
     ∀ u, s.Writable r 0x2001 0 6 u → u.dev.trans = .none → u.dev.st = .prepare →
     ∃ v, Sys2Proof.Machine.exec (.stateRequestTest r) s = .next v ∧ (
       .answer (mkAnswer svcWrite r 0x2001 0 0 []) ∈ v.out ∧ v.dev.st = .test ∧ v.dev.stopAt = some v.now ∧ v.cat.newSeeds = (if u.get 0x400C 0 = 0 then u.cat.newSeeds else none) ∧
       Within [.odp, .out, .dict, .pwr, .dev, .clock, .mem, .memc, .obs, .free, .cat] s v)) ∧
  (∀ (s : State) (r : Req),
     ∀ u, s.Writable r 0x2001 0 0x5A u →
     ∃ v, Sys2Proof.Machine.exec (.resetRequest r) s = .next v ∧ (
       v.out = .answer (mkAnswer svcWrite r 0x2001 0 0 []) :: s.out ∧ u.Restarted { v with out := u.out } .host 3))

/-- CURTAIN_OPEN, on the way to RUN with VCG up, enters RUN, connects the in-line gate switch, starts to open each pair in use and
closes one that is not, and fills every shaper. DRAIN_EXIT_COMPLETE with no list running, and DRAIN_EXIT_TIMEOUT after the
timeout, enter PREPARE with the in-line gates off, both pairs closing and no packet left. CURTAIN_SWITCH_COMPLETE settles the
named element and no other. TEST_COMPLETE stores the scan's result and time, sets the replacement flag on a failure, and enters
RESET with cause 5. (spec/02_intake.md, Attach modes and the safety curtain, spec/13_dictionary_protocol.md, The device state
machine, spec/11_egress.md, States, spec/18_power_pins.md, The safety curtain, spec/15_reliability.md, Field scan) -/
def Obligations.TransitionCommands : Prop :=
  (∀ (s : State) (t : Nat),
     ∀ t0, s.dev.trans = .toRun t0 → s.dev.st = .prepare → s.pwr.vcgUp = true →
     ∃ u, Sys2Proof.Machine.exec (.curtainOpen t) s = .next u ∧ (
       u.dev.st = .run ∧ u.dev.trans = .none ∧ u.egr = { s.egr with tokens := [] } ∧
       u.pwr = { s.pwr with
         gateInline := true
         pair01 := if s.pairInUse 0 then s.pwr.pair01.open_ else s.pwr.pair01.close
         pair23 := if s.pairInUse 1 then s.pwr.pair23.open_ else s.pwr.pair23.close
         evtOut := u.pwr.evtOut
         evtEnd := u.pwr.evtEnd } ∧
       Within [.dict, .pwr, .dev, .clock, .line, .egr, .mem, .memc, .obs, .free, .out] s u)) ∧
  (∀ (s : State) (t : Nat),
     ∀ t0, s.dev.trans = .toPrepare t0 → s.dev.st = .drain → (s.at t).listsRunning = false →
     ∃ u, Sys2Proof.Machine.exec (.drainExitComplete t) s = .next u ∧ (
       u.dev.st = .prepare ∧ u.dev.trans = .none ∧ u.pwr.gateInline = false ∧ u.pwr.gateRing = s.pwr.gateRing ∧
       u.pwr.pair01 = s.pwr.pair01.close ∧ u.pwr.pair23 = s.pwr.pair23.close ∧ u.pkts = [] ∧
       Within [.dict, .pwr, .dev, .clock, .odp, .mem, .line, .intake, .pkts, .egr, .arr, .sync, .fab, .memc, .obs, .free, .out] s u)) ∧
  (∀ (s : State) (t : Nat),
     ∀ t0, s.dev.trans = .toPrepare t0 → s.dev.st = .drain → t0 + s.get 0x2007 0 * 1000000 ≤ (s.at t).now →
     ∃ u, Sys2Proof.Machine.exec (.drainExitTimeout t) s = .next u ∧ (
       u.dev.st = .prepare ∧ u.dev.trans = .none ∧ u.pwr.gateInline = false ∧ u.pwr.gateRing = s.pwr.gateRing ∧
       u.pwr.pair01 = s.pwr.pair01.close ∧ u.pwr.pair23 = s.pwr.pair23.close ∧ u.pkts = [] ∧
       Within [.dict, .pwr, .dev, .clock, .odp, .mem, .line, .intake, .pkts, .egr, .arr, .sync, .fab, .memc, .obs, .free, .out] s u)) ∧
  (∀ (s : State) (b : Bypass) (t : Nat),
     ∃ u, Sys2Proof.Machine.exec (.curtainSwitchComplete b t) s = .next u ∧ (
       u.pwr = { s.pwr with
         pair01 := if b = .pair01 then s.pwr.pair01.settle else s.pwr.pair01
         pair23 := if b = .pair23 then s.pwr.pair23.settle else s.pwr.pair23
         ring := if b = .ring then s.pwr.ring.settle else s.pwr.ring } ∧ Within [.pwr, .clock] s u)) ∧
  (∀ (s : State) (pass : Bool) (pattern chains t : Nat),
     s.dev.st = .test →
     ∃ u, Sys2Proof.Machine.exec (.testComplete pass pattern chains t) s = .next u ∧ (
       u.dev.st = .reset ∧ u.dev.boot = .test ∧ u.obj 0x2004 0 = 5 ∧ u.flash.dieResult = (if pass then 1 else 2) ∧
       u.flash.dieTime = (s.at t).now ∧ u.flash.dieScanPassed = pass ∧ u.flash.replacement = (s.flash.replacement || !pass) ∧
       s.Closed u ∧ u.pkts = [] ∧ u.staged = [] ∧ s.trust.Blown u.trust ∧ u.mfg = s.mfg ∧ u.nextPid = s.nextPid))

/-- MGMT_LINK_DOWN on a joined module takes the port down, its rate to 0, and reports class 0x33, a break counted while the other
port is up; on a module not joined it only takes the port down. MGMT_LINK_UP with the bypass open, at a rate of the port's T1
mode, brings the port up at that rate and joins; a module that had joined raises the ring-restored event. An ODP or IPv6 frame
of another source leaves through the port ringOut gives, hop count one higher, and is counted there; past hop count 1,024 it is
discarded and counted; the module's own frame goes no further. The first east ring-status frame of a sequence sets the ring
position. A port already so, or a frame on a port that is not up or a ring not joined, changes nothing but house time.
(spec/13_dictionary_protocol.md, Ports M0 and M1, spec/13_dictionary_protocol.md, The ring, spec/15_reliability.md, Error
records) -/
def Obligations.RingLinkCommands : Prop :=
  (∀ (s : State) (i : Fin 2) (t : Nat),
     s.canonical = true → s.mgmtLink i.val = true → s.mgmt.joined = true →
     ∃ u, Sys2Proof.Machine.exec (.mgmtLinkDown i t) s = .next u ∧ (
       u.mgmt = (s.setMgmtLink i.val false).mgmt ∧ u.mgmtLink (1 - i.val) = s.mgmtLink (1 - i.val) ∧ u.obj 0x1801 (i.val + 1) = 0 ∧
       u.obj 0x181B 0 = (if s.mgmtLink (1 - i.val) then (s.obj 0x181B 0 + 1) % 2 ^ 64 else s.obj 0x181B 0) ∧ Reported 0x33 s u ∧
       Within [.mgmt, .dict, .clock, .pwr, .mem, .memc, .obs, .odp, .out, .flash, .rel, .free] s u ∧
       Notes (fun k j => (k == 0x1801 && j == i.val + 1) || (k == 0x181B && j == 0)) s u)) ∧
  (∀ (s : State) (i : Fin 2) (t : Nat),
     s.canonical = true → s.mgmtLink i.val = true → s.mgmt.joined = false →
     ∃ u, Sys2Proof.Machine.exec (.mgmtLinkDown i t) s = .next u ∧ (
       u.mgmt = (s.setMgmtLink i.val false).mgmt ∧ u.obj 0x1801 (i.val + 1) = 0 ∧ Within [.mgmt, .dict, .clock] s u ∧
       ObjsBut (fun k j => k == 0x1801 && j == i.val + 1) s u)) ∧
  (∀ (s : State) (i : Fin 2) (t : Nat),
     s.mgmtLink i.val = false →
     ∃ u, Sys2Proof.Machine.exec (.mgmtLinkDown i t) s = .next u ∧ (
       Within [.clock] s u)) ∧
  (∀ (s : State) (i : Fin 2) (rate t : Nat),
     s.canonical = true → s.pwr.gateRing = true → s.mgmtLink i.val = false → s.rateFits i.val rate = true → s.mgmt.joined = true →
     ∃ u, Sys2Proof.Machine.exec (.mgmtLinkUp i rate t) s = .next u ∧ (
       u.mgmt = { (s.setMgmtLink i.val true).mgmt with joinStart := none } ∧ u.mgmtLink (1 - i.val) = s.mgmtLink (1 - i.val) ∧
       u.obj 0x1801 (i.val + 1) = rate ∧ Raised (Config.eventCode 1) 0x1802 0 s u ∧
       Within [.mgmt, .dict, .clock, .mem, .memc, .obs, .odp, .out] s u ∧ Notes (fun k j => k == 0x1801 && j == i.val + 1) s u)) ∧
  (∀ (s : State) (i : Fin 2) (rate t : Nat),
     s.canonical = true → s.pwr.gateRing = true → s.mgmtLink i.val = false → s.rateFits i.val rate = true → s.mgmt.joined = false →
     ∃ u, Sys2Proof.Machine.exec (.mgmtLinkUp i rate t) s = .next u ∧ (
       u.mgmt = { (s.setMgmtLink i.val true).mgmt with joined := true, joinStart := none } ∧ u.obj 0x1801 (i.val + 1) = rate ∧
       Within [.mgmt, .dict, .clock] s u ∧ ObjsBut (fun k j => k == 0x1801 && j == i.val + 1) s u)) ∧
  (∀ (s : State) (i : Fin 2) (rate t : Nat),
     (s.pwr.gateRing = false ∨ s.mgmtLink i.val = true ∨ s.rateFits i.val rate = false) →
     ∃ u, Sys2Proof.Machine.exec (.mgmtLinkUp i rate t) s = .next u ∧ (
       Within [.clock] s u)) ∧
  (∀ (s : State) (i : Fin 2) (f : RingFrame) (t : Nat),
     s.canonical = true → s.mgmt.joined = true → s.mgmtLink i.val = true → (f.ethertype = 0x88B5 ∨ f.ethertype = 0x86DD) → f.kind ≠ 2 →
     f.hop + 1 ≤ 1024 → (f.source = 0 ∨ f.source ≠ s.get 0x1803 0) →
     ∃ u, Sys2Proof.Machine.exec (.ringFrameReceived i f t) s = .next u ∧ (
       u.out = .ringFrame (s.ringOut i.val) { f with hop := f.hop + 1 } :: s.out ∧
       u.obj 0x1810 (s.ringOut i.val + 1) = (s.obj 0x1810 (s.ringOut i.val + 1) + 1) % 2 ^ 64 ∧ Within [.out, .dict, .clock] s u ∧
       ObjsBut (fun k j => k == 0x1810 && j == s.ringOut i.val + 1) s u)) ∧
  (∀ (s : State) (i : Fin 2) (f : RingFrame) (t : Nat),
     s.canonical = true → s.mgmt.joined = true → s.mgmtLink i.val = true → (f.ethertype = 0x88B5 ∨ f.ethertype = 0x86DD) → 1024 ≤ f.hop →
     (f.source = 0 ∨ f.source ≠ s.get 0x1803 0) →
     ∃ u, Sys2Proof.Machine.exec (.ringFrameReceived i f t) s = .next u ∧ (
       u.obj 0x1811 0 = (s.obj 0x1811 0 + 1) % 2 ^ 64 ∧ Within [.dict, .clock] s u ∧ ObjsBut (fun k j => k == 0x1811 && j == 0) s u)) ∧
  (∀ (s : State) (i : Fin 2) (f : RingFrame) (t : Nat),
     s.canonical = true → s.mgmt.joined = true → s.mgmtLink i.val = true → f.ethertype = 0x88B5 → f.kind = 2 → f.hop + 1 ≤ 1024 → f.west = false →
     s.mgmt.posEast ≠ some f.sequence → (f.source = 0 ∨ f.source ≠ s.get 0x1803 0) →
     ∃ u, Sys2Proof.Machine.exec (.ringFrameReceived i f t) s = .next u ∧ (
       u.obj 0x1804 0 = f.hop + 1 ∧ u.mgmt = { s.mgmt with posSeen := some f.sequence, posEast := some f.sequence } ∧
       u.out = .ringFrame (s.ringOut i.val) { f with hop := f.hop + 1 } :: s.out ∧ Within [.mgmt, .out, .dict, .clock] s u ∧
       ObjsBut (fun k j => (k == 0x1804 && j == 0) || (k == 0x1810 && j == s.ringOut i.val + 1)) s u)) ∧
  (∀ (s : State) (i : Fin 2) (f : RingFrame) (t : Nat),
     (s.mgmt.joined = false ∨ s.mgmtLink i.val = false ∨ (f.kind ≠ 2 ∧ f.source ≠ 0 ∧ f.source = s.get 0x1803 0)) →
     ∃ u, Sys2Proof.Machine.exec (.ringFrameReceived i f t) s = .next u ∧ (
       Within [.clock] s u))

/-- A cycle frame of another source with time left, at a joined module that is no ring master, leaves with its hop count one higher:
unchanged where it holds no output slot of the module, else with cycle number, device state and the latched objects written
there. The input slot of a first copy waits for its apply time, or is lost and counted when that has passed. A frame whose T_k
is 0 latches the outputs as it comes. A ring master collects its own frame; the first frame of another master raises the
conflict event, and the master of the higher address stops. (spec/13_dictionary_protocol.md, The ring,
spec/13_dictionary_protocol.md, ODP-2: cyclic images) -/
def Obligations.CycleFrames : Prop :=
  (∀ (s : State) (i : Fin 2) (f : RingFrame) (t : Nat),
     s.passes i f = true → s.mgmt.cyclicDue = none → Bits.le f.body 0 8 ≠ 0 → Bits.fld (s.get 0x1822 1) 31 24 ≠ f.index →
     (Bits.fld (s.get 0x1822 2) 31 24 ≠ f.index ∨ s.mapping 0x1821 = []) →
     ∃ u, Sys2Proof.Machine.exec (.cycleFrameExchange i f t) s = .next u ∧ (
       u.out = .ringFrame (s.ringOut i.val) { f with hop := f.hop + 1 } :: s.out ∧ u.mgmt.cycle.number = f.sequence ∧ f.index ∈ u.mgmt.seen ∧
       { u.mgmt with
         cycle := s.mgmt.cycle
         seen := s.mgmt.seen
         otherMaster := s.mgmt.otherMaster
         posEast := s.mgmt.posEast
         posSeen := s.mgmt.posSeen } = s.mgmt ∧
       Within [.mgmt, .dict, .out, .clock] s u ∧
       ObjsBut (fun k j => (k == 0x1804 || k == 0x1806 || k == 0x1818) && j == 0 || k == 0x1810 && j == s.ringOut i.val + 1) s u)) ∧
  (∀ (s : State) (i : Fin 2) (f : RingFrame) (t : Nat),
     s.passes i f = true → s.mgmt.cyclicDue = none → Bits.le f.body 0 8 ≠ 0 → Bits.fld (s.get 0x1822 1) 31 24 = f.index →
     (Bits.fld (s.get 0x1822 2) 31 24 ≠ f.index ∨ s.mapping 0x1821 = []) →
     ∃ u, Sys2Proof.Machine.exec (.cycleFrameExchange i f t) s = .next u ∧ (
       u.out = .ringFrame (s.ringOut i.val) { f with hop := f.hop + 1, body := (Bits.patch f.body (16 + Bits.fld (s.get 0x1822 1) 15 0)
         (Bits.natLe 1 (f.sequence % 256) ++ Bits.natLe 1 ((s.dev.st.code?).getD 0) ++ s.mgmt.outLatch)) } :: s.out ∧
       u.mgmt.outLatch = s.mgmt.outLatch ∧ Within [.mgmt, .dict, .out, .clock] s u ∧
       ObjsBut (fun k j => (k == 0x1804 || k == 0x1806 || k == 0x1818) && j == 0 || k == 0x1810 && j == s.ringOut i.val + 1) s u)) ∧
  (∀ (s : State) (i : Fin 2) (f : RingFrame) (t : Nat),
     s.passes i f = true → s.mgmt.cyclicDue = none → Bits.le f.body 0 8 ≠ 0 → Bits.fld (s.get 0x1822 2) 31 24 = f.index → s.mapping 0x1821 ≠ [] →
     s.mgmt.cycle.number ≠ f.sequence → (s.at t).now ≤ Bits.le f.body 8 8 → Bits.le f.body 8 8 ≠ 0 →
     ∃ u, Sys2Proof.Machine.exec (.cycleFrameExchange i f t) s = .next u ∧ (
       u.mgmt.inSlot = some ⟨Bits.le f.body 8 8, Bits.slice f.body (16 + Bits.fld (s.get 0x1822 2) 15 0) (mapBytes (s.mapping 0x1821))⟩ ∧
       u.mgmt.cycle = ⟨f.sequence, Bits.le f.body 0 8, Bits.le f.body 8 8⟩ ∧ Within [.mgmt, .dict, .out, .clock] s u)) ∧
  (∀ (s : State) (i : Fin 2) (f : RingFrame) (t : Nat),
     s.canonical = true → s.passes i f = true → s.mgmt.cyclicDue = none → Bits.le f.body 0 8 ≠ 0 → Bits.fld (s.get 0x1822 2) 31 24 = f.index →
     s.mapping 0x1821 ≠ [] → s.mgmt.cycle.number ≠ f.sequence → Bits.le f.body 8 8 < (s.at t).now → Bits.le f.body 8 8 ≠ 0 →
     ∃ u, Sys2Proof.Machine.exec (.cycleFrameExchange i f t) s = .next u ∧ (
       u.mgmt.inSlot = s.mgmt.inSlot ∧ u.obj 0x1819 0 = (s.obj 0x1819 0 + 1) % 2 ^ 64 ∧ Within [.mgmt, .dict, .out, .clock] s u)) ∧
  (∀ (s : State) (i : Fin 2) (f : RingFrame) (t : Nat),
     s.passes i f = true → s.mgmt.cyclicDue = none → Bits.le f.body 0 8 = 0 → s.mgmt.cycle.number ≠ f.sequence → s.mapping 0x1821 = [] →
     ∃ u, Sys2Proof.Machine.exec (.cycleFrameExchange i f t) s = .next u ∧ (
       u.mgmt.latchedAt = some u.now ∧ u.mgmt.outLatch.length = mapBytes (s.mapping 0x1820) ∧ Within [.mgmt, .dict, .out, .clock, .free] s u)) ∧
  (∀ (s : State) (i : Fin 2) (f : RingFrame) (t : Nat),
     s.mgmt.joined = true → s.mgmtLink i.val = true → f.hop + 1 ≤ 1024 → s.flag 0x1805 0 = true → f.source = s.get 0x1803 0 →
     s.mgmt.stopped = false →
     ∃ u, Sys2Proof.Machine.exec (.cycleFrameExchange i f t) s = .next u ∧ (
       u.mgmt = { s.mgmt with
         masterDone := f.sequence
         masterOut := (if s.mgmt.masterDone = f.sequence then s.mgmt.masterOut.filter fun e => decide (e.1 ≠ f.index) else []) ++ [(f.index, f.body.drop 16)]
         roundTrip := u.now - s.mgmt.sentAt } ∧ Within [.mgmt, .clock] s u)) ∧
  (∀ (s : State) (i : Fin 2) (f : RingFrame) (t : Nat),
     s.mgmt.joined = true → s.mgmtLink i.val = true → f.hop + 1 ≤ 1024 → s.flag 0x1805 0 = true → f.source ≠ s.get 0x1803 0 →
     (s.at t).hearsMaster = false → s.mgmt.cyclicDue = none → Bits.le f.body 0 8 ≠ 0 → s.mapping 0x1821 = [] →
     ∃ u, Sys2Proof.Machine.exec (.cycleFrameExchange i f t) s = .next u ∧ (
       Raised (Config.eventCode 2) 0x1805 0 s u ∧ u.mgmt.stopped = (s.mgmt.stopped || decide (f.source < s.get 0x1803 0)) ∧
       u.mgmt.otherMaster = some u.now ∧ Within [.mgmt, .dict, .out, .clock, .mem, .memc, .obs, .odp] s u))

/-- CYCLE_SEND of a ring master on the ring sends the due cycle's frames, one per image on each linked port, west out of M1, and
marks the cycle sent. OUTPUT_IMAGE_LATCH with a cycle started latches the values of the mapped objects, and a committed cyclic
group takes effect first. INPUT_IMAGE_APPLY at the apply time consumes the image; a single mapped value has the effect of a
WRITE. MISSED_CYCLE, two cycle periods after the last cycle's start and one after the last it counted, counts and keeps the last
inputs. With nothing due each changes nothing but house time. (spec/13_dictionary_protocol.md, The ring,
spec/13_dictionary_protocol.md, ODP-2: cyclic images, spec/13_dictionary_protocol.md, The object model,
spec/14_dictionary_map.md, Mapping into cyclic images) -/
def Obligations.CyclicCommands : Prop :=
  (∀ (s : State) (t : Nat),
     s.flag 0x1805 0 = true → s.mgmt.stopped = false → s.mgmt.joined = true → s.get 0x1807 0 ≤ (s.at t).now →
     s.mgmt.nextCycle ≤ ((s.at t).now - s.get 0x1807 0) / s.cyclePeriod →
     ∃ u, Sys2Proof.Machine.exec (.cycleSend t) s = .next u ∧ (
       (∃ ak, SentCycle s u ((u.now - s.get 0x1807 0) / s.cyclePeriod) ak) ∧
       u.mgmt = { s.mgmt with nextCycle := (u.now - s.get 0x1807 0) / s.cyclePeriod + 1, sentAt := u.now } ∧ Within [.mgmt, .out, .free, .clock] s u)) ∧
  (∀ (s : State) (t : Nat),
     (s.flag 0x1805 0 = false ∨ s.mgmt.stopped = true ∨ s.mgmt.joined = false ∨ (s.at t).now < s.get 0x1807 0 ∨
       ((s.at t).now - s.get 0x1807 0) / s.cyclePeriod < s.mgmt.nextCycle) →
     ∃ u, Sys2Proof.Machine.exec (.cycleSend t) s = .next u ∧ (
       Within [.clock] s u)) ∧
  (∀ (s : State) (t : Nat),
     s.mgmt.joined = true → (s.at t).latchDue = true → s.mgmt.cyclicDue = none → (∀ e ∈ s.mapping 0x1820, isMeasured e.1 = false) →
     ∃ u, Sys2Proof.Machine.exec (.outputImageLatch t) s = .next u ∧ (
       u.mgmt = { s.mgmt with
         latchedAt := some u.now
         outLatch := (s.mapping 0x1820).flatMap fun e => Bits.natLe e.2.2 ((s.at t).valueOf e.1 e.2.1) } ∧ Within [.mgmt, .clock] s u)) ∧
  (∀ (s : State) (t : Nat),
     s.mgmt.joined = true → (s.at t).latchDue = true → s.mgmt.cyclicDue = none →
     ∃ u, Sys2Proof.Machine.exec (.outputImageLatch t) s = .next u ∧ (
       u.mgmt = { s.mgmt with latchedAt := some u.now, outLatch := u.mgmt.outLatch } ∧
       u.mgmt.outLatch.length = mapBytes (s.mapping 0x1820) ∧ Within [.mgmt, .free, .clock] s u)) ∧
  (∀ (s : State) (t : Nat),
     ∀ m, s.mgmt.cyclicDue = some m → s.mgmt.joined = true → (s.at t).latchDue = true →
     ∃ u, Sys2Proof.Machine.exec (.outputImageLatch t) s = .next u ∧ (
       u.mgmt = { s.mgmt with latchedAt := some u.now, cyclicDue := none, inApplied := none, outLatch := u.mgmt.outLatch } ∧
       Within [.mgmt, .free, .clock, .dict, .mem, .memc, .obs] s u ∧
       ObjsBut (fun i j => (m.any fun e => decide (e.1 = objKey i j)) || noteObj i) s u)) ∧
  (∀ (s : State) (t : Nat),
     (s.mgmt.joined = false ∨ (s.at t).latchDue = false) →
     ∃ u, Sys2Proof.Machine.exec (.outputImageLatch t) s = .next u ∧ (
       Within [.clock] s u)) ∧
  (∀ (s : State) (t : Nat),
     ∀ x, s.mgmt.inSlot = some x → x.ak ≤ (s.at t).now → s.mapping 0x1821 = [] →
     ∃ u, Sys2Proof.Machine.exec (.inputImageApply t) s = .next u ∧ (
       u.mgmt = { s.mgmt with inSlot := none, inApplied := some [] } ∧ Within [.mgmt, .clock] s u)) ∧
  (∀ (s : State) (t : Nat),
     ∀ x, s.mgmt.inSlot = some x → x.ak ≤ (s.at t).now → s.get 0x1821 0 = 1 → s.get 0x1821 1 = 0x88220004 → s.flag 0x1808 0 = false →
     s.canonical = true →
     ∃ u, Sys2Proof.Machine.exec (.inputImageApply t) s = .next u ∧ (
       u.mgmt = { s.mgmt with inSlot := none, inApplied := some [Bits.leNat (x.bytes.take 4)] } ∧ u.obj 0x8822 0 = Bits.leNat (x.bytes.take 4) ∧
       Within [.mgmt, .dict, .clock] s u ∧ ObjsBut (fun i j => i == 0x8822 && j == 0) s u)) ∧
  (∀ (s : State) (t : Nat),
     ∀ x, s.mgmt.inSlot = some x → (s.at t).now < x.ak →
     ∃ u, Sys2Proof.Machine.exec (.inputImageApply t) s = .next u ∧ (
       Within [.clock] s u)) ∧
  (∀ (s : State) (t : Nat),
     s.canonical = true → s.mgmt.joined = true → s.cycleBase + 2 * s.cyclePeriod ≤ (s.at t).now → s.mgmt.missedAt + s.cyclePeriod ≤ (s.at t).now →
     ∃ u, Sys2Proof.Machine.exec (.missedCycle t) s = .next u ∧ (
       u.obj 0x181A 0 = (s.obj 0x181A 0 + 1) % 2 ^ 64 ∧ u.mgmt = { s.mgmt with missedAt := u.now, seen := [] } ∧
       Within [.mgmt, .dict, .clock] s u ∧ ObjsBut (fun i j => i == 0x181A && j == 0) s u)) ∧
  (∀ (s : State) (t : Nat),
     (s.mgmt.joined = false ∨ (s.at t).now < s.cycleBase + 2 * s.cyclePeriod ∨ (s.at t).now < s.mgmt.missedAt + s.cyclePeriod) →
     ∃ u, Sys2Proof.Machine.exec (.missedCycle t) s = .next u ∧ (
       Within [.clock] s u))

/-- A READ that reaches its service and whose object exists and is readable is answered with success and the object's value, in the
bytes of its type, and changes nothing but the answer, its counters and the history; the value of a temperature, voltage,
current or power is a measured one. A WRITE of the line-port MTU (0x3004) in PREPARE is in force at once and changes no other
object but the answer counter; in RUN it is refused with 0x0800_0011. An index that no row lists is answered 0x0200_0003. A
request whose answer stands in the history is answered again from there. A datagram whose trailer is not authentic is counted
and not answered. A request to another module changes nothing but house time. (spec/13_dictionary_protocol.md, Frames,
spec/13_dictionary_protocol.md, ODP-1: acyclic requests, spec/13_dictionary_protocol.md, ODP-3: sessions and segmented transfer,
spec/13_dictionary_protocol.md, The object model, spec/13_dictionary_protocol.md, Objects) -/
def Obligations.ReadAndWrite : Prop :=
  (∀ (s : State) (r : Req) (idx sub : Nat),
     ∀ u, s.Admits svcRead r idx sub [] u → ∀ row, u.checkRead idx sub = .ok row → ¬ (idx = 0x4020 ∧ sub = 3) → ¬ (idx = 0x6030 ∧ sub = 2) →
     isMeasured idx = false →
     ∃ v, Sys2Proof.Machine.exec (.read r idx sub) s = .next v ∧ (
       v.Answered svcRead r idx sub 0 (readBytes row (u.valueOf idx sub)) ∧ v.odp = { u.odp with history := v.odp.history } ∧
       Within [.odp, .out, .dict, .clock] s v ∧ ObjsBut (fun i j => i == 0x1812 && j == 0) s v)) ∧
  (∀ (s : State) (r : Req) (idx sub : Nat),
     ∀ u, s.Admits svcRead r idx sub [] u → ∀ row, u.checkRead idx sub = .ok row → isMeasured idx = true →
     ∃ v, Sys2Proof.Machine.exec (.read r idx sub) s = .next v ∧ (
       (∃ d, v.Answered svcRead r idx sub 0 d) ∧ v.odp = { u.odp with history := v.odp.history } ∧
       Within [.odp, .out, .dict, .clock, .free] s v ∧ ObjsBut (fun i j => i == 0x1812 && j == 0) s v)) ∧
  (∀ (s : State) (r : Req) (idx sub : Nat) (data : Bytes),
     ∀ u, s.Admits svcWrite r idx sub data u → s.canonical = true → idx = 0x3004 → sub = 1 → u.dev.st = .prepare → u.needsSession idx = false →
     data.length = 2 → 1518 ≤ Bits.leNat data → Bits.leNat data ≤ 9600 →
     ∃ v, Sys2Proof.Machine.exec (.write r idx sub data) s = .next v ∧ (
       v.Answered svcWrite r idx sub 0 [] ∧ v.obj 0x3004 1 = Bits.leNat data ∧ v.odp = { u.odp with history := v.odp.history } ∧
       Within [.odp, .out, .dict, .clock] s v ∧ ObjsBut (fun i j => (i == 0x3004 && j == 1) || (i == 0x1812 && j == 0)) s v)) ∧
  (∀ (s : State) (r : Req) (idx sub : Nat) (data : Bytes),
     ∀ u, s.Admits svcWrite r idx sub data u → idx = 0x3004 → sub = 1 → u.dev.st = .run → u.needsSession idx = false →
     ∃ v, Sys2Proof.Machine.exec (.write r idx sub data) s = .next v ∧ (
       v.Answered svcWrite r idx sub 0x08000011 [] ∧ Within [.odp, .out, .dict, .clock] s v ∧ ObjsBut ansObj s v)) ∧
  (∀ (s : State) (r : Req) (idx sub : Nat) (data : Bytes),
     ∀ u, s.Admits svcWrite r idx sub data u → objIndex? idx = false →
     ∃ v, Sys2Proof.Machine.exec (.write r idx sub data) s = .next v ∧ (
       v.Answered svcWrite r idx sub 0x02000003 [] ∧ v.odp = { u.odp with history := v.odp.history } ∧
       Within [.odp, .out, .dict, .clock] s v ∧ ObjsBut ansObj s v)) ∧
  (∀ (s : State) (r : Req) (idx sub : Nat),
     ∀ a, ((s.at r.t).odp.history.find? fun a => a.isOf r) = some a → r.trailer = none →
     (s.at r.t).servesOdp = true → (s.at r.t).addressed r.target = true →
     ∃ v, Sys2Proof.Machine.exec (.read r idx sub) s = .next v ∧ (
       v.out = .answer a :: s.out ∧ Within [.out, .dict, .clock] s v ∧
       ObjsBut (fun i j => i == 0x1814 && j == 0) s v)) ∧
  (∀ (s : State) (r : Req) (idx sub : Nat) (data : Bytes),
     (s.at r.t).servesOdp = true → (s.at r.t).addressed r.target = true → (s.at r.t).authenticate svcWrite r idx sub data = none →
     ∃ v, Sys2Proof.Machine.exec (.write r idx sub data) s = .next v ∧ (
       Within [.dict, .clock] s v ∧ ObjsBut (fun i j => i == 0x1817 && j == 0) s v)) ∧
  (∀ (s : State) (r : Req) (idx sub : Nat) (data : Bytes),
     ((s.at r.t).servesOdp = false ∨ (s.at r.t).addressed r.target = false) →
     ∃ v, Sys2Proof.Machine.exec (.write r idx sub data) s = .next v ∧ (
       Within [.clock] s v))

/-- OPEN with fewer than eight sessions and no debug taint answers success, the new session's id, key, nonce and signature, and adds
one unauthenticated session of the given slot; with eight it answers 0x0400_0003. AUTH in time: a valid signature, under the key
of the session's slot or, while all slots are empty, under the key of the OPEN, authenticates the session, a bootstrap session
in the latter case; an invalid one answers 0x0400_0002 and removes it. CLOSE removes the session it comes in. A session is
removed 60 s after its last valid datagram, and not before. (spec/13_dictionary_protocol.md, ODP-1: acyclic requests,
spec/13_dictionary_protocol.md, ODP-3: sessions and segmented transfer, spec/17_trust.md, Owner provisioning and host keys,
spec/17_trust.md, Debug unlock) -/
def Obligations.SessionCommands : Prop :=
  (∀ (s : State) (r : Req) (key nonce slot : Nat),
     ∀ u, s.Admits svcOpen r 0 0 (Bits.natLe 64 key ++ Bits.natLe 16 nonce ++ Bits.natLe 1 slot) u → slot ≤ 7 → u.trust.tainted = false →
     u.odp.sessions.length < 8 →
     ∃ v, Sys2Proof.Machine.exec (.openSession r key nonce slot) s = .next v ∧ (
       (∃ x, v.odp.sessions = u.odp.sessions ++ [x] ∧
         (x.slot = slot ∧ x.hostKey = key ∧ x.hostNonce = nonce ∧ x.authed = false ∧ x.bootstrap = false ∧ x.highest = none ∧ x.seen = [] ∧
         x.last = v.now ∧ x.sid < 2 ^ 32 ∧
         v.Answered svcOpen r 0 0 0 (Bits.natLe 4 x.sid ++ Bits.natLe 64 x.ownKey ++ Bits.natLe 16 x.ownNonce ++
           Bits.natLe 64 (u.attestSign (sessionItems x))))) ∧
       v.odp = { u.odp with sessions := v.odp.sessions, history := v.odp.history } ∧ Within [.odp, .out, .dict, .clock, .free] s v ∧
       ObjsBut ansObj s v)) ∧
  (∀ (s : State) (r : Req) (key nonce slot : Nat),
     ∀ u, s.Admits svcOpen r 0 0 (Bits.natLe 64 key ++ Bits.natLe 16 nonce ++ Bits.natLe 1 slot) u → slot ≤ 7 → u.trust.tainted = false →
     8 ≤ u.odp.sessions.length →
     ∃ v, Sys2Proof.Machine.exec (.openSession r key nonce slot) s = .next v ∧ (
       v.Answered svcOpen r 0 0 0x04000003 [] ∧ v.odp = { u.odp with history := v.odp.history } ∧ Within [.odp, .out, .dict, .clock] s v ∧
       ObjsBut ansObj s v)) ∧
  (∀ (s : State) (r : Req) (sid sig : Nat),
     ∀ u, s.Admits svcAuth r 0 0 (Bits.natLe 4 sid ++ Bits.natLe 64 sig) u →
     ∀ x, (u.odp.sessions.find? fun x => x.sid = sid) = some x → u.now < x.last + 60000000000 →
     ∃ v, Sys2Proof.Machine.exec (.auth r sid sig) s = .next v ∧ (
       Within [.odp, .out, .dict, .clock] s v ∧ ObjsBut ansObj s v ∧
       v.odp = { u.odp with sessions := v.odp.sessions, history := v.odp.history } ∧
       (if (if u.noHostKey then Config.ecdsaVerify x.hostKey (sessionItems x) sig
            else decide (u.get (0x9010 + x.slot) 0 ≠ 0) && Config.ecdsaVerify (u.get (0x9010 + x.slot) 0) (sessionItems x) sig) = true then
         v.Answered svcAuth r 0 0 0 [] ∧
         v.odp.sessions = setSession u.odp.sessions { x with authed := true, bootstrap := u.noHostKey, last := u.now }
       else v.Answered svcAuth r 0 0 0x04000002 [] ∧ v.odp.sessions = u.odp.sessions.filter fun x => decide (x.sid ≠ sid)))) ∧
  (∀ (s : State) (r : Req),
     ∀ u, s.Admits svcClose r 0 0 [] u → ∀ tr, r.trailer = some tr →
     ∃ v, Sys2Proof.Machine.exec (.close r) s = .next v ∧ (
       v.Answered svcClose r 0 0 0 [] ∧
       v.odp = { u.odp with sessions := u.odp.sessions.filter fun x => decide (x.sid ≠ tr.session), history := v.odp.history } ∧
       Within [.odp, .out, .dict, .clock] s v ∧ ObjsBut ansObj s v)) ∧
  (∀ (s : State) (sid t : Nat),
     ∀ x, (s.odp.sessions.find? fun x => x.sid = sid) = some x → x.last + 60000000000 ≤ (s.at t).now →
     ∃ v, Sys2Proof.Machine.exec (.sessionExpiry sid t) s = .next v ∧ (
       v.odp = { s.odp with sessions := s.odp.sessions.filter (fun x => decide (x.sid ≠ sid)) } ∧ Within [.odp, .clock] s v)) ∧
  (∀ (s : State) (sid t : Nat),
     ∀ x, (s.odp.sessions.find? fun x => x.sid = sid) = some x → (s.at t).now < x.last + 60000000000 →
     ∃ v, Sys2Proof.Machine.exec (.sessionExpiry sid t) s = .next v ∧ (
       Within [.clock] s v))

/-- DOWNLOAD-INIT and UPLOAD-INIT that pass their checks add one transfer and answer its id; a segment at the next offset is
appended and acknowledged at half the window, one at another offset only draws an ACK of the next; an ACK of an upload moves its
acknowledged offset; the ACK timer, 200 µs after the last segment, acknowledges what was placed. DOWNLOAD-END with the promised
size and digest hands the content to its object and removes the transfer, one whose digest is wrong answers 0x0400_0007; UPLOAD-
END and TRANSFER-ABORT remove the transfer; after 10 s of silence it is removed and an abort sent.
(spec/13_dictionary_protocol.md, ODP-3: sessions and segmented transfer, spec/14_dictionary_map.md, Domain objects) -/
def Obligations.TransferCommands : Prop :=
  (∀ (s : State) (r : Req) (idx sub size sha seg win : Nat),
     ∀ u, s.Admits svcDownloadInit r idx sub (Bits.natLe 8 size ++ Bits.natLe 32 sha ++ Bits.natLe 2 seg ++ Bits.natLe 2 win) u →
     u.transferCheck r false idx sub = none → size ≤ 0x80000000 → 256 ≤ seg → seg ≤ 1384 → 1 ≤ win → win ≤ 64 → u.downloadCheck idx sub size = none →
     ∃ v, Sys2Proof.Machine.exec (.downloadInit r idx sub size sha seg win) s = .next v ∧ (
       v.Answered svcDownloadInit r idx sub 0 (Bits.natLe 2 u.odp.nextTid ++ Bits.natLe 2 win) ∧
       v.odp = { u.odp with
         transfers := u.odp.transfers ++ [{
           tid := u.odp.nextTid, upload := false, idx := idx, sub := sub, sid := r.trailer.elim 0 fun tr => tr.session, size := size, sha := sha,
           seg := seg, window := win, content := [], acked := 0, sent := 0, unacked := 0, lastSeg := none, last := v.now }]
         nextTid := (u.odp.nextTid + 1) % 65536
         history := v.odp.history } ∧
       v.flash = (u.downloadBegin idx size).flash ∧ v.lib = (u.downloadBegin idx size).lib ∧
       Within [.odp, .out, .dict, .clock, .flash, .lib] s v ∧
       (0xA020 ≤ idx → ObjsBut ansObj s v))) ∧
  (∀ (s : State) (r : Req) (tid offset : Nat) (data : Bytes),
     ∀ u, s.Admits svcSegment r 0 0 (Bits.natLe 2 tid ++ Bits.natLe 2 0 ++ Bits.natLe 8 offset ++ data) u → u.inSession r 0 = true →
     ∀ x, u.transfer? tid = some x → x.upload = false → offset = x.content.length → 0 < data.length → data.length ≤ x.seg →
     x.content.length + data.length ≤ x.size →
     ∃ v, Sys2Proof.Machine.exec (.segment r tid offset data) s = .next v ∧ (
       v.odp = (u.setTransfer { x with
         content := x.content ++ data
         lastSeg := some u.now
         last := u.now
         unacked := if Max.max 1 (x.window / 2) ≤ x.unacked + 1 then 0 else x.unacked + 1 }).odp ∧
       v.out = (if Max.max 1 (x.window / 2) ≤ x.unacked + 1 then .ack tid (offset + data.length) :: s.out else s.out) ∧
       Within [.odp, .out, .clock] s v)) ∧
  (∀ (s : State) (r : Req) (tid offset : Nat) (data : Bytes),
     ∀ u, s.Admits svcSegment r 0 0 (Bits.natLe 2 tid ++ Bits.natLe 2 0 ++ Bits.natLe 8 offset ++ data) u → u.inSession r 0 = true →
     ∀ x, u.transfer? tid = some x → x.upload = false → offset ≠ x.content.length →
     ∃ v, Sys2Proof.Machine.exec (.segment r tid offset data) s = .next v ∧ (
       v.out = .ack tid x.content.length :: s.out ∧ v.odp = (u.setTransfer { x with lastSeg := some u.now }).odp ∧ Within [.odp, .out, .clock] s v)) ∧
  (∀ (s : State) (r : Req) (tid offset : Nat),
     ∀ u, s.Admits svcAck r 0 0 (Bits.natLe 2 tid ++ Bits.natLe 2 0 ++ Bits.natLe 8 offset) u → u.inSession r 0 = true →
     ∀ x, u.transfer? tid = some x → x.upload = true → x.acked < offset → offset ≤ x.sent →
     ∃ v, Sys2Proof.Machine.exec (.ack r tid offset) s = .next v ∧ (
       (∃ sent, x.sent ≤ sent ∧ v.odp = (u.setTransfer { x with acked := offset, sent := sent, last := u.now }).odp) ∧
       Within [.odp, .out, .clock] s v)) ∧
  (∀ (s : State) (tid t : Nat),
     ∀ x, (s.at t).transfer? tid = some x → ∀ t0, x.lastSeg = some t0 → x.upload = false → t0 + 200000 ≤ (s.at t).now →
     ∃ v, Sys2Proof.Machine.exec (.ackTimer tid t) s = .next v ∧ (
       v.out = .ack tid x.content.length :: s.out ∧ v.odp = ((s.at t).setTransfer { x with lastSeg := none, unacked := 0 }).odp ∧
       Within [.odp, .out, .clock] s v)) ∧
  (∀ (s : State) (tid t : Nat),
     ∀ x, (s.at t).transfer? tid = some x → ∀ t0, x.lastSeg = some t0 → (s.at t).now < t0 + 200000 →
     ∃ v, Sys2Proof.Machine.exec (.ackTimer tid t) s = .next v ∧ (
       Within [.clock] s v)) ∧
  (∀ (s : State) (r : Req) (tid : Nat),
     ∀ u, s.Admits svcDownloadEnd r 0 0 (Bits.natLe 2 tid) u → u.inSession r 0 = true →
     ∀ x, u.transfer? tid = some x → x.upload = false → x.content.length = x.size → Hash.digest x.content = x.sha →
     ∀ w, (u.dropTransfer tid).downloadDone x.idx x.sub x.content = .ok w →
     ∃ v, Sys2Proof.Machine.exec (.downloadEnd r tid) s = .next v ∧ (
       v.Answered svcDownloadEnd r 0 0 0 [] ∧ v.transfer? tid = none ∧ v.odp = { w.odp with history := v.odp.history } ∧ v.flash = w.flash ∧
       v.mem = w.mem ∧ v.intake = w.intake ∧ v.mgmt = w.mgmt ∧ Within [.odp, .out, .dict, .clock, .flash, .mem, .memc, .intake, .mgmt] s v ∧
       ObjsBut ansObj s v)) ∧
  (∀ (s : State) (r : Req) (tid : Nat),
     ∀ u, s.Admits svcDownloadEnd r 0 0 (Bits.natLe 2 tid) u → u.inSession r 0 = true →
     ∀ x, u.transfer? tid = some x → x.upload = false → (x.content.length ≠ x.size ∨ Hash.digest x.content ≠ x.sha) →
     ∃ v, Sys2Proof.Machine.exec (.downloadEnd r tid) s = .next v ∧ (
       v.Answered svcDownloadEnd r 0 0 0x04000007 [] ∧ v.odp = { (u.dropTransfer tid).odp with history := v.odp.history } ∧
       Within [.odp, .out, .dict, .clock, .flash, .lib] s v)) ∧
  (∀ (s : State) (r : Req) (idx sub win : Nat),
     ∀ u, s.Admits svcUploadInit r idx sub (Bits.natLe 2 win) u → u.transferCheck r true idx sub = none → 1 ≤ win → win ≤ 64 →
     ∀ content, u.uploadContent idx sub = .ok content →
     ∃ v, Sys2Proof.Machine.exec (.uploadInit r idx sub win) s = .next v ∧ (
       v.Answered svcUploadInit r idx sub 0 (Bits.natLe 2 u.odp.nextTid ++ Bits.natLe 8 content.length ++ Bits.natLe 32 (Hash.digest content)) ∧
       v.odp.transfers.length = u.odp.transfers.length + 1 ∧ (v.odp.transfers.getLastD default).content = content ∧
       (v.odp.transfers.getLastD default).upload = true ∧ (v.odp.transfers.getLastD default).acked = 0 ∧
       (v.odp.transfers.getLastD default).tid = u.odp.nextTid ∧ (v.odp.transfers.getLastD default).window = win ∧
       v.odp = { u.odp with transfers := v.odp.transfers, nextTid := (u.odp.nextTid + 1) % 65536, history := v.odp.history } ∧
       Within [.odp, .out, .dict, .clock, .free] s v ∧ ObjsBut ansObj s v)) ∧
  (∀ (s : State) (r : Req) (tid : Nat),
     ∀ u, s.Admits svcUploadEnd r 0 0 (Bits.natLe 2 tid) u → u.inSession r 0 = true → ∀ x, u.transfer? tid = some x →
     ∃ v, Sys2Proof.Machine.exec (.uploadEnd r tid) s = .next v ∧ (
       v.Answered svcUploadEnd r 0 0 0 [] ∧ v.odp = { (u.dropTransfer tid).odp with history := v.odp.history } ∧
       Within [.odp, .out, .dict, .clock] s v ∧ ObjsBut ansObj s v)) ∧
  (∀ (s : State) (r : Req) (tid code : Nat),
     ∀ u, s.Admits svcTransferAbort r 0 0 (Bits.natLe 2 tid ++ Bits.natLe 4 code) u → u.inSession r 0 = true → ∀ x, u.transfer? tid = some x →
     ∃ v, Sys2Proof.Machine.exec (.transferAbort r tid code) s = .next v ∧ (
       v.Answered svcTransferAbort r 0 0 0 [] ∧ v.odp = { (u.dropTransfer x.tid).odp with history := v.odp.history } ∧
       Within [.odp, .out, .dict, .clock, .flash, .lib] s v)) ∧
  (∀ (s : State) (tid t : Nat),
     ∀ x, (s.at t).transfer? tid = some x → x.last + 10000000000 ≤ (s.at t).now →
     ∃ v, Sys2Proof.Machine.exec (.transferTimeout tid t) s = .next v ∧ (
       v.out = .transferAbort tid 0x04000006 :: s.out ∧ v.odp = ((s.at t).dropTransfer x.tid).odp ∧ Within [.odp, .out, .dict, .clock, .flash, .lib] s v)) ∧
  (∀ (s : State) (tid t : Nat),
     ∀ x, (s.at t).transfer? tid = some x → (s.at t).now < x.last + 10000000000 →
     ∃ v, Sys2Proof.Machine.exec (.transferTimeout tid t) s = .next v ∧ (
       Within [.clock] s v))

/-- FIRMWARE_SLOT_VERIFY of a complete download makes the slot valid with the content's version and security version, or failed and
counted. SCAN_CONTENT_VERIFY takes the new content over when it passes, and keeps the previous content otherwise, counted. With
no complete download each changes nothing but house time. (spec/14_dictionary_map.md, Domain objects, spec/17_trust.md, Signed
objects, spec/17_trust.md, Boot) -/
def Obligations.VerificationCommands : Prop :=
  (∀ (s : State) (slot : Fin 2) (t : Nat),
     s.canonical = true → (s.fwSlot slot.val).code = 0 → (s.fwSlot slot.val).content ≠ [] → s.downloading (0xA000 + slot.val) = false →
     ∃ u, Sys2Proof.Machine.exec (.firmwareSlotVerify slot t) s = .next u ∧ (
       u.flash = (s.setFwSlot slot.val (u.fwSlot slot.val)).flash ∧ (u.fwSlot slot.val).content = (s.fwSlot slot.val).content ∧
       Within [.flash, .dict, .clock] s u ∧
       (if s.objectOk (s.fwSlot slot.val).content 1 = true then
         (u.fwSlot slot.val).code = 1 ∧ (u.fwSlot slot.val).good = true ∧ (u.fwSlot slot.val).counter = objSecurity (s.fwSlot slot.val).content ∧
         (u.fwSlot slot.val).version = objVersion (s.fwSlot slot.val).content ∧ u.dict = s.dict
       else (u.fwSlot slot.val).code = 3 ∧ (u.fwSlot slot.val).good = (s.fwSlot slot.val).good ∧
         u.obj 0x9024 0 = (s.obj 0x9024 0 + 1) % 2 ^ 64 ∧ ObjsBut (fun i j => i == 0x9024 && j == 0) s u))) ∧
  (∀ (s : State) (slot : Fin 2) (t : Nat),
     ((s.fwSlot slot.val).code ≠ 0 ∨ (s.fwSlot slot.val).content = [] ∨ s.downloading (0xA000 + slot.val) = true) →
     ∃ u, Sys2Proof.Machine.exec (.firmwareSlotVerify slot t) s = .next u ∧ (
       Within [.clock] s u)) ∧
  (∀ (s : State) (t : Nat),
     s.canonical = true → ∀ b, s.flash.scanNew = some b → s.downloading 0xA040 = false →
     ∃ u, Sys2Proof.Machine.exec (.scanContentVerify t) s = .next u ∧ (
       u.flash = (if s.objectOk b 2 = true then
         { s.flash with scan := b, scanNew := none, scanState := 2, scanGood := true, scanVersion := objVersion b }
         else { s.flash with scanNew := none, scanState := 3 }) ∧
       u.obj 0x9024 0 = (if s.objectOk b 2 = true then s.obj 0x9024 0 else (s.obj 0x9024 0 + 1) % 2 ^ 64) ∧
       Within [.flash, .dict, .clock] s u ∧ ObjsBut (fun i j => i == 0x9024 && j == 0) s u)) ∧
  (∀ (s : State) (t : Nat),
     s.flash.scanNew = none →
     ∃ u, Sys2Proof.Machine.exec (.scanContentVerify t) s = .next u ∧ (
       Within [.clock] s u))

/-- A WRITE that sets 0x8810:01 or 0x8810:02 to 1 while the other reads 1 is answered 0x0800_0031 and changes no object but the
answer counters; a WRITE of 0 to either is answered with success and the function reads 0; a WRITE of 1 while the other reads 0
is answered with success and the function reads 1. (R388 (spec/14_dictionary_map.md)) -/
def Obligations.EvtOutExclusion : Prop :=
  (∀ (s : State) (r : Req) (sub v : Nat),
     ∀ u, s.Writable r 0x8810 sub v u → (sub = 1 ∨ sub = 2) → v = 1 → u.flag 0x8810 (3 - sub) = true →
     ∃ w, Sys2Proof.Machine.exec (.evtOutFunctionWrite r sub v) s = .next w ∧ (
       w.Answered svcWrite r 0x8810 sub 0x08000031 [] ∧ Served [] noObj s u w)) ∧
  (∀ (s : State) (r : Req) (sub v : Nat),
     ∀ u, s.Writable r 0x8810 sub v u → s.canonical = true → (sub = 1 ∨ sub = 2) → (v = 0 ∨ u.flag 0x8810 (3 - sub) = false) →
     ∃ w, Sys2Proof.Machine.exec (.evtOutFunctionWrite r sub v) s = .next w ∧ (
       w.Answered svcWrite r 0x8810 sub 0 [] ∧ w.obj 0x8810 sub = v ∧ Served [] (fun i j => i == 0x8810 && j == sub) s u w))

/-- RULE_COMMIT of a newer accession with no commit scheduled, none retiring, no pair mismatch and a bank without errors is answered
with success and scheduled for the bank's commit time; MODEL_COMMIT likewise for the staged slot. A second commit is answered
0x0800_004D, one during a retirement 0x0800_0043, an accession that is not newer 0x0800_0044, an in-line pair that differs
0x0800_0036. COMMIT_CANCEL drops the scheduled commit of its kind and keeps the other. CYCLIC_COMMIT that passes its checks
leaves a group waiting for the first cycle start. DISCARD_STAGED drops exactly the staged values of the groups its bits name.
(spec/10_scene_changes.md, Accession numbers, spec/10_scene_changes.md, Commit and the instant it takes effect,
spec/02_intake.md, Attach modes and the safety curtain, spec/13_dictionary_protocol.md, The object model) -/
def Obligations.CommitRequests : Prop :=
  (∀ (s : State) (r : Req) (acc : Nat),
     ∀ u, s.Writable r 0x3808 0 acc u → u.lib.schedRule = none → u.ruleRetiring = false → acc ≠ 0 → newer acc (u.get 0x3809 0) = true →
     u.pairMismatch = false → u.stagedBank.commitError = none →
     ∃ w, Sys2Proof.Machine.exec (.ruleCommit r acc) s = .next w ∧ (
       w.Answered svcWrite r 0x3808 0 0 [] ∧ w.lib = { s.lib with schedRule := some ⟨acc, u.stagedBank.get 0x6809 0⟩ } ∧ Served [.lib] noObj s u w)) ∧
  (∀ (s : State) (r : Req) (acc : Nat),
     ∀ u, s.Writable r 0x3808 0 acc u → acc ≠ 0 → (u.lib.schedRule.isSome = true ∨ u.ruleRetiring = true ∨ newer acc (u.get 0x3809 0) = false ∨
       u.pairMismatch = true) →
     ∃ w, Sys2Proof.Machine.exec (.ruleCommit r acc) s = .next w ∧ (
       w.Answered svcWrite r 0x3808 0 (if u.lib.schedRule.isSome then 0x0800004D else if u.ruleRetiring then 0x08000043
         else if newer acc (u.get 0x3809 0) = false then 0x08000044 else 0x08000036) [] ∧ Served [] noObj s u w)) ∧
  (∀ (s : State) (r : Req) (acc : Nat),
     ∀ u, s.Writable r 0x6808 0 acc u → u.lib.schedModel = none → u.lib.retiring = none → acc ≠ 0 → newer acc u.activeModel = true →
     ∀ m, u.lib.staged = some m → m.slot = u.stagedOr 0x6803 1 → (u.slotState m.slot = slotStaged ∨ u.slotState m.slot = slotRipple) →
     ∃ w, Sys2Proof.Machine.exec (.modelCommit r acc) s = .next w ∧ (
       w.Answered svcWrite r 0x6808 0 0 [] ∧ w.lib = { s.lib with schedModel := some ⟨acc, u.stagedOr 0x6803 3⟩ } ∧ Served [.lib] noObj s u w)) ∧
  (∀ (s : State) (r : Req) (acc : Nat),
     ∀ u, s.Writable r 0x6808 0 acc u → acc ≠ 0 → (u.lib.schedModel.isSome = true ∨ u.lib.retiring.isSome = true ∨ newer acc u.activeModel = false ∨
       u.lib.staged = none) →
     ∃ w, Sys2Proof.Machine.exec (.modelCommit r acc) s = .next w ∧ (
       w.Answered svcWrite r 0x6808 0 (if u.lib.schedModel.isSome then 0x0800004D else if u.lib.retiring.isSome then 0x08000043
         else if newer acc u.activeModel = false then 0x08000044 else 0x0800004B) [] ∧ Served [] noObj s u w)) ∧
  (∀ (s : State) (r : Req) (kind : AccKind),
     ∀ u, s.Writable r (match kind with | .rule => 0x3808 | .model => 0x6808) 0 0 u →
     (match kind with | .rule => u.lib.schedRule | .model => u.lib.schedModel).isSome = true →
     ∃ w, Sys2Proof.Machine.exec (.commitCancel r kind) s = .next w ∧ (
       w.Answered svcWrite r (match kind with | .rule => 0x3808 | .model => 0x6808) 0 0 [] ∧
       w.lib = (match kind with | .rule => { s.lib with schedRule := none } | .model => { s.lib with schedModel := none }) ∧
       Served [.lib] noObj s u w)) ∧
  (∀ (s : State) (r : Req),
     ∀ u, s.Writable r 0x1828 0 1 u → ∀ x, u.cyclicCommit 1 = .ok x →
     ∃ w, Sys2Proof.Machine.exec (.cyclicCommit r) s = .next w ∧ (
       w.Answered svcWrite r 0x1828 0 0 [] ∧
       w.mgmt = { s.mgmt with cyclicDue := some (s.staged.filter fun e => decide (groupOf (e.1 / 65536) (e.1 % 65536) = some 3)) } ∧
       w.staged = s.staged.filter (fun e => decide (groupOf (e.1 / 65536) (e.1 % 65536) ≠ some 3)) ∧ Served [.mgmt, .staged] noObj s u w)) ∧
  (∀ (s : State) (r : Req) (bits : Nat),
     ∀ u, s.Writable r 0x2011 0 bits u → u.lib.schedRule = none → u.lib.schedModel = none →
     ∃ w, Sys2Proof.Machine.exec (.discardStaged r bits) s = .next w ∧ (
       w.Answered svcWrite r 0x2011 0 0 [] ∧
       w.staged = s.staged.filter (fun e => match groupOf (e.1 / 65536) (e.1 % 65536) with | some g => !(Bits.bit bits g) | none => true) ∧
       w.intake = (if Bits.bit bits 0 then { s.intake with staged := none } else s.intake) ∧ Served [.staged, .intake] noObj s u w))

/-- COMMIT_TAKES_EFFECT at its time: the staged rule bank becomes active under the new accession and the old bank retires; the
staged model becomes active and the old model retires; the sequencing cycle under way takes no further frame. Before its time
nothing changes. ACCESSION_RETIRE ends the retirement when nothing of the accession is in flight, and not before.
RETIREMENT_OVERDUE counts once and raises its event, and the retirement goes on. FORCE_RETIRE leaves no started list and no held
packet of the accession; with nothing retiring it changes nothing. (spec/02_intake.md, Classifier and accession stamping,
spec/10_scene_changes.md, Commit and the instant it takes effect, spec/10_scene_changes.md, In flight and retirement) -/
def Obligations.AccessionCommands : Prop :=
  (∀ (s : State) (t : Nat),
     ∀ c, s.lib.schedRule = some c → s.canonical = true → s.frozen = false → s.lib.schedModel = none → c.time ≤ (s.at t).now →
     ∃ u, Sys2Proof.Machine.exec (.commitTakesEffect t) s = .next u ∧ (
       u.intake = { s.intake with bank := { s.stagedBank with acc := c.acc }, retiring := some s.intake.bank, staged := none, seqPos := 4 } ∧
       u.lib = { s.lib with schedRule := none, ruleFrom := u.now, ruleLate := false } ∧ u.obj 0x3809 0 = c.acc ∧ u.obj 0x6802 0 = s.intake.bank.acc ∧
       Within [.intake, .lib, .dict, .flash, .clock, .pwr, .free, .mem, .memc, .obs, .out] s u ∧
       Notes (fun i j => (i == 0x3809 || i == 0x6802) && j == 0) s u)) ∧
  (∀ (s : State) (t : Nat),
     ∀ c, s.lib.schedModel = some c → s.canonical = true → s.frozen = false → s.lib.schedRule = none → c.time ≤ (s.at t).now →
     ∀ m, s.lib.staged = some m → s.sync.taps = [] →
     ∃ u, Sys2Proof.Machine.exec (.commitTakesEffect t) s = .next u ∧ (
       u.lib = { s.lib with
         active := some { m with acc := c.acc }
         retiring := s.lib.active
         staged := none
         schedModel := none
         modelFrom := u.now
         modelLate := false } ∧
       u.obj 0x6800 0 = c.acc ∧ u.obj 0x6801 0 = (s.lib.active.map Model.acc).getD 0 ∧ u.intake = { s.intake with seqPos := 4 } ∧
       Within [.intake, .lib, .arr, .staged, .dict, .flash, .clock, .pwr, .free, .mem, .memc, .obs, .out] s u)) ∧
  (∀ (s : State) (t : Nat),
     ∀ c, s.lib.schedRule = some c → s.lib.schedModel = none → (s.at t).now < c.time →
     ∃ u, Sys2Proof.Machine.exec (.commitTakesEffect t) s = .next u ∧ (
       Within [.clock] s u)) ∧
  (∀ (s : State) (kind : AccKind) (t : Nat),
     ∀ b, s.intake.retiring = some b → s.canonical = true → kind = .rule → s.frozen = false → b.acc ≠ 0 → s.rulePackets b.acc = 0 →
     ∃ u, Sys2Proof.Machine.exec (.accessionRetire kind t) s = .next u ∧ (
       u.intake = { s.intake with retiring := none } ∧ u.lib = { s.lib with ruleLate := false } ∧ u.obj 0x6802 0 = 0 ∧
       u.obj 0x680D 0 = (s.obj 0x680D 0 + 1) % 2 ^ 64 ∧ Raised (Config.eventCode 8) 0x6802 0 s u ∧
       Within [.intake, .lib, .dict, .clock, .pwr, .free, .mem, .memc, .obs, .odp, .out] s u ∧
       Notes (fun i j => (i == 0x6802 || i == 0x680D) && j == 0) s u)) ∧
  (∀ (s : State) (kind : AccKind) (t : Nat),
     ∀ b, s.intake.retiring = some b → kind = .rule → (s.frozen = true ∨ s.rulePackets b.acc ≠ 0) →
     ∃ u, Sys2Proof.Machine.exec (.accessionRetire kind t) s = .next u ∧ (
       Within [.clock] s u)) ∧
  (∀ (s : State) (kind : AccKind) (t : Nat),
     ∀ m, s.lib.retiring = some m → s.canonical = true → kind = .model → s.frozen = false → s.sync.taps = [] → s.modelIdle m.acc = true → m.slot < 16 →
     ∃ u, Sys2Proof.Machine.exec (.accessionRetire kind t) s = .next u ∧ (
       u.lib = { s.lib with retiring := none, modelLate := false } ∧ u.obj 0x6801 0 = 0 ∧ u.obj (0x6820 + m.slot) 1 = slotValid ∧
       u.obj 0x680D 0 = (s.obj 0x680D 0 + 1) % 2 ^ 64 ∧ Raised (Config.eventCode 8) 0x6801 0 s u ∧
       u.arr = (s.freeRecords m.acc).arr ∧ Within [.arr, .lib, .dict, .clock, .pwr, .free, .mem, .memc, .obs, .odp, .out] s u ∧
       Notes (fun i j => ((i == 0x6801 || i == 0x680D) && j == 0) || (i == 0x6820 + m.slot && j == 1)) s u)) ∧
  (∀ (s : State) (kind : AccKind) (t : Nat),
     s.canonical = true → kind = .model → s.lib.retiring.isSome = true → s.lib.modelLate = false →
     s.lib.modelFrom + s.get 0x680A 0 * 1000000 ≤ (s.at t).now →
     ∃ u, Sys2Proof.Machine.exec (.retirementOverdue kind t) s = .next u ∧ (
       u.lib = { s.lib with modelLate := true } ∧ u.obj 0x680E 0 = (s.obj 0x680E 0 + 1) % 2 ^ 64 ∧ Raised (Config.eventCode 9) 0x6801 0 s u ∧
       Within [.lib, .dict, .clock, .mem, .memc, .obs, .odp, .out] s u ∧ Notes (fun i j => i == 0x680E && j == 0) s u)) ∧
  (∀ (s : State) (kind : AccKind) (t : Nat),
     s.canonical = true → kind = .rule → s.get 0x6802 0 ≠ 0 → s.lib.ruleLate = false →
     s.lib.ruleFrom + s.get 0x680A 0 * 1000000 ≤ (s.at t).now →
     ∃ u, Sys2Proof.Machine.exec (.retirementOverdue kind t) s = .next u ∧ (
       u.lib = { s.lib with ruleLate := true } ∧ u.obj 0x680E 0 = (s.obj 0x680E 0 + 1) % 2 ^ 64 ∧ Raised (Config.eventCode 9) 0x6802 0 s u ∧
       Within [.lib, .dict, .clock, .mem, .memc, .obs, .odp, .out] s u ∧ Notes (fun i j => i == 0x680E && j == 0) s u)) ∧
  (∀ (s : State) (kind : AccKind) (t : Nat),
     (match kind with
       | .model => s.lib.retiring.isNone || s.lib.modelLate || decide ((s.at t).now < s.lib.modelFrom + s.get 0x680A 0 * 1000000)
       | .rule => decide (s.get 0x6802 0 = 0) || s.lib.ruleLate || decide ((s.at t).now < s.lib.ruleFrom + s.get 0x680A 0 * 1000000)) = true →
     ∃ u, Sys2Proof.Machine.exec (.retirementOverdue kind t) s = .next u ∧ (
       Within [.clock] s u)) ∧
  (∀ (s : State) (r : Req),
     ∀ u, s.Writable r 0x680B 0 1 u → ∀ m, u.lib.retiring = some m →
     ∃ w, Sys2Proof.Machine.exec (.forceRetireModel r) s = .next w ∧ (
       .answer (mkAnswer svcWrite r 0x680B 0 0 []) ∈ w.out ∧ w.lib = s.lib ∧
       ((List.range 16).all fun a => (w.listsOf a).all fun x => !(decide (x.ring < 16) && decide (x.acc = m.acc))) = true ∧
       (w.pkts.all fun p => !(decide (p.stage = .held) && decide (p.ma = m.acc))) = true)) ∧
  (∀ (s : State) (r : Req),
     ∀ u, s.Writable r 0x680B 0 1 u → u.lib.retiring = none →
     ∃ w, Sys2Proof.Machine.exec (.forceRetireModel r) s = .next w ∧ (
       w.Answered svcWrite r 0x680B 0 0 [] ∧ Served [] noObj s u w)) ∧
  (∀ (s : State) (r : Req),
     ∀ u, s.Writable r 0x680B 0 2 u → ∀ b, u.intake.retiring = some b →
     ∃ w, Sys2Proof.Machine.exec (.forceRetireRule r) s = .next w ∧ (
       w.Answered svcWrite r 0x680B 0 0 [] ∧ w.lib = s.lib ∧ w.arr = s.arr ∧
       (w.pkts.all fun p => !(decide (p.stage = .held) && decide (p.ra = b.acc))) = true)) ∧
  (∀ (s : State) (r : Req),
     ∀ u, s.Writable r 0x680B 0 2 u → u.intake.retiring = none →
     ∃ w, Sys2Proof.Machine.exec (.forceRetireRule r) s = .next w ∧ (
       w.Answered svcWrite r 0x680B 0 0 [] ∧ Served [] noObj s u w))

/-- IMAGE_LOAD_CHECK of a slot in LOADING whose transfer has ended makes it VALID with the model the checks gave, or EMPTY with the
abort code of the failed check; of another slot it changes nothing. STAGE_REQUEST of a VALID slot that fits stages its model, by
ripple at once; during a retirement it is answered 0x0800_0043. STAGING_COMPLETE makes the slot STAGED once no side-by-side list
is left. INSTALL_LIST_START starts the install list on ring 16, and INSTALL_COMPLETE empties the install ring. ERASE of a slot
that is not in use empties it and voids its persisted copy; of one in use it is answered 0x0800_004A. (spec/10_scene_changes.md,
The library, spec/10_scene_changes.md, Staging and the two kinds of scene change) -/
def Obligations.StagingCommands : Prop :=
  (∀ (s : State) (slot : Fin 16) (t : Nat),
     s.canonical = true → s.slotState slot.val = slotLoading →
     (s.odp.transfers.any fun x => !x.upload && decide (x.idx = 0xA010 + slot.val)) = false →
     ∃ u, Sys2Proof.Machine.exec (.imageLoadCheck slot t) s = .next u ∧ (
       Within [.dict, .lib, .flash, .odp, .out, .clock, .arr, .mem, .memc, .obs] s u ∧
       (∀ m, (s.at t).checkModel (s.memRead (s.slotAt slot.val).off (s.slotAt slot.val).size) slot.val (s.slotAt slot.val).len = .ok m →
         u.slotState slot.val = slotValid ∧ (u.slotAt slot.val).model = some m ∧ u.obj (0x6820 + slot.val) 9 = 0) ∧
       (∀ c, (s.at t).checkModel (s.memRead (s.slotAt slot.val).off (s.slotAt slot.val).size) slot.val (s.slotAt slot.val).len = .error c →
         u.slotState slot.val = slotEmpty ∧ u.slotAt slot.val = {} ∧ u.obj (0x6820 + slot.val) 9 = c))) ∧
  (∀ (s : State) (slot : Fin 16) (t : Nat),
     s.slotState slot.val ≠ slotLoading →
     ∃ u, Sys2Proof.Machine.exec (.imageLoadCheck slot t) s = .next u ∧ (
       Within [.clock] s u)) ∧
  (∀ (s : State) (r : Req) (slot : Fin 16) (mode : Nat),
     ∀ u, s.Writable r (0x6820 + slot.val) 6 mode u → mode = 1 → u.lib.retiring = none → u.lib.schedModel = none →
     ∀ m, (u.slotAt slot.val).model = some m → u.slotState slot.val = slotValid → u.staging = false → u.lib.active = none → u.lib.staged = none →
     u.tablesFit none m = true →
     ∃ w, Sys2Proof.Machine.exec (.stageRequest r slot mode) s = .next w ∧ (
       w.Answered svcWrite r (0x6820 + slot.val) 6 0 [] ∧ w.lib = { s.lib with staged := some m } ∧ w.slotState slot.val = slotRipple ∧
       Served [.lib, .arr, .mem, .memc] (fun i j => i == 0x6820 + slot.val && j == 1) s u w)) ∧
  (∀ (s : State) (r : Req) (slot : Fin 16) (mode : Nat),
     ∀ u, s.Writable r (0x6820 + slot.val) 6 mode u → mode = 0 → u.lib.retiring = none → u.lib.schedModel = none →
     ∀ m, (u.slotAt slot.val).model = some m → u.slotState slot.val = slotValid → u.staging = false → u.lib.active = none → u.lib.staged = none →
     u.tablesFit none m = true →
     ∃ w, Sys2Proof.Machine.exec (.stageRequest r slot mode) s = .next w ∧ (
       w.Answered svcWrite r (0x6820 + slot.val) 6 0 [] ∧ w.lib = { s.lib with staged := some m } ∧ w.slotState slot.val = slotValid ∧
       ((List.range 16).all fun a => decide (m.shelf.any (fun x => decide (x.array = a)) = true → (w.arrAt a).instKind = 1)) = true ∧
       Served [.lib, .arr, .mem, .memc] (fun i j => decide (0x6810 ≤ i) && decide (i < 0x6820) && j == 1) s u w)) ∧
  (∀ (s : State) (r : Req) (slot : Fin 16) (mode : Nat),
     ∀ u, s.Writable r (0x6820 + slot.val) 6 mode u → mode ≤ 2 → u.lib.retiring.isSome = true →
     ∃ w, Sys2Proof.Machine.exec (.stageRequest r slot mode) s = .next w ∧ (
       w.Answered svcWrite r (0x6820 + slot.val) 6 0x08000043 [] ∧ Served [] noObj s u w)) ∧
  (∀ (s : State) (slot : Fin 16) (t : Nat),
     ∀ m, s.lib.staged = some m → s.canonical = true → m.slot = slot.val → s.slotState slot.val = slotValid → s.staging = false →
     ∃ u, Sys2Proof.Machine.exec (.stagingComplete slot t) s = .next u ∧ (
       u.slotState slot.val = slotStaged ∧ Within [.dict, .clock] s u ∧ ObjsBut (fun i j => i == 0x6820 + slot.val && j == 1) s u)) ∧
  (∀ (s : State) (slot : Fin 16) (t : Nat),
     s.staging = true →
     ∃ u, Sys2Proof.Machine.exec (.stagingComplete slot t) s = .next u ∧ (
       Within [.clock] s u)) ∧
  (∀ (s : State) (a : Fin 16) (t : Nat),
     s.canonical = true → (s.at t).installReady a.val = true → (s.arrAt a.val).instKind = 1 → (s.arrAt a.val).susp = [] → (s.at t).nextRing a.val = some 16 →
     ∃ u, Sys2Proof.Machine.exec (.installListStart a t) s = .next u ∧ (
       (u.arrAt a.val).run.map Run.ring = some 16 ∧ (u.arrAt a.val).run.map Run.acc = some (s.arrAt a.val).instAcc ∧ (u.arrAt a.val).rot = 16 ∧
       u.obj (0x6810 + a.val) 1 = 1 ∧ Within [.arr, .dict, .clock] s u)) ∧
  (∀ (s : State) (a : Fin 16) (t : Nat),
     (s.at t).installReady a.val = false →
     ∃ u, Sys2Proof.Machine.exec (.installListStart a t) s = .next u ∧ (
       Within [.clock] s u)) ∧
  (∀ (s : State) (a : Fin 16) (t : Nat),
     s.canonical = true → (s.arrAt a.val).instKind = 1 → (s.arrAt a.val).instCons = 1 → ((s.listsOf a.val).any fun x => decide (x.ring = 16)) = false →
     ∃ u, Sys2Proof.Machine.exec (.installComplete a t) s = .next u ∧ (
       u.arr = (s.modArr a.val fun x => { x with install := [], instCons := 0, instKind := 0 }).arr ∧ u.obj (0x6810 + a.val) 1 = 0 ∧
       Within [.arr, .dict, .clock] s u ∧ ObjsBut (fun i j => i == 0x6810 + a.val && j == 1) s u)) ∧
  (∀ (s : State) (a : Fin 16) (t : Nat),
     (s.arrAt a.val).instCons = 0 →
     ∃ u, Sys2Proof.Machine.exec (.installComplete a t) s = .next u ∧ (
       Within [.clock] s u)) ∧
  (∀ (s : State) (r : Req) (slot : Fin 16),
     ∀ u, s.Writable r (0x6820 + slot.val) 8 1 u → s.canonical = true → u.slotBusy slot.val = false →
     ∃ w, Sys2Proof.Machine.exec (.erase r slot) s = .next w ∧ (
       w.Answered svcWrite r (0x6820 + slot.val) 8 0 [] ∧ w.slotState slot.val = slotEmpty ∧ w.slotAt slot.val = {} ∧
       w.flash = { s.flash with models := s.flash.models.filter (fun x => decide (x.slot ≠ slot.val)) } ∧
       Within [.odp, .out, .dict, .clock, .lib, .flash, .arr] s w)) ∧
  (∀ (s : State) (r : Req) (slot : Fin 16),
     ∀ u, s.Writable r (0x6820 + slot.val) 8 1 u → u.slotBusy slot.val = true →
     ∃ w, Sys2Proof.Machine.exec (.erase r slot) s = .next w ∧ (
       w.Answered svcWrite r (0x6820 + slot.val) 8 0x0800004A [] ∧ Served [] noObj s u w))

/-- SAVE_CONFIGURATION with no save under way takes the values in force and leaves the answer for SAVE_COMPLETE, which makes them
the store and answers; a second save meanwhile is answered 0x0800_0010. RESTORE_DEFAULTS voids the store for the next cold
start. REGION_COMMIT in PREPARE of a map that stands puts every staged base and size in force and in the store; bytes outside
the changed regions and the logbook stay. HOLD_POOL_SHARE_APPLY with an empty hold pool, in DRAIN or PREPARE, puts the waiting
shares in force, and else nothing. (spec/09_memory.md, Regions, spec/09_memory.md, Burst SRAM and the hold pool,
spec/13_dictionary_protocol.md, The object model, spec/14_dictionary_map.md, Persistence) -/
def Obligations.StoreCommands : Prop :=
  (∀ (s : State) (r : Req),
     ∀ u, s.Writable r 0x2020 0 1 u → u.saving = none →
     ∃ w, Sys2Proof.Machine.exec (.saveConfiguration r) s = .next w ∧ (
       w.saving = some ⟨mkAnswer svcWrite r 0x2020 0 0 [], u.savedValues, u.now⟩ ∧ w.odp = u.odp ∧ Within [.saving, .odp, .clock] s w)) ∧
  (∀ (s : State) (r : Req),
     ∀ u, s.Writable r 0x2020 0 1 u → ∀ x, u.saving = some x → x.answer.isOf r = false →
     ∃ w, Sys2Proof.Machine.exec (.saveConfiguration r) s = .next w ∧ (
       w.Answered svcWrite r 0x2020 0 0x08000010 [] ∧ Served [] noObj s u w)) ∧
  (∀ (s : State) (t : Nat),
     ∀ x, s.saving = some x → s.servesOdp = true →
     ∃ w, Sys2Proof.Machine.exec (.saveComplete t) s = .next w ∧ (
       w.saving = none ∧ w.flash = { s.flash with config := some x.values, configRaw := none, configVoid := false } ∧
       w.out = .answer x.answer :: s.out ∧ w.odp = { s.odp with history := (x.answer :: s.odp.history).take 256 } ∧
       Within [.saving, .flash, .odp, .out, .dict, .clock] s w ∧ ObjsBut ansObj s w)) ∧
  (∀ (s : State) (t : Nat),
     (s.saving = none ∨ s.servesOdp = false) →
     ∃ w, Sys2Proof.Machine.exec (.saveComplete t) s = .next w ∧ (
       Within [.clock] s w)) ∧
  (∀ (s : State) (r : Req),
     ∀ u, s.Writable r 0x2021 0 1 u →
     ∃ w, Sys2Proof.Machine.exec (.restoreDefaults r) s = .next w ∧ (
       w.Answered svcWrite r 0x2021 0 0 [] ∧ w.flash = { s.flash with configVoid := true, regionMap := none } ∧ Served [.flash] noObj s u w)) ∧
  (∀ (s : State) (r : Req),
     ∀ u, s.Writable r 0x6008 0 1 u → s.canonical = true → u.dev.st = .prepare → u.overcommitted = false → u.sharesOk = true →
     (u.stagedRegion 0).1 = u.regionBase 0 → u.libraryEnd ≤ (u.stagedRegion 0).1 + (u.stagedRegion 0).2 →
     ∃ w, Sys2Proof.Machine.exec (.regionCommit r) s = .next w ∧ (
       .answer (mkAnswer svcWrite r 0x6008 0 0 []) ∈ w.out ∧
       ((List.range 6).all fun k => decide (w.regionBase k = (u.stagedRegion k).1) && decide (w.regionSize k = (u.stagedRegion k).2)) = true ∧
       (w.staged.all fun e => decide (groupOf (e.1 / 65536) (e.1 % 65536) ≠ some 2)) = true ∧
       ((List.range 6).all fun k =>
         decide (Sparse.read objDefault (w.flash.config.getD []) (objKey (0x6000 + k) 1) = (u.stagedRegion k).1) &&
         decide (Sparse.read objDefault (w.flash.config.getD []) (objKey (0x6000 + k) 2) = (u.stagedRegion k).2)) = true ∧
       Within [.odp, .out, .dict, .clock, .staged, .flash, .saving, .mem, .memc, .obs, .free] s w)) ∧
  (∀ (s : State) (t : Nat),
     s.canonical = true → s.heldCount = 0 → (s.dev.st = .drain ∨ s.dev.st = .prepare) →
     ∃ u, Sys2Proof.Machine.exec (.holdPoolShareApply t) s = .next u ∧ (
       u.obj 0x6020 0 = (match s.memc.burstShare with | some v => v | none => s.obj 0x6020 0) ∧
       u.obj 0x6021 0 = (match s.memc.bufShare with | some v => v | none => s.obj 0x6021 0) ∧
       u.memc = { s.memc with burstShare := none, bufShare := none } ∧ Within [.dict, .memc, .clock] s u ∧
       ObjsBut (fun i j => (i == 0x6020 || i == 0x6021) && j == 0) s u)) ∧
  (∀ (s : State) (t : Nat),
     (s.heldCount ≠ 0 ∨ (s.dev.st ≠ .drain ∧ s.dev.st ≠ .prepare)) →
     ∃ u, Sys2Proof.Machine.exec (.holdPoolShareApply t) s = .next u ∧ (
       Within [.clock] s u))

/-- Each write that meets the checks of its chapter is answered with success and the object reads the written value; the role while
another master is heard, a fixed source beside another, a ring storage or a queue binding that breaks its rule, or a rate or
burst outside its range, is answered with its own abort code and the object keeps its value. (spec/08_prompters.md, Rings and
lists, spec/11_egress.md, Queues, spec/11_egress.md, Shapers, spec/12_fabric.md, The house clock,
spec/13_dictionary_protocol.md, The ring) -/
def Obligations.ConfigurationWrites : Prop :=
  (∀ (s : State) (r : Req) (v : Nat),
     ∀ u, s.Writable r 0x1805 0 v u → s.canonical = true → (v = 0 ∨ u.hearsMaster = false) →
     ∃ w, Sys2Proof.Machine.exec (.ringMasterRoleWrite r v) s = .next w ∧ (
       w.Answered svcWrite r 0x1805 0 0 [] ∧ w.obj 0x1805 0 = v ∧ w.mgmt = { s.mgmt with stopped := false, otherMaster := none } ∧
       Served [.mgmt] (fun i j => i == 0x1805 && j == 0) s u w)) ∧
  (∀ (s : State) (r : Req) (v : Nat),
     ∀ u, s.Writable r 0x1805 0 v u → v = 1 → u.hearsMaster = true →
     ∃ w, Sys2Proof.Machine.exec (.ringMasterRoleWrite r v) s = .next w ∧ (
       w.Answered svcWrite r 0x1805 0 0x08000013 [] ∧ Served [] noObj s u w)) ∧
  (∀ (s : State) (r : Req) (v : Nat),
     ∀ u, s.Writable r 0x2400 0 v u → s.canonical = true → u.otherSource = false →
     ∃ w, Sys2Proof.Machine.exec (.clockSourceWrite r v) s = .next w ∧ (
       w.Answered svcWrite r 0x2400 0 0 [] ∧ w.obj 0x2400 0 = v ∧ w.now = (s.at r.t).now)) ∧
  (∀ (s : State) (r : Req) (v : Nat),
     ∀ u, s.Writable r 0x2400 0 v u → u.otherSource = true → v ≠ 0 →
     ∃ w, Sys2Proof.Machine.exec (.clockSourceWrite r v) s = .next w ∧ (
       w.Answered svcWrite r 0x2400 0 0x08000032 [] ∧ Served [] noObj s u w)) ∧
  (∀ (s : State) (r : Req) (a ring : Fin 16) (sub v : Nat),
     ∀ u, s.Writable r (ringObj a.val ring.val) sub v u → s.canonical = true → (sub = 1 ∨ sub = 2) →
     ∃ w, Sys2Proof.Machine.exec (.ringStorageWrite r a ring sub v) s = .next w ∧ (
       if u.ringConflict a.val ring.val (if sub = 1 then v else u.get (ringObj a.val ring.val) 1)
           (if sub = 2 then v else u.get (ringObj a.val ring.val) 2) = true then
         w.Answered svcWrite r (ringObj a.val ring.val) sub 0x0800003E [] ∧ Served [] noObj s u w
       else w.Answered svcWrite r (ringObj a.val ring.val) sub 0 [] ∧ w.obj (ringObj a.val ring.val) sub = v ∧
         Served [] (fun i j => i == ringObj a.val ring.val && j == sub) s u w)) ∧
  (∀ (s : State) (r : Req) (idx sub v : Nat),
     ∀ u, s.Writable r idx sub v u → s.canonical = true → idx = 0x7101 →
     ∃ w, Sys2Proof.Machine.exec (.queueBindingWrite r idx sub v) s = .next w ∧ (
       if v ≤ 7 then w.Answered svcWrite r idx sub 0 [] ∧ w.obj idx sub = v ∧ Served [] (fun i j => i == idx && j == sub) s u w
       else w.Answered svcWrite r idx sub 0x0800004E [] ∧ Served [] noObj s u w)) ∧
  (∀ (s : State) (r : Req) (idx sub v : Nat),
     ∀ u, s.Writable r idx sub v u → s.canonical = true → idx = 0x7100 → v ≤ 3 → 256 ≤ u.get 0x7102 sub →
     ∃ w, Sys2Proof.Machine.exec (.queueBindingWrite r idx sub v) s = .next w ∧ (
       w.Answered svcWrite r idx sub 0 [] ∧ w.obj idx sub = v ∧ Served [] (fun i j => i == idx && j == sub) s u w)) ∧
  (∀ (s : State) (r : Req) (idx sub v : Nat),
     ∀ u, s.Writable r idx sub v u → s.canonical = true → (idx = 0x7104 ∨ idx = 0x7021) → v ≤ 400000 →
     ∃ w, Sys2Proof.Machine.exec (.shaperWrite r idx sub v) s = .next w ∧ (
       w.Answered svcWrite r idx sub 0 [] ∧ w.obj idx sub = v ∧ w.egr = { s.egr with tokens := w.egr.tokens } ∧
       Served [.egr] (fun i j => i == idx && j == sub) s u w)) ∧
  (∀ (s : State) (r : Req) (idx sub v : Nat),
     ∀ u, s.Writable r idx sub v u → (idx = 0x7105 ∨ idx = 0x7022) → (v < 64 ∨ 16777216 < v) →
     ∃ w, Sys2Proof.Machine.exec (.shaperWrite r idx sub v) s = .next w ∧ (
       w.Answered svcWrite r idx sub 0x0800004F [] ∧ Served [] noObj s u w))

/-- LINK_UP of an enabled port in RUN or DRAIN raises its link, restarts its sequence at 0 when it was down, and leaves its
crossings and window; LINK_DOWN only drops the link. A good frame of legal length on a port that is up, with room in the
crossing, waits there with its arrival stamp and is counted; a frame with a bad FCS, a short or an oversized one, or one that
finds the crossing full, only counts. FRAME_TRANSMITTED sends the crossing's first frame, padded to 60 bytes, with its departure
stamp; an IEEE 1588 event message from the other port of a pair with transparent clock has its residence time added. On a port
that is down, or outside RUN and DRAIN, nothing but house time changes. (spec/01_module.md, Clock-domain crossings,
spec/01_module.md, Integrity: checks on control, not on data, spec/02_intake.md, Line ports, spec/02_intake.md, Spreading and
reorder, spec/02_intake.md, IEEE 1588, spec/11_egress.md, Queues) -/
def Obligations.LinePortCommands : Prop :=
  (∀ (s : State) (p : Fin 4) (t : Nat),
     s.canonical = true → s.forwards = true → laneUsed (s.get 0x3001 (p.val + 1)) 0 = true →
     ∃ u, Sys2Proof.Machine.exec (.linkUp p t) s = .next u ∧ (
       u.line = (s.modLine p.val fun l => { l with up := true, nextSeq := if l.up then l.nextSeq else 0 }).line ∧ u.obj 0x3005 (p.val + 1) = 1 ∧
       Within [.line, .dict, .clock] s u ∧ ObjsBut (fun i j => i == 0x3005 && j == p.val + 1) s u)) ∧
  (∀ (s : State) (p : Fin 4) (t : Nat),
     (s.forwards = false ∨ laneUsed (s.get 0x3001 (p.val + 1)) 0 = false) →
     ∃ u, Sys2Proof.Machine.exec (.linkUp p t) s = .next u ∧ (
       Within [.clock] s u)) ∧
  (∀ (s : State) (p : Fin 4) (t : Nat),
     s.canonical = true →
     ∃ u, Sys2Proof.Machine.exec (.linkDown p t) s = .next u ∧ (
       u.line = (s.modLine p.val fun l => { l with up := false }).line ∧ u.obj 0x3005 (p.val + 1) = 0 ∧
       Within [.line, .dict, .clock] s u ∧ ObjsBut (fun i j => i == 0x3005 && j == p.val + 1) s u)) ∧
  (∀ (s : State) (p : Fin 4) (bytes : Bytes) (fcsGood : Bool) (t : Nat),
     s.canonical = true → s.forwards = true → (s.lineAt p.val).up = true → fcsGood = true → 64 ≤ bytes.length + 4 →
     bytes.length + 4 ≤ s.get 0x3004 (p.val + 1) →
     (s.lineAt p.val).rx.foldl (fun k f => k + frameWords f.bytes) 0 + frameWords bytes ≤ 512 →
     ∃ u, Sys2Proof.Machine.exec (.frameReceived p bytes fcsGood t) s = .next u ∧ (
       u.line = (s.modLine p.val fun l => { l with
         rx := l.rx ++ [⟨bytes, ((u.now : Int) - Bits.toInt 16 (s.get 0x3008 (p.val + 1))).toNat⟩] }).line ∧
       u.obj 0x3014 (p.val + 1) = (s.obj 0x3014 (p.val + 1) + 1) % 2 ^ 64 ∧ Within [.line, .dict, .clock] s u ∧
       ObjsBut (fun i j => i == 0x3014 && j == p.val + 1) s u)) ∧
  (∀ (s : State) (p : Fin 4) (bytes : Bytes) (fcsGood : Bool) (t : Nat),
     s.canonical = true → s.forwards = true → (s.lineAt p.val).up = true → (fcsGood = false ∨ bytes.length + 4 < 64 ∨
       s.get 0x3004 (p.val + 1) < bytes.length + 4 ∨ 512 < (s.lineAt p.val).rx.foldl (fun k f => k + frameWords f.bytes) 0 + frameWords bytes) →
     ∃ u, Sys2Proof.Machine.exec (.frameReceived p bytes fcsGood t) s = .next u ∧ (
       u.obj (if fcsGood = false then 0x3011 else if bytes.length + 4 < 64 then 0x3012 else if s.get 0x3004 (p.val + 1) < bytes.length + 4 then 0x3013
         else 0x3010) (p.val + 1) =
       (s.obj (if fcsGood = false then 0x3011 else if bytes.length + 4 < 64 then 0x3012 else if s.get 0x3004 (p.val + 1) < bytes.length + 4 then 0x3013
         else 0x3010) (p.val + 1) + 1) % 2 ^ 64 ∧ Within [.dict, .clock] s u ∧
       ObjsBut (fun i j => i == (if fcsGood = false then 0x3011 else if bytes.length + 4 < 64 then 0x3012
         else if s.get 0x3004 (p.val + 1) < bytes.length + 4 then 0x3013 else 0x3010) && j == p.val + 1) s u)) ∧
  (∀ (s : State) (p : Fin 4) (bytes : Bytes) (fcsGood : Bool) (t : Nat),
     (s.forwards = false ∨ (s.lineAt p.val).up = false) →
     ∃ u, Sys2Proof.Machine.exec (.frameReceived p bytes fcsGood t) s = .next u ∧ (
       Within [.clock] s u)) ∧
  (∀ (s : State) (p : Fin 4) (t : Nat),
     ∀ i, (s.lineAt p.val).tx.head? = some i → s.canonical = true → s.forwards = true → (s.lineAt p.val).up = true →
     (i.ingress = none ∨ s.flag 0x3007 (p.val / 2 + 1) = false ∨ ptpEvent i.bytes = none) →
     ∃ u, Sys2Proof.Machine.exec (.frameTransmitted p t) s = .next u ∧ (
       u.line = (s.modLine p.val fun l => { l with tx := l.tx.drop 1 }).line ∧
       u.out = .lineFrame p.val (i.bytes ++ List.replicate (60 - i.bytes.length) 0)
         ((u.now : Int) + Bits.toInt 16 (s.get 0x3009 (p.val + 1))).toNat :: s.out ∧
       u.obj 0x3015 (p.val + 1) = (s.obj 0x3015 (p.val + 1) + 1) % 2 ^ 64 ∧ Within [.line, .out, .dict, .clock] s u ∧
       ObjsBut (fun k j => k == 0x3015 && j == p.val + 1) s u)) ∧
  (∀ (s : State) (p : Fin 4) (t : Nat),
     ∀ i, (s.lineAt p.val).tx.head? = some i → s.forwards = true → (s.lineAt p.val).up = true → s.get 0x3000 0 = 0 →
     i.ingress = some (Bits.nxor p.val 1) → s.flag 0x3007 (p.val / 2 + 1) = true → ∀ e, ptpEvent i.bytes = some e → 60 ≤ i.bytes.length →
     ∃ u, Sys2Proof.Machine.exec (.frameTransmitted p t) s = .next u ∧ (
       u.out = .lineFrame p.val (addResidence i.bytes e.1 e.2 ((((u.now : Int) + Bits.toInt 16 (s.get 0x3009 (p.val + 1))).toNat : Int) - i.stamp))
         ((u.now : Int) + Bits.toInt 16 (s.get 0x3009 (p.val + 1))).toNat :: s.out ∧ Within [.line, .out, .dict, .clock] s u ∧
       ObjsBut (fun k j => k == 0x3015 && j == p.val + 1) s u)) ∧
  (∀ (s : State) (p : Fin 4) (t : Nat),
     ((s.lineAt p.val).tx = [] ∨ s.forwards = false ∨ (s.lineAt p.val).up = false) →
     ∃ u, Sys2Proof.Machine.exec (.frameTransmitted p t) s = .next u ∧ (
       Within [.clock] s u))

/-- With no commit due, FRAME_SEQUENCED gives the first frame of a port's crossing the next handle and sequence number, the
accessions of this instant and the next pipe, and appends it to the port's window; with 4,096 numbers outstanding it only counts
the stall. PACKET_CLASSIFIED of a well-formed packet whose rule only forwards gives it the rule's queue and counts the hit; one
malformed whose class is dropped is counted and gone. ECPRI_STREAM_EXPIRE forgets the named stream when 1 s has passed without a
packet, and no other. While frozen, or with no packet or no frame, nothing but house time changes. (spec/02_intake.md, Spreading
and reorder, spec/02_intake.md, Parsing, spec/02_intake.md, Malformed packets, spec/02_intake.md, The eCPRI sequence check,
spec/02_intake.md, Classifier and accession stamping, spec/11_egress.md, Packet memory) -/
def Obligations.IntakeCommands : Prop :=
  (∀ (s : State) (p : Fin 4) (cycle t : Nat),
     ∀ f, (s.lineAt p.val).rx.head? = some f → s.frozen = false → s.catFull = false → s.forwards = true → s.intake.seqCycle < cycle →
     s.lib.schedRule = none → s.lib.schedModel = none → (s.lineAt p.val).window.length < 4096 → ∀ b, s.placeBody f.bytes.length = some b →
     ∃ u, Sys2Proof.Machine.exec (.frameSequenced p cycle t) s = .next u ∧ (
       u.pkts = s.pkts ++ [{
         pid := s.nextPid, port := p.val, seq := (s.lineAt p.val).nextSeq, pipe := s.intake.pipeRot % 4, stamp := f.stamp,
         ra := s.intake.bank.acc, ma := s.get 0x6800 0, bytes := f.bytes, inBurst := b, loc := if b then 0 else s.bodyLoc s.nextPid }] ∧
       u.nextPid = s.nextPid + 1 ∧
       u.intake = { s.intake with pipeRot := (s.intake.pipeRot + 1) % 4, seqCycle := cycle, seqPos := (p.val + 4 - cycle % 4) % 4 + 1 } ∧
       u.line = (s.modLine p.val fun l => { l with
         rx := l.rx.drop 1, nextSeq := (l.nextSeq + 1) % 65536, window := l.window ++ [s.nextPid] }).line ∧
       u.memc = (if b then s.memc else (s.countBody (s.bodyLoc s.nextPid) f.bytes.length).memc) ∧
       Within [.pkts, .nextPid, .intake, .line, .clock, .memc] s u)) ∧
  (∀ (s : State) (p : Fin 4) (cycle t : Nat),
     ∀ f, (s.lineAt p.val).rx.head? = some f → s.canonical = true → s.frozen = false → s.catFull = false → s.forwards = true →
     s.intake.seqCycle < cycle → s.lib.schedRule = none → s.lib.schedModel = none → 4096 ≤ (s.lineAt p.val).window.length →
     ∃ u, Sys2Proof.Machine.exec (.frameSequenced p cycle t) s = .next u ∧ (
       u.obj 0x3801 (p.val + 1) = (s.obj 0x3801 (p.val + 1) + 1) % 2 ^ 64 ∧
       u.intake = { s.intake with seqCycle := cycle, seqPos := (p.val + 4 - cycle % 4) % 4 + 1 } ∧ Within [.intake, .dict, .clock] s u ∧
       ObjsBut (fun i j => i == 0x3801 && j == p.val + 1) s u)) ∧
  (∀ (s : State) (p : Fin 4) (cycle t : Nat),
     (s.frozen = true ∨ s.catFull = true ∨ cycle < s.intake.seqCycle ∨
       ((s.lineAt p.val).rx = [] ∧ s.lib.schedRule = none ∧ s.lib.schedModel = none)) →
     ∃ u, Sys2Proof.Machine.exec (.frameSequenced p cycle t) s = .next u ∧ (
       Within [.clock] s u)) ∧
  (∀ (s : State) (t : Nat),
     ∀ p, (s.pkts.find? fun p => p.stage = .parse ∧ s.pipeStopped p.pipe = false) = some p → s.frozen = false → s.catFull = false →
     s.lib.retiring = none → (parseFrame (s.bankOf p.ra) p.bytes).mal = 0 → (parseFrame (s.bankOf p.ra) p.bytes).ecpri = none →
     ∀ x, classify (s.bankOf p.ra) (parseFrame (s.bankOf p.ra) p.bytes).profile (packKey 320 (parseFrame (s.bankOf p.ra) p.bytes) p.bytes
       ((s.bankOf p.ra).profiles.getD (parseFrame (s.bankOf p.ra) p.bytes).profile [])) = some x →
     actPath x.2.action = 0 → actProfile x.2.action = 0 → actPunt x.2.action = false → actTap x.2.action = false → actMirror x.2.action = false →
     actRecord x.2.action = false → actMark x.2.action = 0 → p.mirror = none → p.flow = none → (s.lineAt p.port).skipped.contains p.pid = false →
     ∃ u, Sys2Proof.Machine.exec (.packetClassified t) s = .next u ∧ (
       u.pkts = (s.setPkt { p with
         parsed := parseFrame (s.bankOf p.ra) p.bytes
         action := x.2.action
         ruleIdx := x.1
         stage := .done
         dec := some (.enqueue (actQueue x.2.action)) }).pkts ∧
       Within [.pkts, .intake, .clock] s u)) ∧
  (∀ (s : State) (t : Nat),
     ∀ p, (s.pkts.find? fun p => p.stage = .parse ∧ s.pipeStopped p.pipe = false) = some p → s.canonical = true → s.frozen = false →
     s.catFull = false → s.lib.retiring = none → (parseFrame (s.bankOf p.ra) p.bytes).mal ≠ 0 → (parseFrame (s.bankOf p.ra) p.bytes).ecpri = none →
     (s.bankOf p.ra).get 0x3820 (parseFrame (s.bankOf p.ra) p.bytes).mal = 2 → p.mirror = none → (s.lineAt p.port).skipped.contains p.pid = false →
     ∃ u, Sys2Proof.Machine.exec (.packetClassified t) s = .next u ∧ (
       u.pkts = (s.dropPkt p.pid).pkts ∧ u.line = (s.freeSlot p).line ∧
       u.obj (0x3820 + (parseFrame (s.bankOf p.ra) p.bytes).mal) (p.port + 1) =
         (s.obj (0x3820 + (parseFrame (s.bankOf p.ra) p.bytes).mal) (p.port + 1) + 1) % 2 ^ 64 ∧
       Within [.pkts, .intake, .line, .dict, .clock] s u ∧
       ObjsBut (fun i j => i == 0x3820 + (parseFrame (s.bankOf p.ra) p.bytes).mal && j == p.port + 1) s u)) ∧
  (∀ (s : State) (t : Nat),
     s.lib.retiring = none → (s.frozen = true ∨ s.catFull = true ∨ (s.pkts.all fun p => decide (p.stage ≠ .parse)) = true) →
     ∃ u, Sys2Proof.Machine.exec (.packetClassified t) s = .next u ∧ (
       Within [.clock] s u)) ∧
  (∀ (s : State) (p : Fin 4) (msgType id t : Nat),
     s.frozen = false →
     ∃ u, Sys2Proof.Machine.exec (.ecpriStreamExpire p msgType id t) s = .next u ∧ (
       u.intake = { s.intake with
         streams := s.intake.streams.filter fun x => !(x.is p.val msgType id && decide (x.last + 1000000000 ≤ u.now)) } ∧
       Within [.intake, .clock] s u))

/-- REORDER_RELEASE of a window whose only packet has the decision to enqueue puts its frame at the end of that queue, when the
queue's port is enabled and its depth allows, and removes the packet; of one dropped only its mirror copy is enqueued; an
undecided oldest packet holds the port. REORDER_TIMEOUT of an undecided oldest packet skips its slot, counts it and reports
class 0x0C. SCHEDULER_SELECT with one eligible unshaped queue whose deficit suffices moves its head to the transmit crossing,
and with none eligible changes nothing but house time. (spec/02_intake.md, Spreading and reorder, spec/11_egress.md, Queues,
spec/11_egress.md, Scheduling) -/
def Obligations.OrderCommands : Prop :=
  (∀ (s : State) (p : Fin 4) (t : Nat),
     ∀ pid, (s.lineAt p.val).window.head? = some pid → (s.lineAt p.val).window.length = 1 → s.frozen = false → s.canonical = true →
     ∀ k, s.pkt? pid = some k → k.dec = some (.enqueue k.seq) → k.mirror = none → s.get 0x3001 (s.queuePort k.seq + 1) ≠ 0 →
     queueBytes (s.queue k.seq) + frameLen k.bytes ≤ s.get 0x7106 (k.seq + 1) →
     ∃ u, Sys2Proof.Machine.exec (.reorderRelease p t) s = .next u ∧ (
       u.egr = (s.setQueue k.seq (s.queue k.seq ++ [{ k.item with enq := u.now }])).egr ∧ u.pkts = (s.dropPkt pid).pkts ∧
       u.line = (s.modLine p.val fun l => { l with window := [] }).line ∧
       u.obj 0x710A (k.seq + 1) = (s.obj 0x710A (k.seq + 1) + 1) % 2 ^ 64 ∧ Within [.pkts, .line, .egr, .dict, .clock] s u ∧
       ObjsBut (fun i j => i == 0x710A && j == k.seq + 1) s u)) ∧
  (∀ (s : State) (p : Fin 4) (t : Nat),
     ∀ pid, (s.lineAt p.val).window.head? = some pid → (s.lineAt p.val).window.length = 1 → s.frozen = false → s.canonical = true →
     ∀ k, s.pkt? pid = some k → k.dec = some .drop → k.mirror = some k.seq → s.get 0x3001 (s.queuePort k.seq + 1) ≠ 0 →
     queueBytes (s.queue k.seq) + frameLen k.bytes ≤ s.get 0x7106 (k.seq + 1) →
     ∃ u, Sys2Proof.Machine.exec (.reorderRelease p t) s = .next u ∧ (
       u.egr = (s.setQueue k.seq (s.queue k.seq ++ [{ k.item with enq := u.now }])).egr ∧ u.pkts = (s.dropPkt pid).pkts ∧
       u.line = (s.modLine p.val fun l => { l with window := [] }).line ∧ Within [.pkts, .line, .egr, .dict, .clock] s u ∧
       ObjsBut (fun i j => i == 0x710A && j == k.seq + 1) s u)) ∧
  (∀ (s : State) (p : Fin 4) (t : Nat),
     ∀ pid, (s.lineAt p.val).window.head? = some pid → ∀ k, s.pkt? pid = some k → k.dec = none →
     ∃ u, Sys2Proof.Machine.exec (.reorderRelease p t) s = .next u ∧ (
       Within [.clock] s u)) ∧
  (∀ (s : State) (p : Fin 4) (t : Nat),
     ∀ pid, (s.lineAt p.val).window.head? = some pid → s.frozen = false → s.canonical = true → ∀ k, s.pkt? pid = some k → k.dec = none →
     k.stamp + s.get 0x3800 (p.val + 1) * 1000 ≤ (s.at t).now →
     ∃ u, Sys2Proof.Machine.exec (.reorderTimeout p t) s = .next u ∧ (
       u.line = (s.modLine p.val fun l => { l with window := l.window.drop 1, skipped := pid :: l.skipped }).line ∧
       u.obj 0x3802 (p.val + 1) = (s.obj 0x3802 (p.val + 1) + 1) % 2 ^ 64 ∧ Reported 0x0C s u ∧
       Within [.line, .dict, .clock, .pwr, .mem, .memc, .obs, .odp, .out, .flash, .rel, .free] s u ∧
       Notes (fun i j => i == 0x3802 && j == p.val + 1) s u)) ∧
  (∀ (s : State) (p : Fin 4) (t : Nat),
     ∀ pid, (s.lineAt p.val).window.head? = some pid → ∀ k, s.pkt? pid = some k →
     (k.dec.isSome = true ∨ (s.at t).now < k.stamp + s.get 0x3800 (p.val + 1) * 1000) →
     ∃ u, Sys2Proof.Machine.exec (.reorderTimeout p t) s = .next u ∧ (
       Within [.clock] s u)) ∧
  (∀ (s : State) (p : Fin 4) (t : Nat),
     ∀ v, s.bestLevel p.val = some v → s.frozen = false → s.forwards = true → s.canonical = true →
     (s.lineAt p.val).tx = [] → ∀ q, (s.levelQueues p.val v).head? = some q → (s.levelQueues p.val v).length = 1 →
     s.bucketRate q = 0 → s.queueGroup q = none → ∀ i, (s.queue q).head? = some i →
     Sparse.read (fun _ => (0, false)) s.egr.turn (p.val * 8 + v) = (q, true) → s.counted p.val i.bytes ≤ s.deficit q →
     ∃ u, Sys2Proof.Machine.exec (.schedulerSelect p t) s = .next u ∧ (
       u.line = (s.modLine p.val fun l => { l with tx := [i] }).line ∧ u.egr.q = (s.setQueue q ((s.queue q).drop 1)).egr.q ∧
       { u.egr with q := s.egr.q, deficit := s.egr.deficit, tokens := s.egr.tokens, turn := s.egr.turn } = s.egr ∧
       u.obj 0x710C (q + 1) = (s.obj 0x710C (q + 1) + frameLen i.bytes) % 2 ^ 64 ∧ Within [.line, .egr, .dict, .clock, .memc] s u ∧
       ObjsBut (fun i j => i == 0x710C && j == q + 1) s u)) ∧
  (∀ (s : State) (p : Fin 4) (t : Nat),
     (s.frozen = true ∨ s.forwards = false ∨ (s.at t).bestLevel p.val = none) →
     ∃ u, Sys2Proof.Machine.exec (.schedulerSelect p t) s = .next u ∧ (
       Within [.clock] s u))

/-- NEURAL_VERDICT_APPLY takes the oldest verdict of the emit crossing. Under an action-map entry of plain FORWARD its held packet
leaves for the classifier's queue, under one of plain DROP it is gone; a verdict for a packet no longer held is counted as late
and changes no packet. HOLD_TIMEOUT of a packet held for the hold timeout counts it and, under undetermined action DROP, it is
gone; before that it stays. (spec/04_trees.md, From verdict to action, spec/08_prompters.md, Verdicts, tensors, taps and time,
spec/11_egress.md, The hold pool) -/
def Obligations.HoldPoolCommands : Prop :=
  (∀ (s : State) (t : Nat),
     ∀ v, s.egr.neural.head? = some v → s.canonical = true → s.frozen = false → ∀ p, (s.pkts.find? fun p => p.pid = v.pid ∧ p.stage = .held) = some p →
     (s.bankOf p.ra).get (0x5080 + v.map) (v.cls + 1) = 0 → p.flow = none → s.get 0x3001 (s.queuePort (actQueue p.action) + 1) ≠ 0 →
     queueBytes (s.queue (actQueue p.action)) + frameLen p.bytes ≤ s.get 0x7106 (actQueue p.action + 1) →
     ∃ u, Sys2Proof.Machine.exec (.neuralVerdictApply t) s = .next u ∧ (
       u.pkts = (s.dropPkt v.pid).pkts ∧
       u.egr = { (s.setQueue (actQueue p.action) (s.queue (actQueue p.action) ++ [{ p.item with enq := u.now }])).egr with neural := s.egr.neural.drop 1 } ∧
       u.obj 0x710A (actQueue p.action + 1) = (s.obj 0x710A (actQueue p.action + 1) + 1) % 2 ^ 64 ∧ Within [.pkts, .egr, .dict, .clock] s u ∧
       ObjsBut (fun i j => i == 0x710A && j == actQueue p.action + 1) s u)) ∧
  (∀ (s : State) (t : Nat),
     ∀ v, s.egr.neural.head? = some v → s.frozen = false → ∀ p, (s.pkts.find? fun p => p.pid = v.pid ∧ p.stage = .held) = some p →
     (s.bankOf p.ra).get (0x5080 + v.map) (v.cls + 1) = 5 * 2 ^ 61 → p.flow = none →
     ∃ u, Sys2Proof.Machine.exec (.neuralVerdictApply t) s = .next u ∧ (
       u.pkts = (s.dropPkt v.pid).pkts ∧ u.egr = { s.egr with neural := s.egr.neural.drop 1 } ∧ Within [.pkts, .egr, .clock] s u)) ∧
  (∀ (s : State) (t : Nat),
     ∀ v, s.egr.neural.head? = some v → s.canonical = true → s.frozen = false → (s.pkts.find? fun p => p.pid = v.pid ∧ p.stage = .held) = none →
     ∃ u, Sys2Proof.Machine.exec (.neuralVerdictApply t) s = .next u ∧ (
       u.egr = { s.egr with neural := s.egr.neural.drop 1 } ∧ u.obj 0x7008 0 = (s.obj 0x7008 0 + 1) % 2 ^ 64 ∧ Within [.egr, .dict, .clock] s u ∧
       ObjsBut (fun i j => i == 0x7008 && j == 0) s u)) ∧
  (∀ (s : State) (pid t : Nat),
     ∀ p, (s.pkts.find? fun p => p.pid = pid ∧ p.stage = .held) = some p → s.canonical = true → s.frozen = false →
     p.heldAt + s.get 0x7002 0 * 1000 ≤ (s.at t).now → s.get 0x7001 (p.port + 1) = 1 → p.flow = none → s.holdRecord p = false →
     ∃ u, Sys2Proof.Machine.exec (.holdTimeout pid t) s = .next u ∧ (
       u.pkts = (s.dropPkt pid).pkts ∧ u.obj 0x7007 0 = (s.obj 0x7007 0 + 1) % 2 ^ 64 ∧ Within [.pkts, .dict, .clock] s u ∧
       ObjsBut (fun i j => i == 0x7007 && j == 0) s u)) ∧
  (∀ (s : State) (pid t : Nat),
     ∀ p, (s.pkts.find? fun p => p.pid = pid ∧ p.stage = .held) = some p → (s.at t).now < p.heldAt + s.get 0x7002 0 * 1000 →
     ∃ u, Sys2Proof.Machine.exec (.holdTimeout pid t) s = .next u ∧ (
       Within [.clock] s u))

/-- CATALOGUE_LOOKUP of the oldest packet waiting for one counts a miss and waits for its fetch while a bucket of its key is not in
the hot cache. With every bucket cached, sound, and held by no earlier operation it counts a hit and the packet goes on with its
flow and quantities: the entry found is written as R76 updates it, or, with learning on, a new entry into the place R78 chooses;
no other bucket changes. BUCKET_FETCH_COMPLETE of the only operation held puts its buckets into an empty hot cache and releases
the lookup. With no packet, no fetch, a full front or while frozen nothing but house time changes. (spec/03_catalogue.md,
Organisation, spec/03_catalogue.md, Order of operations, spec/03_catalogue.md, Lookup, update and learning) -/
def Obligations.CatalogueLookups : Prop :=
  (∀ (s : State) (t : Nat),
     ∀ p, (s.pkts.find? fun p => p.stage = .lookup) = some p → s.frozen = false → s.canonical = true → s.lib.retiring = none →
     ((s.pktKey p).buckets.any fun b => (s.way? b).isNone) = true → s.catFull = false →
     ∃ u, Sys2Proof.Machine.exec (.catalogueLookup t) s = .next u ∧ (
       u.cat = { s.cat with waiting := s.cat.waiting ++ [⟨.lookup p.pid (s.pktKey p), true⟩] } ∧ u.pkts = (s.setPkt { p with stage := .fetch }).pkts ∧
       u.obj 0x400A 0 = (s.obj 0x400A 0 + 1) % 2 ^ 64 ∧ Within [.cat, .pkts, .dict, .clock] s u ∧
       ObjsBut (fun i j => i == 0x400A && j == 0) s u)) ∧
  (∀ (s : State) (t : Nat),
     ∀ p, (s.pkts.find? fun p => p.stage = .lookup) = some p → s.frozen = false → s.canonical = true → s.lib.retiring = none →
     actPath p.action = 1 → s.hotSound (s.pktKey p).buckets = true → s.catBlocked (s.pktKey p).buckets = false → s.catFull = false →
     ∀ x, s.findEntry (s.pktKey p).profile (s.pktKey p).key (s.pktKey p).buckets = some x →
     ∃ u, Sys2Proof.Machine.exec (.catalogueLookup t) s = .next u ∧ (
       u.bucket x.1 = (s.bucket x.1).set x.2 (hitEntry (s.get (0x4010 + actProfile p.action) 4) p ((s.bucket x.1).getD x.2 0)) ∧
       BucketsBut (fun b => b == x.1) s u ∧
       u.pkts = (s.setPkt { p with
         stage := .vector
         flow := some (actProfile p.action, x.1, (s.pktKey p).key)
         quant := quantities p.stamp (idleTime p.stamp ((s.bucket x.1).getD x.2 0))
           (hitEntry (s.get (0x4010 + actProfile p.action) 4) p ((s.bucket x.1).getD x.2 0)) }).pkts ∧
       u.obj 0x4009 0 = (s.obj 0x4009 0 + 1) % 2 ^ 64 ∧ Within [.cat, .pkts, .dict, .clock] s u ∧
       ObjsBut (fun i j => (i == 0x4009 || i == 0x4001) && j == 0) s u)) ∧
  (∀ (s : State) (t : Nat),
     ∀ p, (s.pkts.find? fun p => p.stage = .lookup) = some p → s.frozen = false → s.canonical = true → s.lib.retiring = none →
     actPath p.action = 1 → s.hotSound (s.pktKey p).buckets = true → s.catBlocked (s.pktKey p).buckets = false → s.catFull = false →
     s.findEntry (s.pktKey p).profile (s.pktKey p).key (s.pktKey p).buckets = none → s.flag (0x4010 + actProfile p.action) 2 = true →
     ∀ x, s.place (s.pktKey p).pair = some x → x.1 ∈ (s.pktKey p).buckets →
     ∃ u, Sys2Proof.Machine.exec (.catalogueLookup t) s = .next u ∧ (
       u.bucket x.1 = (s.bucket x.1).set x.2 (newEntry (s.get 0x400F 0) (actProfile p.action) (s.pktKey p).key p) ∧
       BucketsBut (fun b => b == x.1) s u ∧ u.obj 0x4002 0 = (s.obj 0x4002 0 + 1) % 2 ^ 64 ∧
       u.pkts = (s.setPkt { p with
         stage := .vector
         flow := some (actProfile p.action, x.1, (s.pktKey p).key)
         quant := quantities p.stamp 0 (newEntry (s.get 0x400F 0) (actProfile p.action) (s.pktKey p).key p) }).pkts ∧
       Within [.cat, .pkts, .dict, .clock] s u ∧ ObjsBut (fun i j => (i == 0x4009 || i == 0x4001 || i == 0x4002) && j == 0) s u)) ∧
  (∀ (s : State) (t : Nat),
     s.lib.retiring = none → (s.frozen = true ∨ s.catFull = true ∨ (s.pkts.all fun p => decide (p.stage ≠ .lookup)) = true) →
     ∃ u, Sys2Proof.Machine.exec (.catalogueLookup t) s = .next u ∧ (
       Within [.clock] s u)) ∧
  (∀ (s : State) (pid t : Nat),
     ∀ w, s.cat.waiting = [w] → w.isLookup pid = true → w.fetching = true → s.frozen = false → s.cat.cache = [] →
     (s.opBuckets w.op).length ≤ 4 → (s.opBuckets w.op).Nodup → ∀ p, s.pkt? pid = some p → actPath p.action = 1 →
     ∃ u, Sys2Proof.Machine.exec (.bucketFetchComplete pid t) s = .next u ∧ (
       u.cat.waiting = [] ∧ u.cat.cache.map (fun x => x.bucket) = s.opBuckets w.op ∧
       (u.pkts.find? fun q => decide (q.pid = pid) && decide (q.stage = .fetch)) = none ∧
       BucketsBut (fun b => (s.opBuckets w.op).contains b) s u ∧
       Within [.cat, .pkts, .dict, .clock, .mem, .memc, .pwr, .flash, .rel, .obs, .odp, .out, .free, .sync, .arr, .intake, .egr] s u)) ∧
  (∀ (s : State) (pid t : Nat),
     s.lib.retiring = none → (s.frozen = true ∨ s.cat.waiting = []) →
     ∃ u, Sys2Proof.Machine.exec (.bucketFetchComplete pid t) s = .next u ∧ (
       Within [.clock] s u))

/-- SWEEPER_VISIT, no sooner than its bucket is due, clears hit bits, sets age bits and frees aged entries of one bucket, or waits
behind an earlier operation on it. MIGRATION_VISIT, no sooner than it is due and while a migration runs, advances by one bucket:
one without old-epoch entries keeps its content; one old-epoch entry whose new pair has room goes there under the new epoch; the
last visit that leaves none ends the migration with the new seeds in force. (spec/03_catalogue.md, Order of operations,
spec/03_catalogue.md, Aging, spec/03_catalogue.md, Rehash under a new seed) -/
def Obligations.CatalogueUpkeep : Prop :=
  (∀ (s : State) (t : Nat),
     s.frozen = false → s.catRuns = true → s.sweepDue ≤ (s.at t).clock.elapsed → s.catBlocked [s.cat.sweep] = true →
     ∃ u, Sys2Proof.Machine.exec (.sweeperVisit t) s = .next u ∧ (
       u.cat = { s.cat with
         sweep := (s.cat.sweep + 1) % bucketCount
         sweepFrom := if s.cat.sweep = 0 then u.clock.elapsed else s.cat.sweepFrom
         waiting := s.cat.waiting ++ [⟨.sweep s.cat.sweep, false⟩] } ∧ Within [.cat, .clock] s u)) ∧
  (∀ (s : State) (t : Nat),
     s.frozen = false → s.catRuns = true → s.sweepDue ≤ (s.at t).clock.elapsed → s.catBlocked [s.cat.sweep] = false →
     s.hotSound [s.cat.sweep] = true →
     ∃ u, Sys2Proof.Machine.exec (.sweeperVisit t) s = .next u ∧ (
       u.bucket s.cat.sweep = (s.bucket s.cat.sweep).map (fun e =>
         if entryValid e = false then e
         else if entryHit e = true then reparity (Bits.setFld (Bits.setFld e 502 502 0) 501 501 0)
         else if entryAge e = false then reparity (Bits.setFld e 501 501 1)
         else freed e) ∧
       BucketsBut (fun b => b == s.cat.sweep) s u ∧
       u.cat = { s.cat with
         sweep := (s.cat.sweep + 1) % bucketCount
         sweepFrom := if s.cat.sweep = 0 then u.clock.elapsed else s.cat.sweepFrom
         cache := u.cat.cache
         revived := s.cat.revived.filter fun r => decide (r.1 ≠ s.cat.sweep) } ∧
       Within [.cat, .dict, .clock] s u ∧ ObjsBut (fun i j => (i == 0x4001 || i == 0x4006 || i == 0x4007) && j == 0) s u)) ∧
  (∀ (s : State) (t : Nat),
     (s.frozen = true ∨ s.catRuns = false ∨ (s.at t).clock.elapsed < s.sweepDue) →
     ∃ u, Sys2Proof.Machine.exec (.sweeperVisit t) s = .next u ∧ (
       Within [.clock] s u)) ∧
  (∀ (s : State) (t : Nat),
     s.frozen = false → s.catRuns = true → s.get 0x400C 0 ≠ 0 → s.cat.migrDue ≤ 27 * (s.at t).clock.elapsed →
     s.catBlocked (s.migrateBuckets s.cat.migr) = false → s.hotSound [s.cat.migr] = true → s.oldCount s.cat.migr = 0 →
     s.cat.migr + 1 < bucketCount →
     ∃ u, Sys2Proof.Machine.exec (.migrationVisit t) s = .next u ∧ (
       u.cat = { s.cat with migr := s.cat.migr + 1, migrDue := u.cat.migrDue, cache := u.cat.cache } ∧
       u.cat.migrDue = Max.max (s.cat.migrDue + 20 * s.get 0x400D 0) (27 * u.clock.elapsed) ∧
       BucketsBut (fun _ => false) s u ∧ Within [.cat, .clock] s u)) ∧
  (∀ (s : State) (t : Nat),
     s.frozen = false → s.canonical = true → s.catRuns = true → s.get 0x400C 0 ≠ 0 → s.cat.migrDue ≤ 27 * (s.at t).clock.elapsed →
     s.catBlocked (s.migrateBuckets s.cat.migr) = false → s.hotSound (s.migrateBuckets s.cat.migr) = true → s.cat.migr + 1 < bucketCount →
     ∀ e, (s.bucket s.cat.migr).filter s.oldEpoch = [e] →
     ∀ x, (s.setEntry s.cat.migr ((s.bucket s.cat.migr).findIdx s.oldEpoch) (freed e)).place (s.learnPair (entryFlow e).1 (entryFlow e).2) = some x →
     s.get 0x400F 0 ≤ 1 →
     ∃ u, Sys2Proof.Machine.exec (.migrationVisit t) s = .next u ∧ (
       (u.bucket x.1).getD x.2 0 = reparity (Bits.setFld e 500 500 (s.get 0x400F 0)) ∧ u.oldCount s.cat.migr = 0 ∧
       BucketsBut (fun b => b == x.1 || b == s.cat.migr) s u ∧ u.cat.migr = s.cat.migr + 1 ∧ Within [.cat, .dict, .clock] s u ∧
       ObjsBut (fun i j => i == 0x4001 && j == 0) s u)) ∧
  (∀ (s : State) (t : Nat),
     s.frozen = false → s.canonical = true → s.catRuns = true → s.get 0x400C 0 ≠ 0 → s.cat.migrDue ≤ 27 * (s.at t).clock.elapsed →
     s.cat.waiting = [] → s.cat.migr + 1 = bucketCount → s.oldBuckets = [] → s.hotSound [s.cat.migr] = true → s.oldCount s.cat.migr = 0 →
     ∃ u, Sys2Proof.Machine.exec (.migrationVisit t) s = .next u ∧ (
       u.obj 0x400C 0 = 0 ∧ u.cat.seeds = s.cat.newSeeds.getD s.cat.seeds ∧ u.cat.newSeeds = none ∧ u.cat.migr = 0 ∧
       Within [.cat, .dict, .clock, .mem, .memc, .obs, .free, .pwr, .out] s u ∧ Notes (fun i j => i == 0x400C && j == 0) s u)) ∧
  (∀ (s : State) (t : Nat),
     (s.frozen = true ∨ s.catRuns = false ∨ s.get 0x400C 0 = 0 ∨ 27 * (s.at t).clock.elapsed < s.cat.migrDue) →
     ∃ u, Sys2Proof.Machine.exec (.migrationVisit t) s = .next u ∧ (
       Within [.clock] s u))

/-- REHASH_REQUEST outside TEST with no migration under way is answered with success, draws new seeds, exchanges the epoch and
starts pass 1; with one under way it is answered 0x0800_0039. PROBE of a key with no earlier operation on its buckets answers
the 64 bytes of its entry, or zeros, and PROBE_DELETE frees exactly the entry it finds; behind an earlier operation both wait.
CATALOGUE_CLEAR in PREPARE or DRAIN leaves no entry in the region, no hot cache and an occupancy of 0; in RUN it is answered
0x0800_0011. (spec/03_catalogue.md, Rehash under a new seed, spec/03_catalogue.md, State, reset and the fabric,
spec/03_catalogue.md, Host access, spec/13_dictionary_protocol.md, Frames) -/
def Obligations.CatalogueRequests : Prop :=
  (∀ (s : State) (r : Req),
     ∀ u, s.Writable r 0x400B 0 1 u → u.dev.st ≠ .test → u.get 0x400C 0 = 0 → s.canonical = true →
     ∃ w, Sys2Proof.Machine.exec (.rehashRequest r) s = .next w ∧ (
       .answer (mkAnswer svcWrite r 0x400B 0 0 []) ∈ w.out ∧ w.cat.newSeeds.isSome = true ∧
       w.cat = { s.cat with newSeeds := w.cat.newSeeds, migr := 0, migrDue := 27 * w.clock.elapsed } ∧ w.obj 0x400C 0 = 1 ∧
       w.obj 0x400F 0 = 1 - s.obj 0x400F 0 ∧ Within [.odp, .out, .dict, .clock, .cat, .free, .mem, .memc, .obs, .pwr] s w ∧
       Notes (fun i j => ansObj i j || (i == 0x400C || i == 0x400F) && j == 0) s w)) ∧
  (∀ (s : State) (r : Req),
     ∀ u, s.Writable r 0x400B 0 1 u → u.dev.st ≠ .test → u.get 0x400C 0 ≠ 0 →
     ∃ w, Sys2Proof.Machine.exec (.rehashRequest r) s = .next w ∧ (
       w.Answered svcWrite r 0x400B 0 0x08000039 [] ∧ Served [] noObj s u w)) ∧
  (∀ (s : State) (r : Req),
     ∀ u, s.Admits svcRead r 0x4020 3 [] u →
     (u.cat.waiting.any fun w => match w.op with | .probe a _ => a.isOf r | _ => false) = false →
     u.catBlocked u.probeKey.buckets = false → u.hotSound u.probeKey.buckets = true →
     ∃ w, Sys2Proof.Machine.exec (.probe r) s = .next w ∧ (
       w.Answered svcRead r 0x4020 3 0 (match u.findEntry (u.get 0x4020 1) (Bits.beNat (Bits.natLe 40 (u.get 0x4020 2))) u.probeKey.buckets with
         | some x => Bits.natLe 64 ((u.bucket x.1).getD x.2 0)
         | none => Bits.natLe 64 0) ∧
       w.cat = { s.cat with cache := w.cat.cache } ∧ BucketsBut (fun _ => false) s w ∧ Served [.cat] noObj s u w)) ∧
  (∀ (s : State) (r : Req),
     ∀ u, s.Admits svcRead r 0x4020 3 [] u →
     (u.cat.waiting.any fun w => match w.op with | .probe a _ => a.isOf r | _ => false) = false → u.catBlocked u.probeKey.buckets = true →
     ∃ w, Sys2Proof.Machine.exec (.probe r) s = .next w ∧ (
       w.cat = { s.cat with waiting := s.cat.waiting ++ [⟨.probe (mkAnswer svcRead r 0x4020 3 0 []) u.probeKey, false⟩] } ∧ w.odp = u.odp ∧
       Within [.odp, .cat, .clock] s w)) ∧
  (∀ (s : State) (r : Req),
     ∀ u, s.Writable r 0x4020 4 1 u → u.catBlocked u.probeKey.buckets = false → u.hotSound u.probeKey.buckets = true →
     ∀ x, u.findEntry (u.get 0x4020 1) (Bits.beNat (Bits.natLe 40 (u.get 0x4020 2))) u.probeKey.buckets = some x →
     ∃ w, Sys2Proof.Machine.exec (.probeDelete r) s = .next w ∧ (
       w.Answered svcWrite r 0x4020 4 0 [] ∧ w.bucket x.1 = (s.bucket x.1).set x.2 (freed ((s.bucket x.1).getD x.2 0)) ∧
       BucketsBut (fun b => b == x.1) s w ∧ w.cat = { s.cat with cache := w.cat.cache } ∧ Served [.cat] (fun i j => i == 0x4001 && j == 0) s u w)) ∧
  (∀ (s : State) (r : Req),
     ∀ u, s.Writable r 0x4020 4 1 u → u.catBlocked u.probeKey.buckets = true →
     ∃ w, Sys2Proof.Machine.exec (.probeDelete r) s = .next w ∧ (
       w.Answered svcWrite r 0x4020 4 0 [] ∧ w.cat = { s.cat with waiting := s.cat.waiting ++ [⟨.probeDelete u.probeKey, false⟩] } ∧
       Served [.cat] noObj s u w)) ∧
  (∀ (s : State) (r : Req),
     ∀ u, s.Writable r 0x4021 0 1 u → (u.dev.st = .prepare ∨ u.dev.st = .drain) → s.canonical = true →
     ∃ w, Sys2Proof.Machine.exec (.catalogueClear r) s = .next w ∧ (
       w.Answered svcWrite r 0x4021 0 0 [] ∧ w.cat = { s.cat with cache := [], revived := [] } ∧ w.obj 0x4001 0 = 0 ∧
       (∀ x, s.regionBase 2 ≤ x → x < s.regionBase 2 + s.regionSize 2 → w.byteAt x = w.memDef x) ∧
       BytesBut (fun x => decide (s.regionBase 2 ≤ x) && decide (x < s.regionBase 2 + s.regionSize 2)) s w ∧
       Served [.cat, .mem] (fun i j => i == 0x4001 && j == 0) s u w)) ∧
  (∀ (s : State) (r : Req),
     ∀ u, s.Writable r 0x4021 0 1 u → u.dev.st = .run →
     ∃ w, Sys2Proof.Machine.exec (.catalogueClear r) s = .next w ∧ (
       w.Answered svcWrite r 0x4021 0 0x08000011 [] ∧ Served [] noObj s u w))

/-- TREE_VECTOR_ENTRY in a later ARITH cycle than the last one served puts the head vector of its pipe into the banks of its
ensemble and port; in a cycle in which one of them is taken it waits, and each such bank counts the cycle once; a vector of an
undefined ensemble takes the undetermined verdict at once. TREE_VERDICT takes the oldest job of its bank: under an entry of DROP
alone the packet is gone and its number free, under one of FORWARD alone it goes to the classifier's queue, with its verdict,
class and score. TREE_BANK_TIMEOUT, 64 ARITH cycles after a vector entered, makes the bank suspect, empties it, sets the
replacement flag, records the error and takes RUN to DRAIN. Not due, or with nothing to do, only house time changes.
(spec/04_trees.md, Feature sources, spec/04_trees.md, Scaling, binning and codes, spec/04_trees.md, The bank pipeline,
spec/04_trees.md, Link functions and class choice, spec/04_trees.md, From verdict to action, spec/04_trees.md, Placement for
line rate, spec/15_reliability.md, Arbitration, spec/15_reliability.md, Suspects and the whole-chip drain) -/
def Obligations.TreeCommands : Prop :=
  (∀ (s : State) (pipe : Fin 4) (cycle t : Nat),
     ∀ p, (s.pkts.find? fun p => p.stage = .vector ∧ p.pipe = pipe.val) = some p → ∀ m, s.modelOf p.ma = some m →
     s.frozen = false → s.canonical = true → s.lib.retiring = none → s.tree.cycle < cycle → m.ens.getD (actEnsemble p.action) 0 ≠ 0 →
     ensBanks (m.ens.getD (actEnsemble p.action) 0) p.port ≠ [] →
     ((ensBanks (m.ens.getD (actEnsemble p.action) 0) p.port).any fun b => s.tree.suspect.contains b || s.crossingFull b) = false →
     ∃ u, Sys2Proof.Machine.exec (.treeVectorEntry pipe cycle t) s = .next u ∧ (
       u.tree = { s.tree with
         cycle := cycle, pos := (pipe.val + 4 - cycle % 4) % 4 + 1, waited := []
         used := ensBanks (m.ens.getD (actEnsemble p.action) 0) p.port
         jobs := s.tree.jobs ++ [⟨p.pid, actEnsemble p.action, ensBanks (m.ens.getD (actEnsemble p.action) 0) p.port, (vectorOf m p).1, u.now⟩] } ∧
       u.pkts = s.pkts.map (fun x => if x.pid = p.pid then { p with stage := .banks } else x) ∧
       u.obj 0x4803 0 = (s.obj 0x4803 0 + (vectorOf m p).2) % 2 ^ 64 ∧ Within [.tree, .pkts, .dict, .clock] s u ∧
       ObjsBut (fun i j => i == 0x4803 && j == 0) s u)) ∧
  (∀ (s : State) (pipe : Fin 4) (cycle t : Nat),
     ∀ p, (s.pkts.find? fun p => p.stage = .vector ∧ p.pipe = pipe.val) = some p → ∀ m, s.modelOf p.ma = some m →
     s.frozen = false → s.canonical = true → s.lib.retiring = none → s.tree.cycle = cycle → s.tree.pos ≤ (pipe.val + 4 - cycle % 4) % 4 →
     m.ens.getD (actEnsemble p.action) 0 ≠ 0 →
     ((ensBanks (m.ens.getD (actEnsemble p.action) 0) p.port).any fun b => s.tree.suspect.contains b) = false →
     ((ensBanks (m.ens.getD (actEnsemble p.action) 0) p.port).any fun b => s.tree.used.contains b || s.crossingFull b) = true →
     ∃ u, Sys2Proof.Machine.exec (.treeVectorEntry pipe cycle t) s = .next u ∧ (
       u.tree = { s.tree with
         pos := (pipe.val + 4 - cycle % 4) % 4 + 1
         waited := ensBanks (m.ens.getD (actEnsemble p.action) 0) p.port ++ s.tree.waited } ∧
       (∀ b : Fin 4, u.obj 0x4801 (b.val + 1) =
         if (ensBanks (m.ens.getD (actEnsemble p.action) 0) p.port).contains b.val && !s.tree.waited.contains b.val then
           (s.obj 0x4801 (b.val + 1) + 1) % 2 ^ 64 else s.obj 0x4801 (b.val + 1)) ∧
       Within [.tree, .dict, .clock] s u ∧ ObjsBut (fun i j => i == 0x4801 && 1 ≤ j && j ≤ 4) s u)) ∧
  (∀ (s : State) (pipe : Fin 4) (cycle t : Nat),
     ∀ p, (s.pkts.find? fun p => p.stage = .vector ∧ p.pipe = pipe.val) = some p → ∀ m, s.modelOf p.ma = some m →
     s.frozen = false → s.canonical = true → s.lib.retiring = none → s.tree.cycle < cycle → m.ens.getD (actEnsemble p.action) 0 = 0 →
     p.flow = none → actTap p.action = false → (s.lineAt p.port).skipped.contains p.pid = false →
     (s.bankOf p.ra).get (0x4810 + actEnsemble p.action) 9 = 5 * 2 ^ 61 →
     ∃ u, Sys2Proof.Machine.exec (.treeVectorEntry pipe cycle t) s = .next u ∧ (
       u.pkts = (s.pkts.filter fun x => decide (x.pid ≠ p.pid)) ∧ u.line = (s.freeSlot p).line ∧ u.tree.jobs = s.tree.jobs ∧
       u.tree.suspect = s.tree.suspect ∧ u.obj 0x4802 0 = (s.obj 0x4802 0 + 1) % 2 ^ 64 ∧
       u.obj (0x4820 + actEnsemble p.action) 9 = (s.obj (0x4820 + actEnsemble p.action) 9 + 1) % 2 ^ 64 ∧
       Within [.tree, .pkts, .line, .dict, .clock] s u ∧
       ObjsBut (fun i j => i == 0x4803 && j == 0 || i == 0x4802 && j == 0 || i == 0x4820 + actEnsemble p.action && j == 9) s u)) ∧
  (∀ (s : State) (pipe : Fin 4) (cycle t : Nat),
     s.lib.retiring = none → (s.frozen = true ∨ cycle < s.tree.cycle ∨ cycle = s.tree.cycle ∧ (pipe.val + 4 - cycle % 4) % 4 < s.tree.pos ∨
       cycle = s.tree.cycle ∧ (s.pkts.find? fun p => p.stage = .vector ∧ p.pipe = pipe.val) = none) →
     ∃ u, Sys2Proof.Machine.exec (.treeVectorEntry pipe cycle t) s = .next u ∧ (
       Within [.clock] s u)) ∧
  (∀ (s : State) (b : Fin 4) (t : Nat),
     ∀ j, (s.tree.jobs.find? fun j => j.banks.head? = some b.val) = some j → s.frozen = false → s.canonical = true → s.lib.retiring = none →
     j.banks.Nodup → (j.banks.all fun b => decide (b < 4)) = true →
     ∀ p, s.pkt? j.pid = some p → ∀ m, s.modelOf p.ma = some m → p.flow = none → actTap p.action = false →
     (s.lineAt p.port).skipped.contains p.pid = false → j.ens < 16 →
     ((s.bankOf p.ra).get (0x4810 + j.ens) ((verdictOf m (m.ens.getD j.ens 0) j.banks j.feats).1 + 1) = 5 * 2 ^ 61 ∨
       (s.bankOf p.ra).get (0x4810 + j.ens) ((verdictOf m (m.ens.getD j.ens 0) j.banks j.feats).1 + 1) = 0) →
     ∃ u, Sys2Proof.Machine.exec (.treeVerdict b t) s = .next u ∧ (
       u.tree = { s.tree with jobs := s.tree.jobs.filter fun x => decide (x.pid ≠ j.pid) } ∧
       ((s.bankOf p.ra).get (0x4810 + j.ens) ((verdictOf m (m.ens.getD j.ens 0) j.banks j.feats).1 + 1) = 5 * 2 ^ 61 →
         u.pkts = (s.pkts.filter fun x => decide (x.pid ≠ p.pid)) ∧ u.line = (s.freeSlot p).line) ∧
       ((s.bankOf p.ra).get (0x4810 + j.ens) ((verdictOf m (m.ens.getD j.ens 0) j.banks j.feats).1 + 1) = 0 →
         u.pkt? j.pid = some { p with
           verdict := some (j.ens, (verdictOf m (m.ens.getD j.ens 0) j.banks j.feats).1, (verdictOf m (m.ens.getD j.ens 0) j.banks j.feats).2)
           mirror := none, dec := some (.enqueue (actQueue p.action)), stage := .done } ∧ u.line = s.line) ∧
       (∀ b : Fin 4, u.obj 0x4800 (b.val + 1) = if j.banks.contains b.val then (s.obj 0x4800 (b.val + 1) + 1) % 2 ^ 64 else s.obj 0x4800 (b.val + 1)) ∧
       u.obj (0x4820 + j.ens) ((verdictOf m (m.ens.getD j.ens 0) j.banks j.feats).1 + 1) =
         (s.obj (0x4820 + j.ens) ((verdictOf m (m.ens.getD j.ens 0) j.banks j.feats).1 + 1) + 1) % 2 ^ 64 ∧
       Within [.tree, .pkts, .line, .dict, .clock] s u ∧
       ObjsBut (fun i k => i == 0x4800 && 1 ≤ k && k ≤ 4 ||
         i == 0x4802 && k == 0 && decide ((verdictOf m (m.ens.getD j.ens 0) j.banks j.feats).1 = 8) ||
         i == 0x4820 + j.ens && k == (verdictOf m (m.ens.getD j.ens 0) j.banks j.feats).1 + 1) s u)) ∧
  (∀ (s : State) (b : Fin 4) (t : Nat),
     s.lib.retiring = none → (s.frozen = true ∨ (s.tree.jobs.find? fun j => j.banks.head? = some b.val) = none) →
     ∃ u, Sys2Proof.Machine.exec (.treeVerdict b t) s = .next u ∧ (
       Within [.clock] s u)) ∧
  (∀ (s : State) (b : Fin 4) (t : Nat),
     ∀ j, (s.tree.jobs.filter fun j => j.banks.contains b.val) = [j] → j.entry + 71 ≤ (s.at t).now → s.frozen = false →
     s.canonical = true → s.lib.retiring = none → ∀ p, s.pkt? j.pid = some p → p.flow = none → actTap p.action = false →
     (s.lineAt p.port).skipped.contains p.pid = false → j.ens < 16 → (s.bankOf p.ra).get (0x4810 + j.ens) 9 = 5 * 2 ^ 61 →
     ∃ u, Sys2Proof.Machine.exec (.treeBankTimeout b t) s = .next u ∧ (
       u.tree = { s.tree with
         suspect := b.val :: s.tree.suspect.filter (fun x => decide (x ≠ b.val))
         jobs := s.tree.jobs.filter fun x => !x.banks.contains b.val } ∧
       u.pkt? p.pid = none ∧ (s.dev.st ≠ .run → u.pkts = (s.pkts.filter fun x => decide (x.pid ≠ p.pid)) ∧ u.line = (s.freeSlot p).line) ∧
       u.obj 0x4802 0 = (s.obj 0x4802 0 + 1) % 2 ^ 64 ∧ u.obj (0x4820 + j.ens) 9 = (s.obj (0x4820 + j.ens) 9 + 1) % 2 ^ 64 ∧
       u.flash.replacement = true ∧ u.flash.dieScanPassed = false ∧ Recorded 0x13 2 b.val s u ∧
       u.dev.st = (if s.dev.st = .run then .drain else s.dev.st) ∧
       Within [.tree, .dict, .pwr, .dev, .clock, .odp, .flash, .mem, .pkts, .intake, .line, .egr, .cat, .arr, .sync, .fab, .memc, .rel, .obs, .free, .out] s u)) ∧
  (∀ (s : State) (b : Fin 4) (t : Nat),
     s.lib.retiring = none →
     (s.frozen = true ∨ (s.tree.jobs.find? fun j => j.banks.contains b.val && decide (j.entry + 71 ≤ (s.at t).now)) = none) →
     ∃ u, Sys2Proof.Machine.exec (.treeBankTimeout b t) s = .next u ∧ (
       Within [.clock] s u))

/-- With room in the current buffer the packet's rows are appended to it under their accessions, a held packet is noted with its
first row, and only the array's stores, the tap buffers, the packets and the tap queue change; a buffer that is not filled stays
current. A single row without a scale word stands in the wings behind the buffer's earlier rows. With both buffers busy a packet
that is not held is counted against the descriptor and nothing is written. With no packet, or while frozen, nothing but house
time changes. (spec/02_intake.md, The payload tap, spec/06_quantisation.md, The scale word, spec/10_scene_changes.md, Commit and
the instant it takes effect) -/
def Obligations.TapCommands : Prop :=
  (∀ (s : State) (pipe : Fin 4) (t : Nat),
     ∀ x, takeJob pipe.val s.intake.tapQ = some x → s.frozen = false → s.dev.st = .run → s.lib.retiring = none → s.canonical = true →
     (s.tap x.1.desc).cur ≤ 1 → (tapRowsOf (s.bankOf x.1.ra) x.1).isEmpty = false →
     ((s.tap x.1.desc).buf (s.tap x.1.desc).cur).busy = false →
     (((s.tap x.1.desc).buf (s.tap x.1.desc).cur).rows = 0 ∨
       (((s.tap x.1.desc).buf (s.tap x.1.desc).cur).acc = some x.1.ma ∧ ((s.tap x.1.desc).buf (s.tap x.1.desc).cur).ra = x.1.ra)) →
     ((s.tap x.1.desc).buf (s.tap x.1.desc).cur).rows + (tapRowsOf (s.bankOf x.1.ra) x.1).length < (s.bankOf x.1.ra).tapRows x.1.desc →
     ∃ u, Sys2Proof.Machine.exec (.tapRowsWritten pipe t) s = .next u ∧ (
       u.tap x.1.desc = (s.tap x.1.desc).setBuf (s.tap x.1.desc).cur { ((s.tap x.1.desc).buf (s.tap x.1.desc).cur) with
         rows := ((s.tap x.1.desc).buf (s.tap x.1.desc).cur).rows + (tapRowsOf (s.bankOf x.1.ra) x.1).length
         acc := some x.1.ma, ra := x.1.ra, light := (s.bankOf x.1.ra).tapLight x.1.desc
         held := if x.1.held then ((s.tap x.1.desc).buf (s.tap x.1.desc).cur).held ++
             [(x.1.pid, ((s.tap x.1.desc).buf (s.tap x.1.desc).cur).rows)] else ((s.tap x.1.desc).buf (s.tap x.1.desc).cur).held } ∧
       TapsBut (fun d => d == x.1.desc) s u ∧ u.sync = { s.sync with taps := u.sync.taps } ∧
       ArraysBut (fun a => a / 2 == (s.bankOf x.1.ra).tapArray x.1.desc / 2) s u ∧
       u.intake = { s.intake with tapQ := x.2 } ∧ Within [.sync, .arr, .pkts, .intake, .clock] s u)) ∧
  (∀ (s : State) (pipe : Fin 4) (t : Nat),
     ∀ x, takeJob pipe.val s.intake.tapQ = some x → s.frozen = false → s.dev.st = .run → s.lib.retiring = none → s.canonical = true →
     (s.tap x.1.desc).cur = 0 → (s.tap x.1.desc).b0.busy = false → (s.tap x.1.desc).b0.rows = 0 → 1 < (s.bankOf x.1.ra).tapRows x.1.desc →
     ∀ row, (tapRowsOf (s.bankOf x.1.ra) x.1).head? = some row → (tapRowsOf (s.bankOf x.1.ra) x.1).length = 1 → row.scale = none →
     s.flag 0x8000 0 = false → (s.bankOf x.1.ra).tapArray x.1.desc < 16 →
     Sparse.wf (s.arrAt ((s.bankOf x.1.ra).tapArray x.1.desc)).wingDef (s.arrAt ((s.bankOf x.1.ra).tapArray x.1.desc)).wings = true →
     ∃ u, Sys2Proof.Machine.exec (.tapRowsWritten pipe t) s = .next u ∧ (
       u.wings ((s.bankOf x.1.ra).tapArray x.1.desc) ((s.bankOf x.1.ra).tapBase x.1.desc) row.data.length = row.data ∧
       ((List.range 16).all fun a => decide (a = (s.bankOf x.1.ra).tapArray x.1.desc) || decide (u.arrAt a = s.arrAt a)) = true)) ∧
  (∀ (s : State) (pipe : Fin 4) (t : Nat),
     ∀ x, takeJob pipe.val s.intake.tapQ = some x → s.frozen = false → s.dev.st = .run → s.lib.retiring = none → s.canonical = true →
     (tapRowsOf (s.bankOf x.1.ra) x.1).isEmpty = false → (s.tap x.1.desc).b0.busy = true → (s.tap x.1.desc).b1.busy = true →
     (s.tap x.1.desc).cur ≤ 1 → x.1.held = false →
     ∃ u, Sys2Proof.Machine.exec (.tapRowsWritten pipe t) s = .next u ∧ (
       u.obj (0x3900 + x.1.desc) 0xB = (s.obj (0x3900 + x.1.desc) 0xB + 1) % 2 ^ 64 ∧ u.intake = { s.intake with tapQ := x.2 } ∧
       Within [.intake, .dict, .clock] s u ∧ ObjsBut (fun i j => i == 0x3900 + x.1.desc && j == 0xB) s u)) ∧
  (∀ (s : State) (pipe : Fin 4) (t : Nat),
     s.lib.retiring = none → (s.frozen = true ∨ takeJob pipe.val s.intake.tapQ = none) →
     ∃ u, Sys2Proof.Machine.exec (.tapRowsWritten pipe t) s = .next u ∧ (
       Within [.clock] s u))

/-- LIST_START on an idle array with a ready ring starts the list at its consumer index, from the launch cue's body when a trigger
posted it, and counts it. A first cue of an accession that no list may run under abandons the list with one record; one whose
parity or sequence is wrong costs an attempt. PRE_EMPTION suspends the running list at a cue boundary; a WAIT or HOLD counts as
not issued and leaves its queue. URGENT_PRE_EMPTION aborts its STREAMs, discards their banks and rewinds it to its restart point
first. LIST_RESUME takes the latest suspended list up again, and SKEW_RESUME ends the pause of a rewound one. Not due, nothing
but house time changes. (spec/07_arrays.md, Stopping mid-pass, spec/08_prompters.md, Rings and lists, spec/08_prompters.md, The
cue, spec/08_prompters.md, Launch words, spec/08_prompters.md, The accession of a list, spec/08_prompters.md, Restart points,
spec/08_prompters.md, Which ring runs) -/
def Obligations.ListCommands : Prop :=
  (∀ (s : State) (a : Fin 16) (t : Nat),
     ∀ r, s.nextRing a.val = some r → (s.arrAt a.val).run = none → r < 16 → s.canonical = true → s.headSound a.val r = true →
     ((s.arrAt a.val).susp.head?.all fun x => decide (s.runPrio a.val x < s.ringPrio a.val r)) = true →
     s.accessionLive (Bits.fld (w (s.headWords a.val r) 0) 31 16) = true →
     ∃ u, Sys2Proof.Machine.exec (.listStart a t) s = .next u ∧ (
       u.arrAt a.val = { s.arrAt a.val with
         rot := r, wantFrom := (u.arrAt a.val).wantFrom
         run := some (if s.launchAt a.val r (s.consumer a.val r) = true then
             { newRun r (s.consumer a.val r) true (Bits.fld (w (s.headWords a.val r) 0) 31 16) (w (s.headWords a.val r) 2) (w (s.headWords a.val r) 3)
                 (w (s.headWords a.val r) 4 + w (s.headWords a.val r) 5 * 2 ^ 32) (.body (w (s.headWords a.val r) 1)) (s.arrAt a.val).front u.now with
               tap := s.tapLaunch a.val r (s.consumer a.val r) }
           else newRun r (s.consumer a.val r) false (Bits.fld (w (s.headWords a.val r) 0) 31 16) 0 0x200 u.now (.ring (s.consumer a.val r))
             (s.arrAt a.val).front u.now) } ∧
       (∀ b : Fin 16, b ≠ a → u.arrAt b.val = { s.arrAt b.val with wantFrom := (u.arrAt b.val).wantFrom }) ∧
       ArraysBut (fun b => b / 2 == a.val / 2) s u ∧
       u.obj (ringObj a.val r) 0xA = (s.obj (ringObj a.val r) 0xA + 1) % 2 ^ 64 ∧ u.obj (0x5040 + a.val) 1 = r ∧ Within [.arr, .dict, .memc, .clock] s u ∧
       ObjsBut (fun i j => i == ringObj a.val r && j == 0xA || i == 0x5040 + a.val && (j == 1 || j == 2)) s u)) ∧
  (∀ (s : State) (a : Fin 16) (t : Nat),
     ∀ r, s.nextRing a.val = some r → (s.arrAt a.val).run = none → (s.arrAt a.val).susp = [] → r < 16 → s.canonical = true →
     s.launchAt a.val r (s.consumer a.val r) = false → s.headSound a.val r = true →
     s.accessionLive (Bits.fld (w (s.headWords a.val r) 0) 31 16) = false → (s.arrAt a.val).dead = [] →
     ∃ u, Sys2Proof.Machine.exec (.listStart a t) s = .next u ∧ (
       (u.arrAt a.val).run = none ∧ (u.arrAt a.val).susp = [] ∧ u.consumer a.val r = s.endOf a.val r (s.consumer a.val r) ∧
       u.obj (0x5040 + a.val) 5 = (s.obj (0x5040 + a.val) 5 + 1) % 2 ^ 64 ∧ u.obj (0x5040 + a.val) 1 = 0xFF ∧ Reported 0x07 s u ∧
       ArraysBut (fun b => b / 2 == a.val / 2) s u ∧
       Within [.arr, .dict, .memc, .mem, .flash, .rel, .obs, .odp, .out, .free, .pwr, .clock] s u ∧
       Notes (fun i j => i == ringObj a.val r && (j == 0xA || j == 8) || i == 0x5040 + a.val && (j == 1 || j == 2 || j == 5) || i == 0x8850 + a.val && j == 3) s u)) ∧
  (∀ (s : State) (a : Fin 16) (t : Nat),
     ∀ r, s.nextRing a.val = some r → (s.arrAt a.val).run = none → (s.arrAt a.val).susp = [] → r < 16 → s.canonical = true →
     s.headSound a.val r = false → 1 ≤ s.get 0x5003 0 →
     ∃ u, Sys2Proof.Machine.exec (.listStart a t) s = .next u ∧ (
       ((u.arrAt a.val).run.map fun x => (x.ring, x.start, x.pos, x.retries)) = some (r, s.consumer a.val r, .ring (s.consumer a.val r), 1) ∧
       u.consumer a.val r = s.consumer a.val r ∧ u.obj (0x5040 + a.val) 4 = (s.obj (0x5040 + a.val) 4 + 1) % 2 ^ 64 ∧
       Reported (if parityMask (s.headWords a.val r) ≠ 0 then 0x01 else 0x02) s u ∧ ArraysBut (fun b => b / 2 == a.val / 2) s u ∧
       Within [.arr, .dict, .memc, .mem, .flash, .rel, .obs, .odp, .out, .free, .pwr, .clock] s u ∧
       Notes (fun i j => i == ringObj a.val r && j == 0xA || i == 0x5040 + a.val && (j == 1 || j == 2 || j == 4)) s u)) ∧
  (∀ (s : State) (a : Fin 16) (t : Nat),
     ((s.arrAt a.val).run.isSome = true ∨ (s.nextRing a.val).isNone = true ∨ s.nextRing a.val = some 16) →
     ∃ u, Sys2Proof.Machine.exec (.listStart a t) s = .next u ∧ (
       Within [.clock] s u)) ∧
  (∀ (s : State) (a : Fin 16) (t : Nat),
     ∀ r, (s.arrAt a.val).run = some r → ∀ q, s.higherReady a.val r = some q → s.isUrgent a.val q r = false → s.canonical = true →
     (match r.block with | .none => true | .fence _ => true | .signal _ _ _ _ _ => true | _ => false) = true →
     ∃ u, Sys2Proof.Machine.exec (.preEmption a t) s = .next u ∧ (
       u.arrAt a.val = { s.arrAt a.val with run := none, susp := { r with front := (s.arrAt a.val).front } :: (s.arrAt a.val).susp } ∧
       ArraysBut (fun b => b == a.val) s u ∧
       u.obj (0x5040 + a.val) 6 = (s.obj (0x5040 + a.val) 6 + 1) % 2 ^ 64 ∧ u.obj (0x5040 + a.val) 1 = 0xFF ∧ Within [.arr, .dict, .clock] s u ∧
       ObjsBut (fun i j => i == 0x5040 + a.val && (j == 1 || j == 6)) s u)) ∧
  (∀ (s : State) (a : Fin 16) (t : Nat),
     ∀ r, (s.arrAt a.val).run = some r → ∀ q, s.higherReady a.val r = some q → s.isUrgent a.val q r = false → s.canonical = true →
     (match r.block with | .wait _ _ _ => true | .hold _ => true | _ => false) = true →
     ∃ u, Sys2Proof.Machine.exec (.preEmption a t) s = .next u ∧ (
       u.arrAt a.val = { s.arrAt a.val with
         run := none
         susp := { r with
           pos := r.last, block := .none, ending := false, issued := r.issued - 1, front := (s.arrAt a.val).front } :: (s.arrAt a.val).susp } ∧
       ArraysBut (fun b => b == a.val) s u ∧
       u.sync.waiters = (match r.block with | .wait _ _ _ => s.sync.waiters.filter (fun w => decide (w.array ≠ a.val)) | _ => s.sync.waiters) ∧
       u.obj (0x5040 + a.val) 6 = (s.obj (0x5040 + a.val) 6 + 1) % 2 ^ 64 ∧
       Within [.arr, .dict, .clock, .sync, .pwr, .mem, .memc, .obs] s u ∧
       Notes (fun i j => i == 0x5040 + a.val && (j == 1 || j == 6) || i == 0x5400) s u)) ∧
  (∀ (s : State) (a : Fin 16) (t : Nat),
     ((s.arrAt a.val).run = none ∨ ((s.arrAt a.val).run.all fun r => (s.higherReady a.val r).all fun q => s.isUrgent a.val q r || !r.atBoundary) = true) →
     ∃ u, Sys2Proof.Machine.exec (.preEmption a t) s = .next u ∧ (
       Within [.clock] s u)) ∧
  (∀ (s : State) (a : Fin 16) (t : Nat),
     ∀ r, (s.arrAt a.val).run = some r → ∀ q, s.higherReady a.val r = some q → r.block = .none → s.isUrgent a.val q r = true →
     r.impliedFlying = false → s.canonical = true →
     ∃ u, Sys2Proof.Machine.exec (.urgentPreEmption a t) s = .next u ∧ (
       u.arrAt a.val = { (((s.arrAt a.val).discard ((r.fly.filter fun f => decide (f.cls = .stream)).flatMap fun f =>
           if f.bank = 2 then [0, 1] else [f.bank])).discard r.restart.written) with
         run := none, front := r.restart.front
         susp := { r with
           pos := r.restart.pos, stack := r.restart.stack, block := .none, ending := false, rewind := false, resume := none
           restart := { r.restart with written := [] }, front := r.restart.front
           fly := r.fly.filter fun f => decide (f.cls ≠ .stream) } :: (s.arrAt a.val).susp } ∧
       ArraysBut (fun b => b == a.val) s u ∧
       u.obj (0x5010 + a.val) 0xE = (if (r.fly.any fun f => decide (f.cls = .stream)) then (s.obj (0x5010 + a.val) 0xE + 1) % 2 ^ 64
         else s.obj (0x5010 + a.val) 0xE) ∧ u.obj (0x5040 + a.val) 6 = (s.obj (0x5040 + a.val) 6 + 1) % 2 ^ 64 ∧ Within [.arr, .dict, .clock] s u ∧
       ObjsBut (fun i j => i == 0x5010 + a.val && j == 0xE || i == 0x5040 + a.val && (j == 1 || j == 2 || j == 6)) s u)) ∧
  (∀ (s : State) (a : Fin 16) (t : Nat),
     ∀ r, (s.arrAt a.val).run = some r → ∀ q, s.higherReady a.val r = some q → r.block = .none → s.isUrgent a.val q r = true →
     ((r.fly.filter fun f => decide (f.cls ≠ .stream)).any fun f => f.implied.isSome) = true → s.canonical = true →
     ∃ u, Sys2Proof.Machine.exec (.urgentPreEmption a t) s = .next u ∧ (
       u.arrAt a.val = { ((s.arrAt a.val).discard ((r.fly.filter fun f => decide (f.cls = .stream)).flatMap fun f =>
           if f.bank = 2 then [0, 1] else [f.bank])) with
         run := none
         susp := { r with
           block := .none, ending := false, rewind := true, front := (s.arrAt a.val).front
           fly := r.fly.filter fun f => decide (f.cls ≠ .stream) } :: (s.arrAt a.val).susp } ∧
       ArraysBut (fun b => b == a.val) s u ∧ Within [.arr, .dict, .clock] s u ∧
       ObjsBut (fun i j => i == 0x5010 + a.val && j == 0xE || i == 0x5040 + a.val && (j == 1 || j == 6)) s u)) ∧
  (∀ (s : State) (a : Fin 16) (t : Nat),
     ((s.arrAt a.val).run = none ∨ ((s.arrAt a.val).run.all fun r => (s.higherReady a.val r).all fun q => !(s.isUrgent a.val q r) || !r.atBoundary) = true) →
     ∃ u, Sys2Proof.Machine.exec (.urgentPreEmption a t) s = .next u ∧ (
       Within [.clock] s u)) ∧
  (∀ (s : State) (a : Fin 16) (t : Nat),
     ∀ r, (s.arrAt a.val).susp.head? = some r → (s.arrAt a.val).run = none → s.higherReady a.val r = none → s.halted a.val = false →
     s.frozen = false → r.rewind = false → r.block = .none → r.ending = false → s.canonical = true →
     ∃ u, Sys2Proof.Machine.exec (.listResume a t) s = .next u ∧ (
       u.arrAt a.val = { s.arrAt a.val with run := some r, susp := (s.arrAt a.val).susp.drop 1, front := r.front } ∧
       ArraysBut (fun b => b == a.val) s u ∧ u.obj (0x5040 + a.val) 1 = (if r.ring < 16 then r.ring else 0xFF) ∧ Within [.arr, .dict, .clock] s u ∧
       ObjsBut (fun i j => i == 0x5040 + a.val && (j == 1 || j == 2)) s u)) ∧
  (∀ (s : State) (a : Fin 16) (t : Nat),
     ∀ r, (s.arrAt a.val).susp.head? = some r → (s.arrAt a.val).run = none → s.higherReady a.val r = none → s.halted a.val = false →
     s.frozen = false → r.rewind = true → r.impliedFlying = false →
     ∃ u, Sys2Proof.Machine.exec (.listResume a t) s = .next u ∧ (
       u.arrAt a.val = { ((s.arrAt a.val).discard r.restart.written) with
         front := r.restart.front, susp := (s.arrAt a.val).susp.drop 1
         run := some { r with
           pos := r.restart.pos, stack := r.restart.stack, block := .none, ending := false, rewind := false
           restart := { r.restart with written := [] } } } ∧
       ArraysBut (fun b => b == a.val) s u ∧ Within [.arr, .dict, .clock] s u ∧ ObjsBut (fun i j => i == 0x5040 + a.val && (j == 1 || j == 2)) s u)) ∧
  (∀ (s : State) (a : Fin 16) (t : Nat),
     ((s.arrAt a.val).run.isSome = true ∨ (s.arrAt a.val).susp = [] ∨ s.halted a.val = true ∨ s.frozen = true ∨
       ((s.arrAt a.val).susp.head?.any fun r => (s.higherReady a.val r).isSome) = true) →
     ∃ u, Sys2Proof.Machine.exec (.listResume a t) s = .next u ∧ (
       Within [.clock] s u)) ∧
  (∀ (s : State) (a : Fin 16) (t : Nat),
     ∀ r, (s.arrAt a.val).run = some r → ∀ x, r.resume = some x → x ≤ (s.at t).now →
     ∃ u, Sys2Proof.Machine.exec (.skewResume a t) s = .next u ∧ (
       u.arrAt a.val = { s.arrAt a.val with run := some { r with resume := none, progress := u.now } } ∧
       ArraysBut (fun b => b == a.val) s u ∧ Within [.arr, .clock] s u)) ∧
  (∀ (s : State) (a : Fin 16) (t : Nat),
     ((s.arrAt a.val).run.all fun r => r.resume.all fun x => decide ((s.at t).now < x)) = true →
     ∃ u, Sys2Proof.Machine.exec (.skewResume a t) s = .next u ∧ (
       Within [.clock] s u))

/-- GOVERNOR_ADMIT, when the admission interval has passed, puts the array whose request is earliest into RAMP-UP and counts the
ramp and its wait. RAMP_UP_COMPLETE makes it ACTIVE and counts the ramp's cycles as busy with dummy operations. RAMP_DOWN_START
of an ACTIVE array with gating enabled, no STREAM or DRAIN in flight and a gap above the hold period counts the gap's bubbles
and enters RAMP-DOWN; RAMP_DOWN_COMPLETE gates it, counts 900 cycles unless its clock is stretched, and leaves both banks
unopened. Not due, nothing but house time changes. (spec/07_arrays.md, Feeders, run-ahead and bubbles, spec/07_arrays.md,
Gating, dummy operations and the current governor, spec/07_arrays.md, Stopping mid-pass) -/
def Obligations.ArrayPowerCommands : Prop :=
  (∀ (s : State) (cycle t : Nat),
     ∀ a, s.nextAdmitted = some a → a < 16 → s.frozen = false → s.canonical = true →
     (match s.sync.lastAdmit with | none => true | some c => decide (c + s.get 0x5001 0 ≤ cycle)) = true →
     ∃ u, Sys2Proof.Machine.exec (.governorAdmit cycle t) s = .next u ∧ (
       u.obj (0x5010 + a) 2 = 1 ∧ u.obj (0x5010 + a) 0xC = (s.obj (0x5010 + a) 0xC + 1) % 2 ^ 64 ∧
       (s.isStretched a = false → u.obj (0x5010 + a) 0xB =
         (s.obj (0x5010 + a) 0xB + arithCycles (u.now - ((s.arrAt a).wantFrom.getD u.now))) % 2 ^ 64 ∧ u.free = s.free) ∧
       u.arrAt a = { s.arrAt a with wantFrom := none, rampFrom := u.now, rampLen := 256 } ∧
       u.sync = { s.sync with lastAdmit := some cycle } ∧ ArraysBut (fun b => b == a) s u ∧ Within [.arr, .sync, .dict, .free, .clock] s u ∧
       ObjsBut (fun i j => i == 0x5010 + a && (j == 2 || j == 0xB || j == 0xC)) s u)) ∧
  (∀ (s : State) (cycle t : Nat),
     (s.nextAdmitted = none ∨ s.frozen = true ∨ (s.sync.lastAdmit.any fun c => decide (cycle < c + s.get 0x5001 0)) = true) →
     ∃ u, Sys2Proof.Machine.exec (.governorAdmit cycle t) s = .next u ∧ (
       Within [.clock] s u)) ∧
  (∀ (s : State) (a : Fin 16) (t : Nat),
     s.power a.val = 1 → s.frozen = false → s.canonical = true →
     ∃ u, Sys2Proof.Machine.exec (.rampUpComplete a t) s = .next u ∧ (
       u.power a.val = 2 ∧ u.obj (0x5010 + a.val) 3 = (s.obj (0x5010 + a.val) 3 + (s.arrAt a.val).rampLen) % 2 ^ 64 ∧
       u.obj (0x5010 + a.val) 6 = (s.obj (0x5010 + a.val) 6 + (s.arrAt a.val).rampLen) % 2 ^ 64 ∧ Within [.dict, .clock] s u ∧
       ObjsBut (fun i j => i == 0x5010 + a.val && (j == 2 || j == 3 || j == 6)) s u)) ∧
  (∀ (s : State) (a : Fin 16) (t : Nat),
     (s.power a.val ≠ 1 ∨ s.frozen = true) → ∃ u, Sys2Proof.Machine.exec (.rampUpComplete a t) s = .next u ∧ (
       Within [.clock] s u)) ∧
  (∀ (s : State) (a : Fin 16) (gap t : Nat),
     s.power a.val = 2 → s.flag (0x5020 + a.val) 2 = true → s.get (0x5020 + a.val) 1 < gap → s.quiet a.val = true → s.frozen = false →
     s.canonical = true →
     ∃ u, Sys2Proof.Machine.exec (.rampDownStart a gap t) s = .next u ∧ (
       u.power a.val = 3 ∧ u.arrAt a.val = { s.arrAt a.val with rampFrom := u.now } ∧ ArraysBut (fun b => b == a.val) s u ∧
       u.obj (0x5010 + a.val) 3 = (s.obj (0x5010 + a.val) 3 + (gap - 1)) % 2 ^ 64 ∧
       u.obj (0x5010 + a.val) 5 = (s.obj (0x5010 + a.val) 5 + (gap - 1)) % 2 ^ 64 ∧
       u.obj (0x5010 + a.val) 6 = (s.obj (0x5010 + a.val) 6 + s.get (0x5020 + a.val) 1) % 2 ^ 64 ∧ Within [.arr, .dict, .clock] s u ∧
       ObjsBut (fun i j => i == 0x5010 + a.val && (j == 2 || j == 3 || j == 5 || j == 6)) s u)) ∧
  (∀ (s : State) (a : Fin 16) (gap t : Nat),
     (s.power a.val ≠ 2 ∨ s.flag (0x5020 + a.val) 2 = false ∨ gap ≤ s.get (0x5020 + a.val) 1 ∨ s.quiet a.val = false ∨ s.frozen = true) →
     ∃ u, Sys2Proof.Machine.exec (.rampDownStart a gap t) s = .next u ∧ (
       Within [.clock] s u)) ∧
  (∀ (s : State) (a : Fin 16) (t : Nat),
     s.power a.val = 3 → s.frozen = false → s.canonical = true →
     ∃ u, Sys2Proof.Machine.exec (.rampDownComplete a t) s = .next u ∧ (
       u.power a.val = 0 ∧ u.arrAt a.val = (s.arrAt a.val).closeBanks ∧ ArraysBut (fun b => b == a.val) s u ∧
       (s.isStretched a.val = false → u.obj (0x5010 + a.val) 3 = (s.obj (0x5010 + a.val) 3 + 900) % 2 ^ 64 ∧
         u.obj (0x5010 + a.val) 6 = (s.obj (0x5010 + a.val) 6 + 900) % 2 ^ 64 ∧ u.free = s.free) ∧
       Within [.arr, .dict, .free, .clock] s u ∧ ObjsBut (fun i j => i == 0x5010 + a.val && (j == 2 || j == 3 || j == 6)) s u)) ∧
  (∀ (s : State) (a : Fin 16) (t : Nat),
     (s.power a.val ≠ 3 ∨ s.frozen = true) → ∃ u, Sys2Proof.Machine.exec (.rampDownComplete a t) s = .next u ∧ (
       Within [.clock] s u))

/-- A cue whose parity, sequence or fields are wrong has one record of its class written, is counted as an abort, and leaves the
list at its restart point with nothing of its own effect: stores, lights, fabric and packets stand. Beyond the retry limit, or
at an accession mismatch, the list is abandoned and its ring's consumer index passes it. A STREAM whose formats or shape are
wrong, or whose operands are, is aborted the same way; after a scale skew the list resumes 1 us later. A SHELVE from outside the
regions it may read is an illegal cue. A disagreement of the understudy makes the array suspect, with a record, and takes RUN to
DRAIN. (spec/06_quantisation.md, Scale and data out of step, spec/08_prompters.md, The cue, spec/08_prompters.md, The accession
of a list, spec/08_prompters.md, Restart points, spec/08_prompters.md, Errors on the cue path, spec/15_reliability.md, Weight-
digest scrub, spec/15_reliability.md, Suspects and the whole-chip drain) -/
def Obligations.CueErrors : Prop :=
  (∀ (s : State) (a : Fin 16) (c : CueCheck) (t : Nat),
     ∀ r, s.issuing a.val = some r → c = .agree → r.impliedFlying = false → s.canonical = true → s.nextIs a.val opNop = true →
     ∀ e, s.firstError a.val r (s.cueWords a.val r) = some e → e ≠ .accession → r.retries + 1 ≤ s.get 0x5003 0 →
     ∃ u, Sys2Proof.Machine.exec (.nop a c t) s = .next u ∧ (
       u.arrAt a.val = { ((s.arrAt a.val).discard r.restart.written) with front := r.restart.front, run := some (r.rewound none) } ∧
       ArraysBut (fun b => b == a.val) s u ∧ Reported (e.record r.acc 0 (s.cueWords a.val r)).1 s u ∧
       u.obj (0x5040 + a.val) 4 = (s.obj (0x5040 + a.val) 4 + 1) % 2 ^ 64 ∧
       Within [.arr, .dict, .clock, .pwr, .mem, .memc, .obs, .odp, .out, .flash, .rel, .free] s u ∧
       Notes (fun i j => i == 0x5040 + a.val && (j == 1 || j == 2 || j == 4)) s u)) ∧
  (∀ (s : State) (a : Fin 16) (c : CueCheck) (t : Nat),
     ∀ r, s.issuing a.val = some r → c = .agree → r.tap = none → r.skip = none → r.ring < 16 → (s.arrAt a.val).dead = [] → s.canonical = true →
     s.nextIs a.val opNop = true → ∀ e, s.firstError a.val r (s.cueWords a.val r) = some e → (e = .accession ∨ s.get 0x5003 0 < r.retries + 1) →
     ∃ u, Sys2Proof.Machine.exec (.nop a c t) s = .next u ∧ (
       (u.arrAt a.val).run = none ∧ (u.arrAt a.val).bank0.opened = false ∧ (u.arrAt a.val).bank1.opened = false ∧
       ArraysBut (fun b => (s.twins a.val).contains b) s u ∧ u.consumer a.val r.ring = s.endOf a.val r.ring r.start ∧
       u.obj (0x5040 + a.val) 5 = (s.obj (0x5040 + a.val) 5 + 1) % 2 ^ 64 ∧ u.obj (0x5040 + a.val) 1 = 0xFF ∧ Reported (e.record r.acc 0 (s.cueWords a.val r)).1 s u ∧
       Within [.arr, .dict, .clock, .pwr, .mem, .memc, .obs, .odp, .out, .flash, .rel, .free] s u ∧
       Notes (fun i j => i == 0x5040 + a.val && (j == 1 || j == 4 || j == 5) || i == ringObj a.val r.ring && j == 8 || i == 0x8850 + a.val && j == 3) s u)) ∧
  (∀ (s : State) (a : Fin 16) (c : CueCheck) (t : Nat),
     ∀ r, s.issuing a.val = some r → s.mayIssue a.val opStream c r = true → r.impliedFlying = false → s.canonical = true →
     ∀ x, s.adds a.val r (s.cueWords a.val r) = some x →
     ∀ e, (streamCue r x (s.cueWords a.val r)).issueError (s.arrAt a.val) = some e → r.retries + 1 ≤ s.get 0x5003 0 →
     ∃ u, Sys2Proof.Machine.exec (.stream a c t) s = .next u ∧ (
       u.arrAt a.val = { ((s.arrAt a.val).discard r.restart.written) with front := r.restart.front, run := some (r.rewound none) } ∧
       ArraysBut (fun b => b == a.val) s u ∧ Reported (e.record r.acc 0 (s.cueWords a.val r)).1 s u ∧
       u.obj (0x5040 + a.val) 4 = (s.obj (0x5040 + a.val) 4 + 1) % 2 ^ 64 ∧
       u.obj (0x5010 + a.val) 0xD = (if e = .shape then (s.obj (0x5010 + a.val) 0xD + 1) % 2 ^ 64 else s.obj (0x5010 + a.val) 0xD) ∧
       Within [.arr, .dict, .clock, .pwr, .mem, .memc, .obs, .odp, .out, .flash, .rel, .free] s u ∧
       Notes (fun i j => i == 0x5040 + a.val && (j == 1 || j == 2 || j == 4) || i == 0x5010 + a.val && j == 0xD) s u)) ∧
  (∀ (s : State) (a : Fin 16) (c : CueCheck) (t : Nat),
     ∀ r, s.issuing a.val = some r → s.mayIssue a.val opStream c r = true → r.impliedFlying = false → s.canonical = true →
     ∀ x, s.adds a.val r (s.cueWords a.val r) = some x → (streamCue r x (s.cueWords a.val r)).issueError (s.arrAt a.val) = none →
     ∀ e, s.operand a.val (streamCue r x (s.cueWords a.val r)) = .error e → r.retries + 1 ≤ s.get 0x5003 0 →
     ∃ u, Sys2Proof.Machine.exec (.stream a c t) s = .next u ∧ (
       u.arrAt a.val = { ((s.arrAt a.val).discard (r.wrote (e.spoils (s.arrAt a.val).front (s.cueWords a.val r))).restart.written) with
         front := r.restart.front
         run := some ((r.wrote (e.spoils (s.arrAt a.val).front (s.cueWords a.val r))).rewound (match e with | .skew _ _ _ => some (u.now + 1000) | _ => none)) } ∧
       ArraysBut (fun b => b == a.val) s u ∧ Reported (e.record r.acc 0 (s.cueWords a.val r)).1 s u ∧
       u.obj (0x5040 + a.val) 4 = (s.obj (0x5040 + a.val) 4 + 1) % 2 ^ 64 ∧
       Within [.arr, .dict, .clock, .pwr, .mem, .memc, .obs, .odp, .out, .flash, .rel, .free] s u ∧
       Notes (fun i j => i == 0x5040 + a.val && (j == 1 || j == 2 || j == 4) || i == 0x5802 && j == 0 || i == 0x5810 + a.val && j == 4 ||
         i == 0x6040 + a.val && (j == 1 || j == 2)) s u)) ∧
  (∀ (s : State) (a : Fin 16) (c : CueCheck) (t : Nat),
     ∀ r, s.issuing a.val = some r → s.mayIssue a.val opShelve c r = true → r.impliedFlying = false → s.canonical = true → r.ring < 16 →
     ∀ x, s.adds a.val r (s.cueWords a.val r) = some x → ∀ src, shelveSource (s.cueWords a.val r) x = some src →
     s.cueMayRead src (Bits.fld (w (s.cueWords a.val r) 3) 11 0 * 256) = false → r.retries + 1 ≤ s.get 0x5003 0 →
     ∃ u, Sys2Proof.Machine.exec (.shelve a c t) s = .next u ∧ (
       u.arrAt a.val = { ((s.arrAt a.val).discard r.restart.written) with front := r.restart.front, run := some (r.rewound none) } ∧
       ArraysBut (fun b => b == a.val) s u ∧ Reported 0x03 s u ∧ u.obj (0x5040 + a.val) 4 = (s.obj (0x5040 + a.val) 4 + 1) % 2 ^ 64 ∧
       Within [.arr, .dict, .clock, .pwr, .mem, .memc, .obs, .odp, .out, .flash, .rel, .free] s u ∧
       Notes (fun i j => i == 0x5040 + a.val && (j == 1 || j == 2 || j == 4)) s u)) ∧
  (∀ (s : State) (a : Fin 16) (c : CueCheck) (diff : Option RowDiff) (t : Nat),
     ∀ r, s.issuing a.val = some r → w (s.cueWords a.val r) 0 % 256 = opDrain → (match c with | .understudy _ => true | _ => false) = true →
     ∃ u, Sys2Proof.Machine.exec (.drain a c diff t) s = .next u ∧ (
       (u.arrAt a.val).suspect = true ∧ (u.arrAt a.val).run = none ∧ u.flash.replacement = true ∧ u.flash.dieScanPassed = false ∧
       u.dev.st = (if s.dev.st = .run then .drain else s.dev.st) ∧ Recorded 0x10 1 a.val s u ∧
       Within [.dict, .pwr, .dev, .clock, .odp, .flash, .mem, .pkts, .intake, .line, .egr, .cat, .arr, .sync, .fab, .memc, .rel, .obs, .free, .out] s u))

/-- NOP only moves the list to its next cue; with END and nothing in flight it ends the list. SHELVE leaves its rows, or its TG8
table, in the shelf of the array and its pair exactly as the stacks hold them, and no other byte of a shelf changes. STAGE
leaves in the wings, with row tag 0, or in the stacks the lines of its source and writes no other byte of either. SWAP exchanges
front and back bank. SHELVE_COMPLETE and STAGE_COMPLETE take one such cue out of flight. While no list stands at such a cue,
nothing but house time changes. (spec/06_quantisation.md, The scale word, spec/07_arrays.md, SWAP and back-to-back tiles,
spec/08_prompters.md, Prompter and understudy, spec/08_prompters.md, Launch words, spec/08_prompters.md, Field layouts by
opcode, spec/08_prompters.md, Issue and completion, spec/08_prompters.md, Verdicts, tensors, taps and time, spec/09_memory.md,
Regions, spec/15_reliability.md, Full redundancy) -/
def Obligations.MoveCues : Prop :=
  (∀ (s : State) (a : Fin 16) (c : CueCheck) (t : Nat),
     ∀ r, s.issuing a.val = some r → s.mayIssue a.val opNop c r = true → Bits.bit (w (s.cueWords a.val r) 0) 15 = false → s.canonical = true →
     ∃ u, Sys2Proof.Machine.exec (.nop a c t) s = .next u ∧ (
       u.arrAt a.val = { s.arrAt a.val with run := some (r.stepped (s.cueWords a.val r) u.now) } ∧ ArraysBut (fun b => b == a.val) s u ∧
       u.obj (0x5040 + a.val) 2 = s.posAddr a.val r r.pos.next % 2 ^ 32 ∧
       Within [.arr, .dict, .memc, .clock] s u ∧ ObjsBut (fun i j => i == 0x5040 + a.val && (j == 1 || j == 2)) s u)) ∧
  (∀ (s : State) (a : Fin 16) (c : CueCheck) (t : Nat),
     ∀ r, s.issuing a.val = some r → s.mayIssue a.val opNop c r = true → Bits.bit (w (s.cueWords a.val r) 0) 15 = true → r.fly = [] →
     r.ring < 16 → r.skip = none → (s.arrAt a.val).dead = [] → s.canonical = true →
     ∃ u, Sys2Proof.Machine.exec (.nop a c t) s = .next u ∧ (
       (u.arrAt a.val).run = none ∧ u.consumer a.val r.ring = s.endOf a.val r.ring r.start ∧
       u.obj (0x5040 + a.val) 3 = (s.obj (0x5040 + a.val) 3 + 1) % 2 ^ 64 ∧ u.obj (0x5040 + a.val) 1 = 0xFF ∧ ArraysBut (fun b => b == a.val) s u ∧
       Within [.arr, .dict, .memc, .clock] s u ∧
       ObjsBut (fun i j => i == 0x5040 + a.val && (j == 1 || j == 3) || i == ringObj a.val r.ring && j == 8 || i == 0x8850 + a.val && j == 3) s u)) ∧
  (∀ (s : State) (a : Fin 16) (c : CueCheck) (t : Nat),
     s.nextIs a.val opNop = false → ∃ u, Sys2Proof.Machine.exec (.nop a c t) s = .next u ∧ (
       Within [.clock] s u)) ∧
  (∀ (s : State) (a : Fin 16) (c : CueCheck) (t : Nat),
     ∀ r, s.issuing a.val = some r → s.mayIssue a.val opShelve c r = true → Bits.fld (w (s.cueWords a.val r) 2) 31 30 = 0 → r.ring < 16 →
     ∀ x, s.adds a.val r (s.cueWords a.val r) = some x → ∀ src, shelveSource (s.cueWords a.val r) x = some src →
     s.cueMayRead src (Bits.fld (w (s.cueWords a.val r) 3) 11 0 * 256) = true →
     ∀ y, x.shelfAddr (Bits.fld (w (s.cueWords a.val r) 2) 14 0) (Bits.fld (w (s.cueWords a.val r) 3) 11 0 * 256) = some y →
     ((s.twins a.val).all fun b => Sparse.wf memDefault (s.arrAt b).shelf) = true →
     ∃ u, Sys2Proof.Machine.exec (.shelve a c t) s = .next u ∧ (
       ((s.twins a.val).all fun b => decide (Sparse.readList memDefault (u.arrAt b).shelf (y.1 * 786432 + y.2 * 256)
         (Bits.fld (w (s.cueWords a.val r) 3) 11 0 * 256) = s.memRead src (Bits.fld (w (s.cueWords a.val r) 3) 11 0 * 256))) = true ∧
       (∀ b : Fin 16, u.arrAt b.val = { s.arrAt b.val with run := (u.arrAt b.val).run, shelf := (u.arrAt b.val).shelf } ∧
         SparseBut memDefault (fun z => decide (y.1 * 786432 + y.2 * 256 ≤ z) &&
           decide (z < y.1 * 786432 + y.2 * 256 + Bits.fld (w (s.cueWords a.val r) 3) 11 0 * 256)) (s.arrAt b.val).shelf (u.arrAt b.val).shelf) ∧
       ArraysBut (fun b => (s.twins a.val).contains b) s u ∧
       (u.arrAt a.val).run = some { r.stepped (s.cueWords a.val r) u.now with
         fly := r.fly ++ [{ cls := .shelve, addr := s.posAddr a.val r r.pos, seq := r.pos.seq }] } ∧
       Within [.arr, .dict, .memc, .clock] s u ∧ ObjsBut (fun i j => i == 0x5040 + a.val && (j == 1 || j == 2)) s u)) ∧
  (∀ (s : State) (a : Fin 16) (c : CueCheck) (t : Nat),
     ∀ r, s.issuing a.val = some r → s.mayIssue a.val opShelve c r = true → Bits.fld (w (s.cueWords a.val r) 2) 31 30 = 1 → r.ring < 16 →
     ∀ x, s.adds a.val r (s.cueWords a.val r) = some x → ∀ src, shelveSource (s.cueWords a.val r) x = some src →
     s.cueMayRead src (Bits.fld (w (s.cueWords a.val r) 3) 11 0 * 256) = true →
     ((s.twins a.val).all fun b => Sparse.wf (fun _ => 0) (s.arrAt b).tg8) = true →
     ∃ u, Sys2Proof.Machine.exec (.shelve a c t) s = .next u ∧ (
       ((s.twins a.val).all fun b => decide (Sparse.readList (fun _ => 0) (u.arrAt b).tg8 (Bits.fld (w (s.cueWords a.val r) 2) 29 28 * 256) 256 =
         wordsOf (s.memRead src (Bits.fld (w (s.cueWords a.val r) 3) 11 0 * 256)) 256)) = true ∧
       (∀ b : Fin 16, u.arrAt b.val = { s.arrAt b.val with run := (u.arrAt b.val).run, tg8 := (u.arrAt b.val).tg8 } ∧
         SparseBut (fun _ => 0) (fun z => z / 256 == Bits.fld (w (s.cueWords a.val r) 2) 29 28) (s.arrAt b.val).tg8 (u.arrAt b.val).tg8) ∧
       ArraysBut (fun b => (s.twins a.val).contains b) s u ∧ u.stand a.val = some (r.pos.next, r.pos, .none) ∧
       u.inFlight a.val .shelve = s.inFlight a.val .shelve + 1 ∧ Within [.arr, .dict, .memc, .clock] s u ∧
       ObjsBut (fun i j => i == 0x5040 + a.val && (j == 1 || j == 2)) s u)) ∧
  (∀ (s : State) (a : Fin 16) (c : CueCheck) (t : Nat),
     s.nextIs a.val opShelve = false → ∃ u, Sys2Proof.Machine.exec (.shelve a c t) s = .next u ∧ (
       Within [.clock] s u)) ∧
  (∀ (s : State) (a : Fin 16) (c : CueCheck) (t : Nat),
     ∀ r, s.issuing a.val = some r → s.mayIssue a.val opStage c r = true → Bits.fld (w (s.cueWords a.val r) 2) 31 30 = 0 →
     ∀ x, s.adds a.val r (s.cueWords a.val r) = some x →
     ∀ l, x.line (Bits.fld (w (s.cueWords a.val r) 2) 14 0) (w (s.cueWords a.val r) 3) = some l →
     ∀ v, x.unit (Bits.fld (w (s.cueWords a.val r) 1) 28 0) = some v → s.cueMayRead (v * 64) (w (s.cueWords a.val r) 3 * 64) = true →
     ((s.twins a.val).all fun b => Sparse.wf (s.arrAt b).wingDef (s.arrAt b).wings && Sparse.wf (s.arrAt b).tagDef (s.arrAt b).tags) = true →
     ∃ u, Sys2Proof.Machine.exec (.stage a c t) s = .next u ∧ (
       ((s.twins a.val).all fun b => decide (u.wings b (l * 64) (w (s.cueWords a.val r) 3 * 64) = s.memRead (v * 64) (w (s.cueWords a.val r) 3 * 64)) &&
         (List.range (w (s.cueWords a.val r) 3)).all fun k => decide (u.tag b (l + k) = 0)) = true ∧
       (∀ b : Fin 16, u.arrAt b.val = { s.arrAt b.val with
           run := (u.arrAt b.val).run, wings := (u.arrAt b.val).wings, tags := (u.arrAt b.val).tags } ∧
         SparseBut (s.arrAt b.val).wingDef (fun z => decide (l * 64 ≤ z) && decide (z < l * 64 + w (s.cueWords a.val r) 3 * 64)) (s.arrAt b.val).wings (u.arrAt b.val).wings ∧
         SparseBut (s.arrAt b.val).tagDef (fun z => decide (l ≤ z) && decide (z < l + w (s.cueWords a.val r) 3)) (s.arrAt b.val).tags (u.arrAt b.val).tags) ∧
       ArraysBut (fun b => (s.twins a.val).contains b) s u ∧
       (u.arrAt a.val).run = some { r.stepped (s.cueWords a.val r) u.now with
         fly := r.fly ++ [{ cls := .stage, addr := s.posAddr a.val r r.pos, seq := r.pos.seq }] } ∧ Within [.arr, .dict, .memc, .clock] s u ∧
       ObjsBut (fun i j => i == 0x5040 + a.val && (j == 1 || j == 2)) s u)) ∧
  (∀ (s : State) (a : Fin 16) (c : CueCheck) (t : Nat),
     ∀ r, s.issuing a.val = some r → s.mayIssue a.val opStage c r = true → Bits.fld (w (s.cueWords a.val r) 2) 31 30 = 1 →
     ∀ x, s.adds a.val r (s.cueWords a.val r) = some x →
     ∀ l, x.line (Bits.fld (w (s.cueWords a.val r) 2) 14 0) (w (s.cueWords a.val r) 3) = some l →
     ∀ v, x.unit (Bits.fld (w (s.cueWords a.val r) 1) 28 0) = some v → s.cueMayWrite (v * 64) (w (s.cueWords a.val r) 3 * 64) = true →
     s.canonical = true →
     ∃ u, Sys2Proof.Machine.exec (.stage a c t) s = .next u ∧ (
       u.memRead (v * 64) (w (s.cueWords a.val r) 3 * 64) = s.wings a.val (l * 64) (w (s.cueWords a.val r) 3 * 64) ∧
       BytesBut (fun y => decide (v * 64 ≤ y) && decide (y < v * 64 + w (s.cueWords a.val r) 3 * 64)) s u ∧
       u.arrAt a.val = { s.arrAt a.val with run := (u.arrAt a.val).run } ∧ ArraysBut (fun b => b == a.val) s u ∧
       u.stand a.val = some (r.pos.next, r.pos, .none) ∧ u.inFlight a.val .stage = s.inFlight a.val .stage + 1 ∧
       Within [.arr, .dict, .mem, .memc, .clock] s u ∧ ObjsBut (fun i j => i == 0x5040 + a.val && (j == 1 || j == 2)) s u)) ∧
  (∀ (s : State) (a : Fin 16) (c : CueCheck) (t : Nat),
     ∀ r, s.issuing a.val = some r → s.mayIssue a.val opStage c r = true → Bits.fld (w (s.cueWords a.val r) 2) 31 30 = 2 →
     ∀ x, s.adds a.val r (s.cueWords a.val r) = some x →
     ∀ l, x.line (Bits.fld (w (s.cueWords a.val r) 2) 14 0) (w (s.cueWords a.val r) 3) = some l →
     ∀ d, x.line (Bits.fld (w (s.cueWords a.val r) 2) 29 15) (w (s.cueWords a.val r) 3) = some d →
     ((s.twins a.val).all fun b => Sparse.wf (s.arrAt b).wingDef (s.arrAt b).wings && Sparse.wf (s.arrAt b).tagDef (s.arrAt b).tags) = true →
     ∃ u, Sys2Proof.Machine.exec (.stage a c t) s = .next u ∧ (
       ((s.twins a.val).all fun b => decide (u.wings b (d * 64) (w (s.cueWords a.val r) 3 * 64) = s.wings a.val (l * 64) (w (s.cueWords a.val r) 3 * 64)) &&
         (List.range (w (s.cueWords a.val r) 3)).all fun k => decide (u.tag b (d + k) = 0)) = true ∧
       (∀ b : Fin 16, u.arrAt b.val = { s.arrAt b.val with
           run := (u.arrAt b.val).run, wings := (u.arrAt b.val).wings, tags := (u.arrAt b.val).tags } ∧
         SparseBut (s.arrAt b.val).wingDef (fun z => decide (d * 64 ≤ z) && decide (z < d * 64 + w (s.cueWords a.val r) 3 * 64)) (s.arrAt b.val).wings (u.arrAt b.val).wings) ∧
       ArraysBut (fun b => (s.twins a.val).contains b) s u ∧
       u.stand a.val = some (r.pos.next, r.pos, .none) ∧ u.inFlight a.val .stage = s.inFlight a.val .stage + 1 ∧
       Within [.arr, .dict, .memc, .clock] s u ∧ ObjsBut (fun i j => i == 0x5040 + a.val && (j == 1 || j == 2)) s u)) ∧
  (∀ (s : State) (a : Fin 16) (c : CueCheck) (t : Nat),
     s.nextIs a.val opStage = false → ∃ u, Sys2Proof.Machine.exec (.stage a c t) s = .next u ∧ (
       Within [.clock] s u)) ∧
  (∀ (s : State) (a : Fin 16) (c : CueCheck) (t : Nat),
     ∀ r, s.issuing a.val = some r → s.mayIssue a.val opSwap c r = true → Bits.bit (w (s.cueWords a.val r) 0) 15 = false →
     ∃ u, Sys2Proof.Machine.exec (.swap a c t) s = .next u ∧ (
       u.arrAt a.val = { s.arrAt a.val with front := 1 - (s.arrAt a.val).front, run := some (r.stepped (s.cueWords a.val r) u.now) } ∧
       ArraysBut (fun b => b == a.val) s u ∧ Within [.arr, .dict, .memc, .clock] s u ∧
       ObjsBut (fun i j => i == 0x5040 + a.val && (j == 1 || j == 2)) s u)) ∧
  (∀ (s : State) (a : Fin 16) (c : CueCheck) (t : Nat),
     s.nextIs a.val opSwap = false → ∃ u, Sys2Proof.Machine.exec (.swap a c t) s = .next u ∧ (
       Within [.clock] s u)) ∧
  (∀ (s : State) (a : Fin 16) (t : Nat),
     s.frozen = false → s.runClear a.val = true → 0 < s.inFlight a.val .shelve → ∀ r, (s.arrAt a.val).run = some r → r.ending = false → (s.arrAt a.val).susp = [] →
     ∃ u, Sys2Proof.Machine.exec (.shelveComplete a t) s = .next u ∧ (
       u.arrAt a.val = { s.arrAt a.val with run := some (r.land (fun f => decide (f.cls = .shelve)) u.now) } ∧
       u.inFlight a.val .shelve + 1 = s.inFlight a.val .shelve ∧ ArraysBut (fun b => b == a.val) s u ∧ Within [.arr, .dict, .clock] s u ∧
       ObjsBut (fun i j => i == 0x5040 + a.val && (j == 1 || j == 2)) s u)) ∧
  (∀ (s : State) (a : Fin 16) (t : Nat),
     s.frozen = true → ∃ u, Sys2Proof.Machine.exec (.shelveComplete a t) s = .next u ∧ (
       Within [.clock] s u)) ∧
  (∀ (s : State) (a : Fin 16) (t : Nat),
     s.frozen = false → s.runClear a.val = true → 0 < s.inFlight a.val .stage → ∀ r, (s.arrAt a.val).run = some r → r.ending = false → (s.arrAt a.val).susp = [] →
     ∃ u, Sys2Proof.Machine.exec (.stageComplete a t) s = .next u ∧ (
       u.arrAt a.val = { s.arrAt a.val with run := some (r.land (fun f => decide (f.cls = .stage)) u.now) } ∧
       u.inFlight a.val .stage + 1 = s.inFlight a.val .stage ∧ ArraysBut (fun b => b == a.val) s u ∧ Within [.arr, .dict, .clock] s u ∧
       ObjsBut (fun i j => i == 0x5040 + a.val && (j == 1 || j == 2)) s u)) ∧
  (∀ (s : State) (a : Fin 16) (t : Nat),
     s.frozen = true → ∃ u, Sys2Proof.Machine.exec (.stageComplete a t) s = .next u ∧ (
       Within [.clock] s u))

/-- A STREAM that passes its checks goes into flight and leaves in its banks what the STREAM's arithmetic makes of its operands; an
opening one gives a real tile's bank its format, shape and owner and leaves the other bank alone. STREAM_COMPLETE counts its
busy and bubble cycles. A DRAIN that passes its checks marks the back bank as drained and goes into flight; a tile of one row
without records is stored in the wings or the stacks at its address, and nothing else there changes. DRAIN_COMPLETE, not before
the STREAMs of its bank, appends the completion record and the sticky flags. ARBITRATION_COMPLETE with a row that equals one
version lets the list go on; an undecided one, or a timeout, makes both arrays suspect. (spec/05_numbers.md, Exceptions,
spec/07_arrays.md, Cells and accumulator banks, spec/07_arrays.md, The wavefront, spec/07_arrays.md, SWAP and back-to-back
tiles, spec/07_arrays.md, Feeders, run-ahead and bubbles, spec/07_arrays.md, The drain, spec/07_arrays.md, Gating, dummy
operations and the current governor, spec/08_prompters.md, Issue and completion, spec/08_prompters.md, Completion records,
spec/15_reliability.md, Arbitration) -/
def Obligations.ComputeCues : Prop :=
  (∀ (s : State) (a : Fin 16) (c : CueCheck) (t : Nat),
     ∀ r, s.issuing a.val = some r → s.mayIssue a.val opStream c r = true → ∀ x, s.adds a.val r (s.cueWords a.val r) = some x →
     (streamCue r x (s.cueWords a.val r)).issueError (s.arrAt a.val) = none → ∀ o, s.operand a.val (streamCue r x (s.cueWords a.val r)) = .ok o →
     ∃ u, Sys2Proof.Machine.exec (.stream a c t) s = .next u ∧ (
       u.arrAt a.val = { ((streamCue r x (s.cueWords a.val r)).stream o (s.arrAt a.val) r.ring s.free) with
         run := (u.arrAt a.val).run, wantFrom := (u.arrAt a.val).wantFrom, rampFrom := (u.arrAt a.val).rampFrom, rampLen := (u.arrAt a.val).rampLen
         susp := (if (streamCue r x (s.cueWords a.val r)).opens then (s.arrAt a.val).loseBanks r.ring ((streamCue r x (s.cueWords a.val r)).banks (s.arrAt a.val)) else s.arrAt a.val).susp } ∧
       u.stand a.val = some (r.pos.next, r.pos, .none) ∧ ((u.arrAt a.val).run.map fun y => (y.issued, y.stack)) = some (r.issued + 1, r.stack) ∧
       u.inFlight a.val .stream = s.inFlight a.val .stream + 1 ∧ (∀ b : Fin 16, b ≠ a → u.arrAt b.val = { s.arrAt b.val with
         wantFrom := (u.arrAt b.val).wantFrom, rampFrom := (u.arrAt b.val).rampFrom, rampLen := (u.arrAt b.val).rampLen }) ∧
       ArraysBut (fun b => (s.twins a.val).contains b) s u ∧ Within [.arr, .dict, .memc, .free, .clock] s u ∧
       ObjsBut (fun i j => i == 0x5040 + a.val && (j == 1 || j == 2) || (s.twins a.val).any (fun b => i == 0x5010 + b) &&
         [2, 3, 5, 6, 7, 0xC].contains j || i == 0x6040 + a.val && j == 1) s u)) ∧
  (∀ (s : State) (a : Fin 16) (c : CueCheck) (t : Nat),
     ∀ r, s.issuing a.val = some r → s.mayIssue a.val opStream c r = true → ∀ x, s.adds a.val r (s.cueWords a.val r) = some x →
     (streamCue r x (s.cueWords a.val r)).issueError (s.arrAt a.val) = none → ∀ o, s.operand a.val (streamCue r x (s.cueWords a.val r)) = .ok o →
     (streamCue r x (s.cueWords a.val r)).opens = true → (streamCue r x (s.cueWords a.val r)).kind = 0 → (s.arrAt a.val).front = 0 →
     ∃ u, Sys2Proof.Machine.exec (.stream a c t) s = .next u ∧ (
       (u.arrAt a.val).bank0.opened = true ∧ (u.arrAt a.val).bank0.shape = (streamCue r x (s.cueWords a.val r)).shape ∧
       (u.arrAt a.val).bank0.fp = (streamCue r x (s.cueWords a.val r)).isFloat ∧ (u.arrAt a.val).bank0.owner = r.ring ∧
       (u.arrAt a.val).bank0.drained = false ∧ (u.arrAt a.val).bank1 = (s.arrAt a.val).bank1)) ∧
  (∀ (s : State) (a : Fin 16) (c : CueCheck) (t : Nat),
     s.nextIs a.val opStream = false → ∃ u, Sys2Proof.Machine.exec (.stream a c t) s = .next u ∧ (
       Within [.clock] s u)) ∧
  (∀ (s : State) (a : Fin 16) (bubbles starveA starveB t : Nat),
     ∀ f, s.flying a.val (fun f => decide (f.cls = .stream)) = some f → s.power a.val = 2 → s.frozen = false → s.runClear a.val = true →
     s.canonical = true → s.flag 0x8000 0 = false → ((s.listsOf a.val).any fun r => r.ending) = false →
     ∃ u, Sys2Proof.Machine.exec (.streamComplete a bubbles starveA starveB t) s = .next u ∧ (
       u.inFlight a.val .stream + 1 = s.inFlight a.val .stream ∧
       u.obj (0x5010 + a.val) 3 = (s.obj (0x5010 + a.val) 3 + (f.2.steps + bubbles)) % 2 ^ 64 ∧
       u.obj (0x5010 + a.val) 4 = (s.obj (0x5010 + a.val) 4 + f.2.steps) % 2 ^ 64 ∧
       u.obj (0x5010 + a.val) 5 = (s.obj (0x5010 + a.val) 5 + bubbles) % 2 ^ 64 ∧
       (s.flag (0x5020 + a.val) 2 = false → u.obj (0x5010 + a.val) 6 = (s.obj (0x5010 + a.val) 6 + bubbles) % 2 ^ 64 ∧ u.free = s.free) ∧
       u.obj (0x5010 + a.val) 8 = (s.obj (0x5010 + a.val) 8 + starveA) % 2 ^ 64 ∧
       u.obj (0x5010 + a.val) 9 = (s.obj (0x5010 + a.val) 9 + starveB) % 2 ^ 64 ∧
       u.arrAt a.val = { s.arrAt a.val with run := (u.arrAt a.val).run, susp := (u.arrAt a.val).susp } ∧ ArraysBut (fun b => b == a.val) s u ∧
       Within [.arr, .dict, .free, .clock] s u ∧
       ObjsBut (fun i j => i == 0x5010 + a.val && [3, 4, 5, 6, 8, 9].contains j || i == 0x5040 + a.val && (j == 1 || j == 2)) s u)) ∧
  (∀ (s : State) (a : Fin 16) (bubbles starveA starveB t : Nat),
     ((s.flying a.val fun f => decide (f.cls = .stream)).isNone = true ∨ s.power a.val ≠ 2 ∨ s.frozen = true) →
     ∃ u, Sys2Proof.Machine.exec (.streamComplete a bubbles starveA starveB t) s = .next u ∧ (
       Within [.clock] s u)) ∧
  (∀ (s : State) (a : Fin 16) (c : CueCheck) (diff : Option RowDiff) (t : Nat),
     ∀ r, s.issuing a.val = some r → s.mayIssue a.val opDrain c r = true → ∀ x, s.adds a.val r (s.cueWords a.val r) = some x →
     s.drainError a.val r.acc (drainCue r x (s.cueWords a.val r)) (s.arrAt a.val).backBanks.1 (s.arrAt a.val).backBanks.2 = none →
     ∀ y, s.drainAddrs (drainCue r x (s.cueWords a.val r)) (DrainCue.parts (s.arrAt a.val).backBanks.1) = some y → diff = none →
     ∃ u, Sys2Proof.Machine.exec (.drain a c diff t) s = .next u ∧ (
       u.stand a.val = some (r.pos.next, r.pos, .none) ∧ u.inFlight a.val .drain = s.inFlight a.val .drain + 1 ∧
       u.arrAt a.val = { (s.arrAt a.val).afterDrain with
         run := (u.arrAt a.val).run, wings := (u.arrAt a.val).wings, tags := (u.arrAt a.val).tags, recs := (u.arrAt a.val).recs
         wantFrom := (u.arrAt a.val).wantFrom, rampFrom := (u.arrAt a.val).rampFrom, rampLen := (u.arrAt a.val).rampLen } ∧
       (∀ b : Fin 16, b ≠ a → u.arrAt b.val = { s.arrAt b.val with
         wings := (u.arrAt b.val).wings, tags := (u.arrAt b.val).tags, recs := (u.arrAt b.val).recs
         wantFrom := (u.arrAt b.val).wantFrom, rampFrom := (u.arrAt b.val).rampFrom, rampLen := (u.arrAt b.val).rampLen }) ∧
       ArraysBut (fun b => (s.twins a.val).contains b) s u ∧
       u.rel = { s.rel with arb := s.rel.arb.filter fun z => decide (z.pair ≠ 2 ^ 10 + a.val / 2) } ∧
       Within [.arr, .dict, .mem, .memc, .egr, .rel, .odp, .out, .obs, .pwr, .free, .clock] s u)) ∧
  (∀ (s : State) (a : Fin 16) (c : CueCheck) (diff : Option RowDiff) (t : Nat),
     ∀ r, s.issuing a.val = some r → s.mayIssue a.val opDrain c r = true → ∀ x, s.adds a.val r (s.cueWords a.val r) = some x →
     s.drainError a.val r.acc (drainCue r x (s.cueWords a.val r)) (s.arrAt a.val).backBanks.1 (s.arrAt a.val).backBanks.2 = none →
     ∀ y, s.drainAddrs (drainCue r x (s.cueWords a.val r)) (DrainCue.parts (s.arrAt a.val).backBanks.1) = some y → diff = none →
     s.rel.arb = [] → (drainCue r x (s.cueWords a.val r)).dest = 0 → (drainCue r x (s.cueWords a.val r)).record = false →
     (drainCue r x (s.cueWords a.val r)).folded = false → (drainCue r x (s.cueWords a.val r)).fmt ≠ 0xD → (drainCue r x (s.cueWords a.val r)).m = 1 →
     s.flag 0x8000 0 = false → Sparse.wf (s.arrAt a.val).wingDef (s.arrAt a.val).wings = true →
     ∀ row, (s.drainTile a.val (drainCue r x (s.cueWords a.val r)) (s.arrAt a.val).backBanks.1 (s.arrAt a.val).backBanks.2 y.2.1).rows.head? = some row →
     ∃ u, Sys2Proof.Machine.exec (.drain a c diff t) s = .next u ∧ (
       u.wings a.val (y.1 * 64) row.length = row ∧
       SparseBut (s.arrAt a.val).wingDef (fun z => decide (y.1 * 64 ≤ z) && decide (z < y.1 * 64 + row.length)) (s.arrAt a.val).wings (u.arrAt a.val).wings ∧
       (u.arrAt a.val).recs = (s.arrAt a.val).recs ∧ ArraysBut (fun b => b == a.val) s u ∧ Within [.arr, .dict, .memc, .free, .clock] s u)) ∧
  (∀ (s : State) (a : Fin 16) (c : CueCheck) (diff : Option RowDiff) (t : Nat),
     ∀ r, s.issuing a.val = some r → s.mayIssue a.val opDrain c r = true → ∀ x, s.adds a.val r (s.cueWords a.val r) = some x →
     s.drainError a.val r.acc (drainCue r x (s.cueWords a.val r)) (s.arrAt a.val).backBanks.1 (s.arrAt a.val).backBanks.2 = none →
     ∀ y, s.drainAddrs (drainCue r x (s.cueWords a.val r)) (DrainCue.parts (s.arrAt a.val).backBanks.1) = some y → diff = none →
     s.rel.arb = [] → (drainCue r x (s.cueWords a.val r)).dest = 1 → (drainCue r x (s.cueWords a.val r)).record = false →
     (drainCue r x (s.cueWords a.val r)).folded = false → (drainCue r x (s.cueWords a.val r)).fmt ≠ 0xD → (drainCue r x (s.cueWords a.val r)).m = 1 →
     s.canonical = true →
     ∀ row, (s.drainTile a.val (drainCue r x (s.cueWords a.val r)) (s.arrAt a.val).backBanks.1 (s.arrAt a.val).backBanks.2 y.2.1).rows.head? = some row →
     ∃ u, Sys2Proof.Machine.exec (.drain a c diff t) s = .next u ∧ (
       u.memRead (y.1 * 64) row.length = row ∧
       BytesBut (fun z => decide (y.1 * 64 ≤ z) && decide (z < y.1 * 64 + row.length)) s u ∧
       (∀ b : Fin 16, (u.arrAt b.val).wings = (s.arrAt b.val).wings ∧ (u.arrAt b.val).recs = (s.arrAt b.val).recs) ∧
       Within [.arr, .dict, .mem, .memc, .free, .clock] s u)) ∧
  (∀ (s : State) (a : Fin 16) (c : CueCheck) (diff : Option RowDiff) (t : Nat),
     s.nextIs a.val opDrain = false → ∃ u, Sys2Proof.Machine.exec (.drain a c diff t) s = .next u ∧ (
       Within [.clock] s u)) ∧
  (∀ (s : State) (a : Fin 16) (stall t : Nat),
     ∀ f, s.flying a.val (fun f => decide (f.cls = .drain)) = some f → ∀ d, f.2.drain = some d → s.power a.val = 2 → s.frozen = false →
     s.runClear a.val = true → s.canonical = true → Sparse.wf (fun _ => 0) (s.arrAt a.val).log = true →
     ((f.1.fly.takeWhile fun g => decide (g ≠ f.2)).any fun g => decide (g.cls = .stream) && sameBank g.bank f.2.bank) = false →
     ((s.listsOf a.val).any fun r => r.ending) = false →
     ∃ u, Sys2Proof.Machine.exec (.drainComplete a stall t) s = .next u ∧ (
       u.inFlight a.val .drain + 1 = s.inFlight a.val .drain ∧
       Sparse.read (fun _ => 0) (u.arrAt a.val).log (s.get (0x5070 + a.val) 1 % 256) = Bits.leNat (completionBytes a.val f.1.acc f.1.lw1 u.now d) ∧
       SparseBut (fun _ => 0) (fun k => k == s.get (0x5070 + a.val) 1 % 256) (s.arrAt a.val).log (u.arrAt a.val).log ∧
       u.arrAt a.val = { s.arrAt a.val with run := (u.arrAt a.val).run, susp := (u.arrAt a.val).susp, log := (u.arrAt a.val).log } ∧
       ArraysBut (fun b => b == a.val) s u ∧
       u.obj (0x5010 + a.val) 0xA = (s.obj (0x5010 + a.val) 0xA + stall) % 2 ^ 64 ∧
       u.obj (0x5070 + a.val) 1 = (s.obj (0x5070 + a.val) 1 + 1) % 2 ^ 32 ∧
       u.obj (0x5060 + a.val) 1 = s.obj (0x5060 + a.val) 1 ||| d.flags ∧
       u.obj (0x5060 + a.val) 2 = (s.obj (0x5060 + a.val) 2 + d.nans) % 2 ^ 64 ∧
       Within [.arr, .dict, .clock, .pwr, .mem, .memc, .obs, .odp, .out, .free] s u ∧
       Notes (fun i j => i == 0x5010 + a.val && j == 0xA || i == 0x5070 + a.val && j == 1 || i == 0x5060 + a.val && (j == 1 || j == 2) ||
         i == 0x5040 + a.val && (j == 1 || j == 2) || i == 0x8831 && j == 0) s u)) ∧
  (∀ (s : State) (a : Fin 16) (stall t : Nat),
     ((s.flying a.val fun f => decide (f.cls = .drain)).isNone = true ∨ s.power a.val ≠ 2 ∨ s.frozen = true) →
     ∃ u, Sys2Proof.Machine.exec (.drainComplete a stall t) s = .next u ∧ (
       Within [.clock] s u)) ∧
  (∀ (s : State) (a : Fin 16) (row : Bytes) (t : Nat),
     ∀ x, (s.rel.arb.find? fun x => decide (x.pair = a.val / 2)) = some x → decide (row = x.evenRow) ≠ decide (row = x.oddRow) → s.canonical = true →
     ∀ r, (s.arrAt (2 * (a.val / 2))).run = some r →
     ∃ u, Sys2Proof.Machine.exec (.arbitrationComplete a row t) s = .next u ∧ (
       u.rel.arb = { x with pair := 2 ^ 10 + a.val / 2, oddRow := row } :: s.rel.arb.filter (fun y => decide (y.pair ≠ a.val / 2)) ∧
       u.arrAt (2 * (a.val / 2)) = { s.arrAt (2 * (a.val / 2)) with run := some { r with block := .none, progress := u.now } } ∧
       ArraysBut (fun b => b == 2 * (a.val / 2)) s u ∧ u.obj 0x8009 3 = (s.obj 0x8009 3 + 1) % 2 ^ 64 ∧
       Recorded 0x11 1 (if row = x.evenRow then 2 * (a.val / 2) + 1 else 2 * (a.val / 2)) s u ∧
       Within [.arr, .dict, .rel, .flash, .clock, .pwr, .mem, .memc, .obs, .odp, .out, .free] s u ∧
       Notes (fun i j => i == 0x8009 && j == 3 || i == 0x8015 && j == 0) s u)) ∧
  (∀ (s : State) (a : Fin 16) (row : Bytes) (t : Nat),
     ∀ x, (s.rel.arb.find? fun x => decide (x.pair = a.val / 2)) = some x → decide (row = x.evenRow) = decide (row = x.oddRow) →
     ∃ u, Sys2Proof.Machine.exec (.arbitrationComplete a row t) s = .next u ∧ (
       (u.arrAt (2 * (a.val / 2))).suspect = true ∧ (u.arrAt (2 * (a.val / 2) + 1)).suspect = true ∧ u.flash.replacement = true ∧
       u.dev.st = (if s.dev.st = .run then .drain else s.dev.st) ∧ Recorded 0x11 1 (2 * (a.val / 2)) s u ∧
       u.rel.arb = s.rel.arb.filter (fun y => decide (y.pair ≠ a.val / 2)) ∧
       Within [.dict, .pwr, .dev, .clock, .odp, .flash, .mem, .pkts, .intake, .line, .egr, .cat, .arr, .sync, .fab, .memc, .rel, .obs, .free, .out] s u)) ∧
  (∀ (s : State) (a : Fin 16) (row : Bytes) (t : Nat),
     (s.rel.arb.find? fun x => decide (x.pair = a.val / 2)) = none → ∃ u, Sys2Proof.Machine.exec (.arbitrationComplete a row t) s = .next u ∧ (
       Within [.clock] s u)) ∧
  (∀ (s : State) (a : Fin 16) (t : Nat),
     ∀ x, (s.rel.arb.find? fun x => decide (x.pair = a.val / 2)) = some x → x.start + s.get 0x8011 0 * 1000 ≤ (s.at t).now →
     ∃ u, Sys2Proof.Machine.exec (.arbitrationTimeout a t) s = .next u ∧ (
       (u.arrAt (2 * (a.val / 2))).suspect = true ∧ (u.arrAt (2 * (a.val / 2) + 1)).suspect = true ∧ u.flash.replacement = true ∧
       u.dev.st = (if s.dev.st = .run then .drain else s.dev.st) ∧ Recorded 0x11 1 (2 * (a.val / 2)) s u ∧
       u.rel.arb = s.rel.arb.filter (fun y => decide (y.pair ≠ a.val / 2)) ∧
       Within [.dict, .pwr, .dev, .clock, .odp, .flash, .mem, .pkts, .intake, .line, .egr, .cat, .arr, .sync, .fab, .memc, .rel, .obs, .free, .out] s u)) ∧
  (∀ (s : State) (a : Fin 16) (t : Nat),
     ((s.rel.arb.find? fun x => decide (x.pair = a.val / 2)).all fun x => decide ((s.at t).now < x.start + s.get 0x8011 0 * 1000)) = true →
     ∃ u, Sys2Proof.Machine.exec (.arbitrationTimeout a t) s = .next u ∧ (
       Within [.clock] s u))

/-- TAP FLUSH of a descriptor whose current buffer holds a row completes it: its enabled TAP trigger posts its launch cue, and
without one the buffer is freed and the firing counted as suppressed; an empty or complete buffer stays. TAP RELEASE frees the
named busy buffer and no other. EMIT VERDICT appends one verdict for each held packet of the list's buffer, in tap order, with
the class and score of its row. EMIT TENSOR and EMIT MARKER with room append one frame, with the header and the common fields,
to their queue and take the next record sequence number; without room the frame is counted as dropped. EMIT_COMPLETE takes one
EMIT out of flight. While no list stands at such a cue, nothing but house time changes. (spec/08_prompters.md, Launch words,
spec/08_prompters.md, Issue and completion, spec/08_prompters.md, Restart points, spec/08_prompters.md, Triggers,
spec/08_prompters.md, Verdicts, tensors, taps and time, spec/11_egress.md, Queues, spec/11_egress.md, Frames originated by the
module) -/
def Obligations.TapAndEmitCues : Prop :=
  (∀ (s : State) (a : Fin 16) (c : CueCheck) (t : Nat),
     ∀ r, s.issuing a.val = some r → s.mayIssue a.val opTap c r = true → Bits.fld (w (s.cueWords a.val r) 1) 9 8 = 1 → s.canonical = true →
     0 < ((s.tap (Bits.fld (w (s.cueWords a.val r) 1) 7 0)).buf (s.tap (Bits.fld (w (s.cueWords a.val r) 1) 7 0)).cur).rows → ((s.tap (Bits.fld (w (s.cueWords a.val r) 1) 7 0)).buf (s.tap (Bits.fld (w (s.cueWords a.val r) 1) 7 0)).cur).busy = false → ((s.tap (Bits.fld (w (s.cueWords a.val r) 1) 7 0)).buf (s.tap (Bits.fld (w (s.cueWords a.val r) 1) 7 0)).cur).held = [] → s.trigOn ((s.bankOf ((s.tap (Bits.fld (w (s.cueWords a.val r) 1) 7 0)).buf (s.tap (Bits.fld (w (s.cueWords a.val r) 1) 7 0)).cur).ra).tapTrigger (Bits.fld (w (s.cueWords a.val r) 1) 7 0) % 512) = false → ((s.tap (Bits.fld (w (s.cueWords a.val r) 1) 7 0)).buf (s.tap (Bits.fld (w (s.cueWords a.val r) 1) 7 0)).cur).light ∉ s.sync.waiters.map (fun x => x.light) → s.light ((s.tap (Bits.fld (w (s.cueWords a.val r) 1) 7 0)).buf (s.tap (Bits.fld (w (s.cueWords a.val r) 1) 7 0)).cur).light = 0 →
     ∃ u, Sys2Proof.Machine.exec (.tapFlush a c t) s = .next u ∧ (
       u.tap (Bits.fld (w (s.cueWords a.val r) 1) 7 0) = { ((s.tap (Bits.fld (w (s.cueWords a.val r) 1) 7 0)).setBuf (s.tap (Bits.fld (w (s.cueWords a.val r) 1) 7 0)).cur {}) with cur := 1 - (s.tap (Bits.fld (w (s.cueWords a.val r) 1) 7 0)).cur } ∧ TapsBut (fun d => d == (Bits.fld (w (s.cueWords a.val r) 1) 7 0)) s u ∧ u.sync = { s.sync with taps := u.sync.taps } ∧
       u.obj (0x5200 + ((s.bankOf ((s.tap (Bits.fld (w (s.cueWords a.val r) 1) 7 0)).buf (s.tap (Bits.fld (w (s.cueWords a.val r) 1) 7 0)).cur).ra).tapTrigger (Bits.fld (w (s.cueWords a.val r) 1) 7 0) % 512)) 0xD = (s.obj (0x5200 + ((s.bankOf ((s.tap (Bits.fld (w (s.cueWords a.val r) 1) 7 0)).buf (s.tap (Bits.fld (w (s.cueWords a.val r) 1) 7 0)).cur).ra).tapTrigger (Bits.fld (w (s.cueWords a.val r) 1) 7 0) % 512)) 0xD + 1) % 2 ^ 64 ∧
       (Bits.bit (w (s.cueWords a.val r) 0) 15 = false → (u.arrAt a.val).run = some ((r.stepped (s.cueWords a.val r) u.now).setRestart (s.pointAfter a.val r))) ∧
       u.arrAt a.val = { s.arrAt a.val with
         run := (u.arrAt a.val).run, tails := (u.arrAt a.val).tails, dead := (u.arrAt a.val).dead, instCons := (u.arrAt a.val).instCons } ∧
       ArraysBut (fun b => b == a.val) s u ∧ Within [.sync, .arr, .dict, .memc, .clock] s u ∧
       ObjsBut (fun i j => listObj a.val r.ring i j || i == 0x5200 + ((s.bankOf ((s.tap (Bits.fld (w (s.cueWords a.val r) 1) 7 0)).buf (s.tap (Bits.fld (w (s.cueWords a.val r) 1) 7 0)).cur).ra).tapTrigger (Bits.fld (w (s.cueWords a.val r) 1) 7 0) % 512) && j == 0xD) s u)) ∧
  (∀ (s : State) (a : Fin 16) (c : CueCheck) (t : Nat),
     ∀ r, s.issuing a.val = some r → s.mayIssue a.val opTap c r = true → Bits.fld (w (s.cueWords a.val r) 1) 9 8 = 1 → s.canonical = true →
     0 < ((s.tap (Bits.fld (w (s.cueWords a.val r) 1) 7 0)).buf (s.tap (Bits.fld (w (s.cueWords a.val r) 1) 7 0)).cur).rows → ((s.tap (Bits.fld (w (s.cueWords a.val r) 1) 7 0)).buf (s.tap (Bits.fld (w (s.cueWords a.val r) 1) 7 0)).cur).busy = false → (s.tap (Bits.fld (w (s.cueWords a.val r) 1) 7 0)).cur ≤ 1 → s.trigOn ((s.bankOf ((s.tap (Bits.fld (w (s.cueWords a.val r) 1) 7 0)).buf (s.tap (Bits.fld (w (s.cueWords a.val r) 1) 7 0)).cur).ra).tapTrigger (Bits.fld (w (s.cueWords a.val r) 1) 7 0) % 512) = true → s.trigSource ((s.bankOf ((s.tap (Bits.fld (w (s.cueWords a.val r) 1) 7 0)).buf (s.tap (Bits.fld (w (s.cueWords a.val r) 1) 7 0)).cur).ra).tapTrigger (Bits.fld (w (s.cueWords a.val r) 1) 7 0) % 512) = 1 → s.posts ((s.bankOf ((s.tap (Bits.fld (w (s.cueWords a.val r) 1) 7 0)).buf (s.tap (Bits.fld (w (s.cueWords a.val r) 1) 7 0)).cur).ra).tapTrigger (Bits.fld (w (s.cueWords a.val r) 1) 7 0) % 512) (((s.tap (Bits.fld (w (s.cueWords a.val r) 1) 7 0)).buf (s.tap (Bits.fld (w (s.cueWords a.val r) 1) 7 0)).cur).acc.getD 0) = true →
     ((s.tap (Bits.fld (w (s.cueWords a.val r) 1) 7 0)).buf (s.tap (Bits.fld (w (s.cueWords a.val r) 1) 7 0)).cur).light ∉ s.sync.waiters.map (fun x => x.light) → s.light ((s.tap (Bits.fld (w (s.cueWords a.val r) 1) 7 0)).buf (s.tap (Bits.fld (w (s.cueWords a.val r) 1) 7 0)).cur).light = 0 → Bits.bit (w (s.cueWords a.val r) 0) 15 = false →
     ∃ u, Sys2Proof.Machine.exec (.tapFlush a c t) s = .next u ∧ (
       u.tap (Bits.fld (w (s.cueWords a.val r) 1) 7 0) = { ((s.tap (Bits.fld (w (s.cueWords a.val r) 1) 7 0)).setBuf (s.tap (Bits.fld (w (s.cueWords a.val r) 1) 7 0)).cur { ((s.tap (Bits.fld (w (s.cueWords a.val r) 1) 7 0)).buf (s.tap (Bits.fld (w (s.cueWords a.val r) 1) 7 0)).cur) with busy := true }) with cur := 1 - (s.tap (Bits.fld (w (s.cueWords a.val r) 1) 7 0)).cur } ∧ TapsBut (fun d => d == (Bits.fld (w (s.cueWords a.val r) 1) 7 0)) s u ∧
       u.sync = { s.sync with taps := u.sync.taps } ∧ s.Posted u ((s.bankOf ((s.tap (Bits.fld (w (s.cueWords a.val r) 1) 7 0)).buf (s.tap (Bits.fld (w (s.cueWords a.val r) 1) 7 0)).cur).ra).tapTrigger (Bits.fld (w (s.cueWords a.val r) 1) 7 0) % 512) (((s.tap (Bits.fld (w (s.cueWords a.val r) 1) 7 0)).buf (s.tap (Bits.fld (w (s.cueWords a.val r) 1) 7 0)).cur).acc.getD 0) (((s.tap (Bits.fld (w (s.cueWords a.val r) 1) 7 0)).buf (s.tap (Bits.fld (w (s.cueWords a.val r) 1) 7 0)).cur).rows * 2 ^ 17 + (Bits.fld (w (s.cueWords a.val r) 1) 7 0) * 512 + (s.tap (Bits.fld (w (s.cueWords a.val r) 1) 7 0)).cur) u.now ∧
       (u.arrAt a.val).run = some ((r.stepped (s.cueWords a.val r) u.now).setRestart (s.pointAfter a.val r)) ∧
       ArraysBut (fun b => b == a.val || b == s.trigArray ((s.bankOf ((s.tap (Bits.fld (w (s.cueWords a.val r) 1) 7 0)).buf (s.tap (Bits.fld (w (s.cueWords a.val r) 1) 7 0)).cur).ra).tapTrigger (Bits.fld (w (s.cueWords a.val r) 1) 7 0) % 512)) s u ∧ Within [.sync, .arr, .dict, .mem, .memc, .clock] s u ∧
       ObjsBut (fun i j => listObj a.val r.ring i j || i == 0x5200 + ((s.bankOf ((s.tap (Bits.fld (w (s.cueWords a.val r) 1) 7 0)).buf (s.tap (Bits.fld (w (s.cueWords a.val r) 1) 7 0)).cur).ra).tapTrigger (Bits.fld (w (s.cueWords a.val r) 1) 7 0) % 512) && j == 0xB || i == ringObj (s.trigArray ((s.bankOf ((s.tap (Bits.fld (w (s.cueWords a.val r) 1) 7 0)).buf (s.tap (Bits.fld (w (s.cueWords a.val r) 1) 7 0)).cur).ra).tapTrigger (Bits.fld (w (s.cueWords a.val r) 1) 7 0) % 512)) (s.trigRing ((s.bankOf ((s.tap (Bits.fld (w (s.cueWords a.val r) 1) 7 0)).buf (s.tap (Bits.fld (w (s.cueWords a.val r) 1) 7 0)).cur).ra).tapTrigger (Bits.fld (w (s.cueWords a.val r) 1) 7 0) % 512)) && j == 7 ||
         i == 0x5040 + s.trigArray ((s.bankOf ((s.tap (Bits.fld (w (s.cueWords a.val r) 1) 7 0)).buf (s.tap (Bits.fld (w (s.cueWords a.val r) 1) 7 0)).cur).ra).tapTrigger (Bits.fld (w (s.cueWords a.val r) 1) 7 0) % 512) && j == 7) s u)) ∧
  (∀ (s : State) (a : Fin 16) (c : CueCheck) (t : Nat),
     ∀ r, s.issuing a.val = some r → s.mayIssue a.val opTap c r = true → Bits.fld (w (s.cueWords a.val r) 1) 9 8 = 1 → (((s.tap (Bits.fld (w (s.cueWords a.val r) 1) 7 0)).buf (s.tap (Bits.fld (w (s.cueWords a.val r) 1) 7 0)).cur).rows = 0 ∨ ((s.tap (Bits.fld (w (s.cueWords a.val r) 1) 7 0)).buf (s.tap (Bits.fld (w (s.cueWords a.val r) 1) 7 0)).cur).busy = true) →
     ∃ u, Sys2Proof.Machine.exec (.tapFlush a c t) s = .next u ∧ (
       ArraysBut (fun b => b == a.val) s u ∧ Within [.arr, .dict, .memc, .clock] s u ∧ ObjsBut (fun i j => listObj a.val r.ring i j) s u)) ∧
  (∀ (s : State) (a : Fin 16) (c : CueCheck) (t : Nat),
     (s.nextIs a.val opTap = false ∨ s.nextTap a.val 2 = true) → ∃ u, Sys2Proof.Machine.exec (.tapFlush a c t) s = .next u ∧ (
       Within [.clock] s u)) ∧
  (∀ (s : State) (a : Fin 16) (c : CueCheck) (t : Nat),
     ∀ r, s.issuing a.val = some r → s.mayIssue a.val opTap c r = true → Bits.fld (w (s.cueWords a.val r) 1) 9 8 = 2 → s.canonical = true →
     ∃ u, Sys2Proof.Machine.exec (.tapRelease a c t) s = .next u ∧ (
       u.tap (Bits.fld (w (s.cueWords a.val r) 1) 7 0) = (if ((s.tap (Bits.fld (w (s.cueWords a.val r) 1) 7 0)).buf (if Bits.bit (w (s.cueWords a.val r) 0) 14 = true then r.lw0 % 2 else Bits.fld (w (s.cueWords a.val r) 1) 10 10)).busy = true then (s.tap (Bits.fld (w (s.cueWords a.val r) 1) 7 0)).setBuf (if Bits.bit (w (s.cueWords a.val r) 0) 14 = true then r.lw0 % 2 else Bits.fld (w (s.cueWords a.val r) 1) 10 10) {} else (s.tap (Bits.fld (w (s.cueWords a.val r) 1) 7 0))) ∧ TapsBut (fun d => d == (Bits.fld (w (s.cueWords a.val r) 1) 7 0)) s u ∧
       u.sync = { s.sync with taps := u.sync.taps } ∧
       (Bits.bit (w (s.cueWords a.val r) 0) 15 = false → (u.arrAt a.val).run = some ((r.stepped (s.cueWords a.val r) u.now).setRestart (s.pointAfter a.val r))) ∧
       ArraysBut (fun b => b == a.val) s u ∧ Within [.sync, .arr, .dict, .memc, .clock] s u ∧ ObjsBut (fun i j => listObj a.val r.ring i j) s u)) ∧
  (∀ (s : State) (a : Fin 16) (c : CueCheck) (t : Nat),
     (s.nextIs a.val opTap = false ∨ s.nextTap a.val 2 = false) → ∃ u, Sys2Proof.Machine.exec (.tapRelease a c t) s = .next u ∧ (
       Within [.clock] s u)) ∧
  (∀ (s : State) (a : Fin 16) (c : CueCheck) (t : Nat),
     ∀ r, s.issuing a.val = some r → s.mayIssue a.val opEmit c r = true → Bits.fld (w (s.cueWords a.val r) 1) 31 30 = 0 →
     ∀ x, s.adds a.val r (s.cueWords a.val r) = some x → ∀ y, r.tap = some y → ((s.tap y.1).buf y.2).held.isEmpty = false →
     ∀ l, x.line (Bits.fld (w (s.cueWords a.val r) 2) 14 0) ((((s.tap y.1).buf y.2).held.foldl (fun m h => Max.max m (h.2 + 1)) 0 - 1) *
       Bits.fld (w (s.cueWords a.val r) 3) 7 0 + 1) = some l →
     ∃ u, Sys2Proof.Machine.exec (.emitVerdict a c t) s = .next u ∧ (
       u.egr = { s.egr with neural := s.egr.neural ++ ((s.tap y.1).buf y.2).held.map (s.neuralOf a.val (s.cueWords a.val r) l) } ∧
       u.stand a.val = some (r.pos.next, r.pos, .none) ∧ u.inFlight a.val .emit = s.inFlight a.val .emit + 1 ∧
       u.arrAt a.val = { s.arrAt a.val with run := (u.arrAt a.val).run } ∧ ArraysBut (fun b => b == a.val) s u ∧
       Within [.egr, .arr, .dict, .memc, .clock] s u ∧ ObjsBut (fun i j => i == 0x5040 + a.val && (j == 1 || j == 2)) s u)) ∧
  (∀ (s : State) (a : Fin 16) (c : CueCheck) (t : Nat),
     (s.nextIs a.val opEmit = false ∨ s.nextEmit a.val 1 = true ∨ s.nextEmit a.val 2 = true) →
     ∃ u, Sys2Proof.Machine.exec (.emitVerdict a c t) s = .next u ∧ (
       Within [.clock] s u)) ∧
  (∀ (s : State) (a : Fin 16) (c : CueCheck) (t : Nat),
     ∀ r, s.issuing a.val = some r → s.mayIssue a.val opEmit c r = true → Bits.fld (w (s.cueWords a.val r) 1) 31 30 = 1 →
     ∀ x, s.adds a.val r (s.cueWords a.val r) = some x → ∀ l, x.line (Bits.fld (w (s.cueWords a.val r) 2) 14 0) (Bits.fld (w (s.cueWords a.val r) 3) 15 0) = some l → s.canonical = true →
     s.takesFrame (Bits.fld (w (s.cueWords a.val r) 1) 28 16) (s.originated 0 0x02 0 r.acc (Bits.natBe 2 (Bits.fld (w (s.cueWords a.val r) 1) 15 0) ++ Bits.natBe 1 a.val ++ Bits.natBe 1 0 ++ Bits.natBe 4 (Bits.fld (w (s.cueWords a.val r) 3) 31 16) ++
         Bits.natBe 2 (Bits.fld (w (s.cueWords a.val r) 3) 15 0) ++ Bits.natBe 2 64 ++ Bits.natBe 4 r.pos.seq ++ s.wings a.val (l * 64) (Bits.fld (w (s.cueWords a.val r) 3) 15 0 * 64))).length = true →
     ∃ u, Sys2Proof.Machine.exec (.emitTensor a c t) s = .next u ∧ (
       u.queue (Bits.fld (w (s.cueWords a.val r) 1) 28 16) = s.queue (Bits.fld (w (s.cueWords a.val r) 1) 28 16) ++ [⟨s.originated u.now 0x02 0 r.acc (Bits.natBe 2 (Bits.fld (w (s.cueWords a.val r) 1) 15 0) ++ Bits.natBe 1 a.val ++ Bits.natBe 1 0 ++ Bits.natBe 4 (Bits.fld (w (s.cueWords a.val r) 3) 31 16) ++
         Bits.natBe 2 (Bits.fld (w (s.cueWords a.val r) 3) 15 0) ++ Bits.natBe 2 64 ++ Bits.natBe 4 r.pos.seq ++ s.wings a.val (l * 64) (Bits.fld (w (s.cueWords a.val r) 3) 15 0 * 64)), none, 0, true, u.now, 0⟩] ∧ QueuesBut (fun q => q == (Bits.fld (w (s.cueWords a.val r) 1) 28 16)) s u ∧ u.egr = { s.egr with q := u.egr.q } ∧
       u.obj 0x7010 0 = (s.obj 0x7010 0 + 1) % 2 ^ 32 ∧ u.obj 0x710A ((Bits.fld (w (s.cueWords a.val r) 1) 28 16) + 1) = (s.obj 0x710A ((Bits.fld (w (s.cueWords a.val r) 1) 28 16) + 1) + 1) % 2 ^ 64 ∧
       u.stand a.val = some (r.pos.next, r.pos, .none) ∧ u.inFlight a.val .emit = s.inFlight a.val .emit + 1 ∧
       u.arrAt a.val = { s.arrAt a.val with run := (u.arrAt a.val).run } ∧ ArraysBut (fun b => b == a.val) s u ∧
       Within [.egr, .arr, .dict, .memc, .clock] s u ∧
       ObjsBut (fun i j => i == 0x5040 + a.val && (j == 1 || j == 2) || i == 0x7010 && j == 0 || i == 0x710A && j == (Bits.fld (w (s.cueWords a.val r) 1) 28 16) + 1) s u)) ∧
  (∀ (s : State) (a : Fin 16) (c : CueCheck) (t : Nat),
     ∀ r, s.issuing a.val = some r → s.mayIssue a.val opEmit c r = true → Bits.fld (w (s.cueWords a.val r) 1) 31 30 = 1 →
     ∀ x, s.adds a.val r (s.cueWords a.val r) = some x → ∀ l, x.line (Bits.fld (w (s.cueWords a.val r) 2) 14 0) (Bits.fld (w (s.cueWords a.val r) 3) 15 0) = some l → s.canonical = true →
     s.get 0x3004 (s.queuePort (Bits.fld (w (s.cueWords a.val r) 1) 28 16) + 1) < (s.originated 0 0x02 0 r.acc (Bits.natBe 2 (Bits.fld (w (s.cueWords a.val r) 1) 15 0) ++ Bits.natBe 1 a.val ++ Bits.natBe 1 0 ++ Bits.natBe 4 (Bits.fld (w (s.cueWords a.val r) 3) 31 16) ++
         Bits.natBe 2 (Bits.fld (w (s.cueWords a.val r) 3) 15 0) ++ Bits.natBe 2 64 ++ Bits.natBe 4 r.pos.seq ++ s.wings a.val (l * 64) (Bits.fld (w (s.cueWords a.val r) 3) 15 0 * 64))).length + 4 →
     ∃ u, Sys2Proof.Machine.exec (.emitTensor a c t) s = .next u ∧ (
       u.obj 0x7011 0 = (s.obj 0x7011 0 + 1) % 2 ^ 64 ∧ u.obj 0x7010 0 = (s.obj 0x7010 0 + 1) % 2 ^ 32 ∧
       u.inFlight a.val .emit = s.inFlight a.val .emit + 1 ∧ ArraysBut (fun b => b == a.val) s u ∧
       Within [.arr, .dict, .memc, .clock] s u ∧
       ObjsBut (fun i j => i == 0x5040 + a.val && (j == 1 || j == 2) || (i == 0x7010 || i == 0x7011) && j == 0) s u)) ∧
  (∀ (s : State) (a : Fin 16) (c : CueCheck) (t : Nat),
     (s.nextIs a.val opEmit = false ∨ s.nextEmit a.val 1 = false) → ∃ u, Sys2Proof.Machine.exec (.emitTensor a c t) s = .next u ∧ (
       Within [.clock] s u)) ∧
  (∀ (s : State) (a : Fin 16) (c : CueCheck) (t : Nat),
     ∀ r, s.issuing a.val = some r → s.mayIssue a.val opEmit c r = true → Bits.fld (w (s.cueWords a.val r) 1) 31 30 = 2 → s.canonical = true →
     s.takesFrame (Bits.fld (w (s.cueWords a.val r) 1) 28 16) (s.originated 0 0x04 0 r.acc (Bits.natBe 2 (Bits.fld (w (s.cueWords a.val r) 1) 15 0) ++ Bits.natBe 1 a.val ++ Bits.natBe 1 0 ++ Bits.natBe 4 r.pos.seq)).length = true →
     ∃ u, Sys2Proof.Machine.exec (.emitMarker a c t) s = .next u ∧ (
       u.queue (Bits.fld (w (s.cueWords a.val r) 1) 28 16) = s.queue (Bits.fld (w (s.cueWords a.val r) 1) 28 16) ++ [⟨s.originated u.now 0x04 0 r.acc (Bits.natBe 2 (Bits.fld (w (s.cueWords a.val r) 1) 15 0) ++ Bits.natBe 1 a.val ++ Bits.natBe 1 0 ++ Bits.natBe 4 r.pos.seq), none, 0, true, u.now, 0⟩] ∧ QueuesBut (fun q => q == (Bits.fld (w (s.cueWords a.val r) 1) 28 16)) s u ∧ u.egr = { s.egr with q := u.egr.q } ∧
       u.obj 0x7010 0 = (s.obj 0x7010 0 + 1) % 2 ^ 32 ∧ u.obj 0x710A ((Bits.fld (w (s.cueWords a.val r) 1) 28 16) + 1) = (s.obj 0x710A ((Bits.fld (w (s.cueWords a.val r) 1) 28 16) + 1) + 1) % 2 ^ 64 ∧
       u.stand a.val = some (r.pos.next, r.pos, .none) ∧ u.inFlight a.val .emit = s.inFlight a.val .emit + 1 ∧
       u.arrAt a.val = { s.arrAt a.val with run := (u.arrAt a.val).run } ∧ ArraysBut (fun b => b == a.val) s u ∧
       Within [.egr, .arr, .dict, .memc, .clock] s u ∧
       ObjsBut (fun i j => i == 0x5040 + a.val && (j == 1 || j == 2) || i == 0x7010 && j == 0 || i == 0x710A && j == (Bits.fld (w (s.cueWords a.val r) 1) 28 16) + 1) s u)) ∧
  (∀ (s : State) (a : Fin 16) (c : CueCheck) (t : Nat),
     (s.nextIs a.val opEmit = false ∨ s.nextEmit a.val 2 = false) → ∃ u, Sys2Proof.Machine.exec (.emitMarker a c t) s = .next u ∧ (
       Within [.clock] s u)) ∧
  (∀ (s : State) (a : Fin 16) (t : Nat),
     s.frozen = false → s.runClear a.val = true → 0 < s.inFlight a.val .emit → s.egr.neural.length ≤ emitDepth →
     ∀ r, (s.arrAt a.val).run = some r → r.ending = false → (s.arrAt a.val).susp = [] →
     ∃ u, Sys2Proof.Machine.exec (.emitComplete a t) s = .next u ∧ (
       u.arrAt a.val = { s.arrAt a.val with run := some (r.land (fun f => decide (f.cls = .emit)) u.now) } ∧
       u.inFlight a.val .emit + 1 = s.inFlight a.val .emit ∧ ArraysBut (fun b => b == a.val) s u ∧ Within [.arr, .dict, .clock] s u ∧
       ObjsBut (fun i j => i == 0x5040 + a.val && (j == 1 || j == 2)) s u)) ∧
  (∀ (s : State) (a : Fin 16) (t : Nat),
     (s.frozen = true ∨ emitDepth < s.egr.neural.length) → ∃ u, Sys2Proof.Machine.exec (.emitComplete a t) s = .next u ∧ (
       Within [.clock] s u))

/-- WAIT puts the list into its light's queue and stops it; WAIT_COMPLETE of a satisfied head takes n from the count unless it peeks
and lets the list go on. SIGNAL with nothing earlier in flight adds n to its light, at most 65,535, fires its SIGNAL trigger, or
sends its doorbell, for which the list then waits; with something in flight the list stops. A doorbell to a module without a
path does not leave. FENCE stops the list while a cue of a class in its mask is in flight; HOLD until house time reaches the
event time plus the offset; their completions let it go on. Otherwise nothing but house time changes. (spec/08_prompters.md,
Issue and completion, spec/08_prompters.md, Restart points, spec/08_prompters.md, Cue lights, spec/08_prompters.md, Triggers,
spec/08_prompters.md, Doorbells across the fabric, spec/08_prompters.md, Verdicts, tensors, taps and time, spec/12_fabric.md,
Module numbers and global addresses, spec/12_fabric.md, Failures) -/
def Obligations.WaitAndSignalCues : Prop :=
  (∀ (s : State) (a : Fin 16) (c : CueCheck) (t : Nat),
     ∀ r, s.issuing a.val = some r → s.mayIssue a.val opWait c r = true →
     ∃ u, Sys2Proof.Machine.exec (.wait a c t) s = .next u ∧ (
       u.sync = { s.sync with waiters := s.sync.waiters ++ [⟨Bits.fld (w (s.cueWords a.val r) 1) 10 0, a.val, Bits.fld (w (s.cueWords a.val r) 1) 31 16, Bits.bit (w (s.cueWords a.val r) 0) 8, u.now⟩] } ∧
       u.arrAt a.val = { s.arrAt a.val with run := some { r.stepped (s.cueWords a.val r) u.now with block := .wait (Bits.fld (w (s.cueWords a.val r) 1) 10 0) (Bits.fld (w (s.cueWords a.val r) 1) 31 16) (Bits.bit (w (s.cueWords a.val r) 0) 8) } } ∧ ArraysBut (fun b => b == a.val) s u ∧
       Within [.sync, .arr, .dict, .memc, .clock] s u ∧ ObjsBut (fun i j => i == 0x5040 + a.val && (j == 1 || j == 2)) s u)) ∧
  (∀ (s : State) (light : Fin 2048) (t : Nat),
     ∀ x, (s.sync.waiters.find? fun x => x.light = light.val) = some x → x.n ≤ s.light light.val → s.frozen = false → s.canonical = true →
     s.sync.taps = [] → x.array < 16 → ∀ r, (s.arrAt x.array).run = some r → r.rewind = false → r.ending = false →
     (match r.block with | .wait _ _ _ => true | _ => false) = true →
     ∃ u, Sys2Proof.Machine.exec (.waitComplete light t) s = .next u ∧ (
       u.light light.val = (if x.peek then s.light light.val else s.light light.val - x.n) ∧
       u.sync = { s.sync with waiters := s.sync.waiters.filter fun y => decide (y.array ≠ x.array) } ∧
       u.arrAt x.array = { s.arrAt x.array with run := some { r with block := .none, progress := u.now } } ∧ ArraysBut (fun b => b == x.array) s u ∧
       Within [.sync, .arr, .dict, .clock, .pwr, .mem, .memc, .obs] s u ∧
       Notes (fun i j => i == 0x5400 && j == light.val + 1 || i == 0x5040 + x.array && (j == 1 || j == 2)) s u)) ∧
  (∀ (s : State) (light : Fin 2048) (t : Nat),
     (s.frozen = true ∨ (s.sync.waiters.find? fun x => x.light = light.val).all (fun x => decide (s.light light.val < x.n)) = true) →
     ∃ u, Sys2Proof.Machine.exec (.waitComplete light t) s = .next u ∧ (
       Within [.clock] s u)) ∧
  (∀ (s : State) (a : Fin 16) (c : CueCheck) (t : Nat),
     ∀ r, s.issuing a.val = some r → s.mayIssue a.val opSignal c r = true → r.fly = [] → s.canonical = true → s.sync.taps = [] →
     Bits.fld (w (s.cueWords a.val r) 2) 31 30 = 0 → s.light (Bits.fld (w (s.cueWords a.val r) 1) 10 0) + (Bits.fld (w (s.cueWords a.val r) 1) 31 16) ≤ 65535 → Bits.bit (w (s.cueWords a.val r) 0) 15 = false →
     ∃ u, Sys2Proof.Machine.exec (.signal a c t) s = .next u ∧ (
       u.light (Bits.fld (w (s.cueWords a.val r) 1) 10 0) = s.light (Bits.fld (w (s.cueWords a.val r) 1) 10 0) + (Bits.fld (w (s.cueWords a.val r) 1) 31 16) ∧ u.sync = { s.sync with adds := u.sync.adds } ∧
       u.arrAt a.val = { s.arrAt a.val with run := some ((r.stepped (s.cueWords a.val r) u.now).setRestart (s.pointAfter a.val r)) } ∧ ArraysBut (fun b => b == a.val) s u ∧ Within [.sync, .arr, .dict, .memc, .clock] s u ∧
       ObjsBut (fun i j => i == 0x5040 + a.val && (j == 1 || j == 2) || i == 0x5400 && j == (Bits.fld (w (s.cueWords a.val r) 1) 10 0) + 1) s u)) ∧
  (∀ (s : State) (a : Fin 16) (c : CueCheck) (t : Nat),
     ∀ r, s.issuing a.val = some r → s.mayIssue a.val opSignal c r = true → r.fly = [] → s.canonical = true → s.sync.taps = [] →
     Bits.fld (w (s.cueWords a.val r) 2) 31 30 = 0 → 65535 < s.light (Bits.fld (w (s.cueWords a.val r) 1) 10 0) + (Bits.fld (w (s.cueWords a.val r) 1) 31 16) → Bits.bit (w (s.cueWords a.val r) 0) 15 = false →
     ∃ u, Sys2Proof.Machine.exec (.signal a c t) s = .next u ∧ (
       u.light (Bits.fld (w (s.cueWords a.val r) 1) 10 0) = 65535 ∧ u.obj 0x5004 0 = (s.obj 0x5004 0 + 1) % 2 ^ 64 ∧ Reported 0x08 s u ∧
       u.stand a.val = some (r.pos.next, r.pos, .none) ∧ ArraysBut (fun b => b == a.val) s u ∧
       Within [.sync, .arr, .dict, .clock, .pwr, .mem, .memc, .obs, .odp, .out, .flash, .rel, .free] s u ∧
       Notes (fun i j => i == 0x5040 + a.val && (j == 1 || j == 2) || i == 0x5400 && j == (Bits.fld (w (s.cueWords a.val r) 1) 10 0) + 1 || i == 0x5004 && j == 0) s u)) ∧
  (∀ (s : State) (a : Fin 16) (c : CueCheck) (t : Nat),
     ∀ r, s.issuing a.val = some r → s.mayIssue a.val opSignal c r = true → r.fly = [] → s.canonical = true →
     Bits.fld (w (s.cueWords a.val r) 2) 31 30 = 1 → s.trigOn (Bits.fld (w (s.cueWords a.val r) 1) 10 0) = true → s.trigSource (Bits.fld (w (s.cueWords a.val r) 1) 10 0) = 5 → s.posts (Bits.fld (w (s.cueWords a.val r) 1) 10 0) (s.at t).firingModel = true → Bits.bit (w (s.cueWords a.val r) 0) 15 = false →
     ∃ u, Sys2Proof.Machine.exec (.signal a c t) s = .next u ∧ (
       s.Posted u (Bits.fld (w (s.cueWords a.val r) 1) 10 0) (s.at t).firingModel (w (s.cueWords a.val r) 3) u.now ∧ u.stand a.val = some (r.pos.next, r.pos, .none) ∧
       ArraysBut (fun b => b == a.val || b == s.trigArray (Bits.fld (w (s.cueWords a.val r) 1) 10 0)) s u ∧ Within [.arr, .dict, .mem, .memc, .clock] s u)) ∧
  (∀ (s : State) (a : Fin 16) (c : CueCheck) (t : Nat),
     ∀ r, s.issuing a.val = some r → s.mayIssue a.val opSignal c r = true → r.fly ≠ [] →
     ∃ u, Sys2Proof.Machine.exec (.signal a c t) s = .next u ∧ (
       u.arrAt a.val = { s.arrAt a.val with run := some { r.stepped (s.cueWords a.val r) u.now with
            block := .signal (Bits.fld (w (s.cueWords a.val r) 1) 10 0) (Bits.fld (w (s.cueWords a.val r) 1) 31 16) (Bits.bit (w (s.cueWords a.val r) 2) 30)
             (if Bits.bit (w (s.cueWords a.val r) 2) 31 = true then some (Bits.fld (w (s.cueWords a.val r) 2) 8 0) else none) (w (s.cueWords a.val r) 3) } } ∧ ArraysBut (fun b => b == a.val) s u ∧ Within [.arr, .dict, .memc, .clock] s u ∧ ObjsBut (fun i j => i == 0x5040 + a.val && (j == 1 || j == 2)) s u)) ∧
  (∀ (s : State) (a : Fin 16) (c : CueCheck) (t : Nat),
     ∀ r, s.issuing a.val = some r → s.mayIssue a.val opSignal c r = true → r.fly = [] → Bits.bit (w (s.cueWords a.val r) 2) 31 = true →
     Bits.fld (w (s.cueWords a.val r) 2) 8 0 ≠ s.moduleNo → s.reachesNo (Bits.fld (w (s.cueWords a.val r) 2) 8 0) = true →
     ∃ u, Sys2Proof.Machine.exec (.signal a c t) s = .next u ∧ (
       (∃ x, u.out = .doorbellOut s.fab.nextOp (Bits.fld (w (s.cueWords a.val r) 2) 8 0)
         (if Bits.bit (w (s.cueWords a.val r) 2) 30 = true then .trigger (Bits.fld (w (s.cueWords a.val r) 1) 10 0) (w (s.cueWords a.val r) 3) else .light (Bits.fld (w (s.cueWords a.val r) 1) 10 0) (Bits.fld (w (s.cueWords a.val r) 1) 31 16)) x :: s.out) ∧
       u.arrAt a.val = { s.arrAt a.val with run := some { r.stepped (s.cueWords a.val r) u.now with block := .doorbell s.fab.nextOp } } ∧ ArraysBut (fun b => b == a.val) s u ∧
       u.fab = { s.fab with nextOp := s.fab.nextOp + 1, ops := u.fab.ops, rot := u.fab.rot } ∧ u.fab.ops.length = s.fab.ops.length + 1 ∧
       Within [.out, .fab, .arr, .dict, .memc, .free, .clock] s u ∧ ObjsBut (fun i j => i == 0x5040 + a.val && (j == 1 || j == 2)) s u)) ∧
  (∀ (s : State) (a : Fin 16) (c : CueCheck) (t : Nat),
     ∀ r, s.issuing a.val = some r → s.mayIssue a.val opSignal c r = true → r.fly = [] → Bits.bit (w (s.cueWords a.val r) 2) 31 = true →
     Bits.fld (w (s.cueWords a.val r) 2) 8 0 ≠ s.moduleNo → s.reachesNo (Bits.fld (w (s.cueWords a.val r) 2) 8 0) = false → s.canonical = true →
     ∃ u, Sys2Proof.Machine.exec (.signal a c t) s = .next u ∧ (
       u.obj 0x7820 4 = (s.obj 0x7820 4 + 1) % 2 ^ 64 ∧ u.arrAt a.val = { s.arrAt a.val with run := some { r.stepped (s.cueWords a.val r) u.now with block := .doorbell s.fab.nextOp } } ∧ ArraysBut (fun b => b == a.val) s u ∧
       u.fab = { s.fab with nextOp := s.fab.nextOp + 1 } ∧ Within [.fab, .arr, .dict, .memc, .clock] s u ∧
       ObjsBut (fun i j => i == 0x5040 + a.val && (j == 1 || j == 2) || i == 0x7820 && j == 4) s u)) ∧
  (∀ (s : State) (a : Fin 16) (c : CueCheck) (t : Nat),
     ∀ r, s.issuing a.val = some r → s.mayIssue a.val opFence c r = true → Bits.bit (w (s.cueWords a.val r) 0) 15 = false →
     ∃ u, Sys2Proof.Machine.exec (.fence a c t) s = .next u ∧ (
       u.arrAt a.val = { s.arrAt a.val with run := some { r.stepped (s.cueWords a.val r) u.now with block := if r.fenced (Bits.fld (w (s.cueWords a.val r) 1) 5 0) = true then .fence (Bits.fld (w (s.cueWords a.val r) 1) 5 0) else .none } } ∧ ArraysBut (fun b => b == a.val) s u ∧
       Within [.arr, .dict, .memc, .clock] s u ∧ ObjsBut (fun i j => i == 0x5040 + a.val && (j == 1 || j == 2)) s u)) ∧
  (∀ (s : State) (a : Fin 16) (t : Nat),
     ∀ r, (s.arrAt a.val).run = some r → ∀ x, r.block = .fence x → r.fenced x = false →
     s.frozen = false → r.rewind = false → r.ending = false →
     ∃ u, Sys2Proof.Machine.exec (.fenceComplete a t) s = .next u ∧ (
       u.arrAt a.val = { s.arrAt a.val with run := some { r with block := .none, progress := u.now } } ∧ ArraysBut (fun b => b == a.val) s u ∧ Within [.arr, .dict, .clock] s u ∧ ObjsBut (fun i j => i == 0x5040 + a.val && (j == 1 || j == 2)) s u)) ∧
  (∀ (s : State) (a : Fin 16) (t : Nat),
     (s.frozen = true ∨ ((s.arrAt a.val).run.all fun r => match r.block with | .fence x => r.fenced x | _ => true) = true) →
     ∃ u, Sys2Proof.Machine.exec (.fenceComplete a t) s = .next u ∧ (
       Within [.clock] s u)) ∧
  (∀ (s : State) (a : Fin 16) (c : CueCheck) (t : Nat),
     ∀ r, s.issuing a.val = some r → s.mayIssue a.val opHold c r = true → Bits.bit (w (s.cueWords a.val r) 0) 15 = false →
     ∃ u, Sys2Proof.Machine.exec (.hold a c t) s = .next u ∧ (
       u.arrAt a.val = { s.arrAt a.val with run := some { r.stepped (s.cueWords a.val r) u.now with
            block := if (r.stepped (s.cueWords a.val r) u.now).evt + w (s.cueWords a.val r) 1 ≤ u.now then .none
             else .hold ((r.stepped (s.cueWords a.val r) u.now).evt + w (s.cueWords a.val r) 1) } } ∧ ArraysBut (fun b => b == a.val) s u ∧ Within [.arr, .dict, .memc, .clock] s u ∧ ObjsBut (fun i j => i == 0x5040 + a.val && (j == 1 || j == 2)) s u)) ∧
  (∀ (s : State) (a : Fin 16) (t : Nat),
     ∀ r, (s.arrAt a.val).run = some r → ∀ x, r.block = .hold x → x ≤ (s.at t).now →
     s.frozen = false → r.rewind = false → r.ending = false →
     ∃ u, Sys2Proof.Machine.exec (.holdComplete a t) s = .next u ∧ (
       u.arrAt a.val = { s.arrAt a.val with run := some { r with block := .none, progress := u.now } } ∧ ArraysBut (fun b => b == a.val) s u ∧ Within [.arr, .dict, .clock] s u ∧ ObjsBut (fun i j => i == 0x5040 + a.val && (j == 1 || j == 2)) s u)) ∧
  (∀ (s : State) (a : Fin 16) (t : Nat),
     (s.frozen = true ∨ ((s.arrAt a.val).run.all fun r => match r.block with | .hold x => decide ((s.at t).now < x) | _ => true) = true) →
     ∃ u, Sys2Proof.Machine.exec (.holdComplete a t) s = .next u ∧ (
       Within [.clock] s u)) ∧
  (∀ (s : State) (a : Fin 16) (c : CueCheck) (t : Nat),
     s.nextIs a.val opWait = false → ∃ u, Sys2Proof.Machine.exec (.wait a c t) s = .next u ∧ (
       Within [.clock] s u)) ∧
  (∀ (s : State) (a : Fin 16) (c : CueCheck) (t : Nat),
     s.nextIs a.val opSignal = false → ∃ u, Sys2Proof.Machine.exec (.signal a c t) s = .next u ∧ (
       Within [.clock] s u)) ∧
  (∀ (s : State) (a : Fin 16) (c : CueCheck) (t : Nat),
     s.nextIs a.val opFence = false → ∃ u, Sys2Proof.Machine.exec (.fence a c t) s = .next u ∧ (
       Within [.clock] s u)) ∧
  (∀ (s : State) (a : Fin 16) (c : CueCheck) (t : Nat),
     s.nextIs a.val opHold = false → ∃ u, Sys2Proof.Machine.exec (.hold a c t) s = .next u ∧ (
       Within [.clock] s u))

/-- LOOP with a count pushes a frame and goes on; with count 0 it goes on after its matching ENDLOOP; ENDLOOP goes back to the cue
after the LOOP while iterations remain and else drops the frame. CALL pushes its return position and goes to the body, which
lies in ring SRAM or the library; RETURN goes back, or at depth 0 of a launched list ends it. A LOOP or CALL below four frames,
a CALL elsewhere, and an ENDLOOP or RETURN that matches nothing are illegal cues. RESTART makes the next cue the restart point.
MARK and UNMARK only write their marker record, which takes the next logbook sequence number and stands at the write offset; a
MARK of the range id of 0x8810:03 pulses EVT_OUT. Otherwise nothing but house time changes. (spec/08_prompters.md, Field layouts
by opcode, spec/08_prompters.md, Loops and calls, spec/08_prompters.md, Restart points, spec/09_memory.md, Regions,
spec/16_observability.md, The logbook, spec/16_observability.md, Range markers) -/
def Obligations.BranchCues : Prop :=
  (∀ (s : State) (a : Fin 16) (c : CueCheck) (t : Nat),
     ∀ r, s.issuing a.val = some r → s.mayIssue a.val opLoop c r = true → Bits.bit (w (s.cueWords a.val r) 0) 15 = false → r.stack.length < 4 →
     Bits.fld (w (s.cueWords a.val r) 1) 16 0 ≠ 0 →
     ∃ u, Sys2Proof.Machine.exec (.loop a c t) s = .next u ∧ (
       u.arrAt a.val = { s.arrAt a.val with run := some { r.stepped (s.cueWords a.val r) u.now with
            stack := .loop r.pos.next (Bits.fld (w (s.cueWords a.val r) 1) 16 0) 0 (Bits.toInt 16 (Bits.fld (w (s.cueWords a.val r) 2) 31 16))
             (Bits.toInt 16 (Bits.fld (w (s.cueWords a.val r) 2) 15 0)) (Bits.toInt 32 (w (s.cueWords a.val r) 3)) :: r.stack } } ∧ ArraysBut (fun b => b == a.val) s u ∧ Within [.arr, .dict, .memc, .clock] s u ∧ ObjsBut (fun i j => i == 0x5040 + a.val && (j == 1 || j == 2)) s u)) ∧
  (∀ (s : State) (a : Fin 16) (c : CueCheck) (t : Nat),
     ∀ r, s.issuing a.val = some r → s.mayIssue a.val opLoop c r = true → Bits.bit (w (s.cueWords a.val r) 0) 15 = false → Bits.fld (w (s.cueWords a.val r) 1) 16 0 = 0 →
     ∀ p e, s.matchEnd a.val r searchCues 0 r.pos.next = .after p e → e = false →
     ∃ u, Sys2Proof.Machine.exec (.loop a c t) s = .next u ∧ (
       u.arrAt a.val = { s.arrAt a.val with run := some { r.stepped (s.cueWords a.val r) u.now with pos := p } } ∧ ArraysBut (fun b => b == a.val) s u ∧ Within [.arr, .dict, .memc, .clock] s u ∧ ObjsBut (fun i j => i == 0x5040 + a.val && (j == 1 || j == 2)) s u)) ∧
  (∀ (s : State) (a : Fin 16) (c : CueCheck) (t : Nat),
     ∀ r, s.issuing a.val = some r → s.mayIssue a.val opLoop c r = true → r.impliedFlying = false → s.canonical = true →
     Bits.fld (w (s.cueWords a.val r) 1) 16 0 ≠ 0 → 4 ≤ r.stack.length → r.retries + 1 ≤ s.get 0x5003 0 →
     ∃ u, Sys2Proof.Machine.exec (.loop a c t) s = .next u ∧ (
       u.arrAt a.val = { ((s.arrAt a.val).discard r.restart.written) with front := r.restart.front, run := some (r.rewound none) } ∧
       ArraysBut (fun b => b == a.val) s u ∧ Reported 0x03 s u ∧ u.obj (0x5040 + a.val) 4 = (s.obj (0x5040 + a.val) 4 + 1) % 2 ^ 64 ∧
       Within [.arr, .dict, .clock, .pwr, .mem, .memc, .obs, .odp, .out, .flash, .rel, .free] s u ∧
       Notes (fun i j => i == 0x5040 + a.val && (j == 1 || j == 2 || j == 4)) s u)) ∧
  (∀ (s : State) (a : Fin 16) (c : CueCheck) (t : Nat),
     ∀ r, s.issuing a.val = some r → s.mayIssue a.val opEndloop c r = true → Bits.bit (w (s.cueWords a.val r) 0) 15 = false →
     ∀ p n i x y z l, r.stack = .loop p n i x y z :: l →
     ∃ u, Sys2Proof.Machine.exec (.endloop a c t) s = .next u ∧ (
       u.arrAt a.val = { s.arrAt a.val with run := some { r.stepped (s.cueWords a.val r) u.now with
            pos := if i + 1 < n then p else r.pos.next, stack := if i + 1 < n then .loop p n (i + 1) x y z :: l else l } } ∧ ArraysBut (fun b => b == a.val) s u ∧
       Within [.arr, .dict, .memc, .clock] s u ∧ ObjsBut (fun i j => i == 0x5040 + a.val && (j == 1 || j == 2)) s u)) ∧
  (∀ (s : State) (a : Fin 16) (c : CueCheck) (t : Nat),
     ∀ r, s.issuing a.val = some r → s.mayIssue a.val opEndloop c r = true → r.impliedFlying = false → s.canonical = true →
     (match r.stack with | .loop _ _ _ _ _ _ :: _ => false | _ => true) = true → r.retries + 1 ≤ s.get 0x5003 0 →
     ∃ u, Sys2Proof.Machine.exec (.endloop a c t) s = .next u ∧ (
       u.arrAt a.val = { ((s.arrAt a.val).discard r.restart.written) with front := r.restart.front, run := some (r.rewound none) } ∧
       ArraysBut (fun b => b == a.val) s u ∧ Reported 0x03 s u ∧ u.obj (0x5040 + a.val) 4 = (s.obj (0x5040 + a.val) 4 + 1) % 2 ^ 64 ∧
       Within [.arr, .dict, .clock, .pwr, .mem, .memc, .obs, .odp, .out, .flash, .rel, .free] s u ∧
       Notes (fun i j => i == 0x5040 + a.val && (j == 1 || j == 2 || j == 4)) s u)) ∧
  (∀ (s : State) (a : Fin 16) (c : CueCheck) (t : Nat),
     ∀ r, s.issuing a.val = some r → s.mayIssue a.val opCall c r = true → Bits.bit (w (s.cueWords a.val r) 0) 15 = false → r.stack.length < 4 →
     s.cueAddrOk (w (s.cueWords a.val r) 1) = true → Bits.bit (w (s.cueWords a.val r) 0) 8 = false →
     ∃ u, Sys2Proof.Machine.exec (.call a c t) s = .next u ∧ (
       u.arrAt a.val = { s.arrAt a.val with run := some { r.stepped (s.cueWords a.val r) u.now with pos := .body (w (s.cueWords a.val r) 1), stack := .call r.pos.next :: r.stack } } ∧ ArraysBut (fun b => b == a.val) s u ∧ Within [.arr, .dict, .memc, .clock] s u ∧ ObjsBut (fun i j => i == 0x5040 + a.val && (j == 1 || j == 2)) s u)) ∧
  (∀ (s : State) (a : Fin 16) (c : CueCheck) (t : Nat),
     ∀ r, s.issuing a.val = some r → s.mayIssue a.val opCall c r = true → r.impliedFlying = false → s.canonical = true →
     (Bits.bit (w (s.cueWords a.val r) 0) 8 = true ∨ 4 ≤ r.stack.length ∨ s.cueAddrOk (w (s.cueWords a.val r) 1) = false) → r.retries + 1 ≤ s.get 0x5003 0 →
     ∃ u, Sys2Proof.Machine.exec (.call a c t) s = .next u ∧ (
       u.arrAt a.val = { ((s.arrAt a.val).discard r.restart.written) with front := r.restart.front, run := some (r.rewound none) } ∧
       ArraysBut (fun b => b == a.val) s u ∧ Reported 0x03 s u ∧ u.obj (0x5040 + a.val) 4 = (s.obj (0x5040 + a.val) 4 + 1) % 2 ^ 64 ∧
       Within [.arr, .dict, .clock, .pwr, .mem, .memc, .obs, .odp, .out, .flash, .rel, .free] s u ∧
       Notes (fun i j => i == 0x5040 + a.val && (j == 1 || j == 2 || j == 4)) s u)) ∧
  (∀ (s : State) (a : Fin 16) (c : CueCheck) (t : Nat),
     ∀ r, s.issuing a.val = some r → s.mayIssue a.val opReturn c r = true → Bits.bit (w (s.cueWords a.val r) 0) 15 = false →
     ∀ p l, r.stack = .call p :: l →
     ∃ u, Sys2Proof.Machine.exec (.ret a c t) s = .next u ∧ (
       u.arrAt a.val = { s.arrAt a.val with run := some { r.stepped (s.cueWords a.val r) u.now with pos := p, stack := l } } ∧ ArraysBut (fun b => b == a.val) s u ∧ Within [.arr, .dict, .memc, .clock] s u ∧ ObjsBut (fun i j => i == 0x5040 + a.val && (j == 1 || j == 2)) s u)) ∧
  (∀ (s : State) (a : Fin 16) (c : CueCheck) (t : Nat),
     ∀ r, s.issuing a.val = some r → s.mayIssue a.val opReturn c r = true → r.stack = [] → r.launched = true → r.fly = [] → s.canonical = true →
     r.ring < 16 → r.skip = none → (s.arrAt a.val).dead = [] →
     ∃ u, Sys2Proof.Machine.exec (.ret a c t) s = .next u ∧ (
       (u.arrAt a.val).run = none ∧ u.obj (0x5040 + a.val) 3 = (s.obj (0x5040 + a.val) 3 + 1) % 2 ^ 64 ∧
       u.consumer a.val r.ring = s.endOf a.val r.ring r.start ∧ ArraysBut (fun b => b == a.val) s u ∧ Within [.arr, .dict, .memc, .clock] s u ∧
       ObjsBut (fun i j => listObj a.val r.ring i j) s u)) ∧
  (∀ (s : State) (a : Fin 16) (c : CueCheck) (t : Nat),
     ∀ r, s.issuing a.val = some r → s.mayIssue a.val opReturn c r = true → r.impliedFlying = false → s.canonical = true →
     (match r.stack with | .call _ :: _ => false | [] => !r.launched | _ => true) = true → r.retries + 1 ≤ s.get 0x5003 0 →
     ∃ u, Sys2Proof.Machine.exec (.ret a c t) s = .next u ∧ (
       u.arrAt a.val = { ((s.arrAt a.val).discard r.restart.written) with front := r.restart.front, run := some (r.rewound none) } ∧
       ArraysBut (fun b => b == a.val) s u ∧ Reported 0x03 s u ∧ u.obj (0x5040 + a.val) 4 = (s.obj (0x5040 + a.val) 4 + 1) % 2 ^ 64 ∧
       Within [.arr, .dict, .clock, .pwr, .mem, .memc, .obs, .odp, .out, .flash, .rel, .free] s u ∧
       Notes (fun i j => i == 0x5040 + a.val && (j == 1 || j == 2 || j == 4)) s u)) ∧
  (∀ (s : State) (a : Fin 16) (c : CueCheck) (t : Nat),
     ∀ r, s.issuing a.val = some r → s.mayIssue a.val opRestart c r = true → Bits.bit (w (s.cueWords a.val r) 0) 15 = false →
     ∃ u, Sys2Proof.Machine.exec (.restart a c t) s = .next u ∧ (
       u.arrAt a.val = { s.arrAt a.val with run := some ((r.stepped (s.cueWords a.val r) u.now).setRestart (s.pointAfter a.val r)) } ∧ ArraysBut (fun b => b == a.val) s u ∧ Within [.arr, .dict, .memc, .clock] s u ∧ ObjsBut (fun i j => i == 0x5040 + a.val && (j == 1 || j == 2)) s u)) ∧
  (∀ (s : State) (a : Fin 16) (c : CueCheck) (t : Nat),
     ∀ r, s.issuing a.val = some r → s.mayIssue a.val opMark c r = true → s.obs.lost = [] → s.logFull 1 = false → s.canonical = true →
     s.isStretched a.val = false → s.pwr.stretched.testBit a.val = false → Bits.bit (w (s.cueWords a.val r) 0) 15 = false →
     ∃ u, Sys2Proof.Machine.exec (.mark a c t) s = .next u ∧ (
       u.obj 0x880B 0 = (s.obj 0x880B 0 + 1) % 2 ^ 32 ∧
       u.memRead (s.regionBase 3 + s.get 0x8809 0) 64 = Bits.natLe 8 u.now ++ Bits.natLe 4 (s.get 0x880B 0) ++ Bits.natLe 1 0x10 ++ Bits.natLe 1 0 ++
         Bits.natLe 1 1 ++ Bits.natLe 1 a.val ++ markBody (Bits.fld (w (s.cueWords a.val r) 1) 15 0) a.val 0 r.pos.seq r.acc [] ∧
       BytesBut (fun x => decide (s.regionBase 3 + s.get 0x8809 0 ≤ x) && decide (x < s.regionBase 3 + s.get 0x8809 0 + 64)) s u ∧
       u.pwr.evtOut = (s.pwr.evtOut || decide (Bits.fld (w (s.cueWords a.val r) 1) 15 0 = s.get 0x8810 3) && s.flag 0x8810 2) ∧
       u.arrAt a.val = { s.arrAt a.val with run := some (r.stepped (s.cueWords a.val r) u.now) } ∧ ArraysBut (fun b => b == a.val) s u ∧ Within [.arr, .dict, .clock, .pwr, .mem, .memc, .obs, .out] s u ∧
       ObjsBut (fun i j => i == 0x5040 + a.val && (j == 1 || j == 2) || noteObj i) s u)) ∧
  (∀ (s : State) (a : Fin 16) (c : CueCheck) (t : Nat),
     ∀ r, s.issuing a.val = some r → s.mayIssue a.val opUnmark c r = true → s.obs.lost = [] → s.logFull 1 = false → s.canonical = true →
     s.isStretched a.val = false → s.pwr.stretched.testBit a.val = false → Bits.bit (w (s.cueWords a.val r) 0) 15 = false →
     ∃ u, Sys2Proof.Machine.exec (.unmark a c t) s = .next u ∧ (
       u.obj 0x880B 0 = (s.obj 0x880B 0 + 1) % 2 ^ 32 ∧
       u.memRead (s.regionBase 3 + s.get 0x8809 0) 64 = Bits.natLe 8 u.now ++ Bits.natLe 4 (s.get 0x880B 0) ++ Bits.natLe 1 0x11 ++ Bits.natLe 1 0 ++
         Bits.natLe 1 1 ++ Bits.natLe 1 a.val ++ markBody (Bits.fld (w (s.cueWords a.val r) 1) 15 0) a.val 0 r.pos.seq r.acc [] ∧
       BytesBut (fun x => decide (s.regionBase 3 + s.get 0x8809 0 ≤ x) && decide (x < s.regionBase 3 + s.get 0x8809 0 + 64)) s u ∧
       u.arrAt a.val = { s.arrAt a.val with run := some (r.stepped (s.cueWords a.val r) u.now) } ∧ ArraysBut (fun b => b == a.val) s u ∧ Within [.arr, .dict, .clock, .pwr, .mem, .memc, .obs] s u ∧
       ObjsBut (fun i j => i == 0x5040 + a.val && (j == 1 || j == 2) || noteObj i) s u)) ∧
  (∀ (s : State) (a : Fin 16) (c : CueCheck) (t : Nat),
     s.nextIs a.val opLoop = false → ∃ u, Sys2Proof.Machine.exec (.loop a c t) s = .next u ∧ (
       Within [.clock] s u)) ∧
  (∀ (s : State) (a : Fin 16) (c : CueCheck) (t : Nat),
     s.nextIs a.val opEndloop = false → ∃ u, Sys2Proof.Machine.exec (.endloop a c t) s = .next u ∧ (
       Within [.clock] s u)) ∧
  (∀ (s : State) (a : Fin 16) (c : CueCheck) (t : Nat),
     s.nextIs a.val opCall = false → ∃ u, Sys2Proof.Machine.exec (.call a c t) s = .next u ∧ (
       Within [.clock] s u)) ∧
  (∀ (s : State) (a : Fin 16) (c : CueCheck) (t : Nat),
     s.nextIs a.val opReturn = false → ∃ u, Sys2Proof.Machine.exec (.ret a c t) s = .next u ∧ (
       Within [.clock] s u)) ∧
  (∀ (s : State) (a : Fin 16) (c : CueCheck) (t : Nat),
     s.nextIs a.val opRestart = false → ∃ u, Sys2Proof.Machine.exec (.restart a c t) s = .next u ∧ (
       Within [.clock] s u)) ∧
  (∀ (s : State) (a : Fin 16) (c : CueCheck) (t : Nat),
     s.nextIs a.val opMark = false → ∃ u, Sys2Proof.Machine.exec (.mark a c t) s = .next u ∧ (
       Within [.clock] s u)) ∧
  (∀ (s : State) (a : Fin 16) (c : CueCheck) (t : Nat),
     s.nextIs a.val opUnmark = false → ∃ u, Sys2Proof.Machine.exec (.unmark a c t) s = .next u ∧ (
       Within [.clock] s u))

/-- POST_CUE to a ring with room stores the cue in the slot of the producer index, advances it and is answered with success; to a
full ring it is answered 0x0800_003D. A trigger that fires and may be posted appends one launch cue with its accession, launch
word and event time: FIRE by its object, CLOCK_TRIGGER_FIRE at its latest occurrence, counting those passed over,
CUE_LIGHT_TRIGGER_FIRE taking its threshold from the light, and PENDING_FIRING_APPEND once nothing holds it back; while
something does, the firing waits. Outside RUN a firing is only counted as suppressed. CUE_LIGHT_SIGNAL adds to its light, at
most 65,535. CLEAR_FALLBACK marks the probed record's fallback to be cleared. Not due, nothing but house time changes.
(spec/06_quantisation.md, Clipping and fallback to a non-uniform grid, spec/08_prompters.md, Rings and lists,
spec/08_prompters.md, Launch words, spec/08_prompters.md, Cue lights, spec/08_prompters.md, Triggers) -/
def Obligations.TriggerCommands : Prop :=
  (∀ (s : State) (r : Req) (a ring : Fin 16) (cue : Bytes),
     ∀ u, s.Writable r (ringObj a.val ring.val) 9 (Bits.leNat cue) u → cue.length = 32 → u.canonical = true →
     (u.flag 0x8000 0 = false ∨ a.val % 2 = 0) → (u.arrAt a.val).instKind < 2 → u.ringFull a.val ring.val = false → (u.arrAt a.val).tails = [] →
     Sparse.wf memDefault (u.arrAt a.val).rings = true →
     ∃ w, Sys2Proof.Machine.exec (.postCue r a ring cue) s = .next w ∧ (
       w.Answered svcWrite r (ringObj a.val ring.val) 9 0 [] ∧ w.producer a.val ring.val = (s.producer a.val ring.val + 1) % 2 ^ 32 ∧
       w.cueAt a.val (s.slotAddr a.val ring.val (s.producer a.val ring.val)) = cue ∧
       (w.arrAt a.val).openRings.contains ring.val =
         !(Bits.bit (cueWord cue 0) 15 || isLaunch cue && !((s.arrAt a.val).openRings.contains ring.val)) ∧
       w.arrAt a.val = { s.arrAt a.val with
         rings := (w.arrAt a.val).rings, openRings := (w.arrAt a.val).openRings, hostLaunch := (w.arrAt a.val).hostLaunch } ∧
       ArraysBut (fun b => b == a.val) s w ∧
       BytesBut (fun x => s.slotAddr a.val ring.val (s.producer a.val ring.val) / 2 ^ 31 == 1 &&
         x / 32 == s.slotAddr a.val ring.val (s.producer a.val ring.val) % 2 ^ 30) s w ∧
       Served [.arr, .mem, .memc] (fun i j => i == ringObj a.val ring.val && j == 7) s u w)) ∧
  (∀ (s : State) (r : Req) (a ring : Fin 16) (cue : Bytes),
     ∀ u, s.Writable r (ringObj a.val ring.val) 9 (Bits.leNat cue) u → cue.length = 32 →
     (u.flag 0x8000 0 = false ∨ a.val % 2 = 0) → (u.arrAt a.val).instKind < 2 → u.ringFull a.val ring.val = true →
     ∃ w, Sys2Proof.Machine.exec (.postCue r a ring cue) s = .next w ∧ (
       w.Answered svcWrite r (ringObj a.val ring.val) 9 0x0800003D [] ∧ Served [] noObj s u w)) ∧
  (∀ (s : State) (r : Req) (a ring : Fin 16) (cue : Bytes),
     ∀ u, s.Writable r (ringObj a.val ring.val) 9 (Bits.leNat cue) u → cue.length = 32 →
     (u.flag 0x8000 0 = false ∨ a.val % 2 = 0) → 2 ≤ (u.arrAt a.val).instKind →
     ∃ w, Sys2Proof.Machine.exec (.postCue r a ring cue) s = .next w ∧ (
       w.Answered svcWrite r (ringObj a.val ring.val) 9 0x0800004C [] ∧ Served [] noObj s u w)) ∧
  (∀ (s : State) (r : Req) (trig : Fin 512) (v : Nat),
     ∀ u, s.Writable r (0x5200 + trig.val) 9 v u → v < 2 ^ 32 → u.trigOn trig.val = true → u.trigSource trig.val = 4 → u.canonical = true →
     u.posts trig.val u.firingModel = true →
     ∃ w, Sys2Proof.Machine.exec (.fire r trig v) s = .next w ∧ (
       w.Answered svcWrite r (0x5200 + trig.val) 9 0 [] ∧ u.Posted w trig.val u.firingModel v u.now ∧ ArraysBut (fun b => b == s.trigArray trig.val) s w ∧
       Served [.arr, .mem, .memc] (fun i j => i == 0x5200 + trig.val && j == 0xB || i == ringObj (s.trigArray trig.val) (s.trigRing trig.val) && j == 7 ||
         i == 0x5040 + s.trigArray trig.val && j == 7) s u w)) ∧
  (∀ (s : State) (r : Req) (trig : Fin 512) (v : Nat),
     ∀ u, s.Writable r (0x5200 + trig.val) 9 v u → v < 2 ^ 32 → u.trigOn trig.val = true → u.trigSource trig.val = 4 → u.canonical = true →
     u.dev.st = .run → (u.listAddr u.firingModel (u.get (0x5200 + trig.val) 4) (u.trigArray trig.val)).isSome = true → (u.trig trig.val).wait = none →
     u.mustWait trig.val ⟨u.firingModel, 0, 0, none⟩ = true →
     ∃ w, Sys2Proof.Machine.exec (.fire r trig v) s = .next w ∧ (
       w.Answered svcWrite r (0x5200 + trig.val) 9 0 [] ∧
       w.trig trig.val = { s.trig trig.val with wait := some ⟨u.firingModel, v, u.now, none⟩ } ∧ TrigsBut (fun x => x == trig.val) s w ∧
       w.sync = { s.sync with trigs := w.sync.trigs } ∧ Served [.sync] noObj s u w)) ∧
  (∀ (s : State) (r : Req) (trig : Fin 512) (v : Nat),
     ∀ u, s.Writable r (0x5200 + trig.val) 9 v u → u.trigOn trig.val = true → u.trigSource trig.val = 4 → u.dev.st ≠ .run → u.canonical = true →
     ∃ w, Sys2Proof.Machine.exec (.fire r trig v) s = .next w ∧ (
       w.Answered svcWrite r (0x5200 + trig.val) 9 0 [] ∧ w.obj (0x5200 + trig.val) 0xD = (s.obj (0x5200 + trig.val) 0xD + 1) % 2 ^ 64 ∧
       Served [] (fun i j => i == 0x5200 + trig.val && j == 0xD) s u w)) ∧
  (∀ (s : State) (r : Req) (trig : Fin 512) (v : Nat),
     ∀ u, s.Writable r (0x5200 + trig.val) 9 v u → (u.trigOn trig.val = false ∨ u.trigSource trig.val ≠ 4) →
     ∃ w, Sys2Proof.Machine.exec (.fire r trig v) s = .next w ∧ (
       w.Answered svcWrite r (0x5200 + trig.val) 9 0x0800003F [] ∧ Served [] noObj s u w)) ∧
  (∀ (s : State) (trig : Fin 512) (t : Nat),
     s.trigOn trig.val = true → s.trigSource trig.val = 2 → s.get (0x5200 + trig.val) 6 ≤ (s.at t).now → s.frozen = false → s.canonical = true →
     Max.max (firstOccurrence (s.get (0x5200 + trig.val) 6) (s.get (0x5200 + trig.val) 5) (s.trig trig.val).from_)
       (match (s.trig trig.val).last with | some k => k + 1 | none => 0) ≤
       ((s.at t).now - s.get (0x5200 + trig.val) 6) / s.get (0x5200 + trig.val) 5 → s.posts trig.val (s.at t).firingModel = true →
     ∃ u, Sys2Proof.Machine.exec (.clockTriggerFire trig t) s = .next u ∧ (
       u.trig trig.val = { s.trig trig.val with last := some ((u.now - s.get (0x5200 + trig.val) 6) / s.get (0x5200 + trig.val) 5) } ∧
       TrigsBut (fun x => x == trig.val) s u ∧ u.sync = { s.sync with trigs := u.sync.trigs } ∧
       s.Posted u trig.val (s.at t).firingModel ((u.now - s.get (0x5200 + trig.val) 6) / s.get (0x5200 + trig.val) 5 % 2 ^ 32)
         (s.get (0x5200 + trig.val) 6 + (u.now - s.get (0x5200 + trig.val) 6) / s.get (0x5200 + trig.val) 5 * s.get (0x5200 + trig.val) 5) ∧
       u.obj (0x5200 + trig.val) 0xC = (s.obj (0x5200 + trig.val) 0xC + ((u.now - s.get (0x5200 + trig.val) 6) / s.get (0x5200 + trig.val) 5 -
         Max.max (firstOccurrence (s.get (0x5200 + trig.val) 6) (s.get (0x5200 + trig.val) 5) (s.trig trig.val).from_)
           (match (s.trig trig.val).last with | some k => k + 1 | none => 0))) % 2 ^ 64 ∧
       ArraysBut (fun b => b == s.trigArray trig.val) s u ∧ Within [.sync, .dict, .clock, .arr, .mem, .memc] s u ∧
       ObjsBut (fun i j => i == 0x5200 + trig.val && (j == 0xB || j == 0xC) || i == ringObj (s.trigArray trig.val) (s.trigRing trig.val) && j == 7 ||
         i == 0x5040 + s.trigArray trig.val && j == 7) s u)) ∧
  (∀ (s : State) (trig : Fin 512) (t : Nat),
     s.trigOn trig.val = true → s.trigSource trig.val = 2 → s.get (0x5200 + trig.val) 6 ≤ (s.at t).now → s.frozen = false → s.canonical = true →
     Max.max (firstOccurrence (s.get (0x5200 + trig.val) 6) (s.get (0x5200 + trig.val) 5) (s.trig trig.val).from_)
       (match (s.trig trig.val).last with | some k => k + 1 | none => 0) ≤
       ((s.at t).now - s.get (0x5200 + trig.val) 6) / s.get (0x5200 + trig.val) 5 → s.dev.st ≠ .run →
     ∃ u, Sys2Proof.Machine.exec (.clockTriggerFire trig t) s = .next u ∧ (
       u.obj (0x5200 + trig.val) 0xD = (s.obj (0x5200 + trig.val) 0xD + ((u.now - s.get (0x5200 + trig.val) 6) / s.get (0x5200 + trig.val) 5 -
         Max.max (firstOccurrence (s.get (0x5200 + trig.val) 6) (s.get (0x5200 + trig.val) 5) (s.trig trig.val).from_)
           (match (s.trig trig.val).last with | some k => k + 1 | none => 0)) + 1) % 2 ^ 64 ∧
       TrigsBut (fun x => x == trig.val) s u ∧ Within [.sync, .dict, .clock] s u ∧ ObjsBut (fun i j => i == 0x5200 + trig.val && j == 0xD) s u)) ∧
  (∀ (s : State) (trig : Fin 512) (t : Nat),
     (s.trigOn trig.val = false ∨ s.trigSource trig.val ≠ 2 ∨ (s.at t).now < s.get (0x5200 + trig.val) 6 ∨ s.frozen = true) →
     ∃ u, Sys2Proof.Machine.exec (.clockTriggerFire trig t) s = .next u ∧ (
       Within [.clock] s u)) ∧
  (∀ (s : State) (trig : Fin 512) (t : Nat),
     s.trigOn trig.val = true → s.trigSource trig.val = 3 → s.get (0x5200 + trig.val) 8 ≤ s.light (s.get (0x5200 + trig.val) 7) →
     s.headReady (s.get (0x5200 + trig.val) 7) = false → (s.trig trig.val).fired ≠ some (s.at t).now → s.frozen = false → s.canonical = true →
     s.posts trig.val (s.at t).firingModel = true →
     ∃ u, Sys2Proof.Machine.exec (.cueLightTriggerFire trig t) s = .next u ∧ (
       u.light (s.get (0x5200 + trig.val) 7) = s.light (s.get (0x5200 + trig.val) 7) - s.get (0x5200 + trig.val) 8 ∧
       u.trig trig.val = { s.trig trig.val with fired := some u.now } ∧ TrigsBut (fun x => x == trig.val) s u ∧
       u.sync = { s.sync with trigs := u.sync.trigs } ∧
       s.Posted u trig.val (s.at t).firingModel (s.get (0x5200 + trig.val) 8) u.now ∧
       ArraysBut (fun b => b == s.trigArray trig.val) s u ∧ Within [.sync, .dict, .clock, .arr, .mem, .memc] s u ∧
       ObjsBut (fun i j => i == 0x5200 + trig.val && j == 0xB || i == ringObj (s.trigArray trig.val) (s.trigRing trig.val) && j == 7 ||
         i == 0x5040 + s.trigArray trig.val && j == 7 || i == 0x5400 && j == s.get (0x5200 + trig.val) 7 + 1) s u)) ∧
  (∀ (s : State) (trig : Fin 512) (t : Nat),
     (s.trigOn trig.val = false ∨ s.trigSource trig.val ≠ 3 ∨ s.light (s.get (0x5200 + trig.val) 7) < s.get (0x5200 + trig.val) 8 ∨
       s.headReady (s.get (0x5200 + trig.val) 7) = true ∨ (s.trig trig.val).fired = some (s.at t).now ∨ s.frozen = true) →
     ∃ u, Sys2Proof.Machine.exec (.cueLightTriggerFire trig t) s = .next u ∧ (
       Within [.clock] s u)) ∧
  (∀ (s : State) (trig : Fin 512) (t : Nat),
     ∀ f, (s.trig trig.val).wait = some f → s.mustWait trig.val f = false → s.frozen = false → s.canonical = true →
     ((s.at t).listAddr f.acc (s.get (0x5200 + trig.val) 4) (s.trigArray trig.val)).isSome = true →
     ∃ u, Sys2Proof.Machine.exec (.pendingFiringAppend trig t) s = .next u ∧ (
       u.trig trig.val = { s.trig trig.val with wait := none } ∧ TrigsBut (fun x => x == trig.val) s u ∧ u.sync = { s.sync with trigs := u.sync.trigs } ∧
       s.Posted u trig.val f.acc f.lw0 f.evt ∧ ArraysBut (fun b => b == s.trigArray trig.val) s u ∧
       Within [.sync, .dict, .clock, .arr, .mem, .memc] s u ∧
       ObjsBut (fun i j => i == 0x5200 + trig.val && j == 0xB || i == ringObj (s.trigArray trig.val) (s.trigRing trig.val) && j == 7 ||
         i == 0x5040 + s.trigArray trig.val && j == 7) s u)) ∧
  (∀ (s : State) (trig : Fin 512) (t : Nat),
     (s.frozen = true ∨ ((s.trig trig.val).wait.all fun f => s.mustWait trig.val f) = true) →
     ∃ u, Sys2Proof.Machine.exec (.pendingFiringAppend trig t) s = .next u ∧ (
       Within [.clock] s u)) ∧
  (∀ (s : State) (r : Req) (light : Fin 2048) (v : Nat),
     ∀ u, s.Writable r 0x5401 (light.val + 1) v u → u.canonical = true → u.sync.taps = [] → u.light light.val + v ≤ 65535 →
     ∃ w, Sys2Proof.Machine.exec (.cueLightSignal r light v) s = .next w ∧ (
       w.Answered svcWrite r 0x5401 (light.val + 1) 0 [] ∧ w.light light.val = s.light light.val + v ∧ w.sync = { s.sync with adds := w.sync.adds } ∧
       Served [.sync] (fun i j => i == 0x5400 && j == light.val + 1) s u w)) ∧
  (∀ (s : State) (r : Req) (light : Fin 2048) (v : Nat),
     ∀ u, s.Writable r 0x5401 (light.val + 1) v u → v < 65536 → u.canonical = true → u.sync.taps = [] → 65535 < u.light light.val + v →
     ∃ w, Sys2Proof.Machine.exec (.cueLightSignal r light v) s = .next w ∧ (
       w.Answered svcWrite r 0x5401 (light.val + 1) 0 [] ∧ w.light light.val = 65535 ∧ w.obj 0x5004 0 = (s.obj 0x5004 0 + 1) % 2 ^ 64 ∧
       Reported 0x08 u w ∧ w.sync = { s.sync with adds := w.sync.adds } ∧
       Within [.sync, .dict, .clock, .pwr, .mem, .memc, .obs, .odp, .out, .flash, .rel, .free] s w ∧
       Notes (fun i j => ansObj i j || i == 0x5400 && j == light.val + 1 || i == 0x5004 && j == 0) s w)) ∧
  (∀ (s : State) (r : Req),
     ∀ u, s.Writable r 0x5808 4 1 u → u.get 0x5808 1 < 16 →
     Sparse.wf (fun _ => ({} : Rec)) (u.arrAt (u.get 0x5808 1)).recs = true →
     ∃ w, Sys2Proof.Machine.exec (.clearFallback r) s = .next w ∧ (
       w.Answered svcWrite r 0x5808 4 0 [] ∧
       w.chanRec (s.get 0x5808 1) (s.get 0x5808 2) =
         { s.chanRec (s.get 0x5808 1) (s.get 0x5808 2) with clear := (s.chanRec (s.get 0x5808 1) (s.get 0x5808 2)).fall } ∧
       SparseBut (fun _ => ({} : Rec)) (fun k => k == s.get 0x5808 2) (s.arrAt (s.get 0x5808 1)).recs (w.arrAt (s.get 0x5808 1)).recs ∧
       w.arrAt (s.get 0x5808 1) = { s.arrAt (s.get 0x5808 1) with recs := (w.arrAt (s.get 0x5808 1)).recs } ∧
       ArraysBut (fun b => b == s.get 0x5808 1) s w ∧ Served [.arr] noObj s u w))

/-- CALLSLIP of one sound slip to another module with a path sends its request and keeps it outstanding, without ASYNC in flight; a
slip that fails its check word, ASYNC, completes with CHECK in its line and one record. SLIP_COMPLETE with OK places the data of
a READ at its local address and lands a waiting cue; an error status is counted and reported; an operation on the module's own
number does its work here. OPERATION_TIMEOUT completes what is overdue as LOST, reported unless it is a doorbell.
DOORBELL_RECEIVED from a bay that may ring adds to its light or fires its trigger and replies OK; from another it is counted and
refused; in a freeze it waits. DOORBELL_ACCEPTED lets the list that sent it go on. Otherwise nothing but house time changes.
(spec/08_prompters.md, Doorbells across the fabric, spec/08_prompters.md, Verdicts, tensors, taps and time, spec/12_fabric.md,
Module numbers and global addresses, spec/12_fabric.md, Operations and call slips, spec/12_fabric.md, Ordering,
spec/12_fabric.md, Routing, spec/12_fabric.md, Failures, spec/16_observability.md, Hang dumps) -/
def Obligations.SlipCommands : Prop :=
  (∀ (s : State) (a : Fin 16) (c : CueCheck) (t : Nat),
     ∀ r, s.issuing a.val = some r → s.mayIssue a.val opCallslip c r = true → ∀ y, s.adds a.val r (s.cueWords a.val r) = some y →
     Bits.fld (w (s.cueWords a.val r) 1) 22 15 = 1 → ∀ l, y.line (Bits.fld (w (s.cueWords a.val r) 1) 14 0) 1 = some l →
     (s.fab.ops.all fun o => decide (o.id < s.fab.nextOp) && decide (o.group < s.fab.nextOp)) = true →
     slipCrcOk (s.wings a.val (l * 64) 64) = true → s.slipLegal (s.slipAt a.val r (s.cueWords a.val r) l) = true → s.pathOk (s.slipAt a.val r (s.cueWords a.val r) l) = true → (s.slipAt a.val r (s.cueWords a.val r) l).opcode ≤ 4 → gaModule (s.slipAt a.val r (s.cueWords a.val r) l).remote ≠ s.moduleNo →
     ∃ u, Sys2Proof.Machine.exec (.callslip a c t) s = .next u ∧ (
       (∃ x, u.out = .request s.fab.nextOp (s.slipAt a.val r (s.cueWords a.val r) l).opcode (gaModule (s.slipAt a.val r (s.cueWords a.val r) l).remote) (gaOffset (s.slipAt a.val r (s.cueWords a.val r) l).remote) (s.slipAt a.val r (s.cueWords a.val r) l).length 0 (s.outData (s.slipAt a.val r (s.cueWords a.val r) l)) x :: s.out) ∧
       u.fab = { s.fab with nextOp := s.fab.nextOp + 1, ops := s.fab.ops ++ [{ (s.slipAt a.val r (s.cueWords a.val r) l) with sent := some u.now }], rot := u.fab.rot } ∧
       u.inFlight a.val .callslip = s.inFlight a.val .callslip + (if Bits.bit (w (s.cueWords a.val r) 0) 8 then 0 else 1) ∧
       u.arrAt a.val = { s.arrAt a.val with
         run := (u.arrAt a.val).run, tails := (u.arrAt a.val).tails, dead := (u.arrAt a.val).dead, instCons := (u.arrAt a.val).instCons } ∧
       ArraysBut (fun b => b == a.val) s u ∧ Within [.arr, .dict, .clock, .fab, .memc, .out, .free] s u ∧ ObjsBut (fun i j => listObj a.val r.ring i j) s u)) ∧
  (∀ (s : State) (a : Fin 16) (c : CueCheck) (t : Nat),
     ∀ r, s.issuing a.val = some r → s.mayIssue a.val opCallslip c r = true → ∀ y, s.adds a.val r (s.cueWords a.val r) = some y →
     Bits.fld (w (s.cueWords a.val r) 1) 22 15 = 1 → Bits.bit (w (s.cueWords a.val r) 0) 8 = true → ∀ l, y.line (Bits.fld (w (s.cueWords a.val r) 1) 14 0) 1 = some l →
     (s.fab.ops.all fun o => decide (o.id < s.fab.nextOp) && decide (o.group < s.fab.nextOp)) = true →
     slipCrcOk (s.wings a.val (l * 64) 64) = false → s.canonical = true →
     ∃ u, Sys2Proof.Machine.exec (.callslip a c t) s = .next u ∧ (
       u.fab = { s.fab with nextOp := s.fab.nextOp + 1 } ∧ Bits.le (u.wings a.val (l * 64) 64) 2 1 = 7 ∧ u.obj 0x7820 7 = (s.obj 0x7820 7 + 1) % 2 ^ 64 ∧
       Reported 0x0A s u ∧ (∀ b : Fin 16, b.val / 2 ≠ a.val / 2 → u.arrAt b.val = s.arrAt b.val) ∧
       u.arrAt a.val = { s.arrAt a.val with
         run := (u.arrAt a.val).run, tails := (u.arrAt a.val).tails, dead := (u.arrAt a.val).dead, instCons := (u.arrAt a.val).instCons
         wings := (u.arrAt a.val).wings, tags := (u.arrAt a.val).tags } ∧
       SparseBut (s.arrAt a.val).wingDef (fun z => z / 64 == l) (s.arrAt a.val).wings (u.arrAt a.val).wings ∧
       Within ([.arr, .dict, .clock, .fab, .memc] ++ [.pwr, .mem, .memc, .obs, .odp, .out, .flash, .rel, .free]) s u ∧ Notes (fun i j => listObj a.val r.ring i j || i == 0x7820 && j == 7) s u)) ∧
  (∀ (s : State) (a : Fin 16) (c : CueCheck) (t : Nat),
     s.nextIs a.val opCallslip = false → ∃ u, Sys2Proof.Machine.exec (.callslip a c t) s = .next u ∧ (
       Within [.clock] s u)) ∧
  (∀ (s : State) (opId : Nat) (reply : SlipReply) (t : Nat),
     ∀ o, (s.fab.ops.find? fun o => decide (o.id = opId) && o.sent.isSome) = some o → s.frozen = false → o.bell = none → gaModule o.remote ≠ s.moduleNo → reply.status = 1 → o.opcode = 1 → o.wings = false → o.async = true →
     o.light = none → s.canonical = true → (s.fab.ops.all fun p => decide (p.id = opId) || decide (p.group ≠ o.group)) = true →
     ∃ u, Sys2Proof.Machine.exec (.slipComplete opId reply t) s = .next u ∧ (
       u.memRead o.second o.length = Bits.slice reply.data 0 o.length ∧ BytesBut (fun x => decide (o.second ≤ x) && decide (x < o.second + o.length)) s u ∧
       u.fab = { s.fab with ops := s.fab.ops.filter fun p => decide (p.id ≠ opId) } ∧ u.obj 0x7820 1 = (s.obj 0x7820 1 + 1) % 2 ^ 64 ∧ WingLine o.array o.line s u ∧ Within [.fab, .dict, .clock, .mem, .memc, .arr] s u ∧ ObjsBut (fun i j => i == 0x7820 && j == 1) s u)) ∧
  (∀ (s : State) (opId : Nat) (reply : SlipReply) (t : Nat),
     ∀ o, (s.fab.ops.find? fun o => decide (o.id = opId) && o.sent.isSome) = some o → s.frozen = false → o.bell = none → gaModule o.remote ≠ s.moduleNo → reply.status = 1 → o.opcode = 2 → o.async = false →
     o.light = none → (s.fab.ops.all fun p => decide (p.id = opId) || decide (p.group ≠ o.group)) = true → o.array < 16 → ∀ r, (s.arrAt o.array).run = some r → r.fly = [{ cls := .callslip, slips := [opId] }] →
     r.ending = false → r.rewind = false → r.block = .none → (s.arrAt o.array).susp = [] →
     ∃ u, Sys2Proof.Machine.exec (.slipComplete opId reply t) s = .next u ∧ (
       u.fab = { s.fab with ops := s.fab.ops.filter fun p => decide (p.id ≠ opId) } ∧ u.obj 0x7820 1 = (s.obj 0x7820 1 + 1) % 2 ^ 64 ∧ (u.arrAt o.array).run = some { r with fly := [], progress := u.now } ∧
       WingLine o.array o.line s u ∧ Within [.fab, .dict, .clock, .arr] s u ∧
       ObjsBut (fun i j => i == 0x7820 && j == 1 || i == 0x5040 + o.array && (j == 1 || j == 2)) s u)) ∧
  (∀ (s : State) (opId : Nat) (reply : SlipReply) (t : Nat),
     ∀ o, (s.fab.ops.find? fun o => decide (o.id = opId) && o.sent.isSome) = some o → s.frozen = false → o.bell = none → gaModule o.remote ≠ s.moduleNo → 2 ≤ reply.status → reply.status ≤ 7 → o.opcode ≤ 4 → o.async = true →
     s.canonical = true → (s.fab.ops.all fun p => decide (p.id = opId) || decide (p.group ≠ o.group)) = true →
     ∃ u, Sys2Proof.Machine.exec (.slipComplete opId reply t) s = .next u ∧ (
       u.fab = { s.fab with ops := s.fab.ops.filter fun p => decide (p.id ≠ opId) } ∧ u.obj 0x7820 reply.status = (s.obj 0x7820 reply.status + 1) % 2 ^ 64 ∧ Reported 0x0A s u ∧ WingLine o.array o.line s u ∧ Within ([.fab, .dict, .clock, .arr] ++ [.pwr, .mem, .memc, .obs, .odp, .out, .flash, .rel, .free]) s u ∧
       Notes (fun i j => i == 0x7820 && j == reply.status) s u)) ∧
  (∀ (s : State) (opId : Nat) (reply : SlipReply) (t : Nat),
     ∀ o, (s.fab.ops.find? fun o => decide (o.id = opId) && o.sent.isSome) = some o → s.frozen = false → o.bell = none → gaModule o.remote = s.moduleNo → o.opcode = 1 → o.wings = false → o.async = true →
     s.remoteCheck s.moduleNo false (gaOffset o.remote) o.length = none → o.light = none → s.canonical = true → (s.fab.ops.all fun p => decide (p.id = opId) || decide (p.group ≠ o.group)) = true →
     ∃ u, Sys2Proof.Machine.exec (.slipComplete opId reply t) s = .next u ∧ (
       u.memRead o.second o.length = s.memRead (gaOffset o.remote) o.length ∧ BytesBut (fun x => decide (o.second ≤ x) && decide (x < o.second + o.length)) s u ∧
       u.fab = { s.fab with ops := s.fab.ops.filter fun p => decide (p.id ≠ opId) } ∧ u.obj 0x7820 1 = (s.obj 0x7820 1 + 1) % 2 ^ 64 ∧ WingLine o.array o.line s u ∧ Within [.fab, .dict, .clock, .mem, .memc, .arr] s u ∧ ObjsBut (fun i j => i == 0x7820 && j == 1) s u)) ∧
  (∀ (s : State) (opId : Nat) (reply : SlipReply) (t : Nat),
     ((s.fab.ops.find? fun o => decide (o.id = opId) && o.sent.isSome) = none ∨ s.frozen = true) →
     ∃ u, Sys2Proof.Machine.exec (.slipComplete opId reply t) s = .next u ∧ (
       Within [.clock] s u)) ∧
  (∀ (s : State) (opId t : Nat),
     ∀ o, (s.fab.ops.find? fun o => decide (o.id = opId)) = some o → s.frozen = false → ∀ x, o.sent = some x →
     x + s.get 0x7806 0 * 1000 ≤ (s.at t).now → o.bell = none → o.async = true → s.canonical = true → (s.fab.ops.all fun p => decide (p.id = opId) || decide (p.group ≠ o.group)) = true →
     ∃ u, Sys2Proof.Machine.exec (.operationTimeout opId t) s = .next u ∧ (
       u.fab = { s.fab with ops := s.fab.ops.filter fun p => decide (p.id ≠ opId) } ∧ u.obj 0x7820 5 = (s.obj 0x7820 5 + 1) % 2 ^ 64 ∧ Reported 0x0A s u ∧ WingLine o.array o.line s u ∧ Within ([.fab, .dict, .clock, .arr] ++ [.pwr, .mem, .memc, .obs, .odp, .out, .flash, .rel, .free]) s u ∧ Notes (fun i j => i == 0x7820 && j == 5) s u)) ∧
  (∀ (s : State) (opId t : Nat),
     ∀ o, (s.fab.ops.find? fun o => decide (o.id = opId)) = some o → s.frozen = false → ∀ x, o.sent = some x →
     x + s.get 0x7806 0 * 1000 ≤ (s.at t).now → o.bell.isSome = true → s.canonical = true →
     ∃ u, Sys2Proof.Machine.exec (.operationTimeout opId t) s = .next u ∧ (
       u.fab = { s.fab with ops := s.fab.ops.filter fun p => decide (p.id ≠ opId) } ∧ u.obj 0x7820 5 = (s.obj 0x7820 5 + 1) % 2 ^ 64 ∧ Within [.fab, .dict, .clock] s u ∧ ObjsBut (fun i j => i == 0x7820 && j == 5) s u)) ∧
  (∀ (s : State) (opId t : Nat),
     (s.frozen = true ∨ ((s.fab.ops.find? fun o => decide (o.id = opId)).all fun o => o.sent.all fun x => decide ((s.at t).now < x + s.get 0x7806 0 * 1000)) = true) →
     ∃ u, Sys2Proof.Machine.exec (.operationTimeout opId t) s = .next u ∧ (
       Within [.clock] s u)) ∧
  (∀ (s : State) (src : Nat) (d : Doorbell) (t : Nat),
     ∀ l n, d = .light l n → s.stacksServed = true → s.frozen = false → s.bayMay 0x7805 src = true → s.canonical = true → s.sync.taps = [] →
     s.light (l % 2048) + n ≤ 65535 →
     ∃ u, Sys2Proof.Machine.exec (.doorbellReceived src d t) s = .next u ∧ (
       u.light (l % 2048) = s.light (l % 2048) + n ∧ u.out = .reply ⟨src, false⟩ 1 [] :: s.out ∧
       u.sync = { s.sync with adds := u.sync.adds } ∧ Within [.dict, .clock, .sync, .out] s u ∧ ObjsBut (fun i j => i == 0x5400 && j == l % 2048 + 1) s u)) ∧
  (∀ (s : State) (src : Nat) (d : Doorbell) (t : Nat),
     ∀ x n, d = .trigger x n → s.stacksServed = true → s.frozen = false → s.bayMay 0x7805 src = true → s.canonical = true →
     s.trigOn (x % 512) = true → s.trigSource (x % 512) = 5 → s.posts (x % 512) (s.at t).firingModel = true →
     ∃ u, Sys2Proof.Machine.exec (.doorbellReceived src d t) s = .next u ∧ (
       s.Posted u (x % 512) (s.at t).firingModel n u.now ∧ u.out = .reply ⟨src, false⟩ 1 [] :: s.out ∧ ArraysBut (fun b => b == s.trigArray (x % 512)) s u ∧
       Within [.dict, .clock, .arr, .mem, .memc, .out] s u ∧
       ObjsBut (fun i j => i == 0x5200 + x % 512 && j == 0xB || i == ringObj (s.trigArray (x % 512)) (s.trigRing (x % 512)) && j == 7 ||
         i == 0x5040 + s.trigArray (x % 512) && j == 7) s u)) ∧
  (∀ (s : State) (src : Nat) (d : Doorbell) (t : Nat),
     s.stacksServed = true → s.frozen = false → s.bayMay 0x7805 src = false → s.canonical = true →
     ∃ u, Sys2Proof.Machine.exec (.doorbellReceived src d t) s = .next u ∧ (
       u.out = .reply ⟨src, false⟩ 2 [] :: s.out ∧ u.obj 0x7822 0 = (s.obj 0x7822 0 + 1) % 2 ^ 64 ∧ Within [.out, .dict, .clock] s u ∧
       ObjsBut (fun i j => i == 0x7822 && j == 0) s u)) ∧
  (∀ (s : State) (src : Nat) (d : Doorbell) (t : Nat),
     s.stacksServed = true → s.frozen = true →
     ∃ u, Sys2Proof.Machine.exec (.doorbellReceived src d t) s = .next u ∧ (
       u.fab = { s.fab with bells := s.fab.bells ++ [(src, d)] } ∧ Within [.fab, .clock] s u)) ∧
  (∀ (s : State) (src : Nat) (d : Doorbell) (t : Nat),
     s.stacksServed = false → ∃ u, Sys2Proof.Machine.exec (.doorbellReceived src d t) s = .next u ∧ (
       Within [.clock] s u)) ∧
  (∀ (s : State) (opId t : Nat),
     ∀ o, (s.fab.ops.find? fun o => decide (o.id = opId) && o.bell.isSome) = some o → s.frozen = false → o.remote ≠ s.moduleNo → o.array < 16 →
     ∀ r, (s.arrAt o.array).run = some r → r.block = .doorbell o.id → r.rewind = false → r.ending = false → (s.arrAt o.array).susp = [] → s.canonical = true →
     ∃ u, Sys2Proof.Machine.exec (.doorbellAccepted opId t) s = .next u ∧ (
       u.fab = { s.fab with ops := s.fab.ops.filter fun p => decide (p.id ≠ opId) } ∧ u.obj 0x7820 1 = (s.obj 0x7820 1 + 1) % 2 ^ 64 ∧ u.arrAt o.array = { s.arrAt o.array with
         run := some (({ r with block := .none, progress := u.now }).setRestart (s.pointHere o.array r)) } ∧
       ArraysBut (fun b => b == o.array) s u ∧ Within [.fab, .arr, .dict, .clock] s u ∧
       ObjsBut (fun i j => i == 0x7820 && j == 1 || i == 0x5040 + o.array && (j == 1 || j == 2)) s u)) ∧
  (∀ (s : State) (opId t : Nat),
     ∀ o, (s.fab.ops.find? fun o => decide (o.id = opId) && o.bell.isSome) = some o → s.frozen = false → o.remote = s.moduleNo →
     ∀ l n, o.bell = some (.light l n) → s.bayMay 0x7805 s.moduleNo = true → s.canonical = true → s.sync.taps = [] →
     s.light (l % 2048) + n ≤ 65535 → (s.arr.toList.all fun x => x.run.isNone && x.susp.isEmpty) = true →
     ∃ u, Sys2Proof.Machine.exec (.doorbellAccepted opId t) s = .next u ∧ (
       u.fab = { s.fab with ops := s.fab.ops.filter fun p => decide (p.id ≠ opId) } ∧ u.obj 0x7820 1 = (s.obj 0x7820 1 + 1) % 2 ^ 64 ∧ u.light (l % 2048) = s.light (l % 2048) + n ∧ u.sync = { s.sync with adds := u.sync.adds } ∧ Within [.fab, .dict, .clock, .sync] s u ∧
       ObjsBut (fun i j => i == 0x7820 && j == 1 || i == 0x5400 && j == l % 2048 + 1) s u)) ∧
  (∀ (s : State) (opId t : Nat),
     ((s.fab.ops.find? fun o => decide (o.id = opId) && o.bell.isSome) = none ∨ s.frozen = true) →
     ∃ u, Sys2Proof.Machine.exec (.doorbellAccepted opId t) s = .next u ∧ (
       Within [.clock] s u))

/-- FAB_LINK_UP of a peer that stands under the wiring rules makes the port up and floods the link state; another peer leaves it
miswired with an event. FAB_LINK_FAILED of an up port counts and records the failure, empties its replay buffer and floods.
FLIT_RECEIVED good and in sequence is acknowledged, one for another module leaves through the only port that leads there, an
aged one is counted and dropped; a bad one or one out of sequence is asked for again. A remote READ, WRITE or atomic that bay
and window allow replies OK with the bytes as they stood, and a write changes exactly its bytes; one that is not allowed is
counted and refused. LINK_STATE_UPDATE of another module is kept and flooded on; one of an earlier module with this number takes
the ports down. Otherwise nothing but house time changes. (spec/09_memory.md, Sharing the channels, spec/12_fabric.md, Ports and
wiring, spec/12_fabric.md, Module numbers and global addresses, spec/12_fabric.md, Operations and call slips, spec/12_fabric.md,
Routing, spec/12_fabric.md, Link layer, spec/12_fabric.md, The house clock, spec/12_fabric.md, Failures) -/
def Obligations.FabricCommands : Prop :=
  (∀ (s : State) (f : Fin 16) (peer : Peer) (t : Nat),
     s.stacksServed = true → s.moduleNo ≠ 0xFFFF → s.fab.duplicate = false → s.portUp f.val = false → s.wiredOk f.val peer = true → s.canonical = true →
     ∃ u, Sys2Proof.Machine.exec (.fabLinkUp f peer t) s = .next u ∧ (
       u.obj 0x7810 (f.val + 1) = 1 ∧ u.obj 0x7811 (f.val + 1) = peer.module % 65536 ∧ u.obj 0x7812 (f.val + 1) = peer.port % 256 ∧
       u.fab = { s.fab with firstUp := some (s.fab.firstUp.getD u.now), ports := u.fab.ports } ∧ (u.fab.ports.toList.getD f.val {}) = {} ∧ (∀ g : Fin 16, g ≠ f → u.fab.ports.toList.getD g.val {} = s.fab.ports.toList.getD g.val {}) ∧
       u.out = .linkState u.ownLink :: .linkHello f.val s.moduleNo s.bays :: s.out ∧ Within [.fab, .dict, .clock, .out] s u ∧
       ObjsBut (fun i j => (i == 0x7810 || i == 0x7811 || i == 0x7812) && j == f.val + 1) s u)) ∧
  (∀ (s : State) (f : Fin 16) (peer : Peer) (t : Nat),
     s.stacksServed = true → s.moduleNo ≠ 0xFFFF → s.fab.duplicate = false → s.portUp f.val = false → s.wiredOk f.val peer = false → s.canonical = true →
     ∃ u, Sys2Proof.Machine.exec (.fabLinkUp f peer t) s = .next u ∧ (
       u.obj 0x7810 (f.val + 1) = 2 ∧ u.obj 0x7811 (f.val + 1) = peer.module % 65536 ∧ u.obj 0x7812 (f.val + 1) = peer.port % 256 ∧
       .linkHello f.val s.moduleNo s.bays ∈ u.out ∧ Raised (Config.eventCode 10) 0x7810 (f.val + 1) s u ∧
       Within [.dict, .clock, .mem, .memc, .obs, .odp, .out, .pwr] s u ∧
       Notes (fun i j => (i == 0x7810 || i == 0x7811 || i == 0x7812) && j == f.val + 1) s u)) ∧
  (∀ (s : State) (f : Fin 16) (peer : Peer) (t : Nat),
     (s.stacksServed = false ∨ s.moduleNo = 0xFFFF ∨ s.fab.duplicate = true ∨ s.portUp f.val = true) →
     ∃ u, Sys2Proof.Machine.exec (.fabLinkUp f peer t) s = .next u ∧ (
       Within [.clock] s u)) ∧
  (∀ (s : State) (f : Fin 16) (cause : LinkFail) (t : Nat),
     s.portUp f.val = true → s.canonical = true →
     ∃ u, Sys2Proof.Machine.exec (.fabLinkFailed f cause t) s = .next u ∧ (
       u.obj 0x7810 (f.val + 1) = 3 ∧ u.obj 0x7819 (f.val + 1) = (s.obj 0x7819 (f.val + 1) + 1) % 2 ^ 64 ∧ Reported 0x32 s u ∧
       u.fab = { s.fab with ports := u.fab.ports } ∧ (u.fab.ports.toList.getD f.val {}) = {} ∧ (∀ g : Fin 16, g ≠ f → u.fab.ports.toList.getD g.val {} = s.fab.ports.toList.getD g.val {}) ∧ u.out.head? = some (.linkState u.ownLink) ∧
       (s.clock.parent = some f.val → u.clock.parent = none) ∧
       Within ([.fab, .dict, .clock] ++ [.pwr, .mem, .memc, .obs, .odp, .out, .flash, .rel, .free]) s u ∧ Notes (fun i j => (i == 0x7810 || i == 0x7819) && j == f.val + 1) s u)) ∧
  (∀ (s : State) (f : Fin 16) (cause : LinkFail) (t : Nat),
     s.portUp f.val = false → ∃ u, Sys2Proof.Machine.exec (.fabLinkFailed f cause t) s = .next u ∧ (
       Within [.clock] s u)) ∧
  (∀ (s : State) (f : Fin 16) (x : Flit) (crcGood fecGood : Bool) (t : Nat),
     s.portUp f.val = true → crcGood = true → fecGood = true → x.linkSeq = (s.fab.ports.toList.getD f.val {}).expect → x.dest = s.moduleNo → x.age ≤ 100000 → s.canonical = true →
     ∃ u, Sys2Proof.Machine.exec (.flitReceived f x crcGood fecGood t) s = .next u ∧ (
       u.out = .flitAck f.val x.linkSeq :: s.out ∧ u.fab.ports.toList.getD f.val {} = { s.fab.ports.toList.getD f.val {} with expect := (x.linkSeq + 1) % 4096 } ∧
       u.fab = { s.fab with ports := u.fab.ports } ∧ u.obj 0x7815 (f.val + 1) = (s.obj 0x7815 (f.val + 1) + 1) % 2 ^ 64 ∧ (∀ g : Fin 16, g ≠ f → u.fab.ports.toList.getD g.val {} = s.fab.ports.toList.getD g.val {}) ∧ Within [.fab, .dict, .clock, .out] s u ∧
       ObjsBut (fun i j => i == 0x7815 && j == f.val + 1) s u)) ∧
  (∀ (s : State) (f : Fin 16) (x : Flit) (crcGood fecGood : Bool) (t : Nat),
     s.portUp f.val = true → crcGood = true → fecGood = true → x.linkSeq = (s.fab.ports.toList.getD f.val {}).expect → 100000 < x.age → s.canonical = true →
     ∃ u, Sys2Proof.Machine.exec (.flitReceived f x crcGood fecGood t) s = .next u ∧ (
       u.out = .flitAck f.val x.linkSeq :: s.out ∧ u.fab.ports.toList.getD f.val {} = { s.fab.ports.toList.getD f.val {} with expect := (x.linkSeq + 1) % 4096 } ∧
       u.fab = { s.fab with ports := u.fab.ports } ∧ u.obj 0x7815 (f.val + 1) = (s.obj 0x7815 (f.val + 1) + 1) % 2 ^ 64 ∧ (∀ g : Fin 16, g ≠ f → u.fab.ports.toList.getD g.val {} = s.fab.ports.toList.getD g.val {}) ∧ u.obj 0x7823 0 = (s.obj 0x7823 0 + 1) % 2 ^ 64 ∧
       Within [.fab, .dict, .clock, .out] s u ∧ ObjsBut (fun i j => i == 0x7815 && j == f.val + 1 || i == 0x7823 && j == 0) s u)) ∧
  (∀ (s : State) (f : Fin 16) (x : Flit) (crcGood fecGood : Bool) (t : Nat),
     s.portUp f.val = true → crcGood = true → fecGood = true → x.linkSeq = (s.fab.ports.toList.getD f.val {}).expect → x.age ≤ 100000 → x.dest ≠ s.moduleNo → s.homeOf x.dest ≠ s.moduleNo → f.val ≠ 7 → ∀ g, s.minimalPorts (s.homeOf x.dest) = [g] → g ≠ f.val →
     s.canonical = true →
     ∃ u, Sys2Proof.Machine.exec (.flitReceived f x crcGood fecGood t) s = .next u ∧ (
       u.out = .flit g { x with vc := if h : x.vc.val + 1 < 4 then ⟨x.vc.val + 1, h⟩ else x.vc, linkSeq := (s.fab.ports.toList.getD g {}).nextSeq } ::
         .flitAck f.val x.linkSeq :: s.out ∧ (u.fab.ports.toList.getD f.val {}).expect = (x.linkSeq + 1) % 4096 ∧ u.fab = { s.fab with ports := u.fab.ports, rot := u.fab.rot } ∧
       u.obj 0x7815 (f.val + 1) = (s.obj 0x7815 (f.val + 1) + 1) % 2 ^ 64 ∧
       ((u.fab.ports.toList.zip s.fab.ports.toList).zipIdx.all fun p => decide (p.2 = f.val) || decide (p.2 = g) || decide (p.1.1 = p.1.2)) = true ∧
       u.obj 0x7814 (g + 1) = (s.obj 0x7814 (g + 1) + 1) % 2 ^ 64 ∧
       Within [.fab, .dict, .clock, .out] s u ∧ ObjsBut (fun i j => i == 0x7815 && j == f.val + 1 || i == 0x7814 && j == g + 1) s u)) ∧
  (∀ (s : State) (f : Fin 16) (x : Flit) (crcGood fecGood : Bool) (t : Nat),
     s.portUp f.val = true → (crcGood = false ∨ fecGood = false ∨ x.linkSeq ≠ (s.fab.ports.toList.getD f.val {}).expect) → s.canonical = true →
     ∃ u, Sys2Proof.Machine.exec (.flitReceived f x crcGood fecGood t) s = .next u ∧ (
       u.out = .flitRetry f.val (s.fab.ports.toList.getD f.val {}).expect :: s.out ∧
       u.obj 0x7816 (f.val + 1) = (s.obj 0x7816 (f.val + 1) + 1) % 2 ^ 64 ∧
       u.obj 0x7818 (f.val + 1) = (if fecGood then s.obj 0x7818 (f.val + 1) else (s.obj 0x7818 (f.val + 1) + 1) % 2 ^ 64) ∧
       Within [.dict, .clock, .out] s u ∧ ObjsBut (fun i j => (i == 0x7816 || i == 0x7818) && j == f.val + 1) s u)) ∧
  (∀ (s : State) (f : Fin 16) (x : Flit) (crcGood fecGood : Bool) (t : Nat),
     s.portUp f.val = false → ∃ u, Sys2Proof.Machine.exec (.flitReceived f x crcGood fecGood t) s = .next u ∧ (
       Within [.clock] s u)) ∧
  (∀ (s : State) (l : LinkState) (t : Nat),
     s.stacksServed = true → s.neighbours ≠ [] → l.module ≠ s.moduleNo → s.fab.links.contains l = false →
     ∃ u, Sys2Proof.Machine.exec (.linkStateUpdate l t) s = .next u ∧ (
       u.fab = { s.fab with links := l :: s.fab.links.filter fun x => decide (x.module ≠ l.module) } ∧ u.out = .linkState l :: s.out ∧
       Within [.fab, .out, .clock] s u)) ∧
  (∀ (s : State) (l : LinkState) (t : Nat),
     s.stacksServed = true → s.neighbours ≠ [] → l.module = s.moduleNo → l.serial ≠ s.mfg.serial → l.firstUp < s.fab.firstUp.getD 0 → s.canonical = true →
     ∃ u, Sys2Proof.Machine.exec (.linkStateUpdate l t) s = .next u ∧ (
       u.fab = { s.fab with duplicate := true, ports := u.fab.ports } ∧ ((List.range 16).all fun f => !u.portUp f) = true ∧ u.clock.parent = none ∧
       Raised (Config.eventCode 11) 0x7800 0 s u ∧ Within [.fab, .dict, .clock, .mem, .memc, .obs, .odp, .out, .pwr] s u ∧
       Notes (fun i _ => i == 0x7810) s u)) ∧
  (∀ (s : State) (l : LinkState) (t : Nat),
     (s.stacksServed = false ∨ s.neighbours = [] ∨ (l.module ≠ s.moduleNo ∧ s.fab.links.contains l = true) ∨
       (l.module = s.moduleNo ∧ (l.serial = s.mfg.serial ∨ s.fab.firstUp.getD 0 < l.firstUp))) →
     ∃ u, Sys2Proof.Machine.exec (.linkStateUpdate l t) s = .next u ∧ (
       Within [.clock] s u)) ∧
  (∀ (s : State) (src : Requester) (offset len t : Nat),
     s.stacksServed = true → s.remoteCheck src.module false offset len = none → s.canonical = true →
     ∃ u, Sys2Proof.Machine.exec (.remoteRead src offset len t) s = .next u ∧ (
       u.out = .reply src 1 (s.memRead offset len) :: s.out ∧ u.memc = { s.memc with rd := u.memc.rd } ∧ Within [.out, .memc, .clock] s u)) ∧
  (∀ (s : State) (src : Requester) (offset len t : Nat),
     ∀ x, s.remoteCheck src.module false offset len = some x → s.stacksServed = true → s.canonical = true →
     ∃ u, Sys2Proof.Machine.exec (.remoteRead src offset len t) s = .next u ∧ (
       u.out = .reply src x [] :: s.out ∧ u.obj 0x7821 0 = (s.obj 0x7821 0 + 1) % 2 ^ 64 ∧ Within [.out, .dict, .clock] s u ∧
       ObjsBut (fun i j => i == 0x7821 && j == 0) s u)) ∧
  (∀ (s : State) (src : Requester) (offset len t : Nat),
     s.stacksServed = false → ∃ u, Sys2Proof.Machine.exec (.remoteRead src offset len t) s = .next u ∧ (
       Within [.clock] s u)) ∧
  (∀ (s : State) (src : Requester) (offset : Nat) (data : Bytes) (t : Nat),
     s.stacksServed = true → s.remoteCheck src.module true offset data.length = none → s.canonical = true →
     ∃ u, Sys2Proof.Machine.exec (.remoteWrite src offset data t) s = .next u ∧ (
       u.out = .reply src 1 [] :: s.out ∧ u.memRead offset data.length = data ∧
       BytesBut (fun x => decide (offset ≤ x) && decide (x < offset + data.length)) s u ∧ u.memc = { s.memc with wr := u.memc.wr } ∧ Within [.out, .mem, .memc, .clock] s u)) ∧
  (∀ (s : State) (src : Requester) (offset : Nat) (data : Bytes) (t : Nat),
     ∀ x, s.remoteCheck src.module true offset data.length = some x → s.stacksServed = true → s.canonical = true →
     ∃ u, Sys2Proof.Machine.exec (.remoteWrite src offset data t) s = .next u ∧ (
       u.out = .reply src x [] :: s.out ∧ u.obj 0x7821 0 = (s.obj 0x7821 0 + 1) % 2 ^ 64 ∧ Within [.out, .dict, .clock] s u ∧
       ObjsBut (fun i j => i == 0x7821 && j == 0) s u)) ∧
  (∀ (s : State) (src : Requester) (offset : Nat) (data : Bytes) (t : Nat),
     s.stacksServed = false → ∃ u, Sys2Proof.Machine.exec (.remoteWrite src offset data t) s = .next u ∧ (
       Within [.clock] s u)) ∧
  (∀ (s : State) (src : Requester) (offset addend t : Nat),
     s.stacksServed = true → s.remoteCheck src.module true offset 8 = none → s.canonical = true →
     ∃ u, Sys2Proof.Machine.exec (.remoteFetchAdd src offset addend t) s = .next u ∧ (
       u.out = .reply src 1 (s.memRead offset 8) :: s.out ∧
       Bits.leNat (u.memRead offset 8) = (Bits.leNat (s.memRead offset 8) + addend) % 2 ^ 64 ∧
       BytesBut (fun x => decide (offset ≤ x) && decide (x < offset + 8)) s u ∧
       u.memc = { s.memc with rd := u.memc.rd, wr := u.memc.wr } ∧ Within [.out, .mem, .memc, .clock] s u)) ∧
  (∀ (s : State) (src : Requester) (offset addend t : Nat),
     ∀ x, s.remoteCheck src.module true offset 8 = some x → s.stacksServed = true → s.canonical = true →
     ∃ u, Sys2Proof.Machine.exec (.remoteFetchAdd src offset addend t) s = .next u ∧ (
       u.out = .reply src x [] :: s.out ∧ u.obj 0x7821 0 = (s.obj 0x7821 0 + 1) % 2 ^ 64 ∧ Within [.out, .dict, .clock] s u ∧
       ObjsBut (fun i j => i == 0x7821 && j == 0) s u)) ∧
  (∀ (s : State) (src : Requester) (offset addend t : Nat),
     s.stacksServed = false → ∃ u, Sys2Proof.Machine.exec (.remoteFetchAdd src offset addend t) s = .next u ∧ (
       Within [.clock] s u)) ∧
  (∀ (s : State) (src : Requester) (offset cmp swp t : Nat),
     s.stacksServed = true → s.remoteCheck src.module true offset 8 = none → s.canonical = true →
     ∃ u, Sys2Proof.Machine.exec (.remoteCompareSwap src offset cmp swp t) s = .next u ∧ (
       u.out = .reply src 1 (s.memRead offset 8) :: s.out ∧
       Bits.leNat (u.memRead offset 8) = (if Bits.leNat (s.memRead offset 8) = cmp % 2 ^ 64 then swp % 2 ^ 64 else Bits.leNat (s.memRead offset 8)) ∧
       BytesBut (fun x => decide (offset ≤ x) && decide (x < offset + 8)) s u ∧
       u.memc = { s.memc with rd := u.memc.rd, wr := u.memc.wr } ∧ Within [.out, .mem, .memc, .clock] s u)) ∧
  (∀ (s : State) (src : Requester) (offset cmp swp t : Nat),
     ∀ x, s.remoteCheck src.module true offset 8 = some x → s.stacksServed = true → s.canonical = true →
     ∃ u, Sys2Proof.Machine.exec (.remoteCompareSwap src offset cmp swp t) s = .next u ∧ (
       u.out = .reply src x [] :: s.out ∧ u.obj 0x7821 0 = (s.obj 0x7821 0 + 1) % 2 ^ 64 ∧ Within [.out, .dict, .clock] s u ∧
       ObjsBut (fun i j => i == 0x7821 && j == 0) s u)) ∧
  (∀ (s : State) (src : Requester) (offset cmp swp t : Nat),
     s.stacksServed = false → ∃ u, Sys2Proof.Machine.exec (.remoteCompareSwap src offset cmp swp t) s = .next u ∧ (
       Within [.clock] s u))

/-- TIMESTAMP_EXCHANGE with the better parent corrects house time by the offset less the port's asymmetry: at once and counted above
1 us, else by at most 100 ppm of the time since the last correction. It takes over the grandmaster one hop further and shows the
offset. HOLDOVER when the grandmaster is out of reach keeps house time and reports it. GRANDMASTER_ELECTION makes the lowest
reachable module serve in free run. SOURCE_CONFLICT with a lower-numbered module returns this one to fabric, floods that and
raises its event. Otherwise nothing but house time changes. (spec/12_fabric.md, The house clock, spec/12_fabric.md, Failures,
spec/13_dictionary_protocol.md, ODP-1: acyclic requests) -/
def Obligations.HouseClockCommands : Prop :=
  (∀ (s : State) (f : Fin 16) (offset : Int) (hops grandmaster t : Nat),
     s.clockRuns = true → s.portUp f.val = true → s.get 0x2400 0 = 0 → grandmaster ≠ s.moduleNo → s.betterParent f.val hops = true →
     1000000 < (offset - Bits.toInt 16 (s.get 0x7813 (f.val + 1))).natAbs → s.canonical = true →
     ∃ u, Sys2Proof.Machine.exec (.timestampExchange f offset hops grandmaster t) s = .next u ∧ (
       u.now = ((((s.at t).now : Nat) : Int) - (offset - Bits.toInt 16 (s.get 0x7813 (f.val + 1))) / 1000).toNat % 2 ^ 64 ∧ u.obj 0x2409 0 = (s.obj 0x2409 0 + 1) % 2 ^ 64 ∧ u.clock = { (s.at t).clock with house := u.now, parent := some f.val, lostAt := none, slewFrom := u.clock.slewFrom } ∧
       u.obj 0x2405 0 = 1 ∧ u.obj 0x2406 0 = grandmaster % 65536 ∧ u.obj 0x2407 0 = (hops + 1) % 256 ∧ u.obj 0x2408 0 = Bits.ofInt 32 (offset - Bits.toInt 16 (s.get 0x7813 (f.val + 1))) ∧
       Within [.clock, .dict] s u ∧
       u.clock.slewFrom = (s.at t).clock.elapsed ∧
       ObjsBut (fun i j => (i == 0x2405 || i == 0x2406 || i == 0x2407 || i == 0x2408 || i == 0x2409) && j == 0) s u)) ∧
  (∀ (s : State) (f : Fin 16) (offset : Int) (hops grandmaster t : Nat),
     s.clockRuns = true → s.portUp f.val = true → s.get 0x2400 0 = 0 → grandmaster ≠ s.moduleNo → s.betterParent f.val hops = true →
     (offset - Bits.toInt 16 (s.get 0x7813 (f.val + 1))).natAbs ≤ 1000000 → s.canonical = true →
     ∃ u, Sys2Proof.Machine.exec (.timestampExchange f offset hops grandmaster t) s = .next u ∧ (
       u.now = ((((s.at t).now : Nat) : Int) - ((s.at t).slew ((offset - Bits.toInt 16 (s.get 0x7813 (f.val + 1))) / 1000)).1).toNat % 2 ^ 64 ∧ u.clock.slewFrom = ((s.at t).slew ((offset - Bits.toInt 16 (s.get 0x7813 (f.val + 1))) / 1000)).2 ∧
       ((s.at t).slew ((offset - Bits.toInt 16 (s.get 0x7813 (f.val + 1))) / 1000)).1.natAbs ≤ ((s.at t).clock.elapsed - s.clock.slewFrom) / 10000 ∧ u.clock = { (s.at t).clock with house := u.now, parent := some f.val, lostAt := none, slewFrom := u.clock.slewFrom } ∧
       u.obj 0x2405 0 = 1 ∧ u.obj 0x2406 0 = grandmaster % 65536 ∧ u.obj 0x2407 0 = (hops + 1) % 256 ∧ u.obj 0x2408 0 = Bits.ofInt 32 (offset - Bits.toInt 16 (s.get 0x7813 (f.val + 1))) ∧
       Within [.clock, .dict] s u ∧
       ObjsBut (fun i j => (i == 0x2405 || i == 0x2406 || i == 0x2407 || i == 0x2408) && j == 0) s u)) ∧
  (∀ (s : State) (f : Fin 16) (offset : Int) (hops grandmaster t : Nat),
     (s.clockRuns = false ∨ s.portUp f.val = false ∨ s.get 0x2400 0 ≠ 0 ∨ grandmaster = s.moduleNo ∨ s.betterParent f.val hops = false) →
     ∃ u, Sys2Proof.Machine.exec (.timestampExchange f offset hops grandmaster t) s = .next u ∧ (
       Within [.clock] s u)) ∧
  (∀ (s : State) (t : Nat),
     s.clockRuns = true → s.get 0x2400 0 = 0 → s.get 0x2405 0 = 1 → s.reaches (s.get 0x2406 0) = false → s.canonical = true →
     ∃ u, Sys2Proof.Machine.exec (.holdover t) s = .next u ∧ (
       u.obj 0x2405 0 = 2 ∧ u.clock = { (s.at t).clock with parent := none, lostAt := some u.now } ∧ Reported 0x34 s u ∧
       Within ([.clock, .dict] ++ [.pwr, .mem, .memc, .obs, .odp, .out, .flash, .rel, .free]) s u ∧ Notes (fun i j => i == 0x2405 && j == 0) s u)) ∧
  (∀ (s : State) (t : Nat),
     (s.clockRuns = false ∨ s.get 0x2400 0 ≠ 0 ∨ s.get 0x2405 0 ≠ 1 ∨ s.reaches (s.get 0x2406 0) = true) →
     ∃ u, Sys2Proof.Machine.exec (.holdover t) s = .next u ∧ (
       Within [.clock] s u)) ∧
  (∀ (s : State) (t : Nat),
     s.clockRuns = true → s.get 0x2400 0 = 0 → s.get 0x2405 0 ≠ 1 → (match s.clock.lostAt with | some x => decide (x + 1000000 ≤ (s.at t).now) | none => decide (s.get 0x2405 0 = 0)) = true → s.otherSource = false → s.lowestModule = true → s.canonical = true →
     ∃ u, Sys2Proof.Machine.exec (.grandmasterElection t) s = .next u ∧ (
       u.obj 0x2405 0 = 3 ∧ u.obj 0x2406 0 = s.moduleNo ∧ u.obj 0x2407 0 = 0 ∧ u.clock = { (s.at t).clock with parent := none, lostAt := none } ∧
       Within [.clock, .dict] s u ∧ ObjsBut (fun i j => (i == 0x2405 || i == 0x2406 || i == 0x2407) && j == 0) s u)) ∧
  (∀ (s : State) (t : Nat),
     (s.clockRuns = false ∨ s.get 0x2400 0 ≠ 0 ∨ s.get 0x2405 0 = 1 ∨ (match s.clock.lostAt with | some x => decide (x + 1000000 ≤ (s.at t).now) | none => decide (s.get 0x2405 0 = 0)) = false ∨ s.otherSource = true ∨ s.lowestModule = false) →
     ∃ u, Sys2Proof.Machine.exec (.grandmasterElection t) s = .next u ∧ (
       Within [.clock] s u)) ∧
  (∀ (s : State) (other t : Nat),
     s.clockRuns = true → s.get 0x2400 0 ≠ 0 → other < s.moduleNo → s.canonical = true →
     ∃ u, Sys2Proof.Machine.exec (.sourceConflict other t) s = .next u ∧ (
       u.obj 0x2400 0 = 0 ∧ u.obj 0x2405 0 = 0 ∧ u.obj 0x2406 0 = 0xFFFF ∧ u.obj 0x2407 0 = 0 ∧ u.obj 0x240A 0 = (s.obj 0x240A 0 + 1) % 2 ^ 64 ∧
       .linkState u.ownLink ∈ u.out ∧ Raised (Config.eventCode 3) 0x2400 0 s u ∧
       u.clock = { (s.at t).clock with parent := none, lostAt := none, ppsLocked := false, ppsBad := 0 } ∧
       Within [.clock, .dict, .mem, .memc, .obs, .odp, .out, .pwr] s u ∧
       Notes (fun i j => (i == 0x2400 || i == 0x2405 || i == 0x2406 || i == 0x2407 || i == 0x240A) && j == 0) s u)) ∧
  (∀ (s : State) (other t : Nat),
     (s.clockRuns = false ∨ s.get 0x2400 0 = 0 ∨ s.moduleNo ≤ other) → ∃ u, Sys2Proof.Machine.exec (.sourceConflict other t) s = .next u ∧ (
       Within [.clock] s u))

/-- PATROL_READ moves to the next line and counts its bytes; a corrected error is counted against its channel, and errors above the
hourly threshold raise alert 3 once in the hour. IMBALANCE_WINDOW adds the busy cycles; the 1,000th counting window in a row
raises alert 2, the 1,000th calm one clears it. PEEK of a line of spill space, export window or logbook answers its 64 bytes,
and of any other place 0x0800_0041. FABRIC_RESIDUAL_CHECK at the end of an hour compares the hour's uncorrectable codewords with
the threshold and raises or clears alert 4. Otherwise nothing but house time changes. (spec/09_memory.md, Interleave,
spec/09_memory.md, Regions, spec/09_memory.md, DRAM ECC and what is checked, spec/09_memory.md, Objects,
spec/13_dictionary_protocol.md, Frames, spec/13_dictionary_protocol.md, ODP-1: acyclic requests, spec/15_reliability.md, The
silent-error goal, spec/15_reliability.md, Error records) -/
def Obligations.StacksCommands : Prop :=
  (∀ (s : State) (rep : EccReport) (t : Nat),
     s.stacksServed = true → rep = .clean → s.canonical = true →
     ∃ u, Sys2Proof.Machine.exec (.patrolRead rep t) s = .next u ∧ (
       u.memc.patrol = (s.memc.patrol + 1) % stackLines ∧ u.memc.seed = s.memc.seed ∧ u.memc.counting = s.memc.counting ∧ u.memc.calm = s.memc.calm ∧
       u.memc.void = s.memc.void ∧ Sparse.read (fun _ => 0) u.memc.scrubbed s.patrolChannel = Sparse.read (fun _ => 0) s.memc.scrubbed s.patrolChannel + 1 ∧ (s.overRate u s.patrolChannel = false → Within [.memc, .clock] s u) ∧
       (s.overRate u s.patrolChannel = true → Reported 0x31 s u ∧ u.memc.rateAlert.contains s.patrolChannel = true ∧
         Within ([.memc, .clock, .dict] ++ [.pwr, .mem, .memc, .obs, .odp, .out, .flash, .rel, .free]) s u ∧ Notes noObj s u))) ∧
  (∀ (s : State) (rep : EccReport) (t : Nat),
     s.stacksServed = true → rep = .corrected → s.canonical = true →
     ∃ u, Sys2Proof.Machine.exec (.patrolRead rep t) s = .next u ∧ (
       u.memc.patrol = (s.memc.patrol + 1) % stackLines ∧ u.memc.seed = s.memc.seed ∧ u.memc.counting = s.memc.counting ∧ u.memc.calm = s.memc.calm ∧
       u.memc.void = s.memc.void ∧ Sparse.read (fun _ => 0) u.memc.scrubbed s.patrolChannel = Sparse.read (fun _ => 0) s.memc.scrubbed s.patrolChannel + 1 ∧ u.obj 0x6011 (s.patrolChannel + 1) = (s.obj 0x6011 (s.patrolChannel + 1) + 1) % 2 ^ 64 ∧
       (s.overRate u s.patrolChannel = false → Within [.memc, .dict, .clock] s u ∧ ObjsBut (fun i j => i == 0x6011 && j == s.patrolChannel + 1) s u) ∧
       (s.overRate u s.patrolChannel = true → Reported 0x31 s u ∧ u.memc.rateAlert.contains s.patrolChannel = true ∧
         Within ([.memc, .clock, .dict] ++ [.pwr, .mem, .memc, .obs, .odp, .out, .flash, .rel, .free]) s u ∧ Notes (fun i j => i == 0x6011 && j == s.patrolChannel + 1) s u))) ∧
  (∀ (s : State) (rep : EccReport) (t : Nat),
     s.stacksServed = false → ∃ u, Sys2Proof.Machine.exec (.patrolRead rep t) s = .next u ∧ (
       Within [.clock] s u)) ∧
  (∀ (s : State) (busy : List Nat) (t : Nat),
     s.stacksServed = true → s.canonical = true →
     (if s.flag 0x6015 0 then imbalanced (busy.take 64) || decide (s.memc.calm + 1 < 1000) else !(imbalanced (busy.take 64)) || decide (s.memc.counting + 1 < 1000)) = true →
     ∃ u, Sys2Proof.Machine.exec (.imbalanceWindow busy t) s = .next u ∧ (
       u.memc.counting = (if imbalanced (busy.take 64) then Min.min (s.memc.counting + 1) 1000 else 0) ∧
       u.memc.calm = (if imbalanced (busy.take 64) then 0 else Min.min (s.memc.calm + 1) 1000) ∧ u.memc.patrol = s.memc.patrol ∧
       (∀ i : Fin 64, u.obj 0x6012 (i.val + 1) = (s.obj 0x6012 (i.val + 1) + busy.getD i.val 0) % 2 ^ 64) ∧ Within [.memc, .dict, .clock] s u ∧ ObjsBut (fun i j => i == 0x6012 && decide (1 ≤ j) && decide (j ≤ 64)) s u)) ∧
  (∀ (s : State) (busy : List Nat) (t : Nat),
     s.stacksServed = true → s.flag 0x6015 0 = false → imbalanced (busy.take 64) = true → 999 ≤ s.memc.counting → s.canonical = true →
     ∃ u, Sys2Proof.Machine.exec (.imbalanceWindow busy t) s = .next u ∧ (
       u.obj 0x6015 0 = 1 ∧ u.obj 0x6016 0 = (s.obj 0x6016 0 + 1) % 2 ^ 64 ∧ Reported 0x31 s u ∧ u.memc.counting = (if imbalanced (busy.take 64) then Min.min (s.memc.counting + 1) 1000 else 0) ∧
       u.memc.calm = (if imbalanced (busy.take 64) then 0 else Min.min (s.memc.calm + 1) 1000) ∧ u.memc.patrol = s.memc.patrol ∧
       (∀ i : Fin 64, u.obj 0x6012 (i.val + 1) = (s.obj 0x6012 (i.val + 1) + busy.getD i.val 0) % 2 ^ 64) ∧
       Within ([.memc, .dict, .clock] ++ [.pwr, .mem, .memc, .obs, .odp, .out, .flash, .rel, .free]) s u ∧ Notes (fun i j => i == 0x6012 && decide (1 ≤ j) && decide (j ≤ 64) || (i == 0x6015 || i == 0x6016) && j == 0) s u)) ∧
  (∀ (s : State) (busy : List Nat) (t : Nat),
     s.stacksServed = true → s.flag 0x6015 0 = true → imbalanced (busy.take 64) = false → 999 ≤ s.memc.calm → s.canonical = true →
     ∃ u, Sys2Proof.Machine.exec (.imbalanceWindow busy t) s = .next u ∧ (
       u.obj 0x6015 0 = 0 ∧ Reported 0x31 s u ∧ u.memc.counting = (if imbalanced (busy.take 64) then Min.min (s.memc.counting + 1) 1000 else 0) ∧
       u.memc.calm = (if imbalanced (busy.take 64) then 0 else Min.min (s.memc.calm + 1) 1000) ∧ u.memc.patrol = s.memc.patrol ∧
       (∀ i : Fin 64, u.obj 0x6012 (i.val + 1) = (s.obj 0x6012 (i.val + 1) + busy.getD i.val 0) % 2 ^ 64) ∧ Within ([.memc, .dict, .clock] ++ [.pwr, .mem, .memc, .obs, .odp, .out, .flash, .rel, .free]) s u ∧ Notes (fun i j => i == 0x6012 && decide (1 ≤ j) && decide (j ≤ 64) || i == 0x6015 && j == 0) s u)) ∧
  (∀ (s : State) (busy : List Nat) (t : Nat),
     s.stacksServed = false → ∃ u, Sys2Proof.Machine.exec (.imbalanceWindow busy t) s = .next u ∧ (
       Within [.clock] s u)) ∧
  (∀ (s : State) (r : Req),
     ∀ u, s.Admits svcRead r 0x6030 2 [] u → (u.inRegion 3 (u.get 0x6030 1) 64 ∨ u.inRegion 4 (u.get 0x6030 1) 64 ∨ u.inRegion 5 (u.get 0x6030 1) 64) →
     s.canonical = true →
     ∃ w, Sys2Proof.Machine.exec (.peek r) s = .next w ∧ (
       w.Answered svcRead r 0x6030 2 0 (s.memRead (s.get 0x6030 1) 64) ∧ w.memc = { s.memc with rd := w.memc.rd } ∧ Served [.memc] noObj s u w)) ∧
  (∀ (s : State) (r : Req),
     ∀ u, s.Admits svcRead r 0x6030 2 [] u → s.canonical = true →
     u.inRegion 3 (u.get 0x6030 1) 64 = false → u.inRegion 4 (u.get 0x6030 1) 64 = false → u.inRegion 5 (u.get 0x6030 1) 64 = false →
     ∃ w, Sys2Proof.Machine.exec (.peek r) s = .next w ∧ (
       w.Answered svcRead r 0x6030 2 0x08000041 [] ∧ Served [] noObj s u w)) ∧
  (∀ (s : State) (t : Nat),
     s.rel.fabHour < (s.at t).now / 3600000000000 → s.stacksServed = true → s.get 0x8003 0 < s.fabResidual - s.rel.fabBase → s.flag 0x8004 0 = false →
     s.canonical = true →
     ∃ u, Sys2Proof.Machine.exec (.fabricResidualCheck t) s = .next u ∧ (
       u.obj 0x8004 0 = 1 ∧ u.rel.fabBase = s.fabResidual ∧ u.rel.fabHour = u.now / 3600000000000 ∧ Reported 0x31 s u ∧ Within ([.dict, .clock] ++ [.pwr, .mem, .memc, .obs, .odp, .out, .flash, .rel, .free]) s u ∧ Notes (fun i j => i == 0x8004 && j == 0) s u)) ∧
  (∀ (s : State) (t : Nat),
     s.rel.fabHour < (s.at t).now / 3600000000000 → s.stacksServed = true → s.fabResidual - s.rel.fabBase < s.get 0x8003 0 → s.flag 0x8004 0 = true →
     s.canonical = true →
     ∃ u, Sys2Proof.Machine.exec (.fabricResidualCheck t) s = .next u ∧ (
       u.obj 0x8004 0 = 0 ∧ u.rel.fabBase = s.fabResidual ∧ u.rel.fabHour = u.now / 3600000000000 ∧ Reported 0x31 s u ∧ Within ([.dict, .clock] ++ [.pwr, .mem, .memc, .obs, .odp, .out, .flash, .rel, .free]) s u ∧ Notes (fun i j => i == 0x8004 && j == 0) s u)) ∧
  (∀ (s : State) (t : Nat),
     s.rel.fabHour < (s.at t).now / 3600000000000 → s.stacksServed = true →
     (if s.flag 0x8004 0 then decide (s.get 0x8003 0 ≤ s.fabResidual - s.rel.fabBase) else decide (s.fabResidual - s.rel.fabBase ≤ s.get 0x8003 0)) = true →
     ∃ u, Sys2Proof.Machine.exec (.fabricResidualCheck t) s = .next u ∧ (
       u.rel = { s.rel with fabHour := u.now / 3600000000000, fabBase := s.fabResidual } ∧ Within [.rel, .clock] s u)) ∧
  (∀ (s : State) (t : Nat),
     ((s.at t).now / 3600000000000 ≤ s.rel.fabHour ∨ s.stacksServed = false) → ∃ u, Sys2Proof.Machine.exec (.fabricResidualCheck t) s = .next u ∧ (
       Within [.clock] s u))

/-- SCRUB_PASS_START at a new multiple of the interval opens a pass of every idle digest unit. SCRUB_PASS_END counts the pass; late,
it is also counted and reported; without a mismatch its time is noted; a mismatch counts, makes the unit suspect, sets the
replacement flag and is recorded. While a DRAIN armed for watch has the unit, the pass goes on. CLEAR_REPLACEMENT_FLAG in an
authenticated session in PREPARE after a passed die scan clears the flag, and else is answered 0x0800_0010. SCAN_REQUEST in
DRAIN with a good scan set queues its arrays, else it is answered 0x0800_0010. FIELD_SCAN_START takes the first queued array, in
DRAIN without lists; FIELD_SCAN_COMPLETE gates it with its wings and row tags discarded, so that they read as free values, and
its banks emptied, and makes it suspect when it failed. Otherwise nothing but house time changes. (spec/01_module.md, Features
that share a resource, spec/07_arrays.md, Gating, dummy operations and the current governor, spec/13_dictionary_protocol.md,
Frames, spec/15_reliability.md, Weight-digest scrub, spec/15_reliability.md, Suspects and the whole-chip drain,
spec/15_reliability.md, Field scan, spec/16_observability.md, Range markers) -/
def Obligations.ScrubAndScanCommands : Prop :=
  (∀ (s : State) (t : Nat),
     s.coresRun = true → s.frozen = false → s.rel.lastPass < (s.at t).now / (s.get 0x8001 0 * 1000000) * (s.get 0x8001 0 * 1000000) →
     ∃ u, Sys2Proof.Machine.exec (.scrubPassStart t) s = .next u ∧ (
       u.rel = { s.rel with passes := u.rel.passes, lastPass := u.now / (s.get 0x8001 0 * 1000000) * (s.get 0x8001 0 * 1000000) } ∧
       (s.digestUnits.all fun x => u.rel.passes.any fun p => decide (p.unit = x)) = true ∧ u.rel.passes.take s.rel.passes.length = s.rel.passes ∧
       ((u.rel.passes.drop s.rel.passes.length).all fun p => decide (p.start = u.rel.lastPass) && decide (p.seqAt = s.get 0x7010 0)) = true ∧
       Within [.rel, .clock] s u)) ∧
  (∀ (s : State) (t : Nat),
     (s.coresRun = false ∨ s.frozen = true ∨ (s.at t).now / (s.get 0x8001 0 * 1000000) * (s.get 0x8001 0 * 1000000) ≤ s.rel.lastPass) →
     ∃ u, Sys2Proof.Machine.exec (.scrubPassStart t) s = .next u ∧ (
       Within [.clock] s u)) ∧
  (∀ (s : State) (x : DigestUnit) (bad : List Nat) (t : Nat),
     ∀ p, (s.rel.passes.find? fun p => p.unit = x) = some p → s.frozen = false → s.watching x = false → s.canonical = true → (s.at t).now ≤ p.start + 60000 →
     s.mismatches x bad = [] →
     ∃ u, Sys2Proof.Machine.exec (.scrubPassEnd x bad t) s = .next u ∧ (
       u.rel = { s.rel with passes := s.rel.passes.filter fun q => decide (q.unit ≠ x), good := (x, p.start, p.seqAt) :: s.rel.good.filter fun e => decide (e.1 ≠ x) } ∧
       u.obj 0x8005 0 = (s.obj 0x8005 0 + 1) % 2 ^ 64 ∧
       (match x with | .array a => decide (u.obj (0x8020 + a.val) 1 = p.start) | .bank b => decide (u.obj (0x8038 + b.val) 0 = p.start) | .front => true) = true ∧
       Within [.rel, .dict, .clock] s u ∧ ObjsBut (fun i j => i == 0x8005 && j == 0 || (match x with | .array a => i == 0x8020 + a.val && j == 1 | .bank b => i == 0x8038 + b.val && j == 0 | .front => false)) s u)) ∧
  (∀ (s : State) (x : DigestUnit) (bad : List Nat) (t : Nat),
     ∀ p, (s.rel.passes.find? fun p => p.unit = x) = some p → s.frozen = false → s.watching x = false → s.canonical = true → p.start + 60000 < (s.at t).now →
     s.mismatches x bad = [] →
     ∃ u, Sys2Proof.Machine.exec (.scrubPassEnd x bad t) s = .next u ∧ (
       u.rel = { s.rel with
         passes := s.rel.passes.filter fun q => decide (q.unit ≠ x), good := (x, p.start, p.seqAt) :: s.rel.good.filter fun e => decide (e.1 ≠ x)
         minute := u.rel.minute, suppressed := u.rel.suppressed } ∧
       u.obj 0x8005 0 = (s.obj 0x8005 0 + 1) % 2 ^ 64 ∧ u.obj 0x8006 0 = (s.obj 0x8006 0 + 1) % 2 ^ 64 ∧ Reported 0x30 s u ∧
       Within ([.dict, .clock] ++ [.pwr, .mem, .memc, .obs, .odp, .out, .flash, .rel, .free]) s u ∧ Notes (fun i j => i == 0x8005 && j == 0 || (match x with | .array a => i == 0x8020 + a.val && j == 1 | .bank b => i == 0x8038 + b.val && j == 0 | .front => false) || i == 0x8006 && j == 0) s u)) ∧
  (∀ (s : State) (x : DigestUnit) (bad : List Nat) (t : Nat),
     ∀ p, (s.rel.passes.find? fun p => p.unit = x) = some p → s.frozen = false → s.watching x = false → s.canonical = true → (s.at t).now ≤ p.start + 60000 →
     ∀ g, s.mismatches x bad = [g] →
     ∃ u, Sys2Proof.Machine.exec (.scrubPassEnd x bad t) s = .next u ∧ (
       u.rel.passes = s.rel.passes.filter (fun q => decide (q.unit ≠ x)) ∧ u.rel.good = s.rel.good ∧
       u.obj 0x8005 0 = (s.obj 0x8005 0 + 1) % 2 ^ 64 ∧ u.obj 0x8007 0 = (s.obj 0x8007 0 + 1) % 2 ^ 64 ∧
       u.flash.replacement = true ∧ u.flash.dieScanPassed = false ∧ u.dev.st = (if s.dev.st = .run then .drain else s.dev.st) ∧
       (match x with | .array a => (u.arrAt a.val).suspect | .bank b => u.tree.suspect.contains b.val | .front => true) = true ∧
       Recorded 0x12 (unitKind x).1 (unitKind x).2 s u ∧
       Within [.dict, .pwr, .dev, .clock, .odp, .flash, .mem, .pkts, .intake, .line, .egr, .cat, .tree, .arr, .sync, .fab, .memc, .rel, .obs, .free, .out] s u)) ∧
  (∀ (s : State) (x : DigestUnit) (bad : List Nat) (t : Nat),
     ((s.rel.passes.find? fun p => p.unit = x) = none ∨ s.frozen = true ∨ s.watching x = true) →
     ∃ u, Sys2Proof.Machine.exec (.scrubPassEnd x bad t) s = .next u ∧ (
       Within [.clock] s u)) ∧
  (∀ (s : State) (r : Req),
     ∀ u, s.Writable r 0x8010 0 1 u → u.inSession r 0x8010 = true → u.dev.st = .prepare → u.flash.dieScanPassed = true →
     ∃ w, Sys2Proof.Machine.exec (.clearReplacementFlag r) s = .next w ∧ (
       w.Answered svcWrite r 0x8010 0 0 [] ∧ w.flash = { s.flash with replacement := false } ∧ Served [.flash] noObj s u w)) ∧
  (∀ (s : State) (r : Req),
     ∀ u, s.Writable r 0x8010 0 1 u → (u.inSession r 0x8010 = false ∨ u.dev.st ≠ .prepare ∨ u.flash.dieScanPassed = false) →
     ∃ w, Sys2Proof.Machine.exec (.clearReplacementFlag r) s = .next w ∧ (
       w.Answered svcWrite r 0x8010 0 0x08000010 [] ∧ Served [] noObj s u w)) ∧
  (∀ (s : State) (r : Req) (mask : Nat),
     ∀ u, s.Writable r 0x8012 0 mask u → mask < 2 ^ u.arrays → u.dev.st = .drain → u.flash.scanGood = true → s.canonical = true →
     ∃ w, Sys2Proof.Machine.exec (.scanRequest r mask) s = .next w ∧ (
       w.Answered svcWrite r 0x8012 0 0 [] ∧ w.rel = { s.rel with scanQueue := (List.finRange 16).filter fun a => Bits.bit mask a.val || s.rel.scanQueue.contains a } ∧
       (w.rel.scanQueue.all fun a => decide (w.obj (0x8020 + a.val) 3 = 1)) = true ∧
       Served [.rel] (fun i j => (List.finRange 16).any fun a => i == 0x8020 + a.val && j == 3 && w.rel.scanQueue.contains a) s u w)) ∧
  (∀ (s : State) (r : Req) (mask : Nat),
     ∀ u, s.Writable r 0x8012 0 mask u → mask < 2 ^ u.arrays → (u.dev.st ≠ .drain ∨ u.flash.scanGood = false) →
     ∃ w, Sys2Proof.Machine.exec (.scanRequest r mask) s = .next w ∧ (
       w.Answered svcWrite r 0x8012 0 0x08000010 [] ∧ Served [] noObj s u w)) ∧
  (∀ (s : State) (a : Fin 16) (t : Nat),
     s.rel.scanning = none → s.rel.scanQueue.head? = some a → s.scanReady a.val = true → s.canonical = true →
     ∃ u, Sys2Proof.Machine.exec (.fieldScanStart a t) s = .next u ∧ (
       u.rel = { s.rel with scanning := some a, scanQueue := s.rel.scanQueue.drop 1, scanFrom := u.now } ∧ u.obj (0x5010 + a.val) 2 = 4 ∧
       u.obj (0x8020 + a.val) 3 = 2 ∧ u.arrAt a.val = { s.arrAt a.val with wantFrom := none } ∧ ArraysBut (fun b => b == a.val) s u ∧
       Within [.rel, .arr, .dict, .clock, .pwr, .mem, .memc, .obs, .free, .out] s u ∧
       Notes (fun i j => i == 0x5010 + a.val && j == 2 || i == 0x8020 + a.val && j == 3) s u)) ∧
  (∀ (s : State) (a : Fin 16) (t : Nat),
     (s.rel.scanning.isSome = true ∨ s.rel.scanQueue.head? ≠ some a ∨ s.scanReady a.val = false) →
     ∃ u, Sys2Proof.Machine.exec (.fieldScanStart a t) s = .next u ∧ (
       Within [.clock] s u)) ∧
  (∀ (s : State) (a : Fin 16) (pass : Bool) (pattern chains t : Nat),
     s.rel.scanning = some a → s.frozen = false → pass = true → s.canonical = true → s.isStretched a.val = false →
     ∃ u, Sys2Proof.Machine.exec (.fieldScanComplete a pass pattern chains t) s = .next u ∧ (
       u.rel = { s.rel with scanning := none } ∧ u.obj (0x5010 + a.val) 2 = 0 ∧ u.obj (0x8020 + a.val) 3 = 3 ∧ u.obj (0x8020 + a.val) 2 = u.now ∧
       u.obj (0x5010 + a.val) 3 = (s.obj (0x5010 + a.val) 3 + arithCycles (u.now - s.rel.scanFrom)) % 2 ^ 64 ∧
       u.arrAt a.val = { s.arrAt a.val with
         wings := [], tags := [], scanned := some s.free, bank0 := {}, bank1 := {}, wantFrom := (u.arrAt a.val).wantFrom
         rampFrom := (u.arrAt a.val).rampFrom, rampLen := (u.arrAt a.val).rampLen } ∧ ArraysBut (fun b => b == a.val) s u ∧
       Within [.rel, .arr, .dict, .clock, .pwr, .mem, .memc, .obs, .free, .out] s u ∧
       Notes (fun i j => i == 0x5010 + a.val && (j == 2 || j == 3) || i == 0x8020 + a.val && (j == 2 || j == 3)) s u)) ∧
  (∀ (s : State) (a : Fin 16) (pass : Bool) (pattern chains t : Nat),
     s.rel.scanning = some a → s.frozen = false → pass = false → s.canonical = true → (s.arrAt a.val).run = none →
     ∃ u, Sys2Proof.Machine.exec (.fieldScanComplete a pass pattern chains t) s = .next u ∧ (
       u.rel.scanning = none ∧ u.obj (0x5010 + a.val) 2 = 0 ∧ u.obj (0x8020 + a.val) 3 = 4 ∧
       (u.arrAt a.val).suspect = true ∧ (u.arrAt a.val).wings = [] ∧ (u.arrAt a.val).tags = [] ∧ (u.arrAt a.val).scanned = some s.free ∧
       (u.arrAt a.val).bank0.opened = false ∧ (u.arrAt a.val).bank1.opened = false ∧ u.flash.replacement = true ∧ u.flash.dieScanPassed = false ∧
       Recorded 0x15 1 a.val s u ∧ u.dev.st = (if s.dev.st = .run then .drain else s.dev.st) ∧
       Within [.dict, .pwr, .dev, .clock, .odp, .flash, .mem, .pkts, .intake, .line, .egr, .cat, .arr, .sync, .fab, .memc, .rel, .obs, .free, .out] s u)) ∧
  (∀ (s : State) (a : Fin 16) (pass : Bool) (pattern chains t : Nat),
     (s.rel.scanning ≠ some a ∨ s.frozen = true) → ∃ u, Sys2Proof.Machine.exec (.fieldScanComplete a pass pattern chains t) s = .next u ∧ (
       Within [.clock] s u))

/-- SAMPLING_STROBE at a new multiple of the interval counts one sample; with every group off it writes one record, whose time is
the strobe's and whose body says that no line came before it. While a freeze holds the writer the strobe is skipped and counted.
HOST_MARK and HOST_UNMARK are answered with success and write one record of their own kind with the id at the write offset,
under the next logbook sequence number; a mark of the traced id drives the trace-trigger pulse. Otherwise nothing but house time
changes. (spec/13_dictionary_protocol.md, Frames, spec/16_observability.md, The sampling strobe, spec/16_observability.md,
Sample groups, spec/16_observability.md, The logbook, spec/16_observability.md, Range markers) -/
def Obligations.MarkerAndSampleCommands : Prop :=
  (∀ (s : State) (t : Nat),
     s.strobes = true → s.obs.lastStrobe < ((s.at t).now / (s.get 0x8800 0 * 1000) * (s.get 0x8800 0 * 1000)) → s.frozen = false → s.canonical = true →
     ∃ u, Sys2Proof.Machine.exec (.samplingStrobe t) s = .next u ∧ (
       u.obj 0x8803 0 = (s.obj 0x8803 0 + 1) % 2 ^ 64 ∧ u.obs.lastStrobe = (u.now / (s.get 0x8800 0 * 1000) * (s.get 0x8800 0 * 1000)) ∧
       u.obs.skipped = none ∧ u.obs.freeze = s.obs.freeze ∧ u.obs.fifo = s.obs.fifo ∧ Within [.obs, .dict, .clock, .pwr, .mem, .memc, .free] s u ∧
       Notes (fun i j => i == 0x8803 && j == 0) s u)) ∧
  (∀ (s : State) (t : Nat),
     s.strobes = true → s.obs.lastStrobe < ((s.at t).now / (s.get 0x8800 0 * 1000) * (s.get 0x8800 0 * 1000)) → s.frozen = false → s.canonical = true → s.get 0x8801 0 = 0 → s.obs.lost = [] →
     s.obs.skipped = none → s.logFull 1 = false →
     ∃ u, Sys2Proof.Machine.exec (.samplingStrobe t) s = .next u ∧ (
       u.obj 0x8803 0 = (s.obj 0x8803 0 + 1) % 2 ^ 64 ∧ u.obj 0x880B 0 = (s.obj 0x880B 0 + 1) % 2 ^ 32 ∧
       u.memRead (s.regionBase 3 + s.get 0x8809 0) 32 =
         Bits.natLe 8 ((u.now / (s.get 0x8800 0 * 1000) * (s.get 0x8800 0 * 1000))) ++ Bits.natLe 4 (s.get 0x880B 0) ++ [2, 0, 0, 0] ++ List.replicate 8 0 ++ Bits.natLe 8 u.now ∧
       BytesBut (fun x => decide (s.regionBase 3 + s.get 0x8809 0 ≤ x) && decide (x < s.regionBase 3 + s.get 0x8809 0 + 64)) s u ∧ u.obs = { s.obs with lastStrobe := (u.now / (s.get 0x8800 0 * 1000) * (s.get 0x8800 0 * 1000)) } ∧ Within [.obs, .dict, .clock, .mem, .memc] s u ∧ Notes (fun i j => i == 0x8803 && j == 0) s u)) ∧
  (∀ (s : State) (t : Nat),
     s.strobes = true → s.obs.lastStrobe < ((s.at t).now / (s.get 0x8800 0 * 1000) * (s.get 0x8800 0 * 1000)) → s.frozen = true → s.canonical = true →
     ∃ u, Sys2Proof.Machine.exec (.samplingStrobe t) s = .next u ∧ (
       u.obj 0x8804 0 = (s.obj 0x8804 0 + 1) % 2 ^ 64 ∧
       u.obs = { s.obs with
         lastStrobe := (u.now / (s.get 0x8800 0 * 1000) * (s.get 0x8800 0 * 1000))
         skipped := some (match s.obs.skipped with | some x => (x.1, (u.now / (s.get 0x8800 0 * 1000) * (s.get 0x8800 0 * 1000)), x.2.2 + 1) | none => ((u.now / (s.get 0x8800 0 * 1000) * (s.get 0x8800 0 * 1000)), (u.now / (s.get 0x8800 0 * 1000) * (s.get 0x8800 0 * 1000)), 1)) } ∧
       Within [.obs, .dict, .clock] s u ∧ ObjsBut (fun i j => i == 0x8804 && j == 0) s u)) ∧
  (∀ (s : State) (t : Nat),
     (s.strobes = false ∨ ((s.at t).now / (s.get 0x8800 0 * 1000) * (s.get 0x8800 0 * 1000)) ≤ s.obs.lastStrobe) → ∃ u, Sys2Proof.Machine.exec (.samplingStrobe t) s = .next u ∧ (
       Within [.clock] s u)) ∧
  (∀ (s : State) (r : Req) (id : Nat),
     ∀ u, s.Writable r 0x8811 0 (id % 65536) u → (u.obs.lost = [] ∧ u.logFull 1 = false ∧ u.frozen = false) → u.logServed = true → s.canonical = true → id % 65536 ≠ s.get 0x8810 3 →
     ∃ w, Sys2Proof.Machine.exec (.hostMark r id) s = .next w ∧ (
       w.Answered svcWrite r 0x8811 0 0 [] ∧ w.obj 0x880B 0 = (s.obj 0x880B 0 + 1) % 2 ^ 32 ∧
       w.memRead (s.regionBase 3 + s.get 0x8809 0) 16 = Bits.natLe 8 w.now ++ Bits.natLe 4 (s.get 0x880B 0) ++ [0x10, 0, 0, 0] ∧
       w.memRead (s.regionBase 3 + s.get 0x8809 0 + 16) 8 = Bits.natLe 2 (id % 65536) ++ [0xFF, 2, 0, 0, 0, 0] ∧ BytesBut (fun x => decide (s.regionBase 3 + s.get 0x8809 0 ≤ x) && decide (x < s.regionBase 3 + s.get 0x8809 0 + 64)) s w ∧
       Served [.free, .mem, .memc] (fun i _ => noteObj i) s u w)) ∧
  (∀ (s : State) (r : Req) (id : Nat),
     ∀ u, s.Writable r 0x8811 0 (id % 65536) u → id % 65536 = s.get 0x8810 3 → s.flag 0x8810 2 = true → s.canonical = true →
     ∃ w, Sys2Proof.Machine.exec (.hostMark r id) s = .next w ∧ (
       w.Answered svcWrite r 0x8811 0 0 [] ∧ w.pwr.evtOut = true ∧ w.pwr.evtEnd = some (w.now + 1000) ∧ (s.pwr.evtOut = false → .evtOut w.now ∈ w.out) ∧
       Within [.odp, .out, .dict, .clock, .free, .pwr, .mem, .memc, .obs] s w)) ∧
  (∀ (s : State) (r : Req) (id : Nat),
     ∀ u, s.Writable r 0x8811 0 (65536 + id % 65536) u → (u.obs.lost = [] ∧ u.logFull 1 = false ∧ u.frozen = false) → u.logServed = true → s.canonical = true →
     ∃ w, Sys2Proof.Machine.exec (.hostUnmark r id) s = .next w ∧ (
       w.Answered svcWrite r 0x8811 0 0 [] ∧ w.obj 0x880B 0 = (s.obj 0x880B 0 + 1) % 2 ^ 32 ∧
       w.memRead (s.regionBase 3 + s.get 0x8809 0) 16 = Bits.natLe 8 w.now ++ Bits.natLe 4 (s.get 0x880B 0) ++ [0x11, 0, 0, 0] ∧
       w.memRead (s.regionBase 3 + s.get 0x8809 0 + 16) 8 = Bits.natLe 2 (id % 65536) ++ [0xFF, 2, 0, 0, 0, 0] ∧ BytesBut (fun x => decide (s.regionBase 3 + s.get 0x8809 0 ≤ x) && decide (x < s.regionBase 3 + s.get 0x8809 0 + 64)) s w ∧
       Served [.free, .mem, .memc] (fun i _ => noteObj i) s u w))

/-- HANG_DECLARED of a list without progress for the watchdog time counts it and reports it; with no dump it abandons the list, with
one it asks for the freeze and leaves the list to it. FREEZE_REQUEST is answered and keeps its time. FREEZE holds the units once
a request's time has come; one that can not be stored is counted as lost. DUMP_WRITTEN stores the dump, counts it, lets the
units go on and abandons the list that hung. HANG_DUMP_CLEAR forgets the dump, and is refused while it is uploaded. A holding
list, a watchdog of 0, a request before its time or a dump not asked for changes nothing but house time. (spec/01_module.md,
Clock-domain crossings, spec/08_prompters.md, Errors on the cue path, spec/13_dictionary_protocol.md, Frames,
spec/14_dictionary_map.md, Domain objects, spec/16_observability.md, The logbook, spec/16_observability.md, Hangs,
spec/16_observability.md, Hang dumps) -/
def Obligations.HangAndDumpCommands : Prop :=
  (∀ (s : State) (a : Fin 16) (t : Nat),
     ∀ r, (s.arrAt a.val).run = some r → s.get (0x8850 + a.val) 1 ≠ 0 → s.coresRun = true → r.holding (s.at t).now = false → (s.obs.freeze.all fun f => decide (f.hang ≠ some a.val) && f.frozen.isNone) = true →
     r.progress + s.get (0x8850 + a.val) 1 * 1000 ≤ (s.at t).now → s.canonical = true → Bits.bit (s.get 0x8840 0) 0 = false → r.tap = none →
     ∃ u, Sys2Proof.Machine.exec (.hangDeclared a t) s = .next u ∧ (
       (u.arrAt a.val).run = none ∧ (u.arrAt a.val).susp = (s.arrAt a.val).susp.filter (fun y => decide (y ≠ r)) ∧
       ((u.arrAt a.val).bank0.opened || (u.arrAt a.val).bank1.opened) = false ∧
       (∀ b : Fin 16, b.val / 2 ≠ a.val / 2 → u.arrAt b.val = s.arrAt b.val) ∧
       u.obj (0x8850 + a.val) 2 = (s.obj (0x8850 + a.val) 2 + 1) % 2 ^ 64 ∧
       u.obj (0x5040 + a.val) 5 = (s.obj (0x5040 + a.val) 5 + 1) % 2 ^ 64 ∧ Reported 0x0D s u ∧ u.obs.freeze = s.obs.freeze ∧
       Within ([.arr, .dict, .clock, .sync] ++ [.pwr, .mem, .memc, .obs, .odp, .out, .flash, .rel, .free]) s u ∧
       Notes (fun i j => i == 0x8850 + a.val && (j == 2 || j == 3) || i == 0x5040 + a.val && (j == 1 || j == 5) || i == ringObj a.val r.ring && j == 8) s u)) ∧
  (∀ (s : State) (a : Fin 16) (t : Nat),
     ∀ r, (s.arrAt a.val).run = some r → s.get (0x8850 + a.val) 1 ≠ 0 → s.coresRun = true → r.holding (s.at t).now = false →
     r.progress + s.get (0x8850 + a.val) 1 * 1000 ≤ (s.at t).now → s.canonical = true → Bits.bit (s.get 0x8840 0) 0 = true → s.dumpBlocked = false →
     ∃ u, Sys2Proof.Machine.exec (.hangDeclared a t) s = .next u ∧ (
       u.obs.freeze = some ⟨0, u.now, s.flash.recNo, some a.val, none⟩ ∧
       u.obj (0x8850 + a.val) 2 = (s.obj (0x8850 + a.val) 2 + 1) % 2 ^ 64 ∧ Reported 0x0D s u ∧
       Within ([.dict, .clock] ++ [.pwr, .mem, .memc, .obs, .odp, .out, .flash, .rel, .free]) s u ∧ Notes (fun i j => i == 0x8850 + a.val && j == 2) s u)) ∧
  (∀ (s : State) (a : Fin 16) (t : Nat),
     ((s.arrAt a.val).run.all fun r => decide (s.get (0x8850 + a.val) 1 = 0) || !s.coresRun || r.holding (s.at t).now || !(s.obs.freeze.all fun f => decide (f.hang ≠ some a.val) && f.frozen.isNone) ||
       decide ((s.at t).now < r.progress + s.get (0x8850 + a.val) 1 * 1000)) = true →
     ∃ u, Sys2Proof.Machine.exec (.hangDeclared a t) s = .next u ∧ (
       Within [.clock] s u)) ∧
  (∀ (s : State) (r : Req) (at_ : Nat),
     ∀ u, s.Writable r 0x8842 0 at_ u → at_ < 2 ^ 64 →
     ∃ w, Sys2Proof.Machine.exec (.freezeRequest r at_) s = .next w ∧ (
       w.Answered svcWrite r 0x8842 0 0 [] ∧ w.obs = { s.obs with freezeAt := some (if at_ = 0 then w.now else at_) } ∧ Served [.obs] noObj s u w)) ∧
  (∀ (s : State) (t : Nat),
     ∀ x, s.obs.freezeAt = some x → x ≤ (s.at t).now → s.dumpBlocked = false →
     ∃ u, Sys2Proof.Machine.exec (.freeze t) s = .next u ∧ (
       u.obs = { s.obs with freezeAt := none, freeze := some ⟨3, x, 0, none, some u.now⟩ } ∧ Within [.obs, .clock] s u)) ∧
  (∀ (s : State) (t : Nat),
     ∀ x, s.obs.freezeAt = some x → x ≤ (s.at t).now → s.dumpBlocked = true → s.obs.freeze = none → s.canonical = true →
     ∃ u, Sys2Proof.Machine.exec (.freeze t) s = .next u ∧ (
       u.obs.freezeAt = none ∧ u.obs.freeze = none ∧ u.obj 0x8844 0 = (s.obj 0x8844 0 + 1) % 2 ^ 64 ∧ Within [.obs, .clock, .dict, .mem, .memc, .pwr] s u ∧
       Notes (fun i j => i == 0x8844 && j == 0) s u)) ∧
  (∀ (s : State) (t : Nat),
     ∀ f, s.obs.freeze = some f → (s.obs.freezeAt.all fun x => decide ((s.at t).now < x)) = true → f.frozen = none → f.at_ ≤ (s.at t).now →
     ∃ u, Sys2Proof.Machine.exec (.freeze t) s = .next u ∧ (
       u.obs = { s.obs with freeze := some { f with frozen := some u.now } } ∧ Within [.obs, .clock] s u)) ∧
  (∀ (s : State) (t : Nat),
     ((s.obs.freezeAt.all fun x => decide ((s.at t).now < x)) && (s.obs.freeze.all fun f => f.frozen.isSome || decide ((s.at t).now < f.at_))) = true →
     ∃ u, Sys2Proof.Machine.exec (.freeze t) s = .next u ∧ (
       Within [.clock] s u)) ∧
  (∀ (s : State) (t : Nat),
     ∀ f, s.obs.freeze = some f → ∀ x, f.frozen = some x → f.hang = none → s.canonical = true → s.obs.fifo = [] → s.fab.bells = [] →
     ∃ u, Sys2Proof.Machine.exec (.dumpWritten t) s = .next u ∧ (
       u.obs = { s.obs with dump := true, dumpTime := f.at_, freeze := none } ∧ u.obj 0x8843 0 = (s.obj 0x8843 0 + 1) % 2 ^ 64 ∧
       u.memc.void = (s.dumpBase, dumpSize, some s.free) :: s.memc.void ∧
       (s.LogSound → BytesBut (fun y => s.inLog y || decide (s.dumpBase ≤ y) && decide (y < s.dumpBase + dumpSize)) s u) ∧
       Within [.obs, .dict, .clock, .mem, .memc, .free, .fab] s u ∧ ObjsBut (fun i j => noteObj i || i == 0x8843 && j == 0) s u ∧ u.fab = s.fab)) ∧
  (∀ (s : State) (t : Nat),
     ∀ f, s.obs.freeze = some f → ∀ x, f.frozen = some x → ∀ b, f.hang = some b → b < 16 → ∀ r, (s.arrAt b).run = some r → s.canonical = true → s.obs.fifo = [] →
     s.fab.bells = [] → r.tap = none →
     ∃ u, Sys2Proof.Machine.exec (.dumpWritten t) s = .next u ∧ (
       (u.arrAt b).run = none ∧ u.obs = { s.obs with dump := true, dumpTime := f.at_, freeze := none } ∧
       u.obj 0x8843 0 = (s.obj 0x8843 0 + 1) % 2 ^ 64 ∧ u.obj (0x5040 + b) 5 = (s.obj (0x5040 + b) 5 + 1) % 2 ^ 64 ∧
       (∀ c : Fin 16, c.val / 2 ≠ b / 2 → u.arrAt c.val = s.arrAt c.val) ∧ Within [.obs, .dict, .clock, .mem, .memc, .free, .fab, .arr, .sync] s u ∧
       ObjsBut (fun i j => noteObj i || i == 0x8843 && j == 0 || i == 0x8850 + b && j == 3 || i == 0x5040 + b && (j == 1 || j == 5) ||
         i == ringObj b r.ring && j == 8) s u)) ∧
  (∀ (s : State) (t : Nat),
     s.frozen = false → ∃ u, Sys2Proof.Machine.exec (.dumpWritten t) s = .next u ∧ (
       Within [.clock] s u)) ∧
  (∀ (s : State) (r : Req),
     ∀ u, s.Writable r 0xA022 0 1 u → (u.odp.transfers.any fun x => x.upload && decide (x.idx = 0xA020)) = false →
     ∃ w, Sys2Proof.Machine.exec (.hangDumpClear r) s = .next w ∧ (
       w.Answered svcWrite r 0xA022 0 0 [] ∧ w.obs = { s.obs with dump := false, dumpTime := 0 } ∧ Served [.obs] noObj s u w)) ∧
  (∀ (s : State) (r : Req),
     ∀ u, s.Writable r 0xA022 0 1 u → (u.odp.transfers.any fun x => x.upload && decide (x.idx = 0xA020)) = true →
     ∃ w, Sys2Proof.Machine.exec (.hangDumpClear r) s = .next w ∧ (
       w.Answered svcWrite r 0xA022 0 0x08000010 [] ∧ Served [] noObj s u w))

/-- OWNER_KEY_HASH_CONFIRM in PREPARE with the written value confirmed sets the owner key hash; unequal values are answered
0x0200_0006 and set nothing; a hash once set is answered 0x0200_0002. ENFORCEMENT_PROGRAM in PREPARE adds the bits of the mask
to the enforcement fuses and clears none; a mask with other bits, or with bits [2:0] before the hash is set, is answered
0x0200_0006. RAISE_COUNTER in PREPARE or DRAIN raises the firmware counter, outside a trial, to the running firmware's security
version, and a model counter, with no model retiring, to the active image's, at most 64 and never lower; it touches no other
counter and raises its event. Outside those states each is answered with its abort code and changes nothing.
(spec/13_dictionary_protocol.md, Frames, spec/13_dictionary_protocol.md, ODP-1: acyclic requests, spec/17_trust.md, Fuses,
spec/17_trust.md, Signed objects, spec/17_trust.md, Anti-rollback, spec/17_trust.md, Owner provisioning and host keys) -/
def Obligations.FuseCommands : Prop :=
  (∀ (s : State) (r : Req) (hash : Nat),
     ∀ u, s.Admits svcWrite r 0x9004 2 (Bits.natLe 32 hash) u → u.inSession r 0x9004 = true → u.trust.ownerHash = 0 → u.dev.st = .prepare →
     ∃ v, Sys2Proof.Machine.exec (.ownerKeyHashConfirm r hash) s = .next v ∧ (
       (if u.trust.ownerWrite = some (hash % 2 ^ 256) then
         v.Answered svcWrite r 0x9004 2 0 [] ∧ v.trust = { s.trust with ownerHash := hash % 2 ^ 256, ownerWrite := none }
       else v.Answered svcWrite r 0x9004 2 0x02000006 [] ∧ v.trust = s.trust) ∧ Served [.trust] noObj s u v)) ∧
  (∀ (s : State) (r : Req) (hash : Nat),
     ∀ u, s.Writable r 0x9004 2 hash u → (u.trust.ownerHash ≠ 0 ∨ u.dev.st ≠ .prepare) →
     ∃ v, Sys2Proof.Machine.exec (.ownerKeyHashConfirm r hash) s = .next v ∧ (
       v.Answered svcWrite r 0x9004 2 (if u.trust.ownerHash ≠ 0 then 0x02000002 else 0x08000010) [] ∧ Served [] noObj s u v)) ∧
  (∀ (s : State) (r : Req) (mask : Nat),
     ∀ u, s.Admits svcWrite r 0x9005 0 (Bits.natLe 1 mask) u → u.inSession r 0x9005 = true → u.dev.st = .prepare → mask < 64 →
     (u.trust.ownerHash ≠ 0 ∨ mask % 8 = 0) →
     ∃ v, Sys2Proof.Machine.exec (.enforcementProgram r mask) s = .next v ∧ (
       v.Answered svcWrite r 0x9005 0 0 [] ∧ v.trust = { s.trust with enforcement := s.trust.enforcement ||| mask } ∧ Served [.trust] noObj s u v)) ∧
  (∀ (s : State) (r : Req) (mask : Nat),
     ∀ u, s.Writable r 0x9005 0 mask u → mask < 256 → (u.dev.st ≠ .prepare ∨ 64 ≤ mask ∨ (u.trust.ownerHash = 0 ∧ mask % 8 ≠ 0)) →
     ∃ v, Sys2Proof.Machine.exec (.enforcementProgram r mask) s = .next v ∧ (
       v.Answered svcWrite r 0x9005 0 (if u.dev.st ≠ .prepare then 0x08000010 else 0x02000006) [] ∧ Served [] noObj s u v)) ∧
  (∀ (s : State) (r : Req) (c : Nat),
     ∀ u, s.Admits svcWrite r 0x9007 0 (Bits.natLe 1 c) u → u.inSession r 0x9007 = true → (u.dev.st = .prepare ∨ u.dev.st = .drain) → c = 0 → u.flash.onTrial = false →
     s.canonical = true →
     ∃ v, Sys2Proof.Machine.exec (.raiseCounter r c) s = .next v ∧ (
       .answer (mkAnswer svcWrite r 0x9007 0 0 []) ∈ v.out ∧ v.counter 0 = Max.max (s.counter 0) (Min.min 64 u.runningFw.counter) ∧ (∀ i : Fin 64, i.val ≠ c → v.counter i.val = s.counter i.val) ∧
       v.trust = { s.trust with counters := v.trust.counters, vendor0Revoked := v.trust.vendor0Revoked } ∧ s.trust.Blown v.trust ∧ Raised 0x00030002 0x9006 (c + 1) u v ∧
       Within [.odp, .out, .dict, .clock, .trust, .mem, .memc, .obs, .pwr] s v ∧ Notes (fun i j => ansObj i j) s v)) ∧
  (∀ (s : State) (r : Req) (c : Nat),
     ∀ u, s.Admits svcWrite r 0x9007 0 (Bits.natLe 1 c) u → u.inSession r 0x9007 = true → (u.dev.st = .prepare ∨ u.dev.st = .drain) → 4 ≤ c → c < 64 →
     u.lib.retiring = none → ∀ m, u.lib.active = some m → modelCounter (u.get (0x6820 + m.slot) 2) = c →
     u.slotsBelow c (Max.max (u.counter c) (Min.min 64 m.version)) = [] → s.canonical = true →
     ∃ v, Sys2Proof.Machine.exec (.raiseCounter r c) s = .next v ∧ (
       .answer (mkAnswer svcWrite r 0x9007 0 0 []) ∈ v.out ∧ v.counter c = Max.max (s.counter c) (Min.min 64 m.version) ∧ v.trust.vendor0Revoked = s.trust.vendor0Revoked ∧ (∀ i : Fin 64, i.val ≠ c → v.counter i.val = s.counter i.val) ∧
       v.trust = { s.trust with counters := v.trust.counters, vendor0Revoked := v.trust.vendor0Revoked } ∧ s.trust.Blown v.trust ∧ Raised 0x00030002 0x9006 (c + 1) u v ∧
       Within [.odp, .out, .dict, .clock, .trust, .mem, .memc, .obs, .pwr] s v ∧ Notes (fun i j => ansObj i j) s v)) ∧
  (∀ (s : State) (r : Req) (c : Nat),
     ∀ u, s.Writable r 0x9007 0 c u → c < 64 →
     ((u.dev.st ≠ .prepare ∧ u.dev.st ≠ .drain) ∨ (c = 0 ∧ u.flash.onTrial = true) ∨ (c = 1 ∧ u.flash.scanGood = false) ∨ c = 3 ∨ (4 ≤ c ∧ u.lib.retiring.isSome = true)) →
     ∃ v, Sys2Proof.Machine.exec (.raiseCounter r c) s = .next v ∧ (
       v.Answered svcWrite r 0x9007 0 (if u.dev.st ≠ .prepare ∧ u.dev.st ≠ .drain then 0x08000011 else if c = 3 then 0x02000006 else if 4 ≤ c then 0x08000043 else 0x08000010) [] ∧
       Served [] noObj s u v))

/-- ACTIVATE_FIRMWARE_SLOT outside a trial makes the slot preferred, on trial exactly when it is not the running slot; on a trial it
is answered 0x0800_0010. CONFIRM_FIRMWARE on a trial ends it, and without one changes nothing. HOST_KEY_SLOT_WRITE stores the
key, closes the sessions opened under that slot, keeps the others, and is refused when it would empty the last key slot.
(spec/13_dictionary_protocol.md, Frames, spec/13_dictionary_protocol.md, ODP-1: acyclic requests,
spec/13_dictionary_protocol.md, ODP-2: cyclic images, spec/13_dictionary_protocol.md, ODP-3: sessions and segmented transfer,
spec/17_trust.md, Changing firmware, spec/17_trust.md, Owner provisioning and host keys, spec/17_trust.md, Objects) -/
def Obligations.FirmwareAndHostKeys : Prop :=
  (∀ (s : State) (r : Req) (slot : Nat),
     ∀ u, s.Writable r 0x9009 0 slot u → slot ≤ 1 → u.flash.onTrial = false →
     ∃ v, Sys2Proof.Machine.exec (.activateFirmwareSlot r slot) s = .next v ∧ (
       v.Answered svcWrite r 0x9009 0 0 [] ∧ v.flash = { s.flash with
         preferred := slot, previous := s.flash.running.getD s.flash.preferred, trial := decide (slot ≠ s.flash.running.getD s.flash.preferred), trialRan := false } ∧
       Served [.flash] noObj s u v)) ∧
  (∀ (s : State) (r : Req) (slot : Nat),
     ∀ u, s.Writable r 0x9009 0 slot u → u.flash.onTrial = true →
     ∃ v, Sys2Proof.Machine.exec (.activateFirmwareSlot r slot) s = .next v ∧ (
       v.Answered svcWrite r 0x9009 0 0x08000010 [] ∧ Served [] noObj s u v)) ∧
  (∀ (s : State) (r : Req),
     ∀ u, s.Writable r 0x900A 0 1 u →
     ∃ v, Sys2Proof.Machine.exec (.confirmFirmware r) s = .next v ∧ (
       v.Answered svcWrite r 0x900A 0 0 [] ∧
       v.flash = (if s.flash.onTrial then { s.flash with trial := false, trialRan := false, previous := s.flash.preferred } else s.flash) ∧
       Served [.flash] noObj s u v)) ∧
  (∀ (s : State) (r : Req) (k : Fin 8) (key : Nat),
     ∀ u, s.Writable r (0x9010 + k.val) 0 key u → s.canonical = true → key < 2 ^ 512 → key ≠ 0 →
     ∃ v, Sys2Proof.Machine.exec (.hostKeySlotWrite r k key) s = .next v ∧ (
       v.Answered svcWrite r (0x9010 + k.val) 0 0 [] ∧ v.obj (0x9010 + k.val) 0 = key ∧
       v.odp = { u.odp with history := v.odp.history, sessions := u.odp.sessions.filter fun x => !(x.authed && !x.bootstrap && decide (x.slot = k.val)) } ∧
       v.out.tail = s.out ∧ Within [.odp, .out, .dict, .clock] s v ∧ ObjsBut (fun i j => i == 0x9010 + k.val && j == 0 || ansObj i j) s v)) ∧
  (∀ (s : State) (r : Req) (k : Fin 8) (key : Nat),
     ∀ u, s.Writable r (0x9010 + k.val) 0 key u → key = 0 → u.get (0x9010 + k.val) 0 ≠ 0 →
     ((List.range 8).all fun j => j == k.val || u.get (0x9010 + j) 0 == 0) = true →
     ∃ v, Sys2Proof.Machine.exec (.hostKeySlotWrite r k key) s = .next v ∧ (
       v.Answered svcWrite r (0x9010 + k.val) 0 0x02000006 [] ∧ Served [] noObj s u v))

/-- ATTESTATION_NONCE without debug taint takes the report, with it is answered 0x0800_0010; ATTESTATION_REPORT_READY places the
report in 0x901C:00 and leaves none under assembly. DEBUG_TOKEN in PREPARE or TEST: a valid token sets its level, draws a new
challenge and is counted, an invalid one is refused 0x0400_0002 and counted. DEBUG_RELOCK sets level 0 in every state. With the
rails good the debug port runs BYPASS, whose register holds 0, for every instruction above its level, and answers IDCODE
0x1D716A4B at any level; boundary scan at level 1 or 2 reads a free value. (spec/13_dictionary_protocol.md, Frames,
spec/13_dictionary_protocol.md, ODP-1: acyclic requests, spec/17_trust.md, Identity and attestation, spec/17_trust.md, Debug
unlock, spec/17_trust.md, Objects) -/
def Obligations.AttestationAndDebug : Prop :=
  (∀ (s : State) (r : Req) (nonce : Nat),
     ∀ u, s.Writable r 0x901B 0 nonce u → nonce < 2 ^ 256 → u.trust.tainted = false →
     ∃ v, Sys2Proof.Machine.exec (.attestationNonce r nonce) s = .next v ∧ (
       v.Answered svcWrite r 0x901B 0 0 [] ∧ v.trust = { s.trust with report := some (Bits.leNat (u.report nonce), u.now) } ∧ Served [.trust] noObj s u v)) ∧
  (∀ (s : State) (r : Req) (nonce : Nat),
     ∀ u, s.Writable r 0x901B 0 nonce u → u.trust.tainted = true →
     ∃ v, Sys2Proof.Machine.exec (.attestationNonce r nonce) s = .next v ∧ (
       v.Answered svcWrite r 0x901B 0 0x08000010 [] ∧ Served [] noObj s u v)) ∧
  (∀ (s : State) (t : Nat),
     ∀ x, s.trust.report = some x → s.canonical = true →
     ∃ v, Sys2Proof.Machine.exec (.attestationReportReady t) s = .next v ∧ (
       v.obj 0x901C 0 = x.1 ∧ v.trust = { s.trust with report := none } ∧ Within [.trust, .dict, .clock] s v ∧ ObjsBut (fun i j => i == 0x901C && j == 0) s v)) ∧
  (∀ (s : State) (t : Nat),
     s.trust.report = none → ∃ v, Sys2Proof.Machine.exec (.attestationReportReady t) s = .next v ∧ (
       Within [.clock] s v)) ∧
  (∀ (s : State) (r : Req) (token : Bytes),
     ∀ u, s.Admits svcWrite r 0x9021 0 token u → u.inSession r 0x9021 = true → token.length = 256 → Bits.leNat token ≠ 0 → (u.dev.st = .prepare ∨ u.dev.st = .test) →
     s.canonical = true →
     ∃ v, Sys2Proof.Machine.exec (.debugToken r token) s = .next v ∧ (
       (if u.tokenValid token = true then
         v.Answered svcWrite r 0x9021 0 0 [] ∧ v.trust = { s.trust with
           level := Bits.le token 124 2, tainted := s.trust.tainted || decide (Bits.le token 124 2 = 2), challenge := v.trust.challenge } ∧
         v.trust.challenge < 2 ^ 256 ∧ v.obj 0x9023 0 = (s.obj 0x9023 0 + 1) % 2 ^ 64 ∧ Served [.trust, .free] (fun i j => i == 0x9023 && j == 0) s u v
       else v.Answered svcWrite r 0x9021 0 0x04000002 [] ∧ v.obj 0x9024 0 = (s.obj 0x9024 0 + 1) % 2 ^ 64 ∧ Served [] (fun i j => i == 0x9024 && j == 0) s u v))) ∧
  (∀ (s : State) (r : Req) (token : Bytes),
     ∀ u, s.Admits svcWrite r 0x9021 0 token u → u.inSession r 0x9021 = true → token.length = 256 → Bits.leNat token ≠ 0 → u.dev.st ≠ .boot → u.dev.st ≠ .prepare → u.dev.st ≠ .test →
     ∃ v, Sys2Proof.Machine.exec (.debugToken r token) s = .next v ∧ (
       v.Answered svcWrite r 0x9021 0 0x08000010 [] ∧ Served [] noObj s u v)) ∧
  (∀ (s : State) (r : Req),
     ∀ u, s.Admits svcWrite r 0x9021 0 (List.replicate 256 0) u → u.inSession r 0x9021 = true → u.dev.st ≠ .boot →
     ∃ v, Sys2Proof.Machine.exec (.debugRelock r) s = .next v ∧ (
       v.Answered svcWrite r 0x9021 0 0 [] ∧ v.trust = { s.trust with level := 0 } ∧ Served [.trust] noObj s u v)) ∧
  (∀ (s : State) (ins : Nat),
     s.pwr.railsGood = true → (s.trust.level < jtagLevel ins ∨ 5 < ins ∨ ins = 0) →
     ∃ v, Sys2Proof.Machine.exec (.debugPortInstruction ins) s = .next v ∧ (
       v.trust = { s.trust with instruction := 0 } ∧ v.out = .debug 0 :: s.out ∧ Within [.trust, .out] s v)) ∧
  (∀ (s : State) (ins : Nat),
     s.pwr.railsGood = true → ins = 1 →
     ∃ v, Sys2Proof.Machine.exec (.debugPortInstruction ins) s = .next v ∧ (
       v.trust = { s.trust with instruction := 1 } ∧ v.out = .debug 0x1D716A4B :: s.out ∧ Within [.trust, .out] s v)) ∧
  (∀ (s : State) (ins : Nat),
     s.pwr.railsGood = true → (ins = 2 ∨ ins = 3) → 1 ≤ s.trust.level →
     ∃ v, Sys2Proof.Machine.exec (.debugPortInstruction ins) s = .next v ∧ (
       v.trust = { s.trust with instruction := ins } ∧ v.out.tail = s.out ∧ (∃ x, v.out.head? = some (.debug x)) ∧ Within [.trust, .out, .free] s v)) ∧
  (∀ (s : State) (ins : Nat),
     s.pwr.railsGood = false → ∃ v, Sys2Proof.Machine.exec (.debugPortInstruction ins) s = .next v ∧ (
       v = s))

/-- For strictly ascending finite thresholds and a value that is not a NaN, binCode is k exactly when the first k thresholds are at
or below the value and all others above it; +∞ gives the number of thresholds, −∞ gives 0, and −0 and +0 compare equal. A
NUMERIC feature that is not missing and whose y is not a NaN takes that code. (R95 (spec/04_trees.md)) -/
def Obligations.BinCodes : Prop :=
  (∀ (ts : List Nat) (y : Num.FV) (k : Nat), ascending (ts.map Num.fp19.decode) = true → y.isNan = false →
     (binCode ts y = k ↔ k ≤ ts.length ∧ (∀ i, i < k → (Num.fp19.decode (ts.getD i 0)).le y = true) ∧
       (∀ i, k ≤ i → i < ts.length → y.lt (Num.fp19.decode (ts.getD i 0)) = true))) ∧
  (∀ (ts : List Nat) (y : Num.FV), binCode ts y = ts.countP fun t => (Num.fp19.decode t).le y) ∧
  (∀ (ts : List Nat), ascending (ts.map Num.fp19.decode) = true → binCode ts (.inf false) = ts.length ∧ binCode ts (.inf true) = 0) ∧
  (∀ (m n : Bool) (e f : Int), (Num.FV.fin m 0 e).le (.fin n 0 f) = true) ∧
  (∀ (p : Pkt) (f : FeatDef) (raw : Num.FV), f.kind = 1 → rawValue p f = some raw → (scaled f raw).isNan = false →
     plainFeature p f = ((false, binCode f.thresh (scaled f raw)), false))

/-- Each command that takes the module into FAULT for a detected cause (FAULT_ENTRY, an input or a rail out of limits, the thermal
limit, an uncorrectable error that patrol finds) appends its record to the FAULT log, and 0x2005:00 then reads that record's
class, below 256. In FAULT a further cause adds its record and leaves 0x2005:00 as it was. (R424 (spec/15_reliability.md)) -/
def Obligations.FaultCauses : Prop :=
  (∀ (s : State) (cause : FaultCause) (t : Nat),
     s.dev.st ≠ .off → s.dev.st ≠ .fault →
     ∃ u, Sys2Proof.Machine.exec (.faultEntry cause t) s = .next u ∧ (
       u.dev.st = .fault ∧
       ∃ rec, u.rel.faultLog = s.rel.faultLog ++ [rec] ∧ u.obj 0x2005 0 = Bits.le rec 16 1 ∧ u.obj 0x2005 0 < 256)) ∧
  (∀ (s : State) (mv t : Nat),
     62000 < mv → s.dev.st ≠ .off → s.dev.st ≠ .fault →
     ∃ u, Sys2Proof.Machine.exec (.inputOvervoltage mv t) s = .next u ∧ (
       u.dev.st = .fault ∧
       ∃ rec, u.rel.faultLog = s.rel.faultLog ++ [rec] ∧ u.obj 0x2005 0 = Bits.le rec 16 1 ∧ u.obj 0x2005 0 < 256)) ∧
  (∀ (s : State) (rail : Rail) (mv : Int) (t : Nat),
     railOut rail mv = true → s.railCounts rail = true → s.dev.st ≠ .off → s.dev.st ≠ .fault →
     ∃ u, Sys2Proof.Machine.exec (.railOutOfTolerance rail mv t) s = .next u ∧ (
       u.dev.st = .fault ∧
       ∃ rec, u.rel.faultLog = s.rel.faultLog ++ [rec] ∧ u.obj 0x2005 0 = Bits.le rec 16 1 ∧ u.obj 0x2005 0 < 256)) ∧
  (∀ (s : State) (sensor : Fin 29) (temp : Int) (t : Nat),
     1680 ≤ temp → sensor.val < 28 → s.dev.st ≠ .off → s.dev.st ≠ .fault →
     ∃ u, Sys2Proof.Machine.exec (.thermalLimit sensor temp t) s = .next u ∧ (
       u.dev.st = .fault ∧
       ∃ rec, u.rel.faultLog = s.rel.faultLog ++ [rec] ∧ u.obj 0x2005 0 = Bits.le rec 16 1 ∧ u.obj 0x2005 0 < 256)) ∧
  (∀ (s : State) (rep : EccReport) (t : Nat),
     (∃ bank row, rep = .uncorrectable bank row) → s.stacksServed = true →
     ∃ u, Sys2Proof.Machine.exec (.patrolRead rep t) s = .next u ∧ (
       u.dev.st = .fault ∧
       ∃ rec, u.rel.faultLog = s.rel.faultLog ++ [rec] ∧ u.obj 0x2005 0 = Bits.le rec 16 1 ∧ u.obj 0x2005 0 < 256)) ∧
  (∀ (s : State) (cause : FaultCause) (t : Nat),
     s.dev.st = .fault →
     ∃ u, Sys2Proof.Machine.exec (.faultEntry cause t) s = .next u ∧ (
       u.dev.st = .fault ∧ u.obj 0x2005 0 = s.obj 0x2005 0 ∧
       ∃ rec, u.rel.faultLog = s.rel.faultLog ++ [rec]))

/-- For every command and state, a step with the command at the front of the queue is exec of that command on the state with the
queue's rest. The queue is the model's own; the spec gives its commands no order but arrival. (spec/01_module.md, Clock-domain
crossings, spec/01_module.md, Integrity: checks on control, not on data) -/
def Obligations.StepRunsFront : Prop :=
  ∀ (c : Instr) (rest : List Instr) (s : State), step { s with pending := c :: rest } = exec c { s with pending := rest }

/-- A choice of the model (log entry 6): a step on an empty queue advances house time and the count of elapsed time by 1 ns where
the clock runs, and changes nothing else. (spec/01_module.md, Clock-domain crossings, spec/12_fabric.md, The house clock) -/
def Obligations.EmptyQueueIdles : Prop :=
  ∀ s : State, s.pending = [] → s.clock.house + 1 < 2 ^ 64 → ∃ u, step s = .next u ∧ Within [.clock] s u ∧
    u.clock = (if s.clockRuns then { s.clock with house := s.clock.house + 1, elapsed := s.clock.elapsed + 1 } else s.clock)

/-- After the power-on reset (log entry 1) the device state is RESET of a cold boot, both gate switches are off, every object reads
its default, no packet, session, suspended list or staged object remains, the accessions and house time are 0, the debug level
is 0, the fuses are unblown and no command waits. (spec/01_module.md, Device states, spec/09_memory.md, Regions,
spec/10_scene_changes.md, Accession numbers, spec/12_fabric.md, The house clock, spec/13_dictionary_protocol.md, The object
model, spec/16_observability.md, Counters and occupancy, spec/17_trust.md, Fuses, spec/18_power_pins.md, Input and rails,
spec/18_power_pins.md, Reset) -/
def Obligations.ResetLeaves : Prop :=
  State.reset.dev.st = .reset ∧ State.reset.dev.boot = .cold ∧ State.reset.pwr.gateInline = false ∧
  State.reset.pwr.gateRing = false ∧ (∀ idx sub, State.reset.obj idx sub = objDefault (objKey idx sub)) ∧
  State.reset.pkts = [] ∧ State.reset.odp.sessions = [] ∧ State.reset.staged = [] ∧ State.reset.now = 0 ∧
  State.reset.get 0x3809 0 = 0 ∧ State.reset.activeModel = 0 ∧ State.reset.trust.level = 0 ∧ State.reset.trust.enforcement = 0 ∧
  State.reset.trust.ownerHash = 0 ∧ (∀ a, (State.reset.arrAt a).run = none) ∧ State.reset.pending = []

/-- The state after reset has its tables and stacks in their one form, and its gate switches as the device state lets them be.
(spec/01_module.md, Device states, spec/09_memory.md, Regions) -/
def Obligations.ResetMeetsInvariants : Prop :=
  State.reset.canonical = true ∧ Memory.wf State.reset = true ∧ State.reset.curtainSafe = true

/-- For every state, a step to a next state leaves the manufacture values as they were, takes at most the front command off the
queue, and leaves every blown fuse blown: no enforcement bit is cleared, a set owner key hash stays, a revoked vendor key stays
revoked, and no anti-rollback counter falls. (spec/00_scope.md, Grades and ordering codes, spec/14_dictionary_map.md, Identity
objects, spec/17_trust.md, Fuses, spec/17_trust.md, Anti-rollback, spec/17_trust.md, Owner provisioning and host keys) -/
def Obligations.StepKeepsFixed : Prop :=
  ∀ s u : State, step s = .next u → u.mfg = s.mfg ∧ u.pending = s.pending.tail ∧ s.trust.Blown u.trust

/-- For every state whose stacks and tables of objects, staged objects, counters, triggers, tap buffers and egress queues are in
canonical form (keys strictly rising, nothing listed that an unlisted key would read as), a step to a next state leaves them in
it. (spec/09_memory.md, Organisation of the stacks, spec/09_memory.md, Regions, spec/13_dictionary_protocol.md, The object
model) -/
def Obligations.StepKeepsCanonical : Prop :=
  ∀ s u : State, s.canonical = true → step s = .next u → u.canonical = true

/-- For every state in which the in-line gate switch is on only in RUN or DRAIN, the ring gate switch is off in OFF, RESET and
FAULT, and both are off without VCG, a step to a next state leaves the same true. (spec/01_module.md, Device states,
spec/02_intake.md, Attach modes and the safety curtain, spec/13_dictionary_protocol.md, The ring,
spec/13_dictionary_protocol.md, The device state machine, spec/18_power_pins.md, Input and rails, spec/18_power_pins.md, The
safety curtain) -/
def Obligations.StepKeepsCurtain : Prop :=
  ∀ s u : State, s.curtainSafe = true → step s = .next u → u.curtainSafe = true

/-- For every state, a step to a next state leaves the device state or moves it along one row of the table of R378; in a state whose
input mapping names the state request, which R395 excludes, an input image may pass through DRAIN on the way from RUN to TEST.
(spec/01_module.md, Integrity: checks on control, not on data, spec/01_module.md, Device states, spec/13_dictionary_protocol.md,
The device state machine) -/
def Obligations.DeviceMoves : Prop :=
  ∀ s u : State, step s = .next u → u.dev.st = s.dev.st ∨ deviceMove s.dev.st u.dev.st = true ∨
    (s.dev.st = .run ∧ u.dev.st = .test ∧ ∃ c, s.pending.head? = some c ∧
      ((∃ t, c = .inputImageApply t) ∨ ∃ i f t, c = .cycleFrameExchange i f t))
end

