-- ==== Sys2Proof/Laws/Frame.lean ====
section
/-! SUPPORT. What the shared operations leave unchanged: one lemma per operation, naming the parts of the state it may change. -/

namespace Sys2Proof.Machine

/-! ## Frames compose -/

theorem Within.refl (ps : List Part) (s : State) : Within ps s s := by intro p _; cases p <;> rfl

theorem Within.mono {ps qs : List Part} {s u : State} (h : Within ps s u) (hs : ps ⊆ qs) : Within qs s u :=
  fun p hp => h p fun hm => hp (hs hm)

theorem Part.Same.trans {p : Part} {s u v : State} (h : p.Same s u) (k : p.Same u v) : p.Same s v := by
  cases p <;> exact Eq.trans k h

theorem Within.trans {ps : List Part} {s u v : State} (h : Within ps s u) (k : Within ps u v) : Within ps s v :=
  fun p hp => (h p hp).trans (k p hp)

/-- A frame grows by a further step that stays within some of its parts. -/
theorem Within.step {ps qs : List Part} {s u v : State} (h : Within ps s u) (k : Within qs u v) (hs : qs ⊆ ps) : Within ps s v :=
  h.trans (k.mono hs)

/-- A fold of steps stays within what each step stays within. -/
theorem Within.foldl {α : Type} {ps : List Part} {f : State → α → State} (h : ∀ s a, Within ps s (f s a)) (l : List α) (s : State) :
    Within ps s (l.foldl f s) := by
  induction l generalizing s with
  | nil => exact Within.refl _ _
  | cons a l ih => exact (h s a).trans (ih _)

theorem Within.ite {ps : List Part} {c : Prop} [Decidable c] {s u v : State} (h : Within ps s u) (k : Within ps s v) :
    Within ps s (if c then u else v) := by split <;> assumption

/-! ## One field at a time -/

theorem State.set_dict_within (s : State) (x) : Within [.dict] s { s with dict := x } := by
  intro p hp; cases p <;> first | rfl | exact absurd (by decide) hp

theorem State.set_staged_within (s : State) (x) : Within [.staged] s { s with staged := x } := by
  intro p hp; cases p <;> first | rfl | exact absurd (by decide) hp

theorem State.set_pwr_within (s : State) (x) : Within [.pwr] s { s with pwr := x } := by
  intro p hp; cases p <;> first | rfl | exact absurd (by decide) hp

theorem State.set_dev_within (s : State) (x) : Within [.dev] s { s with dev := x } := by
  intro p hp; cases p <;> first | rfl | exact absurd (by decide) hp

theorem State.set_clock_within (s : State) (x) : Within [.clock] s { s with clock := x } := by
  intro p hp; cases p <;> first | rfl | exact absurd (by decide) hp

theorem State.set_mgmt_within (s : State) (x) : Within [.mgmt] s { s with mgmt := x } := by
  intro p hp; cases p <;> first | rfl | exact absurd (by decide) hp

theorem State.set_odp_within (s : State) (x) : Within [.odp] s { s with odp := x } := by
  intro p hp; cases p <;> first | rfl | exact absurd (by decide) hp

theorem State.set_flash_within (s : State) (x) : Within [.flash] s { s with flash := x } := by
  intro p hp; cases p <;> first | rfl | exact absurd (by decide) hp

theorem State.set_saving_within (s : State) (x) : Within [.saving] s { s with saving := x } := by
  intro p hp; cases p <;> first | rfl | exact absurd (by decide) hp

theorem State.set_mem_within (s : State) (x) : Within [.mem] s { s with mem := x } := by
  intro p hp; cases p <;> first | rfl | exact absurd (by decide) hp

theorem State.set_line_within (s : State) (x) : Within [.line] s { s with line := x } := by
  intro p hp; cases p <;> first | rfl | exact absurd (by decide) hp

theorem State.set_intake_within (s : State) (x) : Within [.intake] s { s with intake := x } := by
  intro p hp; cases p <;> first | rfl | exact absurd (by decide) hp

theorem State.set_pkts_within (s : State) (x) : Within [.pkts] s { s with pkts := x } := by
  intro p hp; cases p <;> first | rfl | exact absurd (by decide) hp

theorem State.set_egr_within (s : State) (x) : Within [.egr] s { s with egr := x } := by
  intro p hp; cases p <;> first | rfl | exact absurd (by decide) hp

theorem State.set_cat_within (s : State) (x) : Within [.cat] s { s with cat := x } := by
  intro p hp; cases p <;> first | rfl | exact absurd (by decide) hp

theorem State.set_tree_within (s : State) (x) : Within [.tree] s { s with tree := x } := by
  intro p hp; cases p <;> first | rfl | exact absurd (by decide) hp

theorem State.set_arr_within (s : State) (x) : Within [.arr] s { s with arr := x } := by
  intro p hp; cases p <;> first | rfl | exact absurd (by decide) hp

theorem State.set_sync_within (s : State) (x) : Within [.sync] s { s with sync := x } := by
  intro p hp; cases p <;> first | rfl | exact absurd (by decide) hp

theorem State.set_lib_within (s : State) (x) : Within [.lib] s { s with lib := x } := by
  intro p hp; cases p <;> first | rfl | exact absurd (by decide) hp

theorem State.set_fab_within (s : State) (x) : Within [.fab] s { s with fab := x } := by
  intro p hp; cases p <;> first | rfl | exact absurd (by decide) hp

theorem State.set_memc_within (s : State) (x) : Within [.memc] s { s with memc := x } := by
  intro p hp; cases p <;> first | rfl | exact absurd (by decide) hp

theorem State.set_rel_within (s : State) (x) : Within [.rel] s { s with rel := x } := by
  intro p hp; cases p <;> first | rfl | exact absurd (by decide) hp

theorem State.set_obs_within (s : State) (x) : Within [.obs] s { s with obs := x } := by
  intro p hp; cases p <;> first | rfl | exact absurd (by decide) hp

theorem State.set_trust_within (s : State) (x) : Within [.trust] s { s with trust := x } := by
  intro p hp; cases p <;> first | rfl | exact absurd (by decide) hp

theorem State.set_free_within (s : State) (x) : Within [.free] s { s with free := x } := by
  intro p hp; cases p <;> first | rfl | exact absurd (by decide) hp

theorem State.set_out_within (s : State) (x) : Within [.out] s { s with out := x } := by
  intro p hp; cases p <;> first | rfl | exact absurd (by decide) hp

/-! ## Objects, stacks and emissions -/

theorem State.put_within (s : State) (i j v : Nat) : Within [.dict] s (s.put i j v) := s.set_dict_within _

theorem State.stage_within (s : State) (i j v : Nat) : Within [.staged] s (s.stage i j v) := s.set_staged_within _

theorem State.bumpBy_within (s : State) (i j n : Nat) : Within [.dict] s (s.bumpBy i j n) := s.put_within _ _ _

theorem State.bump_within (s : State) (i j : Nat) : Within [.dict] s (s.bump i j) := s.put_within _ _ _

theorem State.at_within (s : State) (t : Nat) : Within [.clock] s (s.at t) := by
  unfold State.at; split
  · exact s.set_clock_within _
  · exact Within.refl _ _

theorem State.fresh_within (s : State) : Within [.free] s s.fresh.2 := s.set_free_within _

theorem State.draw_within (s : State) : Within [.free] s s.draw.2 := s.set_free_within _

theorem State.countRead_within (s : State) (x n : Nat) : Within [.memc] s (s.countRead x n) := s.set_memc_within _

theorem State.memWrite_within (s : State) (x : Nat) (b : Bytes) : Within [.mem, .memc] s (s.memWrite x b) := by
  intro p hp; cases p <;> first | rfl | exact absurd (by decide) hp

theorem State.memFill_within (s : State) (x n : Nat) (o : Option Nat) : Within [.mem, .memc] s (s.memFill x n o) := by
  intro p hp; cases p <;> first | rfl | exact absurd (by decide) hp

theorem State.emit_within (s : State) (e : Emission) : Within [.out] s (s.emit e) := s.set_out_within _

theorem State.modArr_within (s : State) (a : Nat) (f : Arr → Arr) : Within [.arr] s (s.modArr a f) := s.set_arr_within _

/-! ## The logbook -/

/-- What placing a logbook record may change. -/
abbrev logParts : List Part := [.dict, .pwr, .mem, .memc, .obs]

theorem State.takeStretch_within (s : State) (k u : Nat) : Within [.pwr] s (s.takeStretch k u).2 := by
  unfold State.takeStretch; split
  · exact Within.refl _ _
  · exact s.set_pwr_within _

theorem State.logLines_within (s : State) (l : List Bytes) : Within [.dict, .mem, .memc] s (s.logLines l) := by
  induction l generalizing s with
  | nil => exact Within.refl _ _
  | cons b l ih =>
    unfold State.logLines
    have h := (s.memWrite_within (s.regionBase 3 + s.get 0x8809 0) (Bits.slice b 0 64)).mono (by decide : _ ⊆ [.dict, .mem, .memc])
    refine Within.trans (h.trans ?_) (ih _)
    exact Within.ite (((State.put_within _ _ _ _).trans (State.bump_within _ _ _)).mono (by decide)) ((State.put_within _ _ _ _).mono (by decide))

theorem State.logWrite_within (s : State) (b : Bool) (r : LogRec) : Within [.dict, .mem, .memc] s (s.logWrite b r) :=
  Within.ite ((State.bump_within _ _ _).mono (by decide)) (((s.put_within _ _ _).mono (by decide)).trans (State.logLines_within _ _))

theorem State.writeGap_within (s : State) (k c u n m f l : Nat) : Within [.dict, .mem, .memc] s (s.writeGap k c u n m f l) :=
  ((s.bump_within _ _).mono (by decide)).trans (State.logWrite_within _ _ _)

theorem State.logPlace_within (s : State) (r : LogRec) : Within [.dict, .mem, .memc, .obs] s (s.logPlace r) :=
  (((Within.foldl (fun s (l : Lost) => s.writeGap_within l.kind 0 l.uKind l.unit l.count l.first l.last) _ s).mono (by decide)).step
    (State.set_obs_within _ _) (by decide)).step (State.logWrite_within _ _ _) (by decide)

theorem State.logRecordAt_within (s : State) (t c k u n : Nat) (b : Bytes) : Within logParts s (s.logRecordAt t c k u n b) := by
  unfold State.logRecordAt; split
  · exact Within.refl _ _
  · refine Within.trans ((s.takeStretch_within u n).mono (by decide)) ?_
    generalize s.takeStretch u n = y
    obtain ⟨st, x⟩ := y
    refine Within.ite (Within.ite ?_ ?_) ((State.logPlace_within _ _).mono (by decide))
    · exact Within.step ((x.set_obs_within _).mono (by decide)) (State.bump_within _ _ _) (by decide)
    · exact (x.set_obs_within _).mono (by decide)

theorem State.logRecord_within (s : State) (c k u n : Nat) (b : Bytes) : Within logParts s (s.logRecord c k u n b) :=
  s.logRecordAt_within _ _ _ _ _ _

theorem State.gapRecord_within (s : State) (k c u n m f l : Nat) : Within logParts s (s.gapRecord k c u n m f l) :=
  ((s.bump_within _ _).mono (by decide)).trans (State.logRecord_within _ _ _ _ _ _)

theorem State.tracePulse_within (s : State) : Within [.pwr, .out] s s.tracePulse :=
  Within.ite ((Within.ite (Within.refl _ _) ((s.emit_within _).mono (by decide))).step (State.set_pwr_within _ _) (by decide))
    (Within.refl _ _)

/-- What a firmware marker may change. -/
abbrev markParts : List Part := [.dict, .pwr, .mem, .memc, .obs, .free, .out]

theorem State.fwMarker_within (s : State) (i : Nat) (d : Bytes) : Within markParts s (s.fwMarker i d) := by
  refine Within.ite ?_ (Within.refl _ _)
  have h := ((s.fresh_within).mono (by decide : _ ⊆ markParts)).step
    (State.logRecord_within s.fresh.2 4 0x10 0 0 (markBody i 0xFF 1 0 (s.fresh.1 % 65536) d)) (by decide)
  exact h.trans (Within.ite ((State.tracePulse_within _).mono (by decide)) (Within.refl _ _))

/-! ## Events, state entry, error records -/

/-- What raising an event may change. -/
abbrev eventParts : List Part := [.dict, .pwr, .mem, .memc, .obs, .odp, .out]

theorem State.raiseC_within (s : State) (a b c d e : Nat) : Within eventParts s (s.raiseC a b c d e) := by
  unfold State.raiseC
  extract_lets seq second count ok o s1 s2
  have h1 : Within eventParts s s1 := (s.set_odp_within _).mono (by decide)
  have h2 : Within eventParts s s2 := h1.trans (Within.ite
    (((State.emit_within _ _).mono (by decide)).step (State.bump_within _ _ _) (by decide)) ((State.bump_within _ _ _).mono (by decide)))
  exact h2.step (State.logRecord_within _ _ _ _ _ _) (by decide)

theorem State.raise_within (s : State) (a b c : Nat) : Within eventParts s (s.raise a b c) := s.raiseC_within _ _ _ _ _

/-- What entering a device state may change. -/
abbrev enterParts : List Part := [.dev, .dict, .pwr, .mem, .memc, .obs, .free, .out]

theorem State.enter_within (s : State) (d : DevState) : Within enterParts s (s.enter d) := by
  unfold State.enter
  extract_lets old o s1
  have h : Within enterParts s s1 := (s.set_dev_within _).mono (by decide)
  split
  · exact h
  · rename_i c _
    have k : ∀ x : Nat × State, Within enterParts s x.2 →
        Within enterParts s (match x with | (o, s) => s.fwMarker 0x0001 (Bits.natLe 1 o ++ Bits.natLe 1 c)) :=
      fun x hx => Within.step hx (State.fwMarker_within _ _ _) (by decide)
    refine k _ ?_
    split
    · exact h
    · exact h.step (State.fresh_within _) (by decide)

theorem State.measure_within (s : State) (i j : Nat) : Within [.free] s (s.measure i j).2 := by
  unfold State.measure; split
  · exact Within.refl _ _
  · exact s.fresh_within

theorem State.readings_within (s : State) (e : ErrInfo) : Within [.free] s (s.readings e).2.2 :=
  (s.measure_within 0x9804 (sensorOf e.uKind e.unit)).trans
    (State.measure_within _ (railOf e.uKind e.unit).1 (railOf e.uKind e.unit).2)

theorem State.journalRecord_within (s : State) (c : Nat) (r : JournalRec) : Within [.flash, .rel, .dict] s (s.journalRecord c r) := by
  unfold State.journalRecord
  extract_lets s1 s2
  split
  · exact Within.ite ((s.set_rel_within _).mono (by decide)) ((s.set_flash_within _).mono (by decide))
  · generalize minuteCount c (s.now / 60000000000) s.rel.minute = y
    obtain ⟨ok, m⟩ := y
    have h : Within [.flash, .rel, .dict] s { s with rel := { s.rel with minute := m } } := (s.set_rel_within _).mono (by decide)
    exact Within.ite (h.step (State.set_flash_within _ _) (by decide))
      ((h.step (State.set_rel_within _ _) (by decide)).step (State.bump_within _ _ _) (by decide))

theorem State.pushRecord_within (s : State) (c q : Nat) (r : JournalRec) : Within [.odp, .out, .dict] s (s.pushRecord c q r) := by
  refine Within.ite (Within.refl _ _) (Within.ite ?_ ?_)
  · exact (((s.set_odp_within _).mono (by decide)).step (State.emit_within _ _) (by decide)).step (State.bump_within _ _ _) (by decide)
  · exact ((s.set_odp_within _).mono (by decide)).step (State.bump_within _ _ _) (by decide)

/-- What an error record may change. -/
abbrev errorParts : List Part := [.dict, .pwr, .mem, .memc, .obs, .odp, .out, .flash, .rel, .free]

theorem State.errorRecord_within (s : State) (e : ErrInfo) : Within errorParts s (s.errorRecord e) := by
  have h0 : Within errorParts s (s.bump 0x8033 e.cls) := (State.bump_within _ _ _).mono (by decide)
  have h1 := h0.step (State.takeStretch_within _ e.uKind e.unit) (by decide)
  unfold State.errorRecord
  extract_lets s0
  revert h1
  generalize (s.bump 0x8033 e.cls).takeStretch e.uKind e.unit = y
  obtain ⟨st, x⟩ := y
  intro h1
  have h2 := Within.step h1 (State.readings_within x e) (by decide)
  revert h2
  dsimp -zeta only
  generalize x.readings e = z
  obtain ⟨tt, vv, s1⟩ := z
  intro h2
  exact ((((Within.step h2 (State.set_flash_within _ _) (by decide)).step (State.set_rel_within _ _) (by decide)).step
    (State.journalRecord_within _ _ _) (by decide)).step (State.raiseC_within _ _ _ _ _ _) (by decide)).step
    (State.pushRecord_within _ _ _ _) (by decide)

theorem State.alert_within (s : State) (i k u : Nat) (b : Bool) : Within errorParts s (s.alert i k u b) := s.errorRecord_within _

end Sys2Proof.Machine
end

