-- ==== Sys2Proof/Laws/FrameOps.lean ====
section
/-! SUPPORT. What the shared operations of the catalogue, egress, lists, triggers and ODP leave unchanged. -/

namespace Sys2Proof.Machine

/-! ## The catalogue front -/

theorem State.setBucket_within (s : State) (b : Nat) (l : List Nat) : Within [.dict, .cat, .mem, .memc] s (s.setBucket b l) := by
  unfold State.setBucket
  extract_lets s1
  have h : Within [.dict, .cat, .mem, .memc] s s1 := (s.put_within _ _ _).mono (by decide)
  split
  · exact h.step (State.set_cat_within _ _) (by decide)
  · exact h.step (State.memWrite_within _ _ _) (by decide)

theorem State.setEntry_within (s : State) (b i e : Nat) : Within [.dict, .cat, .mem, .memc] s (s.setEntry b i e) := s.setBucket_within _ _

/-- What an operation on the catalogue may change. -/
abbrev catParts : List Part := .cat :: errorParts

theorem State.checkSlots_within (s : State) (b : Nat) (l : List Nat) (i : Nat) : Within catParts s (s.checkSlots b l i) := by
  induction l generalizing s i with
  | nil => exact Within.refl _ _
  | cons e l ih =>
    unfold State.checkSlots
    refine Within.trans (Within.ite ?_ (Within.refl _ _)) (ih _ _)
    exact (((s.setEntry_within _ _ _).mono (by decide)).step (State.bump_within _ _ _) (by decide)).step
      (State.errorRecord_within _ _) (by decide)

theorem State.touchBucket_within (s : State) (b : Nat) : Within [.cat, .memc] s (s.touchBucket b) := by
  unfold State.touchBucket
  split
  · exact (s.set_cat_within _).mono (by decide)
  · exact (s.countRead_within _ _).mono (by decide)

theorem State.checkBucket_within (s : State) (b : Nat) : Within catParts s (s.checkBucket b) :=
  ((s.touchBucket_within b).mono (by decide)).trans (State.checkSlots_within _ _ _ _)

theorem State.writebackEffect_within (s : State) (k : CatKey) (b : Nat) : Within catParts s (s.writebackEffect k b) := by
  unfold State.writebackEffect
  extract_lets s1
  have h : Within catParts s s1 := Within.foldl (fun s b => s.checkBucket_within b) _ _
  split
  · exact h.step (State.setEntry_within _ _ _ _) (by decide)
  · exact h

theorem State.catHold_within (s : State) (w : CatWait) : Within [.cat] s (s.catHold w) := s.set_cat_within _

theorem State.writeback_within (s : State) (p : Pkt) (a b c : Nat) : Within catParts s (s.writeback p a b c) := by
  unfold State.writeback
  split
  · exact Within.refl _ _
  · exact Within.ite ((s.catHold_within _).mono (by decide)) (s.writebackEffect_within _ _)

theorem State.clearCatalogue_within (s : State) : Within [.cat, .mem, .dict] s s.clearCatalogue := by
  intro p hp; cases p <;> first | rfl | exact absurd (by decide) hp

/-! ## Packets and queues -/

theorem State.setPkt_within (s : State) (p : Pkt) : Within [.pkts] s (s.setPkt p) := s.set_pkts_within _

theorem State.dropPkt_within (s : State) (p : Nat) : Within [.pkts] s (s.dropPkt p) := s.set_pkts_within _

theorem State.modLine_within (s : State) (p : Nat) (f : Line → Line) : Within [.line] s (s.modLine p f) := s.set_line_within _

theorem State.setQueue_within (s : State) (q : Nat) (l : List QItem) : Within [.egr] s (s.setQueue q l) := s.set_egr_within _

theorem State.enqueue_within (s : State) (q : Nat) (i : QItem) : Within [.egr, .dict] s (s.enqueue q i) := by
  unfold State.enqueue
  extract_lets l
  exact Within.ite ((s.bump_within _ _).mono (by decide)) (((s.setQueue_within _ _).mono (by decide)).step (State.bump_within _ _ _) (by decide))

theorem State.freeSlot_within (s : State) (p : Pkt) : Within [.line] s (s.freeSlot p) := s.modLine_within _ _

theorem State.complete_within (s : State) (p : Pkt) (d : Decision) : Within [.pkts, .line, .dict] s (s.complete p d) := by
  have h : Within [.pkts, .line, .dict] s (s.dropPkt p.pid) := (s.dropPkt_within _).mono (by decide)
  exact Within.ite ((h.step (State.modLine_within _ _ _) (by decide)).step (State.bump_within _ _ _) (by decide))
    (Within.ite (h.step (State.freeSlot_within _ _) (by decide)) ((s.setPkt_within _).mono (by decide)))

theorem State.originate_within (s : State) (q k r m : Nat) (b : Bytes) : Within [.dict, .egr] s (s.originate q k r m b) := by
  unfold State.originate
  extract_lets a1 a2 a3 a4 a5 a6 s1
  have h : Within [.dict, .egr] s s1 := (s.put_within _ _ _).mono (by decide)
  exact Within.ite (h.step (State.bump_within _ _ _) (by decide)) (h.step (State.enqueue_within _ _ _) (by decide))

theorem State.verdictRecord_within (s : State) (p : Pkt) (a b c d e f : Nat) : Within [.dict, .egr] s (s.verdictRecord p a b c d e f) :=
  s.originate_within _ _ _ _ _

theorem State.releaseHeld_within (s : State) (p : Pkt) (d : Decision) : Within [.pkts, .egr, .dict] s (s.releaseHeld p d) := by
  unfold State.releaseHeld
  extract_lets s1
  have h : Within [.pkts, .egr, .dict] s s1 := (s.dropPkt_within _).mono (by decide)
  split
  · exact h.step (State.enqueue_within _ _ _) (by decide)
  · exact h

/-- What releasing a held packet may change. -/
abbrev heldParts : List Part := .pkts :: .egr :: catParts

theorem State.releaseUndetermined_within (s : State) (p : Pkt) : Within heldParts s (s.releaseUndetermined p) := by
  unfold State.releaseUndetermined
  extract_lets d record s1
  have h : Within heldParts s s1 := ((s.writeback_within _ _ _ _).mono (by decide)).step (State.releaseHeld_within _ _ _) (by decide)
  exact h.trans (Within.ite ((State.verdictRecord_within _ _ _ _ _ _ _ _).mono (by decide)) (Within.refl _ _))

theorem State.releaseAll_within (s : State) (f : Pkt → Bool) : Within heldParts s (s.releaseAll f) :=
  Within.foldl (fun s p => s.releaseUndetermined_within p) _ _

theorem State.countBody_within (s : State) (x n : Nat) : Within [.memc] s (s.countBody x n) := s.set_memc_within _

theorem State.park_within (s : State) (p : Pkt) : Within (.line :: heldParts) s (s.park p) := by
  unfold State.park
  extract_lets d s1 s2 room moves p1 s3
  have h1 : Within (.line :: heldParts) s s1 := ((s.writeback_within _ _ _ _).mono (by decide)).step (State.bump_within _ _ _) (by decide)
  have h2 : Within (.line :: heldParts) s s2 :=
    h1.trans (Within.ite ((State.verdictRecord_within _ _ _ _ _ _ _ _).mono (by decide)) (Within.refl _ _))
  have h3 : Within (.line :: heldParts) s s3 := Within.ite ((s.countBody_within _ _).mono (by decide)) (Within.refl _ _)
  exact Within.ite ((s.complete_within _ _).mono (by decide)) (Within.ite (h2.step (State.complete_within _ _ _) (by decide))
    ((h3.step (State.setPkt_within _ _) (by decide)).step (State.freeSlot_within _ _) (by decide)))

theorem State.linksDown_within (s : State) : Within [.dict, .line] s s.linksDown := by
  intro p hp; cases p <;> first | rfl | exact absurd (by decide) hp

theorem State.flushPackets_within (s : State) (c : Bool) : Within [.dict, .pkts, .intake, .egr, .line] s (s.flushPackets c) := by
  unfold State.flushPackets
  cases c
  all_goals intro p hp; cases p <;> first | rfl | exact absurd (by decide) hp

/-! ## Cues, tap buffers and lists -/

theorem State.cueWrite_within (s : State) (a x : Nat) (b : Bytes) : Within [.mem, .memc, .arr] s (s.cueWrite a x b) :=
  Within.ite ((s.memWrite_within _ _).mono (by decide)) ((s.modArr_within _ _).mono (by decide))

theorem State.append_within (s : State) (a r : Nat) (b : Bytes) : Within [.mem, .memc, .arr, .dict] s (s.append a r b) :=
  ((s.cueWrite_within _ _ _).mono (by decide)).step (State.put_within _ _ _ _) (by decide)

theorem State.setTap_within (s : State) (d : Nat) (x : Tap) : Within [.sync] s (s.setTap d x) := s.set_sync_within _

theorem State.freeBuf_within (s : State) (d b : Nat) : Within [.sync] s (s.freeBuf d b) := s.set_sync_within _

/-- What an operation on lists may change. -/
abbrev listParts : List Part := .sync :: .arr :: heldParts

theorem State.discardBuf_within (s : State) (d b : Nat) : Within (.sync :: heldParts) s (s.discardBuf d b) := by
  refine Within.step (Within.mono (qs := .sync :: heldParts) (Within.foldl (ps := heldParts) (fun s h => ?_) _ s) (by decide))
    (State.freeBuf_within _ _ _) (by decide)
  split
  · exact s.releaseUndetermined_within _
  · exact Within.refl _ _

theorem State.syncRecord_within (s : State) (w : Waiter) (o r q : Nat) : Within logParts s (s.syncRecord w o r q) :=
  Within.ite (s.logRecord_within _ _ _ _ _) (Within.refl _ _)

theorem State.setLight_within (s : State) (l n : Nat) : Within [.dict] s (s.setLight l n) := s.put_within _ _ _

theorem State.releaseTap_within (s : State) (l d n : Nat) : Within [.dict, .sync] s (s.releaseTap l d n) := by
  induction n generalizing s with
  | zero => exact Within.refl _ _
  | succ n ih =>
    unfold State.releaseTap
    split
    · refine Within.ite (Within.trans ?_ (ih _)) (Within.refl _ _)
      exact ((s.setLight_within _ _).mono (by decide)).step (State.freeBuf_within _ _ _) (by decide)
    · exact Within.refl _ _

theorem State.serveTaps_within (s : State) (l : Nat) : Within [.dict, .sync] s (s.serveTaps l) :=
  Within.ite (Within.refl _ _) (Within.foldl (fun s _ => s.releaseTap_within _ _ _) _ s)

theorem State.leaveQueue_within (s : State) (a o : Nat) (r : Run) : Within (.sync :: logParts) s (s.leaveQueue a o r) := by
  unfold State.leaveQueue
  split
  · split
    · exact Within.refl _ _
    · extract_lets q s1 x s2
      have h1 : Within (.sync :: logParts) s s1 := (s.syncRecord_within _ _ _ _).mono (by decide)
      have h2 : Within (.sync :: logParts) s s2 := h1.step (State.set_sync_within _ _) (by decide)
      exact Within.ite h2 (h2.step (State.serveTaps_within _ _) (by decide))
  all_goals exact Within.refl _ _

theorem State.passList_within (s : State) (a r i j : Nat) : Within [.dict, .arr] s (s.passList a r i j) := by
  have h : Within [.dict, .arr] s (if s.openAt a r i then s.modArr a fun x => { x with tails := r :: x.tails } else s) :=
    Within.ite ((s.modArr_within _ _).mono (by decide)) (Within.refl _ _)
  exact h.step (State.put_within _ _ _ _) (by decide)

theorem State.passDead_within (s : State) (a r n : Nat) : Within [.dict, .arr] s (s.passDead a r n) := by
  induction n generalizing s with
  | zero => exact Within.refl _ _
  | succ n ih => exact Within.ite (((s.passList_within _ _ _ _).step (State.modArr_within _ _ _) (by decide)).trans (ih _)) (Within.refl _ _)

theorem State.consume_within (s : State) (a : Nat) (r : Run) : Within [.dict, .arr] s (s.consume a r) := by
  unfold State.consume
  extract_lets s1
  have h : Within [.dict, .arr] s s1 := by
    show Within _ s (match r.skip with | some i => s.put (ringObj a r.ring) 8 i | none => s.passList a r.ring r.start (s.endOf a r.ring r.start))
    split
    · exact (s.put_within _ _ _).mono (by decide)
    · exact s.passList_within _ _ _ _
  exact Within.ite (h.trans (State.passDead_within _ _ _ _)) ((s.modArr_within _ _).mono (by decide))

theorem State.abandonRun_within (s : State) (a o : Nat) (r : Run) : Within listParts s (s.abandonRun a o r) := by
  unfold State.abandonRun
  extract_lets s1 s2 s3 s4 s5
  have h1 : Within listParts s s1 := (s.leaveQueue_within _ _ _).mono (by decide)
  have h2 : Within listParts s s2 := h1.trans (Within.foldl (fun s x => (s.modArr_within _ _).mono (by decide)) _ _)
  have h3 : Within listParts s s3 := ((h2.step (State.consume_within _ _ _) (by decide)).step (State.bump_within _ _ _) (by decide)).step
    (State.put_within _ _ _ _) (by decide)
  have h4 : Within listParts s s4 := h3.step (State.modArr_within _ _ _) (by decide)
  have h5 : Within listParts s s5 := h4.trans (Within.ite ((State.put_within _ _ _ _).mono (by decide)) (Within.refl _ _))
  split
  · exact Within.ite (h5.step (State.discardBuf_within _ _ _) (by decide)) h5
  · exact h5

theorem State.abandonAll_within (s : State) : Within listParts s s.abandonAll :=
  Within.foldl (fun s _ => Within.foldl (fun s _ => Within.ite (s.abandonRun_within _ _ _) (Within.refl _ _)) _ s) _ s

theorem State.discardFrom_within (s : State) (a r n i : Nat) : Within listParts s (s.discardFrom a r n i) := by
  induction n generalizing s i with
  | zero => exact Within.refl _ _
  | succ n ih =>
    unfold State.discardFrom
    extract_lets s1 s2
    have h1 : Within listParts s s1 := Within.ite (Within.refl _ _) ((s.bump_within _ _).mono (by decide))
    have h2 : Within listParts s s2 := by
      refine h1.trans ?_
      show Within _ s1 (match s1.tapLaunch a r i with | some (d, b) => s1.discardBuf d b | none => s1)
      split
      · exact (State.discardBuf_within _ _ _).mono (by decide)
      · exact Within.refl _ _
    exact Within.ite (Within.refl _ _) (h2.trans (ih _ _))

theorem State.discardRing_within (s : State) (a r : Nat) : Within listParts s (s.discardRing a r) := by
  unfold State.discardRing
  extract_lets p o s1 s2
  have h1 : Within listParts s s1 := s.discardFrom_within _ _ _ _
  have h2 : Within listParts s s2 := h1.trans (Within.ite ((State.modArr_within _ _ _).mono (by decide)) (Within.refl _ _))
  split
  · exact h2.step (State.put_within _ _ _ _) (by decide)
  · exact Within.ite (Within.refl _ _) ((s.discardFrom_within _ _ _ _).step (State.modArr_within _ _ _) (by decide))

theorem State.dropFiring_within (s : State) (t : Nat) (x : Trig) : Within listParts s (s.dropFiring t x) := by
  unfold State.dropFiring
  split
  · exact Within.refl _ _
  · have h : ∀ y, Within listParts s (({ s with sync := y } : State).bump (0x5200 + t) 0xD) := fun y =>
      ((s.set_sync_within y).mono (by decide)).step (State.bump_within _ _ _) (by decide)
    extract_lets s1 s2
    split
    · exact (h _).step (State.discardBuf_within _ _ _) (by decide)
    · exact h _

theorem State.drainEntry_within (s : State) : Within listParts s s.drainEntry := by
  unfold State.drainEntry
  extract_lets s1 s2 taps y s3
  have h1 : Within listParts s s1 := Within.foldl (fun s a => Within.foldl (fun s r => s.discardRing_within a r) _ s) _ s
  have h2 : Within listParts s s2 := h1.trans (Within.foldl (fun s e => s.dropFiring_within _ _) _ _)
  have h3 : Within listParts s s3 := h2.step (State.set_sync_within _ _) (by decide)
  exact h3.trans (Within.foldl (fun s a => (s.modArr_within _ _).mono (by decide)) _ _)

/-! ## Cue lights and triggers -/

theorem State.addLight_within (s : State) (l n k u c x o : Nat) : Within (.sync :: errorParts) s (s.addLight l n k u c x o) := by
  unfold State.addLight
  extract_lets c1 s1 note y s2 side
  have h2 : Within (.sync :: errorParts) s s2 := ((s.setLight_within _ _).mono (by decide)).step (State.set_sync_within _ _) (by decide)
  refine Within.step (h2.trans (Within.ite ?_ (Within.refl _ _))) (State.serveTaps_within _ _) (by decide)
  exact ((State.bump_within _ _ _).mono (by decide)).step (State.errorRecord_within _ _) (by decide)

theorem State.setTrig_within (s : State) (t : Nat) (x : Trig) : Within [.sync] s (s.setTrig t x) := s.set_sync_within _

theorem State.dropTap_within (s : State) (f : Firing) : Within (.sync :: heldParts) s (s.dropTap f) := by
  unfold State.dropTap
  split
  · exact s.discardBuf_within _ _
  · exact Within.refl _ _

theorem State.launch_within (s : State) (t : Nat) (f : Firing) (x : Nat) : Within [.mem, .memc, .arr, .dict] s (s.launch t f x) := by
  unfold State.launch
  extract_lets a r q cue s1 s2
  have h : Within [.mem, .memc, .arr, .dict] s s2 :=
    ((s.append_within _ _ _).step (State.bump_within _ _ _) (by decide)).step (State.modArr_within _ _ _) (by decide)
  exact h.trans (Within.ite ((State.bump_within _ _ _).mono (by decide)) (Within.refl _ _))

theorem State.fireTrig_within (s : State) (t : Nat) (f : Firing) : Within listParts s (s.fireTrig t f) := by
  have d : ∀ i j, Within listParts s ((s.bump i j).dropTap f) := fun i j =>
    ((s.bump_within i j).mono (by decide)).step (State.dropTap_within _ _) (by decide)
  unfold State.fireTrig
  refine Within.ite (d _ _) ?_
  split
  · exact d _ _
  · refine Within.ite ?_ (Within.ite ((s.setTrig_within _ _).mono (by decide)) ((s.launch_within _ _ _).mono (by decide)))
    have h : Within listParts s (s.bump (0x5200 + t) 0xC) := (s.bump_within _ _).mono (by decide)
    exact Within.step (h.trans (Within.ite ((State.bump_within _ _ _).mono (by decide)) (Within.refl _ _)))
      (State.dropTap_within _ _) (by decide)

theorem State.appendWaiting_within (s : State) (t : Nat) : Within listParts s (s.appendWaiting t) := by
  unfold State.appendWaiting
  split
  · exact Within.refl _ _
  · refine Within.ite (Within.refl _ _) ?_
    extract_lets x s1
    have h : Within listParts s s1 := (s.setTrig_within _ _).mono (by decide)
    split
    · exact (h.step (State.bump_within _ _ _) (by decide)).step (State.dropTap_within _ _) (by decide)
    · exact h.step (State.launch_within _ _ _ _) (by decide)

theorem State.completeBuf_within (s : State) (k : Bank) (d b : Nat) : Within listParts s (s.completeBuf k d b) := by
  unfold State.completeBuf
  extract_lets x y s1 t f
  have h : Within listParts s s1 := (s.setTap_within _ _).mono (by decide)
  exact Within.step (Within.ite ((h.step (State.bump_within _ _ _) (by decide)).step (State.dropTap_within _ _) (by decide))
    (h.trans (State.fireTrig_within _ _ _))) (State.serveTaps_within _ _) (by decide)

/-! ## Dumps and suspects -/

theorem State.takeDump_within (s : State) (c r : Nat) (h : Option Nat) : Within logParts s (s.takeDump c r h) :=
  Within.ite ((s.gapRecord_within _ _ _ _ _ _ _).step (State.bump_within _ _ _) (by decide)) ((s.set_obs_within _).mono (by decide))

theorem State.requestDump_within (s : State) (b r : Nat) (h : Option Nat) : Within logParts s (s.requestDump b r h) :=
  Within.ite (s.takeDump_within _ _ _) (Within.refl _ _)

theorem State.firstSuspect_within (s : State) (k u : Nat) : Within [.dict] s (s.firstSuspect k u) :=
  Within.ite (s.put_within _ _ _) (Within.refl _ _)

theorem State.suspectArray_within (s : State) (a : Nat) : Within listParts s (s.suspectArray a) := by
  unfold State.suspectArray
  extract_lets s1 s2
  have h1 : Within listParts s s1 := (s.modArr_within _ _).mono (by decide)
  have h2 : Within listParts s s2 := by
    refine h1.trans ?_
    show Within listParts s1 (match (s1.arrAt a).run with | some r => s1.abandonRun a 2 r | none => s1)
    split
    · exact State.abandonRun_within _ _ _ _
    · exact Within.refl _ _
  exact h2.step (State.releaseAll_within _ _) (by decide)

theorem State.drainForSuspect_within (s : State) : Within (.dev :: listParts) s s.drainForSuspect :=
  Within.ite (((s.enter_within _).mono (by decide)).step (State.drainEntry_within _) (by decide)) (Within.refl _ _)

theorem State.suspectUnit_within (s : State) (e : ErrInfo) : Within (.dev :: listParts) s (s.suspectUnit e) := by
  unfold State.suspectUnit
  extract_lets s1 first y s2 s3 s4
  have h1 : Within (.dev :: listParts) s s1 := Within.ite ((s.suspectArray_within _).mono (by decide)) (Within.refl _ _)
  have h2 : Within (.dev :: listParts) s s2 := h1.step (State.set_flash_within _ _) (by decide)
  have h3 : Within (.dev :: listParts) s s3 := h2.step (State.firstSuspect_within _ _ _) (by decide)
  have h4 : Within (.dev :: listParts) s s4 := h3.step (State.errorRecord_within _ _) (by decide)
  exact h4.trans (State.drainForSuspect_within _)

theorem State.suspectPair_within (s : State) (p : Nat) (e : ErrInfo) : Within (.dev :: listParts) s (s.suspectPair p e) :=
  (((s.suspectArray_within _).mono (by decide)).step (State.suspectArray_within _ _) (by decide)).trans (State.suspectUnit_within _ _)

end Sys2Proof.Machine
end

