-- ==== Sys2Proof/Laws/FrameCues.lean ====
section
/-! SUPPORT. What issuing, completing and aborting cues leave unchanged, and what the slips of a CALLSLIP do. -/

namespace Sys2Proof.Machine

/-! ## Positions, rewinds and control errors -/

theorem State.modRun_within (s : State) (a : Nat) (f : Run → Run) : Within [.arr] s (s.modRun a f) := s.modArr_within _ _

theorem State.showRun_within (s : State) (a : Nat) : Within [.dict] s (s.showRun a) := by
  unfold State.showRun
  split
  · exact s.put_within _ _ _
  · exact (s.put_within _ _ _).trans (State.put_within _ _ _ _)

theorem State.rewind_within (s : State) (a : Nat) (r : Run) (o : Option Nat) : Within [.arr, .dict] s (s.rewind a r o) :=
  (((s.modArr_within _ _).mono (by decide)).step (State.modRun_within _ _ _) (by decide)).step (State.showRun_within _ _) (by decide)

theorem State.abortToRestart_within (s : State) (a : Nat) (r : Run) (o : Option Nat) : Within listParts s (s.abortToRestart a r o) := by
  unfold State.abortToRestart
  extract_lets s1 r1 s2 s3
  have h2 : Within listParts s s2 := ((s.bump_within _ _).mono (by decide)).step (State.modRun_within _ _ _) (by decide)
  have h3 : Within listParts s s3 := h2.step (State.leaveQueue_within _ _ _ _) (by decide)
  exact Within.ite (h2.step (State.abandonRun_within _ _ _ _) (by decide))
    (Within.ite (h3.step (State.modRun_within _ _ _) (by decide)) (h3.step (State.rewind_within _ _ _ _) (by decide)))

theorem State.countCue_within (s : State) (x : Nat) : Within [.memc] s (s.countCue x) :=
  Within.ite (s.countRead_within _ _) (Within.refl _ _)

theorem State.countFetch_within (s : State) (a : Nat) (r : Run) : Within [.memc] s (s.countFetch a r) :=
  Within.ite (s.countCue_within _) (Within.refl _ _)

theorem State.countGather_within (s : State) (a l n k : Nat) : Within [.dict, .memc] s (s.countGather a l n k) :=
  Within.foldl (fun s _ => Within.ite (Within.refl _ _)
    (((s.countRead_within _ _).mono (by decide)).step (State.bump_within _ _ _) (by decide))) _ _

/-- What an error counts before its record. -/
theorem State.countError_within (s : State) (a : Nat) (r : Run) (ws : List Nat) (e : CueErr) :
    Within [.dict, .memc] s (s.countError a r ws e) := by
  unfold State.countError
  split
  · exact (s.bump_within _ _).mono (by decide)
  · exact ((s.bump_within _ _).trans (State.bump_within _ _ _)).mono (by decide)
  · extract_lets s1 n l
    have h : Within [.dict, .memc] s s1 := (s.bump_within _ _).mono (by decide)
    exact Within.ite (h.trans (State.countGather_within _ _ _ _ _)) h
  · exact Within.refl _ _

theorem State.cueError_within (s : State) (a : Nat) (r : Run) (ws : List Nat) (e : CueErr) : Within listParts s (s.cueError a r ws e) := by
  unfold State.cueError
  extract_lets x fp
  generalize e.record r.acc (if fp = true then 1 else 0) ws = y
  obtain ⟨cls, detail⟩ := y
  dsimp -zeta only
  extract_lets s1
  have h2 : Within listParts s s1 := ((s.countError_within _ _ _ _).mono (by decide)).step (State.errorRecord_within _ _) (by decide)
  clear_value s1
  split
  · exact h2.trans (State.abandonRun_within _ _ _ _)
  · exact h2.trans (State.abortToRestart_within _ _ _ _)
  · exact h2.trans (State.abortToRestart_within _ _ _ _)

/-! ## Power -/

theorem State.wantPower_within (s : State) (a : Nat) : Within [.arr] s (s.wantPower a) :=
  Within.foldl (fun s _ => Within.ite (s.modArr_within _ _) (Within.refl _ _)) _ s

theorem State.delivered_within (s : State) (a n : Nat) : Within [.free] s (s.delivered a n).2 := by
  unfold State.delivered
  split
  · exact s.set_free_within _
  · exact Within.refl _ _

/-- A ramp-down cut short counts what it delivered, and the array's ramp-up starts. -/
theorem State.rampBack_within (s : State) (i : Nat) : Within [.arr, .dict, .free] s (s.rampBack i) := by
  unfold State.rampBack
  have h := s.delivered_within i (Min.min 900 (arithCycles (s.now - (s.arrAt i).rampFrom)))
  revert h
  generalize s.delivered i (Min.min 900 (arithCycles (s.now - (s.arrAt i).rampFrom))) = y
  obtain ⟨n, v⟩ := y
  intro h
  dsimp -zeta only
  extract_lets s1
  have h1 : Within [.arr, .dict, .free] s s1 := (((h.mono (by decide)).step (State.bumpBy_within _ _ _ _) (by decide)).step
    (State.bumpBy_within _ _ _ _) (by decide)).step (State.bump_within _ _ _) (by decide)
  exact (h1.step (State.modArr_within _ _ _) (by decide)).step (State.put_within _ _ _ _) (by decide)

theorem State.wake_within (s : State) (a : Nat) : Within [.arr, .dict, .free] s (s.wake a) :=
  Within.trans ((s.wantPower_within a).mono (by decide)) (Within.foldl (fun s i => Within.ite (s.rampBack_within i) (Within.refl _ _)) _ _)

/-! ## Issue -/

/-- What issuing a cue may change beside the cue's own effect. -/
abbrev issueParts : List Part := .dev :: listParts

theorem State.undecidable_within (s : State) (p row ar : Nat) : Within issueParts s (s.undecidable p row ar) :=
  ((s.bump_within _ _).mono (by decide)).trans (State.suspectPair_within _ _ _)

theorem State.advance_within (s : State) (a : Nat) (r : Run) (ws : List Nat) : Within [.arr] s (s.advance a r ws) := s.modRun_within _ _

/-- Issue leaves what neither the checks of R233 nor the cue's effect change. -/
theorem State.issue_within {ps : List Part} (s : State) (a op : Nat) (c : CueCheck)
    (body : State → Run → List Nat → Adds → Except CueErr State) (hp : issueParts ⊆ ps)
    (hb : ∀ u r ws x v, body u r ws x = .ok v → Within ps u v) : Within ps s (s.issue a op c body) := by
  have hl : listParts ⊆ ps := fun p h => hp (List.mem_cons_of_mem _ h)
  have ha : [Part.arr] ⊆ ps := fun p h => hl (by simp at h; subst h; decide)
  have hd : [Part.dict] ⊆ ps := fun p h => hl (by simp at h; subst h; decide)
  have hgo : ∀ (s : State) r ws, Within ps s (State.issue.go a body s r ws) := by
    intro s r ws
    unfold State.issue.go
    split
    · exact (s.cueError_within _ _ _ _).mono hl
    · have h := (s.advance_within a r ws).mono ha
      split
      · exact (s.cueError_within _ _ _ _).mono hl
      · rename_i v hv
        exact (h.trans (hb _ _ _ _ _ hv)).trans ((State.showRun_within _ _).mono hd)
  unfold State.issue
  split
  · exact Within.refl _ _
  · extract_lets ws code s1
    have h1 : Within ps s s1 := (s.countFetch_within _ _).mono fun p h => hl (by simp at h; subst h; decide)
    refine Within.ite (Within.refl _ _) (h1.trans ?_)
    split
    · exact (State.suspectUnit_within _ _).mono hp
    · exact hgo _ _ _
    · exact Within.ite (((State.bump_within _ _ _).mono hd).trans ((State.undecidable_within _ _ _ _).mono hp)) (hgo _ _ _)

/-! ## Completion -/

theorem State.fly_within (s : State) (a : Nat) (f : Fly) (e : Bool) : Within [.arr] s (s.fly a f e) := by
  unfold State.fly
  split
  · exact Within.refl _ _
  · exact s.modRun_within _ _

theorem State.restartHere_within (s : State) (a : Nat) : Within [.arr] s (s.restartHere a) := by
  unfold State.restartHere
  split
  · exact Within.refl _ _
  · exact s.modRun_within _ _

theorem State.endList_within (s : State) (a : Nat) (r : Run) : Within [.dict, .arr] s (s.endList a r) := by
  unfold State.endList
  extract_lets s1
  have h : Within [.dict, .arr] s s1 := ((s.consume_within _ _).step (State.bump_within _ _ _) (by decide)).step
    (State.put_within _ _ _ _) (by decide)
  exact (h.step (State.modArr_within _ _ _) (by decide)).step (State.showRun_within _ _) (by decide)

/-! ## Routes -/

theorem State.firstHop_within (s : State) (l : List Nat) : Within [.fab, .free] s (s.firstHop l).2 := by
  unfold State.firstHop
  split
  · exact Within.refl _ _
  · split
    · exact (s.set_fab_within _).mono (by decide)
    · exact (s.set_free_within _).mono (by decide)

theorem State.bayRoute_within (s : State) (m : Nat) : Within [.fab, .free] s (s.bayRoute m).2 := by
  have hd : Within [.fab, .free] s s.draw.2 := (s.set_free_within _).mono (by decide)
  have hp : Within [.fab, .free] s (s.draw.2.firstHop (s.draw.2.minimalPorts m)).2 := hd.trans (State.firstHop_within _ _)
  unfold State.bayRoute
  dsimp only
  generalize s.draw.2.firstHop (s.draw.2.minimalPorts m) = p at hp ⊢
  split <;> split <;> (try split) <;> first | exact hp.trans (State.firstHop_within _ _) | exact hp

theorem State.route_within (s : State) (m : Nat) : Within [.fab, .free] s (s.route m).2 := by
  have h : ∀ l, Within [.fab, .free] s (s.firstHop l).2 := fun l => s.firstHop_within l
  have hb := s.bayRoute_within (s.homeOf m)
  unfold State.route
  dsimp only
  split
  · exact Within.refl _ _
  · split <;> split <;> first | exact h _ | exact hb | exact (h _).trans (State.firstHop_within _ _) | exact hb.trans (State.firstHop_within _ _)

/-! ## Signals -/

theorem State.modList_within (s : State) (a r : Nat) (f : Run → Run) : Within [.arr] s (s.modList a r f) := s.modArr_within _ _

/-- What a signal may change. -/
abbrev signalParts : List Part := .fab :: listParts

theorem State.sendBell_within (s : State) (o : FabOp) (m : Nat) (d : Doorbell) : Within signalParts s (s.sendBell o m d) := by
  unfold State.sendBell
  extract_lets y s1
  have h : Within signalParts s s1 := (s.set_fab_within _).mono (by decide)
  exact Within.ite ((s.bump_within _ _).mono (by decide))
    (Within.ite h ((h.step (State.route_within _ _) (by decide)).step (State.emit_within _ _) (by decide)))

theorem State.signal_within (s : State) (a : Nat) (r : Run) (l n : Nat) (t : Bool) (m : Option Nat) (p : Nat) :
    Within signalParts s (s.signal a r l n t m p) := by
  unfold State.signal
  split
  · extract_lets q id d op y s1
    have h : Within signalParts s s1 := (s.set_fab_within _).mono (by decide)
    exact (h.trans (State.sendBell_within _ _ _ _)).step (State.modList_within _ _ _ _) (by decide)
  · exact Within.ite (Within.ite ((s.fireTrig_within _ _).mono (by decide)) ((s.bump_within _ _).mono (by decide)))
      ((s.addLight_within _ _ _ _ _ _ _).mono (by decide))

theorem State.signalDone_within (s : State) (a : Nat) (r : Run) : Within signalParts s (s.signalDone a r) := by
  unfold State.signalDone
  split
  · extract_lets s1 s2
    have h : Within signalParts s s2 := ((s.modList_within _ _ _).mono (by decide)).trans (State.signal_within _ _ _ _ _ _ _ _)
    refine Within.ite ?_ (Within.refl _ _)
    split
    · exact h
    · exact h.step (State.modList_within _ _ _ _) (by decide)
  · exact Within.refl _ _

theorem State.settle_within (s : State) (a r : Nat) : Within signalParts s (s.settle a r) := by
  unfold State.settle
  split
  · exact Within.refl _ _
  · rename_i x _
    extract_lets s1
    have h : Within signalParts s s1 := s.signalDone_within _ _
    refine Within.ite (Within.refl _ _) ?_
    split
    · exact h
    · exact Within.ite (h.step (State.endList_within _ _ _) (by decide)) h

theorem State.progress_within (s : State) (a : Nat) : Within signalParts s (s.progress a) := by
  unfold State.progress
  split
  · exact Within.refl _ _
  · rename_i r _
    extract_lets s1
    have h : Within signalParts s s1 := s.settle_within _ _
    refine Within.ite (Within.ite (Within.refl _ _) ((s.rewind_within _ _ _).mono (by decide))) ?_
    split
    · exact h
    · exact h.step (State.showRun_within _ _) (by decide)

theorem State.land_within (s : State) (a : Nat) (f : Fly → Bool) : Within signalParts s (s.land a f) :=
  (((s.modArr_within _ _).mono (by decide)).trans (State.progress_within _ _)).trans (Within.foldl (fun s (r : Run) => s.settle_within a r.ring) _ _)

theorem State.suspend_within (s : State) (a : Nat) (r : Run) : Within listParts s (s.suspend a r) := by
  unfold State.suspend
  extract_lets s1 back r1 s2
  have h : Within listParts s s2 := ((s.leaveQueue_within _ _ _).mono (by decide)).step (State.bump_within _ _ _) (by decide)
  exact (h.step (State.modArr_within _ _ _) (by decide)).step (State.showRun_within _ _) (by decide)

theorem State.resumeList_within (s : State) (a : Nat) : Within signalParts s (s.resumeList a) := by
  unfold State.resumeList
  split
  · exact Within.refl _ _
  · exact (((s.modArr_within _ _).mono (by decide)).trans (State.progress_within _ _)).step (State.showRun_within _ _) (by decide)

/-! ## Completion records -/

theorem State.stickyEvents_within (s : State) (a o n : Nat) : Within eventParts s (s.stickyEvents a o n) :=
  Within.foldl (fun s _ => Within.ite (s.raise_within _ _ _) (Within.refl _ _)) _ s

theorem State.completionRecord_within (s : State) (a : Nat) (r : Run) (d : DrainRes) :
    Within (.arr :: eventParts) s (s.completionRecord a r d) := by
  unfold State.completionRecord
  extract_lets bs i s1 s2 s3 s4 o s5
  have h2 : Within (.arr :: eventParts) s s2 := ((s.modArr_within _ _).mono (by decide)).step (State.put_within _ _ _ _) (by decide)
  have h3 : Within (.arr :: eventParts) s s3 := h2.trans (Within.ite ((State.logRecord_within _ _ _ _ _ _).mono (by decide)) (Within.refl _ _))
  have h4 : Within (.arr :: eventParts) s s4 := h3.step (State.bumpBy_within _ _ _ _) (by decide)
  have h5 : Within (.arr :: eventParts) s s5 := (h4.step (State.put_within _ _ _ _) (by decide)).step (State.stickyEvents_within _ _ _ _) (by decide)
  exact h5.trans (Within.ite (Within.refl _ _) (((State.logRecord_within _ _ _ _ _ _).mono (by decide)).step (State.bump_within _ _ _) (by decide)))

/-! ## Wings -/

theorem State.wingsWrite_within (s : State) (a x : Nat) (b : Bytes) : Within [.arr] s (s.wingsWrite a x b) := s.modArr_within _ _

theorem State.setTag_within (s : State) (a l t : Nat) : Within [.arr] s (s.setTag a l t) := s.modArr_within _ _

theorem State.wingsPut_within (s : State) (a x : Nat) (b : Bytes) : Within [.arr] s (s.wingsPut a x b) :=
  Within.foldl (fun s _ => s.wingsWrite_within _ _ _) _ s

theorem State.tagPut_within (s : State) (a l t : Nat) : Within [.arr] s (s.tagPut a l t) :=
  Within.foldl (fun s _ => s.setTag_within _ _ _) _ s

theorem State.wingsPlain_within (s : State) (a l : Nat) (b : Bytes) : Within [.arr] s (s.wingsPlain a l b) :=
  (s.wingsPut_within _ _ _).trans (Within.foldl (fun s _ => s.tagPut_within _ _ _) _ _)

/-! ## The fabric -/

theorem State.modPort_within (s : State) (f : Nat) (g : FabPort → FabPort) : Within [.fab] s (s.modPort f g) := s.set_fab_within _

theorem State.sendFlit_within (s : State) (f : Nat) (x : Flit) : Within [.fab, .out, .dict] s (s.sendFlit f x) :=
  (((s.modPort_within _ _).mono (by decide)).step (State.emit_within _ _) (by decide)).step (State.bump_within _ _ _) (by decide)

theorem State.flood_within (s : State) : Within [.out] s s.flood := s.emit_within _

theorem State.localWrite_within (s : State) (o : FabOp) (b : Bytes) : Within [.arr, .mem, .memc] s (s.localWrite o b) :=
  Within.ite ((s.wingsPlain_within _ _ _).mono (by decide)) ((s.memWrite_within _ _).mono (by decide))

/-- What sending chunks may change: the routes drawn, the free values, and what goes out. -/
abbrev chunkParts : List Part := [.fab, .free, .out]

theorem State.sendChunk_within (s : State) (id op d off n c : Nat) (b : Bytes) : Within chunkParts s (s.sendChunk id op d off n c b) :=
  ((s.route_within d).mono (by decide)).step (State.emit_within _ _) (by decide)

theorem State.sendChunks_within (s : State) (id op d off len c : Nat) (b : Bytes) (n : Nat) :
    Within chunkParts s (s.sendChunks id op d off len c b n) := by
  induction n generalizing s off len c b with
  | zero => exact Within.refl _ _
  | succ n ih => exact Within.ite (Within.refl _ _) ((s.sendChunk_within _ _ _ _ _ _ _).trans (ih _ _ _ _ _))

theorem State.copyOut_within (s : State) (o : FabOp) (b : Bytes) : Within chunkParts s (s.copyOut o b) := s.sendChunks_within _ _ _ _ _ _ _ _

/-- What the data of an operation may change. -/
abbrev dataParts : List Part := [.arr, .mem, .memc, .fab, .free, .out]

theorem State.slipData_within (s : State) (o : FabOp) (b : Bytes) : Within dataParts s (s.slipData o b) := by
  unfold State.slipData
  split
  · exact (s.localWrite_within _ _).mono (by decide)
  · exact (s.wingsPlain_within _ _ _).mono (by decide)
  · exact (s.wingsPlain_within _ _ _).mono (by decide)
  · exact Within.ite ((s.memWrite_within _ _).mono (by decide)) (Within.ite (Within.refl _ _) ((s.copyOut_within _ _).mono (by decide)))
  · exact Within.refl _ _

theorem State.slipStatus_within (s : State) (o : FabOp) (st : Nat) : Within [.arr] s (s.slipStatus o st) := s.wingsPlain_within _ _ _

theorem State.dropOp_within (s : State) (id : Nat) : Within [.fab] s (s.dropOp id) := s.set_fab_within _

theorem State.slipFails_within (s : State) (o : FabOp) (st : Nat) : Within signalParts s (s.slipFails o st) := by
  unfold State.slipFails
  extract_lets y s1
  have h1 : Within signalParts s s1 := (s.set_fab_within _).mono (by decide)
  split
  · exact h1
  · rename_i r f _
    extract_lets s2 r1 s3
    have h2 : Within signalParts s s2 := h1.step (State.modArr_within _ _ _) (by decide)
    have h3 : Within signalParts s s3 := h2.step (State.bump_within _ _ _) (by decide)
    refine Within.ite (h2.step (State.abandonRun_within _ _ _ _) (by decide)) (Within.ite (h2.step (State.abortToRestart_within _ _ _ _) (by decide)) ?_)
    exact Within.ite (h3.step (State.abandonRun_within _ _ _ _) (by decide)) (h3.step (State.modArr_within _ _ _) (by decide))

/-- A slip's cue light, where it names one. -/
theorem State.slipLight_within (s : State) (o : FabOp) (l : Option Nat) :
    Within signalParts s (match l with | some l => s.addLight l 1 2 o.array o.seq o.addr opCallslip | none => s) := by
  cases l
  · exact Within.refl _ _
  · exact (s.addLight_within _ _ _ _ _ _ _).mono (by decide)

theorem State.slipDone_within (s : State) (o : FabOp) (st : Nat) (b : Bytes) : Within signalParts s (s.slipDone o st b) := by
  have h1 : Within signalParts s ((s.bump 0x7820 st).dropOp o.id) := ((s.bump_within _ _).mono (by decide)).step (State.dropOp_within _ _) (by decide)
  unfold State.slipDone
  generalize (s.bump 0x7820 st).dropOp o.id = s1 at h1 ⊢
  have h2 : Within signalParts s (if st = stOk then s1.slipData o b else s1) :=
    h1.trans (Within.ite ((State.slipData_within _ _ _).mono (by decide)) (Within.refl _ _))
  extract_lets y s2 s3 s4 s5 s6
  have h3 : Within signalParts s s3 := h2.step (State.slipStatus_within _ _ _) (by decide)
  have h4 : Within signalParts s s4 := h3.trans (s3.slipLight_within o o.light)
  refine Within.ite (Within.ite h4 ?_) ?_
  · exact (h4.step (State.modArr_within _ _ _) (by decide)).trans (State.land_within _ _ _)
  · have h6 : ∀ e, Within signalParts s (s3.errorRecord e) := fun e => h3.step (State.errorRecord_within _ _) (by decide)
    exact Within.ite (h6 _) ((h6 _).trans (State.slipFails_within _ _ _))

theorem State.markSent_within (s : State) (id : Nat) : Within [.fab] s (s.markSent id) := s.set_fab_within _

theorem State.sendSlip_within (s : State) (o : FabOp) : Within signalParts s (s.sendSlip o) := by
  unfold State.sendSlip
  extract_lets bs s1 s2
  have h1 : Within signalParts s s1 := (s.markSent_within _).mono (by decide)
  have h2 : Within signalParts s s2 := h1.trans (Within.ite ((State.countRead_within _ _ _).mono (by decide)) (Within.refl _ _))
  exact Within.ite (s.slipDone_within _ _ _) (Within.ite (s.slipDone_within _ _ _) (Within.ite (s.slipDone_within _ _ _)
    (Within.ite h1 (Within.ite
      (Within.ite ((h1.step (State.countRead_within _ _ _) (by decide)).step (State.copyOut_within _ _ _) (by decide))
        (h1.step (State.sendChunks_within _ _ _ _ _ _ _ _ _) (by decide)))
      (h2.step (State.sendChunk_within _ _ _ _ _ _ _ _) (by decide))))))

theorem State.sendSlips_within (s : State) (g n : Nat) : Within signalParts s (s.sendSlips g n) := by
  induction n generalizing s with
  | zero => exact Within.refl _ _
  | succ n ih =>
    unfold State.sendSlips
    split
    · exact Within.refl _ _
    · exact (s.sendSlip_within _).trans (ih _)

theorem State.queueSlips_within (s : State) (a l : Nat) (x : Bool) (o : Option Nat) (c q g n : Nat) :
    Within [.fab] s (s.queueSlips a l x o c q g n) := by
  induction n generalizing s l with
  | zero => exact Within.refl _ _
  | succ n ih => exact (s.set_fab_within _).trans (ih _ _)

end Sys2Proof.Machine
end

