-- ==== Sys2Proof/Laws/FrameRequests.lean ====
section
/-! SUPPORT. How a request is served: what the serving itself changes, and what it leaves to the service. -/

namespace Sys2Proof.Machine

/-- What answering a request may change. -/
abbrev answerParts : List Part := [.out, .dict, .odp]

theorem State.answer_within (s : State) (a : Answer) : Within answerParts s (s.answer a) := by
  unfold State.answer
  extract_lets s1 s2
  have h1 : Within answerParts s s1 := ((s.emit_within _).mono (by decide)).step (State.bump_within _ _ _) (by decide)
  have h2 : Within answerParts s s2 := h1.trans (Within.ite (Within.refl _ _) ((State.bump_within _ _ _).mono (by decide)))
  exact h2.step (State.set_odp_within _ _) (by decide)

theorem State.authenticate_within {s u : State} {svc : Nat} {r : Req} {i j : Nat} {d : Bytes} (h : s.authenticate svc r i j d = some u) :
    Within [.odp] s u := by
  unfold State.authenticate at h
  split at h
  · injection h with h; subst h; exact Within.refl _ _
  · split at h
    · cases h
    · split at h
      · injection h with h; subst h; exact s.set_odp_within _
      · cases h

/-- A request leaves what neither its answer nor its service changes. -/
theorem State.receive_within {ps : List Part} (s : State) (svc : Nat) (r : Req) (i j : Nat) (d : Bytes) (body : State → State)
    (ha : answerParts ⊆ ps) (hb : ∀ u, Within ps u (body u)) : Within ps s (s.receive svc r i j d body) := by
  unfold State.receive
  refine Within.ite (Within.refl _ _) ?_
  have h0 : ∀ u, s.authenticate svc r i j d = some u → Within ps s u := fun u hu =>
    (State.authenticate_within hu).mono fun p hp => ha (by simp at hp; simp [hp])
  cases hu : s.authenticate svc r i j d with
  | none => exact (s.bump_within _ _).mono fun p hp => ha (by simp at hp; simp [hp])
  | some u =>
    refine (h0 u hu).trans ?_
    dsimp only
    split
    · exact (((u.emit_within _).mono (by decide : _ ⊆ answerParts)).step (State.bump_within _ _ _) (by decide)).mono ha
    · split
      · exact (u.answer_within _).mono ha
      · exact hb u

theorem State.serve_within {ps : List Part} (s : State) (svc : Nat) (r : Req) (i j : Nat) (d : Bytes) (body : State → Reply)
    (ha : answerParts ⊆ ps) (hb : ∀ u, Within ps u (body u).st) : Within ps s (s.serve svc r i j d body) :=
  s.receive_within svc r i j d _ ha fun u => (hb u).trans ((State.answer_within _ _).mono ha)

/-- A WRITE leaves what neither its answer nor its effect changes. -/
theorem State.serveWrite_within {ps : List Part} (s : State) (r : Req) (i j : Nat) (d : Bytes) (eff : State → Except Nat State)
    (ha : answerParts ⊆ ps) (hb : ∀ u v, eff u = .ok v → Within ps u v) : Within ps s (s.serveWrite r i j d eff) := by
  refine s.serve_within svcWrite r i j d _ ha fun u => ?_
  split
  · exact Within.refl _ _
  · split
    · exact Within.refl _ _
    · rename_i v hv; exact hb u v hv

/-! ## The answer of an admitted request -/

/-- A request that nothing stops before its object is served by its service. -/
theorem State.receive_of_admits {s u : State} {svc : Nat} {r : Req} {i j : Nat} {d : Bytes} {body : State → State}
    (h1 : s.servesOdp = true) (h2 : s.addressed r.target = true) (h3 : s.authenticate svc r i j d = some u)
    (h4 : (u.odp.history.find? fun a => a.isOf r) = none) (h5 : u.checkFrame svc r i = none) :
    s.receive svc r i j d body = body u := by
  unfold State.receive
  rw [if_neg (by simp [h1, h2])]
  simp only [h3, h4, h5]

/-- The answer sent is the newest of the history. -/
@[simp] theorem State.answer_head (s : State) (a : Answer) : (s.answer a).odp.history.head? = some a := by
  unfold State.answer
  simp

end Sys2Proof.Machine
end

