-- ==== Sys2Proof/Laws/Sparse.lean ====
section
/-! SUPPORT. Tables in canonical form: what reads answer after writes, and that every operation keeps the form. -/

namespace Sys2Proof

variable {α : Type} {d : Nat → α}

/-! ## Reading what is not listed -/

/-- A table whose keys all lie above `x` reads as its default there. -/
theorem Sparse.read_below [DecidableEq α] {lo x : Nat} {m : Sparse α} (h : Sparse.wfFrom d (some lo) m = true) (hx : x ≤ lo) :
    Sparse.read d m x = d x := by
  induction m generalizing lo with
  | nil => rfl
  | cons e m ih =>
    obtain ⟨k, v⟩ := e
    simp only [Sparse.wfFrom, Bool.and_eq_true, decide_eq_true_eq] at h
    have hk : k ≠ x := by omega
    simp [Sparse.read, hk, ih h.2 (by omega)]

/-- The form from a lower bound on. -/
theorem Sparse.wfFrom_mono [DecidableEq α] {lo lo' : Nat} {m : Sparse α} (h : Sparse.wfFrom d (some lo) m = true) (hl : lo' ≤ lo) :
    Sparse.wfFrom d (some lo') m = true := by
  cases m with
  | nil => rfl
  | cons e m =>
    obtain ⟨k, v⟩ := e
    simp only [Sparse.wfFrom, Bool.and_eq_true, decide_eq_true_eq] at h ⊢
    exact ⟨⟨by omega, h.1.2⟩, h.2⟩

theorem Sparse.wf_of_from [DecidableEq α] {lo : Nat} {m : Sparse α} (h : Sparse.wfFrom d (some lo) m = true) : Sparse.wf d m = true := by
  cases m with
  | nil => rfl
  | cons e m =>
    obtain ⟨k, v⟩ := e
    simp only [Sparse.wfFrom, Sparse.wf, Bool.and_eq_true] at h ⊢
    exact ⟨h.1.2, h.2⟩

theorem Sparse.wf_cons [DecidableEq α] {k : Nat} {v : α} {m : Sparse α} :
    Sparse.wf d ((k, v) :: m) = true ↔ v ≠ d k ∧ Sparse.wfFrom d (some k) m = true := by
  simp [Sparse.wf, Sparse.wfFrom]

/-! ## Writing -/

theorem Sparse.write_wfFrom [DecidableEq α] {lo x : Nat} {v : α} {m : Sparse α} (h : Sparse.wfFrom d (some lo) m = true) (hx : lo < x) :
    Sparse.wfFrom d (some lo) (Sparse.write d m x v) = true := by
  induction m generalizing lo with
  | nil =>
    unfold Sparse.write
    split
    · rfl
    · rename_i hv
      simp [Sparse.wfFrom, hx, hv]
  | cons e m ih =>
    obtain ⟨k, w⟩ := e
    simp only [Sparse.wfFrom, Bool.and_eq_true, decide_eq_true_eq] at h
    unfold Sparse.write
    split
    · rename_i hk
      simp only [Sparse.wfFrom, Bool.and_eq_true, decide_eq_true_eq]
      exact ⟨h.1, ih h.2 hk⟩
    · split
      · rename_i hk
        split
        · exact Sparse.wfFrom_mono h.2 (by omega)
        · rename_i hv
          simp only [Sparse.wfFrom, Bool.and_eq_true, decide_eq_true_eq]
          exact ⟨⟨hx, hv⟩, hk ▸ h.2⟩
      · split
        · simp only [Sparse.wfFrom, Bool.and_eq_true, decide_eq_true_eq]
          exact h
        · rename_i hv
          simp only [Sparse.wfFrom, Bool.and_eq_true, decide_eq_true_eq]
          exact ⟨⟨hx, hv⟩, ⟨by omega, h.1.2⟩, h.2⟩

/-- A write keeps the form. -/
theorem Sparse.write_wf [DecidableEq α] {x : Nat} {v : α} {m : Sparse α} (h : Sparse.wf d m = true) :
    Sparse.wf d (Sparse.write d m x v) = true := by
  cases m with
  | nil =>
    unfold Sparse.write
    split
    · rfl
    · rename_i hv
      simp [Sparse.wf, Sparse.wfFrom, hv]
  | cons e m =>
    obtain ⟨k, w⟩ := e
    rw [Sparse.wf_cons] at h
    unfold Sparse.write
    split
    · rename_i hk
      rw [Sparse.wf_cons]
      exact ⟨h.1, Sparse.write_wfFrom h.2 hk⟩
    · split
      · rename_i hk
        split
        · exact Sparse.wf_of_from h.2
        · rename_i hv
          rw [Sparse.wf_cons]
          exact ⟨hv, hk ▸ h.2⟩
      · split
        · rw [Sparse.wf_cons]; exact h
        · rename_i hv
          rw [Sparse.wf_cons]
          refine ⟨hv, ?_⟩
          simp only [Sparse.wfFrom, Bool.and_eq_true, decide_eq_true_eq]
          exact ⟨⟨by omega, h.1⟩, h.2⟩

/-- A write leaves every other key. -/
theorem Sparse.read_write_ne [DecidableEq α] {x y : Nat} {v : α} {m : Sparse α} (hy : y ≠ x) :
    Sparse.read d (Sparse.write d m x v) y = Sparse.read d m y := by
  induction m with
  | nil =>
    unfold Sparse.write
    split
    · rfl
    · simp [Sparse.read, Ne.symm hy]
  | cons e m ih =>
    obtain ⟨k, w⟩ := e
    unfold Sparse.write
    split
    · simp [Sparse.read, ih]
    · split
      · rename_i hk
        have : k ≠ y := by omega
        split <;> simp [Sparse.read, Ne.symm hy, this]
      · split
        · rfl
        · simp [Sparse.read, Ne.symm hy]

theorem Sparse.read_writeFrom [DecidableEq α] {lo x : Nat} {v : α} {m : Sparse α} (h : Sparse.wfFrom d (some lo) m = true) :
    Sparse.read d (Sparse.write d m x v) x = v := by
  induction m generalizing lo with
  | nil =>
    unfold Sparse.write
    split
    · rename_i hv; simp [Sparse.read, hv]
    · simp [Sparse.read]
  | cons e m ih =>
    obtain ⟨k, w⟩ := e
    simp only [Sparse.wfFrom, Bool.and_eq_true, decide_eq_true_eq] at h
    unfold Sparse.write
    split
    · rename_i hk
      have : k ≠ x := by omega
      simp [Sparse.read, this, ih h.2]
    · split
      · rename_i hk
        subst hk
        split
        · rename_i hv; rw [Sparse.read_below h.2 (Nat.le_refl _), hv]
        · simp [Sparse.read]
      · split
        · rename_i hk hk' hv
          simp [Sparse.read, hk', Sparse.read_below h.2 (by omega : x ≤ k), hv]
        · simp [Sparse.read]

/-- A read after a write to the same key answers the value written. -/
@[simp] theorem Sparse.read_write [DecidableEq α] {x : Nat} {v : α} {m : Sparse α} (h : Sparse.wf d m = true) :
    Sparse.read d (Sparse.write d m x v) x = v := by
  cases m with
  | nil => exact Sparse.read_writeFrom (lo := 0) rfl
  | cons e m =>
    obtain ⟨k, w⟩ := e
    rw [Sparse.wf_cons] at h
    unfold Sparse.write
    split
    · rename_i hk
      have : k ≠ x := by omega
      simp [Sparse.read, this, Sparse.read_writeFrom h.2]
    · split
      · rename_i hk
        subst hk
        split
        · rename_i hv; rw [Sparse.read_below h.2 (Nat.le_refl _), hv]
        · simp [Sparse.read]
      · split
        · rename_i hk hk' hv
          simp [Sparse.read, hk', Sparse.read_below h.2 (by omega : x ≤ k), hv]
        · simp [Sparse.read]

theorem Sparse.writeList_wf [DecidableEq α] {x : Nat} {vs : List α} {m : Sparse α} (h : Sparse.wf d m = true) :
    Sparse.wf d (Sparse.writeList d m x vs) = true := by
  induction vs generalizing m x with
  | nil => exact h
  | cons v vs ih => exact ih (Sparse.write_wf h)

/-- Writing a list leaves every key outside its range. -/
theorem Sparse.read_writeList_out [DecidableEq α] {x y : Nat} {vs : List α} {m : Sparse α} (hy : y < x ∨ x + vs.length ≤ y) :
    Sparse.read d (Sparse.writeList d m x vs) y = Sparse.read d m y := by
  induction vs generalizing m x with
  | nil => rfl
  | cons v vs ih =>
    simp only [List.length_cons] at hy
    rw [Sparse.writeList, ih (by omega), Sparse.read_write_ne (by omega)]

/-- A key in the range of a written list reads as the list's entry. -/
theorem Sparse.read_writeList_in [DecidableEq α] {x i : Nat} {vs : List α} {m : Sparse α} (h : Sparse.wf d m = true) (hi : i < vs.length) :
    Sparse.read d (Sparse.writeList d m x vs) (x + i) = vs[i] := by
  induction vs generalizing m x i with
  | nil => simp at hi
  | cons v vs ih =>
    rw [Sparse.writeList]
    cases i with
    | zero =>
      rw [Sparse.read_writeList_out (Or.inl (by omega))]
      exact Sparse.read_write h
    | succ i =>
      have := ih (x := x + 1) (i := i) (Sparse.write_wf (x := x) (v := v) h) (by simpa using hi)
      rw [show x + (i + 1) = x + 1 + i by omega, this]
      rfl

@[simp] theorem Sparse.readList_length {m : Sparse α} {x n : Nat} : (Sparse.readList d m x n).length = n := by
  induction n generalizing x with
  | zero => rfl
  | succ n ih => simp [Sparse.readList, ih]

theorem Sparse.readList_congr {m m' : Sparse α} {x n : Nat} (h : ∀ y, x ≤ y → y < x + n → Sparse.read d m y = Sparse.read d m' y) :
    Sparse.readList d m x n = Sparse.readList d m' x n := by
  induction n generalizing x with
  | zero => rfl
  | succ n ih =>
    rw [Sparse.readList, Sparse.readList, h x (by omega) (by omega), ih fun y h1 h2 => h y (by omega) (by omega)]

/-- Reading back a list just written. -/
theorem Sparse.readList_writeList [DecidableEq α] {x : Nat} {vs : List α} {m : Sparse α} (h : Sparse.wf d m = true) :
    Sparse.readList d (Sparse.writeList d m x vs) x vs.length = vs := by
  induction vs generalizing m x with
  | nil => rfl
  | cons v vs ih =>
    rw [List.length_cons, Sparse.readList, Sparse.writeList, ih (Sparse.write_wf h),
      Sparse.read_writeList_out (Or.inl (by omega)), Sparse.read_write h]

/-! ## Clearing a range -/

theorem Sparse.filter_wfFrom [DecidableEq α] {lo : Nat} {m : Sparse α} (p : Nat × α → Bool) (h : Sparse.wfFrom d (some lo) m = true) :
    Sparse.wfFrom d (some lo) (m.filter p) = true := by
  induction m generalizing lo with
  | nil => rfl
  | cons e m ih =>
    obtain ⟨k, v⟩ := e
    simp only [Sparse.wfFrom, Bool.and_eq_true, decide_eq_true_eq] at h
    rw [List.filter_cons]
    split
    · simp only [Sparse.wfFrom, Bool.and_eq_true, decide_eq_true_eq]
      exact ⟨h.1, ih h.2⟩
    · exact Sparse.wfFrom_mono (ih h.2) (by omega)

/-- Dropping entries keeps the form. -/
theorem Sparse.filter_wf [DecidableEq α] {m : Sparse α} (p : Nat × α → Bool) (h : Sparse.wf d m = true) :
    Sparse.wf d (m.filter p) = true := by
  cases m with
  | nil => rfl
  | cons e m =>
    obtain ⟨k, v⟩ := e
    rw [Sparse.wf_cons] at h
    rw [List.filter_cons]
    split
    · rw [Sparse.wf_cons]; exact ⟨h.1, Sparse.filter_wfFrom p h.2⟩
    · exact Sparse.wf_of_from (Sparse.filter_wfFrom p h.2)

theorem Sparse.clear_wf [DecidableEq α] {m : Sparse α} {x n : Nat} (h : Sparse.wf d m = true) :
    Sparse.wf d (Sparse.clear m x n) = true := Sparse.filter_wf _ h

theorem Sparse.read_clear_in {m : Sparse α} {x n y : Nat} (h1 : x ≤ y) (h2 : y < x + n) : Sparse.read d (Sparse.clear m x n) y = d y := by
  induction m with
  | nil => rfl
  | cons e m ih =>
    obtain ⟨k, v⟩ := e
    unfold Sparse.clear at ih ⊢
    rw [List.filter_cons]
    split
    · rename_i hk
      have : k ≠ y := by
        rintro rfl
        simp at hk
        omega
      simp [Sparse.read, this, ih]
    · exact ih

theorem Sparse.read_clear_out {m : Sparse α} {x n y : Nat} (hy : y < x ∨ x + n ≤ y) :
    Sparse.read d (Sparse.clear m x n) y = Sparse.read d m y := by
  induction m with
  | nil => rfl
  | cons e m ih =>
    obtain ⟨k, v⟩ := e
    unfold Sparse.clear at ih ⊢
    rw [List.filter_cons]
    split
    · simp [Sparse.read, ih]
    · rename_i hk
      have : k ≠ y := by
        rintro rfl
        simp at hk
        omega
      simp [Sparse.read, this, ih]

/-! ## The form names a table's content -/

/-- The form depends on the default only at the keys listed. -/
theorem Sparse.wfFrom_congr [DecidableEq α] {d' : Nat → α} {lo : Option Nat} {m : Sparse α} (hd : ∀ e ∈ m, d e.1 = d' e.1)
    (h : Sparse.wfFrom d lo m = true) : Sparse.wfFrom d' lo m = true := by
  induction m generalizing lo with
  | nil => cases lo <;> rfl
  | cons e m ih =>
    obtain ⟨k, v⟩ := e
    have hk : d k = d' k := hd (k, v) (by simp)
    have hm : ∀ e ∈ m, d e.1 = d' e.1 := fun e he => hd e (by simp [he])
    cases lo with
    | none =>
      simp only [Sparse.wfFrom, Bool.and_eq_true, decide_eq_true_eq] at h ⊢
      exact ⟨hk ▸ h.1, ih hm h.2⟩
    | some lo =>
      simp only [Sparse.wfFrom, Bool.and_eq_true, decide_eq_true_eq] at h ⊢
      exact ⟨⟨h.1.1, hk ▸ h.1.2⟩, ih hm h.2⟩

end Sys2Proof
end

