-- ==== Sys2Proof/Laws/Memory.lean ====
section
/-! SUPPORT. The stacks: reads after writes, and that every operation on them keeps their canonical form. -/

namespace Sys2Proof.Machine

@[simp] theorem State.memDef_memWrite (s : State) (x : Nat) (bs : Bytes) : (s.memWrite x bs).memDef = s.memDef := rfl

/-- A write to the stacks keeps their form. -/
theorem State.memWrite_wf {s : State} {x : Nat} {bs : Bytes} (h : Memory.wf s = true) : Memory.wf (s.memWrite x bs) = true := by
  unfold Memory.wf
  rw [State.memDef_memWrite]
  exact Sparse.writeList_wf h

/-- Bytes outside a write read as before. -/
theorem State.memRead_memWrite_out {s : State} {x y n : Nat} {bs : Bytes} (hy : y + n ≤ x ∨ x + bs.length ≤ y) :
    (s.memWrite x bs).memRead y n = s.memRead y n := by
  unfold State.memRead
  rw [State.memDef_memWrite]
  exact Sparse.readList_congr fun z h1 h2 => Sparse.read_writeList_out (by omega)

/-- A write to the stacks is read back. -/
theorem State.memRead_memWrite {s : State} {x : Nat} {bs : Bytes} (h : Memory.wf s = true) :
    (s.memWrite x bs).memRead x bs.length = bs := by
  unfold State.memRead
  rw [State.memDef_memWrite]
  exact Sparse.readList_writeList h

/-- A range that loses its contents keeps the rest, and the form. -/
theorem State.memDef_memFill_out {s : State} {base size x : Nat} {seed : Option Nat} (hx : x < base ∨ base + size ≤ x) :
    (s.memFill base size seed).memDef x = s.memDef x := by
  unfold State.memDef State.memFill
  rw [List.find?_cons_of_neg]
  simp
  omega

theorem State.memFill_wf {s : State} {base size : Nat} {seed : Option Nat} (h : Memory.wf s = true) :
    Memory.wf (s.memFill base size seed) = true := by
  unfold Memory.wf
  refine Sparse.wfFrom_congr (d := s.memDef) ?_ (Sparse.clear_wf h)
  intro e he
  have := (List.mem_filter.mp he).2
  simp only [Bool.or_eq_true, decide_eq_true_eq] at this
  exact (State.memDef_memFill_out this).symm

theorem State.put_mem_wf {s : State} {i j v : Nat} : Memory.wf (s.put i j v) = Memory.wf s := rfl

/-- Emptying the catalogue keeps the form. -/
theorem State.clearCatalogue_wf {s : State} (h : Memory.wf s = true) : Memory.wf s.clearCatalogue = true := Sparse.clear_wf h

theorem find?_filter_of {α : Type} {p q : α → Bool} {l : List α} (h : ∀ v, p v = true → q v = true) :
    (l.filter q).find? p = l.find? p := by
  induction l with
  | nil => rfl
  | cons v l ih =>
    by_cases hp : p v = true
    · rw [List.filter_cons_of_pos (h v hp), List.find?_cons_of_pos hp, List.find?_cons_of_pos hp]
    · rw [List.find?_cons_of_neg hp, List.filter_cons]
      split
      · rw [List.find?_cons_of_neg hp, ih]
      · exact ih

/-- What BOOT leaves in the logbook region reads as before. -/
theorem State.memDef_zeroStacks {s : State} (hb : s.dev.boot.isCold = false) {c : Nat} (h1 : s.regionBase 3 ≤ c)
    (h2 : c < s.regionBase 3 + s.regionSize 3) : s.zeroStacks.memDef c = s.memDef c := by
  have hf := find?_filter_of (l := s.memc.void) (p := fun e => decide (e.1 ≤ c) && decide (c < e.1 + e.2.1))
    (q := fun v => decide (v.1 < s.regionBase 3 + s.regionSize 3) && decide (s.regionBase 3 < v.1 + v.2.1)) (by
      intro v hv
      simp only [Bool.and_eq_true, decide_eq_true_eq] at hv ⊢
      omega)
  unfold State.memDef State.zeroStacks
  simp only [hb, Bool.false_eq_true, if_false]
  rw [List.find?_cons_of_neg (by simp; omega), List.find?_cons_of_neg (by simp; omega), hf]

/-- BOOT keeps the form. -/
theorem State.zeroStacks_wf {s : State} (h : Memory.wf s = true) : Memory.wf s.zeroStacks = true := by
  by_cases hb : s.dev.boot.isCold = true
  · unfold State.zeroStacks
    rw [if_pos hb]
    rfl
  · have hb : s.dev.boot.isCold = false := by simpa using hb
    have hm : s.zeroStacks.mem = s.mem.filter fun c =>
        decide (s.regionBase 3 ≤ c.1) && decide (c.1 < s.regionBase 3 + s.regionSize 3) := by
      unfold State.zeroStacks
      simp [hb]
    unfold Memory.wf
    rw [hm]
    refine Sparse.wfFrom_congr (d := s.memDef) ?_ (Sparse.filter_wf _ h)
    intro e he
    have := (List.mem_filter.mp he).2
    simp only [Bool.and_eq_true, decide_eq_true_eq] at this
    exact (State.memDef_zeroStacks hb this.1 this.2).symm

end Sys2Proof.Machine
end

