-- ==== Sys2Proof/Laws/State.lean ====
section
/-! SUPPORT. The single updates of the state: what each field holds after it. -/

namespace Sys2Proof.Machine

/-! ## State.put -/

@[simp] theorem State.put_mfg (s : State) (i j v : Nat) : (s.put i j v).mfg = s.mfg := rfl
@[simp] theorem State.put_dict (s : State) (i j v : Nat) : (s.put i j v).dict = Sparse.write objDefault s.dict (objKey i j) v := rfl
@[simp] theorem State.put_staged (s : State) (i j v : Nat) : (s.put i j v).staged = s.staged := rfl
@[simp] theorem State.put_pwr (s : State) (i j v : Nat) : (s.put i j v).pwr = s.pwr := rfl
@[simp] theorem State.put_dev (s : State) (i j v : Nat) : (s.put i j v).dev = s.dev := rfl
@[simp] theorem State.put_clock (s : State) (i j v : Nat) : (s.put i j v).clock = s.clock := rfl
@[simp] theorem State.put_mgmt (s : State) (i j v : Nat) : (s.put i j v).mgmt = s.mgmt := rfl
@[simp] theorem State.put_odp (s : State) (i j v : Nat) : (s.put i j v).odp = s.odp := rfl
@[simp] theorem State.put_flash (s : State) (i j v : Nat) : (s.put i j v).flash = s.flash := rfl
@[simp] theorem State.put_saving (s : State) (i j v : Nat) : (s.put i j v).saving = s.saving := rfl
@[simp] theorem State.put_mem (s : State) (i j v : Nat) : (s.put i j v).mem = s.mem := rfl
@[simp] theorem State.put_line (s : State) (i j v : Nat) : (s.put i j v).line = s.line := rfl
@[simp] theorem State.put_intake (s : State) (i j v : Nat) : (s.put i j v).intake = s.intake := rfl
@[simp] theorem State.put_pkts (s : State) (i j v : Nat) : (s.put i j v).pkts = s.pkts := rfl
@[simp] theorem State.put_nextPid (s : State) (i j v : Nat) : (s.put i j v).nextPid = s.nextPid := rfl
@[simp] theorem State.put_egr (s : State) (i j v : Nat) : (s.put i j v).egr = s.egr := rfl
@[simp] theorem State.put_cat (s : State) (i j v : Nat) : (s.put i j v).cat = s.cat := rfl
@[simp] theorem State.put_tree (s : State) (i j v : Nat) : (s.put i j v).tree = s.tree := rfl
@[simp] theorem State.put_arr (s : State) (i j v : Nat) : (s.put i j v).arr = s.arr := rfl
@[simp] theorem State.put_sync (s : State) (i j v : Nat) : (s.put i j v).sync = s.sync := rfl
@[simp] theorem State.put_lib (s : State) (i j v : Nat) : (s.put i j v).lib = s.lib := rfl
@[simp] theorem State.put_fab (s : State) (i j v : Nat) : (s.put i j v).fab = s.fab := rfl
@[simp] theorem State.put_memc (s : State) (i j v : Nat) : (s.put i j v).memc = s.memc := rfl
@[simp] theorem State.put_rel (s : State) (i j v : Nat) : (s.put i j v).rel = s.rel := rfl
@[simp] theorem State.put_obs (s : State) (i j v : Nat) : (s.put i j v).obs = s.obs := rfl
@[simp] theorem State.put_trust (s : State) (i j v : Nat) : (s.put i j v).trust = s.trust := rfl
@[simp] theorem State.put_free (s : State) (i j v : Nat) : (s.put i j v).free = s.free := rfl
@[simp] theorem State.put_out (s : State) (i j v : Nat) : (s.put i j v).out = s.out := rfl
@[simp] theorem State.put_pending (s : State) (i j v : Nat) : (s.put i j v).pending = s.pending := rfl

/-! ## State.stage -/

@[simp] theorem State.stage_mfg (s : State) (i j v : Nat) : (s.stage i j v).mfg = s.mfg := rfl
@[simp] theorem State.stage_dict (s : State) (i j v : Nat) : (s.stage i j v).dict = s.dict := rfl
@[simp] theorem State.stage_pwr (s : State) (i j v : Nat) : (s.stage i j v).pwr = s.pwr := rfl
@[simp] theorem State.stage_dev (s : State) (i j v : Nat) : (s.stage i j v).dev = s.dev := rfl
@[simp] theorem State.stage_clock (s : State) (i j v : Nat) : (s.stage i j v).clock = s.clock := rfl
@[simp] theorem State.stage_mgmt (s : State) (i j v : Nat) : (s.stage i j v).mgmt = s.mgmt := rfl
@[simp] theorem State.stage_odp (s : State) (i j v : Nat) : (s.stage i j v).odp = s.odp := rfl
@[simp] theorem State.stage_flash (s : State) (i j v : Nat) : (s.stage i j v).flash = s.flash := rfl
@[simp] theorem State.stage_saving (s : State) (i j v : Nat) : (s.stage i j v).saving = s.saving := rfl
@[simp] theorem State.stage_mem (s : State) (i j v : Nat) : (s.stage i j v).mem = s.mem := rfl
@[simp] theorem State.stage_line (s : State) (i j v : Nat) : (s.stage i j v).line = s.line := rfl
@[simp] theorem State.stage_intake (s : State) (i j v : Nat) : (s.stage i j v).intake = s.intake := rfl
@[simp] theorem State.stage_pkts (s : State) (i j v : Nat) : (s.stage i j v).pkts = s.pkts := rfl
@[simp] theorem State.stage_nextPid (s : State) (i j v : Nat) : (s.stage i j v).nextPid = s.nextPid := rfl
@[simp] theorem State.stage_egr (s : State) (i j v : Nat) : (s.stage i j v).egr = s.egr := rfl
@[simp] theorem State.stage_cat (s : State) (i j v : Nat) : (s.stage i j v).cat = s.cat := rfl
@[simp] theorem State.stage_tree (s : State) (i j v : Nat) : (s.stage i j v).tree = s.tree := rfl
@[simp] theorem State.stage_arr (s : State) (i j v : Nat) : (s.stage i j v).arr = s.arr := rfl
@[simp] theorem State.stage_sync (s : State) (i j v : Nat) : (s.stage i j v).sync = s.sync := rfl
@[simp] theorem State.stage_lib (s : State) (i j v : Nat) : (s.stage i j v).lib = s.lib := rfl
@[simp] theorem State.stage_fab (s : State) (i j v : Nat) : (s.stage i j v).fab = s.fab := rfl
@[simp] theorem State.stage_memc (s : State) (i j v : Nat) : (s.stage i j v).memc = s.memc := rfl
@[simp] theorem State.stage_rel (s : State) (i j v : Nat) : (s.stage i j v).rel = s.rel := rfl
@[simp] theorem State.stage_obs (s : State) (i j v : Nat) : (s.stage i j v).obs = s.obs := rfl
@[simp] theorem State.stage_trust (s : State) (i j v : Nat) : (s.stage i j v).trust = s.trust := rfl
@[simp] theorem State.stage_free (s : State) (i j v : Nat) : (s.stage i j v).free = s.free := rfl
@[simp] theorem State.stage_out (s : State) (i j v : Nat) : (s.stage i j v).out = s.out := rfl
@[simp] theorem State.stage_pending (s : State) (i j v : Nat) : (s.stage i j v).pending = s.pending := rfl

/-! ## State.bumpBy -/

@[simp] theorem State.bumpBy_mfg (s : State) (i j n : Nat) : (s.bumpBy i j n).mfg = s.mfg := rfl
@[simp] theorem State.bumpBy_staged (s : State) (i j n : Nat) : (s.bumpBy i j n).staged = s.staged := rfl
@[simp] theorem State.bumpBy_pwr (s : State) (i j n : Nat) : (s.bumpBy i j n).pwr = s.pwr := rfl
@[simp] theorem State.bumpBy_dev (s : State) (i j n : Nat) : (s.bumpBy i j n).dev = s.dev := rfl
@[simp] theorem State.bumpBy_clock (s : State) (i j n : Nat) : (s.bumpBy i j n).clock = s.clock := rfl
@[simp] theorem State.bumpBy_mgmt (s : State) (i j n : Nat) : (s.bumpBy i j n).mgmt = s.mgmt := rfl
@[simp] theorem State.bumpBy_odp (s : State) (i j n : Nat) : (s.bumpBy i j n).odp = s.odp := rfl
@[simp] theorem State.bumpBy_flash (s : State) (i j n : Nat) : (s.bumpBy i j n).flash = s.flash := rfl
@[simp] theorem State.bumpBy_saving (s : State) (i j n : Nat) : (s.bumpBy i j n).saving = s.saving := rfl
@[simp] theorem State.bumpBy_mem (s : State) (i j n : Nat) : (s.bumpBy i j n).mem = s.mem := rfl
@[simp] theorem State.bumpBy_line (s : State) (i j n : Nat) : (s.bumpBy i j n).line = s.line := rfl
@[simp] theorem State.bumpBy_intake (s : State) (i j n : Nat) : (s.bumpBy i j n).intake = s.intake := rfl
@[simp] theorem State.bumpBy_pkts (s : State) (i j n : Nat) : (s.bumpBy i j n).pkts = s.pkts := rfl
@[simp] theorem State.bumpBy_nextPid (s : State) (i j n : Nat) : (s.bumpBy i j n).nextPid = s.nextPid := rfl
@[simp] theorem State.bumpBy_egr (s : State) (i j n : Nat) : (s.bumpBy i j n).egr = s.egr := rfl
@[simp] theorem State.bumpBy_cat (s : State) (i j n : Nat) : (s.bumpBy i j n).cat = s.cat := rfl
@[simp] theorem State.bumpBy_tree (s : State) (i j n : Nat) : (s.bumpBy i j n).tree = s.tree := rfl
@[simp] theorem State.bumpBy_arr (s : State) (i j n : Nat) : (s.bumpBy i j n).arr = s.arr := rfl
@[simp] theorem State.bumpBy_sync (s : State) (i j n : Nat) : (s.bumpBy i j n).sync = s.sync := rfl
@[simp] theorem State.bumpBy_lib (s : State) (i j n : Nat) : (s.bumpBy i j n).lib = s.lib := rfl
@[simp] theorem State.bumpBy_fab (s : State) (i j n : Nat) : (s.bumpBy i j n).fab = s.fab := rfl
@[simp] theorem State.bumpBy_memc (s : State) (i j n : Nat) : (s.bumpBy i j n).memc = s.memc := rfl
@[simp] theorem State.bumpBy_rel (s : State) (i j n : Nat) : (s.bumpBy i j n).rel = s.rel := rfl
@[simp] theorem State.bumpBy_obs (s : State) (i j n : Nat) : (s.bumpBy i j n).obs = s.obs := rfl
@[simp] theorem State.bumpBy_trust (s : State) (i j n : Nat) : (s.bumpBy i j n).trust = s.trust := rfl
@[simp] theorem State.bumpBy_free (s : State) (i j n : Nat) : (s.bumpBy i j n).free = s.free := rfl
@[simp] theorem State.bumpBy_out (s : State) (i j n : Nat) : (s.bumpBy i j n).out = s.out := rfl
@[simp] theorem State.bumpBy_pending (s : State) (i j n : Nat) : (s.bumpBy i j n).pending = s.pending := rfl

/-! ## State.bump -/

@[simp] theorem State.bump_mfg (s : State) (i j : Nat) : (s.bump i j).mfg = s.mfg := rfl
@[simp] theorem State.bump_staged (s : State) (i j : Nat) : (s.bump i j).staged = s.staged := rfl
@[simp] theorem State.bump_pwr (s : State) (i j : Nat) : (s.bump i j).pwr = s.pwr := rfl
@[simp] theorem State.bump_dev (s : State) (i j : Nat) : (s.bump i j).dev = s.dev := rfl
@[simp] theorem State.bump_clock (s : State) (i j : Nat) : (s.bump i j).clock = s.clock := rfl
@[simp] theorem State.bump_mgmt (s : State) (i j : Nat) : (s.bump i j).mgmt = s.mgmt := rfl
@[simp] theorem State.bump_odp (s : State) (i j : Nat) : (s.bump i j).odp = s.odp := rfl
@[simp] theorem State.bump_flash (s : State) (i j : Nat) : (s.bump i j).flash = s.flash := rfl
@[simp] theorem State.bump_saving (s : State) (i j : Nat) : (s.bump i j).saving = s.saving := rfl
@[simp] theorem State.bump_mem (s : State) (i j : Nat) : (s.bump i j).mem = s.mem := rfl
@[simp] theorem State.bump_line (s : State) (i j : Nat) : (s.bump i j).line = s.line := rfl
@[simp] theorem State.bump_intake (s : State) (i j : Nat) : (s.bump i j).intake = s.intake := rfl
@[simp] theorem State.bump_pkts (s : State) (i j : Nat) : (s.bump i j).pkts = s.pkts := rfl
@[simp] theorem State.bump_nextPid (s : State) (i j : Nat) : (s.bump i j).nextPid = s.nextPid := rfl
@[simp] theorem State.bump_egr (s : State) (i j : Nat) : (s.bump i j).egr = s.egr := rfl
@[simp] theorem State.bump_cat (s : State) (i j : Nat) : (s.bump i j).cat = s.cat := rfl
@[simp] theorem State.bump_tree (s : State) (i j : Nat) : (s.bump i j).tree = s.tree := rfl
@[simp] theorem State.bump_arr (s : State) (i j : Nat) : (s.bump i j).arr = s.arr := rfl
@[simp] theorem State.bump_sync (s : State) (i j : Nat) : (s.bump i j).sync = s.sync := rfl
@[simp] theorem State.bump_lib (s : State) (i j : Nat) : (s.bump i j).lib = s.lib := rfl
@[simp] theorem State.bump_fab (s : State) (i j : Nat) : (s.bump i j).fab = s.fab := rfl
@[simp] theorem State.bump_memc (s : State) (i j : Nat) : (s.bump i j).memc = s.memc := rfl
@[simp] theorem State.bump_rel (s : State) (i j : Nat) : (s.bump i j).rel = s.rel := rfl
@[simp] theorem State.bump_obs (s : State) (i j : Nat) : (s.bump i j).obs = s.obs := rfl
@[simp] theorem State.bump_trust (s : State) (i j : Nat) : (s.bump i j).trust = s.trust := rfl
@[simp] theorem State.bump_free (s : State) (i j : Nat) : (s.bump i j).free = s.free := rfl
@[simp] theorem State.bump_out (s : State) (i j : Nat) : (s.bump i j).out = s.out := rfl
@[simp] theorem State.bump_pending (s : State) (i j : Nat) : (s.bump i j).pending = s.pending := rfl

/-! ## State.fresh -/

@[simp] theorem State.fresh_mfg (s : State) : (s.fresh.2).mfg = s.mfg := rfl
@[simp] theorem State.fresh_dict (s : State) : (s.fresh.2).dict = s.dict := rfl
@[simp] theorem State.fresh_staged (s : State) : (s.fresh.2).staged = s.staged := rfl
@[simp] theorem State.fresh_pwr (s : State) : (s.fresh.2).pwr = s.pwr := rfl
@[simp] theorem State.fresh_dev (s : State) : (s.fresh.2).dev = s.dev := rfl
@[simp] theorem State.fresh_clock (s : State) : (s.fresh.2).clock = s.clock := rfl
@[simp] theorem State.fresh_mgmt (s : State) : (s.fresh.2).mgmt = s.mgmt := rfl
@[simp] theorem State.fresh_odp (s : State) : (s.fresh.2).odp = s.odp := rfl
@[simp] theorem State.fresh_flash (s : State) : (s.fresh.2).flash = s.flash := rfl
@[simp] theorem State.fresh_saving (s : State) : (s.fresh.2).saving = s.saving := rfl
@[simp] theorem State.fresh_mem (s : State) : (s.fresh.2).mem = s.mem := rfl
@[simp] theorem State.fresh_line (s : State) : (s.fresh.2).line = s.line := rfl
@[simp] theorem State.fresh_intake (s : State) : (s.fresh.2).intake = s.intake := rfl
@[simp] theorem State.fresh_pkts (s : State) : (s.fresh.2).pkts = s.pkts := rfl
@[simp] theorem State.fresh_nextPid (s : State) : (s.fresh.2).nextPid = s.nextPid := rfl
@[simp] theorem State.fresh_egr (s : State) : (s.fresh.2).egr = s.egr := rfl
@[simp] theorem State.fresh_cat (s : State) : (s.fresh.2).cat = s.cat := rfl
@[simp] theorem State.fresh_tree (s : State) : (s.fresh.2).tree = s.tree := rfl
@[simp] theorem State.fresh_arr (s : State) : (s.fresh.2).arr = s.arr := rfl
@[simp] theorem State.fresh_sync (s : State) : (s.fresh.2).sync = s.sync := rfl
@[simp] theorem State.fresh_lib (s : State) : (s.fresh.2).lib = s.lib := rfl
@[simp] theorem State.fresh_fab (s : State) : (s.fresh.2).fab = s.fab := rfl
@[simp] theorem State.fresh_memc (s : State) : (s.fresh.2).memc = s.memc := rfl
@[simp] theorem State.fresh_rel (s : State) : (s.fresh.2).rel = s.rel := rfl
@[simp] theorem State.fresh_obs (s : State) : (s.fresh.2).obs = s.obs := rfl
@[simp] theorem State.fresh_trust (s : State) : (s.fresh.2).trust = s.trust := rfl
@[simp] theorem State.fresh_free (s : State) : (s.fresh.2).free = s.free + 1 := rfl
@[simp] theorem State.fresh_out (s : State) : (s.fresh.2).out = s.out := rfl
@[simp] theorem State.fresh_pending (s : State) : (s.fresh.2).pending = s.pending := rfl

/-! ## State.draw -/

@[simp] theorem State.draw_mfg (s : State) : (s.draw.2).mfg = s.mfg := rfl
@[simp] theorem State.draw_dict (s : State) : (s.draw.2).dict = s.dict := rfl
@[simp] theorem State.draw_staged (s : State) : (s.draw.2).staged = s.staged := rfl
@[simp] theorem State.draw_pwr (s : State) : (s.draw.2).pwr = s.pwr := rfl
@[simp] theorem State.draw_dev (s : State) : (s.draw.2).dev = s.dev := rfl
@[simp] theorem State.draw_clock (s : State) : (s.draw.2).clock = s.clock := rfl
@[simp] theorem State.draw_mgmt (s : State) : (s.draw.2).mgmt = s.mgmt := rfl
@[simp] theorem State.draw_odp (s : State) : (s.draw.2).odp = s.odp := rfl
@[simp] theorem State.draw_flash (s : State) : (s.draw.2).flash = s.flash := rfl
@[simp] theorem State.draw_saving (s : State) : (s.draw.2).saving = s.saving := rfl
@[simp] theorem State.draw_mem (s : State) : (s.draw.2).mem = s.mem := rfl
@[simp] theorem State.draw_line (s : State) : (s.draw.2).line = s.line := rfl
@[simp] theorem State.draw_intake (s : State) : (s.draw.2).intake = s.intake := rfl
@[simp] theorem State.draw_pkts (s : State) : (s.draw.2).pkts = s.pkts := rfl
@[simp] theorem State.draw_nextPid (s : State) : (s.draw.2).nextPid = s.nextPid := rfl
@[simp] theorem State.draw_egr (s : State) : (s.draw.2).egr = s.egr := rfl
@[simp] theorem State.draw_cat (s : State) : (s.draw.2).cat = s.cat := rfl
@[simp] theorem State.draw_tree (s : State) : (s.draw.2).tree = s.tree := rfl
@[simp] theorem State.draw_arr (s : State) : (s.draw.2).arr = s.arr := rfl
@[simp] theorem State.draw_sync (s : State) : (s.draw.2).sync = s.sync := rfl
@[simp] theorem State.draw_lib (s : State) : (s.draw.2).lib = s.lib := rfl
@[simp] theorem State.draw_fab (s : State) : (s.draw.2).fab = s.fab := rfl
@[simp] theorem State.draw_memc (s : State) : (s.draw.2).memc = s.memc := rfl
@[simp] theorem State.draw_rel (s : State) : (s.draw.2).rel = s.rel := rfl
@[simp] theorem State.draw_obs (s : State) : (s.draw.2).obs = s.obs := rfl
@[simp] theorem State.draw_trust (s : State) : (s.draw.2).trust = s.trust := rfl
@[simp] theorem State.draw_free (s : State) : (s.draw.2).free = s.free + 1 := rfl
@[simp] theorem State.draw_out (s : State) : (s.draw.2).out = s.out := rfl
@[simp] theorem State.draw_pending (s : State) : (s.draw.2).pending = s.pending := rfl

/-! ## State.countRead -/

@[simp] theorem State.countRead_mfg (s : State) (x n : Nat) : (s.countRead x n).mfg = s.mfg := rfl
@[simp] theorem State.countRead_dict (s : State) (x n : Nat) : (s.countRead x n).dict = s.dict := rfl
@[simp] theorem State.countRead_staged (s : State) (x n : Nat) : (s.countRead x n).staged = s.staged := rfl
@[simp] theorem State.countRead_pwr (s : State) (x n : Nat) : (s.countRead x n).pwr = s.pwr := rfl
@[simp] theorem State.countRead_dev (s : State) (x n : Nat) : (s.countRead x n).dev = s.dev := rfl
@[simp] theorem State.countRead_clock (s : State) (x n : Nat) : (s.countRead x n).clock = s.clock := rfl
@[simp] theorem State.countRead_mgmt (s : State) (x n : Nat) : (s.countRead x n).mgmt = s.mgmt := rfl
@[simp] theorem State.countRead_odp (s : State) (x n : Nat) : (s.countRead x n).odp = s.odp := rfl
@[simp] theorem State.countRead_flash (s : State) (x n : Nat) : (s.countRead x n).flash = s.flash := rfl
@[simp] theorem State.countRead_saving (s : State) (x n : Nat) : (s.countRead x n).saving = s.saving := rfl
@[simp] theorem State.countRead_mem (s : State) (x n : Nat) : (s.countRead x n).mem = s.mem := rfl
@[simp] theorem State.countRead_line (s : State) (x n : Nat) : (s.countRead x n).line = s.line := rfl
@[simp] theorem State.countRead_intake (s : State) (x n : Nat) : (s.countRead x n).intake = s.intake := rfl
@[simp] theorem State.countRead_pkts (s : State) (x n : Nat) : (s.countRead x n).pkts = s.pkts := rfl
@[simp] theorem State.countRead_nextPid (s : State) (x n : Nat) : (s.countRead x n).nextPid = s.nextPid := rfl
@[simp] theorem State.countRead_egr (s : State) (x n : Nat) : (s.countRead x n).egr = s.egr := rfl
@[simp] theorem State.countRead_cat (s : State) (x n : Nat) : (s.countRead x n).cat = s.cat := rfl
@[simp] theorem State.countRead_tree (s : State) (x n : Nat) : (s.countRead x n).tree = s.tree := rfl
@[simp] theorem State.countRead_arr (s : State) (x n : Nat) : (s.countRead x n).arr = s.arr := rfl
@[simp] theorem State.countRead_sync (s : State) (x n : Nat) : (s.countRead x n).sync = s.sync := rfl
@[simp] theorem State.countRead_lib (s : State) (x n : Nat) : (s.countRead x n).lib = s.lib := rfl
@[simp] theorem State.countRead_fab (s : State) (x n : Nat) : (s.countRead x n).fab = s.fab := rfl
@[simp] theorem State.countRead_rel (s : State) (x n : Nat) : (s.countRead x n).rel = s.rel := rfl
@[simp] theorem State.countRead_obs (s : State) (x n : Nat) : (s.countRead x n).obs = s.obs := rfl
@[simp] theorem State.countRead_trust (s : State) (x n : Nat) : (s.countRead x n).trust = s.trust := rfl
@[simp] theorem State.countRead_free (s : State) (x n : Nat) : (s.countRead x n).free = s.free := rfl
@[simp] theorem State.countRead_out (s : State) (x n : Nat) : (s.countRead x n).out = s.out := rfl
@[simp] theorem State.countRead_pending (s : State) (x n : Nat) : (s.countRead x n).pending = s.pending := rfl

/-! ## State.memWrite -/

@[simp] theorem State.memWrite_mfg (s : State) (x : Nat) (b : Bytes) : (s.memWrite x b).mfg = s.mfg := rfl
@[simp] theorem State.memWrite_dict (s : State) (x : Nat) (b : Bytes) : (s.memWrite x b).dict = s.dict := rfl
@[simp] theorem State.memWrite_staged (s : State) (x : Nat) (b : Bytes) : (s.memWrite x b).staged = s.staged := rfl
@[simp] theorem State.memWrite_pwr (s : State) (x : Nat) (b : Bytes) : (s.memWrite x b).pwr = s.pwr := rfl
@[simp] theorem State.memWrite_dev (s : State) (x : Nat) (b : Bytes) : (s.memWrite x b).dev = s.dev := rfl
@[simp] theorem State.memWrite_clock (s : State) (x : Nat) (b : Bytes) : (s.memWrite x b).clock = s.clock := rfl
@[simp] theorem State.memWrite_mgmt (s : State) (x : Nat) (b : Bytes) : (s.memWrite x b).mgmt = s.mgmt := rfl
@[simp] theorem State.memWrite_odp (s : State) (x : Nat) (b : Bytes) : (s.memWrite x b).odp = s.odp := rfl
@[simp] theorem State.memWrite_flash (s : State) (x : Nat) (b : Bytes) : (s.memWrite x b).flash = s.flash := rfl
@[simp] theorem State.memWrite_saving (s : State) (x : Nat) (b : Bytes) : (s.memWrite x b).saving = s.saving := rfl
@[simp] theorem State.memWrite_mem (s : State) (x : Nat) (b : Bytes) : (s.memWrite x b).mem = Sparse.writeList s.memDef s.mem x b := rfl
@[simp] theorem State.memWrite_line (s : State) (x : Nat) (b : Bytes) : (s.memWrite x b).line = s.line := rfl
@[simp] theorem State.memWrite_intake (s : State) (x : Nat) (b : Bytes) : (s.memWrite x b).intake = s.intake := rfl
@[simp] theorem State.memWrite_pkts (s : State) (x : Nat) (b : Bytes) : (s.memWrite x b).pkts = s.pkts := rfl
@[simp] theorem State.memWrite_nextPid (s : State) (x : Nat) (b : Bytes) : (s.memWrite x b).nextPid = s.nextPid := rfl
@[simp] theorem State.memWrite_egr (s : State) (x : Nat) (b : Bytes) : (s.memWrite x b).egr = s.egr := rfl
@[simp] theorem State.memWrite_cat (s : State) (x : Nat) (b : Bytes) : (s.memWrite x b).cat = s.cat := rfl
@[simp] theorem State.memWrite_tree (s : State) (x : Nat) (b : Bytes) : (s.memWrite x b).tree = s.tree := rfl
@[simp] theorem State.memWrite_arr (s : State) (x : Nat) (b : Bytes) : (s.memWrite x b).arr = s.arr := rfl
@[simp] theorem State.memWrite_sync (s : State) (x : Nat) (b : Bytes) : (s.memWrite x b).sync = s.sync := rfl
@[simp] theorem State.memWrite_lib (s : State) (x : Nat) (b : Bytes) : (s.memWrite x b).lib = s.lib := rfl
@[simp] theorem State.memWrite_fab (s : State) (x : Nat) (b : Bytes) : (s.memWrite x b).fab = s.fab := rfl
@[simp] theorem State.memWrite_rel (s : State) (x : Nat) (b : Bytes) : (s.memWrite x b).rel = s.rel := rfl
@[simp] theorem State.memWrite_obs (s : State) (x : Nat) (b : Bytes) : (s.memWrite x b).obs = s.obs := rfl
@[simp] theorem State.memWrite_trust (s : State) (x : Nat) (b : Bytes) : (s.memWrite x b).trust = s.trust := rfl
@[simp] theorem State.memWrite_free (s : State) (x : Nat) (b : Bytes) : (s.memWrite x b).free = s.free := rfl
@[simp] theorem State.memWrite_out (s : State) (x : Nat) (b : Bytes) : (s.memWrite x b).out = s.out := rfl
@[simp] theorem State.memWrite_pending (s : State) (x : Nat) (b : Bytes) : (s.memWrite x b).pending = s.pending := rfl

/-! ## State.memFill -/

@[simp] theorem State.memFill_mfg (s : State) (x n : Nat) (o : Option Nat) : (s.memFill x n o).mfg = s.mfg := rfl
@[simp] theorem State.memFill_dict (s : State) (x n : Nat) (o : Option Nat) : (s.memFill x n o).dict = s.dict := rfl
@[simp] theorem State.memFill_staged (s : State) (x n : Nat) (o : Option Nat) : (s.memFill x n o).staged = s.staged := rfl
@[simp] theorem State.memFill_pwr (s : State) (x n : Nat) (o : Option Nat) : (s.memFill x n o).pwr = s.pwr := rfl
@[simp] theorem State.memFill_dev (s : State) (x n : Nat) (o : Option Nat) : (s.memFill x n o).dev = s.dev := rfl
@[simp] theorem State.memFill_clock (s : State) (x n : Nat) (o : Option Nat) : (s.memFill x n o).clock = s.clock := rfl
@[simp] theorem State.memFill_mgmt (s : State) (x n : Nat) (o : Option Nat) : (s.memFill x n o).mgmt = s.mgmt := rfl
@[simp] theorem State.memFill_odp (s : State) (x n : Nat) (o : Option Nat) : (s.memFill x n o).odp = s.odp := rfl
@[simp] theorem State.memFill_flash (s : State) (x n : Nat) (o : Option Nat) : (s.memFill x n o).flash = s.flash := rfl
@[simp] theorem State.memFill_saving (s : State) (x n : Nat) (o : Option Nat) : (s.memFill x n o).saving = s.saving := rfl
@[simp] theorem State.memFill_mem (s : State) (x n : Nat) (o : Option Nat) : (s.memFill x n o).mem = Sparse.clear s.mem x n := rfl
@[simp] theorem State.memFill_line (s : State) (x n : Nat) (o : Option Nat) : (s.memFill x n o).line = s.line := rfl
@[simp] theorem State.memFill_intake (s : State) (x n : Nat) (o : Option Nat) : (s.memFill x n o).intake = s.intake := rfl
@[simp] theorem State.memFill_pkts (s : State) (x n : Nat) (o : Option Nat) : (s.memFill x n o).pkts = s.pkts := rfl
@[simp] theorem State.memFill_nextPid (s : State) (x n : Nat) (o : Option Nat) : (s.memFill x n o).nextPid = s.nextPid := rfl
@[simp] theorem State.memFill_egr (s : State) (x n : Nat) (o : Option Nat) : (s.memFill x n o).egr = s.egr := rfl
@[simp] theorem State.memFill_cat (s : State) (x n : Nat) (o : Option Nat) : (s.memFill x n o).cat = s.cat := rfl
@[simp] theorem State.memFill_tree (s : State) (x n : Nat) (o : Option Nat) : (s.memFill x n o).tree = s.tree := rfl
@[simp] theorem State.memFill_arr (s : State) (x n : Nat) (o : Option Nat) : (s.memFill x n o).arr = s.arr := rfl
@[simp] theorem State.memFill_sync (s : State) (x n : Nat) (o : Option Nat) : (s.memFill x n o).sync = s.sync := rfl
@[simp] theorem State.memFill_lib (s : State) (x n : Nat) (o : Option Nat) : (s.memFill x n o).lib = s.lib := rfl
@[simp] theorem State.memFill_fab (s : State) (x n : Nat) (o : Option Nat) : (s.memFill x n o).fab = s.fab := rfl
@[simp] theorem State.memFill_rel (s : State) (x n : Nat) (o : Option Nat) : (s.memFill x n o).rel = s.rel := rfl
@[simp] theorem State.memFill_obs (s : State) (x n : Nat) (o : Option Nat) : (s.memFill x n o).obs = s.obs := rfl
@[simp] theorem State.memFill_trust (s : State) (x n : Nat) (o : Option Nat) : (s.memFill x n o).trust = s.trust := rfl
@[simp] theorem State.memFill_free (s : State) (x n : Nat) (o : Option Nat) : (s.memFill x n o).free = s.free := rfl
@[simp] theorem State.memFill_out (s : State) (x n : Nat) (o : Option Nat) : (s.memFill x n o).out = s.out := rfl
@[simp] theorem State.memFill_pending (s : State) (x n : Nat) (o : Option Nat) : (s.memFill x n o).pending = s.pending := rfl

/-! ## State.emit -/

@[simp] theorem State.emit_mfg (s : State) (e : Emission) : (s.emit e).mfg = s.mfg := rfl
@[simp] theorem State.emit_dict (s : State) (e : Emission) : (s.emit e).dict = s.dict := rfl
@[simp] theorem State.emit_staged (s : State) (e : Emission) : (s.emit e).staged = s.staged := rfl
@[simp] theorem State.emit_pwr (s : State) (e : Emission) : (s.emit e).pwr = s.pwr := rfl
@[simp] theorem State.emit_dev (s : State) (e : Emission) : (s.emit e).dev = s.dev := rfl
@[simp] theorem State.emit_clock (s : State) (e : Emission) : (s.emit e).clock = s.clock := rfl
@[simp] theorem State.emit_mgmt (s : State) (e : Emission) : (s.emit e).mgmt = s.mgmt := rfl
@[simp] theorem State.emit_odp (s : State) (e : Emission) : (s.emit e).odp = s.odp := rfl
@[simp] theorem State.emit_flash (s : State) (e : Emission) : (s.emit e).flash = s.flash := rfl
@[simp] theorem State.emit_saving (s : State) (e : Emission) : (s.emit e).saving = s.saving := rfl
@[simp] theorem State.emit_mem (s : State) (e : Emission) : (s.emit e).mem = s.mem := rfl
@[simp] theorem State.emit_line (s : State) (e : Emission) : (s.emit e).line = s.line := rfl
@[simp] theorem State.emit_intake (s : State) (e : Emission) : (s.emit e).intake = s.intake := rfl
@[simp] theorem State.emit_pkts (s : State) (e : Emission) : (s.emit e).pkts = s.pkts := rfl
@[simp] theorem State.emit_nextPid (s : State) (e : Emission) : (s.emit e).nextPid = s.nextPid := rfl
@[simp] theorem State.emit_egr (s : State) (e : Emission) : (s.emit e).egr = s.egr := rfl
@[simp] theorem State.emit_cat (s : State) (e : Emission) : (s.emit e).cat = s.cat := rfl
@[simp] theorem State.emit_tree (s : State) (e : Emission) : (s.emit e).tree = s.tree := rfl
@[simp] theorem State.emit_arr (s : State) (e : Emission) : (s.emit e).arr = s.arr := rfl
@[simp] theorem State.emit_sync (s : State) (e : Emission) : (s.emit e).sync = s.sync := rfl
@[simp] theorem State.emit_lib (s : State) (e : Emission) : (s.emit e).lib = s.lib := rfl
@[simp] theorem State.emit_fab (s : State) (e : Emission) : (s.emit e).fab = s.fab := rfl
@[simp] theorem State.emit_memc (s : State) (e : Emission) : (s.emit e).memc = s.memc := rfl
@[simp] theorem State.emit_rel (s : State) (e : Emission) : (s.emit e).rel = s.rel := rfl
@[simp] theorem State.emit_obs (s : State) (e : Emission) : (s.emit e).obs = s.obs := rfl
@[simp] theorem State.emit_trust (s : State) (e : Emission) : (s.emit e).trust = s.trust := rfl
@[simp] theorem State.emit_free (s : State) (e : Emission) : (s.emit e).free = s.free := rfl
@[simp] theorem State.emit_out (s : State) (e : Emission) : (s.emit e).out = e :: s.out := rfl
@[simp] theorem State.emit_pending (s : State) (e : Emission) : (s.emit e).pending = s.pending := rfl

/-! ## State.modArr -/

@[simp] theorem State.modArr_mfg (s : State) (a : Nat) (f : Arr → Arr) : (s.modArr a f).mfg = s.mfg := rfl
@[simp] theorem State.modArr_dict (s : State) (a : Nat) (f : Arr → Arr) : (s.modArr a f).dict = s.dict := rfl
@[simp] theorem State.modArr_staged (s : State) (a : Nat) (f : Arr → Arr) : (s.modArr a f).staged = s.staged := rfl
@[simp] theorem State.modArr_pwr (s : State) (a : Nat) (f : Arr → Arr) : (s.modArr a f).pwr = s.pwr := rfl
@[simp] theorem State.modArr_dev (s : State) (a : Nat) (f : Arr → Arr) : (s.modArr a f).dev = s.dev := rfl
@[simp] theorem State.modArr_clock (s : State) (a : Nat) (f : Arr → Arr) : (s.modArr a f).clock = s.clock := rfl
@[simp] theorem State.modArr_mgmt (s : State) (a : Nat) (f : Arr → Arr) : (s.modArr a f).mgmt = s.mgmt := rfl
@[simp] theorem State.modArr_odp (s : State) (a : Nat) (f : Arr → Arr) : (s.modArr a f).odp = s.odp := rfl
@[simp] theorem State.modArr_flash (s : State) (a : Nat) (f : Arr → Arr) : (s.modArr a f).flash = s.flash := rfl
@[simp] theorem State.modArr_saving (s : State) (a : Nat) (f : Arr → Arr) : (s.modArr a f).saving = s.saving := rfl
@[simp] theorem State.modArr_mem (s : State) (a : Nat) (f : Arr → Arr) : (s.modArr a f).mem = s.mem := rfl
@[simp] theorem State.modArr_line (s : State) (a : Nat) (f : Arr → Arr) : (s.modArr a f).line = s.line := rfl
@[simp] theorem State.modArr_intake (s : State) (a : Nat) (f : Arr → Arr) : (s.modArr a f).intake = s.intake := rfl
@[simp] theorem State.modArr_pkts (s : State) (a : Nat) (f : Arr → Arr) : (s.modArr a f).pkts = s.pkts := rfl
@[simp] theorem State.modArr_nextPid (s : State) (a : Nat) (f : Arr → Arr) : (s.modArr a f).nextPid = s.nextPid := rfl
@[simp] theorem State.modArr_egr (s : State) (a : Nat) (f : Arr → Arr) : (s.modArr a f).egr = s.egr := rfl
@[simp] theorem State.modArr_cat (s : State) (a : Nat) (f : Arr → Arr) : (s.modArr a f).cat = s.cat := rfl
@[simp] theorem State.modArr_tree (s : State) (a : Nat) (f : Arr → Arr) : (s.modArr a f).tree = s.tree := rfl
@[simp] theorem State.modArr_arr (s : State) (a : Nat) (f : Arr → Arr) : (s.modArr a f).arr = s.arr.mapIdx fun i x => if i = a then f x else x := rfl
@[simp] theorem State.modArr_sync (s : State) (a : Nat) (f : Arr → Arr) : (s.modArr a f).sync = s.sync := rfl
@[simp] theorem State.modArr_lib (s : State) (a : Nat) (f : Arr → Arr) : (s.modArr a f).lib = s.lib := rfl
@[simp] theorem State.modArr_fab (s : State) (a : Nat) (f : Arr → Arr) : (s.modArr a f).fab = s.fab := rfl
@[simp] theorem State.modArr_memc (s : State) (a : Nat) (f : Arr → Arr) : (s.modArr a f).memc = s.memc := rfl
@[simp] theorem State.modArr_rel (s : State) (a : Nat) (f : Arr → Arr) : (s.modArr a f).rel = s.rel := rfl
@[simp] theorem State.modArr_obs (s : State) (a : Nat) (f : Arr → Arr) : (s.modArr a f).obs = s.obs := rfl
@[simp] theorem State.modArr_trust (s : State) (a : Nat) (f : Arr → Arr) : (s.modArr a f).trust = s.trust := rfl
@[simp] theorem State.modArr_free (s : State) (a : Nat) (f : Arr → Arr) : (s.modArr a f).free = s.free := rfl
@[simp] theorem State.modArr_out (s : State) (a : Nat) (f : Arr → Arr) : (s.modArr a f).out = s.out := rfl
@[simp] theorem State.modArr_pending (s : State) (a : Nat) (f : Arr → Arr) : (s.modArr a f).pending = s.pending := rfl

/-! ## State.wingsWrite -/

@[simp] theorem State.wingsWrite_mfg (s : State) (a x : Nat) (b : Bytes) : (s.wingsWrite a x b).mfg = s.mfg := rfl
@[simp] theorem State.wingsWrite_dict (s : State) (a x : Nat) (b : Bytes) : (s.wingsWrite a x b).dict = s.dict := rfl
@[simp] theorem State.wingsWrite_staged (s : State) (a x : Nat) (b : Bytes) : (s.wingsWrite a x b).staged = s.staged := rfl
@[simp] theorem State.wingsWrite_pwr (s : State) (a x : Nat) (b : Bytes) : (s.wingsWrite a x b).pwr = s.pwr := rfl
@[simp] theorem State.wingsWrite_dev (s : State) (a x : Nat) (b : Bytes) : (s.wingsWrite a x b).dev = s.dev := rfl
@[simp] theorem State.wingsWrite_clock (s : State) (a x : Nat) (b : Bytes) : (s.wingsWrite a x b).clock = s.clock := rfl
@[simp] theorem State.wingsWrite_mgmt (s : State) (a x : Nat) (b : Bytes) : (s.wingsWrite a x b).mgmt = s.mgmt := rfl
@[simp] theorem State.wingsWrite_odp (s : State) (a x : Nat) (b : Bytes) : (s.wingsWrite a x b).odp = s.odp := rfl
@[simp] theorem State.wingsWrite_flash (s : State) (a x : Nat) (b : Bytes) : (s.wingsWrite a x b).flash = s.flash := rfl
@[simp] theorem State.wingsWrite_saving (s : State) (a x : Nat) (b : Bytes) : (s.wingsWrite a x b).saving = s.saving := rfl
@[simp] theorem State.wingsWrite_mem (s : State) (a x : Nat) (b : Bytes) : (s.wingsWrite a x b).mem = s.mem := rfl
@[simp] theorem State.wingsWrite_line (s : State) (a x : Nat) (b : Bytes) : (s.wingsWrite a x b).line = s.line := rfl
@[simp] theorem State.wingsWrite_intake (s : State) (a x : Nat) (b : Bytes) : (s.wingsWrite a x b).intake = s.intake := rfl
@[simp] theorem State.wingsWrite_pkts (s : State) (a x : Nat) (b : Bytes) : (s.wingsWrite a x b).pkts = s.pkts := rfl
@[simp] theorem State.wingsWrite_nextPid (s : State) (a x : Nat) (b : Bytes) : (s.wingsWrite a x b).nextPid = s.nextPid := rfl
@[simp] theorem State.wingsWrite_egr (s : State) (a x : Nat) (b : Bytes) : (s.wingsWrite a x b).egr = s.egr := rfl
@[simp] theorem State.wingsWrite_cat (s : State) (a x : Nat) (b : Bytes) : (s.wingsWrite a x b).cat = s.cat := rfl
@[simp] theorem State.wingsWrite_tree (s : State) (a x : Nat) (b : Bytes) : (s.wingsWrite a x b).tree = s.tree := rfl
@[simp] theorem State.wingsWrite_sync (s : State) (a x : Nat) (b : Bytes) : (s.wingsWrite a x b).sync = s.sync := rfl
@[simp] theorem State.wingsWrite_lib (s : State) (a x : Nat) (b : Bytes) : (s.wingsWrite a x b).lib = s.lib := rfl
@[simp] theorem State.wingsWrite_fab (s : State) (a x : Nat) (b : Bytes) : (s.wingsWrite a x b).fab = s.fab := rfl
@[simp] theorem State.wingsWrite_memc (s : State) (a x : Nat) (b : Bytes) : (s.wingsWrite a x b).memc = s.memc := rfl
@[simp] theorem State.wingsWrite_rel (s : State) (a x : Nat) (b : Bytes) : (s.wingsWrite a x b).rel = s.rel := rfl
@[simp] theorem State.wingsWrite_obs (s : State) (a x : Nat) (b : Bytes) : (s.wingsWrite a x b).obs = s.obs := rfl
@[simp] theorem State.wingsWrite_trust (s : State) (a x : Nat) (b : Bytes) : (s.wingsWrite a x b).trust = s.trust := rfl
@[simp] theorem State.wingsWrite_free (s : State) (a x : Nat) (b : Bytes) : (s.wingsWrite a x b).free = s.free := rfl
@[simp] theorem State.wingsWrite_out (s : State) (a x : Nat) (b : Bytes) : (s.wingsWrite a x b).out = s.out := rfl
@[simp] theorem State.wingsWrite_pending (s : State) (a x : Nat) (b : Bytes) : (s.wingsWrite a x b).pending = s.pending := rfl

/-! ## State.setTag -/

@[simp] theorem State.setTag_mfg (s : State) (a l t : Nat) : (s.setTag a l t).mfg = s.mfg := rfl
@[simp] theorem State.setTag_dict (s : State) (a l t : Nat) : (s.setTag a l t).dict = s.dict := rfl
@[simp] theorem State.setTag_staged (s : State) (a l t : Nat) : (s.setTag a l t).staged = s.staged := rfl
@[simp] theorem State.setTag_pwr (s : State) (a l t : Nat) : (s.setTag a l t).pwr = s.pwr := rfl
@[simp] theorem State.setTag_dev (s : State) (a l t : Nat) : (s.setTag a l t).dev = s.dev := rfl
@[simp] theorem State.setTag_clock (s : State) (a l t : Nat) : (s.setTag a l t).clock = s.clock := rfl
@[simp] theorem State.setTag_mgmt (s : State) (a l t : Nat) : (s.setTag a l t).mgmt = s.mgmt := rfl
@[simp] theorem State.setTag_odp (s : State) (a l t : Nat) : (s.setTag a l t).odp = s.odp := rfl
@[simp] theorem State.setTag_flash (s : State) (a l t : Nat) : (s.setTag a l t).flash = s.flash := rfl
@[simp] theorem State.setTag_saving (s : State) (a l t : Nat) : (s.setTag a l t).saving = s.saving := rfl
@[simp] theorem State.setTag_mem (s : State) (a l t : Nat) : (s.setTag a l t).mem = s.mem := rfl
@[simp] theorem State.setTag_line (s : State) (a l t : Nat) : (s.setTag a l t).line = s.line := rfl
@[simp] theorem State.setTag_intake (s : State) (a l t : Nat) : (s.setTag a l t).intake = s.intake := rfl
@[simp] theorem State.setTag_pkts (s : State) (a l t : Nat) : (s.setTag a l t).pkts = s.pkts := rfl
@[simp] theorem State.setTag_nextPid (s : State) (a l t : Nat) : (s.setTag a l t).nextPid = s.nextPid := rfl
@[simp] theorem State.setTag_egr (s : State) (a l t : Nat) : (s.setTag a l t).egr = s.egr := rfl
@[simp] theorem State.setTag_cat (s : State) (a l t : Nat) : (s.setTag a l t).cat = s.cat := rfl
@[simp] theorem State.setTag_tree (s : State) (a l t : Nat) : (s.setTag a l t).tree = s.tree := rfl
@[simp] theorem State.setTag_sync (s : State) (a l t : Nat) : (s.setTag a l t).sync = s.sync := rfl
@[simp] theorem State.setTag_lib (s : State) (a l t : Nat) : (s.setTag a l t).lib = s.lib := rfl
@[simp] theorem State.setTag_fab (s : State) (a l t : Nat) : (s.setTag a l t).fab = s.fab := rfl
@[simp] theorem State.setTag_memc (s : State) (a l t : Nat) : (s.setTag a l t).memc = s.memc := rfl
@[simp] theorem State.setTag_rel (s : State) (a l t : Nat) : (s.setTag a l t).rel = s.rel := rfl
@[simp] theorem State.setTag_obs (s : State) (a l t : Nat) : (s.setTag a l t).obs = s.obs := rfl
@[simp] theorem State.setTag_trust (s : State) (a l t : Nat) : (s.setTag a l t).trust = s.trust := rfl
@[simp] theorem State.setTag_free (s : State) (a l t : Nat) : (s.setTag a l t).free = s.free := rfl
@[simp] theorem State.setTag_out (s : State) (a l t : Nat) : (s.setTag a l t).out = s.out := rfl
@[simp] theorem State.setTag_pending (s : State) (a l t : Nat) : (s.setTag a l t).pending = s.pending := rfl

/-! ## State.setChanRec -/

@[simp] theorem State.setChanRec_mfg (s : State) (a i : Nat) (r : Rec) : (s.setChanRec a i r).mfg = s.mfg := rfl
@[simp] theorem State.setChanRec_dict (s : State) (a i : Nat) (r : Rec) : (s.setChanRec a i r).dict = s.dict := rfl
@[simp] theorem State.setChanRec_staged (s : State) (a i : Nat) (r : Rec) : (s.setChanRec a i r).staged = s.staged := rfl
@[simp] theorem State.setChanRec_pwr (s : State) (a i : Nat) (r : Rec) : (s.setChanRec a i r).pwr = s.pwr := rfl
@[simp] theorem State.setChanRec_dev (s : State) (a i : Nat) (r : Rec) : (s.setChanRec a i r).dev = s.dev := rfl
@[simp] theorem State.setChanRec_clock (s : State) (a i : Nat) (r : Rec) : (s.setChanRec a i r).clock = s.clock := rfl
@[simp] theorem State.setChanRec_mgmt (s : State) (a i : Nat) (r : Rec) : (s.setChanRec a i r).mgmt = s.mgmt := rfl
@[simp] theorem State.setChanRec_odp (s : State) (a i : Nat) (r : Rec) : (s.setChanRec a i r).odp = s.odp := rfl
@[simp] theorem State.setChanRec_flash (s : State) (a i : Nat) (r : Rec) : (s.setChanRec a i r).flash = s.flash := rfl
@[simp] theorem State.setChanRec_saving (s : State) (a i : Nat) (r : Rec) : (s.setChanRec a i r).saving = s.saving := rfl
@[simp] theorem State.setChanRec_mem (s : State) (a i : Nat) (r : Rec) : (s.setChanRec a i r).mem = s.mem := rfl
@[simp] theorem State.setChanRec_line (s : State) (a i : Nat) (r : Rec) : (s.setChanRec a i r).line = s.line := rfl
@[simp] theorem State.setChanRec_intake (s : State) (a i : Nat) (r : Rec) : (s.setChanRec a i r).intake = s.intake := rfl
@[simp] theorem State.setChanRec_pkts (s : State) (a i : Nat) (r : Rec) : (s.setChanRec a i r).pkts = s.pkts := rfl
@[simp] theorem State.setChanRec_nextPid (s : State) (a i : Nat) (r : Rec) : (s.setChanRec a i r).nextPid = s.nextPid := rfl
@[simp] theorem State.setChanRec_egr (s : State) (a i : Nat) (r : Rec) : (s.setChanRec a i r).egr = s.egr := rfl
@[simp] theorem State.setChanRec_cat (s : State) (a i : Nat) (r : Rec) : (s.setChanRec a i r).cat = s.cat := rfl
@[simp] theorem State.setChanRec_tree (s : State) (a i : Nat) (r : Rec) : (s.setChanRec a i r).tree = s.tree := rfl
@[simp] theorem State.setChanRec_sync (s : State) (a i : Nat) (r : Rec) : (s.setChanRec a i r).sync = s.sync := rfl
@[simp] theorem State.setChanRec_lib (s : State) (a i : Nat) (r : Rec) : (s.setChanRec a i r).lib = s.lib := rfl
@[simp] theorem State.setChanRec_fab (s : State) (a i : Nat) (r : Rec) : (s.setChanRec a i r).fab = s.fab := rfl
@[simp] theorem State.setChanRec_memc (s : State) (a i : Nat) (r : Rec) : (s.setChanRec a i r).memc = s.memc := rfl
@[simp] theorem State.setChanRec_rel (s : State) (a i : Nat) (r : Rec) : (s.setChanRec a i r).rel = s.rel := rfl
@[simp] theorem State.setChanRec_obs (s : State) (a i : Nat) (r : Rec) : (s.setChanRec a i r).obs = s.obs := rfl
@[simp] theorem State.setChanRec_trust (s : State) (a i : Nat) (r : Rec) : (s.setChanRec a i r).trust = s.trust := rfl
@[simp] theorem State.setChanRec_free (s : State) (a i : Nat) (r : Rec) : (s.setChanRec a i r).free = s.free := rfl
@[simp] theorem State.setChanRec_out (s : State) (a i : Nat) (r : Rec) : (s.setChanRec a i r).out = s.out := rfl
@[simp] theorem State.setChanRec_pending (s : State) (a i : Nat) (r : Rec) : (s.setChanRec a i r).pending = s.pending := rfl

/-! ## State.setTap -/

@[simp] theorem State.setTap_mfg (s : State) (d : Nat) (x : Tap) : (s.setTap d x).mfg = s.mfg := rfl
@[simp] theorem State.setTap_dict (s : State) (d : Nat) (x : Tap) : (s.setTap d x).dict = s.dict := rfl
@[simp] theorem State.setTap_staged (s : State) (d : Nat) (x : Tap) : (s.setTap d x).staged = s.staged := rfl
@[simp] theorem State.setTap_pwr (s : State) (d : Nat) (x : Tap) : (s.setTap d x).pwr = s.pwr := rfl
@[simp] theorem State.setTap_dev (s : State) (d : Nat) (x : Tap) : (s.setTap d x).dev = s.dev := rfl
@[simp] theorem State.setTap_clock (s : State) (d : Nat) (x : Tap) : (s.setTap d x).clock = s.clock := rfl
@[simp] theorem State.setTap_mgmt (s : State) (d : Nat) (x : Tap) : (s.setTap d x).mgmt = s.mgmt := rfl
@[simp] theorem State.setTap_odp (s : State) (d : Nat) (x : Tap) : (s.setTap d x).odp = s.odp := rfl
@[simp] theorem State.setTap_flash (s : State) (d : Nat) (x : Tap) : (s.setTap d x).flash = s.flash := rfl
@[simp] theorem State.setTap_saving (s : State) (d : Nat) (x : Tap) : (s.setTap d x).saving = s.saving := rfl
@[simp] theorem State.setTap_mem (s : State) (d : Nat) (x : Tap) : (s.setTap d x).mem = s.mem := rfl
@[simp] theorem State.setTap_line (s : State) (d : Nat) (x : Tap) : (s.setTap d x).line = s.line := rfl
@[simp] theorem State.setTap_intake (s : State) (d : Nat) (x : Tap) : (s.setTap d x).intake = s.intake := rfl
@[simp] theorem State.setTap_pkts (s : State) (d : Nat) (x : Tap) : (s.setTap d x).pkts = s.pkts := rfl
@[simp] theorem State.setTap_nextPid (s : State) (d : Nat) (x : Tap) : (s.setTap d x).nextPid = s.nextPid := rfl
@[simp] theorem State.setTap_egr (s : State) (d : Nat) (x : Tap) : (s.setTap d x).egr = s.egr := rfl
@[simp] theorem State.setTap_cat (s : State) (d : Nat) (x : Tap) : (s.setTap d x).cat = s.cat := rfl
@[simp] theorem State.setTap_tree (s : State) (d : Nat) (x : Tap) : (s.setTap d x).tree = s.tree := rfl
@[simp] theorem State.setTap_arr (s : State) (d : Nat) (x : Tap) : (s.setTap d x).arr = s.arr := rfl
@[simp] theorem State.setTap_lib (s : State) (d : Nat) (x : Tap) : (s.setTap d x).lib = s.lib := rfl
@[simp] theorem State.setTap_fab (s : State) (d : Nat) (x : Tap) : (s.setTap d x).fab = s.fab := rfl
@[simp] theorem State.setTap_memc (s : State) (d : Nat) (x : Tap) : (s.setTap d x).memc = s.memc := rfl
@[simp] theorem State.setTap_rel (s : State) (d : Nat) (x : Tap) : (s.setTap d x).rel = s.rel := rfl
@[simp] theorem State.setTap_obs (s : State) (d : Nat) (x : Tap) : (s.setTap d x).obs = s.obs := rfl
@[simp] theorem State.setTap_trust (s : State) (d : Nat) (x : Tap) : (s.setTap d x).trust = s.trust := rfl
@[simp] theorem State.setTap_free (s : State) (d : Nat) (x : Tap) : (s.setTap d x).free = s.free := rfl
@[simp] theorem State.setTap_out (s : State) (d : Nat) (x : Tap) : (s.setTap d x).out = s.out := rfl
@[simp] theorem State.setTap_pending (s : State) (d : Nat) (x : Tap) : (s.setTap d x).pending = s.pending := rfl

/-! ## State.setTrig -/

@[simp] theorem State.setTrig_mfg (s : State) (t : Nat) (x : Trig) : (s.setTrig t x).mfg = s.mfg := rfl
@[simp] theorem State.setTrig_dict (s : State) (t : Nat) (x : Trig) : (s.setTrig t x).dict = s.dict := rfl
@[simp] theorem State.setTrig_staged (s : State) (t : Nat) (x : Trig) : (s.setTrig t x).staged = s.staged := rfl
@[simp] theorem State.setTrig_pwr (s : State) (t : Nat) (x : Trig) : (s.setTrig t x).pwr = s.pwr := rfl
@[simp] theorem State.setTrig_dev (s : State) (t : Nat) (x : Trig) : (s.setTrig t x).dev = s.dev := rfl
@[simp] theorem State.setTrig_clock (s : State) (t : Nat) (x : Trig) : (s.setTrig t x).clock = s.clock := rfl
@[simp] theorem State.setTrig_mgmt (s : State) (t : Nat) (x : Trig) : (s.setTrig t x).mgmt = s.mgmt := rfl
@[simp] theorem State.setTrig_odp (s : State) (t : Nat) (x : Trig) : (s.setTrig t x).odp = s.odp := rfl
@[simp] theorem State.setTrig_flash (s : State) (t : Nat) (x : Trig) : (s.setTrig t x).flash = s.flash := rfl
@[simp] theorem State.setTrig_saving (s : State) (t : Nat) (x : Trig) : (s.setTrig t x).saving = s.saving := rfl
@[simp] theorem State.setTrig_mem (s : State) (t : Nat) (x : Trig) : (s.setTrig t x).mem = s.mem := rfl
@[simp] theorem State.setTrig_line (s : State) (t : Nat) (x : Trig) : (s.setTrig t x).line = s.line := rfl
@[simp] theorem State.setTrig_intake (s : State) (t : Nat) (x : Trig) : (s.setTrig t x).intake = s.intake := rfl
@[simp] theorem State.setTrig_pkts (s : State) (t : Nat) (x : Trig) : (s.setTrig t x).pkts = s.pkts := rfl
@[simp] theorem State.setTrig_nextPid (s : State) (t : Nat) (x : Trig) : (s.setTrig t x).nextPid = s.nextPid := rfl
@[simp] theorem State.setTrig_egr (s : State) (t : Nat) (x : Trig) : (s.setTrig t x).egr = s.egr := rfl
@[simp] theorem State.setTrig_cat (s : State) (t : Nat) (x : Trig) : (s.setTrig t x).cat = s.cat := rfl
@[simp] theorem State.setTrig_tree (s : State) (t : Nat) (x : Trig) : (s.setTrig t x).tree = s.tree := rfl
@[simp] theorem State.setTrig_arr (s : State) (t : Nat) (x : Trig) : (s.setTrig t x).arr = s.arr := rfl
@[simp] theorem State.setTrig_lib (s : State) (t : Nat) (x : Trig) : (s.setTrig t x).lib = s.lib := rfl
@[simp] theorem State.setTrig_fab (s : State) (t : Nat) (x : Trig) : (s.setTrig t x).fab = s.fab := rfl
@[simp] theorem State.setTrig_memc (s : State) (t : Nat) (x : Trig) : (s.setTrig t x).memc = s.memc := rfl
@[simp] theorem State.setTrig_rel (s : State) (t : Nat) (x : Trig) : (s.setTrig t x).rel = s.rel := rfl
@[simp] theorem State.setTrig_obs (s : State) (t : Nat) (x : Trig) : (s.setTrig t x).obs = s.obs := rfl
@[simp] theorem State.setTrig_trust (s : State) (t : Nat) (x : Trig) : (s.setTrig t x).trust = s.trust := rfl
@[simp] theorem State.setTrig_free (s : State) (t : Nat) (x : Trig) : (s.setTrig t x).free = s.free := rfl
@[simp] theorem State.setTrig_out (s : State) (t : Nat) (x : Trig) : (s.setTrig t x).out = s.out := rfl
@[simp] theorem State.setTrig_pending (s : State) (t : Nat) (x : Trig) : (s.setTrig t x).pending = s.pending := rfl

/-! ## State.setLight -/

@[simp] theorem State.setLight_mfg (s : State) (l n : Nat) : (s.setLight l n).mfg = s.mfg := rfl
@[simp] theorem State.setLight_staged (s : State) (l n : Nat) : (s.setLight l n).staged = s.staged := rfl
@[simp] theorem State.setLight_pwr (s : State) (l n : Nat) : (s.setLight l n).pwr = s.pwr := rfl
@[simp] theorem State.setLight_dev (s : State) (l n : Nat) : (s.setLight l n).dev = s.dev := rfl
@[simp] theorem State.setLight_clock (s : State) (l n : Nat) : (s.setLight l n).clock = s.clock := rfl
@[simp] theorem State.setLight_mgmt (s : State) (l n : Nat) : (s.setLight l n).mgmt = s.mgmt := rfl
@[simp] theorem State.setLight_odp (s : State) (l n : Nat) : (s.setLight l n).odp = s.odp := rfl
@[simp] theorem State.setLight_flash (s : State) (l n : Nat) : (s.setLight l n).flash = s.flash := rfl
@[simp] theorem State.setLight_saving (s : State) (l n : Nat) : (s.setLight l n).saving = s.saving := rfl
@[simp] theorem State.setLight_mem (s : State) (l n : Nat) : (s.setLight l n).mem = s.mem := rfl
@[simp] theorem State.setLight_line (s : State) (l n : Nat) : (s.setLight l n).line = s.line := rfl
@[simp] theorem State.setLight_intake (s : State) (l n : Nat) : (s.setLight l n).intake = s.intake := rfl
@[simp] theorem State.setLight_pkts (s : State) (l n : Nat) : (s.setLight l n).pkts = s.pkts := rfl
@[simp] theorem State.setLight_nextPid (s : State) (l n : Nat) : (s.setLight l n).nextPid = s.nextPid := rfl
@[simp] theorem State.setLight_egr (s : State) (l n : Nat) : (s.setLight l n).egr = s.egr := rfl
@[simp] theorem State.setLight_cat (s : State) (l n : Nat) : (s.setLight l n).cat = s.cat := rfl
@[simp] theorem State.setLight_tree (s : State) (l n : Nat) : (s.setLight l n).tree = s.tree := rfl
@[simp] theorem State.setLight_arr (s : State) (l n : Nat) : (s.setLight l n).arr = s.arr := rfl
@[simp] theorem State.setLight_sync (s : State) (l n : Nat) : (s.setLight l n).sync = s.sync := rfl
@[simp] theorem State.setLight_lib (s : State) (l n : Nat) : (s.setLight l n).lib = s.lib := rfl
@[simp] theorem State.setLight_fab (s : State) (l n : Nat) : (s.setLight l n).fab = s.fab := rfl
@[simp] theorem State.setLight_memc (s : State) (l n : Nat) : (s.setLight l n).memc = s.memc := rfl
@[simp] theorem State.setLight_rel (s : State) (l n : Nat) : (s.setLight l n).rel = s.rel := rfl
@[simp] theorem State.setLight_obs (s : State) (l n : Nat) : (s.setLight l n).obs = s.obs := rfl
@[simp] theorem State.setLight_trust (s : State) (l n : Nat) : (s.setLight l n).trust = s.trust := rfl
@[simp] theorem State.setLight_free (s : State) (l n : Nat) : (s.setLight l n).free = s.free := rfl
@[simp] theorem State.setLight_out (s : State) (l n : Nat) : (s.setLight l n).out = s.out := rfl
@[simp] theorem State.setLight_pending (s : State) (l n : Nat) : (s.setLight l n).pending = s.pending := rfl

/-! ## State.setQueue -/

@[simp] theorem State.setQueue_mfg (s : State) (q : Nat) (l : List QItem) : (s.setQueue q l).mfg = s.mfg := rfl
@[simp] theorem State.setQueue_dict (s : State) (q : Nat) (l : List QItem) : (s.setQueue q l).dict = s.dict := rfl
@[simp] theorem State.setQueue_staged (s : State) (q : Nat) (l : List QItem) : (s.setQueue q l).staged = s.staged := rfl
@[simp] theorem State.setQueue_pwr (s : State) (q : Nat) (l : List QItem) : (s.setQueue q l).pwr = s.pwr := rfl
@[simp] theorem State.setQueue_dev (s : State) (q : Nat) (l : List QItem) : (s.setQueue q l).dev = s.dev := rfl
@[simp] theorem State.setQueue_clock (s : State) (q : Nat) (l : List QItem) : (s.setQueue q l).clock = s.clock := rfl
@[simp] theorem State.setQueue_mgmt (s : State) (q : Nat) (l : List QItem) : (s.setQueue q l).mgmt = s.mgmt := rfl
@[simp] theorem State.setQueue_odp (s : State) (q : Nat) (l : List QItem) : (s.setQueue q l).odp = s.odp := rfl
@[simp] theorem State.setQueue_flash (s : State) (q : Nat) (l : List QItem) : (s.setQueue q l).flash = s.flash := rfl
@[simp] theorem State.setQueue_saving (s : State) (q : Nat) (l : List QItem) : (s.setQueue q l).saving = s.saving := rfl
@[simp] theorem State.setQueue_mem (s : State) (q : Nat) (l : List QItem) : (s.setQueue q l).mem = s.mem := rfl
@[simp] theorem State.setQueue_line (s : State) (q : Nat) (l : List QItem) : (s.setQueue q l).line = s.line := rfl
@[simp] theorem State.setQueue_intake (s : State) (q : Nat) (l : List QItem) : (s.setQueue q l).intake = s.intake := rfl
@[simp] theorem State.setQueue_pkts (s : State) (q : Nat) (l : List QItem) : (s.setQueue q l).pkts = s.pkts := rfl
@[simp] theorem State.setQueue_nextPid (s : State) (q : Nat) (l : List QItem) : (s.setQueue q l).nextPid = s.nextPid := rfl
@[simp] theorem State.setQueue_cat (s : State) (q : Nat) (l : List QItem) : (s.setQueue q l).cat = s.cat := rfl
@[simp] theorem State.setQueue_tree (s : State) (q : Nat) (l : List QItem) : (s.setQueue q l).tree = s.tree := rfl
@[simp] theorem State.setQueue_arr (s : State) (q : Nat) (l : List QItem) : (s.setQueue q l).arr = s.arr := rfl
@[simp] theorem State.setQueue_sync (s : State) (q : Nat) (l : List QItem) : (s.setQueue q l).sync = s.sync := rfl
@[simp] theorem State.setQueue_lib (s : State) (q : Nat) (l : List QItem) : (s.setQueue q l).lib = s.lib := rfl
@[simp] theorem State.setQueue_fab (s : State) (q : Nat) (l : List QItem) : (s.setQueue q l).fab = s.fab := rfl
@[simp] theorem State.setQueue_memc (s : State) (q : Nat) (l : List QItem) : (s.setQueue q l).memc = s.memc := rfl
@[simp] theorem State.setQueue_rel (s : State) (q : Nat) (l : List QItem) : (s.setQueue q l).rel = s.rel := rfl
@[simp] theorem State.setQueue_obs (s : State) (q : Nat) (l : List QItem) : (s.setQueue q l).obs = s.obs := rfl
@[simp] theorem State.setQueue_trust (s : State) (q : Nat) (l : List QItem) : (s.setQueue q l).trust = s.trust := rfl
@[simp] theorem State.setQueue_free (s : State) (q : Nat) (l : List QItem) : (s.setQueue q l).free = s.free := rfl
@[simp] theorem State.setQueue_out (s : State) (q : Nat) (l : List QItem) : (s.setQueue q l).out = s.out := rfl
@[simp] theorem State.setQueue_pending (s : State) (q : Nat) (l : List QItem) : (s.setQueue q l).pending = s.pending := rfl

/-! ## State.setPkt -/

@[simp] theorem State.setPkt_mfg (s : State) (p : Pkt) : (s.setPkt p).mfg = s.mfg := rfl
@[simp] theorem State.setPkt_dict (s : State) (p : Pkt) : (s.setPkt p).dict = s.dict := rfl
@[simp] theorem State.setPkt_staged (s : State) (p : Pkt) : (s.setPkt p).staged = s.staged := rfl
@[simp] theorem State.setPkt_pwr (s : State) (p : Pkt) : (s.setPkt p).pwr = s.pwr := rfl
@[simp] theorem State.setPkt_dev (s : State) (p : Pkt) : (s.setPkt p).dev = s.dev := rfl
@[simp] theorem State.setPkt_clock (s : State) (p : Pkt) : (s.setPkt p).clock = s.clock := rfl
@[simp] theorem State.setPkt_mgmt (s : State) (p : Pkt) : (s.setPkt p).mgmt = s.mgmt := rfl
@[simp] theorem State.setPkt_odp (s : State) (p : Pkt) : (s.setPkt p).odp = s.odp := rfl
@[simp] theorem State.setPkt_flash (s : State) (p : Pkt) : (s.setPkt p).flash = s.flash := rfl
@[simp] theorem State.setPkt_saving (s : State) (p : Pkt) : (s.setPkt p).saving = s.saving := rfl
@[simp] theorem State.setPkt_mem (s : State) (p : Pkt) : (s.setPkt p).mem = s.mem := rfl
@[simp] theorem State.setPkt_line (s : State) (p : Pkt) : (s.setPkt p).line = s.line := rfl
@[simp] theorem State.setPkt_intake (s : State) (p : Pkt) : (s.setPkt p).intake = s.intake := rfl
@[simp] theorem State.setPkt_nextPid (s : State) (p : Pkt) : (s.setPkt p).nextPid = s.nextPid := rfl
@[simp] theorem State.setPkt_egr (s : State) (p : Pkt) : (s.setPkt p).egr = s.egr := rfl
@[simp] theorem State.setPkt_cat (s : State) (p : Pkt) : (s.setPkt p).cat = s.cat := rfl
@[simp] theorem State.setPkt_tree (s : State) (p : Pkt) : (s.setPkt p).tree = s.tree := rfl
@[simp] theorem State.setPkt_arr (s : State) (p : Pkt) : (s.setPkt p).arr = s.arr := rfl
@[simp] theorem State.setPkt_sync (s : State) (p : Pkt) : (s.setPkt p).sync = s.sync := rfl
@[simp] theorem State.setPkt_lib (s : State) (p : Pkt) : (s.setPkt p).lib = s.lib := rfl
@[simp] theorem State.setPkt_fab (s : State) (p : Pkt) : (s.setPkt p).fab = s.fab := rfl
@[simp] theorem State.setPkt_memc (s : State) (p : Pkt) : (s.setPkt p).memc = s.memc := rfl
@[simp] theorem State.setPkt_rel (s : State) (p : Pkt) : (s.setPkt p).rel = s.rel := rfl
@[simp] theorem State.setPkt_obs (s : State) (p : Pkt) : (s.setPkt p).obs = s.obs := rfl
@[simp] theorem State.setPkt_trust (s : State) (p : Pkt) : (s.setPkt p).trust = s.trust := rfl
@[simp] theorem State.setPkt_free (s : State) (p : Pkt) : (s.setPkt p).free = s.free := rfl
@[simp] theorem State.setPkt_out (s : State) (p : Pkt) : (s.setPkt p).out = s.out := rfl
@[simp] theorem State.setPkt_pending (s : State) (p : Pkt) : (s.setPkt p).pending = s.pending := rfl

/-! ## State.dropPkt -/

@[simp] theorem State.dropPkt_mfg (s : State) (pid : Nat) : (s.dropPkt pid).mfg = s.mfg := rfl
@[simp] theorem State.dropPkt_dict (s : State) (pid : Nat) : (s.dropPkt pid).dict = s.dict := rfl
@[simp] theorem State.dropPkt_staged (s : State) (pid : Nat) : (s.dropPkt pid).staged = s.staged := rfl
@[simp] theorem State.dropPkt_pwr (s : State) (pid : Nat) : (s.dropPkt pid).pwr = s.pwr := rfl
@[simp] theorem State.dropPkt_dev (s : State) (pid : Nat) : (s.dropPkt pid).dev = s.dev := rfl
@[simp] theorem State.dropPkt_clock (s : State) (pid : Nat) : (s.dropPkt pid).clock = s.clock := rfl
@[simp] theorem State.dropPkt_mgmt (s : State) (pid : Nat) : (s.dropPkt pid).mgmt = s.mgmt := rfl
@[simp] theorem State.dropPkt_odp (s : State) (pid : Nat) : (s.dropPkt pid).odp = s.odp := rfl
@[simp] theorem State.dropPkt_flash (s : State) (pid : Nat) : (s.dropPkt pid).flash = s.flash := rfl
@[simp] theorem State.dropPkt_saving (s : State) (pid : Nat) : (s.dropPkt pid).saving = s.saving := rfl
@[simp] theorem State.dropPkt_mem (s : State) (pid : Nat) : (s.dropPkt pid).mem = s.mem := rfl
@[simp] theorem State.dropPkt_line (s : State) (pid : Nat) : (s.dropPkt pid).line = s.line := rfl
@[simp] theorem State.dropPkt_intake (s : State) (pid : Nat) : (s.dropPkt pid).intake = s.intake := rfl
@[simp] theorem State.dropPkt_nextPid (s : State) (pid : Nat) : (s.dropPkt pid).nextPid = s.nextPid := rfl
@[simp] theorem State.dropPkt_egr (s : State) (pid : Nat) : (s.dropPkt pid).egr = s.egr := rfl
@[simp] theorem State.dropPkt_cat (s : State) (pid : Nat) : (s.dropPkt pid).cat = s.cat := rfl
@[simp] theorem State.dropPkt_tree (s : State) (pid : Nat) : (s.dropPkt pid).tree = s.tree := rfl
@[simp] theorem State.dropPkt_arr (s : State) (pid : Nat) : (s.dropPkt pid).arr = s.arr := rfl
@[simp] theorem State.dropPkt_sync (s : State) (pid : Nat) : (s.dropPkt pid).sync = s.sync := rfl
@[simp] theorem State.dropPkt_lib (s : State) (pid : Nat) : (s.dropPkt pid).lib = s.lib := rfl
@[simp] theorem State.dropPkt_fab (s : State) (pid : Nat) : (s.dropPkt pid).fab = s.fab := rfl
@[simp] theorem State.dropPkt_memc (s : State) (pid : Nat) : (s.dropPkt pid).memc = s.memc := rfl
@[simp] theorem State.dropPkt_rel (s : State) (pid : Nat) : (s.dropPkt pid).rel = s.rel := rfl
@[simp] theorem State.dropPkt_obs (s : State) (pid : Nat) : (s.dropPkt pid).obs = s.obs := rfl
@[simp] theorem State.dropPkt_trust (s : State) (pid : Nat) : (s.dropPkt pid).trust = s.trust := rfl
@[simp] theorem State.dropPkt_free (s : State) (pid : Nat) : (s.dropPkt pid).free = s.free := rfl
@[simp] theorem State.dropPkt_out (s : State) (pid : Nat) : (s.dropPkt pid).out = s.out := rfl
@[simp] theorem State.dropPkt_pending (s : State) (pid : Nat) : (s.dropPkt pid).pending = s.pending := rfl

/-! ## State.modLine -/

@[simp] theorem State.modLine_mfg (s : State) (p : Nat) (f : Line → Line) : (s.modLine p f).mfg = s.mfg := rfl
@[simp] theorem State.modLine_dict (s : State) (p : Nat) (f : Line → Line) : (s.modLine p f).dict = s.dict := rfl
@[simp] theorem State.modLine_staged (s : State) (p : Nat) (f : Line → Line) : (s.modLine p f).staged = s.staged := rfl
@[simp] theorem State.modLine_pwr (s : State) (p : Nat) (f : Line → Line) : (s.modLine p f).pwr = s.pwr := rfl
@[simp] theorem State.modLine_dev (s : State) (p : Nat) (f : Line → Line) : (s.modLine p f).dev = s.dev := rfl
@[simp] theorem State.modLine_clock (s : State) (p : Nat) (f : Line → Line) : (s.modLine p f).clock = s.clock := rfl
@[simp] theorem State.modLine_mgmt (s : State) (p : Nat) (f : Line → Line) : (s.modLine p f).mgmt = s.mgmt := rfl
@[simp] theorem State.modLine_odp (s : State) (p : Nat) (f : Line → Line) : (s.modLine p f).odp = s.odp := rfl
@[simp] theorem State.modLine_flash (s : State) (p : Nat) (f : Line → Line) : (s.modLine p f).flash = s.flash := rfl
@[simp] theorem State.modLine_saving (s : State) (p : Nat) (f : Line → Line) : (s.modLine p f).saving = s.saving := rfl
@[simp] theorem State.modLine_mem (s : State) (p : Nat) (f : Line → Line) : (s.modLine p f).mem = s.mem := rfl
@[simp] theorem State.modLine_intake (s : State) (p : Nat) (f : Line → Line) : (s.modLine p f).intake = s.intake := rfl
@[simp] theorem State.modLine_pkts (s : State) (p : Nat) (f : Line → Line) : (s.modLine p f).pkts = s.pkts := rfl
@[simp] theorem State.modLine_nextPid (s : State) (p : Nat) (f : Line → Line) : (s.modLine p f).nextPid = s.nextPid := rfl
@[simp] theorem State.modLine_egr (s : State) (p : Nat) (f : Line → Line) : (s.modLine p f).egr = s.egr := rfl
@[simp] theorem State.modLine_cat (s : State) (p : Nat) (f : Line → Line) : (s.modLine p f).cat = s.cat := rfl
@[simp] theorem State.modLine_tree (s : State) (p : Nat) (f : Line → Line) : (s.modLine p f).tree = s.tree := rfl
@[simp] theorem State.modLine_arr (s : State) (p : Nat) (f : Line → Line) : (s.modLine p f).arr = s.arr := rfl
@[simp] theorem State.modLine_sync (s : State) (p : Nat) (f : Line → Line) : (s.modLine p f).sync = s.sync := rfl
@[simp] theorem State.modLine_lib (s : State) (p : Nat) (f : Line → Line) : (s.modLine p f).lib = s.lib := rfl
@[simp] theorem State.modLine_fab (s : State) (p : Nat) (f : Line → Line) : (s.modLine p f).fab = s.fab := rfl
@[simp] theorem State.modLine_memc (s : State) (p : Nat) (f : Line → Line) : (s.modLine p f).memc = s.memc := rfl
@[simp] theorem State.modLine_rel (s : State) (p : Nat) (f : Line → Line) : (s.modLine p f).rel = s.rel := rfl
@[simp] theorem State.modLine_obs (s : State) (p : Nat) (f : Line → Line) : (s.modLine p f).obs = s.obs := rfl
@[simp] theorem State.modLine_trust (s : State) (p : Nat) (f : Line → Line) : (s.modLine p f).trust = s.trust := rfl
@[simp] theorem State.modLine_free (s : State) (p : Nat) (f : Line → Line) : (s.modLine p f).free = s.free := rfl
@[simp] theorem State.modLine_out (s : State) (p : Nat) (f : Line → Line) : (s.modLine p f).out = s.out := rfl
@[simp] theorem State.modLine_pending (s : State) (p : Nat) (f : Line → Line) : (s.modLine p f).pending = s.pending := rfl

/-! ## State.catHold -/

@[simp] theorem State.catHold_mfg (s : State) (w : CatWait) : (s.catHold w).mfg = s.mfg := rfl
@[simp] theorem State.catHold_dict (s : State) (w : CatWait) : (s.catHold w).dict = s.dict := rfl
@[simp] theorem State.catHold_staged (s : State) (w : CatWait) : (s.catHold w).staged = s.staged := rfl
@[simp] theorem State.catHold_pwr (s : State) (w : CatWait) : (s.catHold w).pwr = s.pwr := rfl
@[simp] theorem State.catHold_dev (s : State) (w : CatWait) : (s.catHold w).dev = s.dev := rfl
@[simp] theorem State.catHold_clock (s : State) (w : CatWait) : (s.catHold w).clock = s.clock := rfl
@[simp] theorem State.catHold_mgmt (s : State) (w : CatWait) : (s.catHold w).mgmt = s.mgmt := rfl
@[simp] theorem State.catHold_odp (s : State) (w : CatWait) : (s.catHold w).odp = s.odp := rfl
@[simp] theorem State.catHold_flash (s : State) (w : CatWait) : (s.catHold w).flash = s.flash := rfl
@[simp] theorem State.catHold_saving (s : State) (w : CatWait) : (s.catHold w).saving = s.saving := rfl
@[simp] theorem State.catHold_mem (s : State) (w : CatWait) : (s.catHold w).mem = s.mem := rfl
@[simp] theorem State.catHold_line (s : State) (w : CatWait) : (s.catHold w).line = s.line := rfl
@[simp] theorem State.catHold_intake (s : State) (w : CatWait) : (s.catHold w).intake = s.intake := rfl
@[simp] theorem State.catHold_pkts (s : State) (w : CatWait) : (s.catHold w).pkts = s.pkts := rfl
@[simp] theorem State.catHold_nextPid (s : State) (w : CatWait) : (s.catHold w).nextPid = s.nextPid := rfl
@[simp] theorem State.catHold_egr (s : State) (w : CatWait) : (s.catHold w).egr = s.egr := rfl
@[simp] theorem State.catHold_tree (s : State) (w : CatWait) : (s.catHold w).tree = s.tree := rfl
@[simp] theorem State.catHold_arr (s : State) (w : CatWait) : (s.catHold w).arr = s.arr := rfl
@[simp] theorem State.catHold_sync (s : State) (w : CatWait) : (s.catHold w).sync = s.sync := rfl
@[simp] theorem State.catHold_lib (s : State) (w : CatWait) : (s.catHold w).lib = s.lib := rfl
@[simp] theorem State.catHold_fab (s : State) (w : CatWait) : (s.catHold w).fab = s.fab := rfl
@[simp] theorem State.catHold_memc (s : State) (w : CatWait) : (s.catHold w).memc = s.memc := rfl
@[simp] theorem State.catHold_rel (s : State) (w : CatWait) : (s.catHold w).rel = s.rel := rfl
@[simp] theorem State.catHold_obs (s : State) (w : CatWait) : (s.catHold w).obs = s.obs := rfl
@[simp] theorem State.catHold_trust (s : State) (w : CatWait) : (s.catHold w).trust = s.trust := rfl
@[simp] theorem State.catHold_free (s : State) (w : CatWait) : (s.catHold w).free = s.free := rfl
@[simp] theorem State.catHold_out (s : State) (w : CatWait) : (s.catHold w).out = s.out := rfl
@[simp] theorem State.catHold_pending (s : State) (w : CatWait) : (s.catHold w).pending = s.pending := rfl

/-! ## State.modPort -/

@[simp] theorem State.modPort_mfg (s : State) (f : Nat) (g : FabPort → FabPort) : (s.modPort f g).mfg = s.mfg := rfl
@[simp] theorem State.modPort_dict (s : State) (f : Nat) (g : FabPort → FabPort) : (s.modPort f g).dict = s.dict := rfl
@[simp] theorem State.modPort_staged (s : State) (f : Nat) (g : FabPort → FabPort) : (s.modPort f g).staged = s.staged := rfl
@[simp] theorem State.modPort_pwr (s : State) (f : Nat) (g : FabPort → FabPort) : (s.modPort f g).pwr = s.pwr := rfl
@[simp] theorem State.modPort_dev (s : State) (f : Nat) (g : FabPort → FabPort) : (s.modPort f g).dev = s.dev := rfl
@[simp] theorem State.modPort_clock (s : State) (f : Nat) (g : FabPort → FabPort) : (s.modPort f g).clock = s.clock := rfl
@[simp] theorem State.modPort_mgmt (s : State) (f : Nat) (g : FabPort → FabPort) : (s.modPort f g).mgmt = s.mgmt := rfl
@[simp] theorem State.modPort_odp (s : State) (f : Nat) (g : FabPort → FabPort) : (s.modPort f g).odp = s.odp := rfl
@[simp] theorem State.modPort_flash (s : State) (f : Nat) (g : FabPort → FabPort) : (s.modPort f g).flash = s.flash := rfl
@[simp] theorem State.modPort_saving (s : State) (f : Nat) (g : FabPort → FabPort) : (s.modPort f g).saving = s.saving := rfl
@[simp] theorem State.modPort_mem (s : State) (f : Nat) (g : FabPort → FabPort) : (s.modPort f g).mem = s.mem := rfl
@[simp] theorem State.modPort_line (s : State) (f : Nat) (g : FabPort → FabPort) : (s.modPort f g).line = s.line := rfl
@[simp] theorem State.modPort_intake (s : State) (f : Nat) (g : FabPort → FabPort) : (s.modPort f g).intake = s.intake := rfl
@[simp] theorem State.modPort_pkts (s : State) (f : Nat) (g : FabPort → FabPort) : (s.modPort f g).pkts = s.pkts := rfl
@[simp] theorem State.modPort_nextPid (s : State) (f : Nat) (g : FabPort → FabPort) : (s.modPort f g).nextPid = s.nextPid := rfl
@[simp] theorem State.modPort_egr (s : State) (f : Nat) (g : FabPort → FabPort) : (s.modPort f g).egr = s.egr := rfl
@[simp] theorem State.modPort_cat (s : State) (f : Nat) (g : FabPort → FabPort) : (s.modPort f g).cat = s.cat := rfl
@[simp] theorem State.modPort_tree (s : State) (f : Nat) (g : FabPort → FabPort) : (s.modPort f g).tree = s.tree := rfl
@[simp] theorem State.modPort_arr (s : State) (f : Nat) (g : FabPort → FabPort) : (s.modPort f g).arr = s.arr := rfl
@[simp] theorem State.modPort_sync (s : State) (f : Nat) (g : FabPort → FabPort) : (s.modPort f g).sync = s.sync := rfl
@[simp] theorem State.modPort_lib (s : State) (f : Nat) (g : FabPort → FabPort) : (s.modPort f g).lib = s.lib := rfl
@[simp] theorem State.modPort_memc (s : State) (f : Nat) (g : FabPort → FabPort) : (s.modPort f g).memc = s.memc := rfl
@[simp] theorem State.modPort_rel (s : State) (f : Nat) (g : FabPort → FabPort) : (s.modPort f g).rel = s.rel := rfl
@[simp] theorem State.modPort_obs (s : State) (f : Nat) (g : FabPort → FabPort) : (s.modPort f g).obs = s.obs := rfl
@[simp] theorem State.modPort_trust (s : State) (f : Nat) (g : FabPort → FabPort) : (s.modPort f g).trust = s.trust := rfl
@[simp] theorem State.modPort_free (s : State) (f : Nat) (g : FabPort → FabPort) : (s.modPort f g).free = s.free := rfl
@[simp] theorem State.modPort_out (s : State) (f : Nat) (g : FabPort → FabPort) : (s.modPort f g).out = s.out := rfl
@[simp] theorem State.modPort_pending (s : State) (f : Nat) (g : FabPort → FabPort) : (s.modPort f g).pending = s.pending := rfl

/-! ## State.dropOp -/

@[simp] theorem State.dropOp_mfg (s : State) (id : Nat) : (s.dropOp id).mfg = s.mfg := rfl
@[simp] theorem State.dropOp_dict (s : State) (id : Nat) : (s.dropOp id).dict = s.dict := rfl
@[simp] theorem State.dropOp_staged (s : State) (id : Nat) : (s.dropOp id).staged = s.staged := rfl
@[simp] theorem State.dropOp_pwr (s : State) (id : Nat) : (s.dropOp id).pwr = s.pwr := rfl
@[simp] theorem State.dropOp_dev (s : State) (id : Nat) : (s.dropOp id).dev = s.dev := rfl
@[simp] theorem State.dropOp_clock (s : State) (id : Nat) : (s.dropOp id).clock = s.clock := rfl
@[simp] theorem State.dropOp_mgmt (s : State) (id : Nat) : (s.dropOp id).mgmt = s.mgmt := rfl
@[simp] theorem State.dropOp_odp (s : State) (id : Nat) : (s.dropOp id).odp = s.odp := rfl
@[simp] theorem State.dropOp_flash (s : State) (id : Nat) : (s.dropOp id).flash = s.flash := rfl
@[simp] theorem State.dropOp_saving (s : State) (id : Nat) : (s.dropOp id).saving = s.saving := rfl
@[simp] theorem State.dropOp_mem (s : State) (id : Nat) : (s.dropOp id).mem = s.mem := rfl
@[simp] theorem State.dropOp_line (s : State) (id : Nat) : (s.dropOp id).line = s.line := rfl
@[simp] theorem State.dropOp_intake (s : State) (id : Nat) : (s.dropOp id).intake = s.intake := rfl
@[simp] theorem State.dropOp_pkts (s : State) (id : Nat) : (s.dropOp id).pkts = s.pkts := rfl
@[simp] theorem State.dropOp_nextPid (s : State) (id : Nat) : (s.dropOp id).nextPid = s.nextPid := rfl
@[simp] theorem State.dropOp_egr (s : State) (id : Nat) : (s.dropOp id).egr = s.egr := rfl
@[simp] theorem State.dropOp_cat (s : State) (id : Nat) : (s.dropOp id).cat = s.cat := rfl
@[simp] theorem State.dropOp_tree (s : State) (id : Nat) : (s.dropOp id).tree = s.tree := rfl
@[simp] theorem State.dropOp_arr (s : State) (id : Nat) : (s.dropOp id).arr = s.arr := rfl
@[simp] theorem State.dropOp_sync (s : State) (id : Nat) : (s.dropOp id).sync = s.sync := rfl
@[simp] theorem State.dropOp_lib (s : State) (id : Nat) : (s.dropOp id).lib = s.lib := rfl
@[simp] theorem State.dropOp_memc (s : State) (id : Nat) : (s.dropOp id).memc = s.memc := rfl
@[simp] theorem State.dropOp_rel (s : State) (id : Nat) : (s.dropOp id).rel = s.rel := rfl
@[simp] theorem State.dropOp_obs (s : State) (id : Nat) : (s.dropOp id).obs = s.obs := rfl
@[simp] theorem State.dropOp_trust (s : State) (id : Nat) : (s.dropOp id).trust = s.trust := rfl
@[simp] theorem State.dropOp_free (s : State) (id : Nat) : (s.dropOp id).free = s.free := rfl
@[simp] theorem State.dropOp_out (s : State) (id : Nat) : (s.dropOp id).out = s.out := rfl
@[simp] theorem State.dropOp_pending (s : State) (id : Nat) : (s.dropOp id).pending = s.pending := rfl

/-! ## State.fillShapers -/

@[simp] theorem State.fillShapers_mfg (s : State) : (s.fillShapers).mfg = s.mfg := rfl
@[simp] theorem State.fillShapers_dict (s : State) : (s.fillShapers).dict = s.dict := rfl
@[simp] theorem State.fillShapers_staged (s : State) : (s.fillShapers).staged = s.staged := rfl
@[simp] theorem State.fillShapers_pwr (s : State) : (s.fillShapers).pwr = s.pwr := rfl
@[simp] theorem State.fillShapers_dev (s : State) : (s.fillShapers).dev = s.dev := rfl
@[simp] theorem State.fillShapers_clock (s : State) : (s.fillShapers).clock = s.clock := rfl
@[simp] theorem State.fillShapers_mgmt (s : State) : (s.fillShapers).mgmt = s.mgmt := rfl
@[simp] theorem State.fillShapers_odp (s : State) : (s.fillShapers).odp = s.odp := rfl
@[simp] theorem State.fillShapers_flash (s : State) : (s.fillShapers).flash = s.flash := rfl
@[simp] theorem State.fillShapers_saving (s : State) : (s.fillShapers).saving = s.saving := rfl
@[simp] theorem State.fillShapers_mem (s : State) : (s.fillShapers).mem = s.mem := rfl
@[simp] theorem State.fillShapers_line (s : State) : (s.fillShapers).line = s.line := rfl
@[simp] theorem State.fillShapers_intake (s : State) : (s.fillShapers).intake = s.intake := rfl
@[simp] theorem State.fillShapers_pkts (s : State) : (s.fillShapers).pkts = s.pkts := rfl
@[simp] theorem State.fillShapers_nextPid (s : State) : (s.fillShapers).nextPid = s.nextPid := rfl
@[simp] theorem State.fillShapers_cat (s : State) : (s.fillShapers).cat = s.cat := rfl
@[simp] theorem State.fillShapers_tree (s : State) : (s.fillShapers).tree = s.tree := rfl
@[simp] theorem State.fillShapers_arr (s : State) : (s.fillShapers).arr = s.arr := rfl
@[simp] theorem State.fillShapers_sync (s : State) : (s.fillShapers).sync = s.sync := rfl
@[simp] theorem State.fillShapers_lib (s : State) : (s.fillShapers).lib = s.lib := rfl
@[simp] theorem State.fillShapers_fab (s : State) : (s.fillShapers).fab = s.fab := rfl
@[simp] theorem State.fillShapers_memc (s : State) : (s.fillShapers).memc = s.memc := rfl
@[simp] theorem State.fillShapers_rel (s : State) : (s.fillShapers).rel = s.rel := rfl
@[simp] theorem State.fillShapers_obs (s : State) : (s.fillShapers).obs = s.obs := rfl
@[simp] theorem State.fillShapers_trust (s : State) : (s.fillShapers).trust = s.trust := rfl
@[simp] theorem State.fillShapers_free (s : State) : (s.fillShapers).free = s.free := rfl
@[simp] theorem State.fillShapers_out (s : State) : (s.fillShapers).out = s.out := rfl
@[simp] theorem State.fillShapers_pending (s : State) : (s.fillShapers).pending = s.pending := rfl

/-! ## State.at -/

@[simp] theorem State.at_mfg (s : State) (t : Nat) : (s.at t).mfg = s.mfg := by unfold State.at; split <;> rfl
@[simp] theorem State.at_dict (s : State) (t : Nat) : (s.at t).dict = s.dict := by unfold State.at; split <;> rfl
@[simp] theorem State.at_staged (s : State) (t : Nat) : (s.at t).staged = s.staged := by unfold State.at; split <;> rfl
@[simp] theorem State.at_pwr (s : State) (t : Nat) : (s.at t).pwr = s.pwr := by unfold State.at; split <;> rfl
@[simp] theorem State.at_dev (s : State) (t : Nat) : (s.at t).dev = s.dev := by unfold State.at; split <;> rfl
@[simp] theorem State.at_mgmt (s : State) (t : Nat) : (s.at t).mgmt = s.mgmt := by unfold State.at; split <;> rfl
@[simp] theorem State.at_odp (s : State) (t : Nat) : (s.at t).odp = s.odp := by unfold State.at; split <;> rfl
@[simp] theorem State.at_flash (s : State) (t : Nat) : (s.at t).flash = s.flash := by unfold State.at; split <;> rfl
@[simp] theorem State.at_saving (s : State) (t : Nat) : (s.at t).saving = s.saving := by unfold State.at; split <;> rfl
@[simp] theorem State.at_mem (s : State) (t : Nat) : (s.at t).mem = s.mem := by unfold State.at; split <;> rfl
@[simp] theorem State.at_line (s : State) (t : Nat) : (s.at t).line = s.line := by unfold State.at; split <;> rfl
@[simp] theorem State.at_intake (s : State) (t : Nat) : (s.at t).intake = s.intake := by unfold State.at; split <;> rfl
@[simp] theorem State.at_pkts (s : State) (t : Nat) : (s.at t).pkts = s.pkts := by unfold State.at; split <;> rfl
@[simp] theorem State.at_nextPid (s : State) (t : Nat) : (s.at t).nextPid = s.nextPid := by unfold State.at; split <;> rfl
@[simp] theorem State.at_egr (s : State) (t : Nat) : (s.at t).egr = s.egr := by unfold State.at; split <;> rfl
@[simp] theorem State.at_cat (s : State) (t : Nat) : (s.at t).cat = s.cat := by unfold State.at; split <;> rfl
@[simp] theorem State.at_tree (s : State) (t : Nat) : (s.at t).tree = s.tree := by unfold State.at; split <;> rfl
@[simp] theorem State.at_arr (s : State) (t : Nat) : (s.at t).arr = s.arr := by unfold State.at; split <;> rfl
@[simp] theorem State.at_sync (s : State) (t : Nat) : (s.at t).sync = s.sync := by unfold State.at; split <;> rfl
@[simp] theorem State.at_lib (s : State) (t : Nat) : (s.at t).lib = s.lib := by unfold State.at; split <;> rfl
@[simp] theorem State.at_fab (s : State) (t : Nat) : (s.at t).fab = s.fab := by unfold State.at; split <;> rfl
@[simp] theorem State.at_memc (s : State) (t : Nat) : (s.at t).memc = s.memc := by unfold State.at; split <;> rfl
@[simp] theorem State.at_rel (s : State) (t : Nat) : (s.at t).rel = s.rel := by unfold State.at; split <;> rfl
@[simp] theorem State.at_obs (s : State) (t : Nat) : (s.at t).obs = s.obs := by unfold State.at; split <;> rfl
@[simp] theorem State.at_trust (s : State) (t : Nat) : (s.at t).trust = s.trust := by unfold State.at; split <;> rfl
@[simp] theorem State.at_free (s : State) (t : Nat) : (s.at t).free = s.free := by unfold State.at; split <;> rfl
@[simp] theorem State.at_out (s : State) (t : Nat) : (s.at t).out = s.out := by unfold State.at; split <;> rfl
@[simp] theorem State.at_pending (s : State) (t : Nat) : (s.at t).pending = s.pending := by unfold State.at; split <;> rfl

/-! ## Reading an object after a write -/

/-- Objects of the rule bank are not in the dictionary. -/
theorem State.get_of_rule {s : State} {i j : Nat} (h : isRuleObj i j = true) :
    s.get i j = Sparse.read objDefault s.intake.bank.objs (objKey i j) := by
  unfold State.get
  rw [if_pos h]

theorem State.get_of_dict {s : State} {i j : Nat} (h : isRuleObj i j = false) : s.get i j = Sparse.read objDefault s.dict (objKey i j) := by
  unfold State.get
  simp [h]

/-- A dictionary object reads as it was written. -/
theorem State.get_put {s : State} {i j v : Nat} (h : isRuleObj i j = false) (hw : Sparse.wf objDefault s.dict = true) :
    (s.put i j v).get i j = v := by
  rw [State.get_of_dict h, State.put_dict, Sparse.read_write hw]

/-- A write leaves every other object. -/
theorem State.get_put_ne {s : State} {i j i' j' v : Nat} (h : objKey i' j' ≠ objKey i j) : (s.put i j v).get i' j' = s.get i' j' := by
  unfold State.get
  rw [State.put_dict, State.put_intake, Sparse.read_write_ne h]

/-- Two objects have one key only if they are one object. -/
theorem objKey_inj {i j i' j' : Nat} (hj : j < 65536) (hj' : j' < 65536) : objKey i j = objKey i' j' ↔ i = i' ∧ j = j' := by
  unfold objKey
  omega

/-- A write keeps the dictionary's form. -/
theorem State.put_wf {s : State} {i j v : Nat} (hw : Sparse.wf objDefault s.dict = true) : Sparse.wf objDefault (s.put i j v).dict = true :=
  Sparse.write_wf hw

/-- The record of an array after its change. -/
theorem State.arrAt_modArr {s : State} {a b : Nat} {f : Arr → Arr} (ha : a < 16) :
    (s.modArr a f).arrAt b = if b = a then f (s.arrAt b) else s.arrAt b := by
  by_cases hb : b < 16
  · by_cases h : b = a
    · subst h
      simp [State.arrAt, State.modArr, List.getD, hb]
    · simp [State.arrAt, State.modArr, List.getD, hb, h]
  · have h : b ≠ a := by omega
    have hb : 16 ≤ b := by omega
    simp [State.arrAt, List.getD, hb, h]

end Sys2Proof.Machine
end

