-- ==== Sys2Proof/Machine/Pins.lean ====
section
/-! DEFINITION. The outputs that a carrier reads off the state (R484, R498, R502). -/

namespace Sys2Proof.Machine

/-- An alert of class 0x31 stands raised: insertion failure, channel imbalance, correctable rate, fabric residual. -/
def State.alertStands (s : State) : Bool :=
  s.cat.alert || s.flag 0x6015 0 || !s.memc.rateAlert.isEmpty || s.flag 0x8004 0

/-- ALERT_N is driven low (R502); else it is high-impedance. -/
def State.alertLow (s : State) : Bool :=
  decide (s.dev.st ≠ .off) && decide (s.dev.st ≠ .reset) &&
  (decide (s.dev.st = .fault) || s.flash.replacement || decide (1 ≤ s.get 0x9800 0) || s.pwr.outOfBand || s.alertStands)

/-- A bypass element conducts: closed, or not yet fully open (R22, R496). -/
def Elem.conducts (e : Elem) : Bool := decide (e ≠ .isOpen)

end Sys2Proof.Machine
end

