-- ==== Sys2Proof/WellFormed.lean ====
section
/-! DEFINITION. Well-formed commands: every operand lies within the width that the manual gives its field, or its sensor or
counter. -/

namespace Sys2Proof

/-- A number fits a field of `n` bits. -/
def fits (n x : Nat) : Bool := decide (x < 2 ^ n)

/-- A byte string has at most `n` bytes. -/
def short (n : Nat) (x : Bytes) : Bool := decide (x.length ≤ n)

/-- A signed measurement fits 64 bits. -/
def fitsInt (x : Int) : Bool := decide (-2 ^ 63 ≤ x) && decide (x < 2 ^ 63)

/-- The trailer of R370: two U32, 16 bytes. -/
def Trailer.wf (x : Trailer) : Bool := fits 32 x.session && fits 32 x.counter && fits 128 x.tag

/-- The header fields of R360 and R361; the source of a request over UDP is an IPv6 address and a port. -/
def Req.wf (r : Req) : Bool :=
  fits 4 r.gen && fits (if r.udp then 144 else 16) r.source && fits 16 r.target && fits 16 r.reqId && r.trailer.all Trailer.wf && fits 64 r.t

/-- The frame header of R360, and a body within one frame. -/
def RingFrame.wf (f : RingFrame) : Bool :=
  fits 16 f.ethertype && fits 4 f.gen && fits 4 f.kind && fits 16 f.hop && fits 16 f.source && fits 24 f.sequence && fits 6 f.index &&
  short 1500 f.body

/-- Details of a FAULT cause. -/
def FaultCause.wf (c : FaultCause) : Bool :=
  match c with
  | .dramUncorrectable _ bank row => fits 16 bank && fits 32 row
  | .stageSramUncorrectable a => fits 32 a
  | .firmwareWatchdog _ => true

/-- What a DRAM die names. -/
def EccReport.wf (r : EccReport) : Bool :=
  match r with
  | .clean => true
  | .corrected => true
  | .uncorrectable bank row => fits 16 bank && fits 32 row

/-- What the checkers name. -/
def CueCheck.wf (c : CueCheck) : Bool :=
  match c with
  | .agree => true
  | .understudy item => fits 8 item
  | .lockstepCue => true

/-- A row below 512, of at most 4,096 bytes. -/
def RowDiff.wf (d : RowDiff) : Bool := fits 9 d.row && short 4096 d.oddVersion

/-- What a peer sends. -/
def Peer.wf (p : Peer) : Bool := fits 16 p.module && fits 8 p.port && fits 8 p.bays && fits 96 p.serial

/-- Fields of a flit. -/
def Flit.wf (f : Flit) : Bool := fits 16 f.dest && fits 16 f.source && fits 64 f.age && fits 12 f.linkSeq && short 256 f.payload &&
  fits 8 f.type && fits 8 f.op && fits 25 f.length && fits 35 f.offset && fits 24 f.chunk

/-- Fields of a link-state flit. -/
def LinkState.wf (l : LinkState) : Bool := fits 16 l.module && fits 96 l.serial && fits 64 l.firstUp && l.neighbours.all (fits 16) && fits 16 l.edge

/-- A reply. -/
def SlipReply.wf (r : SlipReply) : Bool := fits 8 r.status && short 16777216 r.data

/-- A requester. -/
def Requester.wf (r : Requester) : Bool := fits 16 r.module

/-- Light below 2,048 and U16 count; trigger below 512 and U32 parameter. -/
def Doorbell.wf (d : Doorbell) : Bool :=
  match d with
  | .light l n => fits 11 l && fits 16 n
  | .trigger t param => fits 9 t && fits 32 param

/-- The command is well formed. -/
def Instr.wf (i : Instr) : Bool :=
  match i with
  | .inputBelowRange mv t => fits 32 mv && fits 64 t
  | .inputValid mv t => fits 32 mv && fits 64 t
  | .inputOvervoltage mv t => fits 32 mv && fits 64 t
  | .inputVoltageEvent mv t => fits 32 mv && fits 64 t
  | .resetNAsserted lowNs t => fits 64 lowNs && fits 64 t
  | .coldReset t => fits 64 t
  | .resetToBoot t => fits 64 t
  | .bootComplete t => fits 64 t
  | .ringJoin _ _ t => fits 64 t
  | .ringJoinTimeout t => fits 64 t
  | .railOutOfTolerance _ mv t => fitsInt mv && fits 64 t
  | .droopDetected _ t => fits 64 t
  | .droopRecovered _ t => fits 64 t
  | .thermalEvaluation hottest t => fitsInt hottest && fits 64 t
  | .thermalLimit _ temp t => fitsInt temp && fits 64 t
  | .dramRefreshAdjust _ temp t => fitsInt temp && fits 64 t
  | .ppsInEdge t => fits 64 t
  | .refInChange _ t => fits 64 t
  | .faultEntry cause t => cause.wf && fits 64 t
  | .faultReset t => fits 64 t
  | .arrayIslandFault _ source t => fits 8 source && fits 64 t
  | .stateRequestPrepare r => r.wf
  | .drainExitComplete t => fits 64 t
  | .drainExitTimeout t => fits 64 t
  | .stateRequestRun r => r.wf
  | .curtainOpen t => fits 64 t
  | .curtainSwitchComplete _ t => fits 64 t
  | .stateRequestDrain r => r.wf
  | .stateRequestTest r => r.wf
  | .testComplete _ pattern chains t => fits 32 pattern && fits 32 chains && fits 64 t
  | .resetRequest r => r.wf
  | .mgmtLinkDown _ t => fits 64 t
  | .mgmtLinkUp _ rate t => fits 16 rate && fits 64 t
  | .ringFrameReceived _ f t => f.wf && fits 64 t
  | .cycleFrameExchange _ f t => f.wf && fits 64 t
  | .cycleSend t => fits 64 t
  | .outputImageLatch t => fits 64 t
  | .inputImageApply t => fits 64 t
  | .missedCycle t => fits 64 t
  | .read r idx sub => r.wf && fits 16 idx && fits 16 sub
  | .write r idx sub data => r.wf && fits 16 idx && fits 16 sub && short 1396 data
  | .openSession r key nonce slot => r.wf && fits 512 key && fits 128 nonce && fits 8 slot
  | .auth r sid sig => r.wf && fits 32 sid && fits 512 sig
  | .close r => r.wf
  | .sessionExpiry sid t => fits 32 sid && fits 64 t
  | .downloadInit r idx sub size sha seg win => r.wf && fits 16 idx && fits 16 sub && fits 64 size && fits 256 sha && fits 16 seg && fits 16 win
  | .segment r tid offset data => r.wf && fits 16 tid && fits 64 offset && short 1384 data
  | .ack r tid offset => r.wf && fits 16 tid && fits 64 offset
  | .ackTimer tid t => fits 16 tid && fits 64 t
  | .downloadEnd r tid => r.wf && fits 16 tid
  | .uploadInit r idx sub win => r.wf && fits 16 idx && fits 16 sub && fits 16 win
  | .uploadEnd r tid => r.wf && fits 16 tid
  | .transferAbort r tid code => r.wf && fits 16 tid && fits 32 code
  | .transferTimeout tid t => fits 16 tid && fits 64 t
  | .imageLoadCheck _ t => fits 64 t
  | .firmwareSlotVerify _ t => fits 64 t
  | .scanContentVerify t => fits 64 t
  | .ruleCommit r acc => r.wf && fits 16 acc
  | .modelCommit r acc => r.wf && fits 16 acc
  | .commitCancel r _ => r.wf
  | .commitTakesEffect t => fits 64 t
  | .accessionRetire _ t => fits 64 t
  | .retirementOverdue _ t => fits 64 t
  | .forceRetireModel r => r.wf
  | .forceRetireRule r => r.wf
  | .stageRequest r _ mode => r.wf && fits 8 mode
  | .stagingComplete _ t => fits 64 t
  | .installListStart _ t => fits 64 t
  | .installComplete _ t => fits 64 t
  | .erase r _ => r.wf
  | .regionCommit r => r.wf
  | .cyclicCommit r => r.wf
  | .discardStaged r bits => r.wf && fits 8 bits
  | .saveConfiguration r => r.wf
  | .saveComplete t => fits 64 t
  | .restoreDefaults r => r.wf
  | .ringMasterRoleWrite r v => r.wf && fits 8 v
  | .clockSourceWrite r v => r.wf && fits 8 v
  | .evtOutFunctionWrite r sub v => r.wf && fits 16 sub && fits 16 v
  | .ringStorageWrite r _ _ sub v => r.wf && fits 16 sub && fits 32 v
  | .queueBindingWrite r idx sub v => r.wf && fits 16 idx && fits 16 sub && fits 16 v
  | .shaperWrite r idx sub v => r.wf && fits 16 idx && fits 16 sub && fits 32 v
  | .holdPoolShareApply t => fits 64 t
  | .hostKeySlotWrite r _ key => r.wf && fits 512 key
  | .linkUp _ t => fits 64 t
  | .frameReceived _ bytes _ t => short 9604 bytes && fits 64 t
  | .frameSequenced _ cycle t => fits 64 cycle && fits 64 t
  | .packetClassified t => fits 64 t
  | .ecpriStreamExpire _ msgType id t => fits 8 msgType && fits 16 id && fits 64 t
  | .catalogueLookup t => fits 64 t
  | .bucketFetchComplete pid t => fits 64 pid && fits 64 t
  | .sweeperVisit t => fits 64 t
  | .rehashRequest r => r.wf
  | .migrationVisit t => fits 64 t
  | .probe r => r.wf
  | .probeDelete r => r.wf
  | .catalogueClear r => r.wf
  | .treeVectorEntry _ cycle t => fits 64 cycle && fits 64 t
  | .treeVerdict _ t => fits 64 t
  | .treeBankTimeout _ t => fits 64 t
  | .tapRowsWritten _ t => fits 64 t
  | .reorderRelease _ t => fits 64 t
  | .reorderTimeout _ t => fits 64 t
  | .schedulerSelect _ t => fits 64 t
  | .frameTransmitted _ t => fits 64 t
  | .neuralVerdictApply t => fits 64 t
  | .holdTimeout pid t => fits 64 pid && fits 64 t
  | .listStart _ t => fits 64 t
  | .preEmption _ t => fits 64 t
  | .urgentPreEmption _ t => fits 64 t
  | .listResume _ t => fits 64 t
  | .skewResume _ t => fits 64 t
  | .nop _ c t => c.wf && fits 64 t
  | .shelve _ c t => c.wf && fits 64 t
  | .stage _ c t => c.wf && fits 64 t
  | .stream _ c t => c.wf && fits 64 t
  | .streamComplete _ bubbles starveA starveB t => fits 64 bubbles && fits 64 starveA && fits 64 starveB && fits 64 t
  | .drain _ c diff t => c.wf && diff.all RowDiff.wf && fits 64 t
  | .drainComplete _ stall t => fits 64 stall && fits 64 t
  | .arbitrationComplete _ row t => short 4096 row && fits 64 t
  | .arbitrationTimeout _ t => fits 64 t
  | .swap _ c t => c.wf && fits 64 t
  | .tapFlush _ c t => c.wf && fits 64 t
  | .tapRelease _ c t => c.wf && fits 64 t
  | .emitVerdict _ c t => c.wf && fits 64 t
  | .emitTensor _ c t => c.wf && fits 64 t
  | .emitMarker _ c t => c.wf && fits 64 t
  | .callslip _ c t => c.wf && fits 64 t
  | .slipComplete opId reply t => fits 64 opId && reply.wf && fits 64 t
  | .operationTimeout opId t => fits 64 opId && fits 64 t
  | .wait _ c t => c.wf && fits 64 t
  | .waitComplete _ t => fits 64 t
  | .signal _ c t => c.wf && fits 64 t
  | .cueLightSignal r _ v => r.wf && fits 16 v
  | .cueLightTriggerFire _ t => fits 64 t
  | .fence _ c t => c.wf && fits 64 t
  | .fenceComplete _ t => fits 64 t
  | .loop _ c t => c.wf && fits 64 t
  | .endloop _ c t => c.wf && fits 64 t
  | .call _ c t => c.wf && fits 64 t
  | .ret _ c t => c.wf && fits 64 t
  | .restart _ c t => c.wf && fits 64 t
  | .mark _ c t => c.wf && fits 64 t
  | .unmark _ c t => c.wf && fits 64 t
  | .hold _ c t => c.wf && fits 64 t
  | .holdComplete _ t => fits 64 t
  | .postCue r _ _ cue => r.wf && short 32 cue
  | .fire r _ v => r.wf && fits 32 v
  | .clockTriggerFire _ t => fits 64 t
  | .doorbellReceived src d t => fits 16 src && d.wf && fits 64 t
  | .pendingFiringAppend _ t => fits 64 t
  | .governorAdmit cycle t => fits 64 cycle && fits 64 t
  | .rampUpComplete _ t => fits 64 t
  | .rampDownStart _ gap t => fits 64 gap && fits 64 t
  | .rampDownComplete _ t => fits 64 t
  | .clearFallback r => r.wf
  | .fabLinkUp _ peer t => peer.wf && fits 64 t
  | .fabLinkFailed _ _ t => fits 64 t
  | .flitReceived _ flit _ _ t => flit.wf && fits 64 t
  | .linkStateUpdate l t => l.wf && fits 64 t
  | .remoteRead src offset len t => src.wf && fits 64 offset && fits 64 len && fits 64 t
  | .remoteWrite src offset data t => src.wf && fits 64 offset && short 4096 data && fits 64 t
  | .remoteFetchAdd src offset addend t => src.wf && fits 64 offset && fits 64 addend && fits 64 t
  | .remoteCompareSwap src offset cmp swp t => src.wf && fits 64 offset && fits 64 cmp && fits 64 swp && fits 64 t
  | .timestampExchange _ offset hops grandmaster t => fitsInt offset && fits 16 hops && fits 16 grandmaster && fits 64 t
  | .holdover t => fits 64 t
  | .grandmasterElection t => fits 64 t
  | .sourceConflict other t => fits 16 other && fits 64 t
  | .patrolRead rep t => rep.wf && fits 64 t
  | .imbalanceWindow occupancy t => occupancy.all (fits 64) && fits 64 t
  | .fabricResidualCheck t => fits 64 t
  | .peek r => r.wf
  | .scrubPassStart t => fits 64 t
  | .scrubPassEnd _ bad t => bad.all (fits 64) && fits 64 t
  | .clearReplacementFlag r => r.wf
  | .scanRequest r mask => r.wf && fits 16 mask
  | .fieldScanStart _ t => fits 64 t
  | .fieldScanComplete _ _ pattern chains t => fits 32 pattern && fits 32 chains && fits 64 t
  | .samplingStrobe t => fits 64 t
  | .hostMark r id => r.wf && fits 16 id
  | .hostUnmark r id => r.wf && fits 16 id
  | .hangDeclared _ t => fits 64 t
  | .freezeRequest r at_ => r.wf && fits 64 at_
  | .freeze t => fits 64 t
  | .dumpWritten t => fits 64 t
  | .hangDumpClear r => r.wf
  | .ownerKeyHashConfirm r hash => r.wf && fits 256 hash
  | .enforcementProgram r mask => r.wf && fits 8 mask
  | .raiseCounter r c => r.wf && fits 8 c
  | .activateFirmwareSlot r slot => r.wf && fits 8 slot
  | .confirmFirmware r => r.wf
  | .attestationNonce r nonce => r.wf && fits 256 nonce
  | .attestationReportReady t => fits 64 t
  | .debugToken r token => r.wf && short 256 token
  | .debugRelock r => r.wf
  | .linkDown _ t => fits 64 t
  | .stageComplete _ t => fits 64 t
  | .shelveComplete _ t => fits 64 t
  | .emitComplete _ t => fits 64 t
  | .doorbellAccepted opId t => fits 64 opId && fits 64 t
  | .resetNRises t => fits 64 t
  | .ppsOutput t => fits 64 t
  | .evtOutPulseEnd t => fits 64 t
  | .debugPortInstruction ins => fits 8 ins

end Sys2Proof
end

