-- ==== Sys2Proof/Tests/Slice0.lean ====
section
/-! SUPPORT. Tests: ill-formed commands are refused, the manual's worked examples, and for each statement states and operands
that meet its hypotheses. -/

namespace Sys2Proof.Tests

open Sys2Proof Sys2Proof.Machine Sys2Proof.Bits

set_option maxRecDepth 100000
set_option linter.unusedVariables false

/-! ## Ill-formed commands -/

def okReq : Req := ⟨true, 3, 9, 5, 1, none, 0, false⟩
def okRing : RingFrame := ⟨0x88B5, 2, 1, false, 3, 7, 9, 1, []⟩
def okPeer : Peer := ⟨1, 0, 2, 0⟩
def okFlit : Flit := ⟨1, 2, false, 0, 0, 0, [], 1, 1, 64, 0, 0⟩
def okLink : LinkState := ⟨1, 0, 0, false, [2], 65535⟩

theorem test_formed :
    ([Instr.read okReq 0x1020 1, .ringFrameReceived 0 okRing 0, .fabLinkUp 0 okPeer 0, .flitReceived 0 okFlit true true 0,
      .linkStateUpdate okLink 0].all Instr.wf) = true := by decide

theorem test_ill_formed_parts :
    ([{ okReq with gen := 16 }, { okReq with target := 65536 }, { okReq with reqId := 65536 }, { okReq with t := 2 ^ 64 },
      { okReq with source := 65536 }, { okReq with source := 2 ^ 144, udp := true }, { okReq with trailer := some ⟨2 ^ 32, 0, 0⟩ }, { okReq with trailer := some ⟨0, 2 ^ 32, 0⟩ },
      { okReq with trailer := some ⟨0, 0, 2 ^ 128⟩ }].any Req.wf) = false ∧
    ([{ okRing with ethertype := 65536 }, { okRing with gen := 16 }, { okRing with kind := 16 }, { okRing with source := 65536 },
      { okRing with sequence := 2 ^ 24 }, { okRing with index := 64 }, { okRing with body := List.replicate 1501 0 }].any
        RingFrame.wf) = false ∧
    ([{ okPeer with module := 65536 }, { okPeer with bays := 256 }, { okPeer with serial := 2 ^ 96 }].any Peer.wf) = false ∧
    ([{ okFlit with dest := 65536 }, { okFlit with source := 65536 }, { okFlit with age := 2 ^ 64 },
      { okFlit with payload := List.replicate 257 0 }, { okFlit with type := 256 }, { okFlit with op := 256 },
      { okFlit with length := 2 ^ 25 }, { okFlit with offset := 2 ^ 35 }, { okFlit with chunk := 2 ^ 24 }].any Flit.wf) = false ∧
    ([{ okLink with serial := 2 ^ 96 }, { okLink with firstUp := 2 ^ 64 }, { okLink with neighbours := [65536] },
      { okLink with edge := 65536 }].any LinkState.wf) = false ∧
    ([FaultCause.dramUncorrectable 0 65536 0, .dramUncorrectable 0 0 (2 ^ 32)].any FaultCause.wf) = false ∧
    EccReport.wf (.uncorrectable 0 (2 ^ 32)) = false ∧ RowDiff.wf ⟨0, List.replicate 4097 0, true⟩ = false ∧
    ([Doorbell.light 0 65536, .trigger 512 0, .trigger 0 (2 ^ 32)].any Doorbell.wf) = false := by decide

theorem test_ill_formed_0 :
    ([Instr.inputBelowRange (2 ^ 32) 0, .inputBelowRange 0 (2 ^ 64), .inputValid (2 ^ 32) 0, .inputValid 0 (2 ^ 64),
      .inputOvervoltage (2 ^ 32) 0, .inputOvervoltage 0 (2 ^ 64), .inputVoltageEvent (2 ^ 32) 0, .inputVoltageEvent 0 (2 ^ 64),
      .resetNAsserted (2 ^ 64) 0, .resetNAsserted 0 (2 ^ 64), .coldReset (2 ^ 64), .resetToBoot (2 ^ 64), .bootComplete (2 ^ 64),
      .ringJoin true true (2 ^ 64), .ringJoinTimeout (2 ^ 64), .railOutOfTolerance .vbus (2 ^ 63) 0,
      .railOutOfTolerance .vbus 0 (2 ^ 64), .droopDetected 0 (2 ^ 64), .droopRecovered 0 (2 ^ 64), .thermalEvaluation (2 ^ 63) 0,
      .thermalEvaluation 0 (2 ^ 64), .thermalLimit 0 (2 ^ 63) 0, .thermalLimit 0 0 (2 ^ 64), .dramRefreshAdjust 0 (2 ^ 63) 0,
      .dramRefreshAdjust 0 0 (2 ^ 64), .ppsInEdge (2 ^ 64), .refInChange .valid (2 ^ 64),
      .faultEntry (.stageSramUncorrectable (2 ^ 32)) 0, .faultEntry (.firmwareWatchdog 0) (2 ^ 64), .faultReset (2 ^ 64),
      .arrayIslandFault 0 (2 ^ 8) 0, .arrayIslandFault 0 0 (2 ^ 64), .stateRequestPrepare { okReq with source := 65536 },
      .drainExitComplete (2 ^ 64), .drainExitTimeout (2 ^ 64), .stateRequestRun { okReq with source := 65536 }, .curtainOpen (2 ^ 64),
      .curtainSwitchComplete .ring (2 ^ 64), .stateRequestDrain { okReq with source := 65536 },
      .stateRequestTest { okReq with source := 65536 }, .testComplete true (2 ^ 32) 0 0, .testComplete true 0 (2 ^ 32) 0,
      .testComplete true 0 0 (2 ^ 64), .resetRequest { okReq with source := 65536 }].any Instr.wf) = false := by decide

theorem test_ill_formed_1 :
    ([Instr.mgmtLinkDown 0 (2 ^ 64), .mgmtLinkUp 0 (2 ^ 16) 0, .mgmtLinkUp 0 0 (2 ^ 64),
      .ringFrameReceived 0 { okRing with hop := 65536 } 0, .ringFrameReceived 0 okRing (2 ^ 64),
      .cycleFrameExchange 0 { okRing with hop := 65536 } 0, .cycleFrameExchange 0 okRing (2 ^ 64), .cycleSend (2 ^ 64),
      .outputImageLatch (2 ^ 64), .inputImageApply (2 ^ 64), .missedCycle (2 ^ 64), .read { okReq with source := 65536 } 0 0,
      .read okReq (2 ^ 16) 0, .read okReq 0 (2 ^ 16), .write { okReq with source := 65536 } 0 0 [], .write okReq (2 ^ 16) 0 [],
      .write okReq 0 (2 ^ 16) [], .write okReq 0 0 (List.replicate 1397 0), .openSession { okReq with source := 65536 } 0 0 0,
      .openSession okReq (2 ^ 512) 0 0, .openSession okReq 0 (2 ^ 128) 0, .openSession okReq 0 0 (2 ^ 8),
      .auth { okReq with source := 65536 } 0 0, .auth okReq (2 ^ 32) 0, .auth okReq 0 (2 ^ 512), .close { okReq with source := 65536 },
      .sessionExpiry (2 ^ 32) 0, .sessionExpiry 0 (2 ^ 64), .downloadInit { okReq with source := 65536 } 0 0 0 0 0 0,
      .downloadInit okReq (2 ^ 16) 0 0 0 0 0, .downloadInit okReq 0 (2 ^ 16) 0 0 0 0, .downloadInit okReq 0 0 (2 ^ 64) 0 0 0,
      .downloadInit okReq 0 0 0 (2 ^ 256) 0 0, .downloadInit okReq 0 0 0 0 (2 ^ 16) 0, .downloadInit okReq 0 0 0 0 0 (2 ^ 16),
      .segment { okReq with source := 65536 } 0 0 [], .segment okReq (2 ^ 16) 0 [], .segment okReq 0 (2 ^ 64) [],
      .segment okReq 0 0 (List.replicate 1385 0), .ack { okReq with source := 65536 } 0 0, .ack okReq (2 ^ 16) 0,
      .ack okReq 0 (2 ^ 64), .ackTimer (2 ^ 16) 0, .ackTimer 0 (2 ^ 64)].any Instr.wf) = false := by decide

theorem test_ill_formed_2 :
    ([Instr.downloadEnd { okReq with source := 65536 } 0, .downloadEnd okReq (2 ^ 16),
      .uploadInit { okReq with source := 65536 } 0 0 0, .uploadInit okReq (2 ^ 16) 0 0, .uploadInit okReq 0 (2 ^ 16) 0,
      .uploadInit okReq 0 0 (2 ^ 16), .uploadEnd { okReq with source := 65536 } 0, .uploadEnd okReq (2 ^ 16),
      .transferAbort { okReq with source := 65536 } 0 0, .transferAbort okReq (2 ^ 16) 0, .transferAbort okReq 0 (2 ^ 32),
      .transferTimeout (2 ^ 16) 0, .transferTimeout 0 (2 ^ 64), .imageLoadCheck 0 (2 ^ 64), .firmwareSlotVerify 0 (2 ^ 64),
      .scanContentVerify (2 ^ 64), .ruleCommit { okReq with source := 65536 } 0, .ruleCommit okReq (2 ^ 16),
      .modelCommit { okReq with source := 65536 } 0, .modelCommit okReq (2 ^ 16), .commitCancel { okReq with source := 65536 } .rule,
      .commitTakesEffect (2 ^ 64), .accessionRetire .rule (2 ^ 64), .retirementOverdue .rule (2 ^ 64),
      .forceRetireModel { okReq with source := 65536 }, .forceRetireRule { okReq with source := 65536 },
      .stageRequest { okReq with source := 65536 } 0 0, .stageRequest okReq 0 (2 ^ 8), .stagingComplete 0 (2 ^ 64),
      .installListStart 0 (2 ^ 64), .installComplete 0 (2 ^ 64), .erase { okReq with source := 65536 } 0,
      .regionCommit { okReq with source := 65536 }, .cyclicCommit { okReq with source := 65536 },
      .discardStaged { okReq with source := 65536 } 0, .discardStaged okReq (2 ^ 8), .saveConfiguration { okReq with source := 65536 },
      .saveComplete (2 ^ 64), .restoreDefaults { okReq with source := 65536 }, .ringMasterRoleWrite { okReq with source := 65536 } 0,
      .ringMasterRoleWrite okReq (2 ^ 8), .clockSourceWrite { okReq with source := 65536 } 0, .clockSourceWrite okReq (2 ^ 8),
      .evtOutFunctionWrite { okReq with source := 65536 } 0 0].any Instr.wf) = false := by decide

theorem test_ill_formed_3 :
    ([Instr.evtOutFunctionWrite okReq (2 ^ 16) 0, .evtOutFunctionWrite okReq 0 (2 ^ 16),
      .ringStorageWrite { okReq with source := 65536 } 0 0 0 0, .ringStorageWrite okReq 0 0 (2 ^ 16) 0,
      .ringStorageWrite okReq 0 0 0 (2 ^ 32), .queueBindingWrite { okReq with source := 65536 } 0 0 0,
      .queueBindingWrite okReq (2 ^ 16) 0 0, .queueBindingWrite okReq 0 (2 ^ 16) 0, .queueBindingWrite okReq 0 0 (2 ^ 16),
      .shaperWrite { okReq with source := 65536 } 0 0 0, .shaperWrite okReq (2 ^ 16) 0 0, .shaperWrite okReq 0 (2 ^ 16) 0,
      .shaperWrite okReq 0 0 (2 ^ 32), .holdPoolShareApply (2 ^ 64), .hostKeySlotWrite { okReq with source := 65536 } 0 0,
      .hostKeySlotWrite okReq 0 (2 ^ 512), .linkUp 0 (2 ^ 64), .frameReceived 0 (List.replicate 9605 0) true 0,
      .frameReceived 0 [] true (2 ^ 64), .frameSequenced 0 (2 ^ 64) 0, .frameSequenced 0 0 (2 ^ 64), .packetClassified (2 ^ 64),
      .ecpriStreamExpire 0 (2 ^ 8) 0 0, .ecpriStreamExpire 0 0 (2 ^ 16) 0, .ecpriStreamExpire 0 0 0 (2 ^ 64),
      .catalogueLookup (2 ^ 64), .bucketFetchComplete (2 ^ 64) 0, .bucketFetchComplete 0 (2 ^ 64), .sweeperVisit (2 ^ 64),
      .rehashRequest { okReq with source := 65536 }, .migrationVisit (2 ^ 64), .probe { okReq with source := 65536 },
      .probeDelete { okReq with source := 65536 }, .catalogueClear { okReq with source := 65536 }, .treeVectorEntry 0 (2 ^ 64) 0,
      .treeVectorEntry 0 0 (2 ^ 64), .treeVerdict 0 (2 ^ 64), .treeBankTimeout 0 (2 ^ 64), .tapRowsWritten 0 (2 ^ 64),
      .reorderRelease 0 (2 ^ 64), .reorderTimeout 0 (2 ^ 64), .schedulerSelect 0 (2 ^ 64), .frameTransmitted 0 (2 ^ 64),
      .neuralVerdictApply (2 ^ 64)].any Instr.wf) = false := by decide

theorem test_ill_formed_4 :
    ([Instr.holdTimeout (2 ^ 64) 0, .holdTimeout 0 (2 ^ 64), .listStart 0 (2 ^ 64), .preEmption 0 (2 ^ 64),
      .urgentPreEmption 0 (2 ^ 64), .listResume 0 (2 ^ 64), .skewResume 0 (2 ^ 64), .nop 0 (.understudy 256) 0, .nop 0 .agree (2 ^ 64),
      .shelve 0 (.understudy 256) 0, .shelve 0 .agree (2 ^ 64), .stage 0 (.understudy 256) 0, .stage 0 .agree (2 ^ 64),
      .stream 0 (.understudy 256) 0, .stream 0 .agree (2 ^ 64), .streamComplete 0 (2 ^ 64) 0 0 0, .streamComplete 0 0 (2 ^ 64) 0 0,
      .streamComplete 0 0 0 (2 ^ 64) 0, .streamComplete 0 0 0 0 (2 ^ 64), .drain 0 (.understudy 256) none 0,
      .drain 0 .agree (some ⟨512, [], false⟩) 0, .drain 0 .agree none (2 ^ 64), .drainComplete 0 (2 ^ 64) 0,
      .drainComplete 0 0 (2 ^ 64), .arbitrationComplete 0 (List.replicate 4097 0) 0, .arbitrationComplete 0 [] (2 ^ 64),
      .arbitrationTimeout 0 (2 ^ 64), .swap 0 (.understudy 256) 0, .swap 0 .agree (2 ^ 64), .tapFlush 0 (.understudy 256) 0,
      .tapFlush 0 .agree (2 ^ 64), .tapRelease 0 (.understudy 256) 0, .tapRelease 0 .agree (2 ^ 64),
      .emitVerdict 0 (.understudy 256) 0, .emitVerdict 0 .agree (2 ^ 64), .emitTensor 0 (.understudy 256) 0,
      .emitTensor 0 .agree (2 ^ 64), .emitMarker 0 (.understudy 256) 0, .emitMarker 0 .agree (2 ^ 64), .callslip 0 (.understudy 256) 0,
      .callslip 0 .agree (2 ^ 64), .slipComplete (2 ^ 64) ⟨0, []⟩ 0, .slipComplete 0 ⟨256, []⟩ 0, .slipComplete 0 ⟨0, []⟩ (2 ^ 64)].any Instr.wf) = false := by decide

theorem test_ill_formed_5 :
    ([Instr.operationTimeout (2 ^ 64) 0, .operationTimeout 0 (2 ^ 64), .wait 0 (.understudy 256) 0, .wait 0 .agree (2 ^ 64),
      .waitComplete 0 (2 ^ 64), .signal 0 (.understudy 256) 0, .signal 0 .agree (2 ^ 64),
      .cueLightSignal { okReq with source := 65536 } 0 0, .cueLightSignal okReq 0 (2 ^ 16), .cueLightTriggerFire 0 (2 ^ 64),
      .fence 0 (.understudy 256) 0, .fence 0 .agree (2 ^ 64), .fenceComplete 0 (2 ^ 64), .loop 0 (.understudy 256) 0,
      .loop 0 .agree (2 ^ 64), .endloop 0 (.understudy 256) 0, .endloop 0 .agree (2 ^ 64), .call 0 (.understudy 256) 0,
      .call 0 .agree (2 ^ 64), .ret 0 (.understudy 256) 0, .ret 0 .agree (2 ^ 64), .restart 0 (.understudy 256) 0,
      .restart 0 .agree (2 ^ 64), .mark 0 (.understudy 256) 0, .mark 0 .agree (2 ^ 64), .unmark 0 (.understudy 256) 0,
      .unmark 0 .agree (2 ^ 64), .hold 0 (.understudy 256) 0, .hold 0 .agree (2 ^ 64), .holdComplete 0 (2 ^ 64),
      .postCue { okReq with source := 65536 } 0 0 [], .postCue okReq 0 0 (List.replicate 33 0),
      .fire { okReq with source := 65536 } 0 0, .fire okReq 0 (2 ^ 32), .clockTriggerFire 0 (2 ^ 64),
      .doorbellReceived (2 ^ 16) (.light 0 0) 0, .doorbellReceived 0 (.light 2048 0) 0, .doorbellReceived 0 (.light 0 0) (2 ^ 64),
      .pendingFiringAppend 0 (2 ^ 64), .governorAdmit (2 ^ 64) 0, .governorAdmit 0 (2 ^ 64), .rampUpComplete 0 (2 ^ 64),
      .rampDownStart 0 (2 ^ 64) 0, .rampDownStart 0 0 (2 ^ 64)].any Instr.wf) = false := by decide

theorem test_ill_formed_6 :
    ([Instr.rampDownComplete 0 (2 ^ 64), .clearFallback { okReq with source := 65536 }, .fabLinkUp 0 { okPeer with port := 256 } 0,
      .fabLinkUp 0 okPeer (2 ^ 64), .fabLinkFailed 0 .quiet (2 ^ 64), .flitReceived 0 { okFlit with linkSeq := 4096 } true true 0,
      .flitReceived 0 okFlit true true (2 ^ 64), .linkStateUpdate { okLink with module := 65536 } 0, .linkStateUpdate okLink (2 ^ 64),
      .remoteRead ⟨65536, false⟩ 0 0 0, .remoteRead ⟨0, false⟩ (2 ^ 64) 0 0, .remoteRead ⟨0, false⟩ 0 (2 ^ 64) 0,
      .remoteRead ⟨0, false⟩ 0 0 (2 ^ 64), .remoteWrite ⟨65536, false⟩ 0 [] 0, .remoteWrite ⟨0, false⟩ (2 ^ 64) [] 0,
      .remoteWrite ⟨0, false⟩ 0 (List.replicate 4097 0) 0, .remoteWrite ⟨0, false⟩ 0 [] (2 ^ 64), .remoteFetchAdd ⟨65536, false⟩ 0 0 0,
      .remoteFetchAdd ⟨0, false⟩ (2 ^ 64) 0 0, .remoteFetchAdd ⟨0, false⟩ 0 (2 ^ 64) 0, .remoteFetchAdd ⟨0, false⟩ 0 0 (2 ^ 64),
      .remoteCompareSwap ⟨65536, false⟩ 0 0 0 0, .remoteCompareSwap ⟨0, false⟩ (2 ^ 64) 0 0 0,
      .remoteCompareSwap ⟨0, false⟩ 0 (2 ^ 64) 0 0, .remoteCompareSwap ⟨0, false⟩ 0 0 (2 ^ 64) 0,
      .remoteCompareSwap ⟨0, false⟩ 0 0 0 (2 ^ 64), .timestampExchange 0 (2 ^ 63) 0 0 0, .timestampExchange 0 0 (2 ^ 16) 0 0,
      .timestampExchange 0 0 0 (2 ^ 16) 0, .timestampExchange 0 0 0 0 (2 ^ 64), .holdover (2 ^ 64), .grandmasterElection (2 ^ 64),
      .sourceConflict (2 ^ 16) 0, .sourceConflict 0 (2 ^ 64), .patrolRead (.uncorrectable 65536 0) 0, .patrolRead .clean (2 ^ 64),
      .imbalanceWindow [2 ^ 64] 0, .imbalanceWindow [] (2 ^ 64), .fabricResidualCheck (2 ^ 64), .peek { okReq with source := 65536 },
      .scrubPassStart (2 ^ 64), .scrubPassEnd .front [2 ^ 64] 0, .scrubPassEnd .front [] (2 ^ 64),
      .clearReplacementFlag { okReq with source := 65536 }].any Instr.wf) = false := by decide

theorem test_ill_formed_7 :
    ([Instr.scanRequest { okReq with source := 65536 } 0, .scanRequest okReq (2 ^ 16), .fieldScanStart 0 (2 ^ 64),
      .fieldScanComplete 0 true (2 ^ 32) 0 0, .fieldScanComplete 0 true 0 (2 ^ 32) 0, .fieldScanComplete 0 true 0 0 (2 ^ 64),
      .samplingStrobe (2 ^ 64), .hostMark { okReq with source := 65536 } 0, .hostMark okReq (2 ^ 16),
      .hostUnmark { okReq with source := 65536 } 0, .hostUnmark okReq (2 ^ 16), .hangDeclared 0 (2 ^ 64),
      .freezeRequest { okReq with source := 65536 } 0, .freezeRequest okReq (2 ^ 64), .freeze (2 ^ 64), .dumpWritten (2 ^ 64),
      .hangDumpClear { okReq with source := 65536 }, .ownerKeyHashConfirm { okReq with source := 65536 } 0,
      .ownerKeyHashConfirm okReq (2 ^ 256), .enforcementProgram { okReq with source := 65536 } 0, .enforcementProgram okReq (2 ^ 8),
      .raiseCounter { okReq with source := 65536 } 0, .raiseCounter okReq (2 ^ 8),
      .activateFirmwareSlot { okReq with source := 65536 } 0, .activateFirmwareSlot okReq (2 ^ 8),
      .confirmFirmware { okReq with source := 65536 }, .attestationNonce { okReq with source := 65536 } 0,
      .attestationNonce okReq (2 ^ 256), .attestationReportReady (2 ^ 64), .debugToken { okReq with source := 65536 } [],
      .debugToken okReq (List.replicate 257 0), .debugRelock { okReq with source := 65536 }, .linkDown 0 (2 ^ 64),
      .stageComplete 0 (2 ^ 64), .shelveComplete 0 (2 ^ 64), .emitComplete 0 (2 ^ 64), .doorbellAccepted (2 ^ 64) 0,
      .doorbellAccepted 0 (2 ^ 64), .resetNRises (2 ^ 64), .ppsOutput (2 ^ 64), .evtOutPulseEnd (2 ^ 64), .debugPortInstruction (2 ^ 8)].any Instr.wf) = false := by decide

/-! ## Small states -/

/-- The machine of reset, in another device state. -/
def inState (d : DevState) : State := { State.reset with dev := { st := d } }

/-- It has ring address 5. -/
def served (d : DevState) : State := (inState d).put 0x1803 0 5

/-- It stands on the ring, both links up. -/
def onRing : State := { served .run with mgmt := { link0 := true, link1 := true, joined := true }, pwr := { gateRing := true } }

/-- The session of the authenticated requests below. -/
def session1 : Session :=
  { sid := 1, slot := 0, hostKey := 1, ownKey := 2, hostNonce := 3, ownNonce := 4, authed := true, bootstrap := false, key := [], highest := none, seen := [], last := 0 }

/-- The session is open. -/
def trusted (d : DevState) : State := { served d with odp := { sessions := [session1] } }

/-- An acyclic request to ring address 5, without a trailer. -/
def ask : Req := ⟨true, 3, 9, 5, 1, none, 5, false⟩

/-- The same with the trailer of the session. -/
def sealed (svc idx sub : Nat) (data : Bytes) : Req :=
  { ask with trailer := some ⟨1, 1, tagOf [] (authBytes svc ask idx sub data ⟨1, 1, 0⟩)⟩ }

/-- The sealed request of a WRITE of a value. -/
def sealedWrite (idx sub v : Nat) : Req :=
  sealed svcWrite idx sub (natLe ((objRow? idx sub).elim 0 fun row => tySize row.ty) v)

/-- A ring frame of a cycle. -/
def frame1 : RingFrame := ⟨0x88B5, 2, 1, false, 3, 7, 9, 1, natLe 8 1 ++ natLe 8 50 ++ [1, 2, 3]⟩

/-- A model in slot 0. -/
def model1 : Model := { slot := 0, acc := 1 }

/-- An answer of another request. -/
def answer1 : Answer := ⟨3, 1, 9, 1, 0x1000, 0, 0, [], false⟩

/-- A transfer in progress: a download of three bytes of which two have come. -/
def download1 : Transfer :=
  { tid := 1, upload := false, idx := 0xA030, sub := 0, sid := 1, size := 3, sha := 0, seg := 256, window := 1, content := [1, 2], acked := 0,
    sent := 0, unacked := 2, lastSeg := some 0, last := 0 }

/-- In RUN, all four line ports up. -/
def linked : State := { (inState .run) with line := Vector.replicate 4 { up := true } }

/-- A frame in an egress queue. -/
def item1 : QItem := ⟨List.replicate 60 0, none, 0, true, 0, 0⟩

/-- A packet of line port 0. -/
def pkt1 : Pkt := { pid := 1, port := 0, seq := 0, pipe := 0, stamp := 0, ra := 0, ma := 1, bytes := List.replicate 60 0, inBurst := true }

/-- One packet, in a stage of its way, oldest of port 0. -/
def withPkt (p : Pkt) : State :=
  { (inState .run).put 0x3001 1 1 with pkts := [p], line := Vector.replicate 4 { up := true, window := [1] } }


/-- A list that stands at a cue of its called body. -/
def list1 : Run :=
  { ring := 0, start := 0, launched := false, acc := 1, lw0 := 0, lw1 := 0x200, evt := 0, pos := .body 0,
    restart := { pos := .body 0, stack := [], front := 0 }, last := .body 0 }

/-- Array 0 runs a list that stands at the cue of these words. -/
def atCue (ws : List Nat) : State :=
  ((inState .run).modArr 0 fun x => { x with run := some list1 }).cueWrite 0 0 (mkCue ws 0)

/-- The same with the list changed. -/
def atCueOf (ws : List Nat) (f : Run → Run) : State := (atCue ws).modRun 0 f

/-- Word 0 of a cue of accession 1. -/
def w0 (op flags : Nat) : Nat := op + flags * 256 + 65536

/-- Ring 0 of array 0, enabled, holds this cue and nothing else. -/
def inRing (ws : List Nat) : State :=
  ((((inState .run).put 0x5100 6 1).put 0x5100 2 16).append 0 0 (mkCue ws 0)).put 0x5100 8 0

/-- An operation outstanding in the fabric. -/
def op1 : FabOp :=
  { id := 1, array := 0, line := 0, opcode := 1, length := 64, remote := 4 * 2 ^ 35, second := 64, result := 0, wings := false, a := 0, b := 0,
    tag := 0, ordered := false, async := true, light := none, sent := some 0 }

/-- A call slip: READ of 64 bytes of module 3 into the wings. -/
def slip1 : Bytes :=
  let b := [1, 0x40, 0, 0] ++ natLe 4 64 ++ natLe 8 (3 * 2 ^ 35) ++ natLe 8 128 ++ List.replicate 36 0
  b ++ natLe 4 (Hash.crc32c b).toNat

/-- A job of the tap: a flow vector for descriptor 0. -/
def job1 : TapJob := { pipe := 0, pid := 1, desc := 0, port := 0, seq := 0, ra := 0, ma := 1, bytes := [], parsed := {}, quant := [], held := false }

/-- Descriptor 0 taps flow vectors of 64 bytes, four to a buffer; one job waits. -/
def tapping : State :=
  { inState .run with
    intake := { bank := { objs := [(objKey 0x3900 1, 3), (objKey 0x3900 4, 64), (objKey 0x3900 5, 4)] }, tapQ := [job1] } }

/-- A DRAIN of one element, after the words of its destination. -/
def drained (ws : List Nat) : State :=
  (atCue ws).modArr 0 fun x =>
    { x with bank0 := { opened := true, fp := true, cells := [[0x3F800000]] }, bank1 := { opened := true, fp := true, cells := [[0x3F800000]] } }

/-- A packet of the catalogue's path at its lookup. -/
def hitPkt : Pkt := { pkt1 with stage := .lookup, action := 2 ^ 90 }

/-- Its lookup, every bucket of its key in the cache with the entry `e`. -/
def cached (e : Nat) : State :=
  let s := (withPkt hitPkt).put 0x4010 2 1
  { s with cat := { cache := (s.candidates 0 (s.flowKey 0 hitPkt)).map fun b => ⟨b, [e, 0, 0, 0], false, false⟩ } }

/-- The same for a probe. -/
def probed (e : Nat) : State :=
  let s := (served .run)
  { s with cat := { cache := s.probeKey.buckets.map fun b => ⟨b, [e, 0, 0, 0], false, false⟩ } }

/-- An IEEE 1588 event message over Ethernet, from the other port of the pair. -/
def ptpItem : QItem := ⟨List.replicate 12 0 ++ [0x88, 0xF7, 0, 2] ++ natBe 2 44 ++ List.replicate 42 0, some 1, 1, true, 0, 0⟩

/-- A bank whose only rule takes every frame of profile 0 to queue 0. -/
def ruleBank : Bank := { State.reset.intake.bank with rules := [(0, { pv := 128 })] }

/-- An IPv4 frame whose header has a wrong version. -/
def badFrame : Bytes := List.replicate 12 0 ++ [8, 0, 0x55] ++ List.replicate 45 0

/-- A rehash under way; bucket 0 and the new pair of its one entry, of the old epoch, lie in the hot cache. -/
def migrating : State :=
  let s := ((inState .run).put 0x400C 0 1).put 0x400F 0 1
  let e := newEntry 0 0 0 pkt1
  let s := { s with cat := { newSeeds := some (1, 2) } }
  let p := s.learnPair (entryFlow e).1 (entryFlow e).2
  { s with cat := { s.cat with cache := [0, p.1, p.2].map fun b => ⟨b, if b = 0 then [e, 0, 0, 0] else [0, 0, 0, 0], false, false⟩ } }

/-! ## The worked examples of the manual, and steps of single commands -/

/-- The command answers a next state of which the property holds. -/
def after (c : Instr) (s : State) (p : State → Bool) : Bool :=
  match exec c s with | .next u => p u | _ => false

/-- The frame of the worked example of spec/02_intake.md: four blocks of width 9, exponents 5, 5, 5 and 6. -/
def ecpriFrame : Bytes :=
  List.replicate 12 2 ++ [0x81, 0x00, 0xE0, 0x00, 0xAE, 0xFE, 0x10, 0x00, 0x00, 0x7E, 0x0A, 0x31, 0x5C, 0x80, 0x10, 0x07, 0x00, 0x15,
    0x01, 0x20, 0x00, 0x04, 0x91, 0x00, 0x05, 0xF9, 0x8A, 0x80] ++ List.replicate 24 0 ++ (0x05 :: List.replicate 27 0) ++
    (0x05 :: List.replicate 27 0) ++ (0x06 :: List.replicate 27 0)

/-- Five layers, all ending by byte 35; message type 0, id 0x0A31, Sequence ID 0x5C. -/
theorem test_parse_ecpri :
    let p := parseFrame State.reset.intake.bank ecpriFrame
    p.layers.length = 5 ∧ p.finish = 36 ∧ p.mal = 0 ∧ p.ecpri = some (0, 0x0A31, 0x5C, 0x80) := by decide

/-- Tags 0xC to 0xF, the scale words 0x1805 and 0x1E06, and the mantissas −13 and 42 of the first row. -/
theorem test_tap_rows :
    let b : Bank := { objs := [(objKey 0x390C 1, 1), (objKey 0x390C 5, 4)] }
    let p := parseFrame State.reset.intake.bank ecpriFrame
    let rows := tapRowsOf b { job1 with desc := 12, bytes := ecpriFrame, parsed := p }
    rows.map (·.tag) = [0xC, 0xD, 0xE, 0xF] ∧ rows.map (·.scale) = [some 0x1805, some 0x1A05, some 0x1C05, some 0x1E06] ∧
      (rows.head?.map fun r => r.data.take 4) = some [0xF3, 0xFF, 0x2A, 0x00] := by decide

/-- Queue 0x0214 of the worked example of spec/11_egress.md: rate 1,000 Mb/s, burst 3,000 bytes. -/
def queue214 (now : Nat) (t : Int) (t0 : Nat) : State :=
  let s := ((inState .run).put 0x7104 0x215 1000).put 0x7105 0x215 3000
  { s with clock := { s.clock with elapsed := now }, egr := { s.egr with tokens := [(0x214, some (t * 65536, t0))] } }

/-- Credit of 40 µs is capped at the burst; a frame of 1,000 bytes counts 1,020 and leaves 1,980; 0.125 byte a nanosecond. -/
theorem test_credit :
    (queue214 40000 0 0).tokensNow 0x214 = 3000 * 65536 ∧
    ((queue214 40000 0 0).spend 0x214 ((queue214 40000 0 0).counted 1 (List.replicate 996 0))).tokensNow 0x214 = 1980 * 65536 ∧
    (queue214 8640 (-1020) 480).tokensNow 0x214 = 0 ∧ (queue214 8640 (-1020) 480).allows 0x214 = true ∧
    (queue214 8639 (-1020) 480).allows 0x214 = false := by decide +kernel

/-- 1/3 times 0.1 in three passes (spec/05_numbers.md): the halves, and the bank after each pass. -/
theorem test_three_passes :
    let a := Num.split32 (Num.fp32.decode 0x3EAAAAAB)
    let b := Num.split32 (Num.fp32.decode 0x3DCCCCCD)
    let code (x : Num.FV) : Nat := (Num.fp32.encode .nearest false x).1
    let p1 := Num.macFp32 0 a.1 b.1
    let p2 := Num.macFp32 p1.1 a.2.1 b.1
    let p3 := Num.macFp32 p2.1 a.1 b.2.1
    code a.1 = 0x3EAAA000 ∧ code a.2.1 = 0x38AAC000 ∧ code b.1 = 0x3DCCC000 ∧ code b.2.1 = 0x37CCC000 ∧
      [p1.1, p2.1, p3.1].map (Num.fp32.decode ·) = [.fin false 8943480 (-28), .fin false 8945665 (-28), .fin false 8947848 (-28)] := by
  decide

/-- FP64 by slicing with one element flushed (spec/05_numbers.md). -/
theorem test_slices :
    let x (v : Num.FV) := aligned64 (some 1) v
    let y (v : Num.FV) := aligned64 (some 10) v
    let sl (v : Int) := [slice64 v 1, slice64 v 2, slice64 v 3, slice64 v 4]
    sl (x (.fin false 3 0)) = [12288, 0, 0, 0] ∧ sl (x (.fin true 5 (-52))) = [0, 0, 0, -20] ∧ x (.fin false 1 (-56)) = 0 ∧
      sl (y (.fin false 3 (-2))) = [6, 0, 0, 0] ∧ sl (y (.fin false 1 10)) = [8192, 0, 0, 0] ∧
      product64 (slicePairs false) (x (.fin false 3 0)) (y (.fin false 3 (-2))) +
        product64 (slicePairs false) (x (.fin true 5 (-52))) (y (.fin false 1 10)) = 9 * 2 ^ 97 - 5 * 2 ^ 57 := by decide

/-- Record 0x0105 of the worked example of spec/06_quantisation.md, its step 11 at shift −2. -/
def rec105 : Rec := { img := 0x60000000 + 30 * 2 ^ 32 + 2 ^ 48, cur := 0x7E, step := 11, acc := some 1 }

/-- The tie goes to the even code, 127.465 takes the top code, 127.5 clips, −128.004 takes −128; then the step closes at shift −1. -/
theorem test_rescale :
    let c : DrainCue := { (default : DrainCue) with fmt := 0, record := true }
    let cells := [768, 21754, 21760, -21846].map (integerRoute c [] (some rec105) (-10) 0)
    let r := ((rec105.gather cells).closeStep 0 fun _ => []).1
    cells.map (fun x => (x.code % 256, x.clip)) = [(0x04, false), (0x7F, false), (0x7F, true), (0x80, false)] ∧
      r.tag * 512 + r.cur = 0x187F := by decide

/-- Record 0x0032 of the second worked example, in step 5. -/
def rec32 : Rec :=
  { img := 2 ^ 44 + 1 * 2 ^ 42 + 2 * 2 ^ 48 + 2 * 2 ^ 52 + 65 * 2 ^ 64, cur := 1, step := 5, hist := [0x40C00000, 0x40A00000], acc := some 1,
    smax := 0x41B00000, clips := 3, elems := 512 }

/-- Two steps over the threshold: shift 3, then the bell grid at shift 6 (scale words 0x0C03 and 0x0E86). -/
theorem test_fallback :
    let pairs (g : Nat) := if g = 0xB then Num.bg4Pairs else []
    let r6 := (rec32.closeStep 3 pairs).1
    let r7 := ({ r6 with smax := 0x428C0000, clips := 2, elems := 512 } : Rec).closeStep 3 pairs
    r6.tag * 512 + r6.cur = 0x0C03 ∧ r6.run = 1 ∧ r7.1.tag * 512 + r7.1.cur = 0x0E86 ∧ r7.2.2 = true := by decide

/-- 70, 20 and −3 on the bell grid at shift 6. -/
theorem test_bell_grid :
    ([Num.FV.fin false 35 (-5), .fin false 5 (-4), .fin true 3 (-6)].map fun x => (Num.gridStore .bg4 Num.bg4Pairs x).1) = [7, 3, 8] := by decide

/-- The model of the worked example of spec/04_trees.md. -/
def model52 : Model :=
  { nodes := [(0x20000, 0x00207), (0x20001, 0x1030C), (0x20002, 0x0030C), (0x20003, 0x1050C), (0x20004, 0x0021E), (0x20005, 0x0041E)]
    leaves := [(0x20000, 0x3A00), (0x20001, 0xB800), (0x20002, 0x3D00), (0x20003, 0xBC00), (0x20004, 0x3400), (0x20005, 0x3800),
      (0x20006, 0x3000), (0x20007, 0xB600)] }

/-- Its ensemble 3: depth 2, C = 1, logistic, P2 to TB2, two trees, cuts 0.5 and 0.9, base score −0.5. -/
def ens3 : Nat := 2 + 0x11 * 2 ^ 8 + 0x20 * 2 ^ 24 + 2 * 2 ^ 48 + 2 * 2 ^ 96 + 0xBF000000 * 2 ^ 128 + 0x3F000000 * (2 ^ 192 * 2 ^ 192) + 0x3F666666 * (2 ^ 192 * 2 ^ 224)

/-- F7 = 2, F12 missing, F30 = 3. -/
def vector3 : List (Bool × Nat) := (((List.replicate 256 (true, 0)).set 7 (false, 2)).set 12 (true, 0)).set 30 (false, 3)

/-- Codes of 8.0 and 700.0; the leaves +1.25 and +0.125; z = 0.875. -/
theorem test_trees :
    binCode [0x40000000, 0x41000000, 0x42480000] (.fin false 1 3) = 2 ∧
    binCode [0x43000000, 0x43800000, 0x44000000, 0x44800000, 0x44BDE000] (.fin false 175 2) = 3 ∧
    ensBanks ens3 2 = [2] ∧ treeLeaf model52 ens3 2 0 vector3 = (Num.fp16.decode 0x3D00, 0) ∧
    treeLeaf model52 ens3 2 1 vector3 = (Num.fp16.decode 0x3000, 0) ∧
    (classScores model52 ens3 [2] vector3).map (fun x => (Num.fp32.encode .nearest false x).1) = [0x3F600000] := by decide

/-- The object map's worked example: priority of ring 5 of A11, period of trigger 40, tap 12's trigger; A12 of a DW12-LC is absent. -/
theorem test_objects :
    (objRow? 0x51B5 3).isSome = true ∧ (objRow? 0x5228 5).isSome = true ∧ (objRow? 0x5400 0x12D).isSome = true ∧
    (objRow? 0x390C 9).isSome = true ∧ (objRow? 0x7109 0x215).isSome = true ∧
    after (.read ask 0x501C 3) { served .run with mfg := { grade := .dw12lc } }
      (fun u => u.odp.history.head?.map (·.abort) == some 0x02000003) = true := by decide

/-- The output image of spec/14_dictionary_map.md: entry 0x7109_1508 maps 0x7109:15, eight bytes. -/
theorem test_mapping :
    after (.write ask 0x1820 1 (natLe 4 0x71091508)) (served .run) (fun u => u.odp.history.head?.map (·.abort) == some 0) = true := by decide

/-- Image 0x0A17 belongs to counter 7 (spec/17_trust.md). -/
theorem test_model_counter : modelCounter 0x0A17 = 7 ∧ modelCounter 0x0A53 = 7 := by decide

/-- Slot 1 of bucket 0x3A7C2 of the worked example of spec/03_catalogue.md, in the hot cache. -/
def aged (hit age : Nat) : State :=
  { inState .run with cat := { sweep := 0x3A7C2,
                               cache := [⟨0x3A7C2, [0, reparity ((4 + hit * 2 + age) * (2 ^ 250 * 2 ^ 251)), 0, 0], false, false⟩] } }

/-- A visit clears hit and age of an entry that was hit, ages one that was not, and removes one that was aged. -/
theorem test_sweeper :
    after (.sweeperVisit 1000000000000) (aged 1 0) (fun u => (u.bucket 0x3A7C2).map (fun e => (entryValid e, entryHit e, entryAge e)) ==
      [(false, false, false), (true, false, false), (false, false, false), (false, false, false)]) = true ∧
    after (.sweeperVisit 1000000000000) (aged 0 0) (fun u => (u.bucket 0x3A7C2).map (fun e => (entryValid e, entryAge e)) ==
      [(false, false), (true, true), (false, false), (false, false)]) = true ∧
    after (.sweeperVisit 1000000000000) (aged 0 1) (fun u => (u.bucket 0x3A7C2).map entryValid == [false, false, false, false]) = true := by decide

/-- CRC-32C of "123456789": its published check value. -/
theorem test_crc32c : Hash.crc32c [0x31, 0x32, 0x33, 0x34, 0x35, 0x36, 0x37, 0x38, 0x39] = 0xE3069283#32 := by decide

/-- SHA-256 of "abc" (FIPS 180-4). -/
theorem test_sha256 :
    beNat (Hash.sha256 [0x61, 0x62, 0x63]) = 0xBA7816BF8F01CFEA414140DE5DAE2223B00361A396177A9CB410FF61F20015AD := by decide +kernel

/-- Accessions wrap: 0x0001 is newer than 0xFFFF, and not the reverse (R279). -/
theorem test_newer : newer 0x0001 0xFFFF = true ∧ newer 0xFFFF 0x0001 = false := by decide

/-- INPUT_OVERVOLTAGE: above 62.0 V the module enters FAULT (R482); 62.0 V is within. -/
theorem test_overvoltage :
    after (.inputOvervoltage 62001 5) (inState .run) (fun u => u.dev.st == .fault) = true ∧
    after (.inputOvervoltage 62000 5) (inState .run) (fun u => u.dev.st == .run) = true := by decide

/-- BOOT after ring join. -/
def bootJoined : State := { served .boot with mgmt := { joined := true } }

/-- In BOOT only ODP-1 READ of the 0x1000 range is served, all else is refused with 0x0800_0010 (R381); the product code is 0x0000_D716 (R8). -/
theorem test_boot_requests :
    after (.write ask 0x1803 0 [6, 0]) bootJoined (fun u => u.odp.history.head?.map (·.abort) == some 0x08000010) = true ∧
    after (.read ask 0x1020 1) bootJoined (fun u => u.odp.history.head?.map (·.abort) == some 0x08000010) = true ∧
    after (.read { ask with gen := 1 } 0x1020 1) bootJoined
      (fun u => (u.odp.history.head?.map fun a => (a.abort, a.data)) == some (0, [0x16, 0xD7, 0, 0])) = true := by decide


/-! ## How a request reaches its service in these states -/

/-- The state in which a request that is not discarded looks at its object. -/
def reached (s : State) (svc : Nat) (r : Req) (idx sub : Nat) (data : Bytes) : State :=
  ((s.at r.t).authenticate svc r idx sub data).getD s

/-- The conditions of State.Admits, computed. -/
def admitted (s : State) (svc : Nat) (r : Req) (idx sub : Nat) (data : Bytes) : Bool :=
  (s.at r.t).servesOdp && (s.at r.t).addressed r.target && ((s.at r.t).authenticate svc r idx sub data).isSome &&
  ((reached s svc r idx sub data).odp.history.find? fun a => a.isOf r).isNone &&
  ((reached s svc r idx sub data).checkFrame svc r idx).isNone

theorem admits_of {s : State} {svc : Nat} {r : Req} {idx sub : Nat} {data : Bytes} (h : admitted s svc r idx sub data = true) :
    s.Admits svc r idx sub data (reached s svc r idx sub data) := by
  simp only [admitted, Bool.and_eq_true, Option.isNone_iff_eq_none] at h
  obtain ⟨⟨⟨⟨h1, h2⟩, h3⟩, h4⟩, h5⟩ := h
  refine ⟨h1, h2, ?_, h4, h5⟩
  obtain ⟨u, hu⟩ := Option.isSome_iff_exists.mp h3
  simp [reached, hu]

/-- The conditions of State.Writable, computed. -/
def writable (s : State) (r : Req) (idx sub v : Nat) : Bool :=
  let data := natLe ((objRow? idx sub).elim 0 fun row => tySize row.ty) v
  admitted s svcWrite r idx sub data &&
  ((reached s svcWrite r idx sub data).checkWrite ((reached s svcWrite r idx sub data).inSession r idx) idx sub data).toOption.isSome

theorem writable_of {s : State} {r : Req} {idx sub v : Nat} (h : writable s r idx sub v = true) :
    s.Writable r idx sub v
      (reached s svcWrite r idx sub (natLe ((objRow? idx sub).elim 0 fun row => tySize row.ty) v)) := by
  simp only [writable, Bool.and_eq_true] at h
  exact ⟨admits_of h.1, h.2⟩

theorem some_of {α : Type} {e : Option α} (h : e.isSome = true) : e = some (e.get h) := by simp

/-- The value of a computation that succeeds. -/
def valueOf {ε α : Type} (e : Except ε α) (h : e.toOption.isSome = true) : α := e.toOption.get h

theorem ok_of {ε α : Type} {e : Except ε α} (h : e.toOption.isSome = true) : e = .ok (valueOf e h) := by
  cases e with
  | ok x => rfl
  | error x => cases h

theorem error_of {ε α : Type} {e : Except ε α} (h : e.toOption.isNone = true) : ∃ x, e = .error x := by
  cases e with
  | ok x => cases h
  | error x => exact ⟨x, rfl⟩

/-! ## A sealed request, whatever its tag is -/

/-- The state in which the sealed request looks at its object. -/
def opened (s : State) : State :=
  { s.at 5 with odp := { (s.at 5).odp with sessions := setSession (s.at 5).odp.sessions (session1.accept 1 (s.at 5).now) } }

/-- The conditions of State.Admits for a sealed request, but for its tag. -/
def opens (s : State) (svc idx sub : Nat) (data : Bytes) : Bool :=
  (s.at 5).servesOdp && (s.at 5).addressed 5 && decide ((s.at 5).odp.sessions = [session1]) && decide ((s.at 5).now < 60000000000) &&
  ((opened s).odp.history.find? fun a => a.isOf (sealed svc idx sub data)).isNone &&
  ((opened s).checkFrame svc (sealed svc idx sub data) idx).isNone

theorem sealed_bytes (svc idx sub c : Nat) (data : Bytes) :
    authBytes svc (sealed svc idx sub data) idx sub data ⟨1, 1, c⟩ = authBytes svc ask idx sub data ⟨1, 1, 0⟩ := by
  simp only [authBytes, sealed]

theorem sealed_trailer (svc idx sub : Nat) (data : Bytes) :
    (sealed svc idx sub data).trailer = some ⟨1, 1, tagOf [] (authBytes svc ask idx sub data ⟨1, 1, 0⟩)⟩ := rfl

theorem sealed_opens {s : State} {svc idx sub : Nat} {data : Bytes} (hs : (s.at 5).odp.sessions = [session1])
    (hn : (s.at 5).now < 60000000000) :
    (s.at 5).authenticate svc (sealed svc idx sub data) idx sub data = some (opened s) := by
  have hl : (s.at 5).now < session1.last + 60000000000 := by rw [show session1.last = 0 from rfl, Nat.zero_add]; exact hn
  have hf : ∀ x : Session, x = session1 → ([x].find? fun x => decide (x.sid = 1)) = some x := by
    intro x hx
    subst hx
    decide
  unfold State.authenticate
  rw [sealed_trailer]
  simp only [hs, hf session1 rfl, sealed_bytes]
  rw [show session1.authed = true from rfl, show session1.counterOk 1 = true from rfl, show session1.key = [] from rfl]
  simp only [hl, decide_true, Bool.and_true, if_true, opened, hs]

theorem admits_sealed {s : State} {svc idx sub : Nat} {data : Bytes} (h : opens s svc idx sub data = true) :
    s.Admits svc (sealed svc idx sub data) idx sub data (opened s) := by
  simp only [opens, Bool.and_eq_true, Option.isNone_iff_eq_none, decide_eq_true_eq] at h
  obtain ⟨⟨⟨⟨⟨h1, h2⟩, h3⟩, h4⟩, h5⟩, h6⟩ := h
  exact ⟨h1, h2, sealed_opens h3 h4, h5, h6⟩

/-- The conditions of State.Writable for a sealed request, but for its tag. -/
def openWrite (s : State) (idx sub v : Nat) : Bool :=
  let data := natLe ((objRow? idx sub).elim 0 fun row => tySize row.ty) v
  opens s svcWrite idx sub data &&
  ((opened s).checkWrite ((opened s).inSession (sealed svcWrite idx sub data) idx) idx sub data).toOption.isSome

theorem writable_sealed {s : State} {idx sub v : Nat} (h : openWrite s idx sub v = true) :
    s.Writable (sealedWrite idx sub v) idx sub v (opened s) := by
  simp only [openWrite, Bool.and_eq_true] at h
  exact ⟨admits_sealed h.1, h.2⟩
/-! ## Buckets in the cache, whatever the hash functions are -/

theorem way_of {s : State} {bs d : List Nat} (hc : s.cat.cache = bs.map fun b => ⟨b, d, false, false⟩) {b : Nat} (hb : b ∈ bs) :
    s.way? b = some ⟨b, d, false, false⟩ := by
  unfold State.way?
  rw [hc]
  clear hc
  induction bs with
  | nil => cases hb
  | cons a as ih =>
    by_cases h : a = b
    · subst h; simp
    · have : b ∈ as := by simpa [Ne.symm h] using hb
      simpa [h] using ih this

theorem bucket_of {s : State} {bs d : List Nat} (hc : s.cat.cache = bs.map fun b => ⟨b, d, false, false⟩) {b : Nat} (hb : b ∈ bs) :
    s.bucket b = d := by simp [State.bucket, way_of hc hb]

theorem all_cached {s : State} {bs d : List Nat} (hc : s.cat.cache = bs.map fun b => ⟨b, d, false, false⟩) {P : Nat → Bool}
    (hd : d.all P = true) : (bs.all fun b => (s.way? b).isSome && (s.bucket b).all P) = true := by
  rw [List.all_eq_true]
  intro b hb
  rw [bucket_of hc hb, way_of hc hb, hd]
  rfl

theorem all_buckets {s : State} {bs d : List Nat} (hc : s.cat.cache = bs.map fun b => ⟨b, d, false, false⟩) {P : Nat → Bool}
    (hd : d.all P = true) : (bs.all fun b => (s.bucket b).all P) = true := by
  rw [List.all_eq_true]
  intro b hb
  rw [bucket_of hc hb, hd]

theorem hot_of {s : State} {bs d : List Nat} (hc : s.cat.cache = bs.map fun b => ⟨b, d, false, false⟩)
    (hd : (d.all fun e => !entryValid e || parityOk e) = true) : s.hotSound bs = true := all_cached hc hd

theorem blocked_of {s : State} {b : Nat} {bs : List Nat} (hw : s.cat.waiting = [⟨.sweep b, false⟩]) (hb : b ∈ bs) :
    s.catBlocked bs = true := by simp [State.catBlocked, hw, State.opBuckets, hb]

theorem candidates_cons (s : State) (profile key : Nat) :
    ∃ b bs, s.candidates profile key = b :: bs := by
  unfold State.candidates
  cases s.cat.newSeeds with
  | none => exact ⟨_, _, List.eraseDups_cons⟩
  | some n => exact ⟨_, _, List.eraseDups_cons⟩

theorem head_candidate (s : State) (profile key : Nat) : (s.candidates profile key).headD 0 ∈ s.candidates profile key := by
  obtain ⟨b, bs, hb⟩ := candidates_cons s profile key
  simp [hb]

theorem found_of {s : State} {profile key : Nat} {d : List Nat}
    (hc : s.cat.cache = (s.candidates profile key).map fun b => ⟨b, d, false, false⟩) (hd : (findSlot profile key d 0).isSome = true) :
    ∃ x, s.findEntry profile key (s.candidates profile key) = some x := by
  obtain ⟨b, bs, hb⟩ := candidates_cons s profile key
  obtain ⟨i, hi⟩ := Option.isSome_iff_exists.mp hd
  have h := bucket_of hc (b := b) (by simp [hb])
  exact ⟨(b, i), by rw [hb, State.findEntry, h, hi]⟩

theorem unfound_of {s : State} {profile key : Nat} {bs d : List Nat}
    (hc : s.cat.cache = bs.map fun b => ⟨b, d, false, false⟩) (hd : findSlot profile key d 0 = none) :
    s.findEntry profile key bs = none := by
  have : ∀ l, (∀ b ∈ l, b ∈ bs) → s.findEntry profile key l = none := by
    intro l
    induction l with
    | nil => intro _; rfl
    | cons b l ih =>
      intro h
      have hb := bucket_of hc (h b (by simp))
      rw [State.findEntry, hb, hd]
      exact ih fun x hx => h x (by simp [hx])
  exact this bs fun _ h => h

theorem placed_of {s : State} {profile key : Nat} {d : List Nat} (hn : s.cat.newSeeds = none)
    (hc : s.cat.cache = (s.candidates profile key).map fun b => ⟨b, d, false, false⟩) (hd : (freeSlot d).isSome = true) :
    ∃ x, s.place (s.learnPair profile key) = some x ∧ x.1 ∈ s.candidates profile key := by
  obtain ⟨i, hi⟩ := Option.isSome_iff_exists.mp hd
  have e : s.learnPair profile key = hashPair s.cat.seeds profile key := by simp [State.learnPair, hn]
  have h1 := bucket_of hc (b := (hashPair s.cat.seeds profile key).1) (by simp [State.candidates, hn])
  have h2 := bucket_of hc (b := (hashPair s.cat.seeds profile key).2) (by simp [State.candidates, hn])
  refine ⟨((hashPair s.cat.seeds profile key).1, i), ?_, by simp [State.candidates, hn]⟩
  rw [e]
  simp [State.place, h1, h2, hi]

theorem uncached_any {s : State} {profile key : Nat} (hc : s.cat.cache = []) :
    ((s.candidates profile key).any fun b => (s.way? b).isNone) = true := by
  obtain ⟨b, bs, hb⟩ := candidates_cons s profile key
  simp [hb, State.way?, hc]

theorem cached_cache (e : Nat) :
    (cached e).cat.cache =
      ((cached e).candidates (actProfile hitPkt.action) ((cached e).flowKey (actProfile hitPkt.action) hitPkt)).map
        fun b => ⟨b, [e, 0, 0, 0], false, false⟩ := rfl

theorem served_cache (e idx sub : Nat) :
    (reached (probed e) svcRead ask idx sub []).cat.cache =
      ((reached (probed e) svcRead ask idx sub []).probeKey.buckets).map fun b => ⟨b, [e, 0, 0, 0], false, false⟩ := rfl

theorem probed_cache (e : Nat) :
    (reached (probed e) svcWrite ask 0x4020 4 (natLe ((objRow? 0x4020 4).elim 0 fun row => tySize row.ty) 1)).cat.cache =
      ((reached (probed e) svcWrite ask 0x4020 4 (natLe ((objRow? 0x4020 4).elim 0 fun row => tySize row.ty) 1)).probeKey.buckets).map
        fun b => ⟨b, [e, 0, 0, 0], false, false⟩ := rfl

/-! ## A migration whatever the hash functions are -/

theorem way_at {s : State} {bs : List Nat} {f : Nat → CacheWay} (hf : ∀ b, (f b).bucket = b) (hc : s.cat.cache = bs.map f) {b : Nat} (hb : b ∈ bs) :
    s.way? b = some (f b) := by
  unfold State.way?
  rw [hc]
  clear hc
  induction bs with
  | nil => cases hb
  | cons a as ih =>
    by_cases h : a = b
    · subst h; simp [hf]
    · have : b ∈ as := by simpa [Ne.symm h] using hb
      simpa [hf, h] using ih this

/-- A pair both of whose buckets have a free slot takes an entry. -/
theorem place_of {s : State} {p : Nat × Nat} (h : ∀ b, b = p.1 ∨ b = p.2 → (freeSlot (s.bucket b)).isSome = true) : ∃ x, s.place p = some x := by
  have k : ∀ b, b = p.1 ∨ b = p.2 → ∃ x, ((freeSlot (s.bucket b)).map fun i => (b, i)) = some x := fun b hb => by
    obtain ⟨i, hi⟩ := Option.isSome_iff_exists.mp (h b hb)
    exact ⟨(b, i), by rw [hi]; rfl⟩
  unfold State.place
  split
  · exact k _ (.inr rfl)
  · exact k _ (.inl rfl)

/-- The entry that `migrating` holds, its new pair, and the ways of the hot cache. -/
def oldEntry : Nat := newEntry 0 0 0 pkt1
def newPair : Nat × Nat := migrating.learnPair (entryFlow oldEntry).1 (entryFlow oldEntry).2
def migrWay (b : Nat) : CacheWay := ⟨b, if b = 0 then [oldEntry, 0, 0, 0] else [0, 0, 0, 0], false, false⟩

theorem migrating_cache : migrating.cat.cache = [0, newPair.1, newPair.2].map migrWay := rfl

theorem migrating_buckets : migrating.migrateBuckets 0 = [0, newPair.1, newPair.2].eraseDups := rfl

theorem migrating_hot : migrating.hotSound (migrating.migrateBuckets 0) = true := by
  unfold State.hotSound
  rw [List.all_eq_true]
  intro b hb
  rw [migrating_buckets, List.mem_eraseDups] at hb
  have h := way_at (f := migrWay) (fun _ => rfl) migrating_cache hb
  simp only [State.bucket, h, Option.isSome_some, Bool.true_and, migrWay]
  split <;> decide

theorem migrating_bucket : migrating.bucket 0 = [oldEntry, 0, 0, 0] := rfl

/-- The ways after the entry is freed. -/
def freedWay (b : Nat) : CacheWay := if b = 0 then ⟨b, [freed oldEntry, 0, 0, 0], true, true⟩ else migrWay b

theorem freed_cache : (migrating.setEntry 0 0 (freed oldEntry)).cat.cache = [0, newPair.1, newPair.2].map freedWay := rfl

theorem migrating_place : ∃ x, (migrating.setEntry 0 0 (freed oldEntry)).place newPair = some x := by
  refine place_of fun b hb => ?_
  have h := way_at (f := freedWay) (fun b => by by_cases h : b = 0 <;> simp [freedWay, h, migrWay]) freed_cache (b := b)
    (by rcases hb with rfl | rfl <;> simp)
  simp only [State.bucket, h, freedWay]
  by_cases h0 : b = 0
  · subst h0; decide
  · simp only [if_neg h0, migrWay]; decide

theorem migrating_old : (migrating.bucket migrating.cat.migr).filter migrating.oldEpoch = [oldEntry] := by decide +kernel

theorem migrating_index : (migrating.bucket migrating.cat.migr).findIdx migrating.oldEpoch = 0 := by decide +kernel

theorem migrating_next :
    ∃ x, (migrating.setEntry migrating.cat.migr ((migrating.bucket migrating.cat.migr).findIdx migrating.oldEpoch) (freed oldEntry)).place
      (migrating.learnPair (entryFlow oldEntry).1 (entryFlow oldEntry).2) = some x ∧ migrating.get 0x400F 0 ≤ 1 := by
  obtain ⟨x, h⟩ := migrating_place
  rw [migrating_index]
  exact ⟨x, h, by decide⟩

/-! ## The hypotheses of each statement can be met -/

/-- States and operands that meet the hypotheses of each clause of InputLimits. -/
theorem witness_InputLimits :
    (∃ (s : State) (mv t : Nat),
      mv < 36000 ∧ s.dev.st ≠ .off) ∧
    (∃ (s : State) (mv t : Nat),
      38000 < mv ∧ s.dev.st = .off) ∧
    (∃ (s : State) (mv t : Nat),
      62000 < mv ∧ s.dev.st ≠ .off ∧ s.dev.st ≠ .fault) :=
  ⟨⟨inState .run, 35999, 5, by decide, by decide⟩,
   ⟨inState .off, 38001, 5, by decide, by decide⟩,
   ⟨inState .run, 62001, 5, by decide, by decide, by decide⟩⟩

/-- States and operands that meet the hypotheses of each clause of SupplyCommands. -/
theorem witness_SupplyCommands :
    (∃ (s : State) (mv t : Nat),
      s.canonical = true ∧ s.dev.st ≠ .off ∧ 36000 ≤ mv ∧ mv ≤ 62000 ∧ s.pwr.outOfBand = (decide (mv < 40000) || decide (60000 < mv))) ∧
    (∃ (s : State) (mv t : Nat),
      s.canonical = true ∧ s.dev.st ≠ .off ∧ 36000 ≤ mv ∧ mv ≤ 62000 ∧ s.pwr.outOfBand = !(decide (mv < 40000) || decide (60000 < mv))) ∧
    (∃ (s : State) (rail : Rail) (mv : Int) (t : Nat),
      railOut rail mv = true ∧ s.railCounts rail = true ∧ s.dev.st ≠ .off ∧ s.dev.st ≠ .fault) ∧
    (∃ (s : State) (rail : Rail) (mv : Int) (t : Nat),
      (railOut rail mv = false ∨ s.railCounts rail = false ∨ s.dev.st = .off)) :=
  ⟨⟨inState .run, 50000, 5, by decide, by decide, by decide, by decide, by decide⟩,
   ⟨inState .run, 62000, 5, by decide, by decide, by decide, by decide, by decide⟩,
   ⟨inState .run, .vcore, 811, 5, by decide, by decide, by decide, by decide⟩,
   ⟨inState .run, .vcore, 810, 5, by decide⟩⟩

/-- States and operands that meet the hypotheses of each clause of ResetCommands. -/
theorem witness_ResetCommands :
    (∃ (s : State) (lowNs t : Nat),
      500 ≤ lowNs ∧ s.dev.st ≠ .off ∧ s.dev.st ≠ .reset) ∧
    (∃ (s : State) (t : Nat),
      s.pwr.resetN = false ∧ s.pwr.coldPending = false ∧ s.dev.st ≠ .off ∧ s.dev.st ≠ .reset) ∧
    (∃ (s : State) (t : Nat),
      s.pwr.coldPending = true) ∧
    (∃ (s : State) (t : Nat),
      s.pwr.coldPending = false) ∧
    (∃ (s : State) (t : Nat),
      s.dev.st = .fault ∧ s.dev.noFaultReset = false ∧ s.flag 0x2003 0 = true ∧ s.obs.freeze = none) :=
  ⟨⟨inState .run, 500, 5, by decide, by decide, by decide⟩,
   ⟨{ inState .run with pwr := { resetN := false } }, 5, by decide, by decide, by decide, by decide⟩,
   ⟨{ inState .reset with pwr := { coldPending := true } }, 5, by decide⟩,
   ⟨inState .reset, 5, by decide⟩,
   ⟨inState .fault, 5, by decide, by decide, by decide, by decide⟩⟩

/-- States and operands that meet the hypotheses of each clause of BootCommands. -/
theorem witness_BootCommands :
    (∃ (s : State) (t : Nat),
      s.dev.st = .reset ∧ s.pwr.resetN = true ∧ s.pwr.railsGood = true ∧ s.pwr.coldPending = false ∧ s.flash.onTrial = false ∧ s.slotBoots s.flash.preferred = true ∧ s.flash.preferred ≤ 1 ∧ s.canonical = true ∧ s.dev.boot ≠ .cold ∧ s.LogSound ∧ s.regionBase 3 + s.regionSize 3 ≤ 2 ^ 35) ∧
    (∃ (s : State) (t : Nat),
      s.dev.st = .reset ∧ s.pwr.resetN = true ∧ s.pwr.railsGood = true ∧ s.pwr.coldPending = false ∧ s.flash.onTrial = false ∧ s.slotBoots s.flash.preferred = true ∧ s.flash.preferred ≤ 1 ∧ s.dev.boot = .cold) ∧
    (∃ (s : State) (t : Nat),
      s.dev.st = .reset ∧ s.pwr.resetN = true ∧ s.pwr.railsGood = true ∧ s.pwr.coldPending = false ∧ s.flash.onTrial = false ∧ s.slotBoots 0 = false ∧ s.slotBoots 1 = false ∧ s.flash.preferred ≤ 1) ∧
    (∃ (s : State) (t : Nat),
      s.dev.st = .boot ∧ s.get 0x2002 0 ≠ 4) ∧
    (∃ (s : State) (t : Nat),
      s.dev.st = .boot ∧ s.dev.boot = .cold ∧ s.get 0x2002 0 = 4 ∧ s.flash.savedModel.isSome = true ∧ s.flash.replacement = false ∧ s.pairMismatch = false) ∧
    (∃ (s : State) (up0 up1 : Bool) (t : Nat),
      s.dev.st.onRing = true ∧ s.mgmt.joined = false ∧ s.mgmt.retryAt = none ∧ s.pwr.vcgUp = true) ∧
    (∃ (s : State) (t : Nat),
      s.mgmt.joinStart.isSome = true ∧ s.mgmt.joinStart.getD 0 + 1000000000 ≤ (s.at t).now ∧ s.mgmt.joined = false) :=
  ⟨⟨{ State.reset with dev := { boot := .host }, flash := { slotA := factorySlot } }, 5, by decide, by decide, by decide, by decide, by decide, by decide, by decide, by decide, by decide, ⟨by decide, by decide, by decide, by decide⟩, by decide⟩,
   ⟨{ State.reset with flash := { slotA := factorySlot } }, 5, by decide, by decide, by decide, by decide, by decide, by decide, by decide, by decide⟩,
   ⟨{ State.reset with flash := { } }, 5, by decide, by decide, by decide, by decide, by decide, by decide, by decide, by decide⟩,
   ⟨(inState .boot).put 0x2002 0 3, 5, by decide, by decide⟩,
   ⟨{ inState .boot with flash := { savedModel := some (0, 1) } }, 5, by decide, by decide, by decide, by decide, by decide, by decide⟩,
   ⟨{ inState .prepare with pwr := { vcgUp := true } }, true, false, 5, by decide, by decide, by decide, by decide⟩,
   ⟨{ inState .prepare with mgmt := { joinStart := some 0 } }, 1000000000, by decide, by decide, by decide⟩⟩

/-- States and operands that meet the hypotheses of each clause of ThermalAndDroop. -/
theorem witness_ThermalAndDroop :
    (∃ (s : State) (region : Fin 17) (t : Nat),
      s.canonical = true ∧ s.pwr.railsGood = true ∧ (region.val = 16 ∨ s.hasArray region.val = true) ∧ s.pwr.droop.testBit region.val = false) ∧
    (∃ (s : State) (hottest : Int) (t : Nat),
      s.canonical = true ∧ s.dev.st = .run ∧ s.obj 0x9800 0 < 4 ∧ stepEnter (s.obj 0x9800 0 + 1) ≤ hottest) ∧
    (∃ (s : State) (hottest : Int) (t : Nat),
      s.canonical = true ∧ s.dev.st = .run ∧ 0 < s.obj 0x9800 0 ∧ s.obj 0x9800 0 ≤ 4 ∧ hottest < stepLeave (s.obj 0x9800 0)) ∧
    (∃ (s : State) (hottest : Int) (t : Nat),
      s.dev.st = .run ∧ s.obj 0x9800 0 ≤ 4 ∧ ((s.obj 0x9800 0 < 4 → hottest < stepEnter (s.obj 0x9800 0 + 1))) ∧ (0 < s.obj 0x9800 0 → stepLeave (s.obj 0x9800 0) ≤ hottest)) ∧
    (∃ (s : State) (sensor : Fin 29) (temp : Int) (t : Nat),
      1680 ≤ temp ∧ sensor.val < 28 ∧ s.dev.st ≠ .off ∧ s.dev.st ≠ .fault) ∧
    (∃ (s : State) (die : Fin 8) (temp : Int) (t : Nat),
      s.dev.st ≠ .off ∧ (1360 ≤ temp ∨ temp < 1312)) ∧
    (∃ (s : State) (die : Fin 8) (temp : Int) (t : Nat),
      s.dev.st ≠ .off ∧ 1312 ≤ temp ∧ temp < 1360) :=
  ⟨⟨inState .run, 16, 5, by decide, by decide, by decide, by decide⟩,
   ⟨inState .run, 1520, 5, by decide, by decide, by decide, by decide⟩,
   ⟨(inState .run).put 0x9800 0 4, 1599, 5, by decide, by decide, by decide, by decide, by decide⟩,
   ⟨(inState .run).put 0x9800 0 1, 1500, 5, by decide, by decide, by decide, by decide⟩,
   ⟨inState .run, 27, 1680, 5, by decide, by decide, by decide, by decide⟩,
   ⟨inState .run, 7, 1360, 5, by decide, by decide⟩,
   ⟨inState .run, 7, 1359, 5, by decide, by decide, by decide⟩⟩

/-- States and operands that meet the hypotheses of each clause of PinCommands. -/
theorem witness_PinCommands :
    (∃ (s : State) (t : Nat),
      s.canonical = true ∧ s.clockRuns = true ∧ s.get 0x2400 0 = 1 ∧ s.clock.ppsLocked = false ∧ s.clock.ppsNext = none) ∧
    (∃ (s : State) (t : Nat),
      s.clockRuns = true ∧ s.get 0x2400 0 = 1 ∧ s.clock.ppsLocked = true ∧ s.clock.ppsNext = none ∧ 3 ≤ (s.at t).now ∧ ((s.at t).now - 3) % 1000000000 ≤ 100000) ∧
    (∃ (s : State) (t : Nat),
      s.canonical = true ∧ s.clockRuns = true ∧ s.get 0x2400 0 = 1 ∧ s.clock.ppsLocked = true ∧ s.clock.ppsNext = none ∧ 3 ≤ (s.at t).now ∧ 100000 < ((s.at t).now - 3) % 1000000000 ∧ ((s.at t).now - 3) % 1000000000 < 999900000 ∧ s.clock.ppsBad < 2) ∧
    (∃ (s : State) (sig : RefSignal) (t : Nat),
      s.canonical = true ∧ s.clockRuns = true ∧ s.clock.refLocked = !(decide (sig = .valid))) ∧
    (∃ (s : State) (sig : RefSignal) (t : Nat),
      s.canonical = true ∧ s.clockRuns = true ∧ s.clock.refLocked = decide (sig = .valid)) ∧
    (∃ (s : State) (t : Nat),
      s.flag 0x8810 1 = true ∧ (s.at t).now % 1000000000 ≤ 5 ∧ s.dev.st ≠ .off ∧ s.dev.st ≠ .reset) ∧
    (∃ (s : State) (t : Nat),
      s.pwr.evtEnd.isSome = true ∧ s.pwr.evtEnd.getD 0 ≤ (s.at t).now) :=
  ⟨⟨(inState .run).put 0x2400 0 1, 1000000050, by decide, by decide, by decide, by decide, by decide⟩,
   ⟨{ (inState .run).put 0x2400 0 1 with clock := { ppsLocked := true } }, 1000100003, by decide, by decide, by decide, by decide, by decide, by decide⟩,
   ⟨{ (inState .run).put 0x2400 0 1 with clock := { ppsLocked := true } }, 1000100004, by decide, by decide, by decide, by decide, by decide, by decide, by decide, by decide, by decide⟩,
   ⟨inState .run, .valid, 5, by decide, by decide, by decide⟩,
   ⟨inState .run, .absent, 5, by decide, by decide, by decide⟩,
   ⟨(inState .run).put 0x8810 1 1, 1000000005, by decide, by decide, by decide, by decide⟩,
   ⟨{ inState .run with pwr := { evtOut := true, evtEnd := some 5 } }, 5, by decide, by decide⟩⟩

/-- States and operands that meet the hypotheses of each clause of FaultCommands. -/
theorem witness_FaultCommands :
    (∃ (s : State) (cause : FaultCause) (t : Nat),
      s.dev.st ≠ .off ∧ s.dev.st ≠ .fault) ∧
    (∃ (s : State) (cause : FaultCause) (t : Nat),
      s.canonical = true ∧ s.dev.st = .fault) ∧
    (∃ (s : State) (a : Fin 16) (source t : Nat),
      s.hasArray a.val = true ∧ (s.coresRun = true ∨ s.dev.st = .test) ∧ s.frozen = false ∧ (s.flag 0x8000 0 = true → a.val % 2 = 0)) :=
  ⟨⟨inState .run, .firmwareWatchdog 3, 5, by decide, by decide⟩,
   ⟨inState .fault, .firmwareWatchdog 3, 5, by decide, by decide⟩,
   ⟨inState .run, 15, 1, 5, by decide, by decide, by decide, by decide⟩⟩

/-- States and operands that meet the hypotheses of each clause of StateRequestCommands. -/
theorem witness_StateRequestCommands :
    (∃ (s : State) (r : Req),
      ∃ u, s.Writable r 0x2001 0 4 u ∧ u.dev.trans = .none ∧ u.dev.st = .prepare ∧ u.flash.replacement = false ∧ u.pairMismatch = false) ∧
    (∃ (s : State) (r : Req),
      ∃ u, s.Writable r 0x2001 0 4 u ∧ u.dev.trans = .none ∧ u.dev.st = .drain ∧ u.flash.replacement = false ∧ u.pairMismatch = false) ∧
    (∃ (s : State) (r : Req),
      ∃ u, s.Writable r 0x2001 0 3 u ∧ u.dev.trans = .none ∧ u.dev.st = .drain) ∧
    (∃ (s : State) (r : Req),
      ∃ u, s.Writable r 0x2001 0 5 u ∧ u.dev.trans = .none ∧ u.dev.st = .run) ∧
    (∃ (s : State) (r : Req),
      ∃ u, s.Writable r 0x2001 0 6 u ∧ u.dev.trans = .none ∧ u.dev.st = .prepare) ∧
    (∃ (s : State) (r : Req),
      ∃ u, s.Writable r 0x2001 0 0x5A u) :=
  ⟨⟨served .prepare, ask, _, writable_of (by decide), by decide, by decide, by decide, by decide⟩,
   ⟨served .drain, ask, _, writable_of (by decide), by decide, by decide, by decide, by decide⟩,
   ⟨served .drain, ask, _, writable_of (by decide), by decide, by decide⟩,
   ⟨served .run, ask, _, writable_of (by decide), by decide, by decide⟩,
   ⟨served .prepare, ask, _, writable_of (by decide), by decide, by decide⟩,
   ⟨served .test, ask, _, writable_of (by decide)⟩⟩

/-- States and operands that meet the hypotheses of each clause of TransitionCommands. -/
theorem witness_TransitionCommands :
    (∃ (s : State) (t : Nat),
      ∃ t0, s.dev.trans = .toRun t0 ∧ s.dev.st = .prepare ∧ s.pwr.vcgUp = true) ∧
    (∃ (s : State) (t : Nat),
      ∃ t0, s.dev.trans = .toPrepare t0 ∧ s.dev.st = .drain ∧ (s.at t).listsRunning = false) ∧
    (∃ (s : State) (t : Nat),
      ∃ t0, s.dev.trans = .toPrepare t0 ∧ s.dev.st = .drain ∧ t0 + s.get 0x2007 0 * 1000000 ≤ (s.at t).now) ∧
    (∃ (s : State) (pass : Bool) (pattern chains t : Nat),
      s.dev.st = .test) :=
  ⟨⟨{ State.reset with dev := { st := .prepare, trans := .toRun 0 } }, 5, 0, by decide, by decide, by decide⟩,
   ⟨{ State.reset with dev := { st := .drain, trans := .toPrepare 0 } }, 5, 0, by decide, by decide, by decide⟩,
   ⟨{ State.reset with dev := { st := .drain, trans := .toPrepare 0 } }, 100000000, 0, by decide, by decide, by decide⟩,
   ⟨inState .test, false, 1, 2, 5, by decide⟩⟩

/-- States and operands that meet the hypotheses of each clause of RingLinkCommands. -/
theorem witness_RingLinkCommands :
    (∃ (s : State) (i : Fin 2) (t : Nat),
      s.canonical = true ∧ s.mgmtLink i.val = true ∧ s.mgmt.joined = true) ∧
    (∃ (s : State) (i : Fin 2) (t : Nat),
      s.canonical = true ∧ s.mgmtLink i.val = true ∧ s.mgmt.joined = false) ∧
    (∃ (s : State) (i : Fin 2) (t : Nat),
      s.mgmtLink i.val = false) ∧
    (∃ (s : State) (i : Fin 2) (rate t : Nat),
      s.canonical = true ∧ s.pwr.gateRing = true ∧ s.mgmtLink i.val = false ∧ s.rateFits i.val rate = true ∧ s.mgmt.joined = true) ∧
    (∃ (s : State) (i : Fin 2) (rate t : Nat),
      s.canonical = true ∧ s.pwr.gateRing = true ∧ s.mgmtLink i.val = false ∧ s.rateFits i.val rate = true ∧ s.mgmt.joined = false) ∧
    (∃ (s : State) (i : Fin 2) (rate t : Nat),
      (s.pwr.gateRing = false ∨ s.mgmtLink i.val = true ∨ s.rateFits i.val rate = false)) ∧
    (∃ (s : State) (i : Fin 2) (f : RingFrame) (t : Nat),
      s.canonical = true ∧ s.mgmt.joined = true ∧ s.mgmtLink i.val = true ∧ (f.ethertype = 0x88B5 ∨ f.ethertype = 0x86DD) ∧ f.kind ≠ 2 ∧ f.hop + 1 ≤ 1024 ∧ (f.source = 0 ∨ f.source ≠ s.get 0x1803 0)) ∧
    (∃ (s : State) (i : Fin 2) (f : RingFrame) (t : Nat),
      s.canonical = true ∧ s.mgmt.joined = true ∧ s.mgmtLink i.val = true ∧ (f.ethertype = 0x88B5 ∨ f.ethertype = 0x86DD) ∧ 1024 ≤ f.hop ∧ (f.source = 0 ∨ f.source ≠ s.get 0x1803 0)) ∧
    (∃ (s : State) (i : Fin 2) (f : RingFrame) (t : Nat),
      s.canonical = true ∧ s.mgmt.joined = true ∧ s.mgmtLink i.val = true ∧ f.ethertype = 0x88B5 ∧ f.kind = 2 ∧ f.hop + 1 ≤ 1024 ∧ f.west = false ∧ s.mgmt.posEast ≠ some f.sequence ∧ (f.source = 0 ∨ f.source ≠ s.get 0x1803 0)) ∧
    (∃ (s : State) (i : Fin 2) (f : RingFrame) (t : Nat),
      (s.mgmt.joined = false ∨ s.mgmtLink i.val = false ∨ (f.kind ≠ 2 ∧ f.source ≠ 0 ∧ f.source = s.get 0x1803 0))) :=
  ⟨⟨onRing, 1, 5, by decide, by decide, by decide⟩,
   ⟨{ onRing with mgmt := { link1 := true } }, 1, 5, by decide, by decide, by decide⟩,
   ⟨{ onRing with mgmt := { link0 := true, joined := true } }, 1, 5, by decide⟩,
   ⟨{ onRing with mgmt := { joined := true, link0 := true } }, 1, 1000, 5, by decide, by decide, by decide, by decide, by decide⟩,
   ⟨{ inState .prepare with pwr := { gateRing := true } }, 1, 100, 5, by decide, by decide, by decide, by decide, by decide⟩,
   ⟨{ inState .prepare with pwr := { gateRing := true } }, 1, 10, 5, by decide⟩,
   ⟨onRing, 0, { frame1 with hop := 1023 }, 5, by decide, by decide, by decide, by decide, by decide, by decide, by decide⟩,
   ⟨onRing, 0, { frame1 with hop := 1024 }, 5, by decide, by decide, by decide, by decide, by decide, by decide⟩,
   ⟨onRing, 1, { frame1 with kind := 2, hop := 1023 }, 5, by decide, by decide, by decide, by decide, by decide, by decide, by decide, by decide, by decide⟩,
   ⟨onRing, 0, { frame1 with source := 5 }, 5, by decide⟩⟩

/-- States and operands that meet the hypotheses of each clause of CycleFrames. -/
theorem witness_CycleFrames :
    (∃ (s : State) (i : Fin 2) (f : RingFrame) (t : Nat),
      s.passes i f = true ∧ s.mgmt.cyclicDue = none ∧ Bits.le f.body 0 8 ≠ 0 ∧ Bits.fld (s.get 0x1822 1) 31 24 ≠ f.index ∧ (Bits.fld (s.get 0x1822 2) 31 24 ≠ f.index ∨ s.mapping 0x1821 = [])) ∧
    (∃ (s : State) (i : Fin 2) (f : RingFrame) (t : Nat),
      s.passes i f = true ∧ s.mgmt.cyclicDue = none ∧ Bits.le f.body 0 8 ≠ 0 ∧ Bits.fld (s.get 0x1822 1) 31 24 = f.index ∧ (Bits.fld (s.get 0x1822 2) 31 24 ≠ f.index ∨ s.mapping 0x1821 = [])) ∧
    (∃ (s : State) (i : Fin 2) (f : RingFrame) (t : Nat),
      s.passes i f = true ∧ s.mgmt.cyclicDue = none ∧ Bits.le f.body 0 8 ≠ 0 ∧ Bits.fld (s.get 0x1822 2) 31 24 = f.index ∧ s.mapping 0x1821 ≠ [] ∧ s.mgmt.cycle.number ≠ f.sequence ∧ (s.at t).now ≤ Bits.le f.body 8 8 ∧ Bits.le f.body 8 8 ≠ 0) ∧
    (∃ (s : State) (i : Fin 2) (f : RingFrame) (t : Nat),
      s.canonical = true ∧ s.passes i f = true ∧ s.mgmt.cyclicDue = none ∧ Bits.le f.body 0 8 ≠ 0 ∧ Bits.fld (s.get 0x1822 2) 31 24 = f.index ∧ s.mapping 0x1821 ≠ [] ∧ s.mgmt.cycle.number ≠ f.sequence ∧ Bits.le f.body 8 8 < (s.at t).now ∧ Bits.le f.body 8 8 ≠ 0) ∧
    (∃ (s : State) (i : Fin 2) (f : RingFrame) (t : Nat),
      s.passes i f = true ∧ s.mgmt.cyclicDue = none ∧ Bits.le f.body 0 8 = 0 ∧ s.mgmt.cycle.number ≠ f.sequence ∧ s.mapping 0x1821 = []) ∧
    (∃ (s : State) (i : Fin 2) (f : RingFrame) (t : Nat),
      s.mgmt.joined = true ∧ s.mgmtLink i.val = true ∧ f.hop + 1 ≤ 1024 ∧ s.flag 0x1805 0 = true ∧ f.source = s.get 0x1803 0 ∧ s.mgmt.stopped = false) ∧
    (∃ (s : State) (i : Fin 2) (f : RingFrame) (t : Nat),
      s.mgmt.joined = true ∧ s.mgmtLink i.val = true ∧ f.hop + 1 ≤ 1024 ∧ s.flag 0x1805 0 = true ∧ f.source ≠ s.get 0x1803 0 ∧ (s.at t).hearsMaster = false ∧ s.mgmt.cyclicDue = none ∧ Bits.le f.body 0 8 ≠ 0 ∧ s.mapping 0x1821 = []) :=
  ⟨⟨onRing, 0, frame1, 5, by decide, by decide, by decide, by decide, by decide⟩,
   ⟨onRing.put 0x1822 1 0x01000000, 0, frame1, 5, by decide, by decide, by decide, by decide, by decide⟩,
   ⟨(((onRing.put 0x1822 1 0x02000000).put 0x1822 2 0x01000000).put 0x1821 0 1).put 0x1821 1 0x88220004, 0, { frame1 with index := 1 }, 5, by decide, by decide, by decide, by decide, by decide, by decide, by decide, by decide⟩,
   ⟨(((onRing.put 0x1822 1 0x02000000).put 0x1822 2 0x01000000).put 0x1821 0 1).put 0x1821 1 0x88220004, 0, { frame1 with index := 1 }, 51, by decide, by decide, by decide, by decide, by decide, by decide, by decide, by decide, by decide⟩,
   ⟨onRing, 0, { frame1 with body := natLe 8 0 ++ natLe 8 0 }, 5, by decide, by decide, by decide, by decide, by decide⟩,
   ⟨onRing.put 0x1805 0 1, 0, { frame1 with source := 5 }, 5, by decide, by decide, by decide, by decide, by decide, by decide⟩,
   ⟨onRing.put 0x1805 0 1, 0, { frame1 with source := 4 }, 5, by decide, by decide, by decide, by decide, by decide, by decide, by decide, by decide, by decide⟩⟩

/-- States and operands that meet the hypotheses of each clause of CyclicCommands. -/
theorem witness_CyclicCommands :
    (∃ (s : State) (t : Nat),
      s.flag 0x1805 0 = true ∧ s.mgmt.stopped = false ∧ s.mgmt.joined = true ∧ s.get 0x1807 0 ≤ (s.at t).now ∧ s.mgmt.nextCycle ≤ ((s.at t).now - s.get 0x1807 0) / s.cyclePeriod) ∧
    (∃ (s : State) (t : Nat),
      (s.flag 0x1805 0 = false ∨ s.mgmt.stopped = true ∨ s.mgmt.joined = false ∨ (s.at t).now < s.get 0x1807 0 ∨ ((s.at t).now - s.get 0x1807 0) / s.cyclePeriod < s.mgmt.nextCycle)) ∧
    (∃ (s : State) (t : Nat),
      s.mgmt.joined = true ∧ (s.at t).latchDue = true ∧ s.mgmt.cyclicDue = none ∧ (∀ e ∈ s.mapping 0x1820, isMeasured e.1 = false)) ∧
    (∃ (s : State) (t : Nat),
      s.mgmt.joined = true ∧ (s.at t).latchDue = true ∧ s.mgmt.cyclicDue = none) ∧
    (∃ (s : State) (t : Nat),
      ∃ m, s.mgmt.cyclicDue = some m ∧ s.mgmt.joined = true ∧ (s.at t).latchDue = true) ∧
    (∃ (s : State) (t : Nat),
      (s.mgmt.joined = false ∨ (s.at t).latchDue = false)) ∧
    (∃ (s : State) (t : Nat),
      ∃ x, s.mgmt.inSlot = some x ∧ x.ak ≤ (s.at t).now ∧ s.mapping 0x1821 = []) ∧
    (∃ (s : State) (t : Nat),
      ∃ x, s.mgmt.inSlot = some x ∧ x.ak ≤ (s.at t).now ∧ s.get 0x1821 0 = 1 ∧ s.get 0x1821 1 = 0x88220004 ∧ s.flag 0x1808 0 = false ∧ s.canonical = true) ∧
    (∃ (s : State) (t : Nat),
      ∃ x, s.mgmt.inSlot = some x ∧ (s.at t).now < x.ak) ∧
    (∃ (s : State) (t : Nat),
      s.canonical = true ∧ s.mgmt.joined = true ∧ s.cycleBase + 2 * s.cyclePeriod ≤ (s.at t).now ∧ s.mgmt.missedAt + s.cyclePeriod ≤ (s.at t).now) ∧
    (∃ (s : State) (t : Nat),
      (s.mgmt.joined = false ∨ (s.at t).now < s.cycleBase + 2 * s.cyclePeriod ∨ (s.at t).now < s.mgmt.missedAt + s.cyclePeriod)) :=
  ⟨⟨{ (onRing.put 0x1805 0 1) with mgmt := { joined := true, link0 := true, link1 := true, masterIn := [[1], [2]] } }, 5, by decide, by decide, by decide, by decide, by decide⟩,
   ⟨onRing, 5, by decide⟩,
   ⟨onRing, 5, by decide, by decide, by decide, by decide⟩,
   ⟨onRing, 5, by decide, by decide, by decide⟩,
   ⟨{ onRing with mgmt := { onRing.mgmt with cyclicDue := some [] } }, 5, _, some_of (by decide), by decide, by decide⟩,
   ⟨served .run, 5, by decide⟩,
   ⟨{ onRing with mgmt := { onRing.mgmt with inSlot := some ⟨5, [1]⟩ } }, 5, _, some_of (by decide), by decide, by decide⟩,
   ⟨{ ((onRing.put 0x1821 0 1).put 0x1821 1 0x88220004) with mgmt := { onRing.mgmt with inSlot := some ⟨5, [1, 2, 3, 4]⟩ } }, 5, _, some_of (by decide), by decide, by decide, by decide, by decide, by decide⟩,
   ⟨{ onRing with mgmt := { onRing.mgmt with inSlot := some ⟨6, [1]⟩ } }, 5, _, some_of (by decide), by decide⟩,
   ⟨onRing, 2000000, by decide, by decide, by decide, by decide⟩,
   ⟨onRing, 5, by decide⟩⟩

/-- States and operands that meet the hypotheses of each clause of ReadAndWrite. -/
theorem witness_ReadAndWrite :
    (∃ (s : State) (r : Req) (idx sub : Nat),
      ∃ u, s.Admits svcRead r idx sub [] u ∧ ∃ row, u.checkRead idx sub = .ok row ∧ ¬ (idx = 0x4020 ∧ sub = 3) ∧ ¬ (idx = 0x6030 ∧ sub = 2) ∧ isMeasured idx = false) ∧
    (∃ (s : State) (r : Req) (idx sub : Nat),
      ∃ u, s.Admits svcRead r idx sub [] u ∧ ∃ row, u.checkRead idx sub = .ok row ∧ isMeasured idx = true) ∧
    (∃ (s : State) (r : Req) (idx sub : Nat) (data : Bytes),
      ∃ u, s.Admits svcWrite r idx sub data u ∧ s.canonical = true ∧ idx = 0x3004 ∧ sub = 1 ∧ u.dev.st = .prepare ∧ u.needsSession idx = false ∧ data.length = 2 ∧ 1518 ≤ Bits.leNat data ∧ Bits.leNat data ≤ 9600) ∧
    (∃ (s : State) (r : Req) (idx sub : Nat) (data : Bytes),
      ∃ u, s.Admits svcWrite r idx sub data u ∧ idx = 0x3004 ∧ sub = 1 ∧ u.dev.st = .run ∧ u.needsSession idx = false) ∧
    (∃ (s : State) (r : Req) (idx sub : Nat) (data : Bytes),
      ∃ u, s.Admits svcWrite r idx sub data u ∧ objIndex? idx = false) ∧
    (∃ (s : State) (r : Req) (idx sub : Nat),
      ∃ a, ((s.at r.t).odp.history.find? fun a => a.isOf r) = some a ∧ r.trailer = none ∧ (s.at r.t).servesOdp = true ∧ (s.at r.t).addressed r.target = true) ∧
    (∃ (s : State) (r : Req) (idx sub : Nat) (data : Bytes),
      (s.at r.t).servesOdp = true ∧ (s.at r.t).addressed r.target = true ∧ (s.at r.t).authenticate svcWrite r idx sub data = none) ∧
    (∃ (s : State) (r : Req) (idx sub : Nat) (data : Bytes),
      ((s.at r.t).servesOdp = false ∨ (s.at r.t).addressed r.target = false)) :=
  ⟨⟨served .run, ask, 0x1803, 0, _, admits_of (by decide), _, ok_of (by decide), by decide, by decide, by decide⟩,
   ⟨served .run, ask, 0x9802, 0, _, admits_of (by decide), _, ok_of (by decide), by decide⟩,
   ⟨served .prepare, ask, 0x3004, 1, [0x80, 0x25], _, admits_of (by decide), by decide, by decide, by decide, by decide, by decide, by decide, by decide, by decide⟩,
   ⟨served .run, ask, 0x3004, 1, [0x80, 0x25], _, admits_of (by decide), by decide, by decide, by decide, by decide⟩,
   ⟨served .run, ask, 0x0FFF, 0, [], _, admits_of (by decide), by decide⟩,
   ⟨{ served .run with odp := { history := [answer1] } }, ask, 0x1803, 0, _, some_of (by decide), by decide, by decide, by decide⟩,
   ⟨{ trusted .run with odp := {} }, sealed svcWrite 0x1803 0 [1, 0], 0x1803, 0, [1, 0], by decide, by decide, by decide⟩,
   ⟨served .run, { ask with target := 6 }, 0x1803, 0, [1, 0], by decide⟩⟩

/-- States and operands that meet the hypotheses of each clause of SessionCommands. -/
theorem witness_SessionCommands :
    (∃ (s : State) (r : Req) (key nonce slot : Nat),
      ∃ u, s.Admits svcOpen r 0 0 (Bits.natLe 64 key ++ Bits.natLe 16 nonce ++ Bits.natLe 1 slot) u ∧ slot ≤ 7 ∧ u.trust.tainted = false ∧ u.odp.sessions.length < 8) ∧
    (∃ (s : State) (r : Req) (key nonce slot : Nat),
      ∃ u, s.Admits svcOpen r 0 0 (Bits.natLe 64 key ++ Bits.natLe 16 nonce ++ Bits.natLe 1 slot) u ∧ slot ≤ 7 ∧ u.trust.tainted = false ∧ 8 ≤ u.odp.sessions.length) ∧
    (∃ (s : State) (r : Req) (sid sig : Nat),
      ∃ u, s.Admits svcAuth r 0 0 (Bits.natLe 4 sid ++ Bits.natLe 64 sig) u ∧ ∃ x, (u.odp.sessions.find? fun x => x.sid = sid) = some x ∧ u.now < x.last + 60000000000) ∧
    (∃ (s : State) (r : Req),
      ∃ u, s.Admits svcClose r 0 0 [] u ∧ ∃ tr, r.trailer = some tr) ∧
    (∃ (s : State) (sid t : Nat),
      ∃ x, (s.odp.sessions.find? fun x => x.sid = sid) = some x ∧ x.last + 60000000000 ≤ (s.at t).now) ∧
    (∃ (s : State) (sid t : Nat),
      ∃ x, (s.odp.sessions.find? fun x => x.sid = sid) = some x ∧ (s.at t).now < x.last + 60000000000) :=
  ⟨⟨served .run, ask, 1, 2, 7, _, admits_of (by decide), by decide, by decide, by decide⟩,
   ⟨{ served .run with odp := { sessions := List.replicate 8 session1 } }, ask, 1, 2, 7, _, admits_of (by decide), by decide, by decide, by decide⟩,
   ⟨{ (served .run).put 0x9010 0 5 with odp := { sessions := [{ session1 with authed := false }] } }, ask, 1, 9, _, admits_of (by decide), _, some_of (by decide), by decide⟩,
   ⟨trusted .run, sealed svcClose 0 0 [], _, admits_sealed (by decide), _, some_of (by decide)⟩,
   ⟨trusted .run, 1, 60000000000, _, some_of (by decide), by decide⟩,
   ⟨trusted .run, 1, 59999999999, _, some_of (by decide), by decide⟩⟩

/-- States and operands that meet the hypotheses of each clause of TransferCommands. -/
theorem witness_TransferCommands :
    (∃ (s : State) (r : Req) (idx sub size sha seg win : Nat),
      ∃ u, s.Admits svcDownloadInit r idx sub (Bits.natLe 8 size ++ Bits.natLe 32 sha ++ Bits.natLe 2 seg ++ Bits.natLe 2 win) u ∧ u.transferCheck r false idx sub = none ∧ size ≤ 0x80000000 ∧ 256 ≤ seg ∧ seg ≤ 1384 ∧ 1 ≤ win ∧ win ≤ 64 ∧ u.downloadCheck idx sub size = none) ∧
    (∃ (s : State) (r : Req) (tid offset : Nat) (data : Bytes),
      ∃ u, s.Admits svcSegment r 0 0 (Bits.natLe 2 tid ++ Bits.natLe 2 0 ++ Bits.natLe 8 offset ++ data) u ∧ u.inSession r 0 = true ∧ ∃ x, u.transfer? tid = some x ∧ x.upload = false ∧ offset = x.content.length ∧ 0 < data.length ∧ data.length ≤ x.seg ∧ x.content.length + data.length ≤ x.size) ∧
    (∃ (s : State) (r : Req) (tid offset : Nat) (data : Bytes),
      ∃ u, s.Admits svcSegment r 0 0 (Bits.natLe 2 tid ++ Bits.natLe 2 0 ++ Bits.natLe 8 offset ++ data) u ∧ u.inSession r 0 = true ∧ ∃ x, u.transfer? tid = some x ∧ x.upload = false ∧ offset ≠ x.content.length) ∧
    (∃ (s : State) (r : Req) (tid offset : Nat),
      ∃ u, s.Admits svcAck r 0 0 (Bits.natLe 2 tid ++ Bits.natLe 2 0 ++ Bits.natLe 8 offset) u ∧ u.inSession r 0 = true ∧ ∃ x, u.transfer? tid = some x ∧ x.upload = true ∧ x.acked < offset ∧ offset ≤ x.sent) ∧
    (∃ (s : State) (tid t : Nat),
      ∃ x, (s.at t).transfer? tid = some x ∧ ∃ t0, x.lastSeg = some t0 ∧ x.upload = false ∧ t0 + 200000 ≤ (s.at t).now) ∧
    (∃ (s : State) (tid t : Nat),
      ∃ x, (s.at t).transfer? tid = some x ∧ ∃ t0, x.lastSeg = some t0 ∧ (s.at t).now < t0 + 200000) ∧
    (∃ (s : State) (r : Req) (tid : Nat),
      ∃ u, s.Admits svcDownloadEnd r 0 0 (Bits.natLe 2 tid) u ∧ u.inSession r 0 = true ∧ ∃ x, u.transfer? tid = some x ∧ x.upload = false ∧ x.content.length = x.size ∧ Hash.digest x.content = x.sha ∧ ∃ w, (u.dropTransfer tid).downloadDone x.idx x.sub x.content = .ok w) ∧
    (∃ (s : State) (r : Req) (tid : Nat),
      ∃ u, s.Admits svcDownloadEnd r 0 0 (Bits.natLe 2 tid) u ∧ u.inSession r 0 = true ∧ ∃ x, u.transfer? tid = some x ∧ x.upload = false ∧ (x.content.length ≠ x.size ∨ Hash.digest x.content ≠ x.sha)) ∧
    (∃ (s : State) (r : Req) (idx sub win : Nat),
      ∃ u, s.Admits svcUploadInit r idx sub (Bits.natLe 2 win) u ∧ u.transferCheck r true idx sub = none ∧ 1 ≤ win ∧ win ≤ 64 ∧ ∃ content, u.uploadContent idx sub = .ok content) ∧
    (∃ (s : State) (r : Req) (tid : Nat),
      ∃ u, s.Admits svcUploadEnd r 0 0 (Bits.natLe 2 tid) u ∧ u.inSession r 0 = true ∧ ∃ x, u.transfer? tid = some x) ∧
    (∃ (s : State) (r : Req) (tid code : Nat),
      ∃ u, s.Admits svcTransferAbort r 0 0 (Bits.natLe 2 tid ++ Bits.natLe 4 code) u ∧ u.inSession r 0 = true ∧ ∃ x, u.transfer? tid = some x) ∧
    (∃ (s : State) (tid t : Nat),
      ∃ x, (s.at t).transfer? tid = some x ∧ x.last + 10000000000 ≤ (s.at t).now) ∧
    (∃ (s : State) (tid t : Nat),
      ∃ x, (s.at t).transfer? tid = some x ∧ (s.at t).now < x.last + 10000000000) :=
  ⟨⟨trusted .run, sealed svcDownloadInit 0xA010 0 (natLe 8 4096 ++ natLe 32 0 ++ natLe 2 256 ++ natLe 2 1), 0xA010, 0, 4096, 0, 256, 1, _, admits_sealed (by decide), by decide, by decide, by decide, by decide, by decide, by decide, by decide⟩,
   ⟨{ trusted .run with odp := { sessions := [session1], transfers := [download1] } }, sealed svcSegment 0 0 (natLe 2 1 ++ natLe 2 0 ++ natLe 8 2 ++ [3]), 1, 2, [3], _, admits_sealed (by decide), by decide, _, some_of (by decide), by decide, by decide, by decide, by decide, by decide⟩,
   ⟨{ trusted .run with odp := { sessions := [session1], transfers := [download1] } }, sealed svcSegment 0 0 (natLe 2 1 ++ natLe 2 0 ++ natLe 8 1 ++ [3]), 1, 1, [3], _, admits_sealed (by decide), by decide, _, some_of (by decide), by decide, by decide⟩,
   ⟨{ trusted .run with odp := { sessions := [session1], transfers := [{ download1 with upload := true, sent := 2 }] } }, sealed svcAck 0 0 (natLe 2 1 ++ natLe 2 0 ++ natLe 8 2), 1, 2, _, admits_sealed (by decide), by decide, _, some_of (by decide), by decide, by decide, by decide⟩,
   ⟨{ trusted .run with odp := { sessions := [session1], transfers := [{ download1 with lastSeg := some 0 }] } }, 1, 200000, _, some_of (by decide), _, some_of (by decide), by decide, by decide⟩,
   ⟨{ trusted .run with odp := { sessions := [session1], transfers := [{ download1 with lastSeg := some 0 }] } }, 1, 199999, _, some_of (by decide), _, some_of (by decide), by decide⟩,
   ⟨{ trusted .run with odp := { sessions := [session1], transfers := [{ download1 with size := 2, idx := 0xA000, sha := Hash.digest [1, 2] }] } }, sealed svcDownloadEnd 0 0 (natLe 2 1), 1, _, admits_sealed (by decide), by decide, _, some_of (by decide), by decide, by decide, by decide, _, ok_of (by decide)⟩,
   ⟨{ trusted .run with odp := { sessions := [session1], transfers := [download1] } }, sealed svcDownloadEnd 0 0 (natLe 2 1), 1, _, admits_sealed (by decide +kernel), by decide +kernel, _, some_of (by decide +kernel), by decide +kernel, by decide +kernel⟩,
   ⟨trusted .run, sealed svcUploadInit 0xA030 0 (natLe 2 64), 0xA030, 0, 64, _, admits_sealed (by decide), by decide, by decide, by decide, _, ok_of (by decide)⟩,
   ⟨{ trusted .run with odp := { sessions := [session1], transfers := [{ download1 with upload := true }] } }, sealed svcUploadEnd 0 0 (natLe 2 1), 1, _, admits_sealed (by decide), by decide, _, some_of (by decide)⟩,
   ⟨{ trusted .run with odp := { sessions := [session1], transfers := [download1] } }, sealed svcTransferAbort 0 0 (natLe 2 1 ++ natLe 4 7), 1, 7, _, admits_sealed (by decide +kernel), by decide +kernel, _, some_of (by decide +kernel)⟩,
   ⟨{ trusted .run with odp := { sessions := [session1], transfers := [download1] } }, 1, 10000000000, _, some_of (by decide), by decide⟩,
   ⟨{ trusted .run with odp := { sessions := [session1], transfers := [download1] } }, 1, 9999999999, _, some_of (by decide), by decide⟩⟩

/-- States and operands that meet the hypotheses of each clause of VerificationCommands. -/
theorem witness_VerificationCommands :
    (∃ (s : State) (slot : Fin 2) (t : Nat),
      s.canonical = true ∧ (s.fwSlot slot.val).code = 0 ∧ (s.fwSlot slot.val).content ≠ [] ∧ s.downloading (0xA000 + slot.val) = false) ∧
    (∃ (s : State) (slot : Fin 2) (t : Nat),
      ((s.fwSlot slot.val).code ≠ 0 ∨ (s.fwSlot slot.val).content = [] ∨ s.downloading (0xA000 + slot.val) = true)) ∧
    (∃ (s : State) (t : Nat),
      s.canonical = true ∧ ∃ b, s.flash.scanNew = some b ∧ s.downloading 0xA040 = false) ∧
    (∃ (s : State) (t : Nat),
      s.flash.scanNew = none) :=
  ⟨⟨{ inState .run with flash := { slotA := factorySlot, slotB := { content := [1] } } }, 1, 5, by decide, by decide, by decide, by decide⟩,
   ⟨inState .run, 1, 5, by decide⟩,
   ⟨{ inState .run with flash := { scanNew := some [1] } }, 5, by decide, _, some_of (by decide), by decide⟩,
   ⟨inState .run, 5, by decide⟩⟩

/-- States and operands that meet the hypotheses of each clause of EvtOutExclusion. -/
theorem witness_EvtOutExclusion :
    (∃ (s : State) (r : Req) (sub v : Nat),
      ∃ u, s.Writable r 0x8810 sub v u ∧ (sub = 1 ∨ sub = 2) ∧ v = 1 ∧ u.flag 0x8810 (3 - sub) = true) ∧
    (∃ (s : State) (r : Req) (sub v : Nat),
      ∃ u, s.Writable r 0x8810 sub v u ∧ s.canonical = true ∧ (sub = 1 ∨ sub = 2) ∧ (v = 0 ∨ u.flag 0x8810 (3 - sub) = false)) :=
  ⟨⟨(served .prepare).put 0x8810 2 1, ask, 1, 1, _, writable_of (by decide), by decide, by decide, by decide⟩,
   ⟨(served .prepare).put 0x8810 2 1, ask, 1, 0, _, writable_of (by decide), by decide, by decide, by decide⟩⟩

/-- States and operands that meet the hypotheses of each clause of CommitRequests. -/
theorem witness_CommitRequests :
    (∃ (s : State) (r : Req) (acc : Nat),
      ∃ u, s.Writable r 0x3808 0 acc u ∧ u.lib.schedRule = none ∧ u.ruleRetiring = false ∧ acc ≠ 0 ∧ newer acc (u.get 0x3809 0) = true ∧ u.pairMismatch = false ∧ u.stagedBank.commitError = none) ∧
    (∃ (s : State) (r : Req) (acc : Nat),
      ∃ u, s.Writable r 0x3808 0 acc u ∧ acc ≠ 0 ∧ (u.lib.schedRule.isSome = true ∨ u.ruleRetiring = true ∨ newer acc (u.get 0x3809 0) = false ∨ u.pairMismatch = true)) ∧
    (∃ (s : State) (r : Req) (acc : Nat),
      ∃ u, s.Writable r 0x6808 0 acc u ∧ u.lib.schedModel = none ∧ u.lib.retiring = none ∧ acc ≠ 0 ∧ newer acc u.activeModel = true ∧ ∃ m, u.lib.staged = some m ∧ m.slot = u.stagedOr 0x6803 1 ∧ (u.slotState m.slot = slotStaged ∨ u.slotState m.slot = slotRipple)) ∧
    (∃ (s : State) (r : Req) (acc : Nat),
      ∃ u, s.Writable r 0x6808 0 acc u ∧ acc ≠ 0 ∧ (u.lib.schedModel.isSome = true ∨ u.lib.retiring.isSome = true ∨ newer acc u.activeModel = false ∨ u.lib.staged = none)) ∧
    (∃ (s : State) (r : Req) (kind : AccKind),
      ∃ u, s.Writable r (match kind with | .rule => 0x3808 | .model => 0x6808) 0 0 u ∧ (match kind with | .rule => u.lib.schedRule | .model => u.lib.schedModel).isSome = true) ∧
    (∃ (s : State) (r : Req),
      ∃ u, s.Writable r 0x1828 0 1 u ∧ ∃ x, u.cyclicCommit 1 = .ok x) ∧
    (∃ (s : State) (r : Req) (bits : Nat),
      ∃ u, s.Writable r 0x2011 0 bits u ∧ u.lib.schedRule = none ∧ u.lib.schedModel = none) :=
  ⟨⟨served .run, ask, 1, _, writable_of (by decide), by decide, by decide, by decide, by decide, by decide, by decide⟩,
   ⟨(served .run).put 0x3809 0 1, ask, 32769, _, writable_of (by decide), by decide, by decide⟩,
   ⟨{ (served .run).put 0x6820 1 3 with lib := { staged := some model1 } }, ask, 1, _, writable_of (by decide), by decide, by decide, by decide, by decide, _, some_of (by decide), by decide, by decide⟩,
   ⟨served .run, ask, 1, _, writable_of (by decide), by decide, by decide⟩,
   ⟨{ served .run with lib := { schedRule := some ⟨1, 5⟩ } }, ask, .rule, _, writable_of (by decide), by decide⟩,
   ⟨served .run, ask, _, writable_of (by decide), _, ok_of (by decide)⟩,
   ⟨served .run, ask, 15, _, writable_of (by decide), by decide, by decide⟩⟩

/-- States and operands that meet the hypotheses of each clause of AccessionCommands. -/
theorem witness_AccessionCommands :
    (∃ (s : State) (t : Nat),
      ∃ c, s.lib.schedRule = some c ∧ s.canonical = true ∧ s.frozen = false ∧ s.lib.schedModel = none ∧ c.time ≤ (s.at t).now) ∧
    (∃ (s : State) (t : Nat),
      ∃ c, s.lib.schedModel = some c ∧ s.canonical = true ∧ s.frozen = false ∧ s.lib.schedRule = none ∧ c.time ≤ (s.at t).now ∧ ∃ m, s.lib.staged = some m ∧ s.sync.taps = []) ∧
    (∃ (s : State) (t : Nat),
      ∃ c, s.lib.schedRule = some c ∧ s.lib.schedModel = none ∧ (s.at t).now < c.time) ∧
    (∃ (s : State) (kind : AccKind) (t : Nat),
      ∃ b, s.intake.retiring = some b ∧ s.canonical = true ∧ kind = .rule ∧ s.frozen = false ∧ b.acc ≠ 0 ∧ s.rulePackets b.acc = 0) ∧
    (∃ (s : State) (kind : AccKind) (t : Nat),
      ∃ b, s.intake.retiring = some b ∧ kind = .rule ∧ (s.frozen = true ∨ s.rulePackets b.acc ≠ 0)) ∧
    (∃ (s : State) (kind : AccKind) (t : Nat),
      ∃ m, s.lib.retiring = some m ∧ s.canonical = true ∧ kind = .model ∧ s.frozen = false ∧ s.sync.taps = [] ∧ s.modelIdle m.acc = true ∧ m.slot < 16) ∧
    (∃ (s : State) (kind : AccKind) (t : Nat),
      s.canonical = true ∧ kind = .model ∧ s.lib.retiring.isSome = true ∧ s.lib.modelLate = false ∧ s.lib.modelFrom + s.get 0x680A 0 * 1000000 ≤ (s.at t).now) ∧
    (∃ (s : State) (kind : AccKind) (t : Nat),
      s.canonical = true ∧ kind = .rule ∧ s.get 0x6802 0 ≠ 0 ∧ s.lib.ruleLate = false ∧ s.lib.ruleFrom + s.get 0x680A 0 * 1000000 ≤ (s.at t).now) ∧
    (∃ (s : State) (kind : AccKind) (t : Nat),
      (match kind with | .model => s.lib.retiring.isNone || s.lib.modelLate || decide ((s.at t).now < s.lib.modelFrom + s.get 0x680A 0 * 1000000) | .rule => decide (s.get 0x6802 0 = 0) || s.lib.ruleLate || decide ((s.at t).now < s.lib.ruleFrom + s.get 0x680A 0 * 1000000)) = true) ∧
    (∃ (s : State) (r : Req),
      ∃ u, s.Writable r 0x680B 0 1 u ∧ ∃ m, u.lib.retiring = some m) ∧
    (∃ (s : State) (r : Req),
      ∃ u, s.Writable r 0x680B 0 1 u ∧ u.lib.retiring = none) ∧
    (∃ (s : State) (r : Req),
      ∃ u, s.Writable r 0x680B 0 2 u ∧ ∃ b, u.intake.retiring = some b) ∧
    (∃ (s : State) (r : Req),
      ∃ u, s.Writable r 0x680B 0 2 u ∧ u.intake.retiring = none) :=
  ⟨⟨{ inState .run with lib := { schedRule := some ⟨1, 5⟩ } }, 5, _, some_of (by decide), by decide, by decide, by decide, by decide⟩,
   ⟨{ inState .run with lib := { schedModel := some ⟨1, 5⟩, staged := some model1 } }, 5, _, some_of (by decide), by decide, by decide, by decide, by decide, _, some_of (by decide), by decide⟩,
   ⟨{ inState .run with lib := { schedRule := some ⟨1, 6⟩ } }, 5, _, some_of (by decide), by decide, by decide⟩,
   ⟨{ inState .run with intake := { retiring := some { acc := 1 } } }, .rule, 5, _, some_of (by decide), by decide, by decide, by decide, by decide, by decide⟩,
   ⟨{ withPkt { pkt1 with ra := 1 } with intake := { retiring := some { acc := 1 } } }, .rule, 5, _, some_of (by decide +kernel), by decide +kernel, by decide +kernel⟩,
   ⟨{ inState .run with lib := { retiring := some model1 } }, .model, 5, _, some_of (by decide +kernel), by decide +kernel, by decide +kernel, by decide +kernel, by decide +kernel, by decide +kernel, by decide +kernel⟩,
   ⟨{ inState .run with lib := { retiring := some model1 } }, .model, 60000000000, by decide +kernel, by decide +kernel, by decide +kernel, by decide +kernel, by decide +kernel⟩,
   ⟨(inState .run).put 0x6802 0 1, .rule, 60000000000, by decide, by decide, by decide, by decide, by decide⟩,
   ⟨inState .run, .rule, 60000000000, by decide⟩,
   ⟨{ served .run with lib := { retiring := some model1 } }, ask, _, writable_of (by decide), _, some_of (by decide)⟩,
   ⟨served .run, ask, _, writable_of (by decide), by decide⟩,
   ⟨{ served .run with intake := { retiring := some { acc := 1 } } }, ask, _, writable_of (by decide), _, some_of (by decide)⟩,
   ⟨served .run, ask, _, writable_of (by decide), by decide⟩⟩

/-- States and operands that meet the hypotheses of each clause of StagingCommands. -/
theorem witness_StagingCommands :
    (∃ (s : State) (slot : Fin 16) (t : Nat),
      s.canonical = true ∧ s.slotState slot.val = slotLoading ∧ (s.odp.transfers.any fun x => !x.upload && decide (x.idx = 0xA010 + slot.val)) = false) ∧
    (∃ (s : State) (slot : Fin 16) (t : Nat),
      s.slotState slot.val ≠ slotLoading) ∧
    (∃ (s : State) (r : Req) (slot : Fin 16) (mode : Nat),
      ∃ u, s.Writable r (0x6820 + slot.val) 6 mode u ∧ mode = 1 ∧ u.lib.retiring = none ∧ u.lib.schedModel = none ∧ ∃ m, (u.slotAt slot.val).model = some m ∧ u.slotState slot.val = slotValid ∧ u.staging = false ∧ u.lib.active = none ∧ u.lib.staged = none ∧ u.tablesFit none m = true) ∧
    (∃ (s : State) (r : Req) (slot : Fin 16) (mode : Nat),
      ∃ u, s.Writable r (0x6820 + slot.val) 6 mode u ∧ mode = 0 ∧ u.lib.retiring = none ∧ u.lib.schedModel = none ∧ ∃ m, (u.slotAt slot.val).model = some m ∧ u.slotState slot.val = slotValid ∧ u.staging = false ∧ u.lib.active = none ∧ u.lib.staged = none ∧ u.tablesFit none m = true) ∧
    (∃ (s : State) (r : Req) (slot : Fin 16) (mode : Nat),
      ∃ u, s.Writable r (0x6820 + slot.val) 6 mode u ∧ mode ≤ 2 ∧ u.lib.retiring.isSome = true) ∧
    (∃ (s : State) (slot : Fin 16) (t : Nat),
      ∃ m, s.lib.staged = some m ∧ s.canonical = true ∧ m.slot = slot.val ∧ s.slotState slot.val = slotValid ∧ s.staging = false) ∧
    (∃ (s : State) (slot : Fin 16) (t : Nat),
      s.staging = true) ∧
    (∃ (s : State) (a : Fin 16) (t : Nat),
      s.canonical = true ∧ (s.at t).installReady a.val = true ∧ (s.arrAt a.val).instKind = 1 ∧ (s.arrAt a.val).susp = [] ∧ (s.at t).nextRing a.val = some 16) ∧
    (∃ (s : State) (a : Fin 16) (t : Nat),
      (s.at t).installReady a.val = false) ∧
    (∃ (s : State) (a : Fin 16) (t : Nat),
      s.canonical = true ∧ (s.arrAt a.val).instKind = 1 ∧ (s.arrAt a.val).instCons = 1 ∧ ((s.listsOf a.val).any fun x => decide (x.ring = 16)) = false) ∧
    (∃ (s : State) (a : Fin 16) (t : Nat),
      (s.arrAt a.val).instCons = 0) ∧
    (∃ (s : State) (r : Req) (slot : Fin 16),
      ∃ u, s.Writable r (0x6820 + slot.val) 8 1 u ∧ s.canonical = true ∧ u.slotBusy slot.val = false) ∧
    (∃ (s : State) (r : Req) (slot : Fin 16),
      ∃ u, s.Writable r (0x6820 + slot.val) 8 1 u ∧ u.slotBusy slot.val = true) :=
  ⟨⟨(inState .run).put 0x6820 1 1, 0, 5, by decide, by decide, by decide⟩,
   ⟨inState .run, 0, 5, by decide⟩,
   ⟨{ (served .run).put 0x6820 1 2 with lib := { slots := Vector.replicate 16 { model := some model1 } } }, ask, 0, 1, _, writable_of (by decide), by decide, by decide, by decide, _, some_of (by decide), by decide, by decide, by decide, by decide, by decide⟩,
   ⟨{ (served .run).put 0x6820 1 2 with lib := { slots := Vector.replicate 16 { model := some { model1 with shelf := [⟨2, 1, 4, List.replicate 256 7, 128, false⟩] } } } }, ask, 0, 0, _, writable_of (by decide), by decide, by decide, by decide, _, some_of (by decide), by decide, by decide, by decide, by decide, by decide⟩,
   ⟨{ (served .run).put 0x6820 1 2 with lib := { retiring := some model1 } }, ask, 0, 1, _, writable_of (by decide), by decide, by decide⟩,
   ⟨{ (inState .run).put 0x6820 1 2 with lib := { staged := some model1 } }, 0, 5, _, some_of (by decide), by decide, by decide, by decide, by decide⟩,
   ⟨(inState .run).modArr 0 fun x => { x with instKind := 1 }, 0, 5, by decide⟩,
   ⟨(inState .run).modArr 0 fun x => { x with instKind := 1, install := [List.replicate 8 0] }, 0, 5, by decide, by decide, by decide, by decide, by decide⟩,
   ⟨inState .run, 0, 5, by decide⟩,
   ⟨(inState .run).modArr 0 fun x => { x with instKind := 1, instCons := 1 }, 0, 5, by decide, by decide, by decide, by decide⟩,
   ⟨inState .run, 0, 5, by decide⟩,
   ⟨(served .run).put 0x6820 1 2, ask, 0, _, writable_of (by decide), by decide, by decide⟩,
   ⟨{ (served .run).put 0x6820 1 5 with lib := { active := some model1 } }, ask, 0, _, writable_of (by decide), by decide⟩⟩

/-- States and operands that meet the hypotheses of each clause of StoreCommands. -/
theorem witness_StoreCommands :
    (∃ (s : State) (r : Req),
      ∃ u, s.Writable r 0x2020 0 1 u ∧ u.saving = none) ∧
    (∃ (s : State) (r : Req),
      ∃ u, s.Writable r 0x2020 0 1 u ∧ ∃ x, u.saving = some x ∧ x.answer.isOf r = false) ∧
    (∃ (s : State) (t : Nat),
      ∃ x, s.saving = some x ∧ s.servesOdp = true) ∧
    (∃ (s : State) (t : Nat),
      (s.saving = none ∨ s.servesOdp = false)) ∧
    (∃ (s : State) (r : Req),
      ∃ u, s.Writable r 0x2021 0 1 u) ∧
    (∃ (s : State) (r : Req),
      ∃ u, s.Writable r 0x6008 0 1 u ∧ s.canonical = true ∧ u.dev.st = .prepare ∧ u.overcommitted = false ∧ u.sharesOk = true ∧ (u.stagedRegion 0).1 = u.regionBase 0 ∧ u.libraryEnd ≤ (u.stagedRegion 0).1 + (u.stagedRegion 0).2) ∧
    (∃ (s : State) (t : Nat),
      s.canonical = true ∧ s.heldCount = 0 ∧ (s.dev.st = .drain ∨ s.dev.st = .prepare)) ∧
    (∃ (s : State) (t : Nat),
      (s.heldCount ≠ 0 ∨ (s.dev.st ≠ .drain ∧ s.dev.st ≠ .prepare))) :=
  ⟨⟨served .run, ask, _, writable_of (by decide), by decide⟩,
   ⟨{ served .run with saving := some ⟨{ answer1 with reqId := 2 }, [], 0⟩ }, ask, _, writable_of (by decide), _, some_of (by decide), by decide⟩,
   ⟨{ served .run with saving := some ⟨answer1, [], 0⟩ }, 5, _, some_of (by decide), by decide⟩,
   ⟨served .run, 5, by decide⟩,
   ⟨served .run, ask, _, writable_of (by decide)⟩,
   ⟨served .prepare, ask, _, writable_of (by decide), by decide, by decide, by decide, by decide, by decide, by decide⟩,
   ⟨{ inState .drain with memc := { burstShare := some 8 } }, 5, by decide, by decide, by decide⟩,
   ⟨{ inState .run with memc := { burstShare := some 8 } }, 5, by decide⟩⟩

/-- States and operands that meet the hypotheses of each clause of ConfigurationWrites. -/
theorem witness_ConfigurationWrites :
    (∃ (s : State) (r : Req) (v : Nat),
      ∃ u, s.Writable r 0x1805 0 v u ∧ s.canonical = true ∧ (v = 0 ∨ u.hearsMaster = false)) ∧
    (∃ (s : State) (r : Req) (v : Nat),
      ∃ u, s.Writable r 0x1805 0 v u ∧ v = 1 ∧ u.hearsMaster = true) ∧
    (∃ (s : State) (r : Req) (v : Nat),
      ∃ u, s.Writable r 0x2400 0 v u ∧ s.canonical = true ∧ u.otherSource = false) ∧
    (∃ (s : State) (r : Req) (v : Nat),
      ∃ u, s.Writable r 0x2400 0 v u ∧ u.otherSource = true ∧ v ≠ 0) ∧
    (∃ (s : State) (r : Req) (a ring : Fin 16) (sub v : Nat),
      ∃ u, s.Writable r (ringObj a.val ring.val) sub v u ∧ s.canonical = true ∧ (sub = 1 ∨ sub = 2)) ∧
    (∃ (s : State) (r : Req) (idx sub v : Nat),
      ∃ u, s.Writable r idx sub v u ∧ s.canonical = true ∧ idx = 0x7101) ∧
    (∃ (s : State) (r : Req) (idx sub v : Nat),
      ∃ u, s.Writable r idx sub v u ∧ s.canonical = true ∧ idx = 0x7100 ∧ v ≤ 3 ∧ 256 ≤ u.get 0x7102 sub) ∧
    (∃ (s : State) (r : Req) (idx sub v : Nat),
      ∃ u, s.Writable r idx sub v u ∧ s.canonical = true ∧ (idx = 0x7104 ∨ idx = 0x7021) ∧ v ≤ 400000) ∧
    (∃ (s : State) (r : Req) (idx sub v : Nat),
      ∃ u, s.Writable r idx sub v u ∧ (idx = 0x7105 ∨ idx = 0x7022) ∧ (v < 64 ∨ 16777216 < v)) :=
  ⟨⟨served .prepare, ask, 1, _, writable_of (by decide), by decide, by decide⟩,
   ⟨{ served .prepare with mgmt := { otherMaster := some 5 } }, ask, 1, _, writable_of (by decide), by decide, by decide⟩,
   ⟨served .prepare, ask, 1, _, writable_of (by decide), by decide, by decide⟩,
   ⟨{ ((served .prepare).put 0x7810 1 1).put 0x7811 1 3 with fab := { links := [⟨3, 1, 0, true, [], 65535⟩] } }, ask, 1, _, writable_of (by decide), by decide, by decide⟩,
   ⟨served .prepare, ask, 0, 0, 2, 64, _, writable_of (by decide), by decide, by decide⟩,
   ⟨served .prepare, ask, 0x7101, 1, 0, _, writable_of (by decide), by decide, by decide⟩,
   ⟨(served .prepare).put 0x7102 1 256, ask, 0x7100, 1, 3, _, writable_of (by decide), by decide, by decide, by decide, by decide⟩,
   ⟨served .prepare, ask, 0x7104, 1, 400000, _, writable_of (by decide), by decide, by decide, by decide⟩,
   ⟨served .prepare, ask, 0x7105, 1, 63, _, writable_of (by decide), by decide, by decide⟩⟩

/-- States and operands that meet the hypotheses of each clause of LinePortCommands. -/
theorem witness_LinePortCommands :
    (∃ (s : State) (p : Fin 4) (t : Nat),
      s.canonical = true ∧ s.forwards = true ∧ laneUsed (s.get 0x3001 (p.val + 1)) 0 = true) ∧
    (∃ (s : State) (p : Fin 4) (t : Nat),
      (s.forwards = false ∨ laneUsed (s.get 0x3001 (p.val + 1)) 0 = false)) ∧
    (∃ (s : State) (p : Fin 4) (t : Nat),
      s.canonical = true) ∧
    (∃ (s : State) (p : Fin 4) (bytes : Bytes) (fcsGood : Bool) (t : Nat),
      s.canonical = true ∧ s.forwards = true ∧ (s.lineAt p.val).up = true ∧ fcsGood = true ∧ 64 ≤ bytes.length + 4 ∧ bytes.length + 4 ≤ s.get 0x3004 (p.val + 1) ∧ (s.lineAt p.val).rx.foldl (fun k f => k + frameWords f.bytes) 0 + frameWords bytes ≤ 512) ∧
    (∃ (s : State) (p : Fin 4) (bytes : Bytes) (fcsGood : Bool) (t : Nat),
      s.canonical = true ∧ s.forwards = true ∧ (s.lineAt p.val).up = true ∧ (fcsGood = false ∨ bytes.length + 4 < 64 ∨ s.get 0x3004 (p.val + 1) < bytes.length + 4 ∨ 512 < (s.lineAt p.val).rx.foldl (fun k f => k + frameWords f.bytes) 0 + frameWords bytes)) ∧
    (∃ (s : State) (p : Fin 4) (bytes : Bytes) (fcsGood : Bool) (t : Nat),
      (s.forwards = false ∨ (s.lineAt p.val).up = false)) ∧
    (∃ (s : State) (p : Fin 4) (t : Nat),
      ∃ i, (s.lineAt p.val).tx.head? = some i ∧ s.canonical = true ∧ s.forwards = true ∧ (s.lineAt p.val).up = true ∧ (i.ingress = none ∨ s.flag 0x3007 (p.val / 2 + 1) = false ∨ ptpEvent i.bytes = none)) ∧
    (∃ (s : State) (p : Fin 4) (t : Nat),
      ∃ i, (s.lineAt p.val).tx.head? = some i ∧ s.forwards = true ∧ (s.lineAt p.val).up = true ∧ s.get 0x3000 0 = 0 ∧ i.ingress = some (Bits.nxor p.val 1) ∧ s.flag 0x3007 (p.val / 2 + 1) = true ∧ ∃ e, ptpEvent i.bytes = some e ∧ 60 ≤ i.bytes.length) ∧
    (∃ (s : State) (p : Fin 4) (t : Nat),
      ((s.lineAt p.val).tx = [] ∨ s.forwards = false ∨ (s.lineAt p.val).up = false)) :=
  ⟨⟨(inState .run).put 0x3001 1 1, 0, 5, by decide, by decide, by decide⟩,
   ⟨inState .prepare, 0, 5, by decide⟩,
   ⟨linked, 3, 5, by decide⟩,
   ⟨linked, 0, List.replicate 60 0, true, 5, by decide, by decide, by decide, by decide, by decide, by decide, by decide⟩,
   ⟨linked.put 0x3004 1 64, 0, List.replicate 61 0, true, 5, by decide, by decide, by decide, by decide⟩,
   ⟨inState .run, 0, List.replicate 60 0, true, 5, by decide⟩,
   ⟨{ linked with line := Vector.replicate 4 { up := true, tx := [item1] } }, 0, 5, _, some_of (by decide), by decide, by decide, by decide, by decide⟩,
   ⟨{ (linked.put 0x3007 1 1) with line := Vector.replicate 4 { up := true, tx := [ptpItem] } }, 0, 5, _, some_of (by decide), by decide, by decide, by decide, by decide, by decide, _, some_of (by decide), by decide⟩,
   ⟨linked, 0, 5, by decide⟩⟩

/-- States and operands that meet the hypotheses of each clause of IntakeCommands. -/
theorem witness_IntakeCommands :
    (∃ (s : State) (p : Fin 4) (cycle t : Nat),
      ∃ f, (s.lineAt p.val).rx.head? = some f ∧ s.frozen = false ∧ s.catFull = false ∧ s.forwards = true ∧ s.intake.seqCycle < cycle ∧ s.lib.schedRule = none ∧ s.lib.schedModel = none ∧ (s.lineAt p.val).window.length < 4096 ∧ ∃ b, s.placeBody f.bytes.length = some b) ∧
    (∃ (s : State) (p : Fin 4) (cycle t : Nat),
      ∃ f, (s.lineAt p.val).rx.head? = some f ∧ s.canonical = true ∧ s.frozen = false ∧ s.catFull = false ∧ s.forwards = true ∧ s.intake.seqCycle < cycle ∧ s.lib.schedRule = none ∧ s.lib.schedModel = none ∧ 4096 ≤ (s.lineAt p.val).window.length) ∧
    (∃ (s : State) (p : Fin 4) (cycle t : Nat),
      (s.frozen = true ∨ s.catFull = true ∨ cycle < s.intake.seqCycle ∨ ((s.lineAt p.val).rx = [] ∧ s.lib.schedRule = none ∧ s.lib.schedModel = none))) ∧
    (∃ (s : State) (t : Nat),
      ∃ p, (s.pkts.find? fun p => p.stage = .parse ∧ s.pipeStopped p.pipe = false) = some p ∧ s.frozen = false ∧ s.catFull = false ∧ s.lib.retiring = none ∧ (parseFrame (s.bankOf p.ra) p.bytes).mal = 0 ∧ (parseFrame (s.bankOf p.ra) p.bytes).ecpri = none ∧ ∃ x, classify (s.bankOf p.ra) (parseFrame (s.bankOf p.ra) p.bytes).profile (packKey 320 (parseFrame (s.bankOf p.ra) p.bytes) p.bytes ((s.bankOf p.ra).profiles.getD (parseFrame (s.bankOf p.ra) p.bytes).profile [])) = some x ∧ actPath x.2.action = 0 ∧ actProfile x.2.action = 0 ∧ actPunt x.2.action = false ∧ actTap x.2.action = false ∧ actMirror x.2.action = false ∧ actRecord x.2.action = false ∧ actMark x.2.action = 0 ∧ p.mirror = none ∧ p.flow = none ∧ (s.lineAt p.port).skipped.contains p.pid = false) ∧
    (∃ (s : State) (t : Nat),
      ∃ p, (s.pkts.find? fun p => p.stage = .parse ∧ s.pipeStopped p.pipe = false) = some p ∧ s.canonical = true ∧ s.frozen = false ∧ s.catFull = false ∧ s.lib.retiring = none ∧ (parseFrame (s.bankOf p.ra) p.bytes).mal ≠ 0 ∧ (parseFrame (s.bankOf p.ra) p.bytes).ecpri = none ∧ (s.bankOf p.ra).get 0x3820 (parseFrame (s.bankOf p.ra) p.bytes).mal = 2 ∧ p.mirror = none ∧ (s.lineAt p.port).skipped.contains p.pid = false) ∧
    (∃ (s : State) (t : Nat),
      s.lib.retiring = none ∧ (s.frozen = true ∨ s.catFull = true ∨ (s.pkts.all fun p => decide (p.stage ≠ .parse)) = true)) ∧
    (∃ (s : State) (p : Fin 4) (msgType id t : Nat),
      s.frozen = false) :=
  ⟨⟨{ linked with line := Vector.replicate 4 { up := true, rx := [⟨List.replicate 60 0, 1⟩] } }, 0, 1, 5, _, some_of (by decide), by decide, by decide, by decide, by decide, by decide, by decide, by decide, _, some_of (by decide)⟩,
   ⟨{ linked with line := Vector.replicate 4 { up := true, rx := [⟨List.replicate 60 0, 1⟩], window := List.replicate 4096 0 } }, 0, 1, 5, _, some_of (by decide), by decide, by decide, by decide, by decide, by decide, by decide, by decide, by decide⟩,
   ⟨linked, 0, 1, 5, by decide⟩,
   ⟨{ withPkt pkt1 with intake := { bank := ruleBank } }, 5, _, some_of (by decide), by decide, by decide, by decide, by decide, by decide, _, some_of (by decide), by decide, by decide, by decide, by decide, by decide, by decide, by decide, by decide, by decide, by decide⟩,
   ⟨{ withPkt { pkt1 with bytes := badFrame } with intake := { bank := { State.reset.intake.bank with objs := [(objKey 0x3820 1, 2), (objKey 0x3820 2, 2), (objKey 0x3820 3, 2), (objKey 0x3820 4, 2)] } } }, 5, _, some_of (by decide), by decide, by decide, by decide, by decide, by decide, by decide, by decide, by decide, by decide⟩,
   ⟨inState .run, 5, by decide, by decide⟩,
   ⟨inState .run, 0, 0, 0, 5, by decide⟩⟩

/-- States and operands that meet the hypotheses of each clause of OrderCommands. -/
theorem witness_OrderCommands :
    (∃ (s : State) (p : Fin 4) (t : Nat),
      ∃ pid, (s.lineAt p.val).window.head? = some pid ∧ (s.lineAt p.val).window.length = 1 ∧ s.frozen = false ∧ s.canonical = true ∧ ∃ k, s.pkt? pid = some k ∧ k.dec = some (.enqueue k.seq) ∧ k.mirror = none ∧ s.get 0x3001 (s.queuePort k.seq + 1) ≠ 0 ∧ queueBytes (s.queue k.seq) + frameLen k.bytes ≤ s.get 0x7106 (k.seq + 1)) ∧
    (∃ (s : State) (p : Fin 4) (t : Nat),
      ∃ pid, (s.lineAt p.val).window.head? = some pid ∧ (s.lineAt p.val).window.length = 1 ∧ s.frozen = false ∧ s.canonical = true ∧ ∃ k, s.pkt? pid = some k ∧ k.dec = some .drop ∧ k.mirror = some k.seq ∧ s.get 0x3001 (s.queuePort k.seq + 1) ≠ 0 ∧ queueBytes (s.queue k.seq) + frameLen k.bytes ≤ s.get 0x7106 (k.seq + 1)) ∧
    (∃ (s : State) (p : Fin 4) (t : Nat),
      ∃ pid, (s.lineAt p.val).window.head? = some pid ∧ ∃ k, s.pkt? pid = some k ∧ k.dec = none) ∧
    (∃ (s : State) (p : Fin 4) (t : Nat),
      ∃ pid, (s.lineAt p.val).window.head? = some pid ∧ s.frozen = false ∧ s.canonical = true ∧ ∃ k, s.pkt? pid = some k ∧ k.dec = none ∧ k.stamp + s.get 0x3800 (p.val + 1) * 1000 ≤ (s.at t).now) ∧
    (∃ (s : State) (p : Fin 4) (t : Nat),
      ∃ pid, (s.lineAt p.val).window.head? = some pid ∧ ∃ k, s.pkt? pid = some k ∧ (k.dec.isSome = true ∨ (s.at t).now < k.stamp + s.get 0x3800 (p.val + 1) * 1000)) ∧
    (∃ (s : State) (p : Fin 4) (t : Nat),
      ∃ v, s.bestLevel p.val = some v ∧ s.frozen = false ∧ s.forwards = true ∧ s.canonical = true ∧ (s.lineAt p.val).tx = [] ∧ ∃ q, (s.levelQueues p.val v).head? = some q ∧ (s.levelQueues p.val v).length = 1 ∧ s.bucketRate q = 0 ∧ s.queueGroup q = none ∧ ∃ i, (s.queue q).head? = some i ∧ Sparse.read (fun _ => (0, false)) s.egr.turn (p.val * 8 + v) = (q, true) ∧ s.counted p.val i.bytes ≤ s.deficit q) ∧
    (∃ (s : State) (p : Fin 4) (t : Nat),
      (s.frozen = true ∨ s.forwards = false ∨ (s.at t).bestLevel p.val = none)) :=
  ⟨⟨withPkt { pkt1 with dec := some (.enqueue 0) }, 0, 5, _, some_of (by decide), by decide, by decide, by decide, _, some_of (by decide), by decide, by decide, by decide, by decide⟩,
   ⟨withPkt { pkt1 with dec := some .drop, mirror := some 0 }, 0, 5, _, some_of (by decide), by decide, by decide, by decide, _, some_of (by decide), by decide, by decide, by decide, by decide⟩,
   ⟨withPkt pkt1, 0, 5, _, some_of (by decide), _, some_of (by decide), by decide⟩,
   ⟨withPkt pkt1, 0, 1000000000, _, some_of (by decide), by decide, by decide, _, some_of (by decide), by decide, by decide⟩,
   ⟨withPkt pkt1, 0, 0, _, some_of (by decide), _, some_of (by decide), by decide⟩,
   ⟨{ linked with egr := { q := [(0, [item1])], deficit := [(0, 1000)], turn := [(0, (0, true))] } }, 0, 5, _, some_of (by decide), by decide, by decide, by decide, by decide, _, some_of (by decide), by decide, by decide, by decide, _, some_of (by decide), by decide, by decide⟩,
   ⟨linked, 0, 5, by decide⟩⟩

/-- States and operands that meet the hypotheses of each clause of HoldPoolCommands. -/
theorem witness_HoldPoolCommands :
    (∃ (s : State) (t : Nat),
      ∃ v, s.egr.neural.head? = some v ∧ s.canonical = true ∧ s.frozen = false ∧ ∃ p, (s.pkts.find? fun p => p.pid = v.pid ∧ p.stage = .held) = some p ∧ (s.bankOf p.ra).get (0x5080 + v.map) (v.cls + 1) = 0 ∧ p.flow = none ∧ s.get 0x3001 (s.queuePort (actQueue p.action) + 1) ≠ 0 ∧ queueBytes (s.queue (actQueue p.action)) + frameLen p.bytes ≤ s.get 0x7106 (actQueue p.action + 1)) ∧
    (∃ (s : State) (t : Nat),
      ∃ v, s.egr.neural.head? = some v ∧ s.frozen = false ∧ ∃ p, (s.pkts.find? fun p => p.pid = v.pid ∧ p.stage = .held) = some p ∧ (s.bankOf p.ra).get (0x5080 + v.map) (v.cls + 1) = 5 * 2 ^ 61 ∧ p.flow = none) ∧
    (∃ (s : State) (t : Nat),
      ∃ v, s.egr.neural.head? = some v ∧ s.canonical = true ∧ s.frozen = false ∧ (s.pkts.find? fun p => p.pid = v.pid ∧ p.stage = .held) = none) ∧
    (∃ (s : State) (pid t : Nat),
      ∃ p, (s.pkts.find? fun p => p.pid = pid ∧ p.stage = .held) = some p ∧ s.canonical = true ∧ s.frozen = false ∧ p.heldAt + s.get 0x7002 0 * 1000 ≤ (s.at t).now ∧ s.get 0x7001 (p.port + 1) = 1 ∧ p.flow = none ∧ s.holdRecord p = false) ∧
    (∃ (s : State) (pid t : Nat),
      ∃ p, (s.pkts.find? fun p => p.pid = pid ∧ p.stage = .held) = some p ∧ (s.at t).now < p.heldAt + s.get 0x7002 0 * 1000) :=
  ⟨⟨{ (withPkt { pkt1 with stage := .held }) with egr := { neural := [⟨1, 0, 0, 0, 0⟩] } }, 5, _, some_of (by decide), by decide, by decide, _, some_of (by decide), by decide, by decide, by decide, by decide⟩,
   ⟨{ (withPkt { pkt1 with stage := .held }) with egr := { neural := [⟨1, 0, 0, 0, 0⟩] }, intake := { bank := { objs := [(objKey 0x5080 1, 5 * 2 ^ 61)] } } }, 5, _, some_of (by decide), by decide, _, some_of (by decide), by decide, by decide⟩,
   ⟨{ withPkt pkt1 with egr := { neural := [⟨1, 0, 0, 0, 0⟩] } }, 5, _, some_of (by decide), by decide, by decide, by decide⟩,
   ⟨(withPkt { pkt1 with stage := .held }).put 0x7001 1 1, 1, 1000000000, _, some_of (by decide), by decide, by decide, by decide, by decide, by decide, by decide⟩,
   ⟨withPkt { pkt1 with stage := .held }, 1, 5, _, some_of (by decide), by decide⟩⟩

/-- States and operands that meet the hypotheses of each clause of CatalogueLookups. -/
theorem witness_CatalogueLookups :
    (∃ (s : State) (t : Nat),
      ∃ p, (s.pkts.find? fun p => p.stage = .lookup) = some p ∧ s.frozen = false ∧ s.canonical = true ∧ s.lib.retiring = none ∧ ((s.pktKey p).buckets.any fun b => (s.way? b).isNone) = true ∧ s.catFull = false) ∧
    (∃ (s : State) (t : Nat),
      ∃ p, (s.pkts.find? fun p => p.stage = .lookup) = some p ∧ s.frozen = false ∧ s.canonical = true ∧ s.lib.retiring = none ∧ actPath p.action = 1 ∧ s.hotSound (s.pktKey p).buckets = true ∧ s.catBlocked (s.pktKey p).buckets = false ∧ s.catFull = false ∧ ∃ x, s.findEntry (s.pktKey p).profile (s.pktKey p).key (s.pktKey p).buckets = some x) ∧
    (∃ (s : State) (t : Nat),
      ∃ p, (s.pkts.find? fun p => p.stage = .lookup) = some p ∧ s.frozen = false ∧ s.canonical = true ∧ s.lib.retiring = none ∧ actPath p.action = 1 ∧ s.hotSound (s.pktKey p).buckets = true ∧ s.catBlocked (s.pktKey p).buckets = false ∧ s.catFull = false ∧ s.findEntry (s.pktKey p).profile (s.pktKey p).key (s.pktKey p).buckets = none ∧ s.flag (0x4010 + actProfile p.action) 2 = true ∧ ∃ x, s.place (s.pktKey p).pair = some x ∧ x.1 ∈ (s.pktKey p).buckets) ∧
    (∃ (s : State) (t : Nat),
      s.lib.retiring = none ∧ (s.frozen = true ∨ s.catFull = true ∨ (s.pkts.all fun p => decide (p.stage ≠ .lookup)) = true)) ∧
    (∃ (s : State) (pid t : Nat),
      ∃ w, s.cat.waiting = [w] ∧ w.isLookup pid = true ∧ w.fetching = true ∧ s.frozen = false ∧ s.cat.cache = [] ∧ (s.opBuckets w.op).length ≤ 4 ∧ (s.opBuckets w.op).Nodup ∧ ∃ p, s.pkt? pid = some p ∧ actPath p.action = 1) ∧
    (∃ (s : State) (pid t : Nat),
      s.lib.retiring = none ∧ (s.frozen = true ∨ s.cat.waiting = [])) :=
  ⟨⟨withPkt { pkt1 with stage := .lookup }, 5, _, rfl, by decide, by decide, by decide, uncached_any (s := withPkt { pkt1 with stage := .lookup }) rfl, by decide⟩,
   ⟨cached (newEntry 0 0 0 pkt1), 5, hitPkt, rfl, by decide, by decide, by decide, by decide, hot_of (cached_cache _) (by decide), by decide, by decide, found_of (cached_cache _) (by decide)⟩,
   ⟨cached 0, 5, hitPkt, rfl, by decide, by decide, by decide, by decide, hot_of (cached_cache _) (by decide), by decide, by decide, unfound_of (cached_cache _) (by decide), by decide, placed_of rfl (cached_cache _) (by decide)⟩,
   ⟨inState .run, 5, by decide, by decide⟩,
   ⟨(let s := withPkt { pkt1 with stage := .fetch, action := 2 ^ 90 }; { s with cat := { waiting := [⟨.lookup 1 { profile := 0, key := 0, buckets := [3], pair := (3, 3), epoch := 0 }, true⟩] } }), 1, 5, _, rfl, by decide, by decide, by decide, by decide, by decide, by decide, _, some_of (by decide), by decide⟩,
   ⟨inState .run, 1, 5, by decide, by decide⟩⟩

/-- States and operands that meet the hypotheses of each clause of CatalogueUpkeep. -/
theorem witness_CatalogueUpkeep :
    (∃ (s : State) (t : Nat),
      s.frozen = false ∧ s.catRuns = true ∧ s.sweepDue ≤ (s.at t).clock.elapsed ∧ s.catBlocked [s.cat.sweep] = true) ∧
    (∃ (s : State) (t : Nat),
      s.frozen = false ∧ s.catRuns = true ∧ s.sweepDue ≤ (s.at t).clock.elapsed ∧ s.catBlocked [s.cat.sweep] = false ∧ s.hotSound [s.cat.sweep] = true) ∧
    (∃ (s : State) (t : Nat),
      (s.frozen = true ∨ s.catRuns = false ∨ (s.at t).clock.elapsed < s.sweepDue)) ∧
    (∃ (s : State) (t : Nat),
      s.frozen = false ∧ s.catRuns = true ∧ s.get 0x400C 0 ≠ 0 ∧ s.cat.migrDue ≤ 27 * (s.at t).clock.elapsed ∧ s.catBlocked (s.migrateBuckets s.cat.migr) = false ∧ s.hotSound [s.cat.migr] = true ∧ s.oldCount s.cat.migr = 0 ∧ s.cat.migr + 1 < bucketCount) ∧
    (∃ (s : State) (t : Nat),
      s.frozen = false ∧ s.canonical = true ∧ s.catRuns = true ∧ s.get 0x400C 0 ≠ 0 ∧ s.cat.migrDue ≤ 27 * (s.at t).clock.elapsed ∧ s.catBlocked (s.migrateBuckets s.cat.migr) = false ∧ s.hotSound (s.migrateBuckets s.cat.migr) = true ∧ s.cat.migr + 1 < bucketCount ∧ ∃ e, (s.bucket s.cat.migr).filter s.oldEpoch = [e] ∧ ∃ x, (s.setEntry s.cat.migr ((s.bucket s.cat.migr).findIdx s.oldEpoch) (freed e)).place (s.learnPair (entryFlow e).1 (entryFlow e).2) = some x ∧ s.get 0x400F 0 ≤ 1) ∧
    (∃ (s : State) (t : Nat),
      s.frozen = false ∧ s.canonical = true ∧ s.catRuns = true ∧ s.get 0x400C 0 ≠ 0 ∧ s.cat.migrDue ≤ 27 * (s.at t).clock.elapsed ∧ s.cat.waiting = [] ∧ s.cat.migr + 1 = bucketCount ∧ s.oldBuckets = [] ∧ s.hotSound [s.cat.migr] = true ∧ s.oldCount s.cat.migr = 0) ∧
    (∃ (s : State) (t : Nat),
      (s.frozen = true ∨ s.catRuns = false ∨ s.get 0x400C 0 = 0 ∨ 27 * (s.at t).clock.elapsed < s.cat.migrDue)) :=
  ⟨⟨{ (inState .run).put 0x4000 0 0 with cat := { waiting := [⟨.sweep 0, false⟩] } }, 5, by decide, by decide, by decide, by decide⟩,
   ⟨{ (inState .run).put 0x4000 0 0 with cat := { cache := [⟨0, [0, 0, 0, 0], false, false⟩] } }, 5, by decide, by decide, by decide, by decide, by decide⟩,
   ⟨inState .run, 5, by decide⟩,
   ⟨{ (inState .run).put 0x400C 0 1 with cat := { cache := [⟨0, [0, 0, 0, 0], false, false⟩] } }, 5, by decide, by decide, by decide, by decide, by decide, by decide, by decide, by decide⟩,
   ⟨migrating, 5, by decide, by decide, by decide, by decide, by decide, by decide, migrating_hot, by decide, oldEntry, migrating_old, migrating_next⟩,
   ⟨{ (inState .run).put 0x400C 0 1 with cat := { migr := bucketCount - 1, newSeeds := some (1, 2), cache := [⟨bucketCount - 1, [0, 0, 0, 0], false, false⟩] } }, 5, by decide, by decide, by decide, by decide, by decide, by decide, by decide, by decide, by decide, by decide⟩,
   ⟨inState .run, 5, by decide⟩⟩

/-- States and operands that meet the hypotheses of each clause of CatalogueRequests. -/
theorem witness_CatalogueRequests :
    (∃ (s : State) (r : Req),
      ∃ u, s.Writable r 0x400B 0 1 u ∧ u.dev.st ≠ .test ∧ u.get 0x400C 0 = 0 ∧ s.canonical = true) ∧
    (∃ (s : State) (r : Req),
      ∃ u, s.Writable r 0x400B 0 1 u ∧ u.dev.st ≠ .test ∧ u.get 0x400C 0 ≠ 0) ∧
    (∃ (s : State) (r : Req),
      ∃ u, s.Admits svcRead r 0x4020 3 [] u ∧ (u.cat.waiting.any fun w => match w.op with | .probe a _ => a.isOf r | _ => false) = false ∧ u.catBlocked u.probeKey.buckets = false ∧ u.hotSound u.probeKey.buckets = true) ∧
    (∃ (s : State) (r : Req),
      ∃ u, s.Admits svcRead r 0x4020 3 [] u ∧ (u.cat.waiting.any fun w => match w.op with | .probe a _ => a.isOf r | _ => false) = false ∧ u.catBlocked u.probeKey.buckets = true) ∧
    (∃ (s : State) (r : Req),
      ∃ u, s.Writable r 0x4020 4 1 u ∧ u.catBlocked u.probeKey.buckets = false ∧ u.hotSound u.probeKey.buckets = true ∧ ∃ x, u.findEntry (u.get 0x4020 1) (Bits.beNat (Bits.natLe 40 (u.get 0x4020 2))) u.probeKey.buckets = some x) ∧
    (∃ (s : State) (r : Req),
      ∃ u, s.Writable r 0x4020 4 1 u ∧ u.catBlocked u.probeKey.buckets = true) ∧
    (∃ (s : State) (r : Req),
      ∃ u, s.Writable r 0x4021 0 1 u ∧ (u.dev.st = .prepare ∨ u.dev.st = .drain) ∧ s.canonical = true) ∧
    (∃ (s : State) (r : Req),
      ∃ u, s.Writable r 0x4021 0 1 u ∧ u.dev.st = .run) :=
  ⟨⟨served .run, ask, _, writable_of (by decide), by decide, by decide, by decide⟩,
   ⟨(served .run).put 0x400C 0 1, ask, _, writable_of (by decide), by decide, by decide⟩,
   ⟨probed 0, ask, _, admits_of (by decide), by decide, rfl, hot_of (served_cache _ _ _) (by decide)⟩,
   ⟨{ served .run with cat := { waiting := [⟨.sweep ((served .run).probeKey.buckets.headD 0), false⟩] } }, ask, _, admits_of (by decide), by decide, blocked_of rfl (head_candidate (served .run) ((served .run).get 0x4020 1) (beNat (natLe 40 ((served .run).get 0x4020 2))))⟩,
   ⟨probed (newEntry 0 0 0 pkt1), ask, _, writable_of (by decide), rfl, hot_of (probed_cache _) (by decide), found_of (probed_cache _) (by decide)⟩,
   ⟨{ served .run with cat := { waiting := [⟨.sweep ((served .run).probeKey.buckets.headD 0), false⟩] } }, ask, _, writable_of (by decide), blocked_of rfl (head_candidate (served .run) ((served .run).get 0x4020 1) (beNat (natLe 40 ((served .run).get 0x4020 2))))⟩,
   ⟨served .prepare, ask, _, writable_of (by decide), by decide, by decide⟩,
   ⟨served .run, ask, _, writable_of (by decide), by decide⟩⟩

/-- States and operands that meet the hypotheses of each clause of TreeCommands. -/
theorem witness_TreeCommands :
    (∃ (s : State) (pipe : Fin 4) (cycle t : Nat),
      ∃ p, (s.pkts.find? fun p => p.stage = .vector ∧ p.pipe = pipe.val) = some p ∧ ∃ m, s.modelOf p.ma = some m ∧ s.frozen = false ∧ s.canonical = true ∧ s.lib.retiring = none ∧ s.tree.cycle < cycle ∧ m.ens.getD (actEnsemble p.action) 0 ≠ 0 ∧ ensBanks (m.ens.getD (actEnsemble p.action) 0) p.port ≠ [] ∧ ((ensBanks (m.ens.getD (actEnsemble p.action) 0) p.port).any fun b => s.tree.suspect.contains b || s.crossingFull b) = false) ∧
    (∃ (s : State) (pipe : Fin 4) (cycle t : Nat),
      ∃ p, (s.pkts.find? fun p => p.stage = .vector ∧ p.pipe = pipe.val) = some p ∧ ∃ m, s.modelOf p.ma = some m ∧ s.frozen = false ∧ s.canonical = true ∧ s.lib.retiring = none ∧ s.tree.cycle = cycle ∧ s.tree.pos ≤ (pipe.val + 4 - cycle % 4) % 4 ∧ m.ens.getD (actEnsemble p.action) 0 ≠ 0 ∧ ((ensBanks (m.ens.getD (actEnsemble p.action) 0) p.port).any fun b => s.tree.suspect.contains b) = false ∧ ((ensBanks (m.ens.getD (actEnsemble p.action) 0) p.port).any fun b => s.tree.used.contains b || s.crossingFull b) = true) ∧
    (∃ (s : State) (pipe : Fin 4) (cycle t : Nat),
      ∃ p, (s.pkts.find? fun p => p.stage = .vector ∧ p.pipe = pipe.val) = some p ∧ ∃ m, s.modelOf p.ma = some m ∧ s.frozen = false ∧ s.canonical = true ∧ s.lib.retiring = none ∧ s.tree.cycle < cycle ∧ m.ens.getD (actEnsemble p.action) 0 = 0 ∧ p.flow = none ∧ actTap p.action = false ∧ (s.lineAt p.port).skipped.contains p.pid = false ∧ (s.bankOf p.ra).get (0x4810 + actEnsemble p.action) 9 = 5 * 2 ^ 61) ∧
    (∃ (s : State) (pipe : Fin 4) (cycle t : Nat),
      s.lib.retiring = none ∧ (s.frozen = true ∨ cycle < s.tree.cycle ∨ cycle = s.tree.cycle ∧ (pipe.val + 4 - cycle % 4) % 4 < s.tree.pos ∨ cycle = s.tree.cycle ∧ (s.pkts.find? fun p => p.stage = .vector ∧ p.pipe = pipe.val) = none)) ∧
    (∃ (s : State) (b : Fin 4) (t : Nat),
      ∃ j, (s.tree.jobs.find? fun j => j.banks.head? = some b.val) = some j ∧ s.frozen = false ∧ s.canonical = true ∧ s.lib.retiring = none ∧ j.banks.Nodup ∧ (j.banks.all fun b => decide (b < 4)) = true ∧ ∃ p, s.pkt? j.pid = some p ∧ ∃ m, s.modelOf p.ma = some m ∧ p.flow = none ∧ actTap p.action = false ∧ (s.lineAt p.port).skipped.contains p.pid = false ∧ j.ens < 16 ∧ ((s.bankOf p.ra).get (0x4810 + j.ens) ((verdictOf m (m.ens.getD j.ens 0) j.banks j.feats).1 + 1) = 5 * 2 ^ 61 ∨ (s.bankOf p.ra).get (0x4810 + j.ens) ((verdictOf m (m.ens.getD j.ens 0) j.banks j.feats).1 + 1) = 0)) ∧
    (∃ (s : State) (b : Fin 4) (t : Nat),
      s.lib.retiring = none ∧ (s.frozen = true ∨ (s.tree.jobs.find? fun j => j.banks.head? = some b.val) = none)) ∧
    (∃ (s : State) (b : Fin 4) (t : Nat),
      ∃ j, (s.tree.jobs.filter fun j => j.banks.contains b.val) = [j] ∧ j.entry + 71 ≤ (s.at t).now ∧ s.frozen = false ∧ s.canonical = true ∧ s.lib.retiring = none ∧ ∃ p, s.pkt? j.pid = some p ∧ p.flow = none ∧ actTap p.action = false ∧ (s.lineAt p.port).skipped.contains p.pid = false ∧ j.ens < 16 ∧ (s.bankOf p.ra).get (0x4810 + j.ens) 9 = 5 * 2 ^ 61) ∧
    (∃ (s : State) (b : Fin 4) (t : Nat),
      s.lib.retiring = none ∧ (s.frozen = true ∨ (s.tree.jobs.find? fun j => j.banks.contains b.val && decide (j.entry + 71 ≤ (s.at t).now)) = none)) :=
  ⟨⟨{ withPkt { pkt1 with stage := .vector } with lib := { active := some { model1 with ens := [1] } } }, 0, 1, 5, _, some_of (by decide), _, some_of (by decide), by decide, by decide, by decide, by decide, by decide, by decide, by decide⟩,
   ⟨{ withPkt { pkt1 with stage := .vector } with lib := { active := some { model1 with ens := [1] } }, tree := { cycle := 1, used := [0] } }, 0, 1, 5, _, some_of (by decide), _, some_of (by decide), by decide, by decide, by decide, by decide, by decide, by decide, by decide, by decide⟩,
   ⟨{ withPkt { pkt1 with stage := .vector } with lib := { active := some model1 }, intake := { bank := { objs := ((List.range 9).map fun k => (objKey 0x4810 (k + 1), 5 * 2 ^ 61)) } } }, 0, 1, 5, _, some_of (by decide), _, some_of (by decide), by decide, by decide, by decide, by decide, by decide, by decide, by decide, by decide, by decide⟩,
   ⟨{ withPkt { pkt1 with stage := .vector } with lib := { active := some { model1 with ens := [1] } }, tree := { cycle := 2 } }, 0, 1, 5, by decide, by decide⟩,
   ⟨{ withPkt { pkt1 with stage := .banks } with lib := { active := some { model1 with ens := [1] } }, tree := { jobs := [⟨1, 0, [0], [], 0⟩] }, intake := { bank := { objs := ((List.range 9).map fun k => (objKey 0x4810 (k + 1), 5 * 2 ^ 61)) } } }, 0, 5, _, some_of (by decide), by decide, by decide, by decide, by decide, by decide, _, some_of (by decide), _, some_of (by decide), by decide, by decide, by decide, by decide, by decide⟩,
   ⟨withPkt { pkt1 with stage := .banks }, 0, 5, by decide, by decide⟩,
   ⟨{ withPkt { pkt1 with stage := .banks } with tree := { jobs := [⟨1, 0, [0], [], 0⟩] }, intake := { bank := { objs := ((List.range 9).map fun k => (objKey 0x4810 (k + 1), 5 * 2 ^ 61)) } } }, 0, 71, _, rfl, by decide, by decide, by decide, by decide, _, some_of (by decide), by decide, by decide, by decide, by decide, by decide⟩,
   ⟨{ withPkt { pkt1 with stage := .banks } with tree := { jobs := [⟨1, 0, [0], [], 0⟩] }, intake := { bank := { objs := ((List.range 9).map fun k => (objKey 0x4810 (k + 1), 5 * 2 ^ 61)) } } }, 0, 70, by decide, by decide⟩⟩

/-- States and operands that meet the hypotheses of each clause of TapCommands. -/
theorem witness_TapCommands :
    (∃ (s : State) (pipe : Fin 4) (t : Nat),
      ∃ x, takeJob pipe.val s.intake.tapQ = some x ∧ s.frozen = false ∧ s.dev.st = .run ∧ s.lib.retiring = none ∧ s.canonical = true ∧ (s.tap x.1.desc).cur ≤ 1 ∧ (tapRowsOf (s.bankOf x.1.ra) x.1).isEmpty = false ∧ ((s.tap x.1.desc).buf (s.tap x.1.desc).cur).busy = false ∧ (((s.tap x.1.desc).buf (s.tap x.1.desc).cur).rows = 0 ∨ (((s.tap x.1.desc).buf (s.tap x.1.desc).cur).acc = some x.1.ma ∧ ((s.tap x.1.desc).buf (s.tap x.1.desc).cur).ra = x.1.ra)) ∧ ((s.tap x.1.desc).buf (s.tap x.1.desc).cur).rows + (tapRowsOf (s.bankOf x.1.ra) x.1).length < (s.bankOf x.1.ra).tapRows x.1.desc) ∧
    (∃ (s : State) (pipe : Fin 4) (t : Nat),
      ∃ x, takeJob pipe.val s.intake.tapQ = some x ∧ s.frozen = false ∧ s.dev.st = .run ∧ s.lib.retiring = none ∧ s.canonical = true ∧ (s.tap x.1.desc).cur = 0 ∧ (s.tap x.1.desc).b0.busy = false ∧ (s.tap x.1.desc).b0.rows = 0 ∧ 1 < (s.bankOf x.1.ra).tapRows x.1.desc ∧ ∃ row, (tapRowsOf (s.bankOf x.1.ra) x.1).head? = some row ∧ (tapRowsOf (s.bankOf x.1.ra) x.1).length = 1 ∧ row.scale = none ∧ s.flag 0x8000 0 = false ∧ (s.bankOf x.1.ra).tapArray x.1.desc < 16 ∧ Sparse.wf (s.arrAt ((s.bankOf x.1.ra).tapArray x.1.desc)).wingDef (s.arrAt ((s.bankOf x.1.ra).tapArray x.1.desc)).wings = true) ∧
    (∃ (s : State) (pipe : Fin 4) (t : Nat),
      ∃ x, takeJob pipe.val s.intake.tapQ = some x ∧ s.frozen = false ∧ s.dev.st = .run ∧ s.lib.retiring = none ∧ s.canonical = true ∧ (tapRowsOf (s.bankOf x.1.ra) x.1).isEmpty = false ∧ (s.tap x.1.desc).b0.busy = true ∧ (s.tap x.1.desc).b1.busy = true ∧ (s.tap x.1.desc).cur ≤ 1 ∧ x.1.held = false) ∧
    (∃ (s : State) (pipe : Fin 4) (t : Nat),
      s.lib.retiring = none ∧ (s.frozen = true ∨ takeJob pipe.val s.intake.tapQ = none)) :=
  ⟨⟨tapping, 0, 5, _, some_of (by decide +kernel), by decide +kernel, by decide +kernel, by decide +kernel, by decide +kernel, by decide +kernel, by decide +kernel, by decide +kernel, by decide +kernel, by decide +kernel⟩,
   ⟨tapping, 0, 5, _, some_of (by decide +kernel), by decide +kernel, by decide +kernel, by decide +kernel, by decide +kernel, by decide +kernel, by decide +kernel, by decide +kernel, by decide +kernel, _, some_of (by decide +kernel), by decide +kernel, by decide +kernel, by decide +kernel, by decide +kernel, by decide +kernel⟩,
   ⟨{ tapping with sync := { taps := [(0, { b0 := { busy := true }, b1 := { busy := true } })] } }, 0, 5, _, some_of (by decide +kernel), by decide +kernel, by decide +kernel, by decide +kernel, by decide +kernel, by decide +kernel, by decide +kernel, by decide +kernel, by decide +kernel, by decide +kernel⟩,
   ⟨inState .run, 0, 5, by decide, by decide⟩⟩

/-- States and operands that meet the hypotheses of each clause of ListCommands. -/
theorem witness_ListCommands :
    (∃ (s : State) (a : Fin 16) (t : Nat),
      ∃ r, s.nextRing a.val = some r ∧ (s.arrAt a.val).run = none ∧ r < 16 ∧ s.canonical = true ∧ s.headSound a.val r = true ∧ ((s.arrAt a.val).susp.head?.all fun x => decide (s.runPrio a.val x < s.ringPrio a.val r)) = true ∧ s.accessionLive (Bits.fld (w (s.headWords a.val r) 0) 31 16) = true) ∧
    (∃ (s : State) (a : Fin 16) (t : Nat),
      ∃ r, s.nextRing a.val = some r ∧ (s.arrAt a.val).run = none ∧ (s.arrAt a.val).susp = [] ∧ r < 16 ∧ s.canonical = true ∧ s.launchAt a.val r (s.consumer a.val r) = false ∧ s.headSound a.val r = true ∧ s.accessionLive (Bits.fld (w (s.headWords a.val r) 0) 31 16) = false ∧ (s.arrAt a.val).dead = []) ∧
    (∃ (s : State) (a : Fin 16) (t : Nat),
      ∃ r, s.nextRing a.val = some r ∧ (s.arrAt a.val).run = none ∧ (s.arrAt a.val).susp = [] ∧ r < 16 ∧ s.canonical = true ∧ s.headSound a.val r = false ∧ 1 ≤ s.get 0x5003 0) ∧
    (∃ (s : State) (a : Fin 16) (t : Nat),
      ((s.arrAt a.val).run.isSome = true ∨ (s.nextRing a.val).isNone = true ∨ s.nextRing a.val = some 16)) ∧
    (∃ (s : State) (a : Fin 16) (t : Nat),
      ∃ r, (s.arrAt a.val).run = some r ∧ ∃ q, s.higherReady a.val r = some q ∧ s.isUrgent a.val q r = false ∧ s.canonical = true ∧ (match r.block with | .none => true | .fence _ => true | .signal _ _ _ _ _ => true | _ => false) = true) ∧
    (∃ (s : State) (a : Fin 16) (t : Nat),
      ∃ r, (s.arrAt a.val).run = some r ∧ ∃ q, s.higherReady a.val r = some q ∧ s.isUrgent a.val q r = false ∧ s.canonical = true ∧ (match r.block with | .wait _ _ _ => true | .hold _ => true | _ => false) = true) ∧
    (∃ (s : State) (a : Fin 16) (t : Nat),
      ((s.arrAt a.val).run = none ∨ ((s.arrAt a.val).run.all fun r => (s.higherReady a.val r).all fun q => s.isUrgent a.val q r || !r.atBoundary) = true)) ∧
    (∃ (s : State) (a : Fin 16) (t : Nat),
      ∃ r, (s.arrAt a.val).run = some r ∧ ∃ q, s.higherReady a.val r = some q ∧ r.block = .none ∧ s.isUrgent a.val q r = true ∧ r.impliedFlying = false ∧ s.canonical = true) ∧
    (∃ (s : State) (a : Fin 16) (t : Nat),
      ∃ r, (s.arrAt a.val).run = some r ∧ ∃ q, s.higherReady a.val r = some q ∧ r.block = .none ∧ s.isUrgent a.val q r = true ∧ ((r.fly.filter fun f => decide (f.cls ≠ .stream)).any fun f => f.implied.isSome) = true ∧ s.canonical = true) ∧
    (∃ (s : State) (a : Fin 16) (t : Nat),
      ((s.arrAt a.val).run = none ∨ ((s.arrAt a.val).run.all fun r => (s.higherReady a.val r).all fun q => !(s.isUrgent a.val q r) || !r.atBoundary) = true)) ∧
    (∃ (s : State) (a : Fin 16) (t : Nat),
      ∃ r, (s.arrAt a.val).susp.head? = some r ∧ (s.arrAt a.val).run = none ∧ s.higherReady a.val r = none ∧ s.halted a.val = false ∧ s.frozen = false ∧ r.rewind = false ∧ r.block = .none ∧ r.ending = false ∧ s.canonical = true) ∧
    (∃ (s : State) (a : Fin 16) (t : Nat),
      ∃ r, (s.arrAt a.val).susp.head? = some r ∧ (s.arrAt a.val).run = none ∧ s.higherReady a.val r = none ∧ s.halted a.val = false ∧ s.frozen = false ∧ r.rewind = true ∧ r.impliedFlying = false) ∧
    (∃ (s : State) (a : Fin 16) (t : Nat),
      ((s.arrAt a.val).run.isSome = true ∨ (s.arrAt a.val).susp = [] ∨ s.halted a.val = true ∨ s.frozen = true ∨ ((s.arrAt a.val).susp.head?.any fun r => (s.higherReady a.val r).isSome) = true)) ∧
    (∃ (s : State) (a : Fin 16) (t : Nat),
      ∃ r, (s.arrAt a.val).run = some r ∧ ∃ x, r.resume = some x ∧ x ≤ (s.at t).now) ∧
    (∃ (s : State) (a : Fin 16) (t : Nat),
      ((s.arrAt a.val).run.all fun r => r.resume.all fun x => decide ((s.at t).now < x)) = true) :=
  ⟨⟨{ (inRing [w0 0 128]).put 0x6800 0 1 with lib := { active := some model1 } }, 0, 5, _, some_of (by decide), by decide, by decide, by decide, by decide, by decide, by decide⟩,
   ⟨inRing [w0 0 128], 0, 5, _, some_of (by decide), by decide, by decide, by decide, by decide, by decide, by decide, by decide, by decide⟩,
   ⟨(inRing [w0 0 128]).cueWrite 0 0 (mkCue [w0 0 128] 7), 0, 5, _, some_of (by decide), by decide, by decide, by decide, by decide, by decide, by decide⟩,
   ⟨inState .run, 0, 5, by decide⟩,
   ⟨(((inRing [w0 0 128]).modArr 0 fun x => { x with run := some { list1 with ring := 1 } }).put 0x5101 3 0).put 0x5100 3 1, 0, 5, _, some_of (by decide), _, some_of (by decide), by decide, by decide, by decide⟩,
   ⟨(((inRing [w0 0 128]).modArr 0 fun x => { x with run := some { list1 with ring := 1, block := .wait 0 1 false } }).put 0x5101 3 0).put 0x5100 3 1, 0, 5, _, some_of (by decide), _, some_of (by decide), by decide, by decide, by decide⟩,
   ⟨(inState .run), 0, 5, by decide⟩,
   ⟨((((inRing [w0 0 128]).modArr 0 fun x => { x with run := some { list1 with ring := 1, fly := [{ cls := .stream }] } }).put 0x5101 3 0).put 0x5100 3 1).put 0x5100 4 1, 0, 5, _, some_of (by decide), _, some_of (by decide), by decide, by decide, by decide, by decide⟩,
   ⟨((((inRing [w0 0 128]).modArr 0 fun x => { x with run := some { list1 with ring := 1, fly := [{ cls := .stream }, { cls := .callslip, implied := some { pos := .body 0, stack := [], front := 0 } }] } }).put 0x5101 3 0).put 0x5100 3 1).put 0x5100 4 1, 0, 5, _, some_of (by decide), _, some_of (by decide), by decide, by decide, by decide, by decide⟩,
   ⟨inState .run, 0, 5, by decide⟩,
   ⟨(inState .run).modArr 0 fun x => { x with susp := [list1] }, 0, 5, _, some_of (by decide), by decide, by decide, by decide, by decide, by decide, by decide, by decide, by decide⟩,
   ⟨(inState .run).modArr 0 fun x => { x with susp := [{ list1 with rewind := true, pos := .body 3 }] }, 0, 5, _, some_of (by decide), by decide, by decide, by decide, by decide, by decide, by decide⟩,
   ⟨inState .run, 0, 5, by decide⟩,
   ⟨(inState .run).modArr 0 fun x => { x with run := some { list1 with resume := some 5 } }, 0, 5, _, some_of (by decide), _, some_of (by decide), by decide⟩,
   ⟨(inState .run).modArr 0 fun x => { x with run := some { list1 with resume := some 6 } }, 0, 5, by decide⟩⟩

/-- States and operands that meet the hypotheses of each clause of ArrayPowerCommands. -/
theorem witness_ArrayPowerCommands :
    (∃ (s : State) (cycle t : Nat),
      ∃ a, s.nextAdmitted = some a ∧ a < 16 ∧ s.frozen = false ∧ s.canonical = true ∧ (match s.sync.lastAdmit with | none => true | some c => decide (c + s.get 0x5001 0 ≤ cycle)) = true) ∧
    (∃ (s : State) (cycle t : Nat),
      (s.nextAdmitted = none ∨ s.frozen = true ∨ (s.sync.lastAdmit.any fun c => decide (cycle < c + s.get 0x5001 0)) = true)) ∧
    (∃ (s : State) (a : Fin 16) (t : Nat),
      s.power a.val = 1 ∧ s.frozen = false ∧ s.canonical = true) ∧
    (∃ (s : State) (a : Fin 16) (t : Nat),
      (s.power a.val ≠ 1 ∨ s.frozen = true)) ∧
    (∃ (s : State) (a : Fin 16) (gap t : Nat),
      s.power a.val = 2 ∧ s.flag (0x5020 + a.val) 2 = true ∧ s.get (0x5020 + a.val) 1 < gap ∧ s.quiet a.val = true ∧ s.frozen = false ∧ s.canonical = true) ∧
    (∃ (s : State) (a : Fin 16) (gap t : Nat),
      (s.power a.val ≠ 2 ∨ s.flag (0x5020 + a.val) 2 = false ∨ gap ≤ s.get (0x5020 + a.val) 1 ∨ s.quiet a.val = false ∨ s.frozen = true)) ∧
    (∃ (s : State) (a : Fin 16) (t : Nat),
      s.power a.val = 3 ∧ s.frozen = false ∧ s.canonical = true) ∧
    (∃ (s : State) (a : Fin 16) (t : Nat),
      (s.power a.val ≠ 3 ∨ s.frozen = true)) :=
  ⟨⟨(inState .run).modArr 0 fun x => { x with wantFrom := some 0 }, 5, 5, _, some_of (by decide), by decide, by decide, by decide, by decide⟩,
   ⟨inState .run, 5, 5, by decide⟩,
   ⟨(inState .run).put 0x5010 2 1, 0, 5, by decide, by decide, by decide⟩,
   ⟨inState .run, 0, 5, by decide⟩,
   ⟨(((inState .run).put 0x5010 2 2).put 0x5020 2 1).put 0x5020 1 100, 0, 101, 5, by decide, by decide, by decide, by decide, by decide, by decide⟩,
   ⟨(((inState .run).put 0x5010 2 2).put 0x5020 2 1).put 0x5020 1 100, 0, 100, 5, by decide⟩,
   ⟨(inState .run).put 0x5010 2 3, 0, 5, by decide, by decide, by decide⟩,
   ⟨inState .run, 0, 5, by decide⟩⟩

/-- States and operands that meet the hypotheses of each clause of CueErrors. -/
theorem witness_CueErrors :
    (∃ (s : State) (a : Fin 16) (c : CueCheck) (t : Nat),
      ∃ r, s.issuing a.val = some r ∧ c = .agree ∧ r.impliedFlying = false ∧ s.canonical = true ∧ s.nextIs a.val opNop = true ∧ ∃ e, s.firstError a.val r (s.cueWords a.val r) = some e ∧ e ≠ .accession ∧ r.retries + 1 ≤ s.get 0x5003 0) ∧
    (∃ (s : State) (a : Fin 16) (c : CueCheck) (t : Nat),
      ∃ r, s.issuing a.val = some r ∧ c = .agree ∧ r.tap = none ∧ r.skip = none ∧ r.ring < 16 ∧ (s.arrAt a.val).dead = [] ∧ s.canonical = true ∧ s.nextIs a.val opNop = true ∧ ∃ e, s.firstError a.val r (s.cueWords a.val r) = some e ∧ (e = .accession ∨ s.get 0x5003 0 < r.retries + 1)) ∧
    (∃ (s : State) (a : Fin 16) (c : CueCheck) (t : Nat),
      ∃ r, s.issuing a.val = some r ∧ s.mayIssue a.val opStream c r = true ∧ r.impliedFlying = false ∧ s.canonical = true ∧ ∃ x, s.adds a.val r (s.cueWords a.val r) = some x ∧ ∃ e, (streamCue r x (s.cueWords a.val r)).issueError (s.arrAt a.val) = some e ∧ r.retries + 1 ≤ s.get 0x5003 0) ∧
    (∃ (s : State) (a : Fin 16) (c : CueCheck) (t : Nat),
      ∃ r, s.issuing a.val = some r ∧ s.mayIssue a.val opStream c r = true ∧ r.impliedFlying = false ∧ s.canonical = true ∧ ∃ x, s.adds a.val r (s.cueWords a.val r) = some x ∧ (streamCue r x (s.cueWords a.val r)).issueError (s.arrAt a.val) = none ∧ ∃ e, s.operand a.val (streamCue r x (s.cueWords a.val r)) = .error e ∧ r.retries + 1 ≤ s.get 0x5003 0) ∧
    (∃ (s : State) (a : Fin 16) (c : CueCheck) (t : Nat),
      ∃ r, s.issuing a.val = some r ∧ s.mayIssue a.val opShelve c r = true ∧ r.impliedFlying = false ∧ s.canonical = true ∧ r.ring < 16 ∧ ∃ x, s.adds a.val r (s.cueWords a.val r) = some x ∧ ∃ src, shelveSource (s.cueWords a.val r) x = some src ∧ s.cueMayRead src (Bits.fld (w (s.cueWords a.val r) 3) 11 0 * 256) = false ∧ r.retries + 1 ≤ s.get 0x5003 0) ∧
    (∃ (s : State) (a : Fin 16) (c : CueCheck) (diff : Option RowDiff) (t : Nat),
      ∃ r, s.issuing a.val = some r ∧ w (s.cueWords a.val r) 0 % 256 = opDrain ∧ (match c with | .understudy _ => true | _ => false) = true) :=
  ⟨⟨atCue [w0 0x40 0], 0, .agree, 5, _, some_of (by decide), by decide, by decide, by decide, by decide, _, some_of (by decide), by decide, by decide⟩,
   ⟨(atCue [w0 0 15]).put 0x5003 0 0, 0, .agree, 5, _, some_of (by decide), by decide, by decide, by decide, by decide, by decide, by decide, by decide, _, some_of (by decide), by decide⟩,
   ⟨atCue [w0 3 0, 1 + 0x00000000, 0x0800A000 + 0x8000, 1 * 2 ^ 21, 0, 0, 1], 0, .agree, 5, _, some_of (by decide), by decide, by decide, by decide, _, some_of (by decide), _, some_of (by decide), by decide⟩,
   ⟨atCue [w0 3 0, 1, 0x88008000, 2 ^ 21, 0, 0, 1], 0, .agree, 5, _, some_of (by decide), by decide, by decide, by decide, _, some_of (by decide), by decide, _, rfl, by decide⟩,
   ⟨atCue [w0 1 0, 0x07FFFFFF, 0, 1], 0, .agree, 5, _, some_of (by decide), by decide, by decide, by decide, by decide, _, some_of (by decide), _, some_of (by decide), by decide, by decide⟩,
   ⟨atCue [w0 4 0], 0, .understudy 3, none, 5, _, some_of (by decide), by decide, by decide⟩⟩

/-- States and operands that meet the hypotheses of each clause of MoveCues. -/
theorem witness_MoveCues :
    (∃ (s : State) (a : Fin 16) (c : CueCheck) (t : Nat),
      ∃ r, s.issuing a.val = some r ∧ s.mayIssue a.val opNop c r = true ∧ Bits.bit (w (s.cueWords a.val r) 0) 15 = false ∧ s.canonical = true) ∧
    (∃ (s : State) (a : Fin 16) (c : CueCheck) (t : Nat),
      ∃ r, s.issuing a.val = some r ∧ s.mayIssue a.val opNop c r = true ∧ Bits.bit (w (s.cueWords a.val r) 0) 15 = true ∧ r.fly = [] ∧ r.ring < 16 ∧ r.skip = none ∧ (s.arrAt a.val).dead = [] ∧ s.canonical = true) ∧
    (∃ (s : State) (a : Fin 16) (c : CueCheck) (t : Nat),
      s.nextIs a.val opNop = false) ∧
    (∃ (s : State) (a : Fin 16) (c : CueCheck) (t : Nat),
      ∃ r, s.issuing a.val = some r ∧ s.mayIssue a.val opShelve c r = true ∧ Bits.fld (w (s.cueWords a.val r) 2) 31 30 = 0 ∧ r.ring < 16 ∧ ∃ x, s.adds a.val r (s.cueWords a.val r) = some x ∧ ∃ src, shelveSource (s.cueWords a.val r) x = some src ∧ s.cueMayRead src (Bits.fld (w (s.cueWords a.val r) 3) 11 0 * 256) = true ∧ ∃ y, x.shelfAddr (Bits.fld (w (s.cueWords a.val r) 2) 14 0) (Bits.fld (w (s.cueWords a.val r) 3) 11 0 * 256) = some y ∧ ((s.twins a.val).all fun b => Sparse.wf memDefault (s.arrAt b).shelf) = true) ∧
    (∃ (s : State) (a : Fin 16) (c : CueCheck) (t : Nat),
      ∃ r, s.issuing a.val = some r ∧ s.mayIssue a.val opShelve c r = true ∧ Bits.fld (w (s.cueWords a.val r) 2) 31 30 = 1 ∧ r.ring < 16 ∧ ∃ x, s.adds a.val r (s.cueWords a.val r) = some x ∧ ∃ src, shelveSource (s.cueWords a.val r) x = some src ∧ s.cueMayRead src (Bits.fld (w (s.cueWords a.val r) 3) 11 0 * 256) = true ∧ ((s.twins a.val).all fun b => Sparse.wf (fun _ => 0) (s.arrAt b).tg8) = true) ∧
    (∃ (s : State) (a : Fin 16) (c : CueCheck) (t : Nat),
      s.nextIs a.val opShelve = false) ∧
    (∃ (s : State) (a : Fin 16) (c : CueCheck) (t : Nat),
      ∃ r, s.issuing a.val = some r ∧ s.mayIssue a.val opStage c r = true ∧ Bits.fld (w (s.cueWords a.val r) 2) 31 30 = 0 ∧ ∃ x, s.adds a.val r (s.cueWords a.val r) = some x ∧ ∃ l, x.line (Bits.fld (w (s.cueWords a.val r) 2) 14 0) (w (s.cueWords a.val r) 3) = some l ∧ ∃ v, x.unit (Bits.fld (w (s.cueWords a.val r) 1) 28 0) = some v ∧ s.cueMayRead (v * 64) (w (s.cueWords a.val r) 3 * 64) = true ∧ ((s.twins a.val).all fun b => Sparse.wf (s.arrAt b).wingDef (s.arrAt b).wings && Sparse.wf (s.arrAt b).tagDef (s.arrAt b).tags) = true) ∧
    (∃ (s : State) (a : Fin 16) (c : CueCheck) (t : Nat),
      ∃ r, s.issuing a.val = some r ∧ s.mayIssue a.val opStage c r = true ∧ Bits.fld (w (s.cueWords a.val r) 2) 31 30 = 1 ∧ ∃ x, s.adds a.val r (s.cueWords a.val r) = some x ∧ ∃ l, x.line (Bits.fld (w (s.cueWords a.val r) 2) 14 0) (w (s.cueWords a.val r) 3) = some l ∧ ∃ v, x.unit (Bits.fld (w (s.cueWords a.val r) 1) 28 0) = some v ∧ s.cueMayWrite (v * 64) (w (s.cueWords a.val r) 3 * 64) = true ∧ s.canonical = true) ∧
    (∃ (s : State) (a : Fin 16) (c : CueCheck) (t : Nat),
      ∃ r, s.issuing a.val = some r ∧ s.mayIssue a.val opStage c r = true ∧ Bits.fld (w (s.cueWords a.val r) 2) 31 30 = 2 ∧ ∃ x, s.adds a.val r (s.cueWords a.val r) = some x ∧ ∃ l, x.line (Bits.fld (w (s.cueWords a.val r) 2) 14 0) (w (s.cueWords a.val r) 3) = some l ∧ ∃ d, x.line (Bits.fld (w (s.cueWords a.val r) 2) 29 15) (w (s.cueWords a.val r) 3) = some d ∧ ((s.twins a.val).all fun b => Sparse.wf (s.arrAt b).wingDef (s.arrAt b).wings && Sparse.wf (s.arrAt b).tagDef (s.arrAt b).tags) = true) ∧
    (∃ (s : State) (a : Fin 16) (c : CueCheck) (t : Nat),
      s.nextIs a.val opStage = false) ∧
    (∃ (s : State) (a : Fin 16) (c : CueCheck) (t : Nat),
      ∃ r, s.issuing a.val = some r ∧ s.mayIssue a.val opSwap c r = true ∧ Bits.bit (w (s.cueWords a.val r) 0) 15 = false) ∧
    (∃ (s : State) (a : Fin 16) (c : CueCheck) (t : Nat),
      s.nextIs a.val opSwap = false) ∧
    (∃ (s : State) (a : Fin 16) (t : Nat),
      s.frozen = false ∧ s.runClear a.val = true ∧ 0 < s.inFlight a.val .shelve ∧ ∃ r, (s.arrAt a.val).run = some r ∧ r.ending = false ∧ (s.arrAt a.val).susp = []) ∧
    (∃ (s : State) (a : Fin 16) (t : Nat),
      s.frozen = true) ∧
    (∃ (s : State) (a : Fin 16) (t : Nat),
      s.frozen = false ∧ s.runClear a.val = true ∧ 0 < s.inFlight a.val .stage ∧ ∃ r, (s.arrAt a.val).run = some r ∧ r.ending = false ∧ (s.arrAt a.val).susp = []) ∧
    (∃ (s : State) (a : Fin 16) (t : Nat),
      s.frozen = true) :=
  ⟨⟨atCue [w0 0 0], 0, .agree, 5, _, some_of (by decide), by decide, by decide, by decide⟩,
   ⟨atCue [w0 0 128], 0, .agree, 5, _, some_of (by decide), by decide, by decide, by decide, by decide, by decide, by decide, by decide⟩,
   ⟨atCue [w0 1 0], 0, .agree, 5, by decide⟩,
   ⟨(atCue [w0 1 0, 0, 0, 1]).put 0x6000 2 (2 ^ 30), 0, .agree, 5, _, some_of (by decide), by decide, by decide, by decide, _, some_of (by decide), _, some_of (by decide), by decide, _, some_of (by decide), by decide⟩,
   ⟨(atCue [w0 1 0, 0, 0x40000000, 2]).put 0x6000 2 (2 ^ 30), 0, .agree, 5, _, some_of (by decide), by decide, by decide, by decide, _, some_of (by decide), _, some_of (by decide), by decide, by decide⟩,
   ⟨atCue [w0 0 0], 0, .agree, 5, by decide⟩,
   ⟨(atCue [w0 2 0, 0, 5, 1]).put 0x6000 2 (2 ^ 30), 0, .agree, 5, _, some_of (by decide), by decide, by decide, _, some_of (by decide), _, some_of (by decide), _, some_of (by decide), by decide, by decide⟩,
   ⟨((atCue [w0 2 0, 0, 0x40000005, 1]).put 0x6004 2 (2 ^ 30)).put 0x6004 1 0, 0, .agree, 5, _, some_of (by decide), by decide, by decide, _, some_of (by decide), _, some_of (by decide), _, some_of (by decide), by decide, by decide⟩,
   ⟨atCue [w0 2 0, 0, 0x80008005, 1], 0, .agree, 5, _, some_of (by decide), by decide, by decide, _, some_of (by decide), _, some_of (by decide), _, some_of (by decide), by decide⟩,
   ⟨atCue [w0 0 0], 0, .agree, 5, by decide⟩,
   ⟨atCue [w0 5 0], 0, .agree, 5, _, some_of (by decide), by decide, by decide⟩,
   ⟨atCue [w0 0 0], 0, .agree, 5, by decide⟩,
   ⟨atCueOf [w0 0 0] fun r => { r with fly := [{ cls := .shelve }] }, 0, 5, by decide, by decide, by decide, _, some_of (by decide), by decide, by decide⟩,
   ⟨{ inState .run with obs := { freeze := some ⟨3, 2, 0, some 1, some 4⟩ } }, 0, 5, by decide⟩,
   ⟨atCueOf [w0 0 0] fun r => { r with fly := [{ cls := .stage }] }, 0, 5, by decide, by decide, by decide, _, some_of (by decide), by decide, by decide⟩,
   ⟨{ inState .run with obs := { freeze := some ⟨3, 2, 0, some 1, some 4⟩ } }, 0, 5, by decide⟩⟩

/-- States and operands that meet the hypotheses of each clause of ComputeCues. -/
theorem witness_ComputeCues :
    (∃ (s : State) (a : Fin 16) (c : CueCheck) (t : Nat),
      ∃ r, s.issuing a.val = some r ∧ s.mayIssue a.val opStream c r = true ∧ ∃ x, s.adds a.val r (s.cueWords a.val r) = some x ∧ (streamCue r x (s.cueWords a.val r)).issueError (s.arrAt a.val) = none ∧ ∃ o, s.operand a.val (streamCue r x (s.cueWords a.val r)) = .ok o) ∧
    (∃ (s : State) (a : Fin 16) (c : CueCheck) (t : Nat),
      ∃ r, s.issuing a.val = some r ∧ s.mayIssue a.val opStream c r = true ∧ ∃ x, s.adds a.val r (s.cueWords a.val r) = some x ∧ (streamCue r x (s.cueWords a.val r)).issueError (s.arrAt a.val) = none ∧ ∃ o, s.operand a.val (streamCue r x (s.cueWords a.val r)) = .ok o ∧ (streamCue r x (s.cueWords a.val r)).opens = true ∧ (streamCue r x (s.cueWords a.val r)).kind = 0 ∧ (s.arrAt a.val).front = 0) ∧
    (∃ (s : State) (a : Fin 16) (c : CueCheck) (t : Nat),
      s.nextIs a.val opStream = false) ∧
    (∃ (s : State) (a : Fin 16) (bubbles starveA starveB t : Nat),
      ∃ f, s.flying a.val (fun f => decide (f.cls = .stream)) = some f ∧ s.power a.val = 2 ∧ s.frozen = false ∧ s.runClear a.val = true ∧ s.canonical = true ∧ s.flag 0x8000 0 = false ∧ ((s.listsOf a.val).any fun r => r.ending) = false) ∧
    (∃ (s : State) (a : Fin 16) (bubbles starveA starveB t : Nat),
      ((s.flying a.val fun f => decide (f.cls = .stream)).isNone = true ∨ s.power a.val ≠ 2 ∨ s.frozen = true)) ∧
    (∃ (s : State) (a : Fin 16) (c : CueCheck) (diff : Option RowDiff) (t : Nat),
      ∃ r, s.issuing a.val = some r ∧ s.mayIssue a.val opDrain c r = true ∧ ∃ x, s.adds a.val r (s.cueWords a.val r) = some x ∧ s.drainError a.val r.acc (drainCue r x (s.cueWords a.val r)) (s.arrAt a.val).backBanks.1 (s.arrAt a.val).backBanks.2 = none ∧ ∃ y, s.drainAddrs (drainCue r x (s.cueWords a.val r)) (DrainCue.parts (s.arrAt a.val).backBanks.1) = some y ∧ diff = none) ∧
    (∃ (s : State) (a : Fin 16) (c : CueCheck) (diff : Option RowDiff) (t : Nat),
      ∃ r, s.issuing a.val = some r ∧ s.mayIssue a.val opDrain c r = true ∧ ∃ x, s.adds a.val r (s.cueWords a.val r) = some x ∧ s.drainError a.val r.acc (drainCue r x (s.cueWords a.val r)) (s.arrAt a.val).backBanks.1 (s.arrAt a.val).backBanks.2 = none ∧ ∃ y, s.drainAddrs (drainCue r x (s.cueWords a.val r)) (DrainCue.parts (s.arrAt a.val).backBanks.1) = some y ∧ diff = none ∧ s.rel.arb = [] ∧ (drainCue r x (s.cueWords a.val r)).dest = 0 ∧ (drainCue r x (s.cueWords a.val r)).record = false ∧ (drainCue r x (s.cueWords a.val r)).folded = false ∧ (drainCue r x (s.cueWords a.val r)).fmt ≠ 0xD ∧ (drainCue r x (s.cueWords a.val r)).m = 1 ∧ s.flag 0x8000 0 = false ∧ Sparse.wf (s.arrAt a.val).wingDef (s.arrAt a.val).wings = true ∧ ∃ row, (s.drainTile a.val (drainCue r x (s.cueWords a.val r)) (s.arrAt a.val).backBanks.1 (s.arrAt a.val).backBanks.2 y.2.1).rows.head? = some row) ∧
    (∃ (s : State) (a : Fin 16) (c : CueCheck) (diff : Option RowDiff) (t : Nat),
      ∃ r, s.issuing a.val = some r ∧ s.mayIssue a.val opDrain c r = true ∧ ∃ x, s.adds a.val r (s.cueWords a.val r) = some x ∧ s.drainError a.val r.acc (drainCue r x (s.cueWords a.val r)) (s.arrAt a.val).backBanks.1 (s.arrAt a.val).backBanks.2 = none ∧ ∃ y, s.drainAddrs (drainCue r x (s.cueWords a.val r)) (DrainCue.parts (s.arrAt a.val).backBanks.1) = some y ∧ diff = none ∧ s.rel.arb = [] ∧ (drainCue r x (s.cueWords a.val r)).dest = 1 ∧ (drainCue r x (s.cueWords a.val r)).record = false ∧ (drainCue r x (s.cueWords a.val r)).folded = false ∧ (drainCue r x (s.cueWords a.val r)).fmt ≠ 0xD ∧ (drainCue r x (s.cueWords a.val r)).m = 1 ∧ s.canonical = true ∧ ∃ row, (s.drainTile a.val (drainCue r x (s.cueWords a.val r)) (s.arrAt a.val).backBanks.1 (s.arrAt a.val).backBanks.2 y.2.1).rows.head? = some row) ∧
    (∃ (s : State) (a : Fin 16) (c : CueCheck) (diff : Option RowDiff) (t : Nat),
      s.nextIs a.val opDrain = false) ∧
    (∃ (s : State) (a : Fin 16) (stall t : Nat),
      ∃ f, s.flying a.val (fun f => decide (f.cls = .drain)) = some f ∧ ∃ d, f.2.drain = some d ∧ s.power a.val = 2 ∧ s.frozen = false ∧ s.runClear a.val = true ∧ s.canonical = true ∧ Sparse.wf (fun _ => 0) (s.arrAt a.val).log = true ∧ ((f.1.fly.takeWhile fun g => decide (g ≠ f.2)).any fun g => decide (g.cls = .stream) && sameBank g.bank f.2.bank) = false ∧ ((s.listsOf a.val).any fun r => r.ending) = false) ∧
    (∃ (s : State) (a : Fin 16) (stall t : Nat),
      ((s.flying a.val fun f => decide (f.cls = .drain)).isNone = true ∨ s.power a.val ≠ 2 ∨ s.frozen = true)) ∧
    (∃ (s : State) (a : Fin 16) (row : Bytes) (t : Nat),
      ∃ x, (s.rel.arb.find? fun x => decide (x.pair = a.val / 2)) = some x ∧ decide (row = x.evenRow) ≠ decide (row = x.oddRow) ∧ s.canonical = true ∧ ∃ r, (s.arrAt (2 * (a.val / 2))).run = some r) ∧
    (∃ (s : State) (a : Fin 16) (row : Bytes) (t : Nat),
      ∃ x, (s.rel.arb.find? fun x => decide (x.pair = a.val / 2)) = some x ∧ decide (row = x.evenRow) = decide (row = x.oddRow)) ∧
    (∃ (s : State) (a : Fin 16) (row : Bytes) (t : Nat),
      (s.rel.arb.find? fun x => decide (x.pair = a.val / 2)) = none) ∧
    (∃ (s : State) (a : Fin 16) (t : Nat),
      ∃ x, (s.rel.arb.find? fun x => decide (x.pair = a.val / 2)) = some x ∧ x.start + s.get 0x8011 0 * 1000 ≤ (s.at t).now) ∧
    (∃ (s : State) (a : Fin 16) (t : Nat),
      ((s.rel.arb.find? fun x => decide (x.pair = a.val / 2)).all fun x => decide ((s.at t).now < x.start + s.get 0x8011 0 * 1000)) = true) :=
  ⟨⟨atCue [w0 3 0, 0x00000000 + 0x240000 * 0, 0x80008000, 2 ^ 21, 0, 0, 1], 0, .agree, 5, _, some_of (by decide), by decide, _, some_of (by decide), by decide, _, ok_of (by decide)⟩,
   ⟨atCue [w0 3 0, 0, 0x80008000, 2 ^ 21, 0, 0, 1], 0, .agree, 5, _, some_of (by decide), by decide, _, some_of (by decide), by decide, _, ok_of (by decide), by decide, by decide, by decide⟩,
   ⟨atCue [w0 0 0], 0, .agree, 5, by decide⟩,
   ⟨(atCueOf [w0 0 0] fun r => { r with fly := [{ cls := .stream }] }).put 0x5010 2 2, 0, 1, 2, 3, 5, _, some_of (by decide), by decide, by decide, by decide, by decide, by decide, by decide⟩,
   ⟨atCue [w0 0 0], 0, 1, 2, 3, 5, by decide⟩,
   ⟨drained [w0 4 0, 0x24000020, 0x200002, 5], 0, .agree, none, 5, _, some_of (by decide), by decide, _, some_of (by decide), by decide, _, some_of (by decide), by decide⟩,
   ⟨drained [w0 4 0, 0x24000020, 0x200002, 5], 0, .agree, none, 5, _, some_of (by decide), by decide, _, some_of (by decide), by decide, _, some_of (by decide), by decide, by decide, by decide, by decide, by decide, by decide, by decide, by decide, by decide, _, some_of (by decide)⟩,
   ⟨drained [w0 4 0, 0x64000020, 0x200002, ((inState .run).regionBase 4) / 64], 0, .agree, none, 5, _, some_of (by decide), by decide, _, some_of (by decide), by decide, _, some_of (by decide), by decide, by decide, by decide, by decide, by decide, by decide, by decide, by decide, _, some_of (by decide)⟩,
   ⟨atCue [w0 0 0], 0, .agree, none, 5, by decide⟩,
   ⟨(atCueOf [w0 0 0] fun r => { r with fly := [{ cls := .drain, drain := some ⟨0, 0, 0, 0, 0, 1, []⟩ }] }).put 0x5010 2 2, 0, 3, 5, _, some_of (by decide), _, some_of (by decide), by decide, by decide, by decide, by decide, by decide, by decide, by decide⟩,
   ⟨atCue [w0 0 0], 0, 3, 5, by decide⟩,
   ⟨{ atCue [w0 0 0] with rel := { arb := [⟨0, 1, [1], [2], 2, 0⟩] } }, 1, [1], 5, _, some_of (by decide), by decide, by decide, _, some_of (by decide)⟩,
   ⟨{ atCue [w0 0 0] with rel := { arb := [⟨0, 1, [1], [2], 2, 0⟩] } }, 1, [3], 5, _, some_of (by decide), by decide⟩,
   ⟨atCue [w0 0 0], 1, [3], 5, by decide⟩,
   ⟨{ atCue [w0 0 0] with rel := { arb := [⟨0, 1, [1], [2], 2, 0⟩] } }, 1, 1000000000, _, some_of (by decide), by decide⟩,
   ⟨{ atCue [w0 0 0] with rel := { arb := [⟨0, 1, [1], [2], 2, 0⟩] } }, 1, 10, by decide⟩⟩

/-- States and operands that meet the hypotheses of each clause of TapAndEmitCues. -/
theorem witness_TapAndEmitCues :
    (∃ (s : State) (a : Fin 16) (c : CueCheck) (t : Nat),
      ∃ r, s.issuing a.val = some r ∧ s.mayIssue a.val opTap c r = true ∧ Bits.fld (w (s.cueWords a.val r) 1) 9 8 = 1 ∧ s.canonical = true ∧ 0 < ((s.tap (Bits.fld (w (s.cueWords a.val r) 1) 7 0)).buf (s.tap (Bits.fld (w (s.cueWords a.val r) 1) 7 0)).cur).rows ∧ ((s.tap (Bits.fld (w (s.cueWords a.val r) 1) 7 0)).buf (s.tap (Bits.fld (w (s.cueWords a.val r) 1) 7 0)).cur).busy = false ∧ ((s.tap (Bits.fld (w (s.cueWords a.val r) 1) 7 0)).buf (s.tap (Bits.fld (w (s.cueWords a.val r) 1) 7 0)).cur).held = [] ∧ s.trigOn ((s.bankOf ((s.tap (Bits.fld (w (s.cueWords a.val r) 1) 7 0)).buf (s.tap (Bits.fld (w (s.cueWords a.val r) 1) 7 0)).cur).ra).tapTrigger (Bits.fld (w (s.cueWords a.val r) 1) 7 0) % 512) = false ∧ ((s.tap (Bits.fld (w (s.cueWords a.val r) 1) 7 0)).buf (s.tap (Bits.fld (w (s.cueWords a.val r) 1) 7 0)).cur).light ∉ s.sync.waiters.map (fun x => x.light) ∧ s.light ((s.tap (Bits.fld (w (s.cueWords a.val r) 1) 7 0)).buf (s.tap (Bits.fld (w (s.cueWords a.val r) 1) 7 0)).cur).light = 0) ∧
    (∃ (s : State) (a : Fin 16) (c : CueCheck) (t : Nat),
      ∃ r, s.issuing a.val = some r ∧ s.mayIssue a.val opTap c r = true ∧ Bits.fld (w (s.cueWords a.val r) 1) 9 8 = 1 ∧ s.canonical = true ∧ 0 < ((s.tap (Bits.fld (w (s.cueWords a.val r) 1) 7 0)).buf (s.tap (Bits.fld (w (s.cueWords a.val r) 1) 7 0)).cur).rows ∧ ((s.tap (Bits.fld (w (s.cueWords a.val r) 1) 7 0)).buf (s.tap (Bits.fld (w (s.cueWords a.val r) 1) 7 0)).cur).busy = false ∧ (s.tap (Bits.fld (w (s.cueWords a.val r) 1) 7 0)).cur ≤ 1 ∧ s.trigOn ((s.bankOf ((s.tap (Bits.fld (w (s.cueWords a.val r) 1) 7 0)).buf (s.tap (Bits.fld (w (s.cueWords a.val r) 1) 7 0)).cur).ra).tapTrigger (Bits.fld (w (s.cueWords a.val r) 1) 7 0) % 512) = true ∧ s.trigSource ((s.bankOf ((s.tap (Bits.fld (w (s.cueWords a.val r) 1) 7 0)).buf (s.tap (Bits.fld (w (s.cueWords a.val r) 1) 7 0)).cur).ra).tapTrigger (Bits.fld (w (s.cueWords a.val r) 1) 7 0) % 512) = 1 ∧ s.posts ((s.bankOf ((s.tap (Bits.fld (w (s.cueWords a.val r) 1) 7 0)).buf (s.tap (Bits.fld (w (s.cueWords a.val r) 1) 7 0)).cur).ra).tapTrigger (Bits.fld (w (s.cueWords a.val r) 1) 7 0) % 512) (((s.tap (Bits.fld (w (s.cueWords a.val r) 1) 7 0)).buf (s.tap (Bits.fld (w (s.cueWords a.val r) 1) 7 0)).cur).acc.getD 0) = true ∧ ((s.tap (Bits.fld (w (s.cueWords a.val r) 1) 7 0)).buf (s.tap (Bits.fld (w (s.cueWords a.val r) 1) 7 0)).cur).light ∉ s.sync.waiters.map (fun x => x.light) ∧ s.light ((s.tap (Bits.fld (w (s.cueWords a.val r) 1) 7 0)).buf (s.tap (Bits.fld (w (s.cueWords a.val r) 1) 7 0)).cur).light = 0 ∧ Bits.bit (w (s.cueWords a.val r) 0) 15 = false) ∧
    (∃ (s : State) (a : Fin 16) (c : CueCheck) (t : Nat),
      ∃ r, s.issuing a.val = some r ∧ s.mayIssue a.val opTap c r = true ∧ Bits.fld (w (s.cueWords a.val r) 1) 9 8 = 1 ∧ (((s.tap (Bits.fld (w (s.cueWords a.val r) 1) 7 0)).buf (s.tap (Bits.fld (w (s.cueWords a.val r) 1) 7 0)).cur).rows = 0 ∨ ((s.tap (Bits.fld (w (s.cueWords a.val r) 1) 7 0)).buf (s.tap (Bits.fld (w (s.cueWords a.val r) 1) 7 0)).cur).busy = true)) ∧
    (∃ (s : State) (a : Fin 16) (c : CueCheck) (t : Nat),
      (s.nextIs a.val opTap = false ∨ s.nextTap a.val 2 = true)) ∧
    (∃ (s : State) (a : Fin 16) (c : CueCheck) (t : Nat),
      ∃ r, s.issuing a.val = some r ∧ s.mayIssue a.val opTap c r = true ∧ Bits.fld (w (s.cueWords a.val r) 1) 9 8 = 2 ∧ s.canonical = true) ∧
    (∃ (s : State) (a : Fin 16) (c : CueCheck) (t : Nat),
      (s.nextIs a.val opTap = false ∨ s.nextTap a.val 2 = false)) ∧
    (∃ (s : State) (a : Fin 16) (c : CueCheck) (t : Nat),
      ∃ r, s.issuing a.val = some r ∧ s.mayIssue a.val opEmit c r = true ∧ Bits.fld (w (s.cueWords a.val r) 1) 31 30 = 0 ∧ ∃ x, s.adds a.val r (s.cueWords a.val r) = some x ∧ ∃ y, r.tap = some y ∧ ((s.tap y.1).buf y.2).held.isEmpty = false ∧ ∃ l, x.line (Bits.fld (w (s.cueWords a.val r) 2) 14 0) ((((s.tap y.1).buf y.2).held.foldl (fun m h => Max.max m (h.2 + 1)) 0 - 1) * Bits.fld (w (s.cueWords a.val r) 3) 7 0 + 1) = some l) ∧
    (∃ (s : State) (a : Fin 16) (c : CueCheck) (t : Nat),
      (s.nextIs a.val opEmit = false ∨ s.nextEmit a.val 1 = true ∨ s.nextEmit a.val 2 = true)) ∧
    (∃ (s : State) (a : Fin 16) (c : CueCheck) (t : Nat),
      ∃ r, s.issuing a.val = some r ∧ s.mayIssue a.val opEmit c r = true ∧ Bits.fld (w (s.cueWords a.val r) 1) 31 30 = 1 ∧ ∃ x, s.adds a.val r (s.cueWords a.val r) = some x ∧ ∃ l, x.line (Bits.fld (w (s.cueWords a.val r) 2) 14 0) (Bits.fld (w (s.cueWords a.val r) 3) 15 0) = some l ∧ s.canonical = true ∧ s.takesFrame (Bits.fld (w (s.cueWords a.val r) 1) 28 16) (s.originated 0 0x02 0 r.acc (Bits.natBe 2 (Bits.fld (w (s.cueWords a.val r) 1) 15 0) ++ Bits.natBe 1 a.val ++ Bits.natBe 1 0 ++ Bits.natBe 4 (Bits.fld (w (s.cueWords a.val r) 3) 31 16) ++ Bits.natBe 2 (Bits.fld (w (s.cueWords a.val r) 3) 15 0) ++ Bits.natBe 2 64 ++ Bits.natBe 4 r.pos.seq ++ s.wings a.val (l * 64) (Bits.fld (w (s.cueWords a.val r) 3) 15 0 * 64))).length = true) ∧
    (∃ (s : State) (a : Fin 16) (c : CueCheck) (t : Nat),
      ∃ r, s.issuing a.val = some r ∧ s.mayIssue a.val opEmit c r = true ∧ Bits.fld (w (s.cueWords a.val r) 1) 31 30 = 1 ∧ ∃ x, s.adds a.val r (s.cueWords a.val r) = some x ∧ ∃ l, x.line (Bits.fld (w (s.cueWords a.val r) 2) 14 0) (Bits.fld (w (s.cueWords a.val r) 3) 15 0) = some l ∧ s.canonical = true ∧ s.get 0x3004 (s.queuePort (Bits.fld (w (s.cueWords a.val r) 1) 28 16) + 1) < (s.originated 0 0x02 0 r.acc (Bits.natBe 2 (Bits.fld (w (s.cueWords a.val r) 1) 15 0) ++ Bits.natBe 1 a.val ++ Bits.natBe 1 0 ++ Bits.natBe 4 (Bits.fld (w (s.cueWords a.val r) 3) 31 16) ++ Bits.natBe 2 (Bits.fld (w (s.cueWords a.val r) 3) 15 0) ++ Bits.natBe 2 64 ++ Bits.natBe 4 r.pos.seq ++ s.wings a.val (l * 64) (Bits.fld (w (s.cueWords a.val r) 3) 15 0 * 64))).length + 4) ∧
    (∃ (s : State) (a : Fin 16) (c : CueCheck) (t : Nat),
      (s.nextIs a.val opEmit = false ∨ s.nextEmit a.val 1 = false)) ∧
    (∃ (s : State) (a : Fin 16) (c : CueCheck) (t : Nat),
      ∃ r, s.issuing a.val = some r ∧ s.mayIssue a.val opEmit c r = true ∧ Bits.fld (w (s.cueWords a.val r) 1) 31 30 = 2 ∧ s.canonical = true ∧ s.takesFrame (Bits.fld (w (s.cueWords a.val r) 1) 28 16) (s.originated 0 0x04 0 r.acc (Bits.natBe 2 (Bits.fld (w (s.cueWords a.val r) 1) 15 0) ++ Bits.natBe 1 a.val ++ Bits.natBe 1 0 ++ Bits.natBe 4 r.pos.seq)).length = true) ∧
    (∃ (s : State) (a : Fin 16) (c : CueCheck) (t : Nat),
      (s.nextIs a.val opEmit = false ∨ s.nextEmit a.val 2 = false)) ∧
    (∃ (s : State) (a : Fin 16) (t : Nat),
      s.frozen = false ∧ s.runClear a.val = true ∧ 0 < s.inFlight a.val .emit ∧ s.egr.neural.length ≤ emitDepth ∧ ∃ r, (s.arrAt a.val).run = some r ∧ r.ending = false ∧ (s.arrAt a.val).susp = []) ∧
    (∃ (s : State) (a : Fin 16) (t : Nat),
      (s.frozen = true ∨ emitDepth < s.egr.neural.length)) :=
  ⟨⟨{ atCue [w0 6 0, 0x100] with sync := { taps := [(0, { b0 := { rows := 1, acc := some 1 } })] } }, 0, .agree, 5, _, some_of (by decide), by decide, by decide, by decide, by decide, by decide, by decide, by decide, by decide, by decide⟩,
   ⟨{ ((((atCue [w0 6 0, 0x100]).put 0x5200 0xA 1).put 0x5200 1 1).put 0x5200 2 1) with sync := { taps := [(0, { b0 := { rows := 1, acc := some 1 } })] }, lib := { active := some { model1 with lists := [(0, 1, 64)] } } }, 0, .agree, 5, _, some_of (by decide), by decide, by decide, by decide, by decide, by decide, by decide, by decide, by decide, by decide, by decide, by decide, by decide⟩,
   ⟨atCue [w0 6 0, 0x100], 0, .agree, 5, _, some_of (by decide), by decide, by decide, by decide⟩,
   ⟨atCue [w0 0 0], 0, .agree, 5, by decide⟩,
   ⟨{ atCue [w0 6 0, 0x200] with sync := { taps := [(0, { b0 := { rows := 1, acc := some 1, busy := true } })] } }, 0, .agree, 5, _, some_of (by decide), by decide, by decide, by decide⟩,
   ⟨atCue [w0 0 0], 0, .agree, 5, by decide⟩,
   ⟨{ atCueOf [w0 7 0, 0, 0x16000005, 1] fun r => { r with tap := some (0, 0) } with sync := { taps := [(0, { b0 := { rows := 1, acc := some 1, held := [(1, 0)], busy := true } })] } }, 0, .agree, 5, _, some_of (by decide), by decide, by decide, _, some_of (by decide), _, some_of (by decide), by decide, _, some_of (by decide)⟩,
   ⟨atCue [w0 0 0], 0, .agree, 5, by decide⟩,
   ⟨((atCue [w0 7 0, 0x40000007, 5, 1]).put 0x3001 1 1), 0, .agree, 5, _, some_of (by decide), by decide, by decide, _, some_of (by decide), _, some_of (by decide), by decide, by decide⟩,
   ⟨((atCue [w0 7 0, 0x40000007, 5, 1]).put 0x3004 1 64), 0, .agree, 5, _, some_of (by decide), by decide, by decide, _, some_of (by decide), _, some_of (by decide), by decide, by decide⟩,
   ⟨atCue [w0 0 0], 0, .agree, 5, by decide⟩,
   ⟨((atCue [w0 7 0, 0x80000007]).put 0x3001 1 1), 0, .agree, 5, _, some_of (by decide), by decide, by decide, by decide, by decide⟩,
   ⟨atCue [w0 0 0], 0, .agree, 5, by decide⟩,
   ⟨atCueOf [w0 0 0] fun r => { r with fly := [{ cls := .emit }] }, 0, 5, by decide, by decide, by decide, by decide, _, some_of (by decide), by decide, by decide⟩,
   ⟨{ inState .run with obs := { freeze := some ⟨3, 2, 0, some 1, some 4⟩ } }, 0, 5, by decide⟩⟩

/-- States and operands that meet the hypotheses of each clause of WaitAndSignalCues. -/
theorem witness_WaitAndSignalCues :
    (∃ (s : State) (a : Fin 16) (c : CueCheck) (t : Nat),
      ∃ r, s.issuing a.val = some r ∧ s.mayIssue a.val opWait c r = true) ∧
    (∃ (s : State) (light : Fin 2048) (t : Nat),
      ∃ x, (s.sync.waiters.find? fun x => x.light = light.val) = some x ∧ x.n ≤ s.light light.val ∧ s.frozen = false ∧ s.canonical = true ∧ s.sync.taps = [] ∧ x.array < 16 ∧ ∃ r, (s.arrAt x.array).run = some r ∧ r.rewind = false ∧ r.ending = false ∧ (match r.block with | .wait _ _ _ => true | _ => false) = true) ∧
    (∃ (s : State) (light : Fin 2048) (t : Nat),
      (s.frozen = true ∨ (s.sync.waiters.find? fun x => x.light = light.val).all (fun x => decide (s.light light.val < x.n)) = true)) ∧
    (∃ (s : State) (a : Fin 16) (c : CueCheck) (t : Nat),
      ∃ r, s.issuing a.val = some r ∧ s.mayIssue a.val opSignal c r = true ∧ r.fly = [] ∧ s.canonical = true ∧ s.sync.taps = [] ∧ Bits.fld (w (s.cueWords a.val r) 2) 31 30 = 0 ∧ s.light (Bits.fld (w (s.cueWords a.val r) 1) 10 0) + (Bits.fld (w (s.cueWords a.val r) 1) 31 16) ≤ 65535 ∧ Bits.bit (w (s.cueWords a.val r) 0) 15 = false) ∧
    (∃ (s : State) (a : Fin 16) (c : CueCheck) (t : Nat),
      ∃ r, s.issuing a.val = some r ∧ s.mayIssue a.val opSignal c r = true ∧ r.fly = [] ∧ s.canonical = true ∧ s.sync.taps = [] ∧ Bits.fld (w (s.cueWords a.val r) 2) 31 30 = 0 ∧ 65535 < s.light (Bits.fld (w (s.cueWords a.val r) 1) 10 0) + (Bits.fld (w (s.cueWords a.val r) 1) 31 16) ∧ Bits.bit (w (s.cueWords a.val r) 0) 15 = false) ∧
    (∃ (s : State) (a : Fin 16) (c : CueCheck) (t : Nat),
      ∃ r, s.issuing a.val = some r ∧ s.mayIssue a.val opSignal c r = true ∧ r.fly = [] ∧ s.canonical = true ∧ Bits.fld (w (s.cueWords a.val r) 2) 31 30 = 1 ∧ s.trigOn (Bits.fld (w (s.cueWords a.val r) 1) 10 0) = true ∧ s.trigSource (Bits.fld (w (s.cueWords a.val r) 1) 10 0) = 5 ∧ s.posts (Bits.fld (w (s.cueWords a.val r) 1) 10 0) (s.at t).firingModel = true ∧ Bits.bit (w (s.cueWords a.val r) 0) 15 = false) ∧
    (∃ (s : State) (a : Fin 16) (c : CueCheck) (t : Nat),
      ∃ r, s.issuing a.val = some r ∧ s.mayIssue a.val opSignal c r = true ∧ r.fly ≠ []) ∧
    (∃ (s : State) (a : Fin 16) (c : CueCheck) (t : Nat),
      ∃ r, s.issuing a.val = some r ∧ s.mayIssue a.val opSignal c r = true ∧ r.fly = [] ∧ Bits.bit (w (s.cueWords a.val r) 2) 31 = true ∧ Bits.fld (w (s.cueWords a.val r) 2) 8 0 ≠ s.moduleNo ∧ s.reachesNo (Bits.fld (w (s.cueWords a.val r) 2) 8 0) = true) ∧
    (∃ (s : State) (a : Fin 16) (c : CueCheck) (t : Nat),
      ∃ r, s.issuing a.val = some r ∧ s.mayIssue a.val opSignal c r = true ∧ r.fly = [] ∧ Bits.bit (w (s.cueWords a.val r) 2) 31 = true ∧ Bits.fld (w (s.cueWords a.val r) 2) 8 0 ≠ s.moduleNo ∧ s.reachesNo (Bits.fld (w (s.cueWords a.val r) 2) 8 0) = false ∧ s.canonical = true) ∧
    (∃ (s : State) (a : Fin 16) (c : CueCheck) (t : Nat),
      ∃ r, s.issuing a.val = some r ∧ s.mayIssue a.val opFence c r = true ∧ Bits.bit (w (s.cueWords a.val r) 0) 15 = false) ∧
    (∃ (s : State) (a : Fin 16) (t : Nat),
      ∃ r, (s.arrAt a.val).run = some r ∧ ∃ x, r.block = .fence x ∧ r.fenced x = false ∧ s.frozen = false ∧ r.rewind = false ∧ r.ending = false) ∧
    (∃ (s : State) (a : Fin 16) (t : Nat),
      (s.frozen = true ∨ ((s.arrAt a.val).run.all fun r => match r.block with | .fence x => r.fenced x | _ => true) = true)) ∧
    (∃ (s : State) (a : Fin 16) (c : CueCheck) (t : Nat),
      ∃ r, s.issuing a.val = some r ∧ s.mayIssue a.val opHold c r = true ∧ Bits.bit (w (s.cueWords a.val r) 0) 15 = false) ∧
    (∃ (s : State) (a : Fin 16) (t : Nat),
      ∃ r, (s.arrAt a.val).run = some r ∧ ∃ x, r.block = .hold x ∧ x ≤ (s.at t).now ∧ s.frozen = false ∧ r.rewind = false ∧ r.ending = false) ∧
    (∃ (s : State) (a : Fin 16) (t : Nat),
      (s.frozen = true ∨ ((s.arrAt a.val).run.all fun r => match r.block with | .hold x => decide ((s.at t).now < x) | _ => true) = true)) ∧
    (∃ (s : State) (a : Fin 16) (c : CueCheck) (t : Nat),
      s.nextIs a.val opWait = false) ∧
    (∃ (s : State) (a : Fin 16) (c : CueCheck) (t : Nat),
      s.nextIs a.val opSignal = false) ∧
    (∃ (s : State) (a : Fin 16) (c : CueCheck) (t : Nat),
      s.nextIs a.val opFence = false) ∧
    (∃ (s : State) (a : Fin 16) (c : CueCheck) (t : Nat),
      s.nextIs a.val opHold = false) :=
  ⟨⟨atCue [w0 0x10 0, 0x10007], 0, .agree, 5, _, some_of (by decide), by decide⟩,
   ⟨{ ((atCueOf [w0 0 0] fun r => { r with block := .wait 7 1 false }).put 0x5400 8 1) with sync := { waiters := [⟨7, 0, 1, false, 0⟩] } }, 7, 5, _, some_of (by decide), by decide, by decide, by decide, by decide, by decide, _, some_of (by decide), by decide, by decide, by decide⟩,
   ⟨inState .run, 7, 5, by decide⟩,
   ⟨atCue [w0 0x11 0, 0x10007, 0], 0, .agree, 5, _, some_of (by decide), by decide, by decide, by decide, by decide, by decide, by decide, by decide⟩,
   ⟨(atCue [w0 0x11 0, 0x10007, 0]).put 0x5400 8 65535, 0, .agree, 5, _, some_of (by decide), by decide, by decide, by decide, by decide, by decide, by decide, by decide⟩,
   ⟨{ ((((atCue [w0 0x11 0, 0x10000, 0x40000000, 77]).put 0x5200 0xA 1).put 0x5200 1 5).put 0x5200 2 1).put 0x6800 0 1 with lib := { active := some { model1 with lists := [(0, 1, 64)] } } }, 0, .agree, 5, _, some_of (by decide), by decide, by decide, by decide, by decide, by decide, by decide, by decide, by decide⟩,
   ⟨atCueOf [w0 0x11 0, 0x10007, 0] fun r => { r with fly := [{ cls := .stage }] }, 0, .agree, 5, _, some_of (by decide), by decide, by decide⟩,
   ⟨((((atCue [w0 0x11 0, 0x10007, 0x80000003]).put 0x7800 0 1).put 0x7810 1 1).put 0x7811 1 3), 0, .agree, 5, _, some_of (by decide), by decide, by decide, by decide, by decide, by decide⟩,
   ⟨((atCue [w0 0x11 0, 0x10007, 0x80000003]).put 0x7800 0 1), 0, .agree, 5, _, some_of (by decide), by decide, by decide, by decide, by decide, by decide, by decide⟩,
   ⟨atCue [w0 0x12 0, 0x3F], 0, .agree, 5, _, some_of (by decide), by decide, by decide⟩,
   ⟨atCueOf [w0 0 0] fun r => { r with block := .fence 0x3F }, 0, 5, _, some_of (by decide), _, rfl, by decide, by decide, by decide, by decide⟩,
   ⟨inState .run, 0, 5, by decide⟩,
   ⟨atCue [w0 0x30 0, 100], 0, .agree, 5, _, some_of (by decide), by decide, by decide⟩,
   ⟨atCueOf [w0 0 0] fun r => { r with block := .hold 5 }, 0, 5, _, some_of (by decide), _, rfl, by decide, by decide, by decide, by decide⟩,
   ⟨atCueOf [w0 0 0] fun r => { r with block := .hold 6 }, 0, 5, by decide⟩,
   ⟨atCue [w0 0 0], 0, .agree, 5, by decide⟩,
   ⟨atCue [w0 0 0], 0, .agree, 5, by decide⟩,
   ⟨atCue [w0 0 0], 0, .agree, 5, by decide⟩,
   ⟨atCue [w0 0 0], 0, .agree, 5, by decide⟩⟩

/-- States and operands that meet the hypotheses of each clause of BranchCues. -/
theorem witness_BranchCues :
    (∃ (s : State) (a : Fin 16) (c : CueCheck) (t : Nat),
      ∃ r, s.issuing a.val = some r ∧ s.mayIssue a.val opLoop c r = true ∧ Bits.bit (w (s.cueWords a.val r) 0) 15 = false ∧ r.stack.length < 4 ∧ Bits.fld (w (s.cueWords a.val r) 1) 16 0 ≠ 0) ∧
    (∃ (s : State) (a : Fin 16) (c : CueCheck) (t : Nat),
      ∃ r, s.issuing a.val = some r ∧ s.mayIssue a.val opLoop c r = true ∧ Bits.bit (w (s.cueWords a.val r) 0) 15 = false ∧ Bits.fld (w (s.cueWords a.val r) 1) 16 0 = 0 ∧ ∃ p e, s.matchEnd a.val r searchCues 0 r.pos.next = .after p e ∧ e = false) ∧
    (∃ (s : State) (a : Fin 16) (c : CueCheck) (t : Nat),
      ∃ r, s.issuing a.val = some r ∧ s.mayIssue a.val opLoop c r = true ∧ r.impliedFlying = false ∧ s.canonical = true ∧ Bits.fld (w (s.cueWords a.val r) 1) 16 0 ≠ 0 ∧ 4 ≤ r.stack.length ∧ r.retries + 1 ≤ s.get 0x5003 0) ∧
    (∃ (s : State) (a : Fin 16) (c : CueCheck) (t : Nat),
      ∃ r, s.issuing a.val = some r ∧ s.mayIssue a.val opEndloop c r = true ∧ Bits.bit (w (s.cueWords a.val r) 0) 15 = false ∧ ∃ p n i x y z l, r.stack = .loop p n i x y z :: l) ∧
    (∃ (s : State) (a : Fin 16) (c : CueCheck) (t : Nat),
      ∃ r, s.issuing a.val = some r ∧ s.mayIssue a.val opEndloop c r = true ∧ r.impliedFlying = false ∧ s.canonical = true ∧ (match r.stack with | .loop _ _ _ _ _ _ :: _ => false | _ => true) = true ∧ r.retries + 1 ≤ s.get 0x5003 0) ∧
    (∃ (s : State) (a : Fin 16) (c : CueCheck) (t : Nat),
      ∃ r, s.issuing a.val = some r ∧ s.mayIssue a.val opCall c r = true ∧ Bits.bit (w (s.cueWords a.val r) 0) 15 = false ∧ r.stack.length < 4 ∧ s.cueAddrOk (w (s.cueWords a.val r) 1) = true ∧ Bits.bit (w (s.cueWords a.val r) 0) 8 = false) ∧
    (∃ (s : State) (a : Fin 16) (c : CueCheck) (t : Nat),
      ∃ r, s.issuing a.val = some r ∧ s.mayIssue a.val opCall c r = true ∧ r.impliedFlying = false ∧ s.canonical = true ∧ (Bits.bit (w (s.cueWords a.val r) 0) 8 = true ∨ 4 ≤ r.stack.length ∨ s.cueAddrOk (w (s.cueWords a.val r) 1) = false) ∧ r.retries + 1 ≤ s.get 0x5003 0) ∧
    (∃ (s : State) (a : Fin 16) (c : CueCheck) (t : Nat),
      ∃ r, s.issuing a.val = some r ∧ s.mayIssue a.val opReturn c r = true ∧ Bits.bit (w (s.cueWords a.val r) 0) 15 = false ∧ ∃ p l, r.stack = .call p :: l) ∧
    (∃ (s : State) (a : Fin 16) (c : CueCheck) (t : Nat),
      ∃ r, s.issuing a.val = some r ∧ s.mayIssue a.val opReturn c r = true ∧ r.stack = [] ∧ r.launched = true ∧ r.fly = [] ∧ s.canonical = true ∧ r.ring < 16 ∧ r.skip = none ∧ (s.arrAt a.val).dead = []) ∧
    (∃ (s : State) (a : Fin 16) (c : CueCheck) (t : Nat),
      ∃ r, s.issuing a.val = some r ∧ s.mayIssue a.val opReturn c r = true ∧ r.impliedFlying = false ∧ s.canonical = true ∧ (match r.stack with | .call _ :: _ => false | [] => !r.launched | _ => true) = true ∧ r.retries + 1 ≤ s.get 0x5003 0) ∧
    (∃ (s : State) (a : Fin 16) (c : CueCheck) (t : Nat),
      ∃ r, s.issuing a.val = some r ∧ s.mayIssue a.val opRestart c r = true ∧ Bits.bit (w (s.cueWords a.val r) 0) 15 = false) ∧
    (∃ (s : State) (a : Fin 16) (c : CueCheck) (t : Nat),
      ∃ r, s.issuing a.val = some r ∧ s.mayIssue a.val opMark c r = true ∧ s.obs.lost = [] ∧ s.logFull 1 = false ∧ s.canonical = true ∧ s.isStretched a.val = false ∧ s.pwr.stretched.testBit a.val = false ∧ Bits.bit (w (s.cueWords a.val r) 0) 15 = false) ∧
    (∃ (s : State) (a : Fin 16) (c : CueCheck) (t : Nat),
      ∃ r, s.issuing a.val = some r ∧ s.mayIssue a.val opUnmark c r = true ∧ s.obs.lost = [] ∧ s.logFull 1 = false ∧ s.canonical = true ∧ s.isStretched a.val = false ∧ s.pwr.stretched.testBit a.val = false ∧ Bits.bit (w (s.cueWords a.val r) 0) 15 = false) ∧
    (∃ (s : State) (a : Fin 16) (c : CueCheck) (t : Nat),
      s.nextIs a.val opLoop = false) ∧
    (∃ (s : State) (a : Fin 16) (c : CueCheck) (t : Nat),
      s.nextIs a.val opEndloop = false) ∧
    (∃ (s : State) (a : Fin 16) (c : CueCheck) (t : Nat),
      s.nextIs a.val opCall = false) ∧
    (∃ (s : State) (a : Fin 16) (c : CueCheck) (t : Nat),
      s.nextIs a.val opReturn = false) ∧
    (∃ (s : State) (a : Fin 16) (c : CueCheck) (t : Nat),
      s.nextIs a.val opRestart = false) ∧
    (∃ (s : State) (a : Fin 16) (c : CueCheck) (t : Nat),
      s.nextIs a.val opMark = false) ∧
    (∃ (s : State) (a : Fin 16) (c : CueCheck) (t : Nat),
      s.nextIs a.val opUnmark = false) :=
  ⟨⟨atCue [w0 0x18 0, 3, 0x10002, 4], 0, .agree, 5, _, some_of (by decide), by decide, by decide, by decide, by decide⟩,
   ⟨(atCue [w0 0x18 0, 0]).cueWrite 0 1 (mkCue [w0 0x19 0] 1), 0, .agree, 5, _, some_of (by decide), by decide, by decide, by decide, .body 2, false, by decide, by decide⟩,
   ⟨atCueOf [w0 0x18 0, 3, 0x10002, 4] fun r => { r with stack := List.replicate 4 (.call (.body 9)) }, 0, .agree, 5, _, some_of (by decide), by decide, by decide, by decide, by decide, by decide, by decide⟩,
   ⟨atCueOf [w0 0x19 0] fun r => { r with stack := [.loop (.body 7) 3 1 0 0 0] }, 0, .agree, 5, _, some_of (by decide), by decide, by decide, _, _, _, _, _, _, _, rfl⟩,
   ⟨atCue [w0 0x19 0], 0, .agree, 5, _, some_of (by decide), by decide, by decide, by decide, by decide, by decide⟩,
   ⟨atCue [w0 0x1A 0, 100], 0, .agree, 5, _, some_of (by decide), by decide, by decide, by decide, by decide, by decide⟩,
   ⟨atCue [w0 0x1A 0, 0xBFFFFFFF], 0, .agree, 5, _, some_of (by decide), by decide, by decide, by decide, by decide, by decide⟩,
   ⟨atCueOf [w0 0x1B 0] fun r => { r with stack := [.call (.body 9)] }, 0, .agree, 5, _, some_of (by decide), by decide, by decide, _, _, rfl⟩,
   ⟨atCueOf [w0 0x1B 0] fun r => { r with launched := true }, 0, .agree, 5, _, some_of (by decide), by decide, by decide, by decide, by decide, by decide, by decide, by decide, by decide⟩,
   ⟨atCue [w0 0x1B 0], 0, .agree, 5, _, some_of (by decide), by decide, by decide, by decide, by decide, by decide⟩,
   ⟨atCue [w0 0x1C 0], 0, .agree, 5, _, some_of (by decide), by decide, by decide⟩,
   ⟨atCue [w0 0x20 0, 5], 0, .agree, 5, _, some_of (by decide), by decide, by decide, by decide, by decide, by decide, by decide, by decide⟩,
   ⟨atCue [w0 0x21 0, 5], 0, .agree, 5, _, some_of (by decide), by decide, by decide, by decide, by decide, by decide, by decide, by decide⟩,
   ⟨atCue [w0 0 0], 0, .agree, 5, by decide⟩,
   ⟨atCue [w0 0 0], 0, .agree, 5, by decide⟩,
   ⟨atCue [w0 0 0], 0, .agree, 5, by decide⟩,
   ⟨atCue [w0 0 0], 0, .agree, 5, by decide⟩,
   ⟨atCue [w0 0 0], 0, .agree, 5, by decide⟩,
   ⟨atCue [w0 0 0], 0, .agree, 5, by decide⟩,
   ⟨atCue [w0 0 0], 0, .agree, 5, by decide⟩⟩

/-- States and operands that meet the hypotheses of each clause of TriggerCommands. -/
theorem witness_TriggerCommands :
    (∃ (s : State) (r : Req) (a ring : Fin 16) (cue : Bytes),
      ∃ u, s.Writable r (ringObj a.val ring.val) 9 (Bits.leNat cue) u ∧ cue.length = 32 ∧ u.canonical = true ∧ (u.flag 0x8000 0 = false ∨ a.val % 2 = 0) ∧ (u.arrAt a.val).instKind < 2 ∧ u.ringFull a.val ring.val = false ∧ (u.arrAt a.val).tails = [] ∧ Sparse.wf memDefault (u.arrAt a.val).rings = true) ∧
    (∃ (s : State) (r : Req) (a ring : Fin 16) (cue : Bytes),
      ∃ u, s.Writable r (ringObj a.val ring.val) 9 (Bits.leNat cue) u ∧ cue.length = 32 ∧ (u.flag 0x8000 0 = false ∨ a.val % 2 = 0) ∧ (u.arrAt a.val).instKind < 2 ∧ u.ringFull a.val ring.val = true) ∧
    (∃ (s : State) (r : Req) (a ring : Fin 16) (cue : Bytes),
      ∃ u, s.Writable r (ringObj a.val ring.val) 9 (Bits.leNat cue) u ∧ cue.length = 32 ∧ (u.flag 0x8000 0 = false ∨ a.val % 2 = 0) ∧ 2 ≤ (u.arrAt a.val).instKind) ∧
    (∃ (s : State) (r : Req) (trig : Fin 512) (v : Nat),
      ∃ u, s.Writable r (0x5200 + trig.val) 9 v u ∧ v < 2 ^ 32 ∧ u.trigOn trig.val = true ∧ u.trigSource trig.val = 4 ∧ u.canonical = true ∧ u.posts trig.val u.firingModel = true) ∧
    (∃ (s : State) (r : Req) (trig : Fin 512) (v : Nat),
      ∃ u, s.Writable r (0x5200 + trig.val) 9 v u ∧ v < 2 ^ 32 ∧ u.trigOn trig.val = true ∧ u.trigSource trig.val = 4 ∧ u.canonical = true ∧ u.dev.st = .run ∧ (u.listAddr u.firingModel (u.get (0x5200 + trig.val) 4) (u.trigArray trig.val)).isSome = true ∧ (u.trig trig.val).wait = none ∧ u.mustWait trig.val ⟨u.firingModel, 0, 0, none⟩ = true) ∧
    (∃ (s : State) (r : Req) (trig : Fin 512) (v : Nat),
      ∃ u, s.Writable r (0x5200 + trig.val) 9 v u ∧ u.trigOn trig.val = true ∧ u.trigSource trig.val = 4 ∧ u.dev.st ≠ .run ∧ u.canonical = true) ∧
    (∃ (s : State) (r : Req) (trig : Fin 512) (v : Nat),
      ∃ u, s.Writable r (0x5200 + trig.val) 9 v u ∧ (u.trigOn trig.val = false ∨ u.trigSource trig.val ≠ 4)) ∧
    (∃ (s : State) (trig : Fin 512) (t : Nat),
      s.trigOn trig.val = true ∧ s.trigSource trig.val = 2 ∧ s.get (0x5200 + trig.val) 6 ≤ (s.at t).now ∧ s.frozen = false ∧ s.canonical = true ∧ Max.max (firstOccurrence (s.get (0x5200 + trig.val) 6) (s.get (0x5200 + trig.val) 5) (s.trig trig.val).from_) (match (s.trig trig.val).last with | some k => k + 1 | none => 0) ≤ ((s.at t).now - s.get (0x5200 + trig.val) 6) / s.get (0x5200 + trig.val) 5 ∧ s.posts trig.val (s.at t).firingModel = true) ∧
    (∃ (s : State) (trig : Fin 512) (t : Nat),
      s.trigOn trig.val = true ∧ s.trigSource trig.val = 2 ∧ s.get (0x5200 + trig.val) 6 ≤ (s.at t).now ∧ s.frozen = false ∧ s.canonical = true ∧ Max.max (firstOccurrence (s.get (0x5200 + trig.val) 6) (s.get (0x5200 + trig.val) 5) (s.trig trig.val).from_) (match (s.trig trig.val).last with | some k => k + 1 | none => 0) ≤ ((s.at t).now - s.get (0x5200 + trig.val) 6) / s.get (0x5200 + trig.val) 5 ∧ s.dev.st ≠ .run) ∧
    (∃ (s : State) (trig : Fin 512) (t : Nat),
      (s.trigOn trig.val = false ∨ s.trigSource trig.val ≠ 2 ∨ (s.at t).now < s.get (0x5200 + trig.val) 6 ∨ s.frozen = true)) ∧
    (∃ (s : State) (trig : Fin 512) (t : Nat),
      s.trigOn trig.val = true ∧ s.trigSource trig.val = 3 ∧ s.get (0x5200 + trig.val) 8 ≤ s.light (s.get (0x5200 + trig.val) 7) ∧ s.headReady (s.get (0x5200 + trig.val) 7) = false ∧ (s.trig trig.val).fired ≠ some (s.at t).now ∧ s.frozen = false ∧ s.canonical = true ∧ s.posts trig.val (s.at t).firingModel = true) ∧
    (∃ (s : State) (trig : Fin 512) (t : Nat),
      (s.trigOn trig.val = false ∨ s.trigSource trig.val ≠ 3 ∨ s.light (s.get (0x5200 + trig.val) 7) < s.get (0x5200 + trig.val) 8 ∨ s.headReady (s.get (0x5200 + trig.val) 7) = true ∨ (s.trig trig.val).fired = some (s.at t).now ∨ s.frozen = true)) ∧
    (∃ (s : State) (trig : Fin 512) (t : Nat),
      ∃ f, (s.trig trig.val).wait = some f ∧ s.mustWait trig.val f = false ∧ s.frozen = false ∧ s.canonical = true ∧ ((s.at t).listAddr f.acc (s.get (0x5200 + trig.val) 4) (s.trigArray trig.val)).isSome = true) ∧
    (∃ (s : State) (trig : Fin 512) (t : Nat),
      (s.frozen = true ∨ ((s.trig trig.val).wait.all fun f => s.mustWait trig.val f) = true)) ∧
    (∃ (s : State) (r : Req) (light : Fin 2048) (v : Nat),
      ∃ u, s.Writable r 0x5401 (light.val + 1) v u ∧ u.canonical = true ∧ u.sync.taps = [] ∧ u.light light.val + v ≤ 65535) ∧
    (∃ (s : State) (r : Req) (light : Fin 2048) (v : Nat),
      ∃ u, s.Writable r 0x5401 (light.val + 1) v u ∧ v < 65536 ∧ u.canonical = true ∧ u.sync.taps = [] ∧ 65535 < u.light light.val + v) ∧
    (∃ (s : State) (r : Req),
      ∃ u, s.Writable r 0x5808 4 1 u ∧ u.get 0x5808 1 < 16 ∧ Sparse.wf (fun _ => ({} : Rec)) (u.arrAt (u.get 0x5808 1)).recs = true) :=
  ⟨⟨(served .run).put 0x5100 2 16, ask, 0, 0, mkCue [w0 0 0] 0, _, writable_of (by decide), by decide, by decide, by decide, by decide, by decide, by decide, by decide⟩,
   ⟨((served .run).put 0x5100 2 16).put 0x5100 7 16, ask, 0, 0, mkCue [w0 0 0] 0, _, writable_of (by decide), by decide, by decide, by decide, by decide⟩,
   ⟨((served .run).put 0x5100 2 16).modArr 0 fun x => { x with instKind := 2 }, ask, 0, 0, mkCue [w0 0 0] 0, _, writable_of (by decide), by decide, by decide, by decide⟩,
   ⟨{ ((((served .run).put 0x5200 0xA 1).put 0x5200 1 4).put 0x5200 2 1).put 0x6800 0 1 with lib := { active := some { model1 with lists := [(0, 1, 64)] } } }, ask, 0, 5, _, writable_of (by decide), by decide, by decide, by decide, by decide, by decide⟩,
   ⟨{ ((((served .run).put 0x5200 0xA 1).put 0x5200 1 4).put 0x5200 2 1).put 0x6800 0 1 with lib := { active := some { model1 with lists := [(0, 1, 64)] } } }.modArr 1 fun x => { x with openRings := [0] }, ask, 0, 5, _, writable_of (by decide), by decide, by decide, by decide, by decide, by decide, by decide, by decide, by decide⟩,
   ⟨((((served .prepare).put 0x5200 0xA 1).put 0x5200 1 4).put 0x5200 2 1), ask, 0, 5, _, writable_of (by decide), by decide, by decide, by decide, by decide⟩,
   ⟨served .run, ask, 0, 5, _, writable_of (by decide), by decide⟩,
   ⟨{ ((((((inState .run).put 0x5200 0xA 1).put 0x5200 1 2).put 0x5200 2 1).put 0x5200 5 100).put 0x5200 6 5).put 0x6800 0 1 with lib := { active := some { model1 with lists := [(0, 1, 64)] } } }, 0, 5, by decide, by decide, by decide, by decide, by decide, by decide, by decide⟩,
   ⟨((((((inState .drain).put 0x5200 0xA 1).put 0x5200 1 2).put 0x5200 2 1).put 0x5200 5 100).put 0x5200 6 5), 0, 5, by decide, by decide, by decide, by decide, by decide, by decide, by decide⟩,
   ⟨inState .run, 0, 5, by decide⟩,
   ⟨{ (((((((inState .run).put 0x5200 0xA 1).put 0x5200 1 3).put 0x5200 2 1).put 0x5200 7 9).put 0x5200 8 1).put 0x5400 10 1).put 0x6800 0 1 with lib := { active := some { model1 with lists := [(0, 1, 64)] } } }, 0, 5, by decide, by decide, by decide, by decide, by decide, by decide, by decide, by decide⟩,
   ⟨inState .run, 0, 5, by decide⟩,
   ⟨{ ((inState .run).put 0x5200 0xA 1).put 0x5200 2 1 with sync := { trigs := [(0, { wait := some ⟨1, 0, 0, none⟩ })] }, lib := { active := some { model1 with lists := [(0, 1, 64)] } } }, 0, 5, _, some_of (by decide), by decide, by decide, by decide, by decide⟩,
   ⟨inState .run, 0, 5, by decide⟩,
   ⟨served .run, ask, 2047, 65535, _, writable_of (by decide), by decide, by decide, by decide⟩,
   ⟨(served .run).put 0x5400 2048 1, ask, 2047, 65535, _, writable_of (by decide), by decide, by decide, by decide, by decide⟩,
   ⟨served .run, ask, _, writable_of (by decide), by decide, by decide⟩⟩

/-- States and operands that meet the hypotheses of each clause of SlipCommands. -/
theorem witness_SlipCommands :
    (∃ (s : State) (a : Fin 16) (c : CueCheck) (t : Nat),
      ∃ r, s.issuing a.val = some r ∧ s.mayIssue a.val opCallslip c r = true ∧ ∃ y, s.adds a.val r (s.cueWords a.val r) = some y ∧ Bits.fld (w (s.cueWords a.val r) 1) 22 15 = 1 ∧ ∃ l, y.line (Bits.fld (w (s.cueWords a.val r) 1) 14 0) 1 = some l ∧ (s.fab.ops.all fun o => decide (o.id < s.fab.nextOp) && decide (o.group < s.fab.nextOp)) = true ∧ slipCrcOk (s.wings a.val (l * 64) 64) = true ∧ s.slipLegal (s.slipAt a.val r (s.cueWords a.val r) l) = true ∧ s.pathOk (s.slipAt a.val r (s.cueWords a.val r) l) = true ∧ (s.slipAt a.val r (s.cueWords a.val r) l).opcode ≤ 4 ∧ gaModule (s.slipAt a.val r (s.cueWords a.val r) l).remote ≠ s.moduleNo) ∧
    (∃ (s : State) (a : Fin 16) (c : CueCheck) (t : Nat),
      ∃ r, s.issuing a.val = some r ∧ s.mayIssue a.val opCallslip c r = true ∧ ∃ y, s.adds a.val r (s.cueWords a.val r) = some y ∧ Bits.fld (w (s.cueWords a.val r) 1) 22 15 = 1 ∧ Bits.bit (w (s.cueWords a.val r) 0) 8 = true ∧ ∃ l, y.line (Bits.fld (w (s.cueWords a.val r) 1) 14 0) 1 = some l ∧ (s.fab.ops.all fun o => decide (o.id < s.fab.nextOp) && decide (o.group < s.fab.nextOp)) = true ∧ slipCrcOk (s.wings a.val (l * 64) 64) = false ∧ s.canonical = true) ∧
    (∃ (s : State) (a : Fin 16) (c : CueCheck) (t : Nat),
      s.nextIs a.val opCallslip = false) ∧
    (∃ (s : State) (opId : Nat) (reply : SlipReply) (t : Nat),
      ∃ o, (s.fab.ops.find? fun o => decide (o.id = opId) && o.sent.isSome) = some o ∧ s.frozen = false ∧ o.bell = none ∧ gaModule o.remote ≠ s.moduleNo ∧ reply.status = 1 ∧ o.opcode = 1 ∧ o.wings = false ∧ o.async = true ∧ o.light = none ∧ s.canonical = true ∧ (s.fab.ops.all fun p => decide (p.id = opId) || decide (p.group ≠ o.group)) = true) ∧
    (∃ (s : State) (opId : Nat) (reply : SlipReply) (t : Nat),
      ∃ o, (s.fab.ops.find? fun o => decide (o.id = opId) && o.sent.isSome) = some o ∧ s.frozen = false ∧ o.bell = none ∧ gaModule o.remote ≠ s.moduleNo ∧ reply.status = 1 ∧ o.opcode = 2 ∧ o.async = false ∧ o.light = none ∧ (s.fab.ops.all fun p => decide (p.id = opId) || decide (p.group ≠ o.group)) = true ∧ o.array < 16 ∧ ∃ r, (s.arrAt o.array).run = some r ∧ r.fly = [{ cls := .callslip, slips := [opId] }] ∧ r.ending = false ∧ r.rewind = false ∧ r.block = .none ∧ (s.arrAt o.array).susp = []) ∧
    (∃ (s : State) (opId : Nat) (reply : SlipReply) (t : Nat),
      ∃ o, (s.fab.ops.find? fun o => decide (o.id = opId) && o.sent.isSome) = some o ∧ s.frozen = false ∧ o.bell = none ∧ gaModule o.remote ≠ s.moduleNo ∧ 2 ≤ reply.status ∧ reply.status ≤ 7 ∧ o.opcode ≤ 4 ∧ o.async = true ∧ s.canonical = true ∧ (s.fab.ops.all fun p => decide (p.id = opId) || decide (p.group ≠ o.group)) = true) ∧
    (∃ (s : State) (opId : Nat) (reply : SlipReply) (t : Nat),
      ∃ o, (s.fab.ops.find? fun o => decide (o.id = opId) && o.sent.isSome) = some o ∧ s.frozen = false ∧ o.bell = none ∧ gaModule o.remote = s.moduleNo ∧ o.opcode = 1 ∧ o.wings = false ∧ o.async = true ∧ s.remoteCheck s.moduleNo false (gaOffset o.remote) o.length = none ∧ o.light = none ∧ s.canonical = true ∧ (s.fab.ops.all fun p => decide (p.id = opId) || decide (p.group ≠ o.group)) = true) ∧
    (∃ (s : State) (opId : Nat) (reply : SlipReply) (t : Nat),
      ((s.fab.ops.find? fun o => decide (o.id = opId) && o.sent.isSome) = none ∨ s.frozen = true)) ∧
    (∃ (s : State) (opId t : Nat),
      ∃ o, (s.fab.ops.find? fun o => decide (o.id = opId)) = some o ∧ s.frozen = false ∧ ∃ x, o.sent = some x ∧ x + s.get 0x7806 0 * 1000 ≤ (s.at t).now ∧ o.bell = none ∧ o.async = true ∧ s.canonical = true ∧ (s.fab.ops.all fun p => decide (p.id = opId) || decide (p.group ≠ o.group)) = true) ∧
    (∃ (s : State) (opId t : Nat),
      ∃ o, (s.fab.ops.find? fun o => decide (o.id = opId)) = some o ∧ s.frozen = false ∧ ∃ x, o.sent = some x ∧ x + s.get 0x7806 0 * 1000 ≤ (s.at t).now ∧ o.bell.isSome = true ∧ s.canonical = true) ∧
    (∃ (s : State) (opId t : Nat),
      (s.frozen = true ∨ ((s.fab.ops.find? fun o => decide (o.id = opId)).all fun o => o.sent.all fun x => decide ((s.at t).now < x + s.get 0x7806 0 * 1000)) = true)) ∧
    (∃ (s : State) (src : Nat) (d : Doorbell) (t : Nat),
      ∃ l n, d = .light l n ∧ s.stacksServed = true ∧ s.frozen = false ∧ s.bayMay 0x7805 src = true ∧ s.canonical = true ∧ s.sync.taps = [] ∧ s.light (l % 2048) + n ≤ 65535) ∧
    (∃ (s : State) (src : Nat) (d : Doorbell) (t : Nat),
      ∃ x n, d = .trigger x n ∧ s.stacksServed = true ∧ s.frozen = false ∧ s.bayMay 0x7805 src = true ∧ s.canonical = true ∧ s.trigOn (x % 512) = true ∧ s.trigSource (x % 512) = 5 ∧ s.posts (x % 512) (s.at t).firingModel = true) ∧
    (∃ (s : State) (src : Nat) (d : Doorbell) (t : Nat),
      s.stacksServed = true ∧ s.frozen = false ∧ s.bayMay 0x7805 src = false ∧ s.canonical = true) ∧
    (∃ (s : State) (src : Nat) (d : Doorbell) (t : Nat),
      s.stacksServed = true ∧ s.frozen = true) ∧
    (∃ (s : State) (src : Nat) (d : Doorbell) (t : Nat),
      s.stacksServed = false) ∧
    (∃ (s : State) (opId t : Nat),
      ∃ o, (s.fab.ops.find? fun o => decide (o.id = opId) && o.bell.isSome) = some o ∧ s.frozen = false ∧ o.remote ≠ s.moduleNo ∧ o.array < 16 ∧ ∃ r, (s.arrAt o.array).run = some r ∧ r.block = .doorbell o.id ∧ r.rewind = false ∧ r.ending = false ∧ (s.arrAt o.array).susp = [] ∧ s.canonical = true) ∧
    (∃ (s : State) (opId t : Nat),
      ∃ o, (s.fab.ops.find? fun o => decide (o.id = opId) && o.bell.isSome) = some o ∧ s.frozen = false ∧ o.remote = s.moduleNo ∧ ∃ l n, o.bell = some (.light l n) ∧ s.bayMay 0x7805 s.moduleNo = true ∧ s.canonical = true ∧ s.sync.taps = [] ∧ s.light (l % 2048) + n ≤ 65535 ∧ (s.arr.toList.all fun x => x.run.isNone && x.susp.isEmpty) = true) ∧
    (∃ (s : State) (opId t : Nat),
      ((s.fab.ops.find? fun o => decide (o.id = opId) && o.bell.isSome) = none ∨ s.frozen = true)) :=
  ⟨⟨((((atCue [w0 8 0, 0x8000]).wingsWrite 0 0 slip1).put 0x7800 0 9).put 0x7810 1 1).put 0x7811 1 3, 0, .agree, 5, _, some_of (by decide), by decide, _, some_of (by decide), by decide, _, some_of (by decide), by decide, by decide, by decide, by decide, by decide, by decide⟩,
   ⟨(((atCue [w0 8 1, 0x8000]).wingsWrite 0 0 (slip1.take 63 ++ [slip1.getD 63 0 + 1])).put 0x7800 0 9), 0, .agree, 5, _, some_of (by decide), by decide, _, some_of (by decide), by decide, by decide, _, some_of (by decide), by decide, by decide, by decide⟩,
   ⟨inState .run, 0, .agree, 5, by decide⟩,
   ⟨{ inState .run with fab := { ops := [op1] } }, 1, ⟨1, [1, 2, 3]⟩, 5, _, some_of (by decide), by decide, by decide, by decide, by decide, by decide, by decide, by decide, by decide, by decide, by decide⟩,
   ⟨{ (atCueOf [w0 0 0] fun r => { r with fly := [{ cls := .callslip, slips := [1] }] }) with fab := { ops := [{ op1 with opcode := 2, async := false }] } }, 1, ⟨1, []⟩, 5, _, some_of (by decide), by decide, by decide, by decide, by decide, by decide, by decide, by decide, by decide, by decide, _, some_of (by decide), by decide, by decide, by decide, by decide, by decide⟩,
   ⟨{ inState .run with fab := { ops := [op1] } }, 1, ⟨7, []⟩, 5, _, some_of (by decide), by decide, by decide, by decide, by decide, by decide, by decide, by decide, by decide, by decide⟩,
   ⟨{ ((inState .run).put 0x7800 0 4).put 0x6005 2 4096 with fab := { ops := [op1] } }, 1, ⟨7, []⟩, 5, _, some_of (by decide), by decide, by decide, by decide, by decide, by decide, by decide, by decide, by decide, by decide, by decide⟩,
   ⟨inState .run, 1, ⟨1, []⟩, 5, by decide⟩,
   ⟨{ inState .run with fab := { ops := [op1] } }, 1, 1000000000, _, some_of (by decide), by decide, _, some_of (by decide), by decide, by decide, by decide, by decide, by decide⟩,
   ⟨{ inState .run with fab := { ops := [{ op1 with bell := some (.light 3 1) }] } }, 1, 1000000000, _, some_of (by decide), by decide, _, some_of (by decide), by decide, by decide, by decide⟩,
   ⟨{ inState .run with fab := { ops := [op1] } }, 1, 1, by decide⟩,
   ⟨inState .run, 8, .light 7 1, 5, _, _, rfl, by decide, by decide, by decide, by decide, by decide, by decide⟩,
   ⟨{ ((((inState .run).put 0x5200 0xA 1).put 0x5200 1 5).put 0x5200 2 1).put 0x6800 0 1 with lib := { active := some { model1 with lists := [(0, 1, 64)] } } }, 8, .trigger 0 77, 5, _, _, rfl, by decide, by decide, by decide, by decide, by decide, by decide, by decide⟩,
   ⟨(inState .run).put 0x7805 0 0, 8, .light 7 1, 5, by decide, by decide, by decide, by decide⟩,
   ⟨{ inState .run with obs := { freeze := some ⟨3, 2, 0, some 1, some 4⟩ } }, 8, .light 7 1, 5, by decide, by decide⟩,
   ⟨inState .off, 8, .light 7 1, 5, by decide⟩,
   ⟨{ (atCueOf [w0 0 0] fun r => { r with block := .doorbell 1 }) with fab := { ops := [{ op1 with bell := some (.light 0 1), remote := 4 }] } }, 1, 5, _, some_of (by decide), by decide, by decide, by decide, _, some_of (by decide), by decide, by decide, by decide, by decide, by decide⟩,
   ⟨{ (inState .run).put 0x7800 0 4 with fab := { ops := [{ op1 with bell := some (.light 5 1), remote := 4 }] } }, 1, 5, _, some_of (by decide), by decide, by decide, _, _, rfl, by decide, by decide, by decide, by decide, by decide⟩,
   ⟨inState .run, 1, 5, by decide⟩⟩

/-- States and operands that meet the hypotheses of each clause of FabricCommands. -/
theorem witness_FabricCommands :
    (∃ (s : State) (f : Fin 16) (peer : Peer) (t : Nat),
      s.stacksServed = true ∧ s.moduleNo ≠ 0xFFFF ∧ s.fab.duplicate = false ∧ s.portUp f.val = false ∧ s.wiredOk f.val peer = true ∧ s.canonical = true) ∧
    (∃ (s : State) (f : Fin 16) (peer : Peer) (t : Nat),
      s.stacksServed = true ∧ s.moduleNo ≠ 0xFFFF ∧ s.fab.duplicate = false ∧ s.portUp f.val = false ∧ s.wiredOk f.val peer = false ∧ s.canonical = true) ∧
    (∃ (s : State) (f : Fin 16) (peer : Peer) (t : Nat),
      (s.stacksServed = false ∨ s.moduleNo = 0xFFFF ∨ s.fab.duplicate = true ∨ s.portUp f.val = true)) ∧
    (∃ (s : State) (f : Fin 16) (cause : LinkFail) (t : Nat),
      s.portUp f.val = true ∧ s.canonical = true) ∧
    (∃ (s : State) (f : Fin 16) (cause : LinkFail) (t : Nat),
      s.portUp f.val = false) ∧
    (∃ (s : State) (f : Fin 16) (x : Flit) (crcGood fecGood : Bool) (t : Nat),
      s.portUp f.val = true ∧ crcGood = true ∧ fecGood = true ∧ x.linkSeq = (s.fab.ports.toList.getD f.val {}).expect ∧ x.dest = s.moduleNo ∧ x.age ≤ 100000 ∧ s.canonical = true) ∧
    (∃ (s : State) (f : Fin 16) (x : Flit) (crcGood fecGood : Bool) (t : Nat),
      s.portUp f.val = true ∧ crcGood = true ∧ fecGood = true ∧ x.linkSeq = (s.fab.ports.toList.getD f.val {}).expect ∧ 100000 < x.age ∧ s.canonical = true) ∧
    (∃ (s : State) (f : Fin 16) (x : Flit) (crcGood fecGood : Bool) (t : Nat),
      s.portUp f.val = true ∧ crcGood = true ∧ fecGood = true ∧ x.linkSeq = (s.fab.ports.toList.getD f.val {}).expect ∧ x.age ≤ 100000 ∧ x.dest ≠ s.moduleNo ∧ s.homeOf x.dest ≠ s.moduleNo ∧ f.val ≠ 7 ∧ ∃ g, s.minimalPorts (s.homeOf x.dest) = [g] ∧ g ≠ f.val ∧ s.canonical = true) ∧
    (∃ (s : State) (f : Fin 16) (x : Flit) (crcGood fecGood : Bool) (t : Nat),
      s.portUp f.val = true ∧ (crcGood = false ∨ fecGood = false ∨ x.linkSeq ≠ (s.fab.ports.toList.getD f.val {}).expect) ∧ s.canonical = true) ∧
    (∃ (s : State) (f : Fin 16) (x : Flit) (crcGood fecGood : Bool) (t : Nat),
      s.portUp f.val = false) ∧
    (∃ (s : State) (l : LinkState) (t : Nat),
      s.stacksServed = true ∧ s.neighbours ≠ [] ∧ l.module ≠ s.moduleNo ∧ s.fab.links.contains l = false) ∧
    (∃ (s : State) (l : LinkState) (t : Nat),
      s.stacksServed = true ∧ s.neighbours ≠ [] ∧ l.module = s.moduleNo ∧ l.serial ≠ s.mfg.serial ∧ l.firstUp < s.fab.firstUp.getD 0 ∧ s.canonical = true) ∧
    (∃ (s : State) (l : LinkState) (t : Nat),
      (s.stacksServed = false ∨ s.neighbours = [] ∨ (l.module ≠ s.moduleNo ∧ s.fab.links.contains l = true) ∨ (l.module = s.moduleNo ∧ (l.serial = s.mfg.serial ∨ s.fab.firstUp.getD 0 < l.firstUp)))) ∧
    (∃ (s : State) (src : Requester) (offset len t : Nat),
      s.stacksServed = true ∧ s.remoteCheck src.module false offset len = none ∧ s.canonical = true) ∧
    (∃ (s : State) (src : Requester) (offset len t : Nat),
      ∃ x, s.remoteCheck src.module false offset len = some x ∧ s.stacksServed = true ∧ s.canonical = true) ∧
    (∃ (s : State) (src : Requester) (offset len t : Nat),
      s.stacksServed = false) ∧
    (∃ (s : State) (src : Requester) (offset : Nat) (data : Bytes) (t : Nat),
      s.stacksServed = true ∧ s.remoteCheck src.module true offset data.length = none ∧ s.canonical = true) ∧
    (∃ (s : State) (src : Requester) (offset : Nat) (data : Bytes) (t : Nat),
      ∃ x, s.remoteCheck src.module true offset data.length = some x ∧ s.stacksServed = true ∧ s.canonical = true) ∧
    (∃ (s : State) (src : Requester) (offset : Nat) (data : Bytes) (t : Nat),
      s.stacksServed = false) ∧
    (∃ (s : State) (src : Requester) (offset addend t : Nat),
      s.stacksServed = true ∧ s.remoteCheck src.module true offset 8 = none ∧ s.canonical = true) ∧
    (∃ (s : State) (src : Requester) (offset addend t : Nat),
      ∃ x, s.remoteCheck src.module true offset 8 = some x ∧ s.stacksServed = true ∧ s.canonical = true) ∧
    (∃ (s : State) (src : Requester) (offset addend t : Nat),
      s.stacksServed = false) ∧
    (∃ (s : State) (src : Requester) (offset cmp swp t : Nat),
      s.stacksServed = true ∧ s.remoteCheck src.module true offset 8 = none ∧ s.canonical = true) ∧
    (∃ (s : State) (src : Requester) (offset cmp swp t : Nat),
      ∃ x, s.remoteCheck src.module true offset 8 = some x ∧ s.stacksServed = true ∧ s.canonical = true) ∧
    (∃ (s : State) (src : Requester) (offset cmp swp t : Nat),
      s.stacksServed = false) :=
  ⟨⟨((inState .run).put 0x7800 0 3), 0, ⟨4, 6, 1, 7⟩, 5, by decide, by decide, by decide, by decide, by decide, by decide⟩,
   ⟨((inState .run).put 0x7800 0 3), 0, ⟨9, 9, 9, 7⟩, 5, by decide, by decide, by decide, by decide, by decide, by decide⟩,
   ⟨inState .run, 0, ⟨9, 9, 9, 7⟩, 5, by decide⟩,
   ⟨{ (inState .run).put 0x7810 1 1 with clock := { parent := some 0 } }, 0, .quiet, 5, by decide, by decide⟩,
   ⟨inState .run, 0, .quiet, 5, by decide⟩,
   ⟨(((inState .run).put 0x7810 1 1).put 0x7811 1 4).put 0x7800 0 3, 0, ⟨3, 4, false, 0, 100000, 0, [1], 0, 0, 0, 0, 0⟩, true, true, 5, by decide, by decide, by decide, by decide, by decide, by decide, by decide⟩,
   ⟨(((inState .run).put 0x7810 1 1).put 0x7811 1 4).put 0x7800 0 3, 0, ⟨3, 4, false, 0, 100001, 0, [1], 0, 0, 0, 0, 0⟩, true, true, 5, by decide, by decide, by decide, by decide, by decide, by decide⟩,
   ⟨(((((((inState .run).put 0x7810 1 1).put 0x7811 1 4).put 0x7800 0 3).put 0x7810 3 1).put 0x7811 3 2)), 0, ⟨2, 4, false, 0, 5, 0, [1], 0, 0, 0, 0, 0⟩, true, true, 5, by decide, by decide, by decide, by decide, by decide, by decide, by decide, by decide, _, rfl, by decide, by decide⟩,
   ⟨(((inState .run).put 0x7810 1 1).put 0x7811 1 4).put 0x7800 0 3, 0, ⟨3, 4, false, 0, 100000, 1, [1], 0, 0, 0, 0, 0⟩, true, true, 5, by decide, by decide, by decide⟩,
   ⟨inState .run, 0, ⟨3, 4, false, 0, 100000, 1, [1], 0, 0, 0, 0, 0⟩, true, true, 5, by decide⟩,
   ⟨(((inState .run).put 0x7810 1 1).put 0x7811 1 4).put 0x7800 0 3, ⟨4, 7, 5, false, [], 65535⟩, 5, by decide, by decide, by decide, by decide⟩,
   ⟨{ (((inState .run).put 0x7810 1 1).put 0x7811 1 4).put 0x7800 0 3 with fab := { firstUp := some 9 } }, ⟨3, 7, 5, false, [], 65535⟩, 5, by decide, by decide, by decide, by decide, by decide, by decide⟩,
   ⟨inState .run, ⟨4, 7, 5, false, [], 65535⟩, 5, by decide⟩,
   ⟨((inState .run).put 0x6005 2 4096), ⟨8, false⟩, 0, 16, 5, by decide, by decide, by decide⟩,
   ⟨inState .run, ⟨8, false⟩, 2 ^ 40, 16, 5, _, some_of (by decide), by decide, by decide⟩,
   ⟨inState .off, ⟨8, false⟩, 0, 16, 5, by decide⟩,
   ⟨((inState .run).put 0x6005 2 4096), ⟨8, false⟩, 0, [1, 2], 5, by decide, by decide, by decide⟩,
   ⟨inState .run, ⟨8, false⟩, 2 ^ 40, [1, 2], 5, _, some_of (by decide), by decide, by decide⟩,
   ⟨inState .off, ⟨8, false⟩, 0, [1, 2], 5, by decide⟩,
   ⟨((inState .run).put 0x6005 2 4096), ⟨8, false⟩, 0, 7, 5, by decide, by decide, by decide⟩,
   ⟨inState .run, ⟨8, false⟩, 2 ^ 40, 7, 5, _, some_of (by decide), by decide, by decide⟩,
   ⟨inState .off, ⟨8, false⟩, 0, 7, 5, by decide⟩,
   ⟨((inState .run).put 0x6005 2 4096), ⟨8, false⟩, 0, 0, 7, 5, by decide, by decide, by decide⟩,
   ⟨inState .run, ⟨8, false⟩, 2 ^ 40, 0, 7, 5, _, some_of (by decide), by decide, by decide⟩,
   ⟨inState .off, ⟨8, false⟩, 0, 0, 7, 5, by decide⟩⟩

/-- States and operands that meet the hypotheses of each clause of HouseClockCommands. -/
theorem witness_HouseClockCommands :
    (∃ (s : State) (f : Fin 16) (offset : Int) (hops grandmaster t : Nat),
      s.clockRuns = true ∧ s.portUp f.val = true ∧ s.get 0x2400 0 = 0 ∧ grandmaster ≠ s.moduleNo ∧ s.betterParent f.val hops = true ∧ 1000000 < (offset - Bits.toInt 16 (s.get 0x7813 (f.val + 1))).natAbs ∧ s.canonical = true) ∧
    (∃ (s : State) (f : Fin 16) (offset : Int) (hops grandmaster t : Nat),
      s.clockRuns = true ∧ s.portUp f.val = true ∧ s.get 0x2400 0 = 0 ∧ grandmaster ≠ s.moduleNo ∧ s.betterParent f.val hops = true ∧ (offset - Bits.toInt 16 (s.get 0x7813 (f.val + 1))).natAbs ≤ 1000000 ∧ s.canonical = true) ∧
    (∃ (s : State) (f : Fin 16) (offset : Int) (hops grandmaster t : Nat),
      (s.clockRuns = false ∨ s.portUp f.val = false ∨ s.get 0x2400 0 ≠ 0 ∨ grandmaster = s.moduleNo ∨ s.betterParent f.val hops = false)) ∧
    (∃ (s : State) (t : Nat),
      s.clockRuns = true ∧ s.get 0x2400 0 = 0 ∧ s.get 0x2405 0 = 1 ∧ s.reaches (s.get 0x2406 0) = false ∧ s.canonical = true) ∧
    (∃ (s : State) (t : Nat),
      (s.clockRuns = false ∨ s.get 0x2400 0 ≠ 0 ∨ s.get 0x2405 0 ≠ 1 ∨ s.reaches (s.get 0x2406 0) = true)) ∧
    (∃ (s : State) (t : Nat),
      s.clockRuns = true ∧ s.get 0x2400 0 = 0 ∧ s.get 0x2405 0 ≠ 1 ∧ (match s.clock.lostAt with | some x => decide (x + 1000000 ≤ (s.at t).now) | none => decide (s.get 0x2405 0 = 0)) = true ∧ s.otherSource = false ∧ s.lowestModule = true ∧ s.canonical = true) ∧
    (∃ (s : State) (t : Nat),
      (s.clockRuns = false ∨ s.get 0x2400 0 ≠ 0 ∨ s.get 0x2405 0 = 1 ∨ (match s.clock.lostAt with | some x => decide (x + 1000000 ≤ (s.at t).now) | none => decide (s.get 0x2405 0 = 0)) = false ∨ s.otherSource = true ∨ s.lowestModule = false)) ∧
    (∃ (s : State) (other t : Nat),
      s.clockRuns = true ∧ s.get 0x2400 0 ≠ 0 ∧ other < s.moduleNo ∧ s.canonical = true) ∧
    (∃ (s : State) (other t : Nat),
      (s.clockRuns = false ∨ s.get 0x2400 0 = 0 ∨ s.moduleNo ≤ other)) :=
  ⟨⟨(inState .run).put 0x7810 1 1, 0, -1000001, 1, 3, 9000000000, by decide, by decide, by decide, by decide, by decide, by decide, by decide⟩,
   ⟨(inState .run).put 0x7810 1 1, 0, 1000000, 1, 3, 9000000000, by decide, by decide, by decide, by decide, by decide, by decide, by decide⟩,
   ⟨inState .run, 0, 1000000, 1, 3, 9, by decide⟩,
   ⟨((inState .run).put 0x2405 0 1).put 0x2406 0 3, 5, by decide, by decide, by decide, by decide, by decide⟩,
   ⟨inState .run, 5, by decide⟩,
   ⟨(inState .run).put 0x7800 0 3, 5, by decide, by decide, by decide, by decide, by decide, by decide, by decide⟩,
   ⟨inState .run, 5, by decide⟩,
   ⟨(((inState .run).put 0x2400 0 1).put 0x7800 0 3), 2, 5, by decide, by decide, by decide, by decide⟩,
   ⟨inState .run, 2, 5, by decide⟩⟩

/-- States and operands that meet the hypotheses of each clause of StacksCommands. -/
theorem witness_StacksCommands :
    (∃ (s : State) (rep : EccReport) (t : Nat),
      s.stacksServed = true ∧ rep = .clean ∧ s.canonical = true) ∧
    (∃ (s : State) (rep : EccReport) (t : Nat),
      s.stacksServed = true ∧ rep = .corrected ∧ s.canonical = true) ∧
    (∃ (s : State) (rep : EccReport) (t : Nat),
      s.stacksServed = false) ∧
    (∃ (s : State) (busy : List Nat) (t : Nat),
      s.stacksServed = true ∧ s.canonical = true ∧ (if s.flag 0x6015 0 then imbalanced (busy.take 64) || decide (s.memc.calm + 1 < 1000) else !(imbalanced (busy.take 64)) || decide (s.memc.counting + 1 < 1000)) = true) ∧
    (∃ (s : State) (busy : List Nat) (t : Nat),
      s.stacksServed = true ∧ s.flag 0x6015 0 = false ∧ imbalanced (busy.take 64) = true ∧ 999 ≤ s.memc.counting ∧ s.canonical = true) ∧
    (∃ (s : State) (busy : List Nat) (t : Nat),
      s.stacksServed = true ∧ s.flag 0x6015 0 = true ∧ imbalanced (busy.take 64) = false ∧ 999 ≤ s.memc.calm ∧ s.canonical = true) ∧
    (∃ (s : State) (busy : List Nat) (t : Nat),
      s.stacksServed = false) ∧
    (∃ (s : State) (r : Req),
      ∃ u, s.Admits svcRead r 0x6030 2 [] u ∧ (u.inRegion 3 (u.get 0x6030 1) 64 ∨ u.inRegion 4 (u.get 0x6030 1) 64 ∨ u.inRegion 5 (u.get 0x6030 1) 64) ∧ s.canonical = true) ∧
    (∃ (s : State) (r : Req),
      ∃ u, s.Admits svcRead r 0x6030 2 [] u ∧ s.canonical = true ∧ u.inRegion 3 (u.get 0x6030 1) 64 = false ∧ u.inRegion 4 (u.get 0x6030 1) 64 = false ∧ u.inRegion 5 (u.get 0x6030 1) 64 = false) ∧
    (∃ (s : State) (t : Nat),
      s.rel.fabHour < (s.at t).now / 3600000000000 ∧ s.stacksServed = true ∧ s.get 0x8003 0 < s.fabResidual - s.rel.fabBase ∧ s.flag 0x8004 0 = false ∧ s.canonical = true) ∧
    (∃ (s : State) (t : Nat),
      s.rel.fabHour < (s.at t).now / 3600000000000 ∧ s.stacksServed = true ∧ s.fabResidual - s.rel.fabBase < s.get 0x8003 0 ∧ s.flag 0x8004 0 = true ∧ s.canonical = true) ∧
    (∃ (s : State) (t : Nat),
      s.rel.fabHour < (s.at t).now / 3600000000000 ∧ s.stacksServed = true ∧ (if s.flag 0x8004 0 then decide (s.get 0x8003 0 ≤ s.fabResidual - s.rel.fabBase) else decide (s.fabResidual - s.rel.fabBase ≤ s.get 0x8003 0)) = true) ∧
    (∃ (s : State) (t : Nat),
      ((s.at t).now / 3600000000000 ≤ s.rel.fabHour ∨ s.stacksServed = false)) :=
  ⟨⟨inState .run, .clean, 5, by decide, by decide, by decide⟩,
   ⟨inState .run, .corrected, 5, by decide, by decide, by decide⟩,
   ⟨inState .off, .clean, 5, by decide⟩,
   ⟨inState .run, [7, 8], 5, by decide, by decide, by decide⟩,
   ⟨{ inState .run with memc := { counting := 999 } }, 400000 :: List.replicate 63 0, 5, by decide, by decide, by decide, by decide, by decide⟩,
   ⟨{ (inState .run).put 0x6015 0 1 with memc := { calm := 999 } }, List.replicate 64 3, 5, by decide, by decide, by decide, by decide, by decide⟩,
   ⟨inState .off, [], 5, by decide⟩,
   ⟨(served .run).put 0x6030 1 ((served .run).regionBase 3), ask, _, admits_of (by decide), by decide, by decide⟩,
   ⟨(served .run).put 0x6030 1 ((served .run).regionBase 0), ask, _, admits_of (by decide), by decide, by decide, by decide, by decide⟩,
   ⟨(inState .run).put 0x7818 1 3000, 3600000000000, by decide, by decide, by decide, by decide, by decide⟩,
   ⟨(inState .run).put 0x8004 0 1, 3600000000000, by decide, by decide, by decide, by decide, by decide⟩,
   ⟨inState .run, 3600000000000, by decide, by decide, by decide⟩,
   ⟨inState .run, 5, by decide⟩⟩

/-- States and operands that meet the hypotheses of each clause of ScrubAndScanCommands. -/
theorem witness_ScrubAndScanCommands :
    (∃ (s : State) (t : Nat),
      s.coresRun = true ∧ s.frozen = false ∧ s.rel.lastPass < (s.at t).now / (s.get 0x8001 0 * 1000000) * (s.get 0x8001 0 * 1000000)) ∧
    (∃ (s : State) (t : Nat),
      (s.coresRun = false ∨ s.frozen = true ∨ (s.at t).now / (s.get 0x8001 0 * 1000000) * (s.get 0x8001 0 * 1000000) ≤ s.rel.lastPass)) ∧
    (∃ (s : State) (x : DigestUnit) (bad : List Nat) (t : Nat),
      ∃ p, (s.rel.passes.find? fun p => p.unit = x) = some p ∧ s.frozen = false ∧ s.watching x = false ∧ s.canonical = true ∧ (s.at t).now ≤ p.start + 60000 ∧ s.mismatches x bad = []) ∧
    (∃ (s : State) (x : DigestUnit) (bad : List Nat) (t : Nat),
      ∃ p, (s.rel.passes.find? fun p => p.unit = x) = some p ∧ s.frozen = false ∧ s.watching x = false ∧ s.canonical = true ∧ p.start + 60000 < (s.at t).now ∧ s.mismatches x bad = []) ∧
    (∃ (s : State) (x : DigestUnit) (bad : List Nat) (t : Nat),
      ∃ p, (s.rel.passes.find? fun p => p.unit = x) = some p ∧ s.frozen = false ∧ s.watching x = false ∧ s.canonical = true ∧ (s.at t).now ≤ p.start + 60000 ∧ ∃ g, s.mismatches x bad = [g]) ∧
    (∃ (s : State) (x : DigestUnit) (bad : List Nat) (t : Nat),
      ((s.rel.passes.find? fun p => p.unit = x) = none ∨ s.frozen = true ∨ s.watching x = true)) ∧
    (∃ (s : State) (r : Req),
      ∃ u, s.Writable r 0x8010 0 1 u ∧ u.inSession r 0x8010 = true ∧ u.dev.st = .prepare ∧ u.flash.dieScanPassed = true) ∧
    (∃ (s : State) (r : Req),
      ∃ u, s.Writable r 0x8010 0 1 u ∧ (u.inSession r 0x8010 = false ∨ u.dev.st ≠ .prepare ∨ u.flash.dieScanPassed = false)) ∧
    (∃ (s : State) (r : Req) (mask : Nat),
      ∃ u, s.Writable r 0x8012 0 mask u ∧ mask < 2 ^ u.arrays ∧ u.dev.st = .drain ∧ u.flash.scanGood = true ∧ s.canonical = true) ∧
    (∃ (s : State) (r : Req) (mask : Nat),
      ∃ u, s.Writable r 0x8012 0 mask u ∧ mask < 2 ^ u.arrays ∧ (u.dev.st ≠ .drain ∨ u.flash.scanGood = false)) ∧
    (∃ (s : State) (a : Fin 16) (t : Nat),
      s.rel.scanning = none ∧ s.rel.scanQueue.head? = some a ∧ s.scanReady a.val = true ∧ s.canonical = true) ∧
    (∃ (s : State) (a : Fin 16) (t : Nat),
      (s.rel.scanning.isSome = true ∨ s.rel.scanQueue.head? ≠ some a ∨ s.scanReady a.val = false)) ∧
    (∃ (s : State) (a : Fin 16) (pass : Bool) (pattern chains t : Nat),
      s.rel.scanning = some a ∧ s.frozen = false ∧ pass = true ∧ s.canonical = true ∧ s.isStretched a.val = false) ∧
    (∃ (s : State) (a : Fin 16) (pass : Bool) (pattern chains t : Nat),
      s.rel.scanning = some a ∧ s.frozen = false ∧ pass = false ∧ s.canonical = true ∧ (s.arrAt a.val).run = none) ∧
    (∃ (s : State) (a : Fin 16) (pass : Bool) (pattern chains t : Nat),
      (s.rel.scanning ≠ some a ∨ s.frozen = true)) :=
  ⟨⟨inState .run, 1000000000000, by decide, by decide, by decide⟩,
   ⟨inState .run, 5, by decide⟩,
   ⟨{ inState .run with rel := { passes := [⟨.front, 0, 0⟩] } }, .front, [], 5, _, some_of (by decide), by decide, by decide, by decide, by decide, by decide⟩,
   ⟨{ inState .run with rel := { passes := [⟨.front, 0, 0⟩] } }, .front, [], 70000, _, some_of (by decide), by decide, by decide, by decide, by decide, by decide⟩,
   ⟨{ inState .run with rel := { passes := [⟨.array 0, 0, 0⟩] }, lib := { active := some { model1 with golden := [{ unit := .array 0, reason := 2, digest := 0 }] } } }, .array 0, [0], 5, _, some_of (by decide), by decide, by decide, by decide, by decide, _, rfl⟩,
   ⟨inState .run, .front, [], 5, by decide⟩,
   ⟨{ trusted .prepare with flash := { replacement := true, dieScanPassed := true } }, sealedWrite 0x8010 0 1, _, writable_sealed (by decide), by decide, by decide, by decide⟩,
   ⟨served .prepare, ask, _, writable_of (by decide), by decide⟩,
   ⟨{ served .drain with flash := { scanGood := true } }, ask, 0xFFFF, _, writable_of (by decide), by decide, by decide, by decide, by decide⟩,
   ⟨served .run, ask, 0xFFFF, _, writable_of (by decide), by decide, by decide⟩,
   ⟨{ inState .drain with rel := { scanQueue := [15] } }, 15, 5, by decide, by decide, by decide, by decide⟩,
   ⟨inState .drain, 15, 5, by decide⟩,
   ⟨{ inState .drain with rel := { scanning := some 0 } }, 0, true, 0, 0, 5, by decide, by decide, by decide, by decide, by decide⟩,
   ⟨{ inState .drain with rel := { scanning := some 0 } }, 0, false, 1, 2, 5, by decide, by decide, by decide, by decide, by decide⟩,
   ⟨inState .drain, 0, true, 0, 0, 5, by decide⟩⟩

/-- States and operands that meet the hypotheses of each clause of MarkerAndSampleCommands. -/
theorem witness_MarkerAndSampleCommands :
    (∃ (s : State) (t : Nat),
      s.strobes = true ∧ s.obs.lastStrobe < ((s.at t).now / (s.get 0x8800 0 * 1000) * (s.get 0x8800 0 * 1000)) ∧ s.frozen = false ∧ s.canonical = true) ∧
    (∃ (s : State) (t : Nat),
      s.strobes = true ∧ s.obs.lastStrobe < ((s.at t).now / (s.get 0x8800 0 * 1000) * (s.get 0x8800 0 * 1000)) ∧ s.frozen = false ∧ s.canonical = true ∧ s.get 0x8801 0 = 0 ∧ s.obs.lost = [] ∧ s.obs.skipped = none ∧ s.logFull 1 = false) ∧
    (∃ (s : State) (t : Nat),
      s.strobes = true ∧ s.obs.lastStrobe < ((s.at t).now / (s.get 0x8800 0 * 1000) * (s.get 0x8800 0 * 1000)) ∧ s.frozen = true ∧ s.canonical = true) ∧
    (∃ (s : State) (t : Nat),
      (s.strobes = false ∨ ((s.at t).now / (s.get 0x8800 0 * 1000) * (s.get 0x8800 0 * 1000)) ≤ s.obs.lastStrobe)) ∧
    (∃ (s : State) (r : Req) (id : Nat),
      ∃ u, s.Writable r 0x8811 0 (id % 65536) u ∧ (u.obs.lost = [] ∧ u.logFull 1 = false ∧ u.frozen = false) ∧ u.logServed = true ∧ s.canonical = true ∧ id % 65536 ≠ s.get 0x8810 3) ∧
    (∃ (s : State) (r : Req) (id : Nat),
      ∃ u, s.Writable r 0x8811 0 (id % 65536) u ∧ id % 65536 = s.get 0x8810 3 ∧ s.flag 0x8810 2 = true ∧ s.canonical = true) ∧
    (∃ (s : State) (r : Req) (id : Nat),
      ∃ u, s.Writable r 0x8811 0 (65536 + id % 65536) u ∧ (u.obs.lost = [] ∧ u.logFull 1 = false ∧ u.frozen = false) ∧ u.logServed = true ∧ s.canonical = true) :=
  ⟨⟨inState .run, 1000000, by decide, by decide, by decide, by decide⟩,
   ⟨(inState .run).put 0x8801 0 0, 1000000, by decide, by decide, by decide, by decide, by decide, by decide, by decide, by decide⟩,
   ⟨{ inState .run with obs := { freeze := some ⟨2, 0, 1, none, some 5⟩ } }, 1000000, by decide, by decide, by decide, by decide⟩,
   ⟨inState .run, 5, by decide⟩,
   ⟨(served .run).put 0x8810 3 9, ask, 5, _, writable_of (by decide), by decide, by decide, by decide, by decide⟩,
   ⟨((served .run).put 0x8810 3 5).put 0x8810 2 1, ask, 5, _, writable_of (by decide), by decide, by decide, by decide⟩,
   ⟨served .run, ask, 5, _, writable_of (by decide), by decide, by decide, by decide⟩⟩

/-- States and operands that meet the hypotheses of each clause of HangAndDumpCommands. -/
theorem witness_HangAndDumpCommands :
    (∃ (s : State) (a : Fin 16) (t : Nat),
      ∃ r, (s.arrAt a.val).run = some r ∧ s.get (0x8850 + a.val) 1 ≠ 0 ∧ s.coresRun = true ∧ r.holding (s.at t).now = false ∧ (s.obs.freeze.all fun f => decide (f.hang ≠ some a.val) && f.frozen.isNone) = true ∧ r.progress + s.get (0x8850 + a.val) 1 * 1000 ≤ (s.at t).now ∧ s.canonical = true ∧ Bits.bit (s.get 0x8840 0) 0 = false ∧ r.tap = none) ∧
    (∃ (s : State) (a : Fin 16) (t : Nat),
      ∃ r, (s.arrAt a.val).run = some r ∧ s.get (0x8850 + a.val) 1 ≠ 0 ∧ s.coresRun = true ∧ r.holding (s.at t).now = false ∧ r.progress + s.get (0x8850 + a.val) 1 * 1000 ≤ (s.at t).now ∧ s.canonical = true ∧ Bits.bit (s.get 0x8840 0) 0 = true ∧ s.dumpBlocked = false) ∧
    (∃ (s : State) (a : Fin 16) (t : Nat),
      ((s.arrAt a.val).run.all fun r => decide (s.get (0x8850 + a.val) 1 = 0) || !s.coresRun || r.holding (s.at t).now || !(s.obs.freeze.all fun f => decide (f.hang ≠ some a.val) && f.frozen.isNone) || decide ((s.at t).now < r.progress + s.get (0x8850 + a.val) 1 * 1000)) = true) ∧
    (∃ (s : State) (r : Req) (at_ : Nat),
      ∃ u, s.Writable r 0x8842 0 at_ u ∧ at_ < 2 ^ 64) ∧
    (∃ (s : State) (t : Nat),
      ∃ x, s.obs.freezeAt = some x ∧ x ≤ (s.at t).now ∧ s.dumpBlocked = false) ∧
    (∃ (s : State) (t : Nat),
      ∃ x, s.obs.freezeAt = some x ∧ x ≤ (s.at t).now ∧ s.dumpBlocked = true ∧ s.obs.freeze = none ∧ s.canonical = true) ∧
    (∃ (s : State) (t : Nat),
      ∃ f, s.obs.freeze = some f ∧ (s.obs.freezeAt.all fun x => decide ((s.at t).now < x)) = true ∧ f.frozen = none ∧ f.at_ ≤ (s.at t).now) ∧
    (∃ (s : State) (t : Nat),
      ((s.obs.freezeAt.all fun x => decide ((s.at t).now < x)) && (s.obs.freeze.all fun f => f.frozen.isSome || decide ((s.at t).now < f.at_))) = true) ∧
    (∃ (s : State) (t : Nat),
      ∃ f, s.obs.freeze = some f ∧ ∃ x, f.frozen = some x ∧ f.hang = none ∧ s.canonical = true ∧ s.obs.fifo = [] ∧ s.fab.bells = []) ∧
    (∃ (s : State) (t : Nat),
      ∃ f, s.obs.freeze = some f ∧ ∃ x, f.frozen = some x ∧ ∃ b, f.hang = some b ∧ b < 16 ∧ ∃ r, (s.arrAt b).run = some r ∧ s.canonical = true ∧ s.obs.fifo = [] ∧ s.fab.bells = [] ∧ r.tap = none) ∧
    (∃ (s : State) (t : Nat),
      s.frozen = false) ∧
    (∃ (s : State) (r : Req),
      ∃ u, s.Writable r 0xA022 0 1 u ∧ (u.odp.transfers.any fun x => x.upload && decide (x.idx = 0xA020)) = false) ∧
    (∃ (s : State) (r : Req),
      ∃ u, s.Writable r 0xA022 0 1 u ∧ (u.odp.transfers.any fun x => x.upload && decide (x.idx = 0xA020)) = true) :=
  ⟨⟨(atCue [w0 0 0]).put 0x8840 0 0, 0, 100000000000, _, some_of (by decide), by decide, by decide, by decide, by decide, by decide, by decide, by decide, by decide⟩,
   ⟨atCue [w0 0 0], 0, 100000000000, _, some_of (by decide), by decide, by decide, by decide, by decide, by decide, by decide, by decide⟩,
   ⟨atCue [w0 0 0], 0, 5, by decide⟩,
   ⟨served .run, ask, 100, _, writable_of (by decide), by decide⟩,
   ⟨{ inState .run with obs := { freezeAt := some 5 } }, 5, _, some_of (by decide), by decide, by decide⟩,
   ⟨{ (inState .run).put 0x8841 0 1 with obs := { freezeAt := some 5, dump := true } }, 5, _, some_of (by decide), by decide, by decide, by decide, by decide⟩,
   ⟨{ inState .run with obs := { freeze := some ⟨1, 4, 1, none, none⟩ } }, 5, _, some_of (by decide), by decide, by decide, by decide⟩,
   ⟨inState .run, 5, by decide⟩,
   ⟨{ inState .run with obs := { freeze := some ⟨2, 0, 1, none, some 5⟩ } }, 5, _, some_of (by decide), _, some_of (by decide), by decide, by decide, by decide, by decide⟩,
   ⟨{ (atCue [w0 0 0]) with obs := { freeze := some ⟨0, 0, 1, some 0, some 5⟩ } }, 5, _, some_of (by decide), _, some_of (by decide), _, some_of (by decide), by decide, _, some_of (by decide), by decide, by decide, by decide, by decide⟩,
   ⟨inState .run, 5, by decide⟩,
   ⟨served .prepare, ask, _, writable_of (by decide), by decide⟩,
   ⟨{ served .prepare with odp := { transfers := [{ download1 with upload := true, idx := 0xA020 }] } }, ask, _, writable_of (by decide), by decide⟩⟩

/-- States and operands that meet the hypotheses of each clause of FuseCommands. -/
theorem witness_FuseCommands :
    (∃ (s : State) (r : Req) (hash : Nat),
      ∃ u, s.Admits svcWrite r 0x9004 2 (Bits.natLe 32 hash) u ∧ u.inSession r 0x9004 = true ∧ u.trust.ownerHash = 0 ∧ u.dev.st = .prepare) ∧
    (∃ (s : State) (r : Req) (hash : Nat),
      ∃ u, s.Writable r 0x9004 2 hash u ∧ (u.trust.ownerHash ≠ 0 ∨ u.dev.st ≠ .prepare)) ∧
    (∃ (s : State) (r : Req) (mask : Nat),
      ∃ u, s.Admits svcWrite r 0x9005 0 (Bits.natLe 1 mask) u ∧ u.inSession r 0x9005 = true ∧ u.dev.st = .prepare ∧ mask < 64 ∧ (u.trust.ownerHash ≠ 0 ∨ mask % 8 = 0)) ∧
    (∃ (s : State) (r : Req) (mask : Nat),
      ∃ u, s.Writable r 0x9005 0 mask u ∧ mask < 256 ∧ (u.dev.st ≠ .prepare ∨ 64 ≤ mask ∨ (u.trust.ownerHash = 0 ∧ mask % 8 ≠ 0))) ∧
    (∃ (s : State) (r : Req) (c : Nat),
      ∃ u, s.Admits svcWrite r 0x9007 0 (Bits.natLe 1 c) u ∧ u.inSession r 0x9007 = true ∧ (u.dev.st = .prepare ∨ u.dev.st = .drain) ∧ c = 0 ∧ u.flash.onTrial = false ∧ s.canonical = true) ∧
    (∃ (s : State) (r : Req) (c : Nat),
      ∃ u, s.Admits svcWrite r 0x9007 0 (Bits.natLe 1 c) u ∧ u.inSession r 0x9007 = true ∧ (u.dev.st = .prepare ∨ u.dev.st = .drain) ∧ 4 ≤ c ∧ c < 64 ∧ u.lib.retiring = none ∧ ∃ m, u.lib.active = some m ∧ modelCounter (u.get (0x6820 + m.slot) 2) = c ∧ u.slotsBelow c (Max.max (u.counter c) (Min.min 64 m.version)) = [] ∧ s.canonical = true) ∧
    (∃ (s : State) (r : Req) (c : Nat),
      ∃ u, s.Writable r 0x9007 0 c u ∧ c < 64 ∧ ((u.dev.st ≠ .prepare ∧ u.dev.st ≠ .drain) ∨ (c = 0 ∧ u.flash.onTrial = true) ∨ (c = 1 ∧ u.flash.scanGood = false) ∨ c = 3 ∨ (4 ≤ c ∧ u.lib.retiring.isSome = true))) :=
  ⟨⟨trusted .prepare, sealedWrite 0x9004 2 7, 7, _, admits_sealed (by decide), by decide, by decide, by decide⟩,
   ⟨trusted .run, sealedWrite 0x9004 2 7, 7, _, writable_sealed (by decide), by decide⟩,
   ⟨trusted .prepare, sealedWrite 0x9005 0 8, 8, _, admits_sealed (by decide), by decide, by decide, by decide, by decide⟩,
   ⟨trusted .prepare, sealedWrite 0x9005 0 64, 64, _, writable_sealed (by decide), by decide, by decide⟩,
   ⟨trusted .prepare, sealedWrite 0x9007 0 0, 0, _, admits_sealed (by decide), by decide, by decide, by decide, by decide, by decide⟩,
   ⟨{ (trusted .prepare).put 0x6820 2 3 with lib := { active := some { model1 with version := 5 } } }, sealedWrite 0x9007 0 7, 7, _, admits_sealed (by decide), by decide, by decide, by decide, by decide, by decide, _, some_of (by decide), by decide, by decide, by decide⟩,
   ⟨trusted .run, sealedWrite 0x9007 0 0, 0, _, writable_sealed (by decide), by decide, by decide⟩⟩

/-- States and operands that meet the hypotheses of each clause of FirmwareAndHostKeys. -/
theorem witness_FirmwareAndHostKeys :
    (∃ (s : State) (r : Req) (slot : Nat),
      ∃ u, s.Writable r 0x9009 0 slot u ∧ slot ≤ 1 ∧ u.flash.onTrial = false) ∧
    (∃ (s : State) (r : Req) (slot : Nat),
      ∃ u, s.Writable r 0x9009 0 slot u ∧ u.flash.onTrial = true) ∧
    (∃ (s : State) (r : Req),
      ∃ u, s.Writable r 0x900A 0 1 u) ∧
    (∃ (s : State) (r : Req) (k : Fin 8) (key : Nat),
      ∃ u, s.Writable r (0x9010 + k.val) 0 key u ∧ s.canonical = true ∧ key < 2 ^ 512 ∧ key ≠ 0) ∧
    (∃ (s : State) (r : Req) (k : Fin 8) (key : Nat),
      ∃ u, s.Writable r (0x9010 + k.val) 0 key u ∧ key = 0 ∧ u.get (0x9010 + k.val) 0 ≠ 0 ∧ ((List.range 8).all fun j => j == k.val || u.get (0x9010 + j) 0 == 0) = true) :=
  ⟨⟨trusted .prepare, sealedWrite 0x9009 0 1, 1, _, writable_sealed (by decide), by decide, by decide⟩,
   ⟨{ trusted .prepare with flash := { slotA := factorySlot, running := some 0, trial := true, trialRan := true } }, sealedWrite 0x9009 0 1, 1, _, writable_sealed (by decide), by decide⟩,
   ⟨{ trusted .prepare with flash := { slotA := factorySlot, running := some 0, trial := true, trialRan := true } }, sealedWrite 0x900A 0 1, _, writable_sealed (by decide)⟩,
   ⟨trusted .prepare, sealedWrite 0x9017 0 9, 7, 9, _, writable_sealed (by decide), by decide, by decide, by decide⟩,
   ⟨(trusted .prepare).put 0x9010 0 9, sealedWrite 0x9010 0 0, 0, 0, _, writable_sealed (by decide), by decide, by decide, by decide⟩⟩

/-- States and operands that meet the hypotheses of each clause of AttestationAndDebug. -/
theorem witness_AttestationAndDebug :
    (∃ (s : State) (r : Req) (nonce : Nat),
      ∃ u, s.Writable r 0x901B 0 nonce u ∧ nonce < 2 ^ 256 ∧ u.trust.tainted = false) ∧
    (∃ (s : State) (r : Req) (nonce : Nat),
      ∃ u, s.Writable r 0x901B 0 nonce u ∧ u.trust.tainted = true) ∧
    (∃ (s : State) (t : Nat),
      ∃ x, s.trust.report = some x ∧ s.canonical = true) ∧
    (∃ (s : State) (t : Nat),
      s.trust.report = none) ∧
    (∃ (s : State) (r : Req) (token : Bytes),
      ∃ u, s.Admits svcWrite r 0x9021 0 token u ∧ u.inSession r 0x9021 = true ∧ token.length = 256 ∧ Bits.leNat token ≠ 0 ∧ (u.dev.st = .prepare ∨ u.dev.st = .test) ∧ s.canonical = true) ∧
    (∃ (s : State) (r : Req) (token : Bytes),
      ∃ u, s.Admits svcWrite r 0x9021 0 token u ∧ u.inSession r 0x9021 = true ∧ token.length = 256 ∧ Bits.leNat token ≠ 0 ∧ u.dev.st ≠ .boot ∧ u.dev.st ≠ .prepare ∧ u.dev.st ≠ .test) ∧
    (∃ (s : State) (r : Req),
      ∃ u, s.Admits svcWrite r 0x9021 0 (List.replicate 256 0) u ∧ u.inSession r 0x9021 = true ∧ u.dev.st ≠ .boot) ∧
    (∃ (s : State) (ins : Nat),
      s.pwr.railsGood = true ∧ (s.trust.level < jtagLevel ins ∨ 5 < ins ∨ ins = 0)) ∧
    (∃ (s : State) (ins : Nat),
      s.pwr.railsGood = true ∧ ins = 1) ∧
    (∃ (s : State) (ins : Nat),
      s.pwr.railsGood = true ∧ (ins = 2 ∨ ins = 3) ∧ 1 ≤ s.trust.level) ∧
    (∃ (s : State) (ins : Nat),
      s.pwr.railsGood = false) :=
  ⟨⟨trusted .prepare, sealedWrite 0x901B 0 5, 5, _, writable_sealed (by decide), by decide, by decide⟩,
   ⟨{ trusted .prepare with trust := { tainted := true } }, sealedWrite 0x901B 0 5, 5, _, writable_sealed (by decide), by decide⟩,
   ⟨{ inState .prepare with trust := { report := some (5, 0) } }, 1000000000, _, some_of (by decide), by decide⟩,
   ⟨inState .prepare, 5, by decide⟩,
   ⟨trusted .prepare, sealed svcWrite 0x9021 0 (List.replicate 256 1), List.replicate 256 1, _, admits_sealed (by decide), by decide, by decide, by decide, by decide, by decide⟩,
   ⟨trusted .run, sealed svcWrite 0x9021 0 (List.replicate 256 1), List.replicate 256 1, _, admits_sealed (by decide), by decide, by decide, by decide, by decide, by decide, by decide⟩,
   ⟨trusted .prepare, sealed svcWrite 0x9021 0 (List.replicate 256 0), _, admits_sealed (by decide), by decide, by decide⟩,
   ⟨State.reset, 2, by decide, by decide⟩,
   ⟨State.reset, 1, by decide, by decide⟩,
   ⟨{ State.reset with trust := { level := 1 } }, 3, by decide, by decide, by decide⟩,
   ⟨{ State.reset with pwr := { railsGood := false } }, 1, by decide⟩⟩

/-- States and operands that meet the hypotheses of each clause of FaultCauses. -/
theorem witness_FaultCauses :
    (∃ (s : State) (cause : FaultCause) (t : Nat),
      s.dev.st ≠ .off ∧ s.dev.st ≠ .fault) ∧
    (∃ (s : State) (mv t : Nat),
      62000 < mv ∧ s.dev.st ≠ .off ∧ s.dev.st ≠ .fault) ∧
    (∃ (s : State) (rail : Rail) (mv : Int) (t : Nat),
      railOut rail mv = true ∧ s.railCounts rail = true ∧ s.dev.st ≠ .off ∧ s.dev.st ≠ .fault) ∧
    (∃ (s : State) (sensor : Fin 29) (temp : Int) (t : Nat),
      1680 ≤ temp ∧ sensor.val < 28 ∧ s.dev.st ≠ .off ∧ s.dev.st ≠ .fault) ∧
    (∃ (s : State) (rep : EccReport) (t : Nat),
      (∃ bank row, rep = .uncorrectable bank row) ∧ s.stacksServed = true) ∧
    (∃ (s : State) (cause : FaultCause) (t : Nat),
      s.dev.st = .fault) :=
  ⟨⟨inState .run, .firmwareWatchdog 3, 5, by decide, by decide⟩,
   ⟨inState .run, 62001, 5, by decide, by decide, by decide⟩,
   ⟨(inState .run).put 0x5010 2 2, .visl 0, 0, 5, by decide, by decide, by decide, by decide⟩,
   ⟨inState .run, 27, 1680, 5, by decide, by decide, by decide, by decide⟩,
   ⟨inState .run, .uncorrectable 1 2, 5, ⟨1, 2, rfl⟩, by decide⟩,
   ⟨inState .fault, .firmwareWatchdog 3, 5, by decide⟩⟩

/-! ## The statements about the machine -/

/-- In RUN, an overvoltage waits at the front of the queue. -/
def waiting : State := { inState .run with pending := [.inputOvervoltage 62001 5, .ppsInEdge 9] }

/-- It is taken, and the module is in FAULT with the rest of the queue. -/
theorem waiting_steps :
    (match step waiting with | .next u => decide (u.dev.st = .fault ∧ u.pending = [.ppsInEdge 9]) | _ => false) = true := by decide

theorem waiting_next : ∃ u, step waiting = .next u := ⟨_, rfl⟩

/-- States and values that meet the hypotheses of each clause of BinCodes; the value stands on a threshold. -/
theorem witness_BinCodes :
    (∃ (ts : List Nat) (y : Num.FV), ascending (ts.map Num.fp19.decode) = true ∧ y.isNan = false ∧ binCode ts y = 1) ∧
    (∃ ts : List Nat, ts ≠ [] ∧ ascending (ts.map Num.fp19.decode) = true) ∧
    (∃ (p : Pkt) (f : FeatDef) (raw : Num.FV), f.kind = 1 ∧ rawValue p f = some raw ∧ (scaled f raw).isNan = false) :=
  ⟨⟨[0x40000000, 0x41000000], .fin false 2 0, by decide, by decide, by decide⟩, ⟨[0x40000000, 0x41000000], by decide, by decide⟩,
   ⟨pkt1, ⟨0x21 + 2 ^ 16 + 0x3F800000 * 2 ^ 64, [0x40000000]⟩, _, by decide, some_of (by decide), by decide⟩⟩

/-- A queue with commands, and one without. -/
theorem witness_StepRunsFront : ∃ (c : Instr) (rest : List Instr) (s : State), s = waiting ∧ { s with pending := c :: rest } = waiting :=
  ⟨.inputOvervoltage 62001 5, [.ppsInEdge 9], waiting, rfl, rfl⟩

theorem witness_EmptyQueueIdles : ∃ s : State, s.pending = [] ∧ s.clock.house + 1 < 2 ^ 64 := ⟨State.reset, by decide, by decide⟩

theorem witness_StepKeepsFixed : ∃ s u : State, step s = .next u := ⟨waiting, waiting_next⟩

theorem witness_StepKeepsCanonical : ∃ s u : State, s.canonical = true ∧ step s = .next u :=
  ⟨waiting, waiting_next.elim fun u h => ⟨u, by decide, h⟩⟩

theorem witness_StepKeepsCurtain : ∃ s u : State, s.curtainSafe = true ∧ step s = .next u :=
  ⟨waiting, waiting_next.elim fun u h => ⟨u, by decide, h⟩⟩

theorem witness_DeviceMoves : ∃ s u : State, step s = .next u ∧ u.dev.st ≠ s.dev.st := by
  refine ⟨waiting, _, rfl, ?_⟩
  decide

end Sys2Proof.Tests
end

/-! The bin code of R95: the IEEE comparisons are a linear order on what is not a NaN, and the count of
the thresholds at or below a value is a position in their ascending list. -/

namespace Sys2Proof.Num

/-! ## The comparison of exact numbers, at any common exponent -/

theorem Dy.align_of_le (x : Dy) {q p : Int} (hqp : q ≤ p) (hp : p ≤ x.e) :
    x.align q = x.align p * (2 ^ (p - q).toNat : Nat) := by
  have hsplit : (x.e - q).toNat = (x.e - p).toNat + (p - q).toNat := by omega
  rw [Dy.align, Dy.align, hsplit, Nat.pow_add, Int.natCast_mul, Int.mul_assoc]

theorem Dy.le_iff_align {x y : Dy} {q : Int} (hx : q ≤ x.e) (hy : q ≤ y.e) :
    x.le y = true ↔ x.align q ≤ y.align q := by
  have hqm : q ≤ min x.e y.e := by omega
  have hpos : (0 : Int) < (2 ^ (min x.e y.e - q).toNat : Nat) :=
    Int.natCast_pos.2 (Nat.two_pow_pos _)
  rw [x.align_of_le hqm (Int.min_le_left x.e y.e), y.align_of_le hqm (Int.min_le_right x.e y.e),
    Int.mul_le_mul_iff_of_pos_right hpos]
  exact decide_eq_true_iff

theorem Dy.le_trans {x y z : Dy} (hxy : x.le y = true) (hyz : y.le z = true) : x.le z = true := by
  obtain ⟨q, hx, hy, hz⟩ : ∃ q, q ≤ x.e ∧ q ≤ y.e ∧ q ≤ z.e :=
    ⟨min x.e (min y.e z.e), by omega, by omega, by omega⟩
  rw [Dy.le_iff_align hx hy] at hxy
  rw [Dy.le_iff_align hy hz] at hyz
  exact (Dy.le_iff_align hx hz).2 (Int.le_trans hxy hyz)

theorem Dy.le_total (x y : Dy) : x.le y = true ∨ y.le x = true := by
  have hx : min x.e y.e ≤ x.e := Int.min_le_left ..
  have hy : min x.e y.e ≤ y.e := Int.min_le_right ..
  rw [Dy.le_iff_align hx hy, Dy.le_iff_align hy hx]
  exact Int.le_total ..

/-! ## The IEEE comparisons, on what is not a NaN -/

theorem FV.le_fin (m n : Bool) (a b : Nat) (e f : Int) :
    (FV.fin m a e).le (.fin n b f) = (FV.fin m a e).dy.le (FV.fin n b f).dy := rfl

theorem FV.negInf_le {x : FV} (hx : x.isNan = false) : (FV.inf true).le x = true := by
  cases x with
  | nan => cases hx
  | inf n => rfl
  | fin n m e => rfl

theorem FV.le_posInf {x : FV} (hx : x.isNan = false) : x.le (.inf false) = true := by
  match x with
  | .inf true | .inf false | .fin .. => rfl

theorem FV.not_le_negInf {x : FV} (hx : x.isNan = false) (hi : x.isInf = false) :
    x.le (.inf true) = false := by
  cases x with
  | nan => cases hx
  | inf n => cases hi
  | fin n m e => rfl

theorem FV.le_trans {x y z : FV} (hz : z.isNan = false) (hxy : x.le y = true)
    (hyz : y.le z = true) : x.le z = true := by
  match x, y, z with
  | .inf true, _, _ => exact FV.negInf_le hz
  | .inf false, .inf false, _ => exact hyz
  | .inf false, .inf true, _ | .inf false, .fin .., _ => cases hxy
  | .fin .., .inf true, _ => cases hxy
  | .fin .., _, .inf false => rfl
  | .fin .., .inf false, .inf true | .fin .., .inf false, .fin .. => cases hyz
  | .fin .., .fin .., .inf true => cases hyz
  | .fin .., .fin .., .fin .. => exact Dy.le_trans hxy hyz

theorem FV.le_total {x y : FV} (hx : x.isNan = false) (hy : y.isNan = false) :
    x.le y = true ∨ y.le x = true := by
  match x, y with
  | .inf true, y => exact .inl (FV.negInf_le hy)
  | .inf false, y => exact .inr (FV.le_posInf hy)
  | .fin .., .inf true => exact .inr rfl
  | .fin .., .inf false => exact .inl rfl
  | .fin .., .fin .. => exact Dy.le_total ..

theorem FV.lt_eq_not_le {x y : FV} (hx : x.isNan = false) (hy : y.isNan = false) :
    x.lt y = !(y.le x) := by
  simp only [FV.lt, hx, hy, Bool.not_false, Bool.true_and]

theorem FV.le_of_lt {x y : FV} (hx : x.isNan = false) (hy : y.isNan = false)
    (h : x.lt y = true) : x.le y = true := by
  rw [FV.lt_eq_not_le hx hy, Bool.not_eq_true'] at h
  exact (FV.le_total hx hy).resolve_right (Bool.eq_false_iff.1 h)

/-- −0 and +0 compare equal, whatever their exponents. -/
theorem FV.zero_le_zero (m n : Bool) (e f : Int) : (FV.fin m 0 e).le (.fin n 0 f) = true := by
  have hdy : ∀ (b : Bool) (g : Int), (FV.fin b 0 g).dy = ⟨0, g⟩ := fun b g => by cases b <;> rfl
  have hzero : ∀ g q : Int, Dy.align ⟨0, g⟩ q = 0 := fun g q => Int.zero_mul _
  rw [FV.le_fin, hdy, hdy]
  refine (Dy.le_iff_align (Int.min_le_left e f) (Int.min_le_right e f)).2 (Int.le_of_eq ?_)
  rw [hzero, hzero]

end Sys2Proof.Num

namespace Sys2Proof.Machine

open Sys2Proof.Num

/-! ## Counting along an ascending list -/

/-- When each element that passes has only passing ones before it, the count of the passing elements is
the position at which they end. -/
theorem countP_eq_iff_of_downward {α : Type} {p : α → Bool} {l : List α} (d : α)
    (h : l.Pairwise fun a b => p b = true → p a = true) (k : Nat) :
    l.countP p = k ↔ k ≤ l.length ∧ (∀ i, i < k → p (l.getD i d) = true) ∧
      ∀ i, k ≤ i → i < l.length → p (l.getD i d) = false := by
  induction l generalizing k with
  | nil =>
    rw [List.countP_nil, List.length_nil]
    exact ⟨fun hk => hk ▸ ⟨Nat.le_refl 0, nofun, nofun⟩, fun ⟨hk, _⟩ => (Nat.le_zero.1 hk).symm⟩
  | cons a l ih =>
    obtain ⟨ha, hl⟩ := List.pairwise_cons.1 h
    rw [← Nat.and_forall_add_one, ← Nat.and_forall_add_one (p := fun i => k ≤ i → _)]
    simp only [List.getD_cons_zero, List.getD_cons_succ, List.length_cons]
    cases hpa : p a with
    | true =>
      rw [List.countP_cons_of_pos hpa]
      cases k with
      | zero => simp
      | succ k => simp [ih hl]
    | false =>
      have hnone : ∀ b ∈ l, ¬p b = true := fun b hb hpb => Bool.false_ne_true (hpa ▸ ha b hb hpb)
      rw [List.countP_cons_of_neg (Bool.eq_false_iff.1 hpa), List.countP_eq_zero.2 hnone]
      cases k with
      | zero =>
        have hget : ∀ i, i < l.length → p (l.getD i d) = false := fun i hi => by
          rw [← List.getElem_eq_getD (h := hi)]
          exact Bool.eq_false_iff.2 (hnone _ (List.getElem_mem hi))
        simpa using hget
      | succ k => simp

theorem ascending_cons_cons {x y : FV} {l : List FV} (h : ascending (x :: y :: l) = true) :
    (x.isNan = false ∧ x.isInf = false) ∧ x.lt y = true ∧ ascending (y :: l) = true := by
  simp only [ascending, Bool.and_eq_true, Bool.not_eq_true'] at h
  obtain ⟨⟨hfin, hlt⟩, htail⟩ := h
  exact ⟨hfin, hlt, htail⟩

theorem ascending_finite {l : List FV} (h : ascending l = true) :
    ∀ x ∈ l, x.isNan = false ∧ x.isInf = false := by
  induction l using ascending.induct with
  | case1 => exact nofun
  | case2 x =>
    simp only [ascending, Bool.and_eq_true, Bool.not_eq_true'] at h
    exact List.forall_mem_singleton.2 h
  | case3 x y l ih =>
    obtain ⟨hfin, -, htail⟩ := ascending_cons_cons h
    exact List.forall_mem_cons.2 ⟨hfin, ih htail⟩

theorem ascending_pairwise_le {l : List FV} (h : ascending l = true) :
    l.Pairwise fun x y => x.le y = true := by
  induction l using ascending.induct with
  | case1 => exact .nil
  | case2 x => exact List.pairwise_singleton ..
  | case3 x y l ih =>
    obtain ⟨⟨hx, -⟩, hlt, htail⟩ := ascending_cons_cons h
    have hfin := ascending_finite htail
    have hxy := FV.le_of_lt hx (hfin y List.mem_cons_self).1 hlt
    obtain ⟨hy, -⟩ := List.pairwise_cons.1 (ih htail)
    refine List.pairwise_cons.2 ⟨List.forall_mem_cons.2 ⟨hxy, fun z hz => ?_⟩, ih htail⟩
    exact FV.le_trans (hfin z (List.mem_cons_of_mem y hz)).1 hxy (hy z hz)

/-! ## The code of a value -/

theorem binCode_eq_countP (ts : List Nat) (y : FV) :
    binCode ts y = ts.countP fun t => (fp19.decode t).le y :=
  List.countP_eq_length_filter.symm

section
variable {ts : List Nat} (hasc : ascending (ts.map fp19.decode) = true)
include hasc

theorem threshold_finite {t : Nat} (ht : t ∈ ts) :
    (fp19.decode t).isNan = false ∧ (fp19.decode t).isInf = false :=
  ascending_finite hasc _ (List.mem_map_of_mem ht)

/-- A threshold below one that is at or below `y` is itself at or below `y`. -/
theorem thresholds_downward {y : FV} (hy : y.isNan = false) :
    ts.Pairwise fun a b => (fp19.decode b).le y = true → (fp19.decode a).le y = true :=
  (List.pairwise_map.1 (ascending_pairwise_le hasc)).imp (FV.le_trans hy)

theorem not_le_iff_lt_threshold {y : FV} (hy : y.isNan = false) {i : Nat} (hi : i < ts.length) :
    (fp19.decode (ts.getD i 0)).le y = false ↔ y.lt (fp19.decode (ts.getD i 0)) = true := by
  have hmem : ts.getD i 0 ∈ ts := List.getElem_eq_getD (h := hi) 0 ▸ List.getElem_mem hi
  rw [FV.lt_eq_not_le hy (threshold_finite hasc hmem).1, Bool.not_eq_true']

theorem binCode_eq_iff {y : FV} (hy : y.isNan = false) (k : Nat) :
    binCode ts y = k ↔ k ≤ ts.length ∧ (∀ i, i < k → (fp19.decode (ts.getD i 0)).le y = true) ∧
      ∀ i, k ≤ i → i < ts.length → y.lt (fp19.decode (ts.getD i 0)) = true := by
  rw [binCode_eq_countP, countP_eq_iff_of_downward 0 (thresholds_downward hasc hy)]
  refine and_congr_right' (and_congr_right' (forall_congr' fun i => ?_))
  exact imp_congr_right fun _ => imp_congr_right fun hi => not_le_iff_lt_threshold hasc hy hi

theorem binCode_posInf : binCode ts (.inf false) = ts.length := by
  rw [binCode_eq_countP, List.countP_eq_length]
  exact fun t ht => FV.le_posInf (threshold_finite hasc ht).1

theorem binCode_negInf : binCode ts (.inf true) = 0 := by
  rw [binCode_eq_countP, List.countP_eq_zero]
  intro t ht
  obtain ⟨hnan, hinf⟩ := threshold_finite hasc ht
  exact Bool.eq_false_iff.1 (FV.not_le_negInf hnan hinf)

end

theorem plainFeature_numeric {p : Pkt} {f : FeatDef} {raw : FV} (hkind : f.kind = 1)
    (hraw : rawValue p f = some raw) (hnan : (scaled f raw).isNan = false) :
    plainFeature p f = ((false, binCode f.thresh (scaled f raw)), false) := by
  rw [plainFeature, hkind, hraw]
  simp [hnan]

/-- Settles O51: the thresholds at or below a value are an initial piece of their ascending list, as the
comparisons are a linear order on what is not a NaN. -/
theorem binCodes : Obligations.BinCodes :=
  ⟨fun _ _ k hasc hy => binCode_eq_iff hasc hy k, binCode_eq_countP,
    fun _ hasc => ⟨binCode_posInf hasc, binCode_negInf hasc⟩, FV.zero_le_zero,
    fun _ _ _ => plainFeature_numeric⟩

end Sys2Proof.Machine

/-! The two EVT_OUT functions (R388): what a WRITE that passes the checks of R364 comes to, for any object and then for
0x8810:01 and 0x8810:02. A BOOL has one byte, so of the value a WRITE carries only the low eight bits count. -/

namespace Sys2Proof.Machine

open Sys2Proof.Bits

/-! ## What an answer leaves -/

theorem ObjsBut.trans {k : Nat → Nat → Bool} {s u v : State} (h : ObjsBut k s u) (h' : ObjsBut k u v) : ObjsBut k s v :=
  fun i j hj hk => (h' i j hj hk).trans (h i j hj hk)

theorem ObjsBut.mono {k l : Nat → Nat → Bool} {s u : State} (h : ObjsBut k s u) (hl : ∀ i j, l i j = false → k i j = false) :
    ObjsBut l s u :=
  fun i j hj hk => h i j hj (hl i j hk)

theorem ObjsBut.of_dict {k : Nat → Nat → Bool} {s u : State} (h : u.dict = s.dict) : ObjsBut k s u :=
  fun i j _ _ => by rw [State.obj, State.obj, h]

theorem State.obj_put_ne {s : State} {i j i' j' v : Nat} (hj' : j' < 65536) (hj : j < 65536) (hne : ¬(i' = i ∧ j' = j)) :
    (s.put i j v).obj i' j' = s.obj i' j' :=
  Sparse.read_write_ne (mt (objKey_inj hj' hj).1 hne)

theorem State.bump_ansObj {i : Nat} (hi : i = 0x1812 ∨ i = 0x1813) (s : State) : ObjsBut ansObj s (s.bump i 0) := by
  intro i' j' hj' hk
  refine State.obj_put_ne hj' (by decide) ?_
  rintro ⟨rfl, rfl⟩
  rcases hi with rfl | rfl <;> exact absurd hk (by decide)

theorem State.answer_objsBut (s : State) (a : Answer) : ObjsBut ansObj s (s.answer a) := by
  have hsent : ObjsBut ansObj s ((s.emit (.answer a)).bump 0x1812 0) := State.bump_ansObj (.inl rfl) (s.emit (.answer a))
  unfold State.answer
  split
  · exact hsent
  · exact hsent.trans (State.bump_ansObj (.inr rfl) _)

@[simp] theorem State.answer_out (s : State) (a : Answer) : (s.answer a).out = .answer a :: s.out := by
  unfold State.answer
  split <;> rfl

theorem State.answer_odp (s : State) (a : Answer) : (s.answer a).odp = { s.odp with history := (s.answer a).odp.history } := by
  unfold State.answer
  split <;> rfl

theorem State.answered_answer (s : State) (svc : Nat) (r : Req) (i j abort : Nat) (d : Bytes) :
    (s.answer (mkAnswer svc r i j abort d)).Answered svc r i j abort d :=
  ⟨by rw [State.answer_out, List.head?_cons], State.answer_head ..⟩

/-! ## A WRITE that passes the checks -/

section
variable {s u v : State} {svc : Nat} {r : Req} {i j : Nat} {d : Bytes} (h : s.Admits svc r i j d u)
include h

theorem State.Admits.within : Within [.odp, .clock] s u :=
  ((s.at_within r.t).mono (by decide)).step (State.authenticate_within h.authentic) (by decide)

theorem State.Admits.dict_eq : u.dict = s.dict := h.within .dict (by decide)

theorem State.Admits.serve_eq {body : State → Reply} :
    (s.at r.t).serve svc r i j d body = (body u).st.answer (mkAnswer svc r i j (body u).abort (body u).data) :=
  State.receive_of_admits h.served h.addressed h.authentic h.fresh h.allowed

/-- A service that leaves ODP and what the module sent alone, and is answered then, changes what it changes and what the answer does. -/
theorem State.Admits.served_answer {ps : List Part} {k : Nat → Nat → Bool} (a : Answer)
    (hw : Within (ps ++ [.odp, .out, .dict, .clock]) u v) (hk : ObjsBut k u v) (hodp : v.odp = u.odp) (hout : v.out = u.out) :
    Served ps k s u (v.answer a) where
  frame := by
    have hserving : [.odp, .out, .dict, .clock] ⊆ ps ++ [.odp, .out, .dict, .clock] := List.subset_append_right ..
    have hadmitted := h.within.mono (List.Subset.trans (by decide) hserving)
    exact (hadmitted.trans hw).step (v.answer_within a) (List.Subset.trans (by decide) hserving)
  objects := by
    have hserved : ObjsBut (fun i j => k i j || ansObj i j) s v :=
      (ObjsBut.of_dict h.dict_eq).trans (hk.mono fun i j hij => (Bool.or_eq_false_iff.1 hij).1)
    exact hserved.trans ((v.answer_objsBut a).mono fun i j hij => (Bool.or_eq_false_iff.1 hij).2)
  odp := hodp ▸ v.answer_odp a
  out := by
    have hsent : u.out = s.out := h.within .out (by decide)
    rw [State.answer_out, List.tail_cons, hout, hsent]

end

section
variable {s u : State} {r : Req} {i j : Nat} {d : Bytes} {eff : State → Except Nat State} {row : ObjRow}
  (h : s.Admits svcWrite r i j d u) (hrow : u.checkWrite (u.inSession r i) i j d = .ok row)
include h hrow

theorem State.serveWrite_of_refused {c : Nat} (he : eff u = .error c) :
    (s.at r.t).serveWrite r i j d eff = u.answer (mkAnswer svcWrite r i j c []) := by
  rw [State.serveWrite, h.serve_eq]
  simp only [hrow, he]

theorem State.serveWrite_of_done {v : State} (he : eff u = .ok v) :
    (s.at r.t).serveWrite r i j d eff = v.answer (mkAnswer svcWrite r i j 0 []) := by
  rw [State.serveWrite, h.serve_eq]
  simp only [hrow, he]

end

theorem exists_ok_of_isSome {ε α : Type} {e : Except ε α} (h : e.toOption.isSome = true) : ∃ x, e = .ok x := by
  cases e with
  | error _ => exact absurd h Bool.false_ne_true
  | ok x => exact ⟨x, rfl⟩

/-! ## The EVT_OUT functions -/

theorem State.effect_evtOut (s : State) (b : Bool) {sub : Nat} (hsub : sub = 1 ∨ sub = 2) (v : Nat) :
    s.effect b 0x8810 sub v = s.setEvtOut sub v := by
  rcases hsub with rfl | rfl <;> rfl

/-- The byte that a WRITE of `v` to an EVT_OUT function carries. -/
theorem evtOut_data {sub : Nat} (hsub : sub = 1 ∨ sub = 2) (v : Nat) :
    natLe ((objRow? 0x8810 sub).elim 0 fun row => tySize row.ty) v = [BitVec.ofNat 8 v] := by
  rcases hsub with rfl | rfl <;> rfl

theorem leNat_byte (v : Nat) : leNat [BitVec.ofNat 8 v] = v % 256 := by simp [leNat]

theorem execEvtOutFunctionWrite_eq (r : Req) {sub : Nat} (hsub : sub = 1 ∨ sub = 2) (v : Nat) (s : State) :
    exec (.evtOutFunctionWrite r sub v) s = .next ((s.at r.t).serveWrite r 0x8810 sub [BitVec.ofNat 8 v] fun u =>
      u.setEvtOut sub (v % 256)) := by
  have hserve : exec (.evtOutFunctionWrite r sub v) s = .next ((s.at r.t).serveValue r 0x8810 sub v) := rfl
  rw [hserve, State.serveValue, evtOut_data hsub]
  simp [State.serveAny, State.serveObject, State.effect_evtOut _ _ hsub, leNat_byte]

section
variable {s u : State} {r : Req} {sub v : Nat} (h : s.Writable r 0x8810 sub v u) (hsub : sub = 1 ∨ sub = 2)
include h hsub

theorem evtOut_admits : s.Admits svcWrite r 0x8810 sub [BitVec.ofNat 8 v] u ∧
    ∃ row, u.checkWrite (u.inSession r 0x8810) 0x8810 sub [BitVec.ofNat 8 v] = .ok row := by
  rw [← evtOut_data hsub]
  exact ⟨h.1, exists_ok_of_isSome h.2⟩

/-- A WRITE of 1 while the other function is on is refused (R388). -/
theorem evtOutFunctionWrite_refused (hv : v % 256 = 1) (hother : u.flag 0x8810 (3 - sub) = true) :
    ∃ w, exec (.evtOutFunctionWrite r sub v) s = .next w ∧
      w.Answered svcWrite r 0x8810 sub 0x08000031 [] ∧ Served [] noObj s u w := by
  obtain ⟨hadm, row, hrow⟩ := evtOut_admits h hsub
  have heff : u.setEvtOut sub (v % 256) = .error 0x08000031 := if_pos ⟨hv, hother⟩
  refine ⟨_, (execEvtOutFunctionWrite_eq r hsub v s).trans (congrArg _ (State.serveWrite_of_refused hadm hrow heff)),
    State.answered_answer .., ?_⟩
  exact hadm.served_answer _ (Within.refl _ u) (ObjsBut.of_dict rfl) rfl rfl

/-- A WRITE of 0, and any while the other function is off, is accepted, and the function reads the byte written (R388). -/
theorem evtOutFunctionWrite_accepted (hform : Sparse.wf objDefault s.dict = true)
    (hv : v % 256 = 0 ∨ u.flag 0x8810 (3 - sub) = false) :
    ∃ w, exec (.evtOutFunctionWrite r sub v) s = .next w ∧
      w.Answered svcWrite r 0x8810 sub 0 [] ∧ w.obj 0x8810 sub = v % 256 ∧
      Served [] (fun i j => i == 0x8810 && j == sub) s u w := by
  obtain ⟨hadm, row, hrow⟩ := evtOut_admits h hsub
  have hsub16 : sub < 65536 := by omega
  have heff : u.setEvtOut sub (v % 256) = .ok (u.put 0x8810 sub (v % 256)) := by
    refine if_neg fun ⟨hone, hother⟩ => ?_
    rcases hv with hzero | hoff
    · omega
    · exact Bool.false_ne_true (hoff ▸ hother)
  refine ⟨_, (execEvtOutFunctionWrite_eq r hsub v s).trans (congrArg _ (State.serveWrite_of_done hadm hrow heff)),
    State.answered_answer .., ?_, ?_⟩
  · rw [State.answer_objsBut _ _ _ _ hsub16 rfl]
    exact Sparse.read_write (hadm.dict_eq ▸ hform)
  · refine hadm.served_answer _ ((State.put_within u _ _ _).mono (by decide)) (fun i j hj hk => ?_) rfl rfl
    exact State.obj_put_ne hj hsub16 fun ⟨hi, hj'⟩ => by simp [hi, hj'] at hk

end

/-! ## A WRITE of 256 -/

/-- The module in PREPARE at ring address 5, both EVT_OUT functions off. -/
def evtOutState : State := { State.reset with dev := { st := .prepare } }.put 0x1803 0 5

/-- A request to ring address 5 in no session. -/
def evtOutReq : Req :=
  { wellFormed := true, gen := 3, source := 9, target := 5, reqId := 1, trailer := none, t := 5 }

/-- The one byte of 256 is 0, a BOOL in range. -/
theorem evtOutState_writable_256 : evtOutState.Writable evtOutReq 0x8810 1 256 (evtOutState.at 5) :=
  ⟨⟨by decide, by decide, rfl, by decide, by decide⟩, by decide⟩

/-- Refutes O17: its second clause has the function read `v` for every `v` that passes the checks, with no bound on `v`. A WRITE
of 256 to 0x8810:01 carries the byte 0 and is answered with success, and the function then reads 0. For the values 0 and 1 that a
BOOL has, both clauses hold: `evtOutFunctionWrite_refused` and `evtOutFunctionWrite_accepted`. -/
theorem not_evtOutExclusion : ¬ Obligations.EvtOutExclusion := by
  rintro ⟨-, haccepted⟩
  obtain ⟨w, hw, -, hclaim, -⟩ :=
    haccepted evtOutState evtOutReq 1 256 _ evtOutState_writable_256 (by decide) (.inl rfl) (.inr (by decide))
  obtain ⟨w', hw', -, hreads, -⟩ :=
    evtOutFunctionWrite_accepted evtOutState_writable_256 (.inl rfl) (by decide) (.inl rfl)
  obtain rfl : w' = w := Host.Outcome.next.inj (hw'.symm.trans hw)
  exact absurd (hreads.symm.trans hclaim) (by decide)

end Sys2Proof.Machine

/-! The last fault cause (R424): an error record of fatal severity joins the FAULT log of a module in FAULT, one of lower severity
does not, and no error record writes 0x2005:00, so that the object names the record of the entry. -/

namespace Sys2Proof

/-- A write of another value than the default is read back, whatever form the table has. -/
theorem Sparse.read_write_of_ne_default {α : Type} [DecidableEq α] {d : Nat → α} {x : Nat} {v : α} (m : Sparse α)
    (hv : v ≠ d x) :
    Sparse.read d (Sparse.write d m x v) x = v := by
  induction m with
  | nil => simp [Sparse.write, Sparse.read, hv]
  | cons e m ih =>
    obtain ⟨k, w⟩ := e
    by_cases hlt : k < x
    · simp [Sparse.write, Sparse.read, hlt, Nat.ne_of_lt hlt, ih]
    · by_cases heq : k = x <;> simp [Sparse.write, Sparse.read, hlt, heq, hv]

end Sys2Proof

namespace Sys2Proof.Machine

open Sys2Proof.Bits

/-! ## A reading that a step keeps -/

/-- The reading `f` of the state is the same in both states. -/
def Preserves {α : Type} (f : State → α) (s u : State) : Prop := f u = f s

/-- The error records kept with the logbook (R422). -/
def State.faultRecords (s : State) : List JournalRec := s.rel.faultLog

/-- The last fault cause, 0x2005:00 (R424). -/
def State.lastCause (s : State) : Nat := s.obj 0x2005 0

section
variable {α β : Type} {f : State → α}

theorem Preserves.refl (s : State) : Preserves f s s := rfl

theorem Preserves.trans {s u v : State} (h : Preserves f s u) (k : Preserves f u v) : Preserves f s v := Eq.trans k h

theorem Preserves.ite {c : Prop} [Decidable c] {s u v : State} (h : Preserves f s u) (k : Preserves f s v) :
    Preserves f s (if c then u else v) := by
  split <;> assumption

theorem Preserves.foldl {g : State → β → State} (h : ∀ s a, Preserves f s (g s a)) (l : List β) (s : State) :
    Preserves f s (l.foldl g s) := by
  induction l generalizing s with
  | nil => exact Preserves.refl s
  | cons a l ih => exact (h s a).trans (ih _)

end

section
variable {ps : List Part} {s u : State}

theorem Within.dev_eq (h : Within ps s u) (hp : .dev ∉ ps := by decide) : u.dev = s.dev := h .dev hp

theorem Within.preservesFaultRecords (h : Within ps s u) (hp : .rel ∉ ps := by decide) : Preserves State.faultRecords s u :=
  congrArg Rel.faultLog (h .rel hp)

theorem Within.preservesLastCause (h : Within ps s u) (hp : .dict ∉ ps := by decide) : Preserves State.lastCause s u :=
  congrArg (fun d => Sparse.read objDefault d (objKey 0x2005 0)) (h .dict hp)

end

/-! ## Writes to 0x2005:00 and to other objects -/

theorem State.lastCause_put_self (s : State) {v : Nat} (hv : v ≠ 0) : (s.put 0x2005 0 v).lastCause = v :=
  Sparse.read_write_of_ne_default s.dict hv

theorem State.put_lastCause (s : State) (i j v : Nat) (h : objKey 0x2005 0 ≠ objKey i j := by unfold objKey; omega) :
    Preserves State.lastCause s (s.put i j v) :=
  Sparse.read_write_ne h

theorem State.bump_lastCause (s : State) (i j : Nat) (h : objKey 0x2005 0 ≠ objKey i j := by unfold objKey; omega) :
    Preserves State.lastCause s (s.bump i j) :=
  s.put_lastCause i j _ h

/-! ## Error records and the last fault cause -/

theorem State.logLines_lastCause (s : State) (ls : List Bytes) : Preserves State.lastCause s (s.logLines ls) := by
  induction ls generalizing s with
  | nil => exact Preserves.refl s
  | cons l ls ih =>
    unfold State.logLines
    have hmem := (s.memWrite_within (s.regionBase 3 + s.get 0x8809 0) (slice l 0 64)).preservesLastCause
    refine Preserves.trans (hmem.trans ?_) (ih _)
    exact Preserves.ite ((State.put_lastCause _ 0x8809 0 0).trans (State.bump_lastCause _ 0x880A 0))
      (State.put_lastCause _ 0x8809 0 _)

theorem State.logWrite_lastCause (s : State) (lost : Bool) (r : LogRec) : Preserves State.lastCause s (s.logWrite lost r) :=
  Preserves.ite (s.bump_lastCause 0x880C r.cls) ((s.put_lastCause 0x880B 0 _).trans (State.logLines_lastCause _ _))

theorem State.writeGap_lastCause (s : State) (k c u n m f l : Nat) : Preserves State.lastCause s (s.writeGap k c u n m f l) :=
  (s.bump_lastCause 0x880D 0).trans (State.logWrite_lastCause _ _ _)

theorem State.logPlace_lastCause (s : State) (r : LogRec) : Preserves State.lastCause s (s.logPlace r) :=
  ((Preserves.foldl (fun s (l : Lost) => s.writeGap_lastCause l.kind 0 l.uKind l.unit l.count l.first l.last) _ s).trans
    (State.set_obs_within _ _).preservesLastCause).trans (State.logWrite_lastCause _ _ _)

theorem State.logRecord_lastCause (s : State) (c k u n : Nat) (b : Bytes) :
    Preserves State.lastCause s (s.logRecord c k u n b) := by
  have hstretch := (s.takeStretch_within u n).preservesLastCause
  refine Preserves.ite (Preserves.refl s) (hstretch.trans (Preserves.ite (Preserves.ite ?_ ?_) (State.logPlace_lastCause _ _)))
  · exact (State.set_obs_within _ _).preservesLastCause.trans (State.bump_lastCause _ 0x880C c)
  · exact (State.set_obs_within _ _).preservesLastCause

theorem State.raiseC_lastCause (s : State) (code i j cls sev : Nat) : Preserves State.lastCause s (s.raiseC code i j cls sev) := by
  refine Preserves.trans ((State.set_odp_within _ _).preservesLastCause.trans (Preserves.ite ?_ (State.bump_lastCause _ 0x1816 0)))
    (State.logRecord_lastCause _ _ _ _ _ _)
  exact (State.emit_within _ _).preservesLastCause.trans (State.bump_lastCause _ 0x1815 0)

theorem State.journalRecord_lastCause (s : State) (cls : Nat) (r : JournalRec) :
    Preserves State.lastCause s (s.journalRecord cls r) := by
  refine Preserves.ite (Preserves.ite ?_ ?_) ?_
  · exact (s.set_rel_within _).preservesLastCause
  · exact (s.set_flash_within _).preservesLastCause
  · generalize minuteCount cls (s.now / 60000000000) s.rel.minute = y
    have hminute := (s.set_rel_within { s.rel with minute := y.2 }).preservesLastCause
    refine hminute.trans (Preserves.ite ?_ ?_)
    · exact (State.set_flash_within _ _).preservesLastCause
    · exact (State.set_rel_within _ _).preservesLastCause.trans (State.bump_lastCause _ 0x8031 cls)

theorem State.pushRecord_lastCause (s : State) (code seq : Nat) (r : JournalRec) :
    Preserves State.lastCause s (s.pushRecord code seq r) := by
  refine Preserves.ite (Preserves.refl s) (Preserves.ite ?_ ?_)
  · exact ((State.set_odp_within _ _).preservesLastCause.trans (State.emit_within _ _).preservesLastCause).trans
      (State.bump_lastCause _ 0x8032 1)
  · exact (State.set_odp_within _ _).preservesLastCause.trans (State.bump_lastCause _ 0x8032 2)

/-- A dump request leaves the last fault cause. -/
theorem State.requestDump_lastCause (s : State) (b n : Nat) (hang : Option Nat) :
    Preserves State.lastCause s (s.requestDump b n hang) := by
  refine Preserves.ite (Preserves.ite ?_ (s.set_obs_within _).preservesLastCause) (Preserves.refl s)
  exact ((s.bump_lastCause 0x880D 0).trans (State.logRecord_lastCause _ _ _ _ _ _)).trans (State.bump_lastCause _ 0x8844 0)

/-! ## What an error record does -/

/-- Byte 16 of a record is its class (R420). -/
theorem State.vendorSection_class (s : State) (e : ErrInfo) (number flags temp volt : Nat) :
    le (s.vendorSection e number flags temp volt) 16 1 = e.cls % 256 := by
  simp [State.vendorSection, le, slice, natLe, leNat]

/-- The detection of an error: its class counted, the stretch flag and the readings taken (R419, R420). -/
def State.detected (s : State) (e : ErrInfo) : State :=
  (((s.bump 0x8033 e.cls).takeStretch e.uKind e.unit).2.readings e).2.2

theorem State.detected_within (s : State) (e : ErrInfo) : Within [.dict, .pwr, .free] s (s.detected e) :=
  (((s.bump_within _ _).mono (by decide)).step (State.takeStretch_within _ e.uKind e.unit) (by decide)).step
    (State.readings_within _ e) (by decide)

theorem State.detected_lastCause (s : State) (e : ErrInfo) : Preserves State.lastCause s (s.detected e) :=
  ((s.bump_lastCause 0x8033 e.cls).trans (State.takeStretch_within _ e.uKind e.unit).preservesLastCause).trans
    (State.readings_within _ e).preservesLastCause

/-- An error record in three parts: what its detection takes, the record `r` itself, and what reports it (R419 to R423). -/
theorem State.errorRecord_eq (s : State) (e : ErrInfo) : ∃ x r seq,
    s.errorRecord e = ((x.journalRecord e.cls r).raiseC (0x00010000 + e.cls) 0 0 e.cls (severity e.cls)).pushRecord
      (0x00010000 + e.cls) seq r ∧
    x.dev = s.dev ∧ Preserves State.faultRecords s x ∧ Preserves State.lastCause s x ∧ le r 16 1 = e.cls % 256 := by
  have htaken := s.detected_within e
  exact ⟨_, _, _, rfl, htaken.dev_eq, htaken.preservesFaultRecords, s.detected_lastCause e,
    State.vendorSection_class _ e _ _ _ _⟩

theorem State.errorRecord_lastCause (s : State) (e : ErrInfo) : Preserves State.lastCause s (s.errorRecord e) := by
  obtain ⟨x, r, seq, heq, -, -, hcause, -⟩ := s.errorRecord_eq e
  rw [heq]
  exact ((hcause.trans (x.journalRecord_lastCause _ r)).trans (State.raiseC_lastCause _ _ _ _ _ _)).trans
    (State.pushRecord_lastCause _ _ _ r)

/-- What reports a record leaves the records kept with the logbook. -/
theorem State.report_faultRecords (s : State) (code cls sev seq : Nat) (r : JournalRec) :
    Preserves State.faultRecords s ((s.raiseC code 0 0 cls sev).pushRecord code seq r) :=
  (s.raiseC_within _ _ _ _ _).preservesFaultRecords.trans (State.pushRecord_within _ _ _ _).preservesFaultRecords

/-- An error of severity 0 or 1 leaves the records kept with the logbook (R422). -/
theorem State.errorRecord_faultRecords_of_mild (s : State) {e : ErrInfo} (hmild : severity e.cls < 2) :
    Preserves State.faultRecords s (s.errorRecord e) := by
  obtain ⟨x, r, seq, heq, -, hlog, -, -⟩ := s.errorRecord_eq e
  have hjournal : Preserves State.faultRecords x (x.journalRecord e.cls r) := by
    unfold State.journalRecord
    rw [if_neg (by omega)]
    exact Preserves.ite rfl rfl
  rw [heq]
  exact (hlog.trans hjournal).trans (State.report_faultRecords _ _ _ _ _ r)

/-- In FAULT, an error of severity 2 or 3 appends its record to those kept with the logbook (R422). -/
theorem State.errorRecord_faultRecords (s : State) {e : ErrInfo} (hst : s.dev.st = .fault) (hsev : 2 ≤ severity e.cls) :
    ∃ r, (s.errorRecord e).faultRecords = s.faultRecords ++ [r] ∧ le r 16 1 = e.cls % 256 := by
  obtain ⟨x, r, seq, heq, hdev, hlog, -, hcls⟩ := s.errorRecord_eq e
  have hjournal : (x.journalRecord e.cls r).faultRecords = x.faultRecords ++ [r] := by
    unfold State.journalRecord
    rw [if_pos hsev, if_pos (hdev ▸ hst)]
    rfl
  refine ⟨r, ?_, hcls⟩
  rw [heq, State.report_faultRecords, hjournal, hlog]

/-! ## Closing down on entry into FAULT -/

theorem State.checkSlots_faultRecords (s : State) (b : Nat) (es : List Nat) (i : Nat) :
    Preserves State.faultRecords s (s.checkSlots b es i) := by
  induction es generalizing s i with
  | nil => exact Preserves.refl s
  | cons e es ih =>
    unfold State.checkSlots
    refine Preserves.trans (Preserves.ite ?_ (Preserves.refl s)) (ih _ _)
    have hfreed : Within [.dict, .cat, .mem, .memc] s ((s.setEntry b i (freed e)).bump 0x4008 0) :=
      (s.setEntry_within _ _ _).step (State.bump_within _ _ _) (by decide)
    exact hfreed.preservesFaultRecords.trans (State.errorRecord_faultRecords_of_mild _ (show severity 0x0B < 2 by decide))

theorem State.checkBucket_faultRecords (s : State) (b : Nat) : Preserves State.faultRecords s (s.checkBucket b) :=
  (s.touchBucket_within b).preservesFaultRecords.trans (State.checkSlots_faultRecords _ _ _ _)

theorem State.writeback_faultRecords (s : State) (p : Pkt) (src cls act : Nat) :
    Preserves State.faultRecords s (s.writeback p src cls act) := by
  unfold State.writeback
  split
  · exact Preserves.refl s
  · refine Preserves.ite (s.catHold_within _).preservesFaultRecords ?_
    unfold State.writebackEffect
    extract_lets x
    have hread : Preserves State.faultRecords s x := Preserves.foldl State.checkBucket_faultRecords _ s
    split
    · exact hread.trans (State.setEntry_within _ _ _ _).preservesFaultRecords
    · exact hread

theorem State.releaseUndetermined_faultRecords (s : State) (p : Pkt) : Preserves State.faultRecords s (s.releaseUndetermined p) :=
  ((s.writeback_faultRecords p 3 0 7).trans (State.releaseHeld_within _ _ _).preservesFaultRecords).trans
    (Preserves.ite (State.verdictRecord_within _ _ _ _ _ _ _ _).preservesFaultRecords (Preserves.refl _))

theorem State.discardBuf_faultRecords (s : State) (d b : Nat) : Preserves State.faultRecords s (s.discardBuf d b) := by
  refine Preserves.trans (Preserves.foldl (fun s h => ?_) _ s) (State.freeBuf_within _ _ _).preservesFaultRecords
  split
  · exact s.releaseUndetermined_faultRecords _
  · exact Preserves.refl s

theorem State.abandonRun_faultRecords (s : State) (a o : Nat) (r : Run) : Preserves State.faultRecords s (s.abandonRun a o r) := by
  unfold State.abandonRun
  extract_lets s1 s2 s3 s4 s5
  have hleft : Preserves State.faultRecords s s1 := (s.leaveQueue_within _ _ _).preservesFaultRecords
  have hbanks : Preserves State.faultRecords s1 s2 := Preserves.foldl (fun s x => (s.modArr_within _ _).preservesFaultRecords) _ s1
  have hpassed : Preserves State.faultRecords s2 s3 :=
    ((s2.consume_within _ _).preservesFaultRecords.trans (State.bump_within _ _ _).preservesFaultRecords).trans
      (State.put_within _ _ _ _).preservesFaultRecords
  have hidle : Preserves State.faultRecords s4 s5 :=
    Preserves.ite (State.put_within _ _ _ _).preservesFaultRecords (Preserves.refl s4)
  have hrun : Preserves State.faultRecords s s5 :=
    ((hleft.trans hbanks).trans hpassed).trans ((s3.modArr_within _ _).preservesFaultRecords.trans hidle)
  split
  · exact Preserves.ite (hrun.trans (State.discardBuf_faultRecords _ _ _)) hrun
  · exact hrun

theorem State.abandonAll_faultRecords (s : State) : Preserves State.faultRecords s s.abandonAll :=
  Preserves.foldl (fun s _ => Preserves.foldl
    (fun s _ => Preserves.ite (s.abandonRun_faultRecords _ _ _) (Preserves.refl s)) _ s) _ s

/-- Entry into the state FAULT itself: the curtain closed, the ring left, no transition under way (R24, R378). -/
def State.enterFault (s : State) : State :=
  let u := s.closeAll.leaveRing.enter .fault
  { u with dev := { u.dev with trans := .none, stopAt := some u.now } }

/-- What entry into FAULT does before it writes its cause (R22, R24, R315). -/
def State.shutForFault (s : State) : State := (s.enterFault.abandonAll.flushPackets false).linksDown

theorem State.enterFault_faultRecords (s : State) : Preserves State.faultRecords s s.enterFault := by
  have hleft : Within [.dict, .pwr, .mgmt] s s.closeAll.leaveRing :=
    ((s.set_pwr_within _).mono (by decide)).trans ((((State.set_mgmt_within _ _).mono (by decide)).step
      (State.put_within _ 0x1801 1 0) (by decide)).step (State.put_within _ 0x1801 2 0) (by decide))
  exact (hleft.preservesFaultRecords.trans (State.enter_within _ .fault).preservesFaultRecords).trans
    (State.set_dev_within _ _).preservesFaultRecords

theorem State.flushed_within (s : State) :
    Within [.dict, .pkts, .intake, .egr, .line] s (s.flushPackets false).linksDown :=
  (s.flushPackets_within false).step (State.linksDown_within _) (by decide)

theorem State.shutForFault_st (s : State) : s.shutForFault.dev.st = .fault := by
  rw [State.shutForFault, (State.flushed_within _).dev_eq, (State.abandonAll_within _).dev_eq]
  rfl

theorem State.shutForFault_faultRecords (s : State) : Preserves State.faultRecords s s.shutForFault :=
  (s.enterFault_faultRecords.trans (State.abandonAll_faultRecords _)).trans (State.flushed_within _).preservesFaultRecords

/-- Entry into FAULT in three parts: what it shuts down, its cause with the record, and the dump (R22, R424, R453). -/
theorem State.toFault_eq {s : State} (e : ErrInfo) (hoff : s.dev.st ≠ .off) (hfault : s.dev.st ≠ .fault) :
    s.toFault e = ((s.shutForFault.put 0x2005 0 e.cls).errorRecord e).requestDump 2 s.shutForFault.flash.recNo none := by
  unfold State.toFault State.shutForFault State.enterFault
  simp only [if_neg hoff, if_neg hfault, State.put_flash]

/-! ## The record of the entry -/

/-- In FAULT, one record was added to those kept with the logbook, and 0x2005:00 holds its class (R424). -/
def State.CauseNamed (s u : State) : Prop :=
  u.dev.st = .fault ∧
  ∃ rec, u.rel.faultLog = s.rel.faultLog ++ [rec] ∧ u.obj 0x2005 0 = le rec 16 1 ∧ u.obj 0x2005 0 < 256

/-- The classes of severity 3 are 0x20 to 0x2F (R419). -/
theorem class_of_fatal {cls : Nat} (h : severity cls = 3) : 0x20 ≤ cls ∧ cls < 0x30 := by
  unfold severity at h
  split at h
  · omega
  · split at h
    · omega
    · split at h <;> omega

theorem State.CauseNamed.of_preserves {s x u : State} (h : x.CauseNamed u) (k : Preserves State.faultRecords s x) :
    s.CauseNamed u := by
  obtain ⟨hst, r, hrec, hcause⟩ := h
  exact ⟨hst, r, hrec.trans (congrArg (· ++ [r]) k), hcause⟩

/-- In FAULT, the write of the cause, its record and the dump name the cause. -/
theorem State.nameCause {x : State} {e : ErrInfo} (n : Nat) (hst : x.dev.st = .fault) (hfatal : severity e.cls = 3) :
    x.CauseNamed (((x.put 0x2005 0 e.cls).errorRecord e).requestDump 2 n none) := by
  obtain ⟨hlow, hhigh⟩ := class_of_fatal hfatal
  obtain ⟨r, hrec, hcls⟩ := (x.put 0x2005 0 e.cls).errorRecord_faultRecords hst (by omega : 2 ≤ severity e.cls)
  have hrecord := (x.put 0x2005 0 e.cls).errorRecord_within e
  have hdump := ((x.put 0x2005 0 e.cls).errorRecord e).requestDump_within 2 n none
  have hcause : (((x.put 0x2005 0 e.cls).errorRecord e).requestDump 2 n none).lastCause = e.cls := by
    rw [State.requestDump_lastCause, State.errorRecord_lastCause, x.lastCause_put_self (by omega)]
  refine ⟨?_, r, Eq.trans hdump.preservesFaultRecords hrec, hcause.trans (by omega),
    Nat.lt_of_le_of_lt (Nat.le_of_eq hcause) (by omega)⟩
  rw [hdump.dev_eq, hrecord.dev_eq]
  exact hst

/-- Entry into FAULT for a fatal cause names it. -/
theorem State.toFault_causeNamed {s : State} {e : ErrInfo} (hoff : s.dev.st ≠ .off) (hfault : s.dev.st ≠ .fault)
    (hfatal : severity e.cls = 3) : s.CauseNamed (s.toFault e) := by
  rw [State.toFault_eq e hoff hfault]
  exact (State.nameCause _ s.shutForFault_st hfatal).of_preserves s.shutForFault_faultRecords

/-- In FAULT a further cause adds its record and leaves 0x2005:00. -/
theorem State.toFault_of_fault {s : State} {e : ErrInfo} (hst : s.dev.st = .fault) (hfatal : severity e.cls = 3) :
    (s.toFault e).dev.st = .fault ∧ (s.toFault e).obj 0x2005 0 = s.obj 0x2005 0 ∧
    ∃ rec, (s.toFault e).rel.faultLog = s.rel.faultLog ++ [rec] := by
  have heq : s.toFault e = s.errorRecord e := by
    unfold State.toFault
    rw [if_neg (by simp [hst]), if_pos hst]
  obtain ⟨r, hrec, -⟩ := s.errorRecord_faultRecords hst (by omega : 2 ≤ severity e.cls)
  rw [heq]
  exact ⟨(congrArg Dev.st (s.errorRecord_within e).dev_eq).trans hst, s.errorRecord_lastCause e, r, hrec⟩

/-! ## The commands -/

/-- A command that enters FAULT for a fatal cause, with the device state and the reliability part as they were, names it. -/
theorem exec_causeNamed {c : Instr} {ps : List Part} {s x : State} {e : ErrInfo} (hexec : exec c s = .next (x.toFault e))
    (hx : Within ps s x) (hoff : s.dev.st ≠ .off) (hfault : s.dev.st ≠ .fault) (hfatal : severity e.cls = 3)
    (hdev : .dev ∉ ps := by decide) (hrel : .rel ∉ ps := by decide) :
    ∃ u, exec c s = .next u ∧ s.CauseNamed u := by
  have hst : x.dev = s.dev := hx.dev_eq hdev
  have hnamed := State.toFault_causeNamed (hst ▸ hoff) (hst ▸ hfault) hfatal
  exact ⟨_, hexec, hnamed.of_preserves (hx.preservesFaultRecords hrel)⟩

theorem severity_faultInfo (cause : FaultCause) : severity (faultInfo cause).cls = 3 := by cases cause <;> rfl

/-- What FAULT_ENTRY does before its record: of an uncorrectable DRAM error it counts one (R20). -/
theorem exec_faultEntry_eq {s : State} (cause : FaultCause) (t : Nat) (hoff : s.dev.st ≠ .off) : ∃ x,
    exec (.faultEntry cause t) s = .next (x.toFault (faultInfo cause)) ∧
    Within [.clock, .dict] s x ∧ Preserves State.lastCause s x := by
  have hat : Within [.clock, .dict] s (s.at t) := (s.at_within t).mono (by decide)
  have hclock : Preserves State.lastCause s (s.at t) := (s.at_within t).preservesLastCause
  have hoff' : (s.at t).dev.st ≠ .off := by simpa using hoff
  cases cause with
  | dramUncorrectable ch bank row =>
    exact ⟨(s.at t).bump 0x6018 0, if_neg hoff', hat.step (State.bump_within _ _ _) (by decide),
      hclock.trans (State.bump_lastCause _ 0x6018 0)⟩
  | stageSramUncorrectable a => exact ⟨s.at t, if_neg hoff', hat, hclock⟩
  | firmwareWatchdog core => exact ⟨s.at t, if_neg hoff', hat, hclock⟩

theorem faultEntry_causeNamed {s : State} (cause : FaultCause) (t : Nat) (hoff : s.dev.st ≠ .off) (hfault : s.dev.st ≠ .fault) :
    ∃ u, exec (.faultEntry cause t) s = .next u ∧ s.CauseNamed u := by
  obtain ⟨x, hexec, hx, -⟩ := exec_faultEntry_eq cause t hoff
  exact exec_causeNamed hexec hx hoff hfault (severity_faultInfo cause)

theorem faultEntry_of_fault {s : State} (cause : FaultCause) (t : Nat) (hst : s.dev.st = .fault) :
    ∃ u, exec (.faultEntry cause t) s = .next u ∧ u.dev.st = .fault ∧ u.obj 0x2005 0 = s.obj 0x2005 0 ∧
      ∃ rec, u.rel.faultLog = s.rel.faultLog ++ [rec] := by
  have hoff : s.dev.st ≠ .off := by rw [hst]; nofun
  obtain ⟨x, hexec, hx, hcause⟩ := exec_faultEntry_eq cause t hoff
  obtain ⟨hentered, hkept, r, hrec⟩ := State.toFault_of_fault (hx.dev_eq ▸ hst) (severity_faultInfo cause)
  exact ⟨_, hexec, hentered, hkept.trans hcause, r, hrec.trans (congrArg (· ++ [r]) hx.preservesFaultRecords)⟩

theorem inputOvervoltage_causeNamed {s : State} {mv : Nat} (t : Nat) (hmv : 62000 < mv) (hoff : s.dev.st ≠ .off)
    (hfault : s.dev.st ≠ .fault) : ∃ u, exec (.inputOvervoltage mv t) s = .next u ∧ s.CauseNamed u := by
  have hx : Within [.clock, .pwr] s { s.at t with pwr := { (s.at t).pwr with vin := mv, outOfBand := true } } :=
    ((s.at_within t).mono (by decide)).step (State.set_pwr_within _ _) (by decide)
  exact exec_causeNamed (if_pos ⟨hmv, by simpa using hoff⟩) hx hoff hfault (rfl : severity (supplyLimit 0 mv).cls = 3)

theorem State.at_railCounts (s : State) (t : Nat) (r : Rail) : (s.at t).railCounts r = s.railCounts r := by
  unfold State.at
  split <;> rfl

theorem railOutOfTolerance_causeNamed {s : State} {rail : Rail} {mv : Int} (t : Nat) (hout : railOut rail mv = true)
    (hcounts : s.railCounts rail = true) (hoff : s.dev.st ≠ .off) (hfault : s.dev.st ≠ .fault) :
    ∃ u, exec (.railOutOfTolerance rail mv t) s = .next u ∧ s.CauseNamed u := by
  have hx : Within [.clock, .pwr] s (if rail = .vcg then (s.at t).loseVcg else s.at t) :=
    Within.ite (((s.at_within t).mono (by decide)).step (State.set_pwr_within _ _) (by decide)) ((s.at_within t).mono (by decide))
  have hcond : (railOut rail mv && (s.at t).railCounts rail && decide ((s.at t).dev.st ≠ .off)) = true := by
    simp [hout, State.at_railCounts, hcounts, hoff]
  exact exec_causeNamed (if_pos hcond) hx hoff hfault (rfl : severity (supplyLimit (railCode rail) mv).cls = 3)

theorem thermalLimit_causeNamed {s : State} {sensor : Fin 29} {temp : Int} (t : Nat) (htemp : 1680 ≤ temp)
    (hsensor : sensor.val < 28)
    (hoff : s.dev.st ≠ .off) (hfault : s.dev.st ≠ .fault) :
    ∃ u, exec (.thermalLimit sensor temp t) s = .next u ∧ s.CauseNamed u :=
  exec_causeNamed (if_pos ⟨by omega, hsensor, by simpa using hoff⟩) (s.at_within t) hoff hfault (rfl : severity 0x23 = 3)

/-- The stacks are served only outside OFF and FAULT. -/
theorem State.running_of_stacksServed {s : State} (h : s.stacksServed = true) : s.dev.st ≠ .off ∧ s.dev.st ≠ .fault := by
  constructor <;> (intro hst; simp [State.stacksServed, hst] at h)

theorem patrolRead_causeNamed {s : State} (bank row t : Nat) (hserved : s.stacksServed = true) :
    ∃ u, exec (.patrolRead (.uncorrectable bank row) t) s = .next u ∧ s.CauseNamed u := by
  obtain ⟨hoff, hfault⟩ := State.running_of_stacksServed hserved
  have hserved' : ¬ (s.at t).stacksServed = false := by simpa [State.stacksServed] using hserved
  refine exec_causeNamed (ps := [.clock, .memc, .dict]) (if_neg hserved') ?_ hoff hfault
    (severity_faultInfo (.dramUncorrectable _ bank row))
  have hat : Within [.clock, .memc, .dict] s (s.at t) := (s.at_within t).mono (by decide)
  exact ((hat.step (State.countRead_within _ _ 64) (by decide)).step (State.set_memc_within _ _) (by decide)).step
    (State.bump_within _ 0x6018 0) (by decide)

/-- Settles O52: an entry into FAULT writes the class of its fatal cause to 0x2005:00 and then its record, in FAULT only the record
is written, and a record with that class is what joins the FAULT log. -/
theorem faultCauses : Obligations.FaultCauses := by
  unfold Obligations.FaultCauses
  refine ⟨fun s cause t => faultEntry_causeNamed cause t, fun s mv t => inputOvervoltage_causeNamed t,
    fun s rail mv t => railOutOfTolerance_causeNamed t, fun s sensor temp t => thermalLimit_causeNamed t, ?_,
    fun s cause t => faultEntry_of_fault cause t⟩
  rintro s rep t ⟨bank, row, rfl⟩ hserved
  exact patrolRead_causeNamed bank row t hserved

end Sys2Proof.Machine

/-! A WRITE of an object of the compute chapters, by its object: what every branch gives, the whole gives. -/

namespace Sys2Proof.Machine

-- The theorems are checked one after another: each cites many before it, and would wait for them in a thread of its own.
set_option Elab.async false

theorem State.effectCompute_induct {P : Except Nat State → Prop} {s : State} {idx sub v : Nat} (hrehash : P (s.setRehash v))
    (hprobe : P (s.setProbeDelete v)) (hclear : P (s.setClear v)) (hmask : P (.ok (s.put idx sub (s.get idx sub &&& v))))
    (hring : P (s.ringWrite idx sub v)) (htrig : P (s.trigWrite idx sub v)) (hlight : P (.ok ((s.put idx sub v).serveTaps (sub - 1))))
    (hadd : P (.ok (s.addLight (sub - 1) v 3 0xFFFF 0))) (habsent : P (.error 0x02000006)) (hprobed : P (.ok (s.clearProbed v)))
    (hput : P (.ok (s.put idx sub v))) : P (s.effectCompute idx sub v) := by
  unfold State.effectCompute
  split
  · exact hrehash
  · split
    · exact hprobe
    · split
      · exact hclear
      · split
        · exact hmask
        · split
          · exact hring
          · split
            · exact htrig
            · split
              · exact hlight
              · split
                · exact hadd
                · split
                  · exact habsent
                  · split
                    · exact hprobed
                    · exact hput

end Sys2Proof.Machine


namespace Sys2Proof.Machine

set_option Elab.async false

/-! The queue and the reset state: what a step does with the front command, what it does without one, and what reset leaves. -/

/-- Settles O53: `step` takes the front command off the queue and executes it. -/
theorem stepRunsFront : Obligations.StepRunsFront := fun _ _ _ => rfl

/-- House time moves to an instant ahead where the clock runs. -/
theorem State.at_clock_of_le {s : State} {t : Nat} (hle : s.clock.house ≤ t) (hlt : t < 2 ^ 64) :
    (s.at t).clock =
      if s.clockRuns then { s.clock with house := t, elapsed := s.clock.elapsed + (t - s.clock.house) } else s.clock := by
  unfold State.at
  rw [Nat.mod_eq_of_lt hlt, Nat.max_eq_right hle]
  split <;> rfl

/-- Settles O54: on an empty queue the module idles, which moves only the clock. -/
theorem emptyQueueIdles : Obligations.EmptyQueueIdles := by
  intro s hempty hlt
  have hstep : step s = .next s.idle := by rw [step, hempty]
  refine ⟨s.idle, hstep, s.at_within _, ?_⟩
  have hone : s.clock.house + 1 - s.clock.house = 1 := Nat.add_sub_cancel_left ..
  rw [State.idle, State.at_clock_of_le (Nat.le_add_right _ 1) hlt, hone]

/-- After reset every array's record is the empty one. -/
theorem State.reset_arrAt (a : Nat) : State.reset.arrAt a = {} := by
  by_cases ha : a < 16
  · have hget : (List.replicate 16 ({} : Arr))[a]? = some {} := List.getElem?_replicate_of_lt ha
    exact (List.getD_eq_getElem?_getD ..).trans (by rw [State.reset, Vector.toList_replicate, hget]; rfl)
  · have hget : State.reset.arr.toList[a]? = none := List.getElem?_eq_none (Nat.le_trans (Nat.le_of_eq State.reset.arr.length_toList) (Nat.le_of_not_lt ha))
    exact (List.getD_eq_getElem?_getD ..).trans (by rw [hget]; rfl)

/-- Settles O55: every value is written out in `State.reset`; an unlisted object reads its default. -/
theorem resetLeaves : Obligations.ResetLeaves := by
  have hidle : ∀ a, (State.reset.arrAt a).run = none := fun a => by rw [State.reset_arrAt]
  exact ⟨rfl, rfl, rfl, rfl, fun _ _ => rfl, rfl, rfl, rfl, rfl, by decide, by decide, rfl, rfl, rfl, hidle, rfl⟩

/-- Settles O56: the tables of the reset state are empty, and both gate switches are off. -/
theorem resetMeetsInvariants : Obligations.ResetMeetsInvariants := ⟨rfl, rfl, rfl⟩

end Sys2Proof.Machine

/-! What every operation of the model keeps (R378, R459, R496; 09_memory.md, Organisation of the stacks): one relation between the
state before and after, kept by each single update and closed under composition, so that a lemma for an operation is the chain of
lemmas for what it calls. -/

namespace Sys2Proof

set_option Elab.async false

/-- A table whose values are changed, and which then lists no default, keeps its form. -/
theorem Sparse.mapFilter_wfFrom {α : Type} [DecidableEq α] {v : α} {f : α → α} {lo : Option Nat} {m : Sparse α}
    (h : Sparse.wfFrom (fun _ => v) lo m = true) :
    Sparse.wfFrom (fun _ => v) lo ((m.map fun e => (e.1, f e.2)).filter fun e => decide (e.2 ≠ v)) = true := by
  induction m generalizing lo with
  | nil => cases lo <;> rfl
  | cons e m ih =>
    obtain ⟨k, w⟩ := e
    cases lo with
    | none =>
      simp only [Sparse.wfFrom, Bool.and_eq_true] at h
      obtain ⟨-, hm⟩ := h
      by_cases hw : f w = v
      · have hk : Sparse.wfFrom (fun _ => v) none _ = true := Sparse.wf_of_from (ih hm)
        simpa [hw] using hk
      · simpa [hw, Sparse.wfFrom] using ih hm
    | some lo =>
      simp only [Sparse.wfFrom, Bool.and_eq_true, decide_eq_true_eq] at h
      obtain ⟨⟨hlo, -⟩, hm⟩ := h
      by_cases hw : f w = v
      · simpa [hw] using Sparse.wfFrom_mono (ih hm) (Nat.le_of_lt hlo)
      · simpa [hw, Sparse.wfFrom, hlo] using ih hm

theorem Sparse.mapFilter_wf {α : Type} [DecidableEq α] {v : α} {f : α → α} {m : Sparse α}
    (h : Sparse.wf (fun _ => v) m = true) :
    Sparse.wf (fun _ => v) ((m.map fun e => (e.1, f e.2)).filter fun e => decide (e.2 ≠ v)) = true := Sparse.mapFilter_wfFrom h

end Sys2Proof

namespace Sys2Proof.Machine

set_option Elab.async false

/-! ## The relation -/

/-- Where the device state may drift while the module handles an error: nowhere, into FAULT, or for a suspect from RUN to DRAIN. -/
def Drift (a b : DevState) : Prop := b = a ∨ b = .fault ∨ (a = .run ∧ b = .drain)

theorem Drift.trans {a b c : DevState} (h : Drift a b) (k : Drift b c) : Drift a c := by
  unfold Drift at *
  grind

/-- What every command keeps: what manufacture fixed and the fuses, the one form of the tables, and the safety of the curtain. -/
structure Sound (s u : State) : Prop where
  keeps   : s.Keeps u
  form    : s.canonical = true → u.canonical = true
  curtain : s.curtainSafe = true → u.curtainSafe = true

/-- A sound change in which the device state only drifts: what every operation does but the transitions of R378. -/
structure Calm (s u : State) : Prop extends Sound s u where
  drift : Drift s.dev.st u.dev.st

theorem Trust.Blown.refl (t : Trust) : t.Blown t := ⟨Nat.and_self _, fun _ => rfl, id, fun _ => Nat.le_refl _⟩

theorem Trust.Blown.trans {t u v : Trust} (h : t.Blown u) (k : u.Blown v) : t.Blown v where
  enforcement := by
    rw [← h.enforcement, Nat.and_assoc, k.enforcement]
  ownerHash ht := by
    have hu := h.ownerHash ht
    rw [k.ownerHash (hu ▸ ht), hu]
  revoked ht := k.revoked (h.revoked ht)
  counters c := Nat.le_trans (h.counters c) (k.counters c)

theorem Sound.refl (s : State) : Sound s s := ⟨⟨rfl, rfl, .refl _⟩, id, id⟩

theorem Sound.trans {s u v : State} (h : Sound s u) (k : Sound u v) : Sound s v :=
  ⟨⟨k.keeps.mfg.trans h.keeps.mfg, k.keeps.pending.trans h.keeps.pending, h.keeps.fuses.trans k.keeps.fuses⟩,
    k.form ∘ h.form, k.curtain ∘ h.curtain⟩

theorem Calm.refl (s : State) : Calm s s := ⟨.refl s, .inl rfl⟩

theorem Calm.trans {s u v : State} (h : Calm s u) (k : Calm u v) : Calm s v := ⟨h.toSound.trans k.toSound, h.drift.trans k.drift⟩

/-! ## Results -/

/-- `p` holds of the next state, when there is one. -/
def OnNext (p : State → Prop) : Result → Prop
  | .next u => p u
  | _ => True

/-- `p` holds of the state that an accepted request leaves. -/
def OnOk {ε : Type} (p : State → Prop) : Except ε State → Prop
  | .ok u => p u
  | .error _ => True

theorem OnOk.ite {ε : Type} {p : State → Prop} {c : Prop} [Decidable c] {a b : Except ε State} (h : OnOk p a) (k : OnOk p b) :
    OnOk p (if c then a else b) := by
  by_cases hc : c
  · rwa [if_pos hc]
  · rwa [if_neg hc]

/-- `p` holds of the state, when there is one. -/
def OnSome (p : State → Prop) : Option State → Prop
  | some u => p u
  | none => True

theorem OnNext.of_eq {p : State → Prop} {r : Result} {u : State} (h : OnNext p r) (hr : r = .next u) : p u := by
  subst hr
  exact h

theorem OnOk.of_eq {ε : Type} {p : State → Prop} {r : Except ε State} {u : State} (h : OnOk p r) (hr : r = .ok u) : p u := by
  subst hr
  exact h

theorem OnSome.of_eq {p : State → Prop} {r : Option State} {u : State} (h : OnSome p r) (hr : r = some u) : p u := by
  subst hr
  exact h

/-! ## Composition -/

section
variable {s u v w : State}

theorem Calm.ite {c : Prop} [Decidable c] (h : Calm s u) (k : Calm s v) : Calm s (if c then u else v) := by
  split <;> assumption

theorem Calm.foldl {α : Type} {f : State → α → State} {l : List α} (h : Calm s u) (k : ∀ v a, Calm s v → Calm s (f v a)) :
    Calm s (l.foldl f u) := by
  induction l generalizing u with
  | nil => exact h
  | cons a l ih => exact ih (k u a h)

theorem Calm.of_snd {α : Type} {p : α × State} {a : α} (h : Calm s p.2) (hp : p = (a, v)) : Calm s v := by
  subst hp
  exact h

theorem Calm.of_snd_snd {α β : Type} {p : α × β × State} {a : α} {b : β} (h : Calm s p.2.2) (hp : p = (a, b, v)) : Calm s v := by
  subst hp
  exact h

theorem Calm.of_fst {α : Type} {p : State × α} {a : α} (h : Calm s p.1) (hp : p = (v, a)) : Calm s v := by
  subst hp
  exact h

/-! ## Single updates -/

theorem State.canonical_iff : s.canonical = true ↔
    (Memory.wf s = true ∧ Sparse.wf objDefault s.dict = true ∧ Sparse.wf stagedDefault s.staged = true ∧
      Sparse.wf (fun _ => 0) s.trust.counters = true ∧ Sparse.wf (fun _ => ({} : Trig)) s.sync.trigs = true ∧
      Sparse.wf (fun _ => ({} : Tap)) s.sync.taps = true ∧ Sparse.wf (fun _ => ([] : List QItem)) s.egr.q = true) := by
  simp only [State.canonical, Bool.and_eq_true, and_assoc]

/-- The parts that the relation says nothing of. -/
abbrev calmParts : List Part :=
  [.clock, .mgmt, .odp, .flash, .saving, .line, .intake, .pkts, .nextPid, .cat, .tree, .arr, .lib, .fab, .rel, .obs, .free, .out]

theorem Calm.within {ps : List Part} (h : Calm s u) (k : Within ps u v) (hps : ps ⊆ calmParts := by decide) : Calm s v := by
  have hk := k.mono hps
  refine h.trans ⟨⟨⟨hk .mfg (by decide), hk .pending (by decide), ?_⟩, ?_, ?_⟩, .inl ?_⟩
  · rw [show v.trust = u.trust from hk .trust (by decide)]
    exact .refl _
  · have hmem : v.mem = u.mem := hk .mem (by decide)
    have hmemc : v.memc = u.memc := hk .memc (by decide)
    have hdict : v.dict = u.dict := hk .dict (by decide)
    have hstaged : v.staged = u.staged := hk .staged (by decide)
    have htrust : v.trust = u.trust := hk .trust (by decide)
    have hsync : v.sync = u.sync := hk .sync (by decide)
    have hegr : v.egr = u.egr := hk .egr (by decide)
    have hdef : v.memDef = u.memDef := funext fun x => by rw [State.memDef, State.memDef, hmemc]
    have hwf : Memory.wf v = Memory.wf u := by rw [Memory.wf, Memory.wf, hdef, hmem]
    rw [State.canonical_iff, State.canonical_iff, hwf, hdict, hstaged, htrust, hsync, hegr]
    exact id
  · have hpwr : v.pwr = u.pwr := hk .pwr (by decide)
    have hdev : v.dev = u.dev := hk .dev (by decide)
    rw [State.curtainSafe, State.curtainSafe, hpwr, hdev]
    exact id
  · exact congrArg Dev.st (hk .dev (by decide))

/-- A change that leaves what is fixed, the gates and the device state, keeps the relation when it keeps the form. -/
theorem Calm.of_form (h : Calm s u) (hmfg : v.mfg = u.mfg := by rfl) (hpending : v.pending = u.pending := by rfl)
    (htrust : v.trust = u.trust := by rfl) (hpwr : v.pwr = u.pwr := by rfl) (hdev : v.dev = u.dev := by rfl)
    (hform : u.canonical = true → v.canonical = true) : Calm s v := by
  refine h.trans ⟨⟨⟨hmfg, hpending, htrust ▸ .refl _⟩, hform, ?_⟩, .inl (congrArg Dev.st hdev)⟩
  rw [State.curtainSafe, State.curtainSafe, hpwr, hdev]
  exact id

/-- The parts that the relation speaks of. -/
def State.core (s : State) :=
  (s.mfg, s.dict, s.staged, s.pwr, s.dev, s.mem, s.egr, s.sync, s.memc, s.trust, s.pending)

/-- A change of other parts. -/
theorem Calm.plain (h : Calm s u) (hcore : v.core = u.core := by rfl) : Calm s v := by
  simp only [State.core, Prod.mk.injEq] at hcore
  obtain ⟨hmfg, hdict, hstaged, hpwr, hdev, hmem, hegr, hsync, hmemc, htrust, hpending⟩ := hcore
  refine h.within (ps := calmParts) fun p hp => ?_
  cases p <;> first | assumption | exact absurd (by decide) hp

theorem Calm.set_dict (h : Calm s u) {x} (hx : Sparse.wf objDefault u.dict = true → Sparse.wf objDefault x = true) :
    Calm s { u with dict := x } := by
  refine h.of_form (hform := ?_)
  rw [State.canonical_iff, State.canonical_iff]
  exact fun ⟨hm, hd, ho⟩ => ⟨hm, hx hd, ho⟩

theorem Calm.set_staged (h : Calm s u) {x} (hx : Sparse.wf stagedDefault u.staged = true → Sparse.wf stagedDefault x = true) :
    Calm s { u with staged := x } := by
  refine h.of_form (hform := ?_)
  rw [State.canonical_iff, State.canonical_iff]
  exact fun ⟨hm, hd, hst, ho⟩ => ⟨hm, hd, hx hst, ho⟩

theorem Calm.set_egr (h : Calm s u) {x : Egr} (hx : Sparse.wf (fun _ => ([] : List QItem)) u.egr.q = true →
    Sparse.wf (fun _ => ([] : List QItem)) x.q = true := by exact id) : Calm s { u with egr := x } := by
  refine h.of_form (hform := ?_)
  rw [State.canonical_iff, State.canonical_iff]
  exact fun ⟨hm, hd, hst, hc, htr, hta, hq⟩ => ⟨hm, hd, hst, hc, htr, hta, hx hq⟩

theorem Calm.set_sync (h : Calm s u) {x : Sync}
    (htrigs : Sparse.wf (fun _ => ({} : Trig)) u.sync.trigs = true → Sparse.wf (fun _ => ({} : Trig)) x.trigs = true := by exact id)
    (htaps : Sparse.wf (fun _ => ({} : Tap)) u.sync.taps = true → Sparse.wf (fun _ => ({} : Tap)) x.taps = true := by exact id) :
    Calm s { u with sync := x } := by
  refine h.of_form (hform := ?_)
  rw [State.canonical_iff, State.canonical_iff]
  exact fun ⟨hm, hd, hst, hc, htr, hta, hq⟩ => ⟨hm, hd, hst, hc, htrigs htr, htaps hta, hq⟩

/-- The stacks, and what an unlisted byte of them reads as, change together. -/
theorem Calm.set_stacks (h : Calm s u) {x} {y : Memc}
    (hx : Memory.wf u = true → Memory.wf { u with mem := x, memc := y } = true) : Calm s { u with mem := x, memc := y } := by
  refine h.of_form (hform := ?_)
  rw [State.canonical_iff, State.canonical_iff]
  exact fun ⟨hm, ho⟩ => ⟨hx hm, ho⟩

theorem Calm.set_memc (h : Calm s u) {x : Memc} (hvoid : x.void = u.memc.void := by rfl) : Calm s { u with memc := x } := by
  refine h.set_stacks (x := u.mem) fun hm => ?_
  have hdef : State.memDef { u with memc := x } = u.memDef := by
    funext y
    simp only [State.memDef, hvoid]
  simpa only [Memory.wf, hdef] using hm

/-- A change of power that moves neither gate nor VCG. -/
theorem Calm.set_pwr (h : Calm s u) {x : Pwr} (hinline : x.gateInline = u.pwr.gateInline := by rfl)
    (hring : x.gateRing = u.pwr.gateRing := by rfl) (hvcg : x.vcgUp = u.pwr.vcgUp := by rfl) : Calm s { u with pwr := x } := by
  refine h.trans ⟨⟨⟨rfl, rfl, .refl _⟩, id, fun hu => ?_⟩, .inl rfl⟩
  simpa only [State.curtainSafe, hinline, hring, hvcg] using hu

/-- A change of the device's record that leaves its state. -/
theorem Calm.set_dev (h : Calm s u) {x : Dev} (hst : x.st = u.dev.st := by rfl) : Calm s { u with dev := x } := by
  refine h.trans ⟨⟨⟨rfl, rfl, .refl _⟩, id, fun hu => ?_⟩, .inl hst⟩
  simpa only [State.curtainSafe, hst] using hu

theorem Calm.set_trust (h : Calm s u) {x : Trust}
    (hblown : u.trust.Blown x := by exact ⟨Nat.and_self _, fun _ => rfl, id, fun _ => Nat.le_refl _⟩)
    (hform : Sparse.wf (fun _ => 0) u.trust.counters = true → Sparse.wf (fun _ => 0) x.counters = true := by exact id) :
    Calm s { u with trust := x } := by
  refine h.trans ⟨⟨⟨rfl, rfl, hblown⟩, ?_, id⟩, .inl rfl⟩
  rw [State.canonical_iff, State.canonical_iff]
  exact fun ⟨hm, hd, hst, hc, ho⟩ => ⟨hm, hd, hst, hform hc, ho⟩

end

end Sys2Proof.Machine

namespace Sys2Proof.Machine

set_option Elab.async false
open Sys2Proof.Bits

/-! Every operation of the model is calm: one lemma for each, in the order of the model. A lemma follows its operation: a name for each
state on the way, the lemma of the operation that made it, and the branches as they stand. -/

section
variable {s u : State}

/-! ## Machine/Ops -/

theorem Calm.put (h : Calm s u) {i j v} : Calm s (u.put i j v) := h.set_dict Sparse.write_wf

theorem Calm.stage (h : Calm s u) {i j v} : Calm s (u.stage i j v) := h.set_staged Sparse.write_wf

theorem Calm.bumpBy (h : Calm s u) {idx sub n} : Calm s (u.bumpBy idx sub n) := h.put

theorem Calm.bump (h : Calm s u) {idx sub} : Calm s (u.bump idx sub) := h.bumpBy

theorem Calm.at (h : Calm s u) {t} : Calm s (u.at t) := by
  unfold State.at
  split
  · extract_lets
    exact h.plain
  · exact h

theorem Calm.fresh (h : Calm s u) : Calm s u.fresh.2 := h.plain

theorem Calm.draw (h : Calm s u) : Calm s u.draw.2 := h.plain

theorem Calm.countRead (h : Calm s u) {x n} : Calm s (u.countRead x n) := h.set_memc

theorem Calm.memWrite (h : Calm s u) {x bs} : Calm s (u.memWrite x bs) := h.set_stacks State.memWrite_wf

theorem Calm.memFill (h : Calm s u) {base size seed} : Calm s (u.memFill base size seed) := h.set_stacks State.memFill_wf

theorem Calm.emit (h : Calm s u) {e} : Calm s (u.emit e) := h.plain

theorem Calm.takeStretch (h : Calm s u) {uKind unit} : Calm s (u.takeStretch uKind unit).2 := by
  unfold State.takeStretch
  split
  · exact h
  · extract_lets
    exact h.set_pwr

theorem Calm.logLines (h : Calm s u) {ls} : Calm s (u.logLines ls) := by
  induction ls generalizing u with
  | nil => exact h
  | cons l ls ih =>
    unfold State.logLines
    exact ih (.ite h.memWrite.put.bump h.memWrite.put)

theorem Calm.logWrite (h : Calm s u) {lostBefore r} : Calm s (u.logWrite lostBefore r) := by
  unfold State.logWrite
  extract_lets
  exact h.bump.ite h.put.logLines

theorem Calm.writeGap (h : Calm s u) {kind cause uKind unit n first last} : Calm s (u.writeGap kind cause uKind unit n first last) :=
  h.bump.logWrite

theorem Calm.logPlace (h : Calm s u) {r} : Calm s (u.logPlace r) := by
  unfold State.logPlace
  extract_lets _ _ v1
  have hv1 : Calm s v1 := h.foldl fun _ _ h6 => h6.writeGap
  exact hv1.plain.logWrite

theorem Calm.logRecordAt (h : Calm s u) {time cls kind uKind unit body} :
    Calm s (u.logRecordAt time cls kind uKind unit body) := by
  unfold State.logRecordAt
  split
  · exact h
  · split
    · rename_i y1 y2 v1 y4
      have hv1 : Calm s v1 := h.takeStretch.of_snd y4
      extract_lets
      exact (hv1.plain.bump.ite hv1.plain).ite hv1.logPlace

theorem Calm.logRecord (h : Calm s u) {cls kind uKind unit body} : Calm s (u.logRecord cls kind uKind unit body) := h.logRecordAt

theorem Calm.gapRecord (h : Calm s u) {kind cause uKind unit n first last} : Calm s (u.gapRecord kind cause uKind unit n first last) :=
  h.bump.logRecord

theorem Calm.tracePulse (h : Calm s u) : Calm s u.tracePulse := by
  unfold State.tracePulse
  split
  · extract_lets v1
    have hv1 : Calm s v1 := h.ite h.emit
    exact hv1.set_pwr
  · exact h

theorem Calm.fwMarker (h : Calm s u) {id detail} : Calm s (u.fwMarker id detail) := by
  unfold State.fwMarker
  split
  · split
    · rename_i y1 y2 v1 y4
      have hv1 : Calm s v1 := h.fresh.of_snd y4
      extract_lets v2
      have hv2 : Calm s v2 := hv1.logRecord
      exact hv2.tracePulse.ite hv2
  · exact h

theorem Calm.commitMark (h : Calm s u) {group} : Calm s (u.commitMark group) := by
  unfold State.commitMark
  split
  · rename_i y1 y2 v1 y4
    have hv1 : Calm s v1 := h.fresh.of_snd y4
    exact hv1.fwMarker

theorem Calm.raiseC (h : Calm s u) {code idx sub cls sev} : Calm s (u.raiseC code idx sub cls sev) := by
  unfold State.raiseC
  extract_lets _ _ _ _ _ v1 v2
  have hv1 : Calm s v1 := h.plain
  have hv2 : Calm s v2 := hv1.emit.bump.ite hv1.bump
  exact hv2.logRecord

theorem Calm.raise (h : Calm s u) {code idx sub} : Calm s (u.raise code idx sub) := h.raiseC

/-- What entering a state does after the state itself has changed. -/
theorem State.enter_calm (u : State) (d : DevState) :
    Calm { u with dev := { u.dev with st := d, since := u.now } } (u.enter d) := by
  unfold State.enter
  extract_lets old x v
  have hv : Calm v v := .refl v
  split
  · exact hv
  · split
    rename_i y heq
    clear_value old
    refine Calm.fwMarker (Calm.of_snd (p := _) ?_ heq)
    split
    · exact hv
    · exact hv.fresh

/-- Entering a state is calm where the state drifts there and the curtain may stand as it does. -/
theorem Calm.enter (h : Calm s u) {d}
    (hcurtain : u.curtainSafe = true → State.curtainSafe { u with dev := { u.dev with st := d, since := u.now } } = true)
    (hdrift : Drift u.dev.st d) : Calm s (u.enter d) :=
  have hmoved : Calm u { u with dev := { u.dev with st := d, since := u.now } } :=
    ⟨⟨⟨rfl, rfl, .refl _⟩, id, hcurtain⟩, hdrift⟩
  h.trans (hmoved.trans (u.enter_calm d))

/-- Entering a state is sound where the curtain may stand as it does. -/
theorem Sound.enter (h : Sound s u) {d}
    (hcurtain : u.curtainSafe = true → State.curtainSafe { u with dev := { u.dev with st := d, since := u.now } } = true) :
    Sound s (u.enter d) :=
  have hmoved : Sound u { u with dev := { u.dev with st := d, since := u.now } } := ⟨⟨rfl, rfl, .refl _⟩, id, hcurtain⟩
  h.trans (hmoved.trans (u.enter_calm d).toSound)

theorem Calm.measure (h : Calm s u) {idx sub} : Calm s (u.measure idx sub).2 := by
  unfold State.measure
  split
  · exact h
  · exact h.fresh

theorem Calm.readings (h : Calm s u) {e} : Calm s (u.readings e).2.2 := by
  unfold State.readings
  split
  · rename_i y1 y2 v1 y4
    have hv1 : Calm s v1 := h.measure.of_snd y4
    split
    · rename_i y5 y6 v2 y8
      have hv2 : Calm s v2 := hv1.measure.of_snd y8
      exact hv2

theorem Calm.journalRecord (h : Calm s u) {cls r} : Calm s (u.journalRecord cls r) := by
  unfold State.journalRecord
  split
  · exact h.plain.ite h.plain
  · split
    · extract_lets _ v1
      have hv1 : Calm s v1 := h.plain
      exact hv1.plain.ite hv1.plain.bump

theorem Calm.pushRecord (h : Calm s u) {code seq r} : Calm s (u.pushRecord code seq r) := by
  unfold State.pushRecord
  split
  · exact h
  · extract_lets
    exact h.plain.emit.bump.ite h.plain.bump

theorem Calm.errorRecord (h : Calm s u) {e} : Calm s (u.errorRecord e) := by
  unfold State.errorRecord
  extract_lets v1
  have hv1 : Calm s v1 := h.bump
  split
  · rename_i y2 y3 v2 y5
    have hv2 : Calm s v2 := hv1.takeStretch.of_snd y5
    extract_lets
    split
    · rename_i y9 y10 y11 v3 y13
      have hv3 : Calm s v3 := hv2.readings.of_snd_snd y13
      extract_lets _ _ v4 _ v5 v6 _ v7
      have hv4 : Calm s v4 := hv3.plain
      have hv5 : Calm s v5 := hv4.plain
      have hv6 : Calm s v6 := hv5.journalRecord
      have hv7 : Calm s v7 := hv6.raiseC
      exact hv7.pushRecord

theorem Calm.alert (h : Calm s u) {id uKind unit raised} : Calm s (u.alert id uKind unit raised) := h.errorRecord

/-! ## Machine/CatOps -/

theorem Calm.setBucket (h : Calm s u) {b l} : Calm s (u.setBucket b l) := by
  unfold State.setBucket
  extract_lets v1
  have hv1 : Calm s v1 := h.put
  split
  · exact hv1.plain
  · exact hv1.memWrite

theorem Calm.setEntry (h : Calm s u) {b slot e} : Calm s (u.setEntry b slot e) := h.setBucket

theorem Calm.checkSlots (h : Calm s u) {b es i} : Calm s (u.checkSlots b es i) := by
  induction es generalizing u i with
  | nil => exact h
  | cons e es ih =>
    unfold State.checkSlots
    exact ih (.ite h.setEntry.bump.errorRecord h)

theorem Calm.touchBucket (h : Calm s u) {b} : Calm s (u.touchBucket b) := by
  unfold State.touchBucket
  split
  · exact h.plain
  · exact h.countRead

theorem Calm.checkBucket (h : Calm s u) {b} : Calm s (u.checkBucket b) := h.touchBucket.checkSlots

theorem Calm.catHold (h : Calm s u) {w} : Calm s (u.catHold w) := h.plain

theorem Calm.writebackEffect (h : Calm s u) {k byte} : Calm s (u.writebackEffect k byte) := by
  unfold State.writebackEffect
  extract_lets v1
  have hv1 : Calm s v1 := h.foldl fun _ _ h3 => h3.checkBucket
  split
  · exact hv1.setEntry
  · exact hv1

theorem Calm.writeback (h : Calm s u) {p src cls act} : Calm s (u.writeback p src cls act) := by
  unfold State.writeback
  split
  · exact h
  · extract_lets
    exact h.catHold.ite h.writebackEffect

theorem Calm.rehashMark (h : Calm s u) {ended evicted} : Calm s (u.rehashMark ended evicted) := h.fwMarker

theorem Calm.endRehash (h : Calm s u) {evicted} : Calm s (u.endRehash evicted) := by
  unfold State.endRehash
  split
  · exact h
  · extract_lets v1 _ v2
    have hv1 : Calm s v1 := h.put
    have hv2 : Calm s v2 := hv1.plain
    exact hv2.rehashMark

theorem Calm.clearCatalogue (h : Calm s u) : Calm s u.clearCatalogue := by
  have hcleared : Calm s { u with mem := u.clearCatalogue.mem, memc := u.memc } := h.set_stacks State.clearCatalogue_wf
  exact Calm.put hcleared.plain

/-! ## Machine/EgressOps -/

theorem Calm.setQueue (h : Calm s u) {q l} : Calm s (u.setQueue q l) := h.set_egr Sparse.write_wf

theorem Calm.enqueue (h : Calm s u) {q i} : Calm s (u.enqueue q i) := by
  unfold State.enqueue
  extract_lets
  exact h.bump.ite h.setQueue.bump

theorem Calm.countBody (h : Calm s u) {x n} : Calm s (u.countBody x n) := h.set_memc

theorem Calm.readBody (h : Calm s u) {inBurst loc n} : Calm s (u.readBody inBurst loc n) := h.ite h.countRead

theorem Calm.setPkt (h : Calm s u) {p} : Calm s (u.setPkt p) := h.plain

theorem Calm.dropPkt (h : Calm s u) {pid} : Calm s (u.dropPkt pid) := h.plain

theorem Calm.modLine (h : Calm s u) {p f} : Calm s (u.modLine p f) := h.plain

theorem Calm.freeSlot (h : Calm s u) {p} : Calm s (u.freeSlot p) := h.modLine

theorem Calm.complete (h : Calm s u) {p d} : Calm s (u.complete p d) :=
  h.dropPkt.modLine.bump.ite (h.dropPkt.freeSlot.ite h.setPkt)

theorem Calm.originate (h : Calm s u) {q subtype ra ma body} : Calm s (u.originate q subtype ra ma body) := by
  unfold State.originate
  extract_lets _ _ _ _ _ _ v1
  have hv1 : Calm s v1 := h.put
  exact hv1.bump.ite hv1.enqueue

theorem Calm.verdictRecord (h : Calm s u) {p source act cls score ens queue} :
    Calm s (u.verdictRecord p source act cls score ens queue) := by
  unfold State.verdictRecord
  extract_lets
  exact h.originate

theorem Calm.releaseHeld (h : Calm s u) {p d} : Calm s (u.releaseHeld p d) := by
  unfold State.releaseHeld
  extract_lets v1
  have hv1 : Calm s v1 := h.dropPkt
  split
  · exact hv1.enqueue
  · exact hv1

theorem Calm.releaseUndetermined (h : Calm s u) {p} : Calm s (u.releaseUndetermined p) := by
  unfold State.releaseUndetermined
  extract_lets _ _ v1
  have hv1 : Calm s v1 := h.writeback.releaseHeld
  exact hv1.verdictRecord.ite hv1

theorem Calm.releaseAll (h : Calm s u) {f} : Calm s (u.releaseAll f) := h.foldl fun _ _ h2 => h2.releaseUndetermined

theorem Calm.park (h : Calm s u) {p} : Calm s (u.park p) := by
  unfold State.park
  split
  · exact h.complete
  · split
    · extract_lets _ v1 v2
      have hv1 : Calm s v1 := h.writeback.bump
      have hv2 : Calm s v2 := hv1.verdictRecord.ite hv1
      exact hv2.complete
    · extract_lets _ _ _ v3
      have hv3 : Calm s v3 := h.countBody.ite h
      exact hv3.setPkt.freeSlot

theorem Calm.linksDown (h : Calm s u) : Calm s u.linksDown := by
  unfold State.linksDown
  extract_lets v1
  have hv1 : Calm s v1 := h.put.put.put.put
  exact hv1.plain

theorem Calm.flushPackets (h : Calm s u) {counted} : Calm s (u.flushPackets counted) := by
  unfold State.flushPackets
  extract_lets n v
  have hv : Calm s v := .ite h.bumpBy h
  have hempty : Calm s { v with egr := { v.egr with q := [], neural := [] } } := hv.set_egr fun _ => rfl
  exact hempty.plain

theorem Calm.fillShapers (h : Calm s u) : Calm s u.fillShapers := h.set_egr

/-! ## Machine/IntakeOps -/

theorem Calm.punt (h : Calm s u) {p cause cls} : Calm s (u.punt p cause cls) := by
  unfold State.punt
  extract_lets _ _ _ v1
  have hv1 : Calm s v1 := h.plain
  exact h.ite hv1.logRecord

theorem Calm.tapSend (h : Calm s u) {p held} : Calm s (u.tapSend p held) := by
  unfold State.tapSend
  extract_lets v1
  have hv1 : Calm s v1 := h.readBody
  exact hv1.plain

theorem Calm.malformed (h : Calm s u) {b p cls} : OnSome (Calm s) (u.malformed b p cls) := by
  unfold State.malformed
  extract_lets v1
  have hv1 : Calm s v1 := h.bump
  split
  · trivial
  · exact hv1.complete
  · exact hv1.complete
  · exact hv1.complete
  · exact hv1.punt.complete

theorem Calm.hold (h : Calm s u) {p mark dscp pcp mirror record src act cls score ens} :
    Calm s (u.hold p mark dscp pcp mirror record src act cls score ens) := by
  unfold State.hold
  have hmal : ∀ (c : Bool) b q k, OnSome (Calm s) (if c = true then u.malformed b q k else none) := by
    intro c b q k
    split
    · exact h.malformed
    · trivial
  extract_lets b parsed parks q v w x y q' v' d q'' w' x' y'
  split
  · rename_i v heq
    exact (hmal _ _ _ _).of_eq heq
  · split
    · have hw : Calm s w := .ite h.setPkt.enqueue h.setPkt
      have hx : Calm s x := .ite hw.verdictRecord hw
      have hy : Calm s y := .ite hx.tapSend hx
      exact hy.park
    · have hw : Calm s w' := .ite h.setPkt.tapSend h.setPkt
      have hx : Calm s x' := .ite hw.verdictRecord hw
      exact hx.writeback.complete

theorem Calm.afterLookup (h : Calm s u) {p} : Calm s (u.afterLookup p) := by
  unfold State.afterLookup
  extract_lets _ _ _ v1 v2
  have hv1 : Calm s v1 := h.ite h.writeback
  have hv2 : Calm s v2 := hv1.tapSend.ite hv1
  split
  · exact hv1.setPkt
  · exact hv1.hold
  · extract_lets _ v3
    have hv3 : Calm s v3 := hv2.verdictRecord.ite hv2
    exact hv3.complete

theorem Calm.sequenceCheck (h : Calm s u) {p} : Calm s (u.sequenceCheck p).2 := by
  unfold State.sequenceCheck
  split
  · exact h
  · split
    · split
      · extract_lets _ v1
        have hv1 : Calm s v1 := h.plain
        exact hv1.bump.ite hv1
    · exact h

theorem Calm.toServo (h : Calm s u) {p} : Calm s (u.toServo p) := h.plain

theorem Calm.classifyPkt (h : Calm s u) {b p} : Calm s (u.classifyPkt b p) := by
  unfold State.classifyPkt
  extract_lets key hit value action preloaded q bank v desc wantsTap go parsed
  have hv : Calm s v := by
    unfold v
    clear_value hit
    split
    · exact .ite h.plain h.plain
    · exact h
  have hgo : Calm s (go v) := by
    unfold go
    extract_lets w x _
    have hw : Calm s w := .ite hv hv.bump
    have hx : Calm s x := .ite hw.punt hw
    exact .ite hx.afterLookup hx.setPkt
  refine .ite hv.toServo.setPkt.complete ?_
  split
  · split
    · rename_i w heq
      exact hv.malformed.of_eq heq
    · exact hgo
  · exact hgo

/-! ## Machine/TreeOps -/

theorem Calm.applyVerdict (h : Calm s u) {p ens cls score} : Calm s (u.applyVerdict p ens cls score) := by
  unfold State.applyVerdict
  extract_lets v1 v2 _ _ _ _ _ v3 v4 _ _ v5
  have hv1 : Calm s v1 := h.bump.ite h
  have hv2 : Calm s v2 := hv1.bump
  have hv3 : Calm s v3 := hv2.writeback
  have hv4 : Calm s v4 := hv3.tapSend.ite hv3
  have hv5 : Calm s v5 := hv4.verdictRecord.ite hv4
  exact hv3.hold.ite hv5.complete

/-! ## Machine/ListOps -/

theorem Calm.modArr (h : Calm s u) {a f} : Calm s (u.modArr a f) := h.plain

theorem Calm.wingsWrite (h : Calm s u) {a x bs} : Calm s (u.wingsWrite a x bs) := h.modArr

theorem Calm.setTag (h : Calm s u) {a line tag} : Calm s (u.setTag a line tag) := h.modArr

theorem Calm.countCue (h : Calm s u) {x} : Calm s (u.countCue x) := h.countRead.ite h

theorem Calm.cueWrite (h : Calm s u) {a addr bs} : Calm s (u.cueWrite a addr bs) := h.memWrite.ite h.modArr

theorem Calm.append (h : Calm s u) {a r bs} : Calm s (u.append a r bs) := by
  unfold State.append
  extract_lets
  exact h.cueWrite.put

theorem Calm.setTap (h : Calm s u) {d x} : Calm s (u.setTap d x) := h.set_sync (htaps := Sparse.write_wf)

theorem Calm.freeBuf (h : Calm s u) {d b} : Calm s (u.freeBuf d b) := h.setTap

theorem Calm.discardBuf (h : Calm s u) {d b} : Calm s (u.discardBuf d b) := by
  unfold State.discardBuf
  extract_lets
  refine .freeBuf ?_
  refine h.foldl fun v1 _ h6 => ?_
  split
  · exact h6.releaseUndetermined
  · exact h6

theorem Calm.setLight (h : Calm s u) {l n} : Calm s (u.setLight l n) := h.put

theorem Calm.releaseTap (h : Calm s u) {l d fuel} : Calm s (u.releaseTap l d fuel) := by
  induction fuel generalizing u with
  | zero => exact h
  | succ fuel ih =>
    unfold State.releaseTap
    split
    · exact .ite (ih h.setLight.freeBuf) h
    · exact h

theorem Calm.serveTaps (h : Calm s u) {l} : Calm s (u.serveTaps l) := h.ite (h.foldl fun _ _ h2 => h2.releaseTap)

theorem Calm.syncRecord (h : Calm s u) {w outcome ring seq} : Calm s (u.syncRecord w outcome ring seq) := by
  unfold State.syncRecord
  extract_lets
  exact h.logRecord.ite h

theorem Calm.leaveQueue (h : Calm s u) {a outcome r} : Calm s (u.leaveQueue a outcome r) := by
  unfold State.leaveQueue
  split
  · split
    · exact h
    · extract_lets _ v1 _ v2
      have hv1 : Calm s v1 := h.syncRecord
      have hv2 : Calm s v2 := hv1.set_sync
      exact hv2.ite hv2.serveTaps
  · exact h
  · exact h
  · exact h
  · exact h
  · exact h
  · exact h

theorem Calm.passList (h : Calm s u) {a r i j} : Calm s (u.passList a r i j) := by
  unfold State.passList
  extract_lets v1
  have hv1 : Calm s v1 := h.modArr.ite h
  exact hv1.put

theorem Calm.passDead (h : Calm s u) {a r fuel} : Calm s (u.passDead a r fuel) := by
  induction fuel generalizing u with
  | zero => exact h
  | succ fuel ih =>
    unfold State.passDead
    exact .ite (ih h.passList.modArr) h

theorem Calm.consume (h : Calm s u) {a r} : Calm s (u.consume a r) := by
  unfold State.consume
  split
  · extract_lets v1
    have hv1 : Calm s v1 := by
      unfold v1
      split
      · exact h.put
      · exact h.passList
    exact hv1.passDead
  · exact h.modArr

theorem Calm.abandonRun (h : Calm s u) {a outcome r} : Calm s (u.abandonRun a outcome r) := by
  unfold State.abandonRun
  extract_lets v1 v2 v3 v4 v5
  have hv1 : Calm s v1 := h.leaveQueue
  have hv2 : Calm s v2 := hv1.foldl fun _ _ h7 => h7.modArr
  have hv3 : Calm s v3 := hv2.consume.bump.put
  have hv4 : Calm s v4 := hv3.modArr
  have hv5 : Calm s v5 := hv4.put.ite hv4
  split
  · exact hv5.discardBuf.ite hv5
  · exact hv5

theorem Calm.abandonAll (h : Calm s u) : Calm s u.abandonAll := h.foldl fun _ _ h2 => h2.foldl fun _ _ h4 => h4.abandonRun.ite h4

theorem Calm.discardFrom (h : Calm s u) {a r fuel i} : Calm s (u.discardFrom a r fuel i) := by
  induction fuel generalizing u i with
  | zero => exact h
  | succ fuel ih =>
    unfold State.discardFrom
    refine .ite h (ih ?_)
    split
    · exact (Calm.ite h h.bump).discardBuf
    · exact .ite h h.bump

theorem Calm.discardRing (h : Calm s u) {a r} : Calm s (u.discardRing a r) := by
  unfold State.discardRing
  extract_lets _ _ v1 v2
  have hv1 : Calm s v1 := h.discardFrom
  have hv2 : Calm s v2 := hv1.modArr.ite hv1
  split
  · exact hv2.put
  · extract_lets
    exact h.ite h.discardFrom.modArr

theorem Calm.dropFiring (h : Calm s u) {t x} : Calm s (u.dropFiring t x) := by
  unfold State.dropFiring
  split
  · exact h
  · have hdropped : Calm s { u with sync := { u.sync with
        trigs := Sparse.write (fun _ => {}) u.sync.trigs t { x with wait := none } } } := h.set_sync (htrigs := Sparse.write_wf)
    dsimp only
    split
    · exact hdropped.bump.discardBuf
    · exact hdropped.bump

theorem Calm.drainEntry (h : Calm s u) : Calm s u.drainEntry := by
  unfold State.drainEntry
  extract_lets v w taps _ x
  have hv : Calm s v := h.foldl fun _ _ h1 => h1.foldl fun _ _ h2 => h2.discardRing
  have hw : Calm s w := hv.foldl fun _ _ h1 => h1.dropFiring
  clear_value w
  have htaps : Sparse.wf (fun _ => ({} : Tap)) w.sync.taps = true → Sparse.wf (fun _ => ({} : Tap)) taps = true :=
    Sparse.mapFilter_wf
  have hx : Calm s x := hw.set_sync (htaps := htaps)
  exact hx.foldl fun _ _ h1 => h1.modArr

theorem Calm.addLight (h : Calm s u) {l n kind unit cue addr op} : Calm s (u.addLight l n kind unit cue addr op) := by
  unfold State.addLight
  extract_lets _ v1 _ _ v2 _ v3
  have hv1 : Calm s v1 := h.setLight
  have hv2 : Calm s v2 := hv1.set_sync
  have hv3 : Calm s v3 := hv2.bump.errorRecord.ite hv2
  exact hv3.serveTaps

theorem Calm.setTrig (h : Calm s u) {t x} : Calm s (u.setTrig t x) := h.set_sync (htrigs := Sparse.write_wf)

theorem Calm.dropTap (h : Calm s u) {f} : Calm s (u.dropTap f) := by
  unfold State.dropTap
  split
  · exact h.discardBuf
  · exact h

theorem Calm.launch (h : Calm s u) {t f addr} : Calm s (u.launch t f addr) := by
  unfold State.launch
  extract_lets _ _ _ _ v1 v2
  have hv1 : Calm s v1 := h.append.bump
  have hv2 : Calm s v2 := hv1.modArr
  exact hv2.bump.ite hv2

theorem Calm.fireTrig (h : Calm s u) {t f} : Calm s (u.fireTrig t f) := by
  unfold State.fireTrig
  split
  · exact h.bump.dropTap
  · split
    · exact h.bump.dropTap
    · split
      · extract_lets v1 v2
        have hv1 : Calm s v1 := h.bump
        have hv2 : Calm s v2 := hv1.bump.ite hv1
        exact hv2.dropTap
      · exact h.setTrig.ite h.launch

theorem Calm.appendWaiting (h : Calm s u) {t} : Calm s (u.appendWaiting t) := by
  unfold State.appendWaiting
  split
  · exact h
  · split
    · exact h
    · extract_lets _ v1
      have hv1 : Calm s v1 := h.setTrig
      split
      · exact hv1.bump.dropTap
      · exact hv1.launch

theorem Calm.completeBuf (h : Calm s u) {bank d b} : Calm s (u.completeBuf bank d b) := by
  unfold State.completeBuf
  extract_lets _ _ v1
  have hv1 : Calm s v1 := h.setTap
  exact (hv1.bump.dropTap.ite hv1.fireTrig).serveTaps

/-! ## Machine/ObsOps -/

theorem Calm.setPower (h : Calm s u) {a v} : Calm s (u.setPower a v) := h.put

theorem Calm.takeDump (h : Calm s u) {cause recNo hang} : Calm s (u.takeDump cause recNo hang) := h.gapRecord.bump.ite h.plain

theorem Calm.requestDump (h : Calm s u) {bit_ recNo hang} : Calm s (u.requestDump bit_ recNo hang) := h.takeDump.ite h

theorem Calm.firstSuspect (h : Calm s u) {uKind unit} : Calm s (u.firstSuspect uKind unit) := h.put.ite h

theorem Calm.suspectArray (h : Calm s u) {a} : Calm s (u.suspectArray a) := by
  unfold State.suspectArray
  extract_lets v1 v2
  have hv1 : Calm s v1 := h.modArr
  have hv2 : Calm s v2 := by
    unfold v2
    split
    · exact hv1.abandonRun
    · exact hv1
  exact hv2.releaseAll

theorem Calm.drainForSuspect (h : Calm s u) : Calm s u.drainForSuspect := by
  unfold State.drainForSuspect
  split
  · rename_i hrun
    exact (h.enter (fun hu => by simpa [State.curtainSafe, hrun] using hu) (.inr (.inr ⟨hrun, rfl⟩))).drainEntry
  · exact h

theorem Calm.suspectUnit (h : Calm s u) {e} : Calm s (u.suspectUnit e) := by
  unfold State.suspectUnit
  extract_lets v1 _ _ v2 v3 v4
  have hv1 : Calm s v1 := h.suspectArray.ite h
  have hv2 : Calm s v2 := hv1.plain
  have hv3 : Calm s v3 := hv2.firstSuspect
  have hv4 : Calm s v4 := hv3.errorRecord
  exact hv4.drainForSuspect

theorem Calm.suspectPair (h : Calm s u) {pair e} : Calm s (u.suspectPair pair e) := by
  unfold State.suspectPair
  extract_lets v1
  have hv1 : Calm s v1 := h.suspectArray.suspectArray
  exact hv1.suspectUnit

/-! ## Machine/Cue -/

theorem Calm.countGather (h : Calm s u) {a l lines n} : Calm s (u.countGather a l lines n) := by
  unfold State.countGather
  extract_lets
  refine h.foldl fun v1 _ h4 => ?_
  extract_lets
  exact h4.ite h4.countRead.bump

theorem Calm.modRun (h : Calm s u) {a f} : Calm s (u.modRun a f) := h.modArr

theorem Calm.countFetch (h : Calm s u) {a r} : Calm s (u.countFetch a r) := h.countCue.ite h

theorem Calm.showRun (h : Calm s u) {a} : Calm s (u.showRun a) := by
  unfold State.showRun
  split
  · exact h.put
  · exact h.put.put

theorem Calm.rewind (h : Calm s u) {a r resume} : Calm s (u.rewind a r resume) := by
  unfold State.rewind
  extract_lets v1
  have hv1 : Calm s v1 := h.modArr
  exact hv1.modRun.showRun

theorem Calm.abortToRestart (h : Calm s u) {a r resume} : Calm s (u.abortToRestart a r resume) := by
  unfold State.abortToRestart
  extract_lets v1 _ v2 v3
  have hv1 : Calm s v1 := h.bump
  have hv2 : Calm s v2 := hv1.modRun
  have hv3 : Calm s v3 := hv2.leaveQueue
  exact hv2.abandonRun.ite (hv3.modRun.ite hv3.rewind)

theorem Calm.countError (h : Calm s u) {a r ws e} : Calm s (u.countError a r ws e) := by
  unfold State.countError
  split
  · exact h.bump
  · exact h.bump.bump
  · extract_lets v1
    have hv1 : Calm s v1 := h.bump
    exact hv1.countGather.ite hv1
  · exact h

theorem Calm.cueError (h : Calm s u) {a r ws e} : Calm s (u.cueError a r ws e) := by
  unfold State.cueError
  extract_lets x1 x2 v1
  have hv1 : Calm s v1 := h.countError
  split
  · extract_lets v2
    have hv2 : Calm s v2 := hv1.errorRecord
    clear_value x1 x2 v1 v2
    split
    · exact hv2.abandonRun
    · exact hv2.abortToRestart
    · exact hv2.abortToRestart

/-! ## Machine/Drain -/

theorem Calm.setChanRec (h : Calm s u) {a i r} : Calm s (u.setChanRec a i r) := h.modArr

theorem Calm.ledger (h : Calm s u) {a c np t} : Calm s (u.ledger a c np t) := by
  unfold State.ledger
  split
  · exact h
  · refine h.foldl fun v1 _ h5 => ?_
    extract_lets _ _ _ v2
    have hv2 : Calm s v2 := h5.bumpBy
    split
    · split
      · extract_lets v3 v4 v5
        have hv3 : Calm s v3 := hv2.setChanRec
        have hv4 : Calm s v4 := hv3.bump.ite hv3
        have hv5 : Calm s v5 := hv4.bump
        exact (hv5.raise.ite hv5).ite hv4
    · exact hv2.setChanRec

theorem Calm.wingsPut (h : Calm s u) {a x bs} : Calm s (u.wingsPut a x bs) := h.foldl fun _ _ h2 => h2.wingsWrite

theorem Calm.tagPut (h : Calm s u) {a line tag} : Calm s (u.tagPut a line tag) := h.foldl fun _ _ h2 => h2.setTag

theorem Calm.wingsPlain (h : Calm s u) {a line bs} : Calm s (u.wingsPlain a line bs) := h.wingsPut.foldl fun _ _ h2 => h2.tagPut

theorem Calm.drainFrames (h : Calm s u) {a acc seq c fuel first rows} : Calm s (u.drainFrames a acc seq c fuel first rows) := by
  induction fuel generalizing u first rows with
  | zero => exact h
  | succ fuel ih =>
    unfold State.drainFrames
    exact .ite h (ih h.originate)

theorem Calm.drainWrite (h : Calm s u) {a acc seq c t main sv fold} : Calm s (u.drainWrite a acc seq c t main sv fold) := by
  unfold State.drainWrite
  extract_lets _ v1 v2 v3
  have hv1 : Calm s v1 := by
    unfold v1
    split
    · refine h.foldl fun v4 _ h7 => ?_
      extract_lets _ v5
      have hv5 : Calm s v5 := h7.wingsPut
      exact hv5.tagPut
    · exact h.foldl fun _ _ h12 => h12.memWrite
    · exact h.drainFrames
  have hv2 : Calm s v2 := hv1.ite hv1.wingsPut
  have hv3 : Calm s v3 := hv2.wingsPut
  exact hv2.ite (hv3.foldl fun _ _ h14 => h14.tagPut)

/-! ## Machine/TrustOps -/

theorem Calm.verifyFailed (h : Calm s u) : Calm s u.verifyFailed := h.bump

/-! ## Machine/OdpCore -/

theorem Calm.answer (h : Calm s u) {a} : Calm s (u.answer a) := by
  unfold State.answer
  extract_lets v1 v2
  have hv1 : Calm s v1 := h.emit.bump
  have hv2 : Calm s v2 := hv1.ite hv1.bump
  exact hv2.plain

theorem Calm.authenticate (h : Calm s u) {svc r i j d} : OnSome (Calm s) (u.authenticate svc r i j d) := by
  cases hu : u.authenticate svc r i j d with
  | none => trivial
  | some v => exact h.within (State.authenticate_within hu)

theorem Calm.receive (h : Calm s u) {svc r i j d body} (hbody : ∀ v, Calm s v → Calm s (body v)) :
    Calm s (u.receive svc r i j d body) := by
  unfold State.receive
  refine .ite h ?_
  split
  · exact h.bump
  · rename_i v heq
    have hv : Calm s v := h.authenticate.of_eq heq
    split
    · exact hv.emit.bump
    · split
      · exact hv.answer
      · exact hbody v hv

theorem Calm.serve (h : Calm s u) {svc r i j d body} (hbody : ∀ v, Calm s v → Calm s (body v).st) :
    Calm s (u.serve svc r i j d body) :=
  h.receive fun v hv => (hbody v hv).answer

theorem Calm.serveWrite (h : Calm s u) {r i j d eff} (heff : ∀ v, Calm s v → OnOk (Calm s) (eff v)) :
    Calm s (u.serveWrite r i j d eff) := by
  refine h.serve fun v hv => ?_
  split
  · exact hv
  · split
    · exact hv
    · rename_i w heq
      exact (heff v hv).of_eq heq

/-! ## Machine/Route -/

theorem Calm.firstHop (h : Calm s u) {ports} : Calm s (u.firstHop ports).2 := h.within (u.firstHop_within _)

theorem Calm.route (h : Calm s u) {m} : Calm s (u.route m).2 := h.within (u.route_within _)

/-! ## Machine/RunOps -/

theorem Calm.wantPower (h : Calm s u) {a} : Calm s (u.wantPower a) := h.foldl fun _ _ h2 => h2.modArr.ite h2

theorem Calm.delivered (h : Calm s u) {a n} : Calm s (u.delivered a n).2 := by
  unfold State.delivered
  split
  · split
    · rename_i y1 y2 v1 y4
      have hv1 : Calm s v1 := h.fresh.of_snd y4
      exact hv1
  · exact h

theorem Calm.rampBack (h : Calm s u) {i} : Calm s (u.rampBack i) := by
  unfold State.rampBack
  split
  · rename_i y1 y2 v1 y4
    have hv1 : Calm s v1 := h.delivered.of_snd y4
    extract_lets v2
    have hv2 : Calm s v2 := hv1.bumpBy.bumpBy.bump
    exact hv2.modArr.setPower

theorem Calm.wake (h : Calm s u) {a} : Calm s (u.wake a) := h.wantPower.foldl fun _ _ h2 => h2.rampBack.ite h2

theorem Calm.undecidable (h : Calm s u) {pair row arbiter} : Calm s (u.undecidable pair row arbiter) := by
  unfold State.undecidable
  extract_lets v1
  have hv1 : Calm s v1 := h.bump
  exact hv1.suspectPair

theorem Calm.advance (h : Calm s u) {a r ws} : Calm s (u.advance a r ws) := h.modRun

theorem Calm.issue_go (h : Calm s u) {a body r ws} (hbody : ∀ v r ws x, Calm s v → OnOk (Calm s) (body v r ws x)) :
    Calm s (State.issue.go a body u r ws) := by
  unfold State.issue.go
  split
  · exact h.cueError
  · split
    · exact h.cueError
    · rename_i v heq
      exact ((hbody _ _ _ _ h.advance).of_eq heq).showRun

theorem Calm.issue (h : Calm s u) {a op c body} (hbody : ∀ v r ws x, Calm s v → OnOk (Calm s) (body v r ws x)) :
    Calm s (u.issue a op c body) := by
  unfold State.issue
  split
  · exact h
  · refine .ite h ?_
    split
    · exact h.countFetch.suspectUnit
    · exact h.countFetch.issue_go hbody
    · exact .ite h.countFetch.bump.undecidable (h.countFetch.issue_go hbody)

theorem Calm.modList (h : Calm s u) {a ring f} : Calm s (u.modList a ring f) := by
  unfold State.modList
  extract_lets
  exact h.modArr

theorem Calm.fly (h : Calm s u) {a f external} : Calm s (u.fly a f external) := by
  unfold State.fly
  split
  · exact h
  · exact h.modRun

theorem Calm.restartHere (h : Calm s u) {a} : Calm s (u.restartHere a) := by
  unfold State.restartHere
  split
  · exact h
  · exact h.modRun

theorem Calm.endList (h : Calm s u) {a r} : Calm s (u.endList a r) := by
  unfold State.endList
  extract_lets v1
  have hv1 : Calm s v1 := h.consume.bump.put
  exact hv1.modArr.showRun

theorem Calm.sendBell (h : Calm s u) {o m d} : Calm s (u.sendBell o m d) := by
  unfold State.sendBell
  split
  · exact h.bump
  · extract_lets _ v1
    have hv1 : Calm s v1 := h.plain
    split
    · exact hv1
    · split
      · rename_i y3 y4 v2 y6
        have hv2 : Calm s v2 := hv1.route.of_snd y6
        exact hv2.emit

theorem Calm.signal (h : Calm s u) {a r light n trigger remote param} : Calm s (u.signal a r light n trigger remote param) := by
  unfold State.signal
  extract_lets _ _ _ _ v1
  have hv1 : Calm s v1 := h.plain
  split
  · extract_lets
    exact hv1.sendBell.modList
  · exact (h.fireTrig.ite h.bump).ite h.addLight

theorem Calm.signalDone (h : Calm s u) {a r} : Calm s (u.signalDone a r) := by
  unfold State.signalDone
  split
  · split
    · extract_lets v1 v2
      have hv1 : Calm s v1 := h.modList
      have hv2 : Calm s v2 := hv1.signal
      clear_value v1 v2
      split
      · exact hv2
      · exact hv2.modList
    · exact h
  · exact h

theorem Calm.settle (h : Calm s u) {a ring} : Calm s (u.settle a ring) := by
  unfold State.settle
  split
  · exact h
  · split
    · exact h
    · extract_lets v1
      have hv1 : Calm s v1 := h.signalDone
      split
      · exact hv1
      · exact hv1.endList.ite hv1

theorem Calm.progress (h : Calm s u) {a} : Calm s (u.progress a) := by
  unfold State.progress
  split
  · exact h
  · split
    · exact h.ite h.rewind
    · extract_lets v1
      have hv1 : Calm s v1 := h.settle
      split
      · exact hv1
      · exact hv1.showRun

theorem Calm.land (h : Calm s u) {a f} : Calm s (u.land a f) := by
  unfold State.land
  extract_lets v1
  have hv1 : Calm s v1 := h.modArr.progress
  exact hv1.foldl fun _ _ h3 => h3.settle

theorem Calm.suspend (h : Calm s u) {a r} : Calm s (u.suspend a r) := by
  unfold State.suspend
  extract_lets v1 _ _ v2
  have hv1 : Calm s v1 := h.leaveQueue
  have hv2 : Calm s v2 := hv1.bump
  exact hv2.modArr.showRun

theorem Calm.resumeList (h : Calm s u) {a} : Calm s (u.resumeList a) := by
  unfold State.resumeList
  split
  · exact h
  · exact h.modArr.progress.showRun

theorem Calm.stickyEvents (h : Calm s u) {a old new} : Calm s (u.stickyEvents a old new) := h.foldl fun _ _ h2 => h2.raise.ite h2

theorem Calm.completionRecord (h : Calm s u) {a r d} : Calm s (u.completionRecord a r d) := by
  unfold State.completionRecord
  extract_lets _ _ v1 v2 v3 v4 _ v5
  have hv1 : Calm s v1 := h.modArr
  have hv2 : Calm s v2 := hv1.put
  have hv3 : Calm s v3 := hv2.logRecord.ite hv2
  have hv4 : Calm s v4 := hv3.bumpBy
  have hv5 : Calm s v5 := hv4.put.stickyEvents
  exact hv5.ite hv5.logRecord.bump

/-! ## Machine/Lists -/

theorem Calm.startList (h : Calm s u) {a r} : Calm s (u.startList a r) := by
  unfold State.startList
  extract_lets i bs ws front acc bad pos launched run v w
  have hw : Calm s w := Calm.showRun (Calm.wantPower h.countCue.modArr.bump)
  clear_value w run bad
  split
  · exact hw.cueError
  · exact hw

theorem execListStart_calm (h : Calm s u) {a t} : OnNext (Calm s) (execListStart a t u) := by
  unfold execListStart
  extract_lets v1
  have hv1 : Calm s v1 := h.at
  split
  · extract_lets
    split
    · exact hv1.startList
    · exact hv1
  · exact hv1

theorem execPreEmption_calm (h : Calm s u) {a t} : OnNext (Calm s) (execPreEmption a t u) := by
  unfold execPreEmption
  extract_lets v1
  have hv1 : Calm s v1 := h.at
  split
  · exact hv1
  · split
    · split
      · exact hv1.suspend
      · exact hv1
    · exact hv1

theorem execUrgentPreEmption_calm (h : Calm s u) {a t} : OnNext (Calm s) (execUrgentPreEmption a t u) := by
  unfold execUrgentPreEmption
  extract_lets v1
  have hv1 : Calm s v1 := h.at
  split
  · exact hv1
  · split
    · split
      · extract_lets _ v2 v3 v4 _ v5
        have hv2 : Calm s v2 := hv1.ite hv1.bump
        have hv3 : Calm s v3 := hv2.modArr
        have hv4 : Calm s v4 := hv3.leaveQueue
        have hv5 : Calm s v5 := hv4.modRun.ite hv4.rewind
        split
        · exact hv5.suspend
        · exact hv5
      · exact hv1
    · exact hv1

theorem execListResume_calm (h : Calm s u) {a t} : OnNext (Calm s) (execListResume a t u) := by
  unfold execListResume
  extract_lets v1
  have hv1 : Calm s v1 := h.at
  split
  · split
    · exact hv1.resumeList
    · exact hv1
  · exact hv1

theorem execSkewResume_calm (h : Calm s u) {a t} : OnNext (Calm s) (execSkewResume a t u) := by
  unfold execSkewResume
  extract_lets v1
  have hv1 : Calm s v1 := h.at
  split
  · exact hv1
  · split
    · split
      · exact hv1.modRun
      · exact hv1
    · exact hv1

theorem execGovernorAdmit_calm (h : Calm s u) {cycle t} : OnNext (Calm s) (execGovernorAdmit cycle t u) := by
  unfold execGovernorAdmit
  extract_lets v1
  have hv1 : Calm s v1 := h.at
  split
  · exact hv1
  · split
    · split
      · rename_i y3 y4 v2 y6
        have hv2 : Calm s v2 := hv1.delivered.of_snd y6
        extract_lets v3 v4
        have hv3 : Calm s v3 := hv2.bumpBy.bump.setPower
        have hv4 : Calm s v4 := hv3.modArr
        exact hv4.set_sync
    · exact hv1

theorem execRampUpComplete_calm (h : Calm s u) {a t} : OnNext (Calm s) (execRampUpComplete a t u) := by
  unfold execRampUpComplete
  extract_lets v1
  have hv1 : Calm s v1 := h.at
  split
  · exact hv1.bumpBy.bumpBy.setPower
  · exact hv1

theorem execRampDownStart_calm (h : Calm s u) {a gap t} : OnNext (Calm s) (execRampDownStart a gap t u) := by
  unfold execRampDownStart
  extract_lets v1 _ v2
  have hv1 : Calm s v1 := h.at
  have hv2 : Calm s v2 := hv1.bumpBy.bumpBy.bumpBy
  split
  · exact hv2.modArr.setPower
  · exact hv1

theorem execRampDownComplete_calm (h : Calm s u) {a t} : OnNext (Calm s) (execRampDownComplete a t u) := by
  unfold execRampDownComplete
  extract_lets v1
  have hv1 : Calm s v1 := h.at
  split
  · split
    · rename_i y2 y3 v2 y5
      have hv2 : Calm s v2 := hv1.delivered.of_snd y5
      extract_lets v3
      have hv3 : Calm s v3 := hv2.bumpBy.bumpBy
      exact hv3.modArr.setPower
  · exact hv1

/-! ## Machine/Device -/

theorem Calm.setPairs (h : Calm s u) : Calm s u.setPairs := h.set_pwr

/-- The gates stay off or are turned off. -/
theorem Calm.set_pwr_closing (h : Calm s u) {x : Pwr} (hinline : x.gateInline = true → u.pwr.gateInline = true)
    (hring : x.gateRing = true → u.pwr.gateRing = true)
    (hvcg : x.vcgUp = u.pwr.vcgUp ∨ (x.gateInline = false ∧ x.gateRing = false)) : Calm s { u with pwr := x } := by
  refine h.trans ⟨⟨⟨rfl, rfl, .refl _⟩, id, fun hu => ?_⟩, .inl rfl⟩
  simp only [State.curtainSafe] at hu ⊢
  grind

theorem Calm.closeCurtain (h : Calm s u) : Calm s u.closeCurtain := h.set_pwr_closing nofun id (.inl rfl)

theorem Calm.closeRing (h : Calm s u) : Calm s u.closeRing := h.set_pwr_closing id nofun (.inl rfl)

theorem Calm.closeAll (h : Calm s u) : Calm s u.closeAll := h.closeCurtain.closeRing

theorem Calm.loseVcg (h : Calm s u) : Calm s u.loseVcg := h.closeAll.set_pwr_closing id id (.inr ⟨rfl, rfl⟩)

theorem Calm.leaveRing (h : Calm s u) : Calm s u.leaveRing := h.plain.put.put

theorem Calm.toFault (h : Calm s u) {e} : Calm s (u.toFault e) := by
  unfold State.toFault
  refine .ite h (.ite h.errorRecord ?_)
  have hclosed : Calm s (u.closeAll.leaveRing.enter .fault) := h.closeAll.leaveRing.enter (fun _ => by
    simp [State.curtainSafe, State.leaveRing, State.closeAll, State.closeCurtain, State.closeRing]) (.inr (.inl rfl))
  exact hclosed.set_dev.abandonAll.flushPackets.linksDown.put.errorRecord.requestDump

theorem Calm.startRun (h : Calm s u) : Calm s u.startRun := by
  unfold State.startRun
  extract_lets dev v sq
  have hsq : ∀ x p, Calm s x → Calm s (sq x p) := fun _ _ hx => .ite hx.put hx
  exact hsq _ _ (hsq _ _ (hsq _ _ (hsq _ _ h.set_dev)))

/-! ## Machine/Power -/

theorem execInputOvervoltage_calm (h : Calm s u) {mv t} : OnNext (Calm s) (execInputOvervoltage mv t u) := by
  unfold execInputOvervoltage
  extract_lets v1
  have hv1 : Calm s v1 := h.at
  split
  · exact hv1.set_pwr.toFault
  · exact hv1

theorem execInputVoltageEvent_calm (h : Calm s u) {mv t} : OnNext (Calm s) (execInputVoltageEvent mv t u) := by
  unfold execInputVoltageEvent
  extract_lets v1 _ _ _ v2
  have hv1 : Calm s v1 := h.at
  have hv2 : Calm s v2 := hv1.set_pwr
  split
  · split
    · exact hv2.raise
    · exact hv2
  · exact hv1

theorem execRailOutOfTolerance_calm (h : Calm s u) {rail mv t} : OnNext (Calm s) (execRailOutOfTolerance rail mv t u) := by
  unfold execRailOutOfTolerance
  extract_lets v1 v2
  have hv1 : Calm s v1 := h.at
  have hv2 : Calm s v2 := hv1.loseVcg.ite hv1
  split
  · exact hv2.toFault
  · exact hv1

theorem execDroopDetected_calm (h : Calm s u) {region t} : OnNext (Calm s) (execDroopDetected region t u) := by
  unfold execDroopDetected
  extract_lets v1 _ _ v2 _ v3
  have hv1 : Calm s v1 := h.at
  have hv2 : Calm s v2 := hv1.set_pwr
  have hv3 : Calm s v3 := hv2.set_pwr.ite hv2
  split
  · exact hv1
  · exact hv3.bump

theorem execDroopRecovered_calm (h : Calm s u) {region t} : OnNext (Calm s) (execDroopRecovered region t u) := by
  unfold execDroopRecovered
  extract_lets v1
  have hv1 : Calm s v1 := h.at
  exact hv1.set_pwr

theorem execThermalEvaluation_calm (h : Calm s u) {hottest t} : OnNext (Calm s) (execThermalEvaluation hottest t u) := by
  unfold execThermalEvaluation
  extract_lets v1 _ _ v2 _ v3 _ v4
  have hv1 : Calm s v1 := h.at
  have hv2 : Calm s v2 := hv1.put
  have hv3 : Calm s v3 := hv2.set_pwr
  have hv4 : Calm s v4 := by
    unfold v4
    split
    · exact hv3.set_pwr
    · exact hv3.set_pwr.bumpBy.ite hv3
  split
  · exact hv1
  · split
    · exact hv1
    · split
      · exact hv4.bump.raise
      · exact hv4

theorem execThermalLimit_calm (h : Calm s u) {sensor temp t} : OnNext (Calm s) (execThermalLimit sensor temp t u) := by
  unfold execThermalLimit
  extract_lets v1
  have hv1 : Calm s v1 := h.at
  split
  · exact hv1.toFault
  · exact hv1

theorem execDramRefreshAdjust_calm (h : Calm s u) {die temp t} : OnNext (Calm s) (execDramRefreshAdjust die temp t u) := by
  unfold execDramRefreshAdjust
  extract_lets v1
  have hv1 : Calm s v1 := h.at
  split
  · exact hv1
  · split
    · exact hv1.set_pwr
    · split
      · exact hv1.set_pwr
      · exact hv1

theorem Calm.ppsSet (h : Calm s u) {want} : Calm s (u.ppsSet want) := h.plain

theorem execPpsInEdge_calm (h : Calm s u) {t} : OnNext (Calm s) (execPpsInEdge t u) := by
  unfold execPpsInEdge
  extract_lets v1 _ _ _ v2 _ _ v3
  have hv1 : Calm s v1 := h.at
  have hv2 : Calm s v2 := hv1.bump
  have hv3 : Calm s v3 := hv2.plain
  split
  · exact hv1
  · split
    · split
      · exact hv3
      · exact hv3.ppsSet.bump.put
    · split
      · exact hv1.ppsSet
      · exact hv1.ppsSet.bump.put

theorem execRefInChange_calm (h : Calm s u) {sig t} : OnNext (Calm s) (execRefInChange sig t u) := by
  unfold execRefInChange
  extract_lets v1 _ _ _ v2 v3
  have hv1 : Calm s v1 := h.at
  have hv2 : Calm s v2 := hv1.plain
  have hv3 : Calm s v3 := hv2.put
  split
  · exact hv1
  · split
    · exact hv3.raise
    · exact hv3

theorem execFaultEntry_calm (h : Calm s u) {c t} : OnNext (Calm s) (execFaultEntry c t u) := by
  unfold execFaultEntry
  extract_lets v1 v2
  have hv1 : Calm s v1 := h.at
  have hv2 : Calm s v2 := by
    unfold v2
    clear_value v1 v2
    split
    · exact hv1.bump
    · exact hv1
    · exact hv1
  split
  · exact hv1
  · exact hv2.toFault

theorem execCurtainSwitchComplete_calm (h : Calm s u) {b t} : OnNext (Calm s) (execCurtainSwitchComplete b t u) := by
  unfold execCurtainSwitchComplete
  extract_lets v1
  have hv1 : Calm s v1 := h.at
  split
  · exact hv1.set_pwr
  · exact hv1.set_pwr
  · exact hv1.set_pwr

theorem execEvtOutPulseEnd_calm (h : Calm s u) {t} : OnNext (Calm s) (execEvtOutPulseEnd t u) := by
  unfold execEvtOutPulseEnd
  extract_lets v1
  have hv1 : Calm s v1 := h.at
  split
  · split
    · exact hv1.set_pwr
    · exact hv1
  · exact hv1

theorem execPpsOutput_calm (h : Calm s u) {t} : OnNext (Calm s) (execPpsOutput t u) := by
  unfold execPpsOutput
  extract_lets v1 v2
  have hv1 : Calm s v1 := h.at
  have hv2 : Calm s v2 := hv1.emit
  split
  · exact hv2.set_pwr
  · exact hv1

/-! ## Machine/Memory -/

theorem Calm.rateCheck (h : Calm s u) {c} : Calm s (u.rateCheck c) := by
  unfold State.rateCheck
  extract_lets
  split
  · extract_lets _ _ _ v1
    have hv1 : Calm s v1 := h.set_memc
    exact hv1.alert.ite hv1

theorem Calm.corrected (h : Calm s u) {c} : Calm s (u.corrected c) := h.bump.rateCheck

theorem execPatrolRead_calm (h : Calm s u) {rep t} : OnNext (Calm s) (execPatrolRead rep t u) := by
  unfold execPatrolRead
  extract_lets v1 _ v2 _ _ v3
  have hv1 : Calm s v1 := h.at
  have hv2 : Calm s v2 := hv1.countRead
  have hv3 : Calm s v3 := hv2.set_memc
  split
  · exact hv1
  · split
    · exact hv3.rateCheck
    · exact hv3.corrected
    · exact hv3.bump.toFault

theorem Calm.addBusy (h : Calm s u) {i l} : Calm s (u.addBusy i l) := by
  induction l generalizing u i with
  | nil => exact h
  | cons n l ih => exact ih h.bumpBy

theorem execImbalanceWindow_calm (h : Calm s u) {busy t} : OnNext (Calm s) (execImbalanceWindow busy t u) := by
  unfold execImbalanceWindow
  extract_lets v1 _ v2 _ _ _ _ v3
  have hv1 : Calm s v1 := h.at
  have hv2 : Calm s v2 := hv1.addBusy
  have hv3 : Calm s v3 := hv2.set_memc
  split
  · exact hv1
  · split
    · exact hv3.put.bump.alert
    · split
      · exact hv3.put.alert
      · exact hv3

theorem Calm.setHoldShare (h : Calm s u) {idx v} : OnOk (Calm s) (u.setHoldShare idx v) := by
  have hmemc : ∀ w n, Calm s w →
      Calm s { w with memc := if idx = 0x6020 then { w.memc with burstShare := n } else { w.memc with bufShare := n } } :=
    fun w n hw => hw.set_memc (by split <;> rfl)
  unfold State.setHoldShare
  split
  · trivial
  · split
    · exact hmemc _ _ h
    · exact hmemc _ _ h.put

theorem execHoldPoolShareApply_calm (h : Calm s u) {t} : OnNext (Calm s) (execHoldPoolShareApply t u) := by
  unfold execHoldPoolShareApply
  extract_lets v1 v2 v3
  have hv1 : Calm s v1 := h.at
  have hv2 : Calm s v2 := by
    unfold v2
    split
    · exact hv1.put
    · exact hv1
  have hv3 : Calm s v3 := by
    unfold v3
    split
    · exact hv2.put
    · exact hv2
  split
  · exact hv3.set_memc
  · exact hv1

theorem Calm.emptyRegion (h : Calm s u) {r} : Calm s (u.emptyRegion r) := by
  unfold State.emptyRegion
  extract_lets _ _ v1 v2
  have hv1 : Calm s v1 := h.memFill
  have hv2 : Calm s v2 := hv1.plain
  exact h.memFill.clearCatalogue.ite (hv2.put.put.gapRecord.ite hv2)

/-- Region descriptors written to a table of objects leave it in its form. -/
theorem regionPut_wf {f : Nat → Nat × Nat} {l : List Nat} {m : Sparse Nat} (hm : Sparse.wf objDefault m = true) :
    Sparse.wf objDefault (l.foldl (fun m r =>
      Sparse.write objDefault (Sparse.write objDefault m (objKey (0x6000 + r) 1) (f r).1) (objKey (0x6000 + r) 2) (f r).2) m) =
        true := by
  induction l generalizing m with
  | nil => exact hm
  | cons r l ih => exact ih (Sparse.write_wf (Sparse.write_wf hm))

theorem Calm.regionCommit (h : Calm s u) {v} : OnOk (Calm s) (u.regionCommit v) := by
  unfold State.regionCommit
  extract_lets mine changed put _ w
  have hdict : Calm s { u with dict := put u.dict } := h.set_dict regionPut_wf
  have hstaged : Calm s { { u with dict := put u.dict } with staged := u.staged.filter fun e => !(mine e) } :=
    hdict.set_staged (Sparse.filter_wf _)
  have hw : Calm s w := hstaged.plain
  clear_value w
  have hdone : OnOk (Calm s) (.ok ((changed.foldl State.emptyRegion w).commitMark 2) : Except Nat State) :=
    (hw.foldl fun _ _ h1 => h1.emptyRegion).commitMark
  exact .ite h (.ite trivial (.ite trivial (.ite trivial (.ite trivial (.ite trivial hdone)))))

theorem execRegionCommit_calm (h : Calm s u) {r} : OnNext (Calm s) (execRegionCommit r u) := by
  unfold execRegionCommit
  refine h.at.serveWrite fun v1 h1 => ?_
  exact h1.regionCommit

theorem Calm.peekRead (h : Calm s u) {d v} (hv : u.peekRead = .ok (d, v)) : Calm s v := by
  unfold State.peekRead at hv
  extract_lets x at hv
  split at hv
  · cases hv
    exact h.countRead
  · cases hv

theorem Calm.peekWrite (h : Calm s u) {v} : OnOk (Calm s) (u.peekWrite v) := by
  unfold State.peekWrite
  extract_lets
  split
  · exact h.memWrite
  · trivial

theorem Calm.servePeek (h : Calm s u) {r} : Calm s (u.servePeek r) := by
  refine h.serve fun v hv => ?_
  split
  · exact hv
  · split
    · exact hv
    · rename_i heq
      exact hv.peekRead heq

theorem execPeek_calm (h : Calm s u) {r} : OnNext (Calm s) (execPeek r u) := h.at.servePeek

/-! ## Machine/Tap -/

theorem Calm.tapWrite (h : Calm s u) {b d k i rows} : Calm s (u.tapWrite b d k i rows) := by
  induction rows generalizing u i with
  | nil => exact h
  | cons r rows ih =>
    unfold State.tapWrite
    refine ih ?_
    split
    · exact h.wingsPut.tagPut.wingsPut.tagPut
    · exact h.wingsPut.tagPut

theorem Calm.tapOverrun (h : Calm s u) {j} : Calm s (u.tapOverrun j) := by
  unfold State.tapOverrun
  extract_lets v1
  have hv1 : Calm s v1 := h.bump
  split
  · split
    · exact hv1.releaseUndetermined
    · exact hv1
  · exact hv1

theorem Calm.tapInto (h : Calm s u) {b j k rows} : Calm s (u.tapInto b j k rows) := by
  unfold State.tapInto
  extract_lets _ _ _ v1 v2 v3
  have hv1 : Calm s v1 := h.tapWrite
  have hv2 : Calm s v2 := hv1.setTap
  have hv3 : Calm s v3 := by
    unfold v3
    split
    · exact hv2.setPkt
    · exact hv2
  exact hv3.completeBuf.ite hv3

theorem Calm.tapTake (h : Calm s u) {j} : Calm s (u.tapTake j) := by
  unfold State.tapTake
  extract_lets _ _ _ _ _ v1
  have hv1 : Calm s v1 := h.completeBuf.ite h
  exact h.ite (hv1.tapOverrun.ite hv1.setTap.tapInto)

theorem Calm.tapFlushModel (h : Calm s u) {acc} : Calm s (u.tapFlushModel acc) := by
  unfold State.tapFlushModel
  split
  · refine h.foldl fun v1 _ h5 => ?_
    extract_lets
    exact h5.completeBuf.ite h5
  · exact h

theorem Calm.tapRetire (h : Calm s u) : Calm s u.tapRetire := by
  unfold State.tapRetire
  split
  · exact h.tapFlushModel
  · exact h

theorem OnNext.tapsFlushed {r : Result} (h : OnNext (Calm s) r) : OnNext (Calm s) (tapsFlushed r) := by
  cases r with
  | next u => exact Calm.ite h h.tapRetire
  | fault f => trivial
  | refused r => trivial

theorem execTapRowsWritten_calm (h : Calm s u) {pipe t} : OnNext (Calm s) (execTapRowsWritten pipe t u) := by
  unfold execTapRowsWritten
  extract_lets v1
  have hv1 : Calm s v1 := h.at
  split
  · exact hv1
  · split
    · exact hv1.tapRetire
    · extract_lets v2
      have hv2 : Calm s v2 := hv1.plain
      exact hv2.tapTake.tapRetire

/-! ## Machine/Library -/

theorem Calm.setSlotState (h : Calm s u) {k v} : Calm s (u.setSlotState k v) := h.put

theorem Calm.modSlot (h : Calm s u) {k f} : Calm s (u.modSlot k f) := h.plain

theorem Calm.voidPersisted (h : Calm s u) {k} : Calm s (u.voidPersisted k) := h.plain

theorem Calm.dropStaging (h : Calm s u) {k} : Calm s (u.dropStaging k) := by
  unfold State.dropStaging
  split
  · split
    · extract_lets _ _ _ v1
      have hv1 : Calm s v1 := h.plain
      exact hv1.foldl fun _ _ h6 => h6.put.showRun
    · exact h
  · exact h

theorem Calm.emptySlot (h : Calm s u) {k} : Calm s (u.emptySlot k) := by
  unfold State.emptySlot
  extract_lets v1
  have hv1 : Calm s v1 := h.dropStaging.modSlot
  exact hv1.setSlotState.put.put.put.put

theorem Calm.beginImage (h : Calm s u) {k size} : Calm s (u.beginImage k size) := by
  unfold State.beginImage
  extract_lets _ v1
  have hv1 : Calm s v1 := h.emptySlot
  split
  · exact hv1
  · exact hv1.modSlot.setSlotState

theorem Calm.persistSlot (h : Calm s u) {k} : Calm s (u.persistSlot k) := by
  unfold State.persistSlot
  split
  · extract_lets _ v1
    have hv1 : Calm s v1 := h.voidPersisted
    exact hv1.raise.ite hv1.plain
  · exact h

theorem Calm.slotPasses (h : Calm s u) {k b m} : Calm s (u.slotPasses k b m) := by
  unfold State.slotPasses
  extract_lets _ v1
  have hv1 : Calm s v1 := h.modSlot.setSlotState
  exact hv1.put.put.put.put.put

theorem Calm.loadCheck (h : Calm s u) {k} : Calm s (u.loadCheck k) := by
  unfold State.loadCheck
  extract_lets
  split
  · exact h.slotPasses.persistSlot
  · exact ((h.verifyFailed.ite h).emptySlot).put

theorem Calm.eraseSlot (h : Calm s u) {k v} : OnOk (Calm s) (u.eraseSlot k v) := by
  unfold State.eraseSlot
  split
  · exact h
  · split
    · trivial
    · exact h.emptySlot.voidPersisted

theorem Calm.setPersist (h : Calm s u) {k v} : Calm s (u.setPersist k v) := h.put.persistSlot

theorem Calm.writeTables (h : Calm s u) {m} : Calm s (u.writeTables m) := by
  unfold State.writeTables
  extract_lets v1
  have hv1 : Calm s v1 := h.foldl fun _ _ h3 => h3.modArr
  exact hv1.foldl fun _ _ h5 => h5.memWrite.ite h5.modArr

theorem Calm.startRecords (h : Calm s u) {m acc} : Calm s (u.startRecords m acc) := h.foldl fun _ _ h2 => h2.setChanRec

theorem Calm.freeRecords (h : Calm s u) {acc} : Calm s (u.freeRecords acc) := h.plain

theorem Calm.writeShelves (h : Calm s u) {m} : Calm s (u.writeShelves m) :=
  h.foldl fun _ _ h2 => h2.foldl fun _ _ h4 => h4.foldl fun _ _ h6 => h6.modArr

theorem Calm.queueInstalls (h : Calm s u) {old m acc kind} : Calm s (u.queueInstalls old m acc kind) := by
  unfold State.queueInstalls
  refine h.foldl fun v1 _ h3 => ?_
  extract_lets
  exact h3.ite h3.modArr.put

theorem Calm.dropStaged (h : Calm s u) : Calm s u.dropStaged := by
  unfold State.dropStaged
  split
  · exact h.plain.setSlotState
  · exact h

theorem Calm.stageRequest (h : Calm s u) {k mode} : OnOk (Calm s) (u.stageRequest k mode) := by
  unfold State.stageRequest
  split
  · trivial
  · split
    · trivial
    · split
      · trivial
      · split
        · trivial
        · split
          · trivial
          · extract_lets _ _ _ _ v1 _ v2
            have hv1 : Calm s v1 := h.dropStaged.writeTables
            have hv2 : Calm s v2 := hv1.plain
            split
            · trivial
            · split
              · exact hv2.queueInstalls
              · exact hv2.setSlotState

theorem Calm.modelCommit (h : Calm s u) {v} : OnOk (Calm s) (u.modelCommit v) := by
  unfold State.modelCommit
  split
  · split
    · exact h.plain
    · trivial
  · split
    · trivial
    · split
      · trivial
      · extract_lets
        split
        · trivial
        · split
          · exact h.plain
          · trivial

theorem Calm.ruleCommit (h : Calm s u) {v} : OnOk (Calm s) (u.ruleCommit v) := by
  unfold State.ruleCommit
  split
  · split
    · exact h.plain
    · trivial
  · split
    · trivial
    · split
      · trivial
      · split
        · trivial
        · split
          · trivial
          · exact h.plain

theorem Calm.applyRule (h : Calm s u) {v} : Calm s (u.applyRule v) := by
  unfold State.applyRule
  extract_lets _ _ _ _ _ v1 v2 _ v3
  have hv1 : Calm s v1 := h.plain
  have hv2 : Calm s v2 := hv1.put.put
  have hv3 : Calm s v3 := hv2.plain.ite hv2
  exact hv3.fwMarker

/-- The committed values of a group stand in the dictionary. -/
theorem Calm.putStaged (h : Calm s u) {l : List (Nat × Nat)} :
    Calm s (l.foldl (fun u e => { u with dict := Sparse.write objDefault u.dict e.1 (e.2 - 1) }) u) :=
  h.foldl fun _ _ hv => hv.set_dict Sparse.write_wf

theorem Calm.applyModel (h : Calm s u) {v} : Calm s (u.applyModel v) := by
  unfold State.applyModel
  split
  · exact h.plain
  · rename_i m0 _
    extract_lets m old ripple mine due v1 _ _ v2 v3 v4 v5 v6 _ v7
    have hv1 : Calm s v1 := h.putStaged
    have hstaged : Calm s { v1 with staged := v1.staged.filter fun e => !(mine e) } := hv1.set_staged (Sparse.filter_wf _)
    have hv2 : Calm s v2 := hstaged.plain
    have hv3 : Calm s v3 := hv2.put.put
    clear_value v3 old
    have hv4 : Calm s v4 := by
      unfold v4
      split
      · exact hv3.setSlotState
      · exact hv3
    have hv5 : Calm s v5 := hv4.setSlotState.startRecords
    have hv6 : Calm s v6 := .ite hv5.queueInstalls hv5
    have hv7 : Calm s v7 := .ite hv6.plain hv6
    exact hv7.tapRetire.fwMarker

theorem Calm.applyDue (h : Calm s u) : Calm s u.applyDue := by
  unfold State.applyDue
  extract_lets v1
  have hv1 : Calm s v1 := by
    unfold v1
    split
    · exact h.applyRule
    · exact h
  split
  · exact hv1.applyModel
  · exact hv1

theorem Calm.retireModel (h : Calm s u) {m} : Calm s (u.retireModel m) := by
  unfold State.retireModel
  extract_lets v1 _ v2 v3
  have hv1 : Calm s v1 := h.freeRecords.setSlotState
  have hv2 : Calm s v2 := hv1.plain
  have hv3 : Calm s v3 := hv2.put.bump.raise
  exact hv3.fwMarker

theorem Calm.retireRule (h : Calm s u) {b} : Calm s (u.retireRule b) := by
  unfold State.retireRule
  extract_lets _ _ v1 v2
  have hv1 : Calm s v1 := h.plain
  have hv2 : Calm s v2 := hv1.put.bump.raise
  exact hv1.ite hv2.fwMarker

theorem Calm.killQueued (h : Calm s u) {a r acc fuel i} : Calm s (u.killQueued a r acc fuel i) := by
  induction fuel generalizing u i with
  | zero => exact h
  | succ fuel ih =>
    unfold State.killQueued
    extract_lets mine v w
    have hv : Calm s v := h.modArr.bump
    have hw : Calm s w := by
      unfold w
      split
      · split
        · exact hv.discardBuf
        · exact hv
      · exact h
    exact .ite h (ih hw)

theorem Calm.killRing (h : Calm s u) {a r acc} : Calm s (u.killRing a r acc) := by
  unfold State.killRing
  extract_lets v1
  have hv1 : Calm s v1 := h.killQueued
  exact hv1.ite hv1.passDead

theorem Calm.killFiring (h : Calm s u) {t acc} : Calm s (u.killFiring t acc) := by
  unfold State.killFiring
  split
  · exact h.setTrig.bump.dropTap.ite h
  · exact h

theorem Calm.forceModel (h : Calm s u) {acc} : Calm s (u.forceModel acc) := by
  unfold State.forceModel
  extract_lets v1 v2 v3
  have hv1 : Calm s v1 := by
    unfold v1
    refine h.foldl fun v4 _ h8 => ?_
    extract_lets v5
    have hv5 : Calm s v5 := h8.foldl fun _ _ h12 => h12.abandonRun.ite h12
    exact hv5.foldl fun _ _ h14 => h14.killRing
  have hv2 : Calm s v2 := hv1.foldl fun _ _ h16 => h16.killFiring
  have hv3 : Calm s v3 := by
    unfold v3
    refine hv2.foldl fun v6 _ h21 => ?_
    extract_lets v7
    have hv7 : Calm s v7 := h21.discardBuf.ite h21
    exact hv7.discardBuf.ite hv7
  exact hv3.releaseAll

theorem Calm.forceRetire (h : Calm s u) {v} : OnOk (Calm s) (u.forceRetire v) := by
  unfold State.forceRetire
  split
  · split
    · exact h.forceModel
    · exact h
  · split
    · exact h.releaseAll
    · exact h
  · trivial

theorem Calm.restoreImage (h : Calm s u) {p} : Calm s (u.restoreImage p) := by
  unfold State.restoreImage
  split
  · exact h
  · extract_lets v1 _ v2
    have hv1 : Calm s v1 := h.beginImage
    have hv2 : Calm s v2 := hv1.memWrite
    split
    · exact hv1
    · split
      · exact hv2.slotPasses
      · exact ((hv2.verifyFailed.ite hv2).emptySlot).put

theorem Calm.restoreModel (h : Calm s u) : Calm s u.restoreModel := by
  unfold State.restoreModel
  split
  · exact h
  · split
    · exact h
    · extract_lets _ v1 _ v2
      have hv1 : Calm s v1 := h.writeTables.writeShelves.startRecords
      have hv2 : Calm s v2 := hv1.plain
      exact hv2.put.setSlotState

theorem Calm.restoreRules (h : Calm s u) : Calm s u.restoreRules := by
  unfold State.restoreRules
  split
  · exact h
  · split
    · exact h.plain.put
    · exact h.verifyFailed.ite h

theorem Calm.restoreLibrary (h : Calm s u) : Calm s u.restoreLibrary :=
  ((h.foldl fun _ _ h2 => h2.restoreImage).restoreModel).restoreRules

/-! ## Machine/Reliability -/

theorem Calm.abandonPaired (h : Calm s u) {a} : Calm s (u.abandonPaired a) := by
  unfold State.abandonPaired
  split
  · split
    · exact h.abandonRun
    · exact h
  · exact h

theorem execArrayIslandFault_calm (h : Calm s u) {a source t} : OnNext (Calm s) (execArrayIslandFault a source t u) := by
  unfold execArrayIslandFault
  extract_lets v1 v2 _ _ v3
  have hv1 : Calm s v1 := h.at
  have hv2 : Calm s v2 := hv1.modArr.abandonPaired
  have hv3 : Calm s v3 := hv2.requestDump
  split
  · exact hv3.suspectUnit
  · exact hv1

theorem execScrubPassStart_calm (h : Calm s u) {t} : OnNext (Calm s) (execScrubPassStart t u) := by
  unfold execScrubPassStart
  extract_lets v1
  have hv1 : Calm s v1 := h.at
  split
  · exact hv1.plain
  · exact hv1

theorem Calm.retract (h : Calm s u) {u' g} : Calm s (u.retract u' g) := by
  unfold State.retract
  split
  · exact h.foldl fun _ _ h2 => h2.originate.bump.ite h2

theorem Calm.mismatch (h : Calm s u) {u' g} : Calm s (u.mismatch u' g) := by
  unfold State.mismatch
  extract_lets x1 v1 x3 v2
  have hv1 : Calm s v1 := h.bump.retract
  have hv2 : Calm s v2 := by
    unfold v2
    clear_value x1 v1 x3 v2
    split
    · exact hv1.plain
    · exact hv1
    · exact hv1
  exact hv2.suspectUnit

theorem Calm.noteGood (h : Calm s u) {p} : Calm s (u.noteGood p) := by
  unfold State.noteGood
  extract_lets _ v1
  have hv1 : Calm s v1 := h.plain
  split
  · exact hv1.put
  · exact hv1.put
  · exact hv1

theorem execScrubPassEnd_calm {x bad t s} : OnNext (Calm s) (execScrubPassEnd x bad t s) := by
  unfold execScrubPassEnd
  -- The limit stays a variable: the kernel would count the number down.
  obtain ⟨limit, hlimit⟩ : ∃ n, n = 60000 := ⟨_, rfl⟩
  rw [← hlimit]
  extract_lets u
  have hu : Calm s u := (Calm.refl s).at
  clear_value u
  split
  · exact hu
  · rename_i p _
    split
    · exact hu
    · rename_i _ v w _ _ _
      have hv : Calm s v := hu.plain
      have hw : Calm s w := hv.bump
      clear_value w
      extract_lets late y
      have hy : Calm s y := .ite hw.bump.errorRecord hw
      clear_value y
      split
      · exact hy.noteGood
      · exact hy.foldl fun _ _ h1 => h1.mismatch

theorem Calm.scanRequest (h : Calm s u) {mask} : OnOk (Calm s) (u.scanRequest mask) := by
  unfold State.scanRequest
  split
  · trivial
  · split
    · trivial
    · extract_lets _ _ v1
      have hv1 : Calm s v1 := h.plain
      exact hv1.foldl fun _ _ h5 => h5.put

theorem execFieldScanStart_calm (h : Calm s u) {a t} : OnNext (Calm s) (execFieldScanStart a t u) := by
  unfold execFieldScanStart
  extract_lets v1
  have hv1 : Calm s v1 := h.at
  split
  · split
    · extract_lets v2 v3 v4
      have hv2 : Calm s v2 := hv1.plain
      have hv3 : Calm s v3 := hv2.setPower.put
      have hv4 : Calm s v4 := hv3.modArr
      exact hv4.fwMarker
    · exact hv1
  · exact hv1

theorem execFieldScanComplete_calm (h : Calm s u) {a pass pattern chains t} :
    OnNext (Calm s) (execFieldScanComplete a pass pattern chains t u) := by
  unfold execFieldScanComplete
  extract_lets v1 _ v2 v3 v4
  have hv1 : Calm s v1 := h.at
  have hv2 : Calm s v2 := hv1.plain
  have hv3 : Calm s v3 := hv2.modArr
  have hv4 : Calm s v4 := hv3.plain
  split
  · split
    · rename_i y6 y7 v5 y9
      have hv5 : Calm s v5 := hv4.delivered.of_snd y9
      extract_lets v6 v7 v8 v9
      have hv6 : Calm s v6 := hv5.bumpBy.setPower
      have hv7 : Calm s v7 := hv6.put
      have hv8 : Calm s v8 := hv7.gapRecord
      have hv9 : Calm s v9 := hv8.fwMarker
      split
      · exact hv9.put
      · exact hv9.suspectUnit
  · exact hv1

theorem Calm.clearReplacement (h : Calm s u) {inSession v} : OnOk (Calm s) (u.clearReplacement inSession v) := by
  unfold State.clearReplacement
  split
  · exact h
  · split
    · exact h.plain
    · trivial

theorem execFabricResidualCheck_calm (h : Calm s u) {t} : OnNext (Calm s) (execFabricResidualCheck t u) := by
  unfold execFabricResidualCheck
  extract_lets v1 _ _ _ _ v2
  have hv1 : Calm s v1 := h.at
  have hv2 : Calm s v2 := hv1.plain
  split
  · split
    · exact hv2.put.alert
    · split
      · exact hv2.put.alert
      · exact hv2
  · exact hv1

/-! ## Machine/CueCtl -/

theorem execWait_calm (h : Calm s u) {a c t} : OnNext (Calm s) (execWait a c t u) := by
  unfold execWait
  extract_lets v1
  have hv1 : Calm s v1 := h.at
  refine hv1.issue fun v2 r ws x h2 => ?_
  extract_lets _ _ _ _ _ v3
  have hv3 : Calm s v3 := h2.set_sync
  exact hv3.modRun.showRun

theorem execWaitComplete_calm (h : Calm s u) {light t} : OnNext (Calm s) (execWaitComplete light t u) := by
  unfold execWaitComplete
  extract_lets v1
  have hv1 : Calm s v1 := h.at
  split
  · exact hv1
  · split
    · split
      · exact hv1
      · extract_lets v2 v3 v4
        have hv2 : Calm s v2 := hv1.leaveQueue
        have hv3 : Calm s v3 := hv2.ite hv2.setLight
        have hv4 : Calm s v4 := hv3.modRun
        exact hv4.progress.serveTaps
    · exact hv1

theorem execSignal_calm (h : Calm s u) {a c t} : OnNext (Calm s) (execSignal a c t u) := by
  unfold execSignal
  extract_lets v1
  have hv1 : Calm s v1 := h.at
  refine hv1.issue fun v2 r ws x h2 => ?_
  extract_lets
  exact h2.modRun.progress

theorem execFence_calm (h : Calm s u) {a c t} : OnNext (Calm s) (execFence a c t u) := by
  unfold execFence
  extract_lets v1
  have hv1 : Calm s v1 := h.at
  refine hv1.issue fun v2 r ws x h2 => ?_
  extract_lets
  split
  · exact h2.modRun.showRun
  · exact h2.progress

theorem execFenceComplete_calm (h : Calm s u) {a t} : OnNext (Calm s) (execFenceComplete a t u) := by
  unfold execFenceComplete
  extract_lets v1
  have hv1 : Calm s v1 := h.at
  split
  · exact hv1
  · split
    · split
      · exact hv1.modRun.progress
      · exact hv1
    · exact hv1

theorem execHold_calm (h : Calm s u) {a c t} : OnNext (Calm s) (execHold a c t u) := by
  unfold execHold
  extract_lets v1
  have hv1 : Calm s v1 := h.at
  refine hv1.issue fun v2 r ws x h2 => ?_
  extract_lets
  split
  · exact h2.progress
  · exact h2.modRun.showRun

theorem execHoldComplete_calm (h : Calm s u) {a t} : OnNext (Calm s) (execHoldComplete a t u) := by
  unfold execHoldComplete
  extract_lets v1
  have hv1 : Calm s v1 := h.at
  split
  · exact hv1
  · split
    · split
      · exact hv1.modRun.progress
      · exact hv1
    · exact hv1

theorem execLoop_calm (h : Calm s u) {a c t} : OnNext (Calm s) (execLoop a c t u) := by
  unfold execLoop
  extract_lets v1
  have hv1 : Calm s v1 := h.at
  refine hv1.issue fun v2 r ws x h2 => ?_
  extract_lets
  split
  · split
    · exact h2.modRun.progress
    · exact hv1
    · trivial
  · split
    · trivial
    · exact h2.modRun.progress

theorem execEndloop_calm (h : Calm s u) {a c t} : OnNext (Calm s) (execEndloop a c t u) := by
  unfold execEndloop
  extract_lets v1
  have hv1 : Calm s v1 := h.at
  refine hv1.issue fun v2 r ws x h2 => ?_
  split
  · split
    · exact h2.modRun.progress
    · exact h2.modRun.progress
  · trivial
  · trivial

theorem execCall_calm (h : Calm s u) {a c t} : OnNext (Calm s) (execCall a c t u) := by
  unfold execCall
  extract_lets v1
  have hv1 : Calm s v1 := h.at
  refine hv1.issue fun v2 r ws x h2 => ?_
  split
  · trivial
  · exact h2.modRun.progress

theorem execRet_calm (h : Calm s u) {a c t} : OnNext (Calm s) (execRet a c t u) := by
  unfold execRet
  extract_lets v1
  have hv1 : Calm s v1 := h.at
  refine hv1.issue fun v2 r ws x h2 => ?_
  split
  · exact h2.modRun.progress
  · trivial
  · split
    · exact h2.modRun.progress
    · trivial

theorem execRestart_calm (h : Calm s u) {a c t} : OnNext (Calm s) (execRestart a c t u) := by
  unfold execRestart
  extract_lets v1
  have hv1 : Calm s v1 := h.at
  refine hv1.issue fun v2 r ws x h2 => ?_
  exact h2.restartHere.progress

theorem execMark_calm (h : Calm s u) {a c t} : OnNext (Calm s) (execMark a c t u) := by
  unfold execMark
  extract_lets v1
  have hv1 : Calm s v1 := h.at
  refine hv1.issue fun v2 r ws x h2 => ?_
  extract_lets _ v3
  have hv3 : Calm s v3 := h2.logRecord
  exact (hv3.tracePulse.ite hv3).progress

theorem execUnmark_calm (h : Calm s u) {a c t} : OnNext (Calm s) (execUnmark a c t u) := by
  unfold execUnmark
  extract_lets v1
  have hv1 : Calm s v1 := h.at
  refine hv1.issue fun v2 r ws x h2 => ?_
  exact h2.logRecord.progress

theorem execCueLightSignal_calm (h : Calm s u) {r light v} : OnNext (Calm s) (execCueLightSignal r light v u) := by
  unfold execCueLightSignal
  refine h.at.serveWrite fun v1 h1 => ?_
  exact h1.addLight

theorem execCueLightTriggerFire_calm (h : Calm s u) {trig t} : OnNext (Calm s) (execCueLightTriggerFire trig t u) := by
  unfold execCueLightTriggerFire
  extract_lets v1 _ _ _ _ v2
  have hv1 : Calm s v1 := h.at
  have hv2 : Calm s v2 := hv1.setLight.setTrig
  split
  · exact hv2.fireTrig
  · exact hv1

theorem Calm.fireWrite (h : Calm s u) {x v} : OnOk (Calm s) (u.fireWrite x v) := by
  unfold State.fireWrite
  split
  · trivial
  · exact h.fireTrig

theorem execFire_calm (h : Calm s u) {r trig v} : OnNext (Calm s) (execFire r trig v u) := by
  unfold execFire
  refine h.at.serveWrite fun v1 h1 => ?_
  exact h1.fireWrite

theorem execClockTriggerFire_calm (h : Calm s u) {trig t} : OnNext (Calm s) (execClockTriggerFire trig t u) := by
  unfold execClockTriggerFire
  extract_lets v1 _ _ _ _ _ _ _ v2 v3
  have hv1 : Calm s v1 := h.at
  have hv2 : Calm s v2 := hv1.setTrig
  have hv3 : Calm s v3 := hv2.bumpBy
  split
  · split
    · exact hv3.fireTrig
    · exact hv1
  · exact hv1

theorem execPendingFiringAppend_calm (h : Calm s u) {trig t} : OnNext (Calm s) (execPendingFiringAppend trig t u) := by
  unfold execPendingFiringAppend
  extract_lets v1
  have hv1 : Calm s v1 := h.at
  split
  · exact hv1
  · exact hv1.appendWaiting

theorem Calm.passTail (h : Calm s u) {a r ending} : Calm s (u.passTail a r ending) := by
  unfold State.passTail
  split
  · extract_lets _ v1
    have hv1 : Calm s v1 := h.modArr.ite h
    exact hv1.modArr.ite hv1.put
  · exact h

theorem Calm.postHost (h : Calm s u) {a r cue} : OnOk (Calm s) (u.postHost a r cue) := by
  unfold State.postHost
  split
  · trivial
  · split
    · trivial
    · split
      · trivial
      · extract_lets _ _ v1
        have hv1 : Calm s v1 := h.append.modArr
        exact hv1.passTail

theorem execPostCue_calm (h : Calm s u) {r a ring cue} : OnNext (Calm s) (execPostCue r a ring cue u) := by
  unfold execPostCue
  refine h.at.serveWrite fun v1 h1 => ?_
  exact h1.postHost

theorem Calm.clearProbed (h : Calm s u) {v} : Calm s (u.clearProbed v) := by
  unfold State.clearProbed
  split
  · extract_lets
    exact h.setChanRec
  · exact h

theorem execClearFallback_calm (h : Calm s u) {r} : OnNext (Calm s) (execClearFallback r u) := by
  unfold execClearFallback
  refine h.at.serveWrite fun v1 h1 => ?_
  exact h1.clearProbed

/-! ## Machine/FabricOps -/

theorem Calm.flood (h : Calm s u) : Calm s u.flood := h.emit

theorem Calm.modPort (h : Calm s u) {f g} : Calm s (u.modPort f g) := h.plain

theorem Calm.sendFlit (h : Calm s u) {f x} : Calm s (u.sendFlit f x) := by
  unfold State.sendFlit
  extract_lets _ _ v1
  have hv1 : Calm s v1 := h.modPort
  exact hv1.emit.bump

theorem Calm.atomic (h : Calm s u) {offset f} : Calm s (u.atomic offset f).2 := by
  unfold State.atomic
  extract_lets
  exact h.countRead.memWrite

theorem Calm.doorbell (h : Calm s u) {src d} : Calm s (u.doorbell src d).2 := by
  unfold State.doorbell
  split
  · exact h.bump
  · split
    · exact h.addLight
    · extract_lets
      split
      · exact h.fireTrig
      · exact h.bump

theorem Calm.ringBell (h : Calm s u) {x} : Calm s (u.ringBell x) := by
  unfold State.ringBell
  split
  · rename_i y1 y2 v1 y4
    have hv1 : Calm s v1 := h.doorbell.of_snd y4
    exact hv1.emit

theorem Calm.ringBells (h : Calm s u) : Calm s u.ringBells := h.plain.foldl fun _ _ h2 => h2.ringBell

theorem Calm.localWrite (h : Calm s u) {o bs} : Calm s (u.localWrite o bs) := h.wingsPlain.ite h.memWrite

theorem Calm.ownReply (h : Calm s u) {o} : Calm s (u.ownReply o).2 := by
  unfold State.ownReply
  extract_lets
  split
  · split
    · exact h.bump
    · exact h.countRead
  · split
    · exact h.bump
    · exact (h.ite h.countRead).memWrite
  · split
    · exact h.bump
    · split
      · rename_i y3 y4 v1 y6
        have hv1 : Calm s v1 := h.atomic.of_snd y6
        exact hv1
  · split
    · exact h.bump
    · split
      · rename_i y7 y8 v2 y10
        have hv2 : Calm s v2 := h.atomic.of_snd y10
        exact hv2
  · exact h.countRead

theorem Calm.sendChunk (h : Calm s u) {id op dest off len chunk data} : Calm s (u.sendChunk id op dest off len chunk data) := by
  unfold State.sendChunk
  split
  · rename_i y1 y2 v1 y4
    have hv1 : Calm s v1 := h.route.of_snd y4
    exact hv1.emit

theorem Calm.sendChunks (h : Calm s u) {id op d off n c b fuel} : Calm s (u.sendChunks id op d off n c b fuel) :=
  h.within (u.sendChunks_within _ _ _ _ _ _ _ _)

theorem Calm.copyOut (h : Calm s u) {o data} : Calm s (u.copyOut o data) := h.sendChunks

theorem Calm.slipData (h : Calm s u) {o data} : Calm s (u.slipData o data) := by
  unfold State.slipData
  split
  · exact h.localWrite
  · exact h.wingsPlain
  · exact h.wingsPlain
  · exact h.memWrite.ite (h.ite h.copyOut)
  · exact h

theorem Calm.slipStatus (h : Calm s u) {o st} : Calm s (u.slipStatus o st) := h.wingsPlain

theorem Calm.dropOp (h : Calm s u) {id} : Calm s (u.dropOp id) := h.plain

theorem Calm.slipFails (h : Calm s u) {o st} : Calm s (u.slipFails o st) := by
  unfold State.slipFails
  extract_lets _ v1
  have hv1 : Calm s v1 := h.plain
  split
  · exact hv1
  · extract_lets v2 _ v3
    have hv2 : Calm s v2 := hv1.modArr
    have hv3 : Calm s v3 := hv2.bump
    exact hv2.abandonRun.ite (hv2.abortToRestart.ite (hv3.abandonRun.ite hv3.modArr))

theorem Calm.slipDone (h : Calm s u) {o st data} : Calm s (u.slipDone o st data) := by
  unfold State.slipDone
  extract_lets v1 v2 v3 v4 v5 v6
  have hv1 : Calm s v1 := h.bump.dropOp
  have hv2 : Calm s v2 := hv1.slipData.ite hv1
  have hv3 : Calm s v3 := hv2.slipStatus
  have hv4 : Calm s v4 := by
    unfold v4
    split
    · exact hv3.addLight
    · exact hv3
  have hv5 : Calm s v5 := hv4.modArr
  have hv6 : Calm s v6 := hv3.errorRecord
  exact (hv4.ite hv5.land).ite (hv6.ite hv6.slipFails)

theorem Calm.markSent (h : Calm s u) {id} : Calm s (u.markSent id) := by
  unfold State.markSent
  extract_lets
  exact h.plain

theorem Calm.sendSlip (h : Calm s u) {o} : Calm s (u.sendSlip o) := by
  unfold State.sendSlip
  extract_lets _ v1 v2
  have hv1 : Calm s v1 := h.markSent
  have hv2 : Calm s v2 := hv1.countRead.ite hv1
  exact h.slipDone.ite (h.slipDone.ite (h.slipDone.ite (hv1.ite ((hv1.countRead.copyOut.ite hv1.sendChunks).ite hv2.sendChunk))))

theorem Calm.sendSlips (h : Calm s u) {group n} : Calm s (u.sendSlips group n) := by
  induction n generalizing u with
  | zero => exact h
  | succ n ih =>
    unfold State.sendSlips
    split
    · exact h
    · exact ih h.sendSlip

theorem Calm.queueSlips (h : Calm s u) {a l x o c q g n} : Calm s (u.queueSlips a l x o c q g n) :=
  h.within (u.queueSlips_within _ _ _ _ _ _ _ _)

/-! ## Machine/RingOps -/

theorem Calm.setMgmtLink (h : Calm s u) {i b} : Calm s (u.setMgmtLink i b) := h.plain.ite h.plain

theorem Calm.forward (h : Calm s u) {i f} : Calm s (u.forward i f) := by
  unfold State.forward
  split
  · exact h
  · split
    · exact h.bump
    · extract_lets
      exact h.emit.bump

theorem Calm.takePosition (h : Calm s u) {f} : Calm s (u.takePosition f) := by
  unfold State.takePosition
  extract_lets
  exact (h.ite h.plain.put).ite (h.ite h.plain.put)

theorem Calm.cyclicStart (h : Calm s u) : Calm s u.cyclicStart := by
  unfold State.cyclicStart
  split
  · exact h
  · rename_i m _
    extract_lets v
    have hv : Calm s v := h.putStaged
    clear_value v
    exact hv.plain.commitMark

theorem Calm.masterConflict (h : Calm s u) {other} : Calm s (u.masterConflict other) := by
  unfold State.masterConflict
  extract_lets _ _ v1
  have hv1 : Calm s v1 := h.plain
  exact hv1.raise.ite hv1

theorem Calm.setRingMaster (h : Calm s u) {v} : OnOk (Calm s) (u.setRingMaster v) := by
  unfold State.setRingMaster
  split
  · trivial
  · exact h.plain.put

theorem Calm.setCyclePeriod (h : Calm s u) {v} : OnOk (Calm s) (u.setCyclePeriod v) := by
  unfold State.setCyclePeriod
  split
  · trivial
  · exact h.put

theorem Calm.cyclicCommit (h : Calm s u) {v} : OnOk (Calm s) (u.cyclicCommit v) := by
  unfold State.cyclicCommit
  split
  · exact h
  · extract_lets mine due v outs ins
    have hw : Calm s { u with staged := u.staged.filter fun e => !(mine e) } := h.set_staged (Sparse.filter_wf _)
    clear_value v outs ins
    split
    · trivial
    · trivial
    · split
      · trivial
      · exact hw.plain

/-! ## Machine/Store -/

theorem Calm.skipEntry (h : Calm s u) {e} : Calm s (u.skipEntry e) := by
  unfold State.skipEntry
  split
  · rename_i y1 y2 v1 y4
    have hv1 : Calm s v1 := h.fresh.of_snd y4
    extract_lets
    split
    · rename_i y7 y8 y9 v2 y11
      have hv2 : Calm s v2 := hv1.readings.of_snd_snd y11
      extract_lets
      exact hv2.plain

theorem Calm.putConfig (h : Calm s u) {cfg} : Calm s (u.putConfig cfg) := by
  refine h.set_dict fun hd => ?_
  revert hd
  generalize u.dict = m
  induction cfg generalizing m with
  | nil => exact id
  | cons e cfg ih => exact fun hd => ih _ (Sparse.write_wf hd)

theorem Calm.applyConfig (h : Calm s u) : Calm s u.applyConfig := by
  unfold State.applyConfig
  split
  · extract_lets _ _ v1
    have hv1 : Calm s v1 := h.plain
    exact hv1.putConfig
  · extract_lets _ _ _ _ v2
    have hv2 : Calm s v2 := h.foldl fun _ _ h10 => h10.skipEntry
    exact hv2.putConfig

theorem Calm.storeConfig (h : Calm s u) {b} : OnOk (Calm s) (u.storeConfig b) := by
  unfold State.storeConfig
  split
  · trivial
  · exact h.plain

theorem Calm.startSave (h : Calm s u) {a} : OnOk (Calm s) (u.startSave a) := by
  unfold State.startSave
  split
  · trivial
  · exact h.plain

theorem Calm.serveSave (h : Calm s u) {r data} : Calm s (u.serveSave r data) := by
  unfold State.serveSave
  refine h.receive fun v1 h1 => ?_
  extract_lets
  split
  · exact h1.answer
  · split
    · exact h1.answer
    · split
      · exact h1
      · split
        · exact h1.answer
        · rename_i y5 v2 y7
          have hv2 : Calm s v2 := h1.startSave.of_eq y7
          exact hv2

theorem execSaveConfiguration_calm (h : Calm s u) {r} : OnNext (Calm s) (execSaveConfiguration r u) := h.at.serveSave

theorem execSaveComplete_calm (h : Calm s u) {t} : OnNext (Calm s) (execSaveComplete t u) := by
  unfold execSaveComplete
  extract_lets v1
  have hv1 : Calm s v1 := h.at
  split
  · exact hv1
  · split
    · extract_lets v2
      have hv2 : Calm s v2 := hv1.plain
      exact hv2.answer
    · exact hv1

/-! ## Machine/TransferOps -/

theorem Calm.setFwSlot (h : Calm s u) {k x} : Calm s (u.setFwSlot k x) := h.plain.ite h.plain

theorem Calm.returnPreference (h : Calm s u) {k} : Calm s (u.returnPreference k) := by
  unfold State.returnPreference
  split
  · exact h.plain.ite h
  · exact h

theorem Calm.downloadBegin (h : Calm s u) {idx size} : Calm s (u.downloadBegin idx size) :=
  h.returnPreference.setFwSlot.ite (h.voidPersisted.beginImage.ite (h.plain.ite h))

theorem Calm.downloadAborted (h : Calm s u) {idx} : Calm s (u.downloadAborted idx) := h.emptySlot.ite (h.plain.ite h)

theorem Calm.takeRuleSet (h : Calm s u) {b} : OnOk (Calm s) (u.takeRuleSet b) := by
  unfold State.takeRuleSet
  split
  · trivial
  · split
    · extract_lets
      exact h.plain
    · trivial

theorem Calm.downloadDone (h : Calm s u) {idx sub content} : OnOk (Calm s) (u.downloadDone idx sub content) := by
  unfold State.downloadDone
  split
  · exact h.setFwSlot
  · split
    · exact h.memWrite
    · split
      · exact h.plain
      · split
        · exact h.storeConfig
        · split
          · exact h.plain
          · split
            · exact h.takeRuleSet
            · exact h

theorem Calm.downloadRefused (h : Calm s u) {idx code} : Calm s (u.downloadRefused idx code) :=
  (h.verifyFailed.ite h).downloadAborted

theorem execFirmwareSlotVerify_calm (h : Calm s u) {slot t} : OnNext (Calm s) (execFirmwareSlotVerify slot t u) := by
  unfold execFirmwareSlotVerify
  extract_lets v1
  have hv1 : Calm s v1 := h.at
  split
  · split
    · exact hv1.setFwSlot
    · exact hv1.verifyFailed.setFwSlot
  · exact hv1

theorem execScanContentVerify_calm (h : Calm s u) {t} : OnNext (Calm s) (execScanContentVerify t u) := by
  unfold execScanContentVerify
  extract_lets v1 _ v2
  have hv1 : Calm s v1 := h.at
  have hv2 : Calm s v2 := hv1.verifyFailed
  split
  · exact hv1
  · split
    · exact hv1
    · split
      · exact hv1.plain
      · exact hv2.plain

/-! ## Machine/Trust -/

theorem Calm.ownerHashWrite (h : Calm s u) {v} : OnOk (Calm s) (u.ownerHashWrite v) := by
  unfold State.ownerHashWrite
  split
  · trivial
  · split
    · trivial
    · exact h.set_trust (hblown := ⟨Nat.and_self _, fun _ => rfl, id, fun _ => Nat.le_refl _⟩)

theorem Calm.ownerHashConfirm (h : Calm s u) {v} : OnOk (Calm s) (u.ownerHashConfirm v) := by
  unfold State.ownerHashConfirm
  split
  · trivial
  · rename_i hset
    split
    · trivial
    · split
      · refine h.set_trust (hblown := ⟨Nat.and_self _, fun hne => absurd ?_ hset, id, fun _ => Nat.le_refl _⟩)
        simpa [Trust.ownerSet] using hne
      · trivial

theorem execOwnerKeyHashConfirm_calm (h : Calm s u) {r hash} : OnNext (Calm s) (execOwnerKeyHashConfirm r hash u) := by
  unfold execOwnerKeyHashConfirm
  refine h.at.serveWrite fun v1 h1 => ?_
  exact h1.ownerHashConfirm

theorem Calm.enforcementProgram (h : Calm s u) {mask} : OnOk (Calm s) (u.enforcementProgram mask) := by
  unfold State.enforcementProgram
  split
  · trivial
  · split
    · trivial
    · refine h.set_trust (hblown := ⟨?_, fun _ => rfl, id, fun _ => Nat.le_refl _⟩)
      apply Nat.eq_of_testBit_eq
      simpa using fun _ hbit => .inl hbit

theorem execEnforcementProgram_calm (h : Calm s u) {r mask} : OnNext (Calm s) (execEnforcementProgram r mask u) := by
  unfold execEnforcementProgram
  refine h.at.serveWrite fun v1 h1 => ?_
  exact h1.enforcementProgram

theorem Calm.eraseBelow (h : Calm s u) {k} : Calm s (u.eraseBelow k) := h.emptySlot.voidPersisted

/-- A write of a value no lower than the one listed lowers no entry, whatever the form of the table. -/
theorem Sparse.read_le_read_write {m : Sparse Nat} {x v : Nat} (h : Sparse.read (fun _ => 0) m x ≤ v) (c : Nat) :
    Sparse.read (fun _ => 0) m c ≤ Sparse.read (fun _ => 0) (Sparse.write (fun _ => 0) m x v) c := by
  by_cases hc : c = x
  · subst hc
    rcases Nat.eq_zero_or_pos v with rfl | hv
    · omega
    · rwa [Sparse.read_write_of_ne_default m (Nat.ne_of_gt hv)]
  · exact Nat.le_of_eq (Sparse.read_write_ne hc).symm

theorem Calm.raiseCounter (h : Calm s u) {c} : OnOk (Calm s) (u.raiseCounter c) := by
  unfold State.raiseCounter
  split
  · trivial
  · split
    · trivial
    · refine Calm.raise (Calm.foldl (h.set_trust (hblown := ?_) (hform := Sparse.write_wf)) fun _ _ hv => hv.eraseBelow)
      exact ⟨Nat.and_self _, fun _ => rfl, fun hr => by simp [hr], Sparse.read_le_read_write (Nat.le_max_left _ _)⟩

theorem execRaiseCounter_calm (h : Calm s u) {r c} : OnNext (Calm s) (execRaiseCounter r c u) := by
  unfold execRaiseCounter
  refine h.at.serveWrite fun v1 h1 => ?_
  exact h1.raiseCounter

theorem Calm.activateSlot (h : Calm s u) {k} : OnOk (Calm s) (u.activateSlot k) := by
  unfold State.activateSlot
  split
  · trivial
  · extract_lets
    exact h.plain

theorem execActivateFirmwareSlot_calm (h : Calm s u) {r slot} : OnNext (Calm s) (execActivateFirmwareSlot r slot u) := by
  unfold execActivateFirmwareSlot
  refine h.at.serveWrite fun v1 h1 => ?_
  exact h1.activateSlot

theorem Calm.confirmFirmware (h : Calm s u) {v} : OnOk (Calm s) (u.confirmFirmware v) := by
  unfold State.confirmFirmware
  split
  · exact h.plain
  · exact h

theorem execConfirmFirmware_calm (h : Calm s u) {r} : OnNext (Calm s) (execConfirmFirmware r u) := by
  unfold execConfirmFirmware
  refine h.at.serveWrite fun v1 h1 => ?_
  exact h1.confirmFirmware

theorem Calm.attestationNonce (h : Calm s u) {nonce} : OnOk (Calm s) (u.attestationNonce nonce) := by
  unfold State.attestationNonce
  split
  · trivial
  · exact h.set_trust

theorem execAttestationNonce_calm (h : Calm s u) {r nonce} : OnNext (Calm s) (execAttestationNonce r nonce u) := by
  unfold execAttestationNonce
  refine h.at.serveWrite fun v1 h1 => ?_
  exact h1.attestationNonce

theorem execAttestationReportReady_calm (h : Calm s u) {t} : OnNext (Calm s) (execAttestationReportReady t u) := by
  unfold execAttestationReportReady
  extract_lets v1
  have hv1 : Calm s v1 := h.at
  split
  · exact hv1.set_trust.put
  · exact hv1

theorem Calm.hostKeyWrite (h : Calm s u) {k key} : OnOk (Calm s) (u.hostKeyWrite k key) := by
  unfold State.hostKeyWrite
  extract_lets
  split
  · trivial
  · exact h.plain.put

theorem execHostKeySlotWrite_calm (h : Calm s u) {r k key} : OnNext (Calm s) (execHostKeySlotWrite r k key u) := by
  unfold execHostKeySlotWrite
  refine h.at.serveWrite fun v1 h1 => ?_
  exact h1.hostKeyWrite

theorem Calm.tokenReply (h : Calm s u) {b} : Calm s (u.tokenReply b).st := by
  unfold State.tokenReply
  split
  · exact h.set_trust
  · split
    · exact h
    · split
      · split
        · rename_i y1 y2 v1 y4
          have hv1 : Calm s v1 := h.draw.of_snd y4
          extract_lets
          exact hv1.set_trust.bump
      · exact h.verifyFailed

theorem Calm.serveToken (h : Calm s u) {r b} : Calm s (u.serveToken r b) := by
  unfold State.serveToken
  refine h.serve fun v1 h1 => ?_
  split
  · exact h1
  · exact h1.tokenReply

theorem execDebugToken_calm (h : Calm s u) {r token} : OnNext (Calm s) (execDebugToken r token u) := h.at.serveToken

theorem execDebugRelock_calm (h : Calm s u) {r} : OnNext (Calm s) (execDebugRelock r u) := h.at.serveToken

theorem Calm.jtagSelect (h : Calm s u) {ins value} : Calm s (u.jtagSelect ins value) := h.set_trust.emit

theorem execDebugPortInstruction_calm (h : Calm s u) {ins} : OnNext (Calm s) (execDebugPortInstruction ins u) := by
  unfold execDebugPortInstruction
  split
  · exact h
  · split
    · exact h.jtagSelect
    · split
      · exact h.jtagSelect
      · split
        · split
          · rename_i y1 y2 v1 y4
            have hv1 : Calm s v1 := h.fresh.of_snd y4
            exact hv1.jtagSelect
        · trivial

/-! ## Machine/Boot -/

theorem Calm.romVerify (h : Calm s u) {k} : Calm s (u.romVerify k) := by
  unfold State.romVerify
  extract_lets
  exact (h.ite h.setFwSlot).ite h.verifyFailed.setFwSlot

theorem Calm.revertTrial (h : Calm s u) : Calm s u.revertTrial := h.plain.ite h

theorem Calm.romChoose (h : Calm s u) : Calm s u.romChoose := by
  unfold State.romChoose
  extract_lets _ v1 v2
  have hv1 : Calm s v1 := h.romVerify
  have hv2 : Calm s v2 := hv1.ite hv1.romVerify
  exact hv2.plain

theorem Calm.zeroStacks (h : Calm s u) : Calm s u.zeroStacks := by
  have hz : u.zeroStacks = { u with mem := u.zeroStacks.mem, memc := u.zeroStacks.memc } := by
    unfold State.zeroStacks
    split <;> rfl
  rw [hz]
  refine h.set_stacks fun hm => ?_
  rw [← hz]
  exact State.zeroStacks_wf hm

theorem Calm.drawSeeds (h : Calm s u) : Calm s u.drawSeeds := by
  unfold State.drawSeeds
  split
  rename_i a v ha
  split
  rename_i b w hb
  have hv : Calm s v := h.draw.of_snd ha
  have hw : Calm s w := hv.draw.of_snd hb
  extract_lets c x
  have hx : Calm s x := hw.plain
  clear_value x
  split
  · split
    rename_i i y hi
    split
    rename_i c z hc
    have hy : Calm s y := hx.draw.of_snd hi
    have hz : Calm s z := hy.draw.of_snd hc
    have hm : Calm s { z with memc := { z.memc with seed := i % 2 ^ 128 } } := hz.set_memc
    exact hm.set_trust
  · exact hx

theorem Calm.bootScan (h : Calm s u) : Calm s u.bootScan := by
  unfold State.bootScan
  split
  · exact h.plain
  · split
    · exact h.plain
    · extract_lets v1
      have hv1 : Calm s v1 := h.verifyFailed
      exact hv1.plain

theorem Calm.bootRecords (h : Calm s u) : Calm s u.bootRecords := by
  unfold State.bootRecords
  extract_lets stop log d f r v
  have hdev : Calm s { u with dev := { u.dev with stopAt := none } } := h.set_dev
  have hv : Calm s v := hdev.plain
  clear_value v stop
  split
  · exact .ite hv hv.gapRecord
  · exact hv

/-! ## Machine/Catalogue -/

theorem Calm.insertFail (h : Calm s u) : Calm s u.insertFail := by
  unfold State.insertFail
  extract_lets v1 _ _ _ _ v2 _ _ _ v3 _ v4
  have hv1 : Calm s v1 := h.bump
  have hv2 : Calm s v2 := hv1.plain.alert.ite hv1
  have hv3 : Calm s v3 := hv2.plain
  have hv4 : Calm s v4 := hv3.plain.raise.ite hv3.bump
  exact hv4.plain.alert.ite hv4

theorem Calm.lookupEffect (h : Calm s u) {p k} : Calm s (u.lookupEffect p k) := by
  unfold State.lookupEffect
  extract_lets v1
  have hv1 : Calm s v1 := h.foldl fun _ _ h5 => h5.checkBucket
  split
  · extract_lets _ _ v2 v3
    have hv2 : Calm s v2 := hv1.plain.ite hv1
    have hv3 : Calm s v3 := hv2.setEntry
    exact hv3.afterLookup
  · split
    · exact hv1.afterLookup
    · split
      · exact hv1.setEntry.bump.afterLookup
      · exact hv1.insertFail.afterLookup

theorem execCatalogueLookup_calm (h : Calm s u) {t} : OnNext (Calm s) (execCatalogueLookup t u) := by
  unfold execCatalogueLookup
  refine OnNext.tapsFlushed ?_
  extract_lets v1
  have hv1 : Calm s v1 := h.at
  split
  · exact hv1
  · split
    · exact hv1
    · extract_lets _ _ v2
      have hv2 : Calm s v2 := hv1.bump
      split
      · exact hv1
      · split
        · exact hv2.setPkt.catHold
        · exact hv2.lookupEffect

theorem Calm.probeEffect (h : Calm s u) {a k} : Calm s (u.probeEffect a k) := by
  unfold State.probeEffect
  extract_lets v1
  have hv1 : Calm s v1 := h.foldl fun _ _ h3 => h3.checkBucket
  exact hv1.answer

theorem Calm.probeRemove (h : Calm s u) {k} : Calm s (u.probeRemove k) := by
  unfold State.probeRemove
  extract_lets v1
  have hv1 : Calm s v1 := h.foldl fun _ _ h3 => h3.checkBucket
  split
  · exact hv1.setEntry
  · exact hv1

theorem Calm.sweepSlots (h : Calm s u) {b es i} : Calm s (u.sweepSlots b es i) := by
  induction es generalizing u i with
  | nil => exact h
  | cons e es ih =>
    unfold State.sweepSlots
    refine ih (.ite h (.ite ?_ (.ite h.setEntry h.setEntry.bump)))
    exact .ite h.setEntry.bump h.setEntry

theorem Calm.sweepEffect (h : Calm s u) {b} : Calm s (u.sweepEffect b) := by
  unfold State.sweepEffect
  extract_lets v1 v2
  have hv1 : Calm s v1 := h.checkBucket
  have hv2 : Calm s v2 := hv1.sweepSlots
  exact hv2.plain

theorem Calm.migrateSlots (h : Calm s u) {b es i} : Calm s (u.migrateSlots b es i) := by
  induction es generalizing u i with
  | nil => exact h
  | cons e es ih =>
    unfold State.migrateSlots
    refine ih (.ite ?_ h)
    dsimp only
    split
    · exact h.setEntry.setEntry
    · exact h

theorem Calm.evictBucket (h : Calm s u) {b} : Calm s (u.evictBucket b) := by
  unfold State.evictBucket
  extract_lets v1
  have hv1 : Calm s v1 := h.checkBucket
  exact hv1.setBucket.bumpBy

theorem Calm.endPass (h : Calm s u) : Calm s u.endPass := by
  unfold State.endPass
  split
  · exact h
  · extract_lets _ v1
    have hv1 : Calm s v1 := h.put
    exact h.endRehash.ite (hv1.plain.ite (((h.foldl fun _ _ h5 => h5.evictBucket).raise).endRehash))

theorem Calm.migrateEffect (h : Calm s u) {b} : Calm s (u.migrateEffect b) := by
  unfold State.migrateEffect
  extract_lets v1 v2
  have hv1 : Calm s v1 := h.checkBucket
  have hv2 : Calm s v2 := hv1.foldl fun _ _ h4 => h4.checkBucket
  exact hv2.migrateSlots.endPass

theorem Calm.catEffect (h : Calm s u) {a} : Calm s (u.catEffect a) := by
  unfold State.catEffect
  split
  · split
    · exact h.lookupEffect
    · exact h
  · exact h.writebackEffect
  · exact h.sweepEffect
  · exact h.migrateEffect
  · exact h.probeEffect
  · exact h.probeRemove

theorem Calm.catRelease (h : Calm s u) {fuel} : Calm s (u.catRelease fuel) := by
  induction fuel generalizing u with
  | zero => exact h
  | succ fuel ih =>
    unfold State.catRelease
    split
    · exact h
    · exact ih h.plain.catEffect

theorem Calm.cacheFill (h : Calm s u) {b} : Calm s (u.cacheFill b) := by
  unfold State.cacheFill
  split
  · exact h
  · extract_lets _ v1 _ _ _ _ v2
    have hv1 : Calm s v1 := h.countRead
    have hv2 : Calm s v2 := by
      unfold v2
      split
      · exact hv1
      · split
        · rename_i y9 y10 v3 y12
          have hv3 : Calm s v3 := hv1.fresh.of_snd y12
          split
          · exact hv3
          · extract_lets v4
            have hv4 : Calm s v4 := hv3.memWrite.ite hv3
            exact hv4.plain
    exact hv2.plain

theorem execBucketFetchComplete_calm (h : Calm s u) {pid t} : OnNext (Calm s) (execBucketFetchComplete pid t u) := by
  unfold execBucketFetchComplete
  refine OnNext.tapsFlushed ?_
  extract_lets v1
  have hv1 : Calm s v1 := h.at
  split
  · exact hv1
  · split
    · exact hv1
    · extract_lets v2 _ _ v3
      have hv2 : Calm s v2 := hv1.foldl fun _ _ h7 => h7.cacheFill
      have hv3 : Calm s v3 := hv2.plain
      exact hv3.catRelease

theorem execSweeperVisit_calm (h : Calm s u) {t} : OnNext (Calm s) (execSweeperVisit t u) := by
  unfold execSweeperVisit
  extract_lets v1 _ _ v2
  have hv1 : Calm s v1 := h.at
  have hv2 : Calm s v2 := hv1.plain
  split
  · exact hv1
  · split
    · exact hv1
    · split
      · exact hv2.catHold
      · exact hv2.sweepEffect

theorem execMigrationVisit_calm (h : Calm s u) {t} : OnNext (Calm s) (execMigrationVisit t u) := by
  unfold execMigrationVisit
  extract_lets v1 _ _ v2
  have hv1 : Calm s v1 := h.at
  have hv2 : Calm s v2 := hv1.plain
  split
  · exact hv1
  · split
    · exact hv1
    · split
      · exact hv2.catHold
      · exact hv2.migrateEffect

theorem Calm.setRehash (h : Calm s u) {v} : OnOk (Calm s) (u.setRehash v) := by
  unfold State.setRehash
  split
  · trivial
  · split
    · exact h
    · split
      · trivial
      · split
        · rename_i y1 y2 v1 y4
          have hv1 : Calm s v1 := h.draw.of_snd y4
          split
          · rename_i y5 y6 v2 y8
            have hv2 : Calm s v2 := hv1.draw.of_snd y8
            extract_lets v3 _ v4
            have hv3 : Calm s v3 := hv2.put.put
            have hv4 : Calm s v4 := hv3.plain
            exact hv4.rehashMark

theorem Calm.setProbeDelete (h : Calm s u) {v} : OnOk (Calm s) (u.setProbeDelete v) := by
  unfold State.setProbeDelete
  split
  · exact h
  · split
    · exact h.catHold
    · exact h.probeRemove

theorem Calm.setClear (h : Calm s u) {v} : OnOk (Calm s) (u.setClear v) := by
  unfold State.setClear
  split
  · trivial
  · split
    · exact h
    · exact h.clearCatalogue

theorem execRehashRequest_calm (h : Calm s u) {r} : OnNext (Calm s) (execRehashRequest r u) := by
  unfold execRehashRequest
  refine h.at.serveWrite fun v1 h1 => ?_
  exact h1.setRehash

theorem Calm.serveProbe (h : Calm s u) {r} : Calm s (u.serveProbe r) := by
  unfold State.serveProbe
  refine h.receive fun v1 h1 => ?_
  extract_lets
  exact h1.ite (h1.catHold.ite h1.probeEffect)

theorem execProbe_calm (h : Calm s u) {r} : OnNext (Calm s) (execProbe r u) := h.at.serveProbe

theorem execProbeDelete_calm (h : Calm s u) {r} : OnNext (Calm s) (execProbeDelete r u) := by
  unfold execProbeDelete
  refine h.at.serveWrite fun v1 h1 => ?_
  exact h1.setProbeDelete

theorem execCatalogueClear_calm (h : Calm s u) {r} : OnNext (Calm s) (execCatalogueClear r u) := by
  unfold execCatalogueClear
  refine h.at.serveWrite fun v1 h1 => ?_
  exact h1.setClear

/-! ## Machine/Cues -/

theorem execNop_calm (h : Calm s u) {a c t} : OnNext (Calm s) (execNop a c t u) := by
  unfold execNop
  extract_lets v1
  have hv1 : Calm s v1 := h.at
  refine hv1.issue fun v2 r ws x h2 => ?_
  exact h2.progress

theorem Calm.shelveData (h : Calm s u) {a r ws x} : OnOk (Calm s) (u.shelveData a r ws x) := by
  unfold State.shelveData
  extract_lets
  split
  · trivial
  · extract_lets _ _ v1
    have hv1 : Calm s v1 := h.countRead
    split
    · trivial
    · split
      · exact hv1.foldl fun _ _ h7 => h7.modArr
      · split
        · trivial
        · exact hv1.foldl fun _ _ h9 => h9.modArr

theorem execShelve_calm (h : Calm s u) {a c t} : OnNext (Calm s) (execShelve a c t u) := by
  unfold execShelve
  extract_lets v1
  have hv1 : Calm s v1 := h.at
  refine hv1.issue fun v2 r ws x h2 => ?_
  split
  · trivial
  · rename_i y4 v3 y6
    have hv3 : Calm s v3 := h2.shelveData.of_eq y6
    exact hv3.fly

theorem Calm.stageData (h : Calm s u) {a ws x} : OnOk (Calm s) (u.stageData a ws x) := by
  unfold State.stageData
  extract_lets
  split
  · trivial
  · split
    · split
      · trivial
      · exact h.wingsPlain
    · split
      · trivial
      · split
        · split
          · exact h.countRead.wingsPlain
          · trivial
        · split
          · exact h.memWrite
          · trivial

theorem execStage_calm (h : Calm s u) {a c t} : OnNext (Calm s) (execStage a c t u) := by
  unfold execStage
  extract_lets v1
  have hv1 : Calm s v1 := h.at
  refine hv1.issue fun v2 r ws x h2 => ?_
  split
  · trivial
  · rename_i y4 v3 y6
    have hv3 : Calm s v3 := h2.stageData.of_eq y6
    exact hv3.fly

theorem execShelveComplete_calm (h : Calm s u) {a t} : OnNext (Calm s) (execShelveComplete a t u) := by
  unfold execShelveComplete
  extract_lets v1
  have hv1 : Calm s v1 := h.at
  split
  · exact hv1
  · exact hv1.land

theorem execStageComplete_calm (h : Calm s u) {a t} : OnNext (Calm s) (execStageComplete a t u) := by
  unfold execStageComplete
  extract_lets v1
  have hv1 : Calm s v1 := h.at
  split
  · exact hv1
  · exact hv1.land

theorem Calm.countCueGather (h : Calm s u) {c : StreamCue} {a} : Calm s (c.countGather u a) := .ite h.countGather h

theorem Calm.dummies (h : Calm s u) {a n} : Calm s (u.dummies a n).2 := by
  unfold State.dummies
  extract_lets
  split
  · exact h
  · split
    · rename_i y2 y3 v1 y5
      have hv1 : Calm s v1 := h.fresh.of_snd y5
      exact hv1

theorem Calm.bubbles (h : Calm s u) {a n} : Calm s (u.bubbles a n) := by
  unfold State.bubbles
  split
  · rename_i y1 y2 v1 y4
    have hv1 : Calm s v1 := h.dummies.of_snd y4
    exact hv1.bumpBy.bumpBy.bumpBy

theorem Calm.gapBubbles (h : Calm s u) {a} : Calm s (u.gapBubbles a) := by
  unfold State.gapBubbles
  refine h.foldl fun v1 _ h3 => ?_
  split
  · split
    · rename_i y5 y6 v2 y8
      have hv2 : Calm s v2 := h3.fresh.of_snd y8
      exact hv2.bubbles
  · exact h3

theorem Calm.waitForDrain (h : Calm s u) {a} : Calm s (u.waitForDrain a) := by
  unfold State.waitForDrain
  split
  · rename_i y1 y2 v1 y4
    have hv1 : Calm s v1 := h.fresh.of_snd y4
    exact hv1.bumpBy

theorem execStream_calm (h : Calm s u) {a c t} : OnNext (Calm s) (execStream a c t u) := by
  unfold execStream
  extract_lets v1
  have hv1 : Calm s v1 := h.at
  refine hv1.issue fun v2 r ws x h2 => ?_
  extract_lets _ _ v3
  have hv3 : Calm s v3 := h2.modArr
  split
  · trivial
  · split
    · trivial
    · extract_lets v4 v5 v6 v7 v8 v9
      have hv4 : Calm s v4 := hv3.modArr
      have hv5 : Calm s v5 := hv4.plain.ite hv4
      have hv6 : Calm s v6 := hv5.modRun
      have hv7 : Calm s v7 := hv6.waitForDrain.ite hv6
      have hv8 : Calm s v8 := hv7.gapBubbles
      have hv9 : Calm s v9 := hv8.countCueGather
      exact hv9.fly.wake

theorem execStreamComplete_calm (h : Calm s u) {a bubbles starveA starveB t} :
    OnNext (Calm s) (execStreamComplete a bubbles starveA starveB t u) := by
  unfold execStreamComplete
  extract_lets v1
  have hv1 : Calm s v1 := h.at
  split
  · exact hv1
  · split
    · extract_lets v2
      have hv2 : Calm s v2 := by
        unfold v2
        refine hv1.foldl fun v3 _ h7 => ?_
        extract_lets
        exact h7.bumpBy.bumpBy.bubbles.bumpBy.bumpBy
      exact hv2.land
    · exact hv1

theorem execSwap_calm (h : Calm s u) {a c t} : OnNext (Calm s) (execSwap a c t u) := by
  unfold execSwap
  extract_lets v1
  have hv1 : Calm s v1 := h.at
  refine hv1.issue fun v2 r ws x h2 => ?_
  exact h2.modArr.progress

theorem Calm.disagree (h : Calm s u) {a r d t} : Calm s (u.disagree a r d t) := by
  unfold State.disagree
  extract_lets v1
  have hv1 : Calm s v1 := h.bump
  split
  · split
    · exact hv1.undecidable
    · extract_lets _ v2
      have hv2 : Calm s v2 := hv1.plain
      exact hv2.modRun.modArr.drainForSuspect
  · exact hv1.undecidable

theorem Calm.drainEffect (h : Calm s u) {a r c t b0 exc1 addrs} : Calm s (u.drainEffect a r c t b0 exc1 addrs) := by
  unfold State.drainEffect
  extract_lets _ _ _ v1 v2 v3 _ v4
  have hv1 : Calm s v1 := h.drainWrite
  have hv2 : Calm s v2 := hv1.ledger
  have hv3 : Calm s v3 := hv2.bumpBy.ite hv2
  have hv4 : Calm s v4 := hv3.modArr
  split
  · extract_lets
    exact hv4.fly.wake

theorem Calm.drainIssue (h : Calm s u) {a won diff r q} : OnOk (Calm s) (u.drainIssue a won diff r q) := by
  unfold State.drainIssue
  split
  · split
    · trivial
    · split
      · trivial
      · extract_lets _ _ v1 v2
        have hv1 : Calm s v1 := h.plain
        have hv2 : Calm s v2 := hv1.drainEffect
        split
        · exact hv1.disagree.ite hv2
        · exact hv2

theorem execDrain_calm (h : Calm s u) {a c diff t} : OnNext (Calm s) (execDrain a c diff t u) := by
  unfold execDrain
  extract_lets v1
  have hv1 : Calm s v1 := h.at
  refine hv1.issue fun v2 r ws x h3 => ?_
  exact h3.drainIssue

theorem execDrainComplete_calm (h : Calm s u) {a stall t} : OnNext (Calm s) (execDrainComplete a stall t u) := by
  unfold execDrainComplete
  extract_lets v1 v2
  have hv1 : Calm s v1 := h.at
  have hv2 : Calm s v2 := hv1.bumpBy
  split
  · exact hv1
  · extract_lets _ v3
    have hv3 : Calm s v3 := by
      unfold v3
      split
      · exact hv2.completionRecord
      · exact hv2
    split
    · exact hv3.land
    · exact hv1

theorem execArbitrationComplete_calm (h : Calm s u) {a row t} : OnNext (Calm s) (execArbitrationComplete a row t u) := by
  unfold execArbitrationComplete
  extract_lets v1
  have hv1 : Calm s v1 := h.at
  split
  · exact hv1
  · extract_lets _ _ v2 v3 _ _ v4
    have hv2 : Calm s v2 := hv1.plain
    have hv3 : Calm s v3 := hv2.bump
    have hv4 : Calm s v4 := hv3.firstSuspect.errorRecord
    split
    · exact hv1.plain.undecidable
    · exact hv4.modRun

theorem execArbitrationTimeout_calm (h : Calm s u) {a t} : OnNext (Calm s) (execArbitrationTimeout a t u) := by
  unfold execArbitrationTimeout
  extract_lets v1 _ _ v2
  have hv1 : Calm s v1 := h.at
  have hv2 : Calm s v2 := hv1.plain
  split
  · exact hv1
  · split
    · exact hv2.undecidable
    · exact hv1

theorem execTapFlush_calm (h : Calm s u) {a c t} : OnNext (Calm s) (execTapFlush a c t u) := by
  unfold execTapFlush
  extract_lets v1
  have hv1 : Calm s v1 := h.at
  split
  · exact hv1
  · refine hv1.issue fun v2 r ws x h2 => ?_
    extract_lets _ _ v3
    have hv3 : Calm s v3 := h2.completeBuf.ite h2
    split
    · exact hv3.restartHere.progress
    · trivial

theorem execTapRelease_calm (h : Calm s u) {a c t} : OnNext (Calm s) (execTapRelease a c t u) := by
  unfold execTapRelease
  extract_lets v1
  have hv1 : Calm s v1 := h.at
  split
  · refine hv1.issue fun v2 r ws x h2 => ?_
    extract_lets _ _ v3
    have hv3 : Calm s v3 := h2.freeBuf.ite h2
    exact hv3.restartHere.progress
  · exact hv1

theorem Calm.emitVerdicts (h : Calm s u) {a r ws x} : OnOk (Calm s) (u.emitVerdicts a r ws x) := by
  unfold State.emitVerdicts
  extract_lets
  split
  · trivial
  · extract_lets
    split
    · trivial
    · extract_lets
      exact h.set_egr

theorem Calm.emitFly (h : Calm s u) {a r} : Calm s (u.emitFly a r) := h.fly

theorem execEmitVerdict_calm (h : Calm s u) {a c t} : OnNext (Calm s) (execEmitVerdict a c t u) := by
  unfold execEmitVerdict
  extract_lets v1
  have hv1 : Calm s v1 := h.at
  split
  · refine hv1.issue fun v2 r ws x h2 => ?_
    split
    · trivial
    · rename_i y4 v3 y6
      have hv3 : Calm s v3 := h2.emitVerdicts.of_eq y6
      exact hv3.emitFly
  · exact hv1

theorem execEmitTensor_calm (h : Calm s u) {a c t} : OnNext (Calm s) (execEmitTensor a c t u) := by
  unfold execEmitTensor
  extract_lets v1
  have hv1 : Calm s v1 := h.at
  split
  · refine hv1.issue fun v2 r ws x h2 => ?_
    extract_lets
    split
    · trivial
    · extract_lets
      exact h2.originate.emitFly
  · exact hv1

theorem execEmitMarker_calm (h : Calm s u) {a c t} : OnNext (Calm s) (execEmitMarker a c t u) := by
  unfold execEmitMarker
  extract_lets v1
  have hv1 : Calm s v1 := h.at
  split
  · refine hv1.issue fun v2 r ws x h2 => ?_
    extract_lets
    exact h2.originate.emitFly
  · exact hv1

theorem execEmitComplete_calm (h : Calm s u) {a t} : OnNext (Calm s) (execEmitComplete a t u) := by
  unfold execEmitComplete
  extract_lets v1
  have hv1 : Calm s v1 := h.at
  split
  · exact hv1
  · exact hv1.land

/-! ## Machine/Fabric -/

theorem execCallslip_calm (h : Calm s u) {a c t} : OnNext (Calm s) (execCallslip a c t u) := by
  unfold execCallslip
  extract_lets v1
  have hv1 : Calm s v1 := h.at
  refine hv1.issue fun v2 r ws x h2 => ?_
  extract_lets _ _ _ _ _ v3
  have hv3 : Calm s v3 := h2.restartHere.ite h2.fly
  split
  · trivial
  · exact hv3.queueSlips.sendSlips.progress

theorem execSlipComplete_calm (h : Calm s u) {opId reply t} : OnNext (Calm s) (execSlipComplete opId reply t u) := by
  unfold execSlipComplete
  extract_lets v1
  have hv1 : Calm s v1 := h.at
  split
  · exact hv1
  · split
    · exact hv1
    · split
      · split
        · exact hv1.bump.dropOp
        · exact hv1
      · split
        · split
          · rename_i y2 y3 v2 y5
            have hv2 : Calm s v2 := hv1.ownReply.of_snd y5
            exact hv2.slipDone.sendSlips
        · split
          · exact hv1.slipDone.sendSlips
          · exact hv1

theorem execOperationTimeout_calm (h : Calm s u) {opId t} : OnNext (Calm s) (execOperationTimeout opId t u) := by
  unfold execOperationTimeout
  extract_lets v1
  have hv1 : Calm s v1 := h.at
  split
  · exact hv1
  · split
    · exact hv1
    · split
      · split
        · exact hv1.bump.dropOp
        · exact hv1.slipDone.sendSlips
      · exact hv1

theorem execDoorbellReceived_calm (h : Calm s u) {src d t} : OnNext (Calm s) (execDoorbellReceived src d t u) := by
  unfold execDoorbellReceived
  extract_lets v1
  have hv1 : Calm s v1 := h.at
  split
  · exact hv1
  · split
    · exact hv1.plain
    · exact hv1.ringBell

theorem Calm.bellDone (h : Calm s u) {o} : Calm s (u.bellDone o) := by
  unfold State.bellDone
  split
  · exact h
  · extract_lets v1
    have hv1 : Calm s v1 := h.modList
    exact hv1.progress.ite hv1.settle

theorem execDoorbellAccepted_calm {i t s} : OnNext (Calm s) (execDoorbellAccepted i t s) := by
  unfold execDoorbellAccepted
  extract_lets u
  have hu : Calm s u := (Calm.refl s).at
  clear_value u
  split
  · exact hu
  · rename_i o _
    split
    · exact hu
    · split
      · exact hu
      · rename_i d _
        extract_lets own
        split
        rename_i ok v heq
        have hv : Calm s v := by
          refine Calm.of_snd (p := _) ?_ heq
          split
          · exact hu.doorbell
          · exact hu
        extract_lets w
        have hw : Calm s w := hv.dropOp
        split
        · exact hw.bump.bellDone
        · exact hw.bump

theorem execRemoteRead_calm (h : Calm s u) {src offset len t} : OnNext (Calm s) (execRemoteRead src offset len t u) := by
  unfold execRemoteRead
  extract_lets v1
  have hv1 : Calm s v1 := h.at
  split
  · exact hv1
  · split
    · exact hv1.bump.emit
    · exact hv1.countRead.emit

theorem execRemoteWrite_calm (h : Calm s u) {src offset data t} : OnNext (Calm s) (execRemoteWrite src offset data t u) := by
  unfold execRemoteWrite
  extract_lets v1
  have hv1 : Calm s v1 := h.at
  split
  · exact hv1
  · split
    · exact hv1.bump.emit
    · exact hv1.memWrite.emit

theorem Calm.remoteAtomic (h : Calm s u) {src offset f} : Calm s (u.remoteAtomic src offset f) := by
  unfold State.remoteAtomic
  split
  · exact h
  · split
    · exact h.bump.emit
    · split
      · rename_i y1 y2 v1 y4
        have hv1 : Calm s v1 := h.atomic.of_snd y4
        exact hv1.emit

theorem execRemoteFetchAdd_calm (h : Calm s u) {src offset addend t} : OnNext (Calm s) (execRemoteFetchAdd src offset addend t u) :=
  h.at.remoteAtomic

theorem execRemoteCompareSwap_calm (h : Calm s u) {src offset cmp swp t} :
    OnNext (Calm s) (execRemoteCompareSwap src offset cmp swp t u) :=
  h.at.remoteAtomic

theorem execFabLinkUp_calm (h : Calm s u) {f peer t} : OnNext (Calm s) (execFabLinkUp f peer t u) := by
  unfold execFabLinkUp
  extract_lets v1 _ v2 v3 _ v4 v5
  have hv1 : Calm s v1 := h.at
  have hv2 : Calm s v2 := hv1.emit
  have hv3 : Calm s v3 := hv2.put.put.put
  have hv4 : Calm s v4 := hv3.plain
  have hv5 : Calm s v5 := hv2.put.put.put
  split
  · exact hv1
  · split
    · exact hv4.modPort.flood
    · exact hv5.raise

theorem Calm.orphan (h : Calm s u) : Calm s u.orphan := h.plain.ite h

theorem execFabLinkFailed_calm (h : Calm s u) {f cause t} : OnNext (Calm s) (execFabLinkFailed f cause t u) := by
  unfold execFabLinkFailed
  extract_lets v1 _ v2 v3
  have hv1 : Calm s v1 := h.at
  have hv2 : Calm s v2 := hv1.put.bump
  have hv3 : Calm s v3 := hv2.modPort.orphan
  split
  · exact hv3.errorRecord.flood
  · exact hv1

theorem Calm.forwardFlit (h : Calm s u) {x} : Calm s (u.forwardFlit x) := by
  unfold State.forwardFlit
  extract_lets
  split
  · exact h.sendFlit.ite h
  · split
    · rename_i y3 y4 v1 y6
      have hv1 : Calm s v1 := h.firstHop.of_snd y6
      split
      · exact hv1.sendFlit
      · exact hv1

theorem execFlitReceived_calm (h : Calm s u) {f x crcGood fecGood t} :
    OnNext (Calm s) (execFlitReceived f x crcGood fecGood t u) := by
  unfold execFlitReceived
  extract_lets v1 _ _ v2 v3 v4
  have hv1 : Calm s v1 := h.at
  have hv2 : Calm s v2 := hv1.ite hv1.bump
  have hv3 : Calm s v3 := hv2.modPort.bump
  have hv4 : Calm s v4 := hv3.emit
  split
  · split
    · split
      · exact hv4.bump
      · split
        · exact hv4
        · exact hv4.forwardFlit
    · exact hv2.bump.emit
  · exact hv1

theorem Calm.fabricDown (h : Calm s u) : Calm s u.fabricDown := by
  unfold State.fabricDown
  extract_lets _ v1
  have hv1 : Calm s v1 := h.plain
  exact (hv1.foldl fun _ _ h4 => h4.put.modPort.ite h4).orphan

theorem execLinkStateUpdate_calm (h : Calm s u) {l t} : OnNext (Calm s) (execLinkStateUpdate l t u) := by
  unfold execLinkStateUpdate
  extract_lets v1 _ _ v2
  have hv1 : Calm s v1 := h.at
  have hv2 : Calm s v2 := hv1.plain
  split
  · exact hv1
  · split
    · split
      · exact hv1
      · split
        · exact hv1.fabricDown.raise
        · exact hv1
    · split
      · exact hv1
      · exact hv2.emit

theorem execTimestampExchange_calm (h : Calm s u) {f offset hops grandmaster t} :
    OnNext (Calm s) (execTimestampExchange f offset hops grandmaster t u) := by
  unfold execTimestampExchange
  extract_lets v1
  have hv1 : Calm s v1 := h.at
  split
  · exact hv1
  · split
    · extract_lets _ v2 v3
      have hv2 : Calm s v2 := hv1.plain
      have hv3 : Calm s v3 := hv2.bump.ite hv2
      exact hv3.put.put.put.put

theorem execHoldover_calm (h : Calm s u) {t} : OnNext (Calm s) (execHoldover t u) := by
  unfold execHoldover
  extract_lets v1 _ v2
  have hv1 : Calm s v1 := h.at
  have hv2 : Calm s v2 := hv1.plain
  split
  · exact hv2.put.errorRecord
  · exact hv1

theorem execGrandmasterElection_calm (h : Calm s u) {t} : OnNext (Calm s) (execGrandmasterElection t u) := by
  unfold execGrandmasterElection
  extract_lets v1 _ _ v2
  have hv1 : Calm s v1 := h.at
  have hv2 : Calm s v2 := hv1.plain
  split
  · exact hv2.put.put.put
  · exact hv1

theorem Calm.setSource (h : Calm s u) {v} : Calm s (u.setSource v) := by
  unfold State.setSource
  extract_lets v1 _ v2 v3
  have hv1 : Calm s v1 := h.put
  have hv2 : Calm s v2 := hv1.plain
  have hv3 : Calm s v3 := hv2.put.put
  exact hv3.put.flood

theorem execSourceConflict_calm (h : Calm s u) {other t} : OnNext (Calm s) (execSourceConflict other t u) := by
  unfold execSourceConflict
  extract_lets v1
  have hv1 : Calm s v1 := h.at
  split
  · exact hv1.setSource.bump.raise
  · exact hv1

theorem Calm.writeSource (h : Calm s u) {v} : OnOk (Calm s) (u.writeSource v) := by
  unfold State.writeSource
  split
  · trivial
  · split
    · exact h
    · exact h.setSource

/-! ## Machine/Intake -/

theorem execLinkUp_calm (h : Calm s u) {p t} : OnNext (Calm s) (execLinkUp p t u) := by
  unfold execLinkUp
  extract_lets v1 v2
  have hv1 : Calm s v1 := h.at
  have hv2 : Calm s v2 := hv1.put
  split
  · exact hv2.modLine
  · exact hv1

theorem execLinkDown_calm (h : Calm s u) {p t} : OnNext (Calm s) (execLinkDown p t u) := by
  unfold execLinkDown
  extract_lets v1
  have hv1 : Calm s v1 := h.at
  exact hv1.put.modLine

theorem execFrameReceived_calm (h : Calm s u) {p bytes fcsGood t} : OnNext (Calm s) (execFrameReceived p bytes fcsGood t u) := by
  unfold execFrameReceived
  extract_lets v1
  have hv1 : Calm s v1 := h.at
  split
  · exact hv1
  · split
    · exact hv1.bump
    · split
      · exact hv1.bump
      · split
        · exact hv1.bump
        · split
          · exact hv1.bump
          · exact hv1.bump.modLine

theorem execFrameSequenced_calm (h : Calm s u) {p cycle t} : OnNext (Calm s) (execFrameSequenced p cycle t u) := by
  unfold execFrameSequenced
  extract_lets v1 v2 _ _ _ _ v3
  have hv1 : Calm s v1 := h.at
  have hv2 : Calm s v2 := hv1.applyDue.ite hv1
  have hv3 : Calm s v3 := hv2.plain
  split
  · exact hv1
  · split
    · exact hv2
    · split
      · exact hv2
      · split
        · exact hv3.bump
        · split
          · exact hv3
          · extract_lets _ v4 v5
            have hv4 : Calm s v4 := hv3.ite hv3.countBody
            have hv5 : Calm s v5 := hv4.modLine
            exact hv5.plain

theorem execPacketClassified_calm (h : Calm s u) {t} : OnNext (Calm s) (execPacketClassified t u) := by
  unfold execPacketClassified
  refine OnNext.tapsFlushed ?_
  extract_lets v1
  have hv1 : Calm s v1 := h.at
  split
  · exact hv1
  · split
    · exact hv1
    · extract_lets _ _ v2
      have hv2 : Calm s v2 := hv1.plain
      split
      · rename_i y7 y8 v3 y10
        have hv3 : Calm s v3 := hv2.sequenceCheck.of_snd y10
        extract_lets
        split
        · exact hv3.classifyPkt
        · split
          · rename_i y12 v4 y14
            have hv4 : Calm s v4 := hv3.malformed.of_eq y14
            exact hv4
          · exact hv3.classifyPkt

theorem execEcpriStreamExpire_calm (h : Calm s u) {p msgType id t} :
    OnNext (Calm s) (execEcpriStreamExpire p msgType id t u) := by
  unfold execEcpriStreamExpire
  extract_lets v1
  have hv1 : Calm s v1 := h.at
  split
  · exact hv1
  · exact hv1.plain

theorem Calm.releasePort (h : Calm s u) {port fuel} : Calm s (u.releasePort port fuel) := by
  induction fuel generalizing u with
  | zero => exact h
  | succ fuel ih =>
    unfold State.releasePort
    split
    · exact h
    · split
      · exact ih h.modLine
      · rename_i pid rest _ _ p _
        split
        · exact h
        · extract_lets v w x
          have hv : Calm s v := h.modLine.dropPkt
          have hw : Calm s w := by
            unfold w
            split
            · exact hv.enqueue
            · exact hv
          refine ih ?_
          unfold x
          split
          · exact hw.enqueue
          · exact hw

theorem execReorderRelease_calm (h : Calm s u) {p t} : OnNext (Calm s) (execReorderRelease p t u) := by
  unfold execReorderRelease
  extract_lets v1
  have hv1 : Calm s v1 := h.at
  split
  · exact hv1
  · exact hv1.releasePort

theorem execReorderTimeout_calm (h : Calm s u) {p t} : OnNext (Calm s) (execReorderTimeout p t u) := by
  unfold execReorderTimeout
  extract_lets v1
  have hv1 : Calm s v1 := h.at
  split
  · exact hv1
  · split
    · exact hv1
    · split
      · exact hv1
      · split
        · extract_lets v2 v3
          have hv2 : Calm s v2 := hv1.modLine
          have hv3 : Calm s v3 := hv2.bump
          exact hv3.errorRecord
        · exact hv1

theorem Calm.spend (h : Calm s u) {k n} : Calm s (u.spend k n) := h.set_egr

theorem Calm.setDeficit (h : Calm s u) {q n} : Calm s (u.setDeficit q n) := h.set_egr

theorem Calm.setTurn (h : Calm s u) {k q open_} : Calm s (u.setTurn k q open_) := h.set_egr

theorem Calm.roundRobin (h : Calm s u) {port level qs fuel} : OnSome (Calm s) ((u.roundRobin port level qs fuel).map Prod.snd) := by
  induction fuel generalizing u with
  | zero => trivial
  | succ fuel ih =>
    unfold State.roundRobin
    extract_lets k
    split
    extract_lets q opened v
    have hv : Calm s v := .ite h h.setDeficit
    clear_value v
    split
    · exact ih h.setTurn
    · split
      · trivial
      · extract_lets n
        split
        · exact hv.setDeficit.setTurn
        · exact ih hv.setTurn

theorem Calm.sendHead (h : Calm s u) {port level q} : Calm s (u.sendHead port level q) := by
  unfold State.sendHead
  split
  · exact h
  · extract_lets _ v1 v2 v3 v4
    have hv1 : Calm s v1 := h.readBody.spend
    have hv2 : Calm s v2 := by
      unfold v2
      split
      · exact hv1.spend
      · exact hv1
    have hv3 : Calm s v3 := hv2.setQueue.bumpBy
    have hv4 : Calm s v4 := hv3.setDeficit.setTurn.ite hv3
    exact hv4.modLine

theorem execSchedulerSelect_calm {p t s} : OnNext (Calm s) (execSchedulerSelect p t s) := by
  unfold execSchedulerSelect
  extract_lets u l
  have hu : Calm s u := (Calm.refl s).at
  clear_value u
  split
  · exact hu
  · split
    · exact hu
    · split
      · exact hu
      · extract_lets qs
        split
        · exact hu
        · rename_i q v heq
          have hv : Calm s v := (hu.roundRobin).of_eq (congrArg (Option.map Prod.snd) heq)
          exact hv.sendHead

theorem execFrameTransmitted_calm (h : Calm s u) {p t} : OnNext (Calm s) (execFrameTransmitted p t u) := by
  unfold execFrameTransmitted
  extract_lets v1
  have hv1 : Calm s v1 := h.at
  split
  · exact hv1
  · split
    · exact hv1
    · extract_lets _ _ v2
      have hv2 : Calm s v2 := hv1.modLine
      exact hv2.emit.bump

theorem execNeuralVerdictApply_calm (h : Calm s u) {t} : OnNext (Calm s) (execNeuralVerdictApply t u) := by
  unfold execNeuralVerdictApply
  extract_lets v1
  have hv1 : Calm s v1 := h.at
  split
  · exact hv1
  · split
    · exact hv1
    · extract_lets v2
      have hv2 : Calm s v2 := hv1.set_egr
      split
      · exact hv2.bump
      · extract_lets _ _ _ _ v3 _ v4 v5 v6
        have hv3 : Calm s v3 := hv2.setPkt
        have hv4 : Calm s v4 := hv3.writeback
        have hv5 : Calm s v5 := hv4.enqueue.ite hv4
        have hv6 : Calm s v6 := hv5.releaseHeld
        exact hv6.verdictRecord.ite hv6

theorem execHoldTimeout_calm (h : Calm s u) {pid t} : OnNext (Calm s) (execHoldTimeout pid t u) := by
  unfold execHoldTimeout
  extract_lets v1
  have hv1 : Calm s v1 := h.at
  split
  · exact hv1
  · split
    · exact hv1
    · split
      · exact hv1.bump.releaseUndetermined
      · exact hv1

theorem Calm.setBinding (h : Calm s u) {idx sub v} : OnOk (Calm s) (u.setBinding idx sub v) := by
  unfold State.setBinding
  extract_lets
  split
  · trivial
  · exact h.put

theorem Calm.setShaper (h : Calm s u) {idx sub v} : OnOk (Calm s) (u.setShaper idx sub v) := by
  unfold State.setShaper
  extract_lets _ _ _ v1
  have hv1 : Calm s v1 := h.put
  split
  · trivial
  · exact hv1.set_egr

/-! ## Machine/Reads -/

theorem Calm.readValue (h : Calm s u) {idx sub} : Calm s (u.readValue idx sub).2 := by
  unfold State.readValue
  split
  · split
    · exact h.measure
    · exact h
  · split
    · exact h.measure
    · exact h

/-! ## Machine/Observability -/

theorem Calm.sampled (h : Calm s u) {a} : Calm s (u.sampled a).2 := by
  unfold State.sampled
  split
  · exact h.readValue
  · exact h.fresh
  · exact h
  · exact h

theorem Calm.sampleValues (h : Calm s u) {vs} : Calm s (u.sampleValues vs).2 := by
  induction vs generalizing u with
  | nil => exact h
  | cons v vs ih => exact ih h.sampled

theorem Calm.writeSample (h : Calm s u) {time l} : Calm s (State.writeSample time u l) := by
  unfold State.writeSample
  split
  · rename_i y1 y2 v1 y4
    have hv1 : Calm s v1 := h.sampleValues.of_snd y4
    exact hv1.logRecordAt

theorem Calm.skipStrobe (h : Calm s u) {time} : Calm s (u.skipStrobe time) := by
  unfold State.skipStrobe
  extract_lets
  exact h.plain.bump

theorem Calm.coverSkipped (h : Calm s u) : Calm s u.coverSkipped := by
  unfold State.coverSkipped
  split
  · exact h.plain.gapRecord
  · exact h

theorem Calm.takeSample (h : Calm s u) {time} : Calm s (u.takeSample time) := by
  unfold State.takeSample
  extract_lets v1 _ v2
  have hv1 : Calm s v1 := h.coverSkipped
  have hv2 : Calm s v2 := hv1.foldl fun _ _ h6 => h6.writeSample
  exact hv2.logRecordAt.bump

theorem execSamplingStrobe_calm (h : Calm s u) {t} : OnNext (Calm s) (execSamplingStrobe t u) := by
  unfold execSamplingStrobe
  extract_lets v1 _ _ _ v2
  have hv1 : Calm s v1 := h.at
  have hv2 : Calm s v2 := hv1.plain
  split
  · split
    · exact hv2.skipStrobe
    · exact hv2.takeSample
  · exact hv1

theorem Calm.hostMarker (h : Calm s u) {v} : Calm s (u.hostMarker v) := by
  unfold State.hostMarker
  split
  · rename_i y1 y2 v1 y4
    have hv1 : Calm s v1 := h.fresh.of_snd y4
    extract_lets _ v2
    have hv2 : Calm s v2 := hv1.logRecord
    exact hv2.tracePulse.ite hv2

theorem execHostMark_calm (h : Calm s u) {r id} : OnNext (Calm s) (execHostMark r id u) := by
  unfold execHostMark
  refine h.at.serveWrite fun v1 h1 => ?_
  exact h1.hostMarker

theorem execHostUnmark_calm (h : Calm s u) {r id} : OnNext (Calm s) (execHostUnmark r id u) := by
  unfold execHostUnmark
  refine h.at.serveWrite fun v1 h1 => ?_
  exact h1.hostMarker

theorem Calm.declareHang (h : Calm s u) {a r} : Calm s (u.declareHang a r) := by
  unfold State.declareHang
  extract_lets
  split
  · rename_i y2 y3 v1 y5
    have hv1 : Calm s v1 := h.fresh.of_snd y5
    extract_lets _ _ v2 v3
    have hv2 : Calm s v2 := hv1.bump.errorRecord
    have hv3 : Calm s v3 := hv2.tracePulse.requestDump
    exact hv3.ite hv3.abandonRun

theorem execHangDeclared_calm (h : Calm s u) {a t} : OnNext (Calm s) (execHangDeclared a t u) := by
  unfold execHangDeclared
  extract_lets v1
  have hv1 : Calm s v1 := h.at
  split
  · exact hv1
  · split
    · exact hv1
    · exact hv1.declareHang

theorem Calm.freezeRequest (h : Calm s u) {v} : Calm s (u.freezeRequest v) := h.plain

theorem execFreezeRequest_calm (h : Calm s u) {r at_} : OnNext (Calm s) (execFreezeRequest r at_ u) := by
  unfold execFreezeRequest
  refine h.at.serveWrite fun v1 h1 => ?_
  exact h1.freezeRequest

theorem Calm.hostFreeze (h : Calm s u) : Calm s u.hostFreeze := by
  unfold State.hostFreeze
  split
  · split
    · extract_lets _ v1 _ v2
      have hv1 : Calm s v1 := h.plain
      have hv2 : Calm s v2 := hv1.takeDump
      exact hv2.ite hv2.plain
    · exact h
  · exact h

theorem execFreeze_calm (h : Calm s u) {t} : OnNext (Calm s) (execFreeze t u) := by
  unfold execFreeze
  extract_lets v1
  have hv1 : Calm s v1 := h.at.hostFreeze
  split
  · split
    · exact hv1.plain
    · exact hv1
  · exact hv1

theorem Calm.drainFifos (h : Calm s u) : Calm s u.drainFifos := by
  unfold State.drainFifos
  extract_lets _ _ v1
  have hv1 : Calm s v1 := h.plain
  exact hv1.foldl fun _ _ h5 => h5.foldl fun _ _ h7 => h7.logPlace

theorem Calm.storeDump (h : Calm s u) {f first} : Calm s (u.storeDump f first) := by
  unfold State.storeDump
  extract_lets v1
  have hv1 : Calm s v1 := h.memFill
  split
  · rename_i y2 y3 v2 y5
    have hv2 : Calm s v2 := hv1.fresh.of_snd y5
    extract_lets _ v3 v4 v5 v6
    have hv3 : Calm s v3 := hv2.plain.bump
    have hv4 : Calm s v4 := hv3.logWrite
    have hv5 : Calm s v5 := hv4.drainFifos
    have hv6 : Calm s v6 := by
      unfold v6
      split
      · split
        · exact hv5.abandonRun
        · exact hv5
      · exact hv5
    exact hv6.ringBells

theorem execDumpWritten_calm (h : Calm s u) {t} : OnNext (Calm s) (execDumpWritten t u) := by
  unfold execDumpWritten
  extract_lets v1
  have hv1 : Calm s v1 := h.at
  split
  · split
    · exact hv1.storeDump
    · exact hv1
  · exact hv1

theorem Calm.dumpClear (h : Calm s u) {v} : OnOk (Calm s) (u.dumpClear v) := by
  unfold State.dumpClear
  split
  · exact h
  · split
    · trivial
    · exact h.plain

theorem execHangDumpClear_calm (h : Calm s u) {r} : OnNext (Calm s) (execHangDumpClear r u) := by
  unfold execHangDumpClear
  refine h.at.serveWrite fun v1 h1 => ?_
  exact h1.dumpClear

/-! ## Machine/Effects -/

theorem Calm.ruleWrite (h : Calm s u) {idx sub v} : OnOk (Calm s) (u.ruleWrite idx sub v) := by
  unfold State.ruleWrite
  split
  · trivial
  · extract_lets
    split
    · trivial
    · split
      · trivial
      · split
        · trivial
        · exact h.plain

theorem Calm.lineWrite (h : Calm s u) {idx sub v} : Calm s (u.lineWrite idx sub v) := by
  unfold State.lineWrite
  extract_lets _ v1
  have hv1 : Calm s v1 := h.put
  exact hv1.setPairs.ite (hv1.put.modLine.ite hv1)

theorem Calm.authenticatedWrite (h : Calm s u) {v} : OnOk (Calm s) (u.authenticatedWrite v) := by
  unfold State.authenticatedWrite
  split
  · trivial
  · exact h.put

theorem Calm.discardStaged (h : Calm s u) {v} : OnOk (Calm s) (u.discardStaged v) := by
  unfold State.discardStaged
  split
  · trivial
  · extract_lets keep
    have hstaged : Calm s { u with staged := u.staged.filter keep } := h.set_staged (Sparse.filter_wf keep)
    exact hstaged.plain

theorem Calm.restoreDefaults (h : Calm s u) {v} : OnOk (Calm s) (u.restoreDefaults v) := by
  unfold State.restoreDefaults
  split
  · exact h.plain
  · exact h

theorem Calm.setRingStorage (h : Calm s u) {idx sub v} : OnOk (Calm s) (u.setRingStorage idx sub v) := by
  unfold State.setRingStorage
  extract_lets
  split
  · trivial
  · exact h.put

theorem Calm.ringWrite (h : Calm s u) {idx sub v} : OnOk (Calm s) (u.ringWrite idx sub v) := by
  unfold State.ringWrite
  extract_lets
  split
  · exact h.setRingStorage
  · split
    · split
      · trivial
      · exact h.put
    · split
      · exact h.postHost
      · exact h.put

theorem Calm.restartClock (h : Calm s u) {x} : Calm s (u.restartClock x) := h.setTrig

theorem Calm.trigWrite (h : Calm s u) {idx sub v} : OnOk (Calm s) (u.trigWrite idx sub v) := by
  unfold State.trigWrite
  extract_lets _ _ v1
  have hv1 : Calm s v1 := h.put
  split
  · exact h.fireWrite
  · split
    · trivial
    · split
      · trivial
      · split
        · trivial
        · split
          · exact hv1.restartClock
          · exact hv1

theorem Calm.effectCompute (h : Calm s u) {idx sub v} : OnOk (Calm s) (u.effectCompute idx sub v) :=
  State.effectCompute_induct h.setRehash h.setProbeDelete h.setClear h.put h.ringWrite h.trigWrite h.put.serveTaps h.addLight trivial
    h.clearProbed h.put

theorem Calm.modelGroupWrite (h : Calm s u) {idx sub v} : OnOk (Calm s) (u.modelGroupWrite idx sub v) := by
  unfold State.modelGroupWrite
  split
  · trivial
  · exact h.stage

/-- Stated of the state it leaves: the limits of a region are numbers that reducing `OnOk` would count down. -/
theorem Calm.regionWrite (h : Calm s u) {idx sub v w} (hw : u.regionWrite idx sub v = .ok w) : Calm s w := by
  rw [State.regionWrite] at hw
  by_cases hok : regionSizeOk idx sub v = true
  · rw [if_pos hok] at hw
    cases hw
    exact h.stage
  · rw [if_neg hok] at hw
    cases hw

theorem Calm.effectMemory (h : Calm s u) {idx sub v} : OnOk (Calm s) (State.effectMemory u idx sub v) := by
  unfold State.effectMemory
  split
  · cases hw : u.regionWrite idx sub v with
    | error c => trivial
    | ok w => exact h.regionWrite hw
  · repeat' split
    · exact h.regionCommit
    · exact h.setHoldShare
    · exact h.peekWrite
    · exact h.modelGroupWrite
    · exact h.modelCommit
    · exact h.forceRetire
    · exact h.stageRequest
    · exact h.setPersist
    · exact h.eraseSlot
    · exact h.put

theorem Calm.renumber (h : Calm s u) : Calm s u.renumber := by
  have hdown : Calm s u.fabricDown := h.fabricDown
  unfold State.renumber
  generalize u.fabricDown = v at hdown ⊢
  exact hdown.plain

theorem Calm.setModule (h : Calm s u) {idx v} : OnOk (Calm s) (u.setModule idx v) := by
  unfold State.setModule
  extract_lets
  split
  · trivial
  · split
    · exact h.renumber.put
    · exact h.put

theorem Calm.effectEgress (h : Calm s u) {idx sub v} : OnOk (Calm s) (u.effectEgress idx sub v) := by
  unfold State.effectEgress
  split
  · exact h.setBinding
  · split
    · exact h.setShaper
    · split
      · exact h.put.flood
      · split
        · exact h.setModule
        · exact h.put

theorem Calm.setRedundancy (h : Calm s u) {v} : OnOk (Calm s) (u.setRedundancy v) := by
  unfold State.setRedundancy
  split
  · trivial
  · exact h.put

theorem Calm.setEvtOut (h : Calm s u) {sub v} : OnOk (Calm s) (u.setEvtOut sub v) := by
  unfold State.setEvtOut
  split
  · trivial
  · exact h.put

theorem Calm.setSampledQueues (h : Calm s u) {sub v} : OnOk (Calm s) (u.setSampledQueues sub v) := by
  unfold State.setSampledQueues
  split
  · trivial
  · exact h.put

theorem Calm.setInterval (h : Calm s u) {v} : Calm s (u.setInterval v) := by
  unfold State.setInterval
  extract_lets v1
  have hv1 : Calm s v1 := h.put
  exact hv1.plain

theorem Calm.effectObserve (h : Calm s u) {inSession idx sub v} : OnOk (Calm s) (u.effectObserve inSession idx sub v) := by
  unfold State.effectObserve
  split
  · exact h.setRedundancy
  · split
    · exact h.clearReplacement
    · split
      · exact h.scanRequest
      · split
        · exact h.setInterval
        · split
          · exact h.setSampledQueues
          · split
            · exact h.setEvtOut
            · split
              · exact h.hostMarker
              · split
                · exact h.freezeRequest
                · exact h.put

theorem Calm.effectTrust (h : Calm s u) {idx sub v} : OnOk (Calm s) (u.effectTrust idx sub v) := by
  unfold State.effectTrust
  split
  · exact h.ownerHashWrite
  · split
    · exact h.ownerHashConfirm
    · split
      · exact h.enforcementProgram
      · split
        · exact h.raiseCounter
        · split
          · exact h.activateSlot
          · split
            · exact h.confirmFirmware
            · split
              · exact h.hostKeyWrite
              · split
                · exact h.attestationNonce
                · split
                  · exact h.dumpClear
                  · exact h

/-! ## Machine/Requests -/

theorem Calm.serveRead (h : Calm s u) {r idx sub} : Calm s (u.serveRead r idx sub) := by
  unfold State.serveRead
  refine h.serve fun v1 h1 => ?_
  split
  · exact h1
  · split
    · rename_i y3 y4 v2 y6
      have hv2 : Calm s v2 := h1.readValue.of_snd y6
      exact hv2

theorem execRead_calm (h : Calm s u) {r idx sub} : OnNext (Calm s) (execRead r idx sub u) := by
  unfold execRead
  extract_lets v1
  have hv1 : Calm s v1 := h.at
  split
  · exact hv1.serveProbe
  · split
    · exact hv1.servePeek
    · exact hv1.serveRead

/-! ## Machine/Ring -/

theorem execMgmtLinkDown_calm (h : Calm s u) {i t} : OnNext (Calm s) (execMgmtLinkDown i t u) := by
  unfold execMgmtLinkDown
  extract_lets v1 v2 v3
  have hv1 : Calm s v1 := h.at
  have hv2 : Calm s v2 := hv1.setMgmtLink.put
  have hv3 : Calm s v3 := hv2.bump.ite hv2
  split
  · split
    · exact hv3.errorRecord
    · exact hv2
  · exact hv1

theorem execMgmtLinkUp_calm (h : Calm s u) {i rate t} : OnNext (Calm s) (execMgmtLinkUp i rate t u) := by
  unfold execMgmtLinkUp
  extract_lets v1 _ v2 _ v3
  have hv1 : Calm s v1 := h.at
  have hv2 : Calm s v2 := hv1.setMgmtLink.put
  have hv3 : Calm s v3 := hv2.plain
  split
  · exact hv1
  · split
    · exact hv3.raise
    · exact hv3

theorem execRingJoinTimeout_calm (h : Calm s u) {t} : OnNext (Calm s) (execRingJoinTimeout t u) := by
  unfold execRingJoinTimeout
  extract_lets v1
  have hv1 : Calm s v1 := h.at
  split
  · exact hv1
  · split
    · split
      · rename_i y2 y3 v2 y5
        have hv2 : Calm s v2 := hv1.draw.of_snd y5
        extract_lets v3
        have hv3 : Calm s v3 := hv2.closeRing
        exact hv3.plain
    · exact hv1

theorem execRingFrameReceived_calm (h : Calm s u) {i f t} : OnNext (Calm s) (execRingFrameReceived i f t u) := by
  unfold execRingFrameReceived
  extract_lets v1 v2
  have hv1 : Calm s v1 := h.at
  have hv2 : Calm s v2 := hv1.takePosition.ite hv1
  split
  · exact hv1
  · split
    · exact hv2.forward
    · exact hv1

theorem Calm.latchOutputs (h : Calm s u) : Calm s u.latchOutputs := by
  unfold State.latchOutputs
  extract_lets take
  have htake : ∀ m (x : Bytes × State), Calm s x.2 → Calm s (List.foldl take x m).2 := by
    intro m
    induction m with
    | nil => exact fun _ hx => hx
    | cons e m ih => exact fun x hx => ih _ hx.readValue
  have hv := htake (u.mapping 0x1820) ([], u) h
  split
  rename_i heq
  exact (hv.of_snd heq).plain

theorem Calm.latchNow (h : Calm s u) : Calm s u.latchNow := by
  unfold State.latchNow
  extract_lets v1
  have hv1 : Calm s v1 := h.cyclicStart.latchOutputs
  exact hv1.plain

theorem execOutputImageLatch_calm (h : Calm s u) {t} : OnNext (Calm s) (execOutputImageLatch t u) := by
  unfold execOutputImageLatch
  extract_lets v1
  have hv1 : Calm s v1 := h.at
  split
  · exact hv1.latchNow
  · exact hv1

theorem execMissedCycle_calm (h : Calm s u) {t} : OnNext (Calm s) (execMissedCycle t u) := by
  unfold execMissedCycle
  extract_lets v1
  have hv1 : Calm s v1 := h.at
  split
  · exact hv1.plain.bump
  · exact hv1

theorem Calm.sendFrames (h : Calm s u) {k tk ak l n} : Calm s (u.sendFrames k tk ak l n) := by
  induction l generalizing u n with
  | nil => exact h
  | cons img l ih =>
    unfold State.sendFrames
    extract_lets f v w
    have hv : Calm s v := .ite h.emit h
    exact ih (.ite hv.emit hv)

theorem execCycleSend_calm (h : Calm s u) {t} : OnNext (Calm s) (execCycleSend t u) := by
  unfold execCycleSend
  extract_lets v1
  have hv1 : Calm s v1 := h.at
  split
  · split
    · rename_i y5 y6 v2 y8
      have hv2 : Calm s v2 := hv1.fresh.of_snd y8
      extract_lets _ v3
      have hv3 : Calm s v3 := hv2.sendFrames
      exact hv3.plain
  · exact hv1

/-! ## Machine/Scene -/

theorem execImageLoadCheck_calm (h : Calm s u) {slot t} : OnNext (Calm s) (execImageLoadCheck slot t u) := by
  unfold execImageLoadCheck
  extract_lets v1
  have hv1 : Calm s v1 := h.at
  split
  · exact hv1.loadCheck
  · exact hv1

theorem execCommitTakesEffect_calm (h : Calm s u) {t} : OnNext (Calm s) (execCommitTakesEffect t u) := by
  unfold execCommitTakesEffect
  extract_lets v1
  have hv1 : Calm s v1 := h.at
  split
  · exact hv1
  · exact hv1.applyDue

theorem execAccessionRetire_calm (h : Calm s u) {kind t} : OnNext (Calm s) (execAccessionRetire kind t u) := by
  unfold execAccessionRetire
  extract_lets v1 v2
  have hv1 : Calm s v1 := h.at
  have hv2 : Calm s v2 := hv1.tapRetire
  split
  · exact hv1
  · split
    · split
      · split
        · exact hv2.retireModel
        · exact hv2
      · exact hv2
    · split
      · split
        · exact hv1.retireRule
        · exact hv1
      · exact hv1

theorem execRetirementOverdue_calm (h : Calm s u) {kind t} : OnNext (Calm s) (execRetirementOverdue kind t u) := by
  unfold execRetirementOverdue
  extract_lets v1 _ _ v2 v3
  have hv1 : Calm s v1 := h.at
  have hv2 : Calm s v2 := hv1.plain
  have hv3 : Calm s v3 := hv1.plain
  split
  · split
    · exact hv2.bump.raise
    · exact hv1
  · split
    · exact hv3.bump.raise
    · exact hv1

theorem execStagingComplete_calm (h : Calm s u) {slot t} : OnNext (Calm s) (execStagingComplete slot t u) := by
  unfold execStagingComplete
  extract_lets v1
  have hv1 : Calm s v1 := h.at
  split
  · split
    · exact hv1.setSlotState
    · exact hv1
  · exact hv1

theorem Calm.startInstall (h : Calm s u) {a} : Calm s (u.startInstall a) := by
  unfold State.startInstall
  extract_lets _ v1
  have hv1 : Calm s v1 := h.modArr.put
  exact hv1.wantPower.showRun

theorem execInstallListStart_calm (h : Calm s u) {a t} : OnNext (Calm s) (execInstallListStart a t u) := by
  unfold execInstallListStart
  extract_lets v1 v2
  have hv1 : Calm s v1 := h.at
  have hv2 : Calm s v2 := hv1.modArr
  split
  · split
    · exact hv2.startInstall
    · exact hv2.modArr
  · exact hv1

theorem Calm.appendFor (h : Calm s u) {a} : Calm s (u.appendFor a) := h.foldl fun _ _ h2 => h2.appendWaiting.ite h2

theorem execInstallComplete_calm (h : Calm s u) {a t} : OnNext (Calm s) (execInstallComplete a t u) := by
  unfold execInstallComplete
  extract_lets v1 _ _ _ v2
  have hv1 : Calm s v1 := h.at
  have hv2 : Calm s v2 := hv1.modArr.put
  split
  · exact hv2.appendFor.ite hv2
  · exact hv1

/-! ## Machine/Transfer -/

theorem execOpenSession_calm (h : Calm s u) {r key nonce slot} : OnNext (Calm s) (execOpenSession r key nonce slot u) := by
  unfold execOpenSession
  extract_lets v1
  have hv1 : Calm s v1 := h.at
  refine hv1.serve fun v2 h2 => ?_
  split
  · exact h2
  · split
    · exact h2
    · split
      · exact h2
      · split
        · rename_i y4 y5 v3 y7
          have hv3 : Calm s v3 := h2.draw.of_snd y7
          split
          · rename_i y8 y9 v4 y11
            have hv4 : Calm s v4 := hv3.draw.of_snd y11
            split
            · rename_i y12 y13 v5 y15
              have hv5 : Calm s v5 := hv4.draw.of_snd y15
              extract_lets
              exact hv5.plain

theorem execAuth_calm (h : Calm s u) {r sid sig} : OnNext (Calm s) (execAuth r sid sig u) := by
  unfold execAuth
  extract_lets v1
  have hv1 : Calm s v1 := h.at
  refine hv1.serve fun v2 h2 => ?_
  split
  · exact h2
  · split
    · exact h2.plain
    · extract_lets
      split
      · exact h2.plain
      · exact h2.plain

theorem execClose_calm (h : Calm s u) {r} : OnNext (Calm s) (execClose r u) := by
  unfold execClose
  extract_lets v1
  have hv1 : Calm s v1 := h.at
  refine hv1.serve fun v2 h2 => ?_
  split
  · exact h2
  · exact h2.plain

theorem execSessionExpiry_calm (h : Calm s u) {sid t} : OnNext (Calm s) (execSessionExpiry sid t u) := by
  unfold execSessionExpiry
  extract_lets v1
  have hv1 : Calm s v1 := h.at
  split
  · exact hv1
  · split
    · exact hv1.plain
    · exact hv1

theorem Calm.setTransfer (h : Calm s u) {x} : Calm s (u.setTransfer x) := h.plain

theorem Calm.dropTransfer (h : Calm s u) {tid} : Calm s (u.dropTransfer tid) := h.plain

theorem execDownloadInit_calm (h : Calm s u) {r idx sub size sha seg win} :
    OnNext (Calm s) (execDownloadInit r idx sub size sha seg win u) := by
  unfold execDownloadInit
  extract_lets v1
  have hv1 : Calm s v1 := h.at
  refine hv1.serve fun v2 h2 => ?_
  split
  · exact h2
  · split
    · exact h2
    · split
      · exact h2
      · extract_lets _ _ _ v3
        have hv3 : Calm s v3 := h2.plain
        exact hv3.downloadBegin

theorem Calm.serveQuiet (h : Calm s u) {svc r d body} (hbody : ∀ v, Calm s v → Calm s (body v)) :
    Calm s (u.serveQuiet svc r d body) := by
  unfold State.serveQuiet
  split
  · exact h
  · split
    · exact h.bump
    · rename_i v heq
      have hv : Calm s v := h.authenticate.of_eq heq
      split
      · exact hv.answer
      · exact .ite (hbody v hv) hv.answer

theorem Calm.placeSegment (h : Calm s u) {tid offset data} : Calm s (u.placeSegment tid offset data) := by
  unfold State.placeSegment
  split
  · exact h
  · split
    · exact h
    · extract_lets
      exact (h.setTransfer.emit.ite h.setTransfer).ite h.setTransfer.emit

theorem execSegment_calm (h : Calm s u) {r tid offset data} : OnNext (Calm s) (execSegment r tid offset data u) := by
  unfold execSegment
  extract_lets v1
  have hv1 : Calm s v1 := h.at
  refine hv1.serveQuiet fun v2 h2 => ?_
  exact h2.placeSegment

theorem Calm.sendSegments (h : Calm s u) {x n} : Calm s (u.sendSegments x n).1 := by
  induction n generalizing u x with
  | zero => exact h
  | succ n ih =>
    unfold State.sendSegments
    split
    · exact ih h.emit
    · exact h

theorem Calm.takeAck (h : Calm s u) {tid offset} : Calm s (u.takeAck tid offset) := by
  unfold State.takeAck
  split
  · exact h
  · split
    · exact h
    · extract_lets
      split
      · rename_i y3 v1 y5 y6
        have hv1 : Calm s v1 := h.sendSegments.of_fst y6
        exact hv1.setTransfer

theorem execAck_calm (h : Calm s u) {r tid offset} : OnNext (Calm s) (execAck r tid offset u) := by
  unfold execAck
  extract_lets v1
  have hv1 : Calm s v1 := h.at
  refine hv1.serveQuiet fun v2 h2 => ?_
  exact h2.takeAck

theorem execAckTimer_calm (h : Calm s u) {tid t} : OnNext (Calm s) (execAckTimer tid t u) := by
  unfold execAckTimer
  extract_lets v1
  have hv1 : Calm s v1 := h.at
  split
  · exact hv1
  · split
    · exact hv1
    · split
      · exact hv1.setTransfer.emit
      · exact hv1

theorem execDownloadEnd_calm (h : Calm s u) {r tid} : OnNext (Calm s) (execDownloadEnd r tid u) := by
  unfold execDownloadEnd
  extract_lets v1
  have hv1 : Calm s v1 := h.at
  refine hv1.serve fun v2 h2 => ?_
  split
  · exact h2
  · split
    · exact h2
    · split
      · exact h2
      · extract_lets v3
        have hv3 : Calm s v3 := h2.dropTransfer
        split
        · split
          · rename_i y5 v4 y7
            have hv4 : Calm s v4 := hv3.downloadDone.of_eq y7
            exact hv4
          · exact hv3.downloadRefused
        · exact hv3.downloadAborted

theorem execUploadInit_calm (h : Calm s u) {r idx sub win} : OnNext (Calm s) (execUploadInit r idx sub win u) := by
  unfold execUploadInit
  extract_lets v1
  have hv1 : Calm s v1 := h.at
  refine hv1.serve fun v2 h2 => ?_
  split
  · exact h2
  · split
    · exact h2
    · split
      · exact h2
      · extract_lets
        split
        · rename_i y6 y7 v3 y9
          have hv3 : Calm s v3 := h2.fresh.of_snd y9
          extract_lets
          split
          · rename_i y11 v4 y13 y14
            have hv4 : Calm s v4 := hv3.sendSegments.of_fst y14
            extract_lets _ v5
            have hv5 : Calm s v5 := hv4.plain
            exact hv5

theorem execUploadEnd_calm (h : Calm s u) {r tid} : OnNext (Calm s) (execUploadEnd r tid u) := by
  unfold execUploadEnd
  extract_lets v1
  have hv1 : Calm s v1 := h.at
  refine hv1.serve fun v2 h2 => ?_
  split
  · exact h2
  · split
    · exact h2
    · exact h2.dropTransfer

theorem Calm.abortTransfer (h : Calm s u) {x} : Calm s (u.abortTransfer x) := by
  unfold State.abortTransfer
  extract_lets v1
  have hv1 : Calm s v1 := h.dropTransfer
  exact hv1.ite hv1.downloadAborted

theorem execTransferAbort_calm (h : Calm s u) {r tid code} : OnNext (Calm s) (execTransferAbort r tid code u) := by
  unfold execTransferAbort
  extract_lets v1
  have hv1 : Calm s v1 := h.at
  refine hv1.serve fun v2 h2 => ?_
  split
  · exact h2
  · split
    · exact h2
    · exact h2.abortTransfer

theorem execTransferTimeout_calm (h : Calm s u) {tid t} : OnNext (Calm s) (execTransferTimeout tid t u) := by
  unfold execTransferTimeout
  extract_lets v1
  have hv1 : Calm s v1 := h.at
  split
  · exact hv1
  · split
    · exact hv1.abortTransfer.emit
    · exact hv1

/-! ## Machine/Trees -/

theorem Calm.waitBanks (h : Calm s u) {banks} : Calm s (u.waitBanks banks) := by
  unfold State.waitBanks
  extract_lets v1
  have hv1 : Calm s v1 := h.foldl fun _ _ h4 => h4.bump
  exact hv1.plain

theorem execTreeVectorEntry_calm {i c t s} : OnNext (Calm s) (execTreeVectorEntry i c t s) := by
  unfold execTreeVectorEntry
  refine OnNext.tapsFlushed ?_
  extract_lets u pos _ v
  have hu : Calm s u := (Calm.refl s).at
  have hv : Calm s v := .ite hu hu.plain
  clear_value u v
  split
  · exact hu
  · split
    · exact hv
    · split
      · exact hv
      · rename_i _ w _ _ _ p _
        have hw : Calm s w := hv.plain
        clear_value w
        split
        · exact hw.applyVerdict
        · extract_lets e banks
          split
          split
          · exact hw.bumpBy.applyVerdict
          · split
            · exact hw.waitBanks
            · extract_lets x y
              have hy : Calm s y := hw.bumpBy.setPkt
              exact hy.plain

theorem execTreeVerdict_calm (h : Calm s u) {b t} : OnNext (Calm s) (execTreeVerdict b t u) := by
  unfold execTreeVerdict
  refine OnNext.tapsFlushed ?_
  extract_lets v1
  have hv1 : Calm s v1 := h.at
  split
  · exact hv1
  · split
    · exact hv1
    · extract_lets v2 v3
      have hv2 : Calm s v2 := hv1.plain
      have hv3 : Calm s v3 := hv2.foldl fun _ _ h6 => h6.bump
      split
      · exact hv3
      · split
        · exact hv3.applyVerdict
        · split
          · exact hv3.applyVerdict

theorem execTreeBankTimeout_calm (h : Calm s u) {b t} : OnNext (Calm s) (execTreeBankTimeout b t u) := by
  unfold execTreeBankTimeout
  refine OnNext.tapsFlushed ?_
  extract_lets v1 _ _ v2 v3
  have hv1 : Calm s v1 := h.at
  have hv2 : Calm s v2 := hv1.plain
  have hv3 : Calm s v3 := by
    unfold v3
    refine hv2.foldl fun v4 _ h10 => ?_
    split
    · exact h10.applyVerdict
    · exact h10
  split
  · exact hv1
  · split
    · exact hv1
    · exact hv3.suspectUnit

end

end Sys2Proof.Machine

namespace Sys2Proof.Machine

set_option Elab.async false
open Sys2Proof.Bits

/-! ## The transitions of R378 -/

section
variable {s u : State}

/-- Entering a state leaves the device there. -/
theorem State.enter_st (u : State) (d : DevState) : (u.enter d).dev.st = d := by
  unfold State.enter
  extract_lets old x v
  have hv : v.dev.st = d := rfl
  clear_value v
  split
  · exact hv
  · split
    rename_i w hw
    have hwv : w.dev = v.dev := by
      revert hw
      split
      · rintro ⟨⟩
        rfl
      · rintro ⟨⟩
        rfl
    rw [show ∀ b, (w.fwMarker 1 b).dev = w.dev from fun b => w.fwMarker_within 1 b .dev (by decide), hwv, hv]

theorem Calm.clearVolatile (h : Calm s u) {cold} : Calm s (u.clearVolatile cold) := by
  have hdict : Calm s { u with dict := if cold then [] else u.dict.filter fun e => keptWarm e.1 } := h.set_dict fun hd => by
    cases cold
    · exact Sparse.filter_wf _ hd
    · rfl
  have hstaged := hdict.set_staged (x := []) fun _ => rfl
  have hegr := hstaged.set_egr (x := {}) fun _ => rfl
  have hsync := hegr.set_sync (x := (u.clearVolatile cold).sync) (htrigs := fun ht => by
      cases cold
      · exact Sparse.mapFilter_wf (f := fun t => { t with wait := none, fired := none }) ht
      · rfl) (htaps := fun _ => by
      cases cold <;> rfl)
  have hmemc := hsync.set_memc (x := (u.clearVolatile cold).memc)
  exact (hmemc.set_trust (x := (u.clearVolatile cold).trust)).plain

/-- In OFF, RESET and FAULT the curtain is safe with both gates off. -/
theorem State.curtainSafe_of_closed {v : State} (hi : v.pwr.gateInline = false) (hr : v.pwr.gateRing = false) :
    v.curtainSafe = true := by
  simp [State.curtainSafe, hi, hr]

theorem Calm.enterClosed (h : Calm s u) {d} (hi : u.pwr.gateInline = false) (hr : u.pwr.gateRing = false) : Sound s (u.enter d) :=
  h.toSound.enter fun _ => State.curtainSafe_of_closed hi hr

/-- The rest of a cold or a warm reset. -/
theorem Sound.toReset (h : Sound s u) {k c} : Sound s (u.toReset k c) := by
  unfold State.toReset
  split
  · exact h
  · split
    · exact h
    · extract_lets v w x
      have hv : Calm u v := (Calm.refl u).closeAll.leaveRing
      have hw : Sound u w := hv.enterClosed rfl rfl
      have hx : Calm w x := (Calm.refl w).clearVolatile
      clear_value x
      have hdev : Calm w { x with dev := { x.dev with boot := k, trans := .none, noFaultReset := false } } := hx.set_dev
      have hdict := hdev.set_dict (x := Sparse.write objDefault x.dict (objKey 0x2004 0) c) Sparse.write_wf
      exact (h.trans hw).trans (hdict.set_pwr).toSound

theorem State.toReset_st (u : State) (k : BootKind) (c : Nat) : (u.toReset k c).dev.st = u.dev.st ∨ (u.toReset k c).dev.st = .reset := by
  unfold State.toReset
  split
  · exact .inl rfl
  · split
    · exact .inl rfl
    · extract_lets v w x
      have hx : x.dev.st = .reset := State.enter_st v .reset
      exact .inr hx

theorem Sound.toOff (h : Sound s u) : Sound s u.toOff := by
  unfold State.toOff
  extract_lets v w x
  have hv : Calm u v := (Calm.refl u).loseVcg.leaveRing
  have hw : Sound u w := hv.enterClosed rfl rfl
  have hx : Calm w x := (Calm.refl w).clearVolatile
  clear_value x
  have hdev : Calm w { x with dev := { x.dev with boot := .cold, trans := .none, noFaultReset := false } } := hx.set_dev
  exact (h.trans hw).trans (hdev.set_pwr).toSound

theorem State.toOff_st (u : State) : u.toOff.dev.st = .off := by
  have hv : (u.loseVcg.leaveRing.enter .off).dev.st = .off := State.enter_st _ _
  exact hv

/-- The rails come up with both gates off. -/
theorem Calm.railsUp (h : Calm s u) : Calm s u.railsUp := by
  have hpwr : Calm u { u with pwr := u.railsUp.pwr } :=
    ⟨⟨⟨rfl, rfl, .refl _⟩, id, fun _ => State.curtainSafe_of_closed rfl rfl⟩, .inl rfl⟩
  exact h.trans hpwr.plain

/-- The curtain stays safe in a state of the ring, where the in-line gates are off or the state lets them be on. -/
theorem State.curtainSafe_moved {x : Dev} (hu : u.curtainSafe = true) (hx : x.st.onRing = true)
    (hi : u.pwr.gateInline = false ∨ x.st = .run ∨ x.st = .drain) : State.curtainSafe { u with dev := x } = true := by
  simp only [State.curtainSafe, Bool.and_eq_true] at hu ⊢
  obtain ⟨⟨-, -⟩, hvcg⟩ := hu
  refine ⟨⟨?_, ?_⟩, hvcg⟩
  · rcases hi with hi | hi | hi <;> simp [hi]
  · cases hst : x.st <;> simp_all [DevState.onRing]

/-- Outside RUN and DRAIN a safe curtain has the in-line gates off. -/
theorem State.gateInline_off (hu : u.curtainSafe = true) (hrun : u.dev.st ≠ .run) (hdrain : u.dev.st ≠ .drain) :
    u.pwr.gateInline = false := by
  simp only [State.curtainSafe, hrun, hdrain, Bool.and_eq_true] at hu
  obtain ⟨⟨hi, -⟩, -⟩ := hu
  simpa using hi

/-- Moving the device to a state of the ring is sound where the in-line gates are off or the state lets them be on. -/
theorem Sound.move (h : Sound s u) {x : Dev} (hx : x.st.onRing = true)
    (hi : u.curtainSafe = true → u.pwr.gateInline = false ∨ x.st = .run ∨ x.st = .drain) : Sound s { u with dev := x } :=
  h.trans ⟨⟨rfl, rfl, .refl _⟩, id, fun hu => State.curtainSafe_moved hu hx (hi hu)⟩

theorem Sound.calm {v : State} (h : Sound s u) (k : Calm u v) : Sound s v := h.trans k.toSound

theorem Calm.openRing (h : Calm s u) (hst : u.dev.st.onRing = true) : Calm s u.openRing := by
  unfold State.openRing
  split
  · rename_i hvcg
    refine h.trans ⟨⟨⟨rfl, rfl, .refl _⟩, id, fun hu => ?_⟩, .inl rfl⟩
    simp only [State.curtainSafe, Bool.and_eq_true] at hu ⊢
    obtain ⟨⟨hi, -⟩, -⟩ := hu
    refine ⟨⟨hi, ?_⟩, by simp [hvcg]⟩
    cases hd : u.dev.st <;> simp_all [DevState.onRing]
  · exact h

theorem Calm.openCurtain (h : Calm s u) (hst : u.dev.st = .run) : Calm s u.openCurtain := by
  unfold State.openCurtain
  split
  · rename_i hvcg
    refine h.trans ⟨⟨⟨rfl, rfl, .refl _⟩, id, fun _ => ?_⟩, .inl rfl⟩
    simp [State.curtainSafe, State.setPairs, hst, hvcg]
  · exact h

theorem Sound.toDrain (h : Sound s u) : Sound s u.toDrain :=
  (h.enter fun hu => State.curtainSafe_moved hu rfl (.inr (.inr rfl))).calm (Calm.refl _).drainEntry

theorem State.toDrain_drift (u : State) : Drift .drain u.toDrain.dev.st := by
  have hdrift := (Calm.refl (u.enter .drain)).drainEntry.drift
  rwa [State.enter_st] at hdrift

/-- The device's record as it enters a state. -/
def Dev.entering (x : Dev) (d : DevState) (t : Nat) : Dev := { x with st := d, since := t }

/-- RUN may be entered first and the in-line gates opened then. -/
theorem Sound.enterRun (h : Sound s u) : Sound s (u.openCurtain.enter .run) := by
  have hsame : { u.openCurtain with dev := u.openCurtain.dev.entering .run u.openCurtain.now } =
      State.openCurtain { u with dev := u.dev.entering .run u.now } := by
    unfold State.openCurtain
    split <;> rfl
  have hrun : Sound s { u with dev := u.dev.entering .run u.now } := h.move rfl fun _ => .inr (.inl rfl)
  have hopen : Sound s { u.openCurtain with dev := u.openCurtain.dev.entering .run u.openCurtain.now } :=
    hsame ▸ hrun.calm ((Calm.refl _).openCurtain rfl)
  exact hopen.calm (State.enter_calm _ _)

theorem Sound.enterRunLinksDown (h : Sound s u) : Sound s (u.openCurtain.linksDown.enter .run) := by
  have hsame : { u.openCurtain.linksDown with dev := u.openCurtain.linksDown.dev.entering .run u.openCurtain.linksDown.now } =
      (State.openCurtain { u with dev := u.dev.entering .run u.now }).linksDown := by
    unfold State.openCurtain
    split <;> rfl
  have hrun : Sound s { u with dev := u.dev.entering .run u.now } := h.move rfl fun _ => .inr (.inl rfl)
  have hopen : Sound s { u.openCurtain.linksDown with dev := u.openCurtain.linksDown.dev.entering .run u.openCurtain.linksDown.now } :=
    hsame ▸ hrun.calm ((Calm.refl _).openCurtain rfl).linksDown
  exact hopen.calm (State.enter_calm _ _)

theorem Sound.drainToPrepare (h : Sound s u) : Sound s u.drainToPrepare := by
  unfold State.drainToPrepare
  extract_lets v w _
  have hv : Calm u v := (Calm.refl u).abandonAll.flushPackets.closeCurtain.linksDown
  have hw : Sound s w := (h.calm hv).enter fun hu => State.curtainSafe_moved hu rfl (.inl rfl)
  clear_value w
  have hdone : Calm w { w with dev := { w.dev with trans := .none } } := (Calm.refl w).set_dev
  exact hw.calm hdone

theorem State.drainToPrepare_st (u : State) : u.drainToPrepare.dev.st = .prepare := by
  unfold State.drainToPrepare
  extract_lets v w _
  clear_value v
  exact State.enter_st v .prepare

/-- What follows the entry into TEST. -/
theorem State.enterTest_calm (u : State) : Calm (u.enter .test) u.enterTest := by
  unfold State.enterTest
  extract_lets v _ w
  have hv : Calm (u.enter .test) v := (Calm.refl _).endRehash
  have hw : Calm (u.enter .test) w := hv.set_dev
  exact hw.fwMarker

theorem Sound.enterTest (h : Sound s u) (hi : u.curtainSafe = true → u.pwr.gateInline = false) : Sound s u.enterTest :=
  (h.enter fun hu => State.curtainSafe_moved hu rfl (.inl (hi hu))).calm u.enterTest_calm

theorem State.enterTest_drift (u : State) : Drift .test u.enterTest.dev.st := by
  have hdrift := u.enterTest_calm.drift
  rwa [State.enter_st] at hdrift

/-! ## Single requests and whole images -/

/-- Where one state request, or an error it meets, takes the device. -/
def Request (a b : DevState) : Prop :=
  b = a ∨ b = .fault ∨ b = .reset ∨ (a = .prepare ∧ b = .test) ∨ (a = .run ∧ b = .drain) ∨
    (a = .drain ∧ (b = .run ∨ b = .test))

/-- Where any number of them take it. -/
def Roam (a b : DevState) : Prop :=
  b = a ∨ b = .fault ∨ b = .reset ∨ (a = .prepare ∧ b = .test) ∨
    ((a = .run ∨ a = .drain) ∧ (b = .run ∨ b = .drain ∨ b = .test))

theorem Drift.request {a b : DevState} (h : Drift a b) : Request a b := by
  unfold Drift at h
  unfold Request
  grind

theorem Request.roam {a b : DevState} (h : Request a b) : Roam a b := by
  unfold Request at h
  unfold Roam
  grind

theorem Roam.trans {a b c : DevState} (h : Roam a b) (k : Roam b c) : Roam a c := by
  unfold Roam at *
  grind

/-- One row of the table of R378, or none. -/
def Row (a b : DevState) : Prop := b = a ∨ deviceMove a b = true

theorem Request.row {a b : DevState} (h : Request a b) : Row a b := by
  rcases h with rfl | rfl | rfl | ⟨rfl, rfl⟩ | ⟨rfl, rfl⟩ | ⟨rfl, rfl | rfl⟩
  · exact .inl rfl
  · exact .inr (by cases a <;> rfl)
  · exact .inr (by cases a <;> rfl)
  all_goals exact .inr rfl

theorem Roam.row {a b : DevState} (h : Roam a b) : Row a b ∨ (a = .run ∧ b = .test) := by
  cases a <;> cases b <;> simp_all [Roam, Row, deviceMove]

/-- A sound change that moves the device by one request. -/
structure Requested (s u : State) : Prop extends Sound s u where
  moves : Request s.dev.st u.dev.st

/-- A sound change that moves the device by any number of requests. -/
structure Roams (s u : State) : Prop extends Sound s u where
  moves : Roam s.dev.st u.dev.st

/-- A sound change that moves the device by one row of the table at most. -/
structure Steps (s u : State) : Prop extends Sound s u where
  moves : Row s.dev.st u.dev.st

theorem Calm.requested (h : Calm s u) : Requested s u := ⟨h.toSound, h.drift.request⟩

theorem Requested.roams (h : Requested s u) : Roams s u := ⟨h.toSound, h.moves.roam⟩

theorem Requested.steps (h : Requested s u) : Steps s u := ⟨h.toSound, h.moves.row⟩

theorem Calm.steps (h : Calm s u) : Steps s u := h.requested.steps

theorem Roams.trans {v : State} (h : Roams s u) (k : Roams u v) : Roams s v := ⟨h.toSound.trans k.toSound, h.moves.trans k.moves⟩

theorem State.stateRequest_requested {code : Nat} : OnOk (Requested u) (u.stateRequest code) := by
  unfold State.stateRequest
  split
  · exact ⟨(Sound.refl u).toReset, (u.toReset_st _ _).elim .inl fun h => .inr (.inr (.inl h))⟩
  · split
    · trivial
    · split
      · trivial
      · split
        · repeat' split
          all_goals try trivial
          exact (Calm.refl u).startRun.requested
        · rename_i hst _ _
          refine ⟨(Sound.refl u).enterTest fun hu => State.gateInline_off hu (by rw [hst]; exact nofun) (by rw [hst]; exact nofun), ?_⟩
          rw [hst]
          rcases u.enterTest_drift with h | h | ⟨h, -⟩
          · simp [h, Request]
          · simp [h, Request]
          · cases h
        · rename_i hst _ _
          refine ⟨(Sound.refl u).toDrain, ?_⟩
          have hdrift := u.toDrain_drift
          rw [hst]
          unfold Drift at hdrift
          unfold Request
          grind
        · rename_i hst _ _
          repeat' split
          all_goals try trivial
          have hrun : (u.openCurtain.enter .run).dev.st = .run := State.enter_st _ _
          refine ⟨(Sound.refl u).enterRun.calm (Calm.refl _).fillShapers, .inr (.inr (.inr (.inr (.inr ⟨hst, .inl hrun⟩))))⟩
        · exact (Calm.refl u).set_dev.requested
        · rename_i hst _ _
          split
          · trivial
          · have hclosed : Calm u u.closeCurtain.linksDown := (Calm.refl u).closeCurtain.linksDown
            refine ⟨hclosed.toSound.enterTest fun _ => rfl, ?_⟩
            have hdrift := u.closeCurtain.linksDown.enterTest_drift
            rw [hst]
            unfold Drift at hdrift
            unfold Request
            grind
        · exact ⟨(Sound.refl u).toReset, (u.toReset_st _ _).elim .inl fun h => .inr (.inr (.inl h))⟩
        · trivial
end
end Sys2Proof.Machine

namespace Sys2Proof.Machine

set_option Elab.async false
open Sys2Proof.Bits

section
variable {s u v : State}

theorem Requested.after (h : Requested s u) (k : Calm u v) (hdev : v.dev = u.dev) : Requested s v :=
  ⟨h.toSound.calm k, by rw [hdev]; exact h.moves⟩

/-- A request that finds the device as it was. -/
theorem Requested.before (h : Calm s u) (hdev : u.dev = s.dev) (k : Requested u v) : Requested s v :=
  ⟨h.toSound.trans k.toSound, by rw [← hdev]; exact k.moves⟩

theorem Requested.answer (h : Requested s u) {a} : Requested s (u.answer a) :=
  h.after (Calm.refl u).answer (State.answer_within _ _ .dev (by decide))

theorem Requested.receive {svc r i j d body} (hbody : ∀ v, Calm u v → v.dev = u.dev → Requested u (body v)) :
    Requested u (u.receive svc r i j d body) := by
  have hu : Calm u u := .refl u
  unfold State.receive
  split
  · exact hu.requested
  · split
    · exact hu.bump.requested
    · rename_i v hauth
      have hv : Calm u v := hu.authenticate.of_eq hauth
      split
      · exact hv.emit.bump.requested
      · split
        · exact hv.answer.requested
        · exact hbody v hv (State.authenticate_within hauth .dev (by decide))

theorem Requested.serve {svc r i j d body} (hbody : ∀ v, Calm u v → v.dev = u.dev → Requested u (body v).st) :
    Requested u (u.serve svc r i j d body) :=
  .receive fun v hv hdev => (hbody v hv hdev).answer

theorem Requested.serveWrite {r i j d eff} (heff : ∀ v, OnOk (Requested v) (eff v)) : Requested u (u.serveWrite r i j d eff) := by
  refine .serve fun v hv hdev => ?_
  split
  · exact hv.requested
  · split
    · exact hv.requested
    · rename_i w heq
      exact .before hv hdev ((heff v).of_eq heq)

theorem OnOk.imp {ε : Type} {p q : State → Prop} {r : Except ε State} (h : OnOk p r) (hpq : ∀ u, p u → q u) : OnOk q r := by
  cases r with
  | ok u => exact hpq u h
  | error e => trivial

theorem OnNext.imp {p q : State → Prop} {r : Result} (h : OnNext p r) (hpq : ∀ u, p u → q u) : OnNext q r := by
  cases r with
  | next u => exact hpq u h
  | fault f => trivial
  | refused r => trivial

theorem State.effectManagement_requested {idx sub v} : OnOk (Requested u) (u.effectManagement idx sub v) := by
  have hu : Calm u u := .refl u
  refine OnOk.ite ?_ (OnOk.ite ?_ (OnOk.ite ?_ (OnOk.ite ?_ (OnOk.ite ?_ (OnOk.ite ?_ (OnOk.ite ?_ (OnOk.ite ?_ (OnOk.ite ?_
    (OnOk.ite ?_ (OnOk.ite ?_ ?_))))))))))
  · exact hu.setRingMaster.imp fun _ h => h.requested
  · exact hu.setCyclePeriod.imp fun _ h => h.requested
  · exact hu.authenticatedWrite.imp fun _ h => h.requested
  · exact hu.stage.requested
  · exact hu.cyclicCommit.imp fun _ h => h.requested
  · exact State.stateRequest_requested
  · exact hu.discardStaged.imp fun _ h => h.requested
  · exact hu.requested
  · exact hu.restoreDefaults.imp fun _ h => h.requested
  · exact hu.writeSource.imp fun _ h => h.requested
  · exact hu.plain.requested
  · exact hu.put.requested

theorem State.effect_requested {b idx sub v} : OnOk (Requested u) (u.effect b idx sub v) := by
  have hu : Calm u u := .refl u
  unfold State.effect
  repeat' split
  · exact hu.ruleWrite.imp fun _ h => h.requested
  · exact hu.ruleCommit.imp fun _ h => h.requested
  · exact State.effectManagement_requested
  · exact hu.lineWrite.requested
  · exact hu.effectCompute.imp fun _ h => h.requested
  · exact hu.effectMemory.imp fun _ h => h.requested
  · exact hu.effectEgress.imp fun _ h => h.requested
  · exact hu.effectObserve.imp fun _ h => h.requested
  · exact hu.effectTrust.imp fun _ h => h.requested

theorem State.serveState_requested {r d} : Requested u (u.serveState r d) := by
  refine .receive fun v hv hdev => ?_
  extract_lets a
  split
  · exact hv.answer.requested
  · split
    · exact hv.answer.requested
    · split
      · rename_i w heq
        have hans : (v.answer (a 0)).dev = v.dev := State.answer_within _ _ .dev (by decide)
        exact .before hv.answer (hans.trans hdev) (State.stateRequest_requested.of_eq heq)
      · exact hv.answer.requested

theorem State.serveAny_requested {r i j d} : Requested u (u.serveAny r i j d) := by
  unfold State.serveAny
  repeat' split
  · exact State.serveState_requested
  · exact (Calm.refl u).serveSave.requested
  · exact (Calm.refl u).serveToken.requested
  · exact .serveWrite fun v => State.effect_requested

/-- A command at its time, where it changes the device by one request. -/
theorem Requested.of_at {t} (h : Requested (s.at t) u) : Requested s u := .before (Calm.refl s).at (State.at_dev s t) h

theorem State.serveValue_at {t r i j x} : Requested s ((s.at t).serveValue r i j x) := .of_at State.serveAny_requested

theorem State.serveState_at {t r d} : Requested s ((s.at t).serveState r d) := .of_at State.serveState_requested

/-! ## Images -/

theorem Roams.calm (h : Roams s u) (k : Calm u v) : Roams s v := h.trans k.requested.roams

theorem State.applyOne_roams {i j n x} : Roams u (u.applyOne i j n x) := by
  have hu : Calm u u := .refl u
  unfold State.applyOne
  split
  · exact hu.plain.requested.roams
  · split
    · exact hu.plain.requested.roams
    · rename_i w heq
      exact (State.effect_requested.of_eq heq).roams

theorem Roams.applyList (h : Roams s u) {last m bs k} : Roams s (u.applyList last m bs k) := by
  induction m generalizing u bs k with
  | nil => exact h
  | cons e m ih =>
    obtain ⟨i, j, n⟩ := e
    unfold State.applyList
    extract_lets x wo w
    refine ih ?_
    unfold w
    split
    · exact h
    · exact h.trans State.applyOne_roams

theorem Roams.applyImage (h : Roams s u) {bs} : Roams s (u.applyImage bs) := by
  unfold State.applyImage
  extract_lets m last _ v
  have hv : Calm u v := (Calm.refl u).plain
  exact (h.calm hv).applyList

theorem Roams.takeInput (h : Roams s u) {ak bs} : Roams s (u.takeInput ak bs) := by
  unfold State.takeInput
  repeat' split
  · exact h.applyImage
  · exact h.calm (Calm.refl u).bump
  · exact h.calm (Calm.refl u).plain

theorem execInputImageApply_roams {t s} : OnNext (Roams s) (execInputImageApply t s) := by
  have hu : Calm s (s.at t) := (Calm.refl s).at
  unfold execInputImageApply
  extract_lets u
  split
  · exact hu.requested.roams
  · split
    · exact hu.requested.roams.applyImage
    · exact hu.requested.roams

theorem execCycleFrameExchange_roams {i f t s} : OnNext (Roams s) (execCycleFrameExchange i f t s) := by
  unfold execCycleFrameExchange
  extract_lets u area rest _ v w tk ak newCycle period learn _ x y z x' first _ y' inPos inMap z' outPos g
  have hu : Calm s u := (Calm.refl s).at
  have hv : Calm s v := .ite hu.masterConflict hu.plain
  have hw : Calm s w := hv.takePosition
  have hx : Calm s x := hw.plain
  have hy : Calm s y := .ite hx.put hx
  have hz : Calm s z := hy.bump
  have hx' : Calm s x' := .ite (.ite hz.latchNow hz) hw
  have hy' : Calm s y' := hx'.plain
  have hz' : Roams s z' := by
    unfold z'
    split
    · exact hy'.requested.roams.takeInput
    · exact hy'.requested.roams
  repeat' split
  · exact hu.bump.requested.roams
  · exact hu.requested.roams
  · exact hu.plain.requested.roams
  · exact hu.plain.requested.roams
  · exact hz'.calm (Calm.refl z').forward
end
end Sys2Proof.Machine

namespace Sys2Proof.Machine

set_option Elab.async false
open Sys2Proof.Bits

section
variable {s u v : State}

theorem OnNext.steps {r : Result} (h : OnNext (Calm s) r) : OnNext (Steps s) r := h.imp fun _ hu => hu.steps

theorem Steps.of_at {t} (h : Steps (s.at t) u) : Steps s u :=
  ⟨(Calm.refl s).at.toSound.trans h.toSound, by rw [← State.at_dev s t]; exact h.moves⟩

theorem OnNext.steps_of_at {t} {r : Result} (h : OnNext (Steps (s.at t)) r) : OnNext (Steps s) r := h.imp fun _ hu => hu.of_at

theorem deviceMove_off (a : DevState) : deviceMove a .off = true := by cases a <;> rfl

theorem deviceMove_fault (a : DevState) : deviceMove a .fault = true := by cases a <;> rfl

theorem deviceMove_reset (a : DevState) : deviceMove a .reset = true := by cases a <;> rfl

theorem Drift.row_of_row {a b c : DevState} (h : deviceMove a b = true) (hb : b ≠ .run) (k : Drift b c) : Row a c := by
  rcases k with rfl | rfl | ⟨rfl, -⟩
  · exact .inr h
  · exact .inr (deviceMove_fault a)
  · exact absurd rfl hb

theorem Steps.toReset {k c} : Steps u (u.toReset k c) :=
  ⟨(Sound.refl u).toReset, (u.toReset_st k c).imp id fun h => by rw [h, deviceMove_reset]⟩

/-- What only settles after a step that has moved the device. -/
theorem Steps.after (h : Steps s u) (k : Calm u v) (hdev : v.dev.st = u.dev.st) : Steps s v :=
  ⟨h.toSound.calm k, by rw [hdev]; exact h.moves⟩

/-- What comes before the device moves, and leaves it where it was. -/
theorem Steps.before (h : Calm s u) (hdev : u.dev.st = s.dev.st) (k : Steps u v) : Steps s v :=
  ⟨h.toSound.trans k.toSound, by rw [← hdev]; exact k.moves⟩

theorem execInputBelowRange_steps {mv t s} : OnNext (Steps s) (execInputBelowRange mv t s) := by
  unfold execInputBelowRange
  extract_lets u v
  have hv : Sound u v := (Sound.refl u).toOff
  have hst : v.dev.st = .off := State.toOff_st u
  clear_value v
  refine OnNext.steps_of_at (t := t) ?_
  split
  · have hw : Calm v { v with pwr := { v.pwr with vin := mv } } := (Calm.refl v).set_pwr
    exact ⟨hv.calm hw, .inr (hst ▸ deviceMove_off _)⟩
  · exact (Calm.refl u).steps

theorem execInputValid_steps {mv t s} : OnNext (Steps s) (execInputValid mv t s) := by
  unfold execInputValid
  extract_lets u v w
  have hv : Calm u v := (Calm.refl u).railsUp
  have hw : Sound u w := hv.enterClosed rfl rfl
  have hst : w.dev.st = .reset := State.enter_st v .reset
  clear_value w
  refine OnNext.steps_of_at (t := t) ?_
  split
  · have hdict : Calm w { w with dict := Sparse.write objDefault w.dict (objKey 0x2004 0) causePowerOn } :=
      (Calm.refl w).set_dict Sparse.write_wf
    have hpwr := hdict.set_pwr (x := { w.pwr with vin := mv, outOfBand := decide (mv < 40000) || decide (60000 < mv) })
    have hdev := hpwr.set_dev (x := { w.dev with boot := .cold })
    exact ⟨hw.calm hdev, .inr (hst ▸ deviceMove_reset _)⟩
  · exact (Calm.refl u).steps

theorem execResetNAsserted_steps {n t s} : OnNext (Steps s) (execResetNAsserted n t s) := by
  unfold execResetNAsserted
  extract_lets u seen v w
  have hv : Calm u v := (Calm.refl u).plain
  have hw : Steps v w := .toReset
  clear_value w
  refine OnNext.steps_of_at (t := t) ?_
  split
  · have hx : Calm w { w with pwr := { w.pwr with resetN := decide (n < 1000000000) } } := (Calm.refl w).set_pwr
    exact (Steps.before hv rfl hw).after hx rfl
  · exact hv.steps

theorem execColdReset_steps {t s} : OnNext (Steps s) (execColdReset t s) := by
  unfold execColdReset
  extract_lets u v
  have hv : Steps u v := Steps.toReset.after (Calm.refl _).loseVcg rfl
  clear_value v
  refine OnNext.steps_of_at (t := t) ?_
  split
  · have hx : Calm v { v with pwr := { v.pwr with coldPending := true, railsGood := false, droop := 0, stretched := 0 } } :=
      (Calm.refl v).set_pwr
    exact hv.after hx rfl
  · exact (Calm.refl u).steps

theorem execResetNRises_steps {t s} : OnNext (Steps s) (execResetNRises t s) := by
  unfold execResetNRises
  extract_lets u _ v
  have hv : Calm s v := (Calm.refl s).at.set_pwr
  split
  · exact hv.railsUp.steps
  · exact hv.steps

theorem execFaultReset_steps {t s} : OnNext (Steps s) (execFaultReset t s) := by
  unfold execFaultReset
  extract_lets u
  refine OnNext.steps_of_at (t := t) ?_
  split
  · exact .toReset
  · exact (Calm.refl u).steps

theorem Steps.drainToPrepare (hst : u.dev.st = .drain) : Steps u u.drainToPrepare :=
  ⟨(Sound.refl u).drainToPrepare, .inr (by rw [hst, State.drainToPrepare_st]; rfl)⟩

theorem execDrainExitComplete_steps {t s} : OnNext (Steps s) (execDrainExitComplete t s) := by
  unfold execDrainExitComplete
  extract_lets u
  refine OnNext.steps_of_at (t := t) ?_
  have hu : Steps u u := (Calm.refl u).steps
  split
  · split
    · rename_i h
      exact .drainToPrepare h.1
    · exact hu
  · exact hu
  · exact hu

theorem execDrainExitTimeout_steps {t s} : OnNext (Steps s) (execDrainExitTimeout t s) := by
  unfold execDrainExitTimeout
  extract_lets u
  refine OnNext.steps_of_at (t := t) ?_
  have hu : Steps u u := (Calm.refl u).steps
  split
  · split
    · rename_i h
      exact .drainToPrepare h.1
    · exact hu
  · exact hu
  · exact hu

theorem execCurtainOpen_steps {t s} : OnNext (Steps s) (execCurtainOpen t s) := by
  unfold execCurtainOpen
  extract_lets u v w x
  refine OnNext.steps_of_at (t := t) ?_
  have hu : Steps u u := (Calm.refl u).steps
  have hx : Sound u x := (Sound.refl u).enterRunLinksDown.calm (Calm.refl _).fillShapers
  have hst : x.dev.st = .run := State.enter_st w .run
  clear_value x
  split
  · split
    · rename_i hprep
      have hy : Calm x { x with dev := { x.dev with trans := .none } } := (Calm.refl x).set_dev
      exact ⟨hx.calm hy, .inr (by rw [hprep]; exact hst ▸ rfl)⟩
    · exact hu
  · exact hu
  · exact hu

/-- An error between leaves a device in TEST there or in FAULT, and both may be reset. -/
theorem Steps.toReset_of_test {k c} (h : Calm s u) (hst : s.dev.st = .test) : Steps s (u.toReset k c) := by
  refine ⟨h.toSound.toReset, ?_⟩
  have hu : Row s.dev.st u.dev.st := by
    rcases h.drift with h | h | ⟨h, -⟩
    · exact .inl h
    · exact .inr (by rw [h, deviceMove_fault])
    · rw [hst] at h
      cases h
  rcases u.toReset_st k c with h | h
  · rwa [h]
  · exact .inr (by rw [h, deviceMove_reset])

theorem execTestComplete_steps {pass pattern chains t s} : OnNext (Steps s) (execTestComplete pass pattern chains t s) := by
  unfold execTestComplete
  extract_lets u _ v w _ x y first _ z a
  refine OnNext.steps_of_at (t := t) ?_
  have hv : Calm u v := (Calm.refl u).plain
  have hw : Calm u w := by
    unfold w
    clear_value v
    split
    · exact hv.gapRecord
    · exact hv
  clear_value w
  have hx : Calm u x := hw.set_dev
  have hy : Calm u y := hx.fwMarker
  have hz : Calm u z := hy.plain.firstSuspect
  have ha : Calm u a := .ite hy hz.errorRecord
  split
  · rename_i hst
    exact .toReset_of_test ha hst
  · exact (Calm.refl u).steps

theorem execRingJoin_steps {up0 up1 t s} : OnNext (Steps s) (execRingJoin up0 up1 t s) := by
  unfold execRingJoin
  extract_lets u due v
  have hu : Calm s u := (Calm.refl s).at
  split
  · rename_i h
    have hv : Calm s v := hu.openRing (by simp_all)
    clear_value v
    exact hv.plain.steps
  · exact hu.steps

theorem Drift.of_settled {a b : DevState} (h : Drift a b) (ha : a ≠ .run) : b = a ∨ b = .fault :=
  h.imp_right fun h => h.elim id fun h => absurd h.1 ha

/-- Firmware starts from a state in which the in-line gates are off, and leaves the device in BOOT, or in FAULT on an error. -/
theorem Sound.firmwareStart (h : Calm s u) {b} (hi : ∀ v, Calm u v → v.curtainSafe = true → v.pwr.gateInline = false) :
    Sound s (u.firmwareStart b) ∧ Drift .boot (u.firmwareStart b).dev.st := by
  unfold State.firmwareStart
  extract_lets v w x y
  have hv : Calm u v := (Calm.refl u).zeroStacks.drawSeeds
  have hw : Calm u w := .ite hv.applyConfig hv
  have hx : Calm u x := hw.put
  have hboot : Sound s (x.enter .boot) := (h.trans hx).toSound.enter fun hc => State.curtainSafe_moved hc rfl (.inl (hi x hx hc))
  have hy : Calm (x.enter .boot) y := (Calm.refl _).bootRecords.bootScan
  have hz : Calm (x.enter .boot) (if b = true then y.raise 0x00030001 0x9008 0 else y) := .ite hy.raise hy
  refine ⟨hboot.calm hz, ?_⟩
  have hdrift := hz.drift
  rwa [State.enter_st] at hdrift

/-- From RESET and BOOT on, whatever errors came between, the in-line gates are off while the curtain is safe. -/
theorem Calm.gateInline_off (h : Calm s u) (hrun : s.dev.st ≠ .run) (hdrain : s.dev.st ≠ .drain) (hc : u.curtainSafe = true) :
    u.pwr.gateInline = false := by
  rcases h.drift.of_settled hrun with hst | hst
  · exact State.gateInline_off hc (hst ▸ hrun) (hst ▸ hdrain)
  · exact State.gateInline_off hc (by rw [hst]; exact nofun) (by rw [hst]; exact nofun)

/-- Past RESET: nothing more than BOOT, or FAULT. -/
theorem Row.of_boot {a b : DevState} (ha : a = .reset) (h : Drift .boot b) : Row a b := by
  subst ha
  rcases h.of_settled nofun with rfl | rfl
  · exact .inr rfl
  · exact .inr rfl

theorem execResetToBoot_steps {t s} : OnNext (Steps s) (execResetToBoot t s) := by
  unfold execResetToBoot
  extract_lets u reverted v w
  refine OnNext.steps_of_at (t := t) ?_
  have hv : Calm u v := (Calm.refl u).revertTrial.romChoose
  have hw : Sound u w := hv.closeAll.leaveRing.enterClosed rfl rfl
  have hst : w.dev.st = .fault := State.enter_st _ .fault
  clear_value w
  split
  · rename_i h
    obtain ⟨hreset, -⟩ := h
    split
    · obtain ⟨hsound, hdrift⟩ := Sound.firmwareStart (b := reverted) hv fun x hx =>
        (hv.trans hx).gateInline_off (by rw [hreset]; exact nofun) (by rw [hreset]; exact nofun)
      exact ⟨hsound, .of_boot hreset hdrift⟩
    · have hx : Calm w { w with dev := { w.dev with trans := .none, noFaultReset := true, stopAt := some w.now } } :=
        (Calm.refl w).set_dev
      exact ⟨hw.calm hx, .inr (hst ▸ deviceMove_fault _)⟩
  · exact (Calm.refl u).steps

theorem Sound.enterPrepareOnRing (h : Sound s u) (hi : u.curtainSafe = true → u.pwr.gateInline = false) :
    Sound s (u.openRing.enter .prepare) := by
  have hsame : { u.openRing with dev := u.openRing.dev.entering .prepare u.openRing.now } =
      State.openRing { u with dev := u.dev.entering .prepare u.now } := by
    unfold State.openRing
    split <;> rfl
  have hprep : Sound s { u with dev := u.dev.entering .prepare u.now } := h.move rfl fun hc => .inl (hi hc)
  have hopen : Sound s { u.openRing with dev := u.openRing.dev.entering .prepare u.openRing.now } :=
    hsame ▸ hprep.calm ((Calm.refl _).openRing rfl)
  exact hopen.calm (State.enter_calm _ _)

theorem execBootComplete_steps {t s} : OnNext (Steps s) (execBootComplete t s) := by
  unfold execBootComplete
  extract_lets u v w x
  refine OnNext.steps_of_at (t := t) ?_
  split
  · rename_i hboot
    have hv : Calm u v := (Calm.refl u).restoreLibrary
    have hi : v.curtainSafe = true → v.pwr.gateInline = false :=
      hv.gateInline_off (by rw [hboot]; exact nofun) (by rw [hboot]; exact nofun)
    have hx : Sound u x := by
      unfold x w
      split
      · exact hv.toSound.enter fun hc => State.curtainSafe_moved hc rfl (.inl (hi hc))
      · exact hv.toSound.enterPrepareOnRing hi
    have hst : x.dev.st = .prepare := State.enter_st w .prepare
    clear_value x
    split
    · have hrun : Calm x x.startRun := (Calm.refl x).startRun
      refine ⟨hx.calm hrun, ?_⟩
      have hdrift := hrun.drift
      rw [hst] at hdrift
      rw [hboot]
      rcases hdrift.of_settled nofun with h | h
      all_goals exact .inr (by rw [h]; rfl)
    · exact ⟨hx, .inr (by rw [hboot, hst]; rfl)⟩
  · exact (Calm.refl u).steps

/-- The commands that apply a whole input image. -/
def AppliesImage : Instr → Prop
  | .inputImageApply _ => True
  | .cycleFrameExchange _ _ _ => True
  | _ => False

/-- Every command is a sound change that moves the device by one row of the table, but for the two that apply an input image. -/
theorem exec_steps (c : Instr) (hc : ¬AppliesImage c) (s : State) : OnNext (Steps s) (exec c s) := by
  cases c with
  | inputImageApply _ => exact absurd trivial hc
  | cycleFrameExchange _ _ _ => exact absurd trivial hc
  | inputBelowRange _ _ => exact execInputBelowRange_steps
  | inputValid _ _ => exact execInputValid_steps
  | inputOvervoltage _ _ => exact (execInputOvervoltage_calm (.refl s)).steps
  | inputVoltageEvent _ _ => exact (execInputVoltageEvent_calm (.refl s)).steps
  | resetNAsserted _ _ => exact execResetNAsserted_steps
  | coldReset _ => exact execColdReset_steps
  | resetToBoot _ => exact execResetToBoot_steps
  | bootComplete _ => exact execBootComplete_steps
  | ringJoin _ _ _ => exact execRingJoin_steps
  | ringJoinTimeout _ => exact (execRingJoinTimeout_calm (.refl s)).steps
  | railOutOfTolerance _ _ _ => exact (execRailOutOfTolerance_calm (.refl s)).steps
  | droopDetected _ _ => exact (execDroopDetected_calm (.refl s)).steps
  | droopRecovered _ _ => exact (execDroopRecovered_calm (.refl s)).steps
  | thermalEvaluation _ _ => exact (execThermalEvaluation_calm (.refl s)).steps
  | thermalLimit _ _ _ => exact (execThermalLimit_calm (.refl s)).steps
  | dramRefreshAdjust _ _ _ => exact (execDramRefreshAdjust_calm (.refl s)).steps
  | ppsInEdge _ => exact (execPpsInEdge_calm (.refl s)).steps
  | refInChange _ _ => exact (execRefInChange_calm (.refl s)).steps
  | faultEntry _ _ => exact (execFaultEntry_calm (.refl s)).steps
  | faultReset _ => exact execFaultReset_steps
  | arrayIslandFault _ _ _ => exact (execArrayIslandFault_calm (.refl s)).steps
  | stateRequestPrepare _ => exact State.serveState_at.steps
  | drainExitComplete _ => exact execDrainExitComplete_steps
  | drainExitTimeout _ => exact execDrainExitTimeout_steps
  | stateRequestRun _ => exact State.serveState_at.steps
  | curtainOpen _ => exact execCurtainOpen_steps
  | curtainSwitchComplete _ _ => exact (execCurtainSwitchComplete_calm (.refl s)).steps
  | stateRequestDrain _ => exact State.serveState_at.steps
  | stateRequestTest _ => exact State.serveState_at.steps
  | testComplete _ _ _ _ => exact execTestComplete_steps
  | resetRequest _ => exact State.serveState_at.steps
  | mgmtLinkDown _ _ => exact (execMgmtLinkDown_calm (.refl s)).steps
  | mgmtLinkUp _ _ _ => exact (execMgmtLinkUp_calm (.refl s)).steps
  | ringFrameReceived _ _ _ => exact (execRingFrameReceived_calm (.refl s)).steps
  | cycleSend _ => exact (execCycleSend_calm (.refl s)).steps
  | outputImageLatch _ => exact (execOutputImageLatch_calm (.refl s)).steps
  | missedCycle _ => exact (execMissedCycle_calm (.refl s)).steps
  | read _ _ _ => exact (execRead_calm (.refl s)).steps
  | write _ _ _ _ => exact (Requested.of_at State.serveAny_requested).steps
  | openSession _ _ _ _ => exact (execOpenSession_calm (.refl s)).steps
  | auth _ _ _ => exact (execAuth_calm (.refl s)).steps
  | close _ => exact (execClose_calm (.refl s)).steps
  | sessionExpiry _ _ => exact (execSessionExpiry_calm (.refl s)).steps
  | downloadInit _ _ _ _ _ _ _ => exact (execDownloadInit_calm (.refl s)).steps
  | segment _ _ _ _ => exact (execSegment_calm (.refl s)).steps
  | ack _ _ _ => exact (execAck_calm (.refl s)).steps
  | ackTimer _ _ => exact (execAckTimer_calm (.refl s)).steps
  | downloadEnd _ _ => exact (execDownloadEnd_calm (.refl s)).steps
  | uploadInit _ _ _ _ => exact (execUploadInit_calm (.refl s)).steps
  | uploadEnd _ _ => exact (execUploadEnd_calm (.refl s)).steps
  | transferAbort _ _ _ => exact (execTransferAbort_calm (.refl s)).steps
  | transferTimeout _ _ => exact (execTransferTimeout_calm (.refl s)).steps
  | imageLoadCheck _ _ => exact (execImageLoadCheck_calm (.refl s)).steps
  | firmwareSlotVerify _ _ => exact (execFirmwareSlotVerify_calm (.refl s)).steps
  | scanContentVerify _ => exact (execScanContentVerify_calm (.refl s)).steps
  | ruleCommit _ _ => exact State.serveValue_at.steps
  | modelCommit _ _ => exact State.serveValue_at.steps
  | commitCancel _ _ => exact State.serveValue_at.steps
  | commitTakesEffect _ => exact (execCommitTakesEffect_calm (.refl s)).steps
  | accessionRetire _ _ => exact (execAccessionRetire_calm (.refl s)).steps
  | retirementOverdue _ _ => exact (execRetirementOverdue_calm (.refl s)).steps
  | forceRetireModel _ => exact State.serveValue_at.steps
  | forceRetireRule _ => exact State.serveValue_at.steps
  | stageRequest _ _ _ => exact State.serveValue_at.steps
  | stagingComplete _ _ => exact (execStagingComplete_calm (.refl s)).steps
  | installListStart _ _ => exact (execInstallListStart_calm (.refl s)).steps
  | installComplete _ _ => exact (execInstallComplete_calm (.refl s)).steps
  | erase _ _ => exact State.serveValue_at.steps
  | regionCommit _ => exact (execRegionCommit_calm (.refl s)).steps
  | cyclicCommit _ => exact State.serveValue_at.steps
  | discardStaged _ _ => exact State.serveValue_at.steps
  | saveConfiguration _ => exact (execSaveConfiguration_calm (.refl s)).steps
  | saveComplete _ => exact (execSaveComplete_calm (.refl s)).steps
  | restoreDefaults _ => exact State.serveValue_at.steps
  | ringMasterRoleWrite _ _ => exact State.serveValue_at.steps
  | clockSourceWrite _ _ => exact State.serveValue_at.steps
  | evtOutFunctionWrite _ _ _ => exact State.serveValue_at.steps
  | ringStorageWrite _ _ _ _ _ => exact State.serveValue_at.steps
  | queueBindingWrite _ _ _ _ => exact State.serveValue_at.steps
  | shaperWrite _ _ _ _ => exact State.serveValue_at.steps
  | holdPoolShareApply _ => exact (execHoldPoolShareApply_calm (.refl s)).steps
  | hostKeySlotWrite _ _ _ => exact (execHostKeySlotWrite_calm (.refl s)).steps
  | linkUp _ _ => exact (execLinkUp_calm (.refl s)).steps
  | frameReceived _ _ _ _ => exact (execFrameReceived_calm (.refl s)).steps
  | frameSequenced _ _ _ => exact (execFrameSequenced_calm (.refl s)).steps
  | packetClassified _ => exact (execPacketClassified_calm (.refl s)).steps
  | ecpriStreamExpire _ _ _ _ => exact (execEcpriStreamExpire_calm (.refl s)).steps
  | catalogueLookup _ => exact (execCatalogueLookup_calm (.refl s)).steps
  | bucketFetchComplete _ _ => exact (execBucketFetchComplete_calm (.refl s)).steps
  | sweeperVisit _ => exact (execSweeperVisit_calm (.refl s)).steps
  | rehashRequest _ => exact (execRehashRequest_calm (.refl s)).steps
  | migrationVisit _ => exact (execMigrationVisit_calm (.refl s)).steps
  | probe _ => exact (execProbe_calm (.refl s)).steps
  | probeDelete _ => exact (execProbeDelete_calm (.refl s)).steps
  | catalogueClear _ => exact (execCatalogueClear_calm (.refl s)).steps
  | treeVectorEntry _ _ _ => exact execTreeVectorEntry_calm.steps
  | treeVerdict _ _ => exact (execTreeVerdict_calm (.refl s)).steps
  | treeBankTimeout _ _ => exact (execTreeBankTimeout_calm (.refl s)).steps
  | tapRowsWritten _ _ => exact (execTapRowsWritten_calm (.refl s)).steps
  | reorderRelease _ _ => exact (execReorderRelease_calm (.refl s)).steps
  | reorderTimeout _ _ => exact (execReorderTimeout_calm (.refl s)).steps
  | schedulerSelect _ _ => exact execSchedulerSelect_calm.steps
  | frameTransmitted _ _ => exact (execFrameTransmitted_calm (.refl s)).steps
  | neuralVerdictApply _ => exact (execNeuralVerdictApply_calm (.refl s)).steps
  | holdTimeout _ _ => exact (execHoldTimeout_calm (.refl s)).steps
  | listStart _ _ => exact (execListStart_calm (.refl s)).steps
  | preEmption _ _ => exact (execPreEmption_calm (.refl s)).steps
  | urgentPreEmption _ _ => exact (execUrgentPreEmption_calm (.refl s)).steps
  | listResume _ _ => exact (execListResume_calm (.refl s)).steps
  | skewResume _ _ => exact (execSkewResume_calm (.refl s)).steps
  | nop _ _ _ => exact (execNop_calm (.refl s)).steps
  | shelve _ _ _ => exact (execShelve_calm (.refl s)).steps
  | stage _ _ _ => exact (execStage_calm (.refl s)).steps
  | stream _ _ _ => exact (execStream_calm (.refl s)).steps
  | streamComplete _ _ _ _ _ => exact (execStreamComplete_calm (.refl s)).steps
  | drain _ _ _ _ => exact (execDrain_calm (.refl s)).steps
  | drainComplete _ _ _ => exact (execDrainComplete_calm (.refl s)).steps
  | arbitrationComplete _ _ _ => exact (execArbitrationComplete_calm (.refl s)).steps
  | arbitrationTimeout _ _ => exact (execArbitrationTimeout_calm (.refl s)).steps
  | swap _ _ _ => exact (execSwap_calm (.refl s)).steps
  | tapFlush _ _ _ => exact (execTapFlush_calm (.refl s)).steps
  | tapRelease _ _ _ => exact (execTapRelease_calm (.refl s)).steps
  | emitVerdict _ _ _ => exact (execEmitVerdict_calm (.refl s)).steps
  | emitTensor _ _ _ => exact (execEmitTensor_calm (.refl s)).steps
  | emitMarker _ _ _ => exact (execEmitMarker_calm (.refl s)).steps
  | callslip _ _ _ => exact (execCallslip_calm (.refl s)).steps
  | slipComplete _ _ _ => exact (execSlipComplete_calm (.refl s)).steps
  | operationTimeout _ _ => exact (execOperationTimeout_calm (.refl s)).steps
  | wait _ _ _ => exact (execWait_calm (.refl s)).steps
  | waitComplete _ _ => exact (execWaitComplete_calm (.refl s)).steps
  | signal _ _ _ => exact (execSignal_calm (.refl s)).steps
  | cueLightSignal _ _ _ => exact (execCueLightSignal_calm (.refl s)).steps
  | cueLightTriggerFire _ _ => exact (execCueLightTriggerFire_calm (.refl s)).steps
  | fence _ _ _ => exact (execFence_calm (.refl s)).steps
  | fenceComplete _ _ => exact (execFenceComplete_calm (.refl s)).steps
  | loop _ _ _ => exact (execLoop_calm (.refl s)).steps
  | endloop _ _ _ => exact (execEndloop_calm (.refl s)).steps
  | call _ _ _ => exact (execCall_calm (.refl s)).steps
  | ret _ _ _ => exact (execRet_calm (.refl s)).steps
  | restart _ _ _ => exact (execRestart_calm (.refl s)).steps
  | mark _ _ _ => exact (execMark_calm (.refl s)).steps
  | unmark _ _ _ => exact (execUnmark_calm (.refl s)).steps
  | hold _ _ _ => exact (execHold_calm (.refl s)).steps
  | holdComplete _ _ => exact (execHoldComplete_calm (.refl s)).steps
  | postCue _ _ _ _ => exact (execPostCue_calm (.refl s)).steps
  | fire _ _ _ => exact (execFire_calm (.refl s)).steps
  | clockTriggerFire _ _ => exact (execClockTriggerFire_calm (.refl s)).steps
  | doorbellReceived _ _ _ => exact (execDoorbellReceived_calm (.refl s)).steps
  | pendingFiringAppend _ _ => exact (execPendingFiringAppend_calm (.refl s)).steps
  | governorAdmit _ _ => exact (execGovernorAdmit_calm (.refl s)).steps
  | rampUpComplete _ _ => exact (execRampUpComplete_calm (.refl s)).steps
  | rampDownStart _ _ _ => exact (execRampDownStart_calm (.refl s)).steps
  | rampDownComplete _ _ => exact (execRampDownComplete_calm (.refl s)).steps
  | clearFallback _ => exact (execClearFallback_calm (.refl s)).steps
  | fabLinkUp _ _ _ => exact (execFabLinkUp_calm (.refl s)).steps
  | fabLinkFailed _ _ _ => exact (execFabLinkFailed_calm (.refl s)).steps
  | flitReceived _ _ _ _ _ => exact (execFlitReceived_calm (.refl s)).steps
  | linkStateUpdate _ _ => exact (execLinkStateUpdate_calm (.refl s)).steps
  | remoteRead _ _ _ _ => exact (execRemoteRead_calm (.refl s)).steps
  | remoteWrite _ _ _ _ => exact (execRemoteWrite_calm (.refl s)).steps
  | remoteFetchAdd _ _ _ _ => exact (execRemoteFetchAdd_calm (.refl s)).steps
  | remoteCompareSwap _ _ _ _ _ => exact (execRemoteCompareSwap_calm (.refl s)).steps
  | timestampExchange _ _ _ _ _ => exact (execTimestampExchange_calm (.refl s)).steps
  | holdover _ => exact (execHoldover_calm (.refl s)).steps
  | grandmasterElection _ => exact (execGrandmasterElection_calm (.refl s)).steps
  | sourceConflict _ _ => exact (execSourceConflict_calm (.refl s)).steps
  | patrolRead _ _ => exact (execPatrolRead_calm (.refl s)).steps
  | imbalanceWindow _ _ => exact (execImbalanceWindow_calm (.refl s)).steps
  | fabricResidualCheck _ => exact (execFabricResidualCheck_calm (.refl s)).steps
  | peek _ => exact (execPeek_calm (.refl s)).steps
  | scrubPassStart _ => exact (execScrubPassStart_calm (.refl s)).steps
  | scrubPassEnd x bad t =>
    have hend : OnNext (Calm s) (execScrubPassEnd x bad t s) := execScrubPassEnd_calm
    have hsteps := OnNext.steps hend
    exact hsteps
  | clearReplacementFlag _ => exact State.serveValue_at.steps
  | scanRequest _ _ => exact State.serveValue_at.steps
  | fieldScanStart _ _ => exact (execFieldScanStart_calm (.refl s)).steps
  | fieldScanComplete _ _ _ _ _ => exact (execFieldScanComplete_calm (.refl s)).steps
  | samplingStrobe _ => exact (execSamplingStrobe_calm (.refl s)).steps
  | hostMark _ _ => exact (execHostMark_calm (.refl s)).steps
  | hostUnmark _ _ => exact (execHostUnmark_calm (.refl s)).steps
  | hangDeclared _ _ => exact (execHangDeclared_calm (.refl s)).steps
  | freezeRequest _ _ => exact (execFreezeRequest_calm (.refl s)).steps
  | freeze _ => exact (execFreeze_calm (.refl s)).steps
  | dumpWritten _ => exact (execDumpWritten_calm (.refl s)).steps
  | hangDumpClear _ => exact (execHangDumpClear_calm (.refl s)).steps
  | ownerKeyHashConfirm _ _ => exact (execOwnerKeyHashConfirm_calm (.refl s)).steps
  | enforcementProgram _ _ => exact (execEnforcementProgram_calm (.refl s)).steps
  | raiseCounter _ _ => exact (execRaiseCounter_calm (.refl s)).steps
  | activateFirmwareSlot _ _ => exact (execActivateFirmwareSlot_calm (.refl s)).steps
  | confirmFirmware _ => exact (execConfirmFirmware_calm (.refl s)).steps
  | attestationNonce _ _ => exact (execAttestationNonce_calm (.refl s)).steps
  | attestationReportReady _ => exact (execAttestationReportReady_calm (.refl s)).steps
  | debugToken _ _ => exact (execDebugToken_calm (.refl s)).steps
  | debugRelock _ => exact (execDebugRelock_calm (.refl s)).steps
  | linkDown _ _ => exact (execLinkDown_calm (.refl s)).steps
  | stageComplete _ _ => exact (execStageComplete_calm (.refl s)).steps
  | shelveComplete _ _ => exact (execShelveComplete_calm (.refl s)).steps
  | emitComplete _ _ => exact (execEmitComplete_calm (.refl s)).steps
  | doorbellAccepted _ _ => exact execDoorbellAccepted_calm.steps
  | resetNRises _ => exact execResetNRises_steps
  | ppsOutput _ => exact (execPpsOutput_calm (.refl s)).steps
  | evtOutPulseEnd _ => exact (execEvtOutPulseEnd_calm (.refl s)).steps
  | debugPortInstruction _ => exact (execDebugPortInstruction_calm (.refl s)).steps

theorem exec_roams (c : Instr) (hc : AppliesImage c) (s : State) : OnNext (Roams s) (exec c s) := by
  cases c with
  | inputImageApply _ => exact execInputImageApply_roams
  | cycleFrameExchange _ _ _ => exact execCycleFrameExchange_roams
  | _ => exact hc.elim

theorem exec_sound (c : Instr) (s : State) : OnNext (Sound s) (exec c s) := by
  by_cases hc : AppliesImage c
  · exact (exec_roams c hc s).imp fun _ h => h.toSound
  · exact (exec_steps c hc s).imp fun _ h => h.toSound

/-! ## Every step -/

/-- A step takes the front command, if there is one, and the rest is a sound change. -/
theorem step_sound {s u : State} (h : step s = .next u) : Sound { s with pending := s.pending.tail } u := by
  unfold step at h
  split at h
  · rename_i hp
    cases h
    rw [show ({ s with pending := s.pending.tail } : State) = s by rw [hp, List.tail_nil, ← hp]]
    exact (Calm.refl s).at.toSound
  · rename_i c rest hp
    rw [hp, List.tail_cons]
    exact (exec_sound c _).of_eq h

/-- Settles O57: every command is a sound change (`exec_sound`), and what is fixed is part of that. -/
theorem stepKeepsFixed : Obligations.StepKeepsFixed := by
  intro s u h
  obtain ⟨hmfg, hpending, hfuses⟩ := (step_sound h).keeps
  exact ⟨hmfg, hpending, hfuses⟩

/-- Settles O58: the one form of the tables is kept by every single write (`Calm.set_dict` and its like), so by every command. -/
theorem stepKeepsCanonical : Obligations.StepKeepsCanonical := fun _ _ hs h => (step_sound h).form hs

/-- Settles O59: the gates are closed before the states that forbid them are entered, and opened only in states that let them be. -/
theorem stepKeepsCurtain : Obligations.StepKeepsCurtain := fun _ _ hs h => (step_sound h).curtain hs

/-- Settles O60: one request makes one move (`State.stateRequest_requested`), and only an input image holds several. -/
theorem deviceMoves : Obligations.DeviceMoves := by
  intro s u h
  unfold step at h
  split at h
  · cases h
    exact .inl (congrArg Dev.st (State.at_dev s _))
  · rename_i c rest hp
    by_cases hc : AppliesImage c
    · rcases ((exec_roams c hc _).of_eq h).moves.row with hrow | hrow
      · exact hrow.imp_right .inl
      · obtain ⟨hrun, htest⟩ := hrow
        refine .inr (.inr ⟨hrun, htest, c, by rw [hp, List.head?_cons], ?_⟩)
        cases c with
        | inputImageApply t => exact .inl ⟨t, rfl⟩
        | cycleFrameExchange i f t => exact .inr ⟨i, f, t, rfl⟩
        | _ => exact hc.elim
    · exact (((exec_steps c hc _).of_eq h).moves).imp_right .inl
end
end Sys2Proof.Machine

/-! Facts that the proofs about single commands share. -/

namespace Sys2Proof.Machine

set_option Elab.async false

/-- At a command's time only the clock has moved. -/
theorem State.at_eq (s : State) (t : Nat) : ∃ c, s.at t = { s with clock := c } := by
  unfold State.at
  split
  · exact ⟨_, rfl⟩
  · exact ⟨s.clock, rfl⟩

theorem State.dict_wf {s : State} (h : s.canonical = true) : Sparse.wf objDefault s.dict = true := (State.canonical_iff.1 h).2.1

theorem State.obj_put {s : State} {i j v : Nat} (h : Sparse.wf objDefault s.dict = true) : (s.put i j v).obj i j = v :=
  Sparse.read_write h

theorem State.obj_bumpBy {s : State} {i j n : Nat} (h : Sparse.wf objDefault s.dict = true) :
    (s.bumpBy i j n).obj i j = (s.obj i j + n) % 2 ^ 64 := State.obj_put h

theorem State.obj_bump {s : State} {i j : Nat} (h : Sparse.wf objDefault s.dict = true) :
    (s.bump i j).obj i j = (s.obj i j + 1) % 2 ^ 64 := State.obj_bumpBy h

theorem State.put_objsBut (s : State) {i j : Nat} (v : Nat) (hj : j < 65536 := by decide) :
    ObjsBut (fun a b => a == i && b == j) s (s.put i j v) := fun i' j' hj' hk =>
  State.obj_put_ne hj' hj fun ⟨hi, hj⟩ => by simp [hi, hj] at hk

theorem State.bump_objsBut (s : State) {i j : Nat} (hj : j < 65536 := by decide) :
    ObjsBut (fun a b => a == i && b == j) s (s.bump i j) := s.put_objsBut _ hj

theorem ObjsBut.refl (k : Nat → Nat → Bool) (s : State) : ObjsBut k s s := fun _ _ _ _ => rfl

end Sys2Proof.Machine


/-! Verification of downloaded content (O16). -/

namespace Sys2Proof.Machine

set_option Elab.async false

section
variable (s : State) (slot : Fin 2) (t : Nat)

theorem State.setFwSlot_flash (k : Nat) (x : FwSlot) :
    (s.setFwSlot k x).flash = if k = 0 then { s.flash with slotA := x } else { s.flash with slotB := x } := by
  unfold State.setFwSlot
  split <;> rfl

theorem State.fwSlot_setFwSlot (k : Nat) (x : FwSlot) : (s.setFwSlot k x).fwSlot k = x := by
  unfold State.setFwSlot State.fwSlot
  split <;> rfl

theorem State.setFwSlot_within (k : Nat) (x : FwSlot) : Within [.flash] s (s.setFwSlot k x) :=
  Within.ite (s.set_flash_within _) (s.set_flash_within _)

end


/-- A firmware slot whose content passes. -/
def FwSlot.passed (x : FwSlot) : FwSlot :=
  { x with good := true, counter := objSecurity x.content, version := objVersion x.content, code := 1 }

section
variable {s : State} {slot : Fin 2} (t : Nat)

theorem execFirmwareSlotVerify_complete (hcode : (s.fwSlot slot.val).code = 0) (hcontent : (s.fwSlot slot.val).content ≠ [])
    (hdown : s.downloading (0xA000 + slot.val) = false) :
    ∃ c, exec (.firmwareSlotVerify slot t) s = .next
      (if s.objectOk (s.fwSlot slot.val).content 1 then
        State.setFwSlot { s with clock := c } slot.val (s.fwSlot slot.val).passed
      else State.setFwSlot (State.bump { s with clock := c } 0x9024 0) slot.val { s.fwSlot slot.val with code := 3 }) := by
  obtain ⟨c, hc⟩ := s.at_eq t
  refine ⟨c, ?_⟩
  have hunfold : exec (.firmwareSlotVerify slot t) s = execFirmwareSlotVerify slot t s := rfl
  rw [hunfold, execFirmwareSlotVerify, hc, apply_ite Host.Outcome.next]
  exact if_pos ⟨hcode, hcontent, hdown⟩

theorem firmwareSlotVerify_verified (hs : s.canonical = true) (hcode : (s.fwSlot slot.val).code = 0)
    (hcontent : (s.fwSlot slot.val).content ≠ []) (hdown : s.downloading (0xA000 + slot.val) = false) :
    ∃ u, exec (.firmwareSlotVerify slot t) s = .next u ∧
      u.flash = (s.setFwSlot slot.val (u.fwSlot slot.val)).flash ∧ (u.fwSlot slot.val).content = (s.fwSlot slot.val).content ∧
      Within [.flash, .dict, .clock] s u ∧
      (if s.objectOk (s.fwSlot slot.val).content 1 = true then
        (u.fwSlot slot.val).code = 1 ∧ (u.fwSlot slot.val).good = true ∧
        (u.fwSlot slot.val).counter = objSecurity (s.fwSlot slot.val).content ∧
        (u.fwSlot slot.val).version = objVersion (s.fwSlot slot.val).content ∧ u.dict = s.dict
      else (u.fwSlot slot.val).code = 3 ∧ (u.fwSlot slot.val).good = (s.fwSlot slot.val).good ∧
        u.obj 0x9024 0 = (s.obj 0x9024 0 + 1) % 2 ^ 64 ∧ ObjsBut (fun i j => i == 0x9024 && j == 0) s u) := by
  obtain ⟨c, hexec⟩ := execFirmwareSlotVerify_complete t hcode hcontent hdown
  refine ⟨_, hexec, ?_⟩
  have hclock : Within [.flash, .dict, .clock] s { s with clock := c } := (s.set_clock_within c).mono (by decide)
  by_cases hok : s.objectOk (s.fwSlot slot.val).content 1 = true
  · rw [if_pos hok, if_pos hok, State.setFwSlot_flash, State.setFwSlot_flash, State.fwSlot_setFwSlot]
    refine ⟨rfl, rfl, hclock.step (State.setFwSlot_within _ _ _) (by decide), rfl, rfl, rfl, rfl, ?_⟩
    exact State.setFwSlot_within _ _ _ .dict (by decide)
  · rw [if_neg hok, if_neg hok, State.setFwSlot_flash, State.setFwSlot_flash, State.fwSlot_setFwSlot]
    have hbump : Within [.flash, .dict, .clock] s (State.bump { s with clock := c } 0x9024 0) :=
      hclock.step (State.bump_within _ _ _) (by decide)
    have hdict (x : FwSlot) : (State.setFwSlot (State.bump { s with clock := c } 0x9024 0) slot.val x).dict = (s.bump 0x9024 0).dict :=
      State.setFwSlot_within _ _ _ .dict (by decide)
    refine ⟨rfl, rfl, hbump.step (State.setFwSlot_within _ _ _) (by decide), rfl, rfl, ?_, ?_⟩
    · rw [State.obj, hdict]
      exact State.obj_bump (State.dict_wf hs)
    · exact (s.bump_objsBut).trans (.of_dict (hdict _))

theorem firmwareSlotVerify_incomplete (h : (s.fwSlot slot.val).code ≠ 0 ∨ (s.fwSlot slot.val).content = [] ∨
    s.downloading (0xA000 + slot.val) = true) : exec (.firmwareSlotVerify slot t) s = .next (s.at t) := by
  obtain ⟨c, hc⟩ := s.at_eq t
  have hunfold : exec (.firmwareSlotVerify slot t) s = execFirmwareSlotVerify slot t s := rfl
  rw [hunfold, execFirmwareSlotVerify, hc]
  refine if_neg fun ⟨hcode, hcontent, hdown⟩ => ?_
  rcases h with h | h | h
  · exact h hcode
  · exact hcontent h
  · exact Bool.false_ne_true (hdown.symm.trans h)

theorem scanContentVerify_verified {b : Bytes} (hs : s.canonical = true) (hb : s.flash.scanNew = some b)
    (hdown : s.downloading 0xA040 = false) :
    ∃ u, exec (.scanContentVerify t) s = .next u ∧
      u.flash = (if s.objectOk b 2 = true then
        { s.flash with scan := b, scanNew := none, scanState := 2, scanGood := true, scanVersion := objVersion b }
        else { s.flash with scanNew := none, scanState := 3 }) ∧
      u.obj 0x9024 0 = (if s.objectOk b 2 = true then s.obj 0x9024 0 else (s.obj 0x9024 0 + 1) % 2 ^ 64) ∧
      Within [.flash, .dict, .clock] s u ∧ ObjsBut (fun i j => i == 0x9024 && j == 0) s u := by
  obtain ⟨c, hc⟩ := s.at_eq t
  have hunfold : exec (.scanContentVerify t) s = execScanContentVerify t s := rfl
  have hclock : Within [.flash, .dict, .clock] s { s with clock := c } := (s.set_clock_within c).mono (by decide)
  rw [hunfold, execScanContentVerify, hc]
  simp only [hb]
  have hdown : ¬s.downloading 0xA040 = true := Bool.eq_false_iff.1 hdown
  by_cases hok : s.objectOk b 2 = true
  · rw [if_pos hok, if_pos hok]
    exact ⟨_, (if_neg hdown).trans (if_pos hok), rfl, rfl, hclock.step (State.set_flash_within _ _) (by decide), .of_dict rfl⟩
  · rw [if_neg hok, if_neg hok]
    refine ⟨_, (if_neg hdown).trans (if_neg hok), rfl, State.obj_bump (State.dict_wf hs), ?_, s.bump_objsBut⟩
    exact (hclock.step (State.bump_within _ 0x9024 0) (by decide)).step (State.set_flash_within _ _) (by decide)

theorem scanContentVerify_nothing (h : s.flash.scanNew = none) : exec (.scanContentVerify t) s = .next (s.at t) := by
  obtain ⟨c, hc⟩ := s.at_eq t
  have hunfold : exec (.scanContentVerify t) s = execScanContentVerify t s := rfl
  rw [hunfold, execScanContentVerify, hc]
  simp only [h]

end

/-- Settles O16: a complete download is checked by `objectOk`, and an incomplete one leaves the module waiting. -/
theorem verificationCommands : Obligations.VerificationCommands :=
  ⟨fun _ _ t hs hcode hcontent hdown => firmwareSlotVerify_verified t hs hcode hcontent hdown,
    fun s _ t h => ⟨_, firmwareSlotVerify_incomplete t h, s.at_within t⟩,
    fun _ t hs _ hb hdown => scanContentVerify_verified t hs hb hdown,
    fun s t h => ⟨_, scanContentVerify_nothing t h, s.at_within t⟩⟩

end Sys2Proof.Machine

/-! Resets (O3). -/

namespace Sys2Proof

set_option Elab.async false

/-- A table that keeps some keys reads them as before, and lists no other. -/
theorem Sparse.read_filterKeys {α : Type} {d : Nat → α} (p : Nat → Bool) (m : Sparse α) (k : Nat) :
    Sparse.read d (m.filter fun e => p e.1) k = if p k then Sparse.read d m k else d k := by
  induction m with
  | nil => simp [Sparse.read]
  | cons e m ih =>
    obtain ⟨x, w⟩ := e
    by_cases hx : x = k
    · subst hx
      by_cases hp : p x = true
      · simp [Sparse.read, hp]
      · rw [List.filter_cons, if_neg hp, ih, if_neg hp, if_neg hp]
    · by_cases hp : p x = true
      · rw [List.filter_cons, if_pos hp, Sparse.read, if_neg hx, ih, Sparse.read, if_neg hx]
      · rw [List.filter_cons, if_neg hp, ih, Sparse.read, if_neg hx]

end Sys2Proof

namespace Sys2Proof.Machine

set_option Elab.async false

section
variable {s u : State} {kind : BootKind} {cause : Nat}

/-- What entering RESET comes to, where the device is neither off nor in RESET. -/
theorem State.toReset_eq (hoff : s.dev.st ≠ .off) (hreset : s.dev.st ≠ .reset) :
    s.toReset kind cause =
      { (s.closeAll.leaveRing.enter .reset).clearVolatile kind.isCold with
        dev := { s.dev with st := .reset, since := s.now, boot := kind, trans := .none, noFaultReset := false }
        dict := Sparse.write objDefault ((s.closeAll.leaveRing.enter .reset).clearVolatile kind.isCold).dict (objKey 0x2004 0) cause
        pwr := { s.closeAll.pwr with evtOut := false, evtEnd := none, throttledFrom := none } } := by
  unfold State.toReset
  rw [if_neg hoff, if_neg fun h => hreset h.1]
  rfl

theorem State.toReset_pwr (hoff : s.dev.st ≠ .off) (hreset : s.dev.st ≠ .reset) :
    (s.toReset kind cause).pwr = { s.closeAll.pwr with evtOut := false, evtEnd := none, throttledFrom := none } := by
  rw [State.toReset_eq hoff hreset]

theorem State.toReset_rel (hoff : s.dev.st ≠ .off) (hreset : s.dev.st ≠ .reset) :
    (s.toReset kind cause).rel = { faultLog := if kind.isCold then [] else s.rel.faultLog } := by
  rw [State.toReset_eq hoff hreset]
  rfl

/-- The objects of the ring that leaving it writes are none that a warm reset keeps. -/
theorem leaveRing_notKept : keptWarm (objKey 0x1801 1) = false ∧ keptWarm (objKey 0x1801 2) = false := by decide

theorem State.clearVolatile_objs (s : State) (cold : Bool) :
    ObjsBut noObj { s with dict := if cold then [] else s.dict.filter fun e => keptWarm e.1 } (s.closeAll.leaveRing.clearVolatile cold) := by
  intro i j hj _
  cases cold with
  | true => rfl
  | false =>
    have hread (w : State) : Sparse.read objDefault (w.clearVolatile false).dict (objKey i j) =
        if keptWarm (objKey i j) then w.obj i j else objDefault (objKey i j) := Sparse.read_filterKeys keptWarm w.dict _
    have hsame (w : State) : State.obj { w with dict := if false then [] else w.dict.filter fun e => keptWarm e.1 } i j =
        if keptWarm (objKey i j) then w.obj i j else objDefault (objKey i j) := Sparse.read_filterKeys keptWarm w.dict _
    rw [hsame, State.obj, hread]
    by_cases hk : keptWarm (objKey i j) = true
    · have hne (l : Nat) (hl : keptWarm (objKey 0x1801 l) = false) : objKey i j ≠ objKey 0x1801 l := fun h => by
        rw [h, hl] at hk
        cases hk
      obtain ⟨h1, h2⟩ := leaveRing_notKept
      rw [if_pos hk, if_pos hk]
      exact (Sparse.read_write_ne (hne 2 h2)).trans (Sparse.read_write_ne (hne 1 h1))
    · rw [if_neg hk, if_neg hk]

theorem State.toReset_restarted (hoff : s.dev.st ≠ .off) (hreset : s.dev.st ≠ .reset) (hcause : cause ≠ 1) :
    s.Restarted (s.toReset kind cause) kind cause := by
  rw [State.toReset_eq hoff hreset]
  have hdict : ((s.closeAll.leaveRing.enter .reset).clearVolatile kind.isCold).dict =
      (s.closeAll.leaveRing.clearVolatile kind.isCold).dict := rfl
  refine ⟨⟨rfl, rfl, rfl, rfl⟩, Sparse.read_write_of_ne_default _ hcause, fun i j hj hk => ?_, ⟨rfl, rfl, rfl, rfl, rfl⟩,
    ⟨rfl, rfl, rfl, rfl, rfl, rfl, rfl, rfl, rfl, rfl, rfl⟩, rfl, ⟨?_, rfl⟩, ?_⟩
  · have hne : ¬(i = 0x2004 ∧ j = 0) := fun ⟨hi, hj⟩ => by simp [hi, hj] at hk
    refine Eq.trans (Sparse.read_write_ne (mt (objKey_inj hj (by decide)).1 hne)) ?_
    exact s.clearVolatile_objs kind.isCold i j hj rfl
  · exact ⟨Nat.and_self _, fun _ => rfl, id, fun _ => Nat.le_refl _⟩
  · intro p hp
    cases p <;> first | rfl | exact absurd (by decide) hp

/-- A reset that begins when house time has moved begins as it would have. -/
theorem State.Restarted.of_clock {c : Clock} (h : State.Restarted { s with clock := c } u kind cause) : s.Restarted u kind cause where
  entered := h.entered
  cause := h.cause
  objects := h.objects
  closed := ⟨h.closed.1, h.closed.2, h.closed.3, h.closed.4, h.closed.5⟩
  empty := h.empty
  odp := h.odp
  fuses := h.fuses
  frame := ((s.set_clock_within c).mono (by decide)).trans h.frame

/-- What changes of power alone leave a reset as it is. -/
theorem State.Restarted.set_pwr (h : s.Restarted u kind cause) {x : Pwr} (hi : x.gateInline = u.pwr.gateInline)
    (hr : x.gateRing = u.pwr.gateRing) (h01 : x.pair01 = u.pwr.pair01) (h23 : x.pair23 = u.pwr.pair23) (hb : x.ring = u.pwr.ring) :
    s.Restarted { u with pwr := x } kind cause where
  entered := h.entered
  cause := h.cause
  objects := h.objects
  closed := ⟨hi.trans h.closed.1, hr.trans h.closed.2, h01.trans h.closed.3, h23.trans h.closed.4, hb.trans h.closed.5⟩
  empty := h.empty
  odp := h.odp
  fuses := h.fuses
  frame := h.frame.step (u.set_pwr_within x) (by decide)

theorem Elem.close_close (e : Elem) : e.close.close = e.close := by cases e <;> rfl

end

section
variable {s : State} (t : Nat)

theorem resetNAsserted_restarts {lowNs : Nat} (hlow : 500 ≤ lowNs) (hoff : s.dev.st ≠ .off) (hreset : s.dev.st ≠ .reset) :
    ∃ u, exec (.resetNAsserted lowNs t) s = .next u ∧ State.Restarted { s with free := s.free + 1 } u .resetN 2 ∧
      u.pwr.resetN = decide (lowNs < 1000000000) ∧ u.pwr.vcgUp = s.pwr.vcgUp ∧ u.pwr.railsGood = s.pwr.railsGood := by
  obtain ⟨c, hc⟩ := s.at_eq t
  obtain ⟨v, hv⟩ : ∃ v : State, v = { s with clock := c, free := s.free + 1 } := ⟨_, rfl⟩
  have hunfold : exec (.resetNAsserted lowNs t) s = execResetNAsserted lowNs t s := rfl
  have hexec : exec (.resetNAsserted lowNs t) s = .next { v.toReset .resetN causeResetN with
      pwr := { (v.toReset .resetN causeResetN).pwr with resetN := decide (lowNs < 1000000000) } } := by
    rw [hunfold, execResetNAsserted, hc, hv]
    exact if_pos (by simp [hlow])
  have hoff' : v.dev.st ≠ .off := by rw [hv]; exact hoff
  have hreset' : v.dev.st ≠ .reset := by rw [hv]; exact hreset
  have hrestart := State.toReset_restarted (kind := .resetN) (cause := causeResetN) hoff' hreset' (by decide)
  have hpwr := State.toReset_pwr (kind := .resetN) (cause := causeResetN) hoff' hreset'
  refine ⟨_, hexec, State.Restarted.of_clock (c := c) (hv ▸ hrestart.set_pwr rfl rfl rfl rfl rfl), rfl, ?_, ?_⟩
  · exact (congrArg Pwr.vcgUp hpwr).trans (by rw [hv]; rfl)
  · exact (congrArg Pwr.railsGood hpwr).trans (by rw [hv]; rfl)

theorem coldReset_restarts (hlow : s.pwr.resetN = false) (hcold : s.pwr.coldPending = false) (hoff : s.dev.st ≠ .off)
    (hreset : s.dev.st ≠ .reset) :
    ∃ u, exec (.coldReset t) s = .next u ∧ s.Restarted u .cold 2 ∧ u.pwr.coldPending = true ∧ u.pwr.railsGood = false ∧
      u.pwr.vcgUp = false ∧ u.pwr.resetN = false := by
  obtain ⟨c, hc⟩ := s.at_eq t
  obtain ⟨v, hv⟩ : ∃ v : State, v = { s with clock := c } := ⟨_, rfl⟩
  have hunfold : exec (.coldReset t) s = execColdReset t s := rfl
  have hexec : exec (.coldReset t) s = .next { (v.toReset .cold causeResetN).loseVcg with
      pwr := { (v.toReset .cold causeResetN).loseVcg.pwr with coldPending := true, railsGood := false, droop := 0, stretched := 0 } } := by
    rw [hunfold, execColdReset, hc, hv]
    exact if_pos ⟨hlow, hoff, hcold⟩
  have hoff' : v.dev.st ≠ .off := by rw [hv]; exact hoff
  have hreset' : v.dev.st ≠ .reset := by rw [hv]; exact hreset
  have hrestart := State.toReset_restarted (kind := .cold) (cause := causeResetN) hoff' hreset' (by decide)
  have hpwr := State.toReset_pwr (kind := .cold) (cause := causeResetN) hoff' hreset'
  have hclosed {f : Pwr → Elem} (h : f (v.toReset .cold causeResetN).pwr = (f v.pwr).close) :
      (f (v.toReset .cold causeResetN).pwr).close = f (v.toReset .cold causeResetN).pwr := by
    rw [h, Elem.close_close]
  refine ⟨_, hexec, State.Restarted.of_clock (c := c) (hv ▸ hrestart.set_pwr ?_ ?_ ?_ ?_ ?_), rfl, rfl, rfl, ?_⟩
  · exact (congrArg Pwr.gateInline hpwr).symm
  · exact (congrArg Pwr.gateRing hpwr).symm
  · exact hclosed (f := Pwr.pair01) (congrArg Pwr.pair01 hpwr)
  · exact hclosed (f := Pwr.pair23) (congrArg Pwr.pair23 hpwr)
  · exact hclosed (f := Pwr.ring) (congrArg Pwr.ring hpwr)
  · exact (congrArg Pwr.resetN hpwr).trans (by rw [hv]; exact hlow)

theorem resetNRises_cold (hcold : s.pwr.coldPending = true) :
    ∃ u, exec (.resetNRises t) s = .next u ∧
      u.pwr = { s.pwr with
        resetN := true, coldPending := false, railsGood := true, vcgUp := true, gateInline := false, gateRing := false } ∧
      u.clock.house = 0 ∧ Within [.pwr, .clock] s u := by
  obtain ⟨c, hc⟩ := s.at_eq t
  have hunfold : exec (.resetNRises t) s = execResetNRises t s := rfl
  rw [hunfold, execResetNRises, hc]
  refine ⟨_, if_pos hcold, rfl, rfl, ?_⟩
  intro p hp
  cases p <;> first | rfl | exact absurd (by decide) hp

theorem resetNRises_warm (hcold : s.pwr.coldPending = false) :
    ∃ u, exec (.resetNRises t) s = .next u ∧ u.pwr = { s.pwr with resetN := true } ∧ Within [.pwr, .clock] s u := by
  obtain ⟨c, hc⟩ := s.at_eq t
  have hunfold : exec (.resetNRises t) s = execResetNRises t s := rfl
  rw [hunfold, execResetNRises, hc]
  have hwarm : ¬s.pwr.coldPending = true := Bool.eq_false_iff.1 hcold
  refine ⟨_, if_neg hwarm, rfl, ?_⟩
  exact ((s.set_clock_within c).mono (by decide)).step (State.set_pwr_within _ _) (by decide)

theorem faultReset_restarts (hst : s.dev.st = .fault) (hno : s.dev.noFaultReset = false) (hauto : s.flag 0x2003 0 = true)
    (hfreeze : s.obs.freeze = none) :
    ∃ u, exec (.faultReset t) s = .next u ∧ s.Restarted u .fault 4 ∧ u.rel.faultLog = s.rel.faultLog ∧ u.pwr.vcgUp = s.pwr.vcgUp ∧
      u.pwr.railsGood = s.pwr.railsGood := by
  obtain ⟨c, hc⟩ := s.at_eq t
  obtain ⟨v, hv⟩ : ∃ v : State, v = { s with clock := c } := ⟨_, rfl⟩
  have hunfold : exec (.faultReset t) s = execFaultReset t s := rfl
  have hexec : exec (.faultReset t) s = .next (v.toReset .fault causeFault) := by
    rw [hunfold, execFaultReset, hc, hv]
    exact if_pos ⟨hst, hno, hauto, by simp [hfreeze]⟩
  have hst' : v.dev.st = .fault := by rw [hv]; exact hst
  have hoff : v.dev.st ≠ .off := by rw [hst']; exact nofun
  have hreset : v.dev.st ≠ .reset := by rw [hst']; exact nofun
  have hrestart := State.toReset_restarted (kind := .fault) (cause := causeFault) hoff hreset (by decide)
  have hpwr := State.toReset_pwr (kind := .fault) (cause := causeFault) hoff hreset
  have hrel := State.toReset_rel (kind := .fault) (cause := causeFault) hoff hreset
  refine ⟨_, hexec, State.Restarted.of_clock (c := c) (hv ▸ hrestart), ?_, ?_, ?_⟩
  · exact (congrArg Rel.faultLog hrel).trans (by rw [hv]; rfl)
  · exact (congrArg Pwr.vcgUp hpwr).trans (by rw [hv]; rfl)
  · exact (congrArg Pwr.railsGood hpwr).trans (by rw [hv]; rfl)

end

/-- Settles O3: what entering RESET leaves is written out once (`State.toReset_eq`), and each reset is that entry. -/
theorem resetCommands : Obligations.ResetCommands :=
  ⟨fun _ _ t hlow hoff hreset => resetNAsserted_restarts t hlow hoff hreset,
    fun _ t hlow hcold hoff hreset => coldReset_restarts t hlow hcold hoff hreset,
    fun _ t hcold => resetNRises_cold t hcold, fun _ t hcold => resetNRises_warm t hcold,
    fun _ t hst hno hauto hfreeze => faultReset_restarts t hst hno hauto hfreeze⟩

end Sys2Proof.Machine

/-! What events, records and the logbook change beside what they report: only their own counts and positions, and of the stacks only
bytes of the logbook's circular area (R365, R419 to R423, R436 to R440). -/

namespace Sys2Proof

set_option Elab.async false

theorem Bits.slice_length (bs : Bytes) (o n : Nat) : (Bits.slice bs o n).length = n := by
  simp only [Bits.slice, List.length_append, List.length_take, List.length_drop, List.length_replicate]
  omega

end Sys2Proof

namespace Sys2Proof.Machine

set_option Elab.async false

open Sys2Proof.Bits

/-- A change that only notes something. -/
structure Noted (s u : State) : Prop where
  objs  : ObjsBut (fun i _ => noteObj i) s u
  sound : s.LogSound → u.LogSound
  bytes : s.LogSound → BytesBut s.inLog s u

section
variable {s u v : State}

theorem ObjsBut.get_eq {k : Nat → Nat → Bool} (h : ObjsBut k s u) {i j : Nat} (hr : isRuleObj i j = false) (hk : k i j = false)
    (hj : j < 65536) : u.get i j = s.get i j := by
  rw [State.get_of_dict hr, State.get_of_dict hr]
  exact h i j hj hk

theorem Noted.refl (s : State) : Noted s s := ⟨.refl _ s, id, fun _ _ _ => rfl⟩

theorem State.logArea_congr (h : u.get (0x6000 + 3) 2 = s.get (0x6000 + 3) 2) : u.logArea = s.logArea :=
  congrArg (fun n => n - 0x400000) h

theorem Noted.inLog_eq (h : Noted s u) : u.inLog = s.inLog := by
  have hbase : u.regionBase 3 = s.regionBase 3 := h.objs.get_eq (i := 0x6000 + 3) (by decide) (by decide) (by decide)
  have harea : u.logArea = s.logArea := State.logArea_congr (h.objs.get_eq (by decide) (by decide) (by decide))
  funext x
  rw [State.inLog, State.inLog, hbase, harea]

theorem Noted.trans (h : Noted s u) (k : Noted u v) : Noted s v where
  objs := h.objs.trans k.objs
  sound hs := k.sound (h.sound hs)
  bytes hs x hx := (k.bytes (h.sound hs) x (h.inLog_eq ▸ hx)).trans (h.bytes hs x hx)

theorem Noted.ite {c : Prop} [Decidable c] (h : Noted s u) (k : Noted s v) : Noted s (if c then u else v) := by
  split <;> assumption

theorem Noted.foldl {α : Type} {f : State → α → State} (h : ∀ s a, Noted s (f s a)) (l : List α) (s : State) :
    Noted s (l.foldl f s) := by
  induction l generalizing s with
  | nil => exact .refl s
  | cons a l ih => exact (h s a).trans (ih _)

/-- Beside the objects that `k` picks, a noting change is a change of notes. -/
theorem Noted.notes (h : Noted s u) (k : Nat → Nat → Bool) : Notes k s u where
  objs := h.objs.mono fun _ _ hij => (Bool.or_eq_false_iff.1 hij).2
  bytes := h.bytes

theorem State.logSound_of_dict (hdict : u.dict = s.dict) (h : s.LogSound) : u.LogSound := by
  have hget : ∀ i j, isRuleObj i j = false → u.get i j = s.get i j := fun i j hr => by
    rw [State.get_of_dict hr, State.get_of_dict hr, hdict]
  have harea : u.logArea = s.logArea := State.logArea_congr (hget _ _ (by decide))
  have hoff := hget 0x8809 0 (by decide)
  exact ⟨hdict ▸ h.form, (congrArg (fun n => n % 64) harea).trans h.whole, (congrArg (fun n => n % 64) hoff).trans h.line, Nat.lt_of_lt_of_eq (Nat.lt_of_le_of_lt (Nat.le_of_eq hoff) h.below) harea.symm⟩

theorem State.byteAt_of_eq (hmem : u.mem = s.mem) (hmemc : u.memc = s.memc) (x : Nat) : u.byteAt x = s.byteAt x := by
  have hdef : u.memDef = s.memDef := funext fun y => by rw [State.memDef, State.memDef, hmemc]
  rw [State.byteAt, State.byteAt, hmem, hdef]

/-- A change of other parts notes nothing. -/
theorem Within.noted {ps : List Part} (h : Within ps s u) (hd : .dict ∉ ps := by decide) (hm : .mem ∉ ps := by decide)
    (hc : .memc ∉ ps := by decide) : Noted s u where
  objs := .of_dict (h .dict hd)
  sound := State.logSound_of_dict (h .dict hd)
  bytes _ x _ := State.byteAt_of_eq (h .mem hm) (h .memc hc) x

/-- Every note but the write offset may be written. -/
theorem Noted.put (s : State) {i j v : Nat} (hi : noteObj i = true) (hne : i ≠ 0x8809 := by decide) (hj : j < 65536 := by decide) :
    Noted s (s.put i j v) where
  objs i' j' hj' hk := State.obj_put_ne hj' hj fun ⟨hii, _⟩ => Bool.false_ne_true (hk.symm.trans (hii ▸ hi))
  sound hs := by
    have hget : ∀ i' j', j' < 65536 → i' ≠ i → (s.put i j v).get i' j' = s.get i' j' := fun i' j' hj' hne' =>
      State.get_put_ne fun h => hne' ((objKey_inj hj' hj).1 h).1
    have hsize : 0x6000 + 3 ≠ i := by rintro rfl; exact absurd hi (by decide)
    have harea : (s.put i j v).logArea = s.logArea := State.logArea_congr (hget _ 2 (by decide) hsize)
    have hoff := hget 0x8809 0 (by decide) hne.symm
    exact ⟨State.put_wf hs.form, (congrArg (fun n => n % 64) harea).trans hs.whole, (congrArg (fun n => n % 64) hoff).trans hs.line, Nat.lt_of_lt_of_eq (Nat.lt_of_le_of_lt (Nat.le_of_eq hoff) hs.below) harea.symm⟩
  bytes _ _ _ := rfl

theorem Noted.bump (s : State) {i j : Nat} (hi : noteObj i = true) (hne : i ≠ 0x8809 := by decide) (hj : j < 65536 := by decide) :
    Noted s (s.bump i j) := .put s hi hne hj

/-- The write offset moves to a line of the circular area. -/
theorem Noted.putOffset (s : State) {o : Nat} (ho : s.LogSound → o % 64 = 0 ∧ o < s.logArea) : Noted s (s.put 0x8809 0 o) where
  objs i' j' hj' hk := State.obj_put_ne hj' (by decide) fun ⟨hii, _⟩ => Bool.false_ne_true (hk.symm.trans (hii ▸ rfl))
  sound hs := by
    have hsize : (s.put 0x8809 0 o).get (0x6000 + 3) 2 = s.get (0x6000 + 3) 2 := State.get_put_ne (by decide)
    have harea : (s.put 0x8809 0 o).logArea = s.logArea := State.logArea_congr hsize
    have hoff : (s.put 0x8809 0 o).get 0x8809 0 = o := State.get_put (by decide) hs.form
    obtain ⟨hline, hbelow⟩ := ho hs
    exact ⟨State.put_wf hs.form, (congrArg (fun n => n % 64) harea).trans hs.whole, hoff.symm ▸ hline, Nat.lt_of_lt_of_eq (Nat.lt_of_le_of_lt (Nat.le_of_eq hoff) hbelow) harea.symm⟩
  bytes _ _ _ := rfl

/-- One line goes to the write offset. -/
theorem Noted.writeLine (s : State) (l : Bytes) : Noted s (s.memWrite (s.regionBase 3 + s.get 0x8809 0) (slice l 0 64)) where
  objs := .of_dict rfl
  sound := State.logSound_of_dict rfl
  bytes hs x hx := by
    refine Sparse.read_writeList_out ?_
    obtain ⟨-, hwhole, hline, hbelow⟩ := hs
    simp only [State.inLog, Bool.and_eq_false_iff, decide_eq_false_iff_not] at hx
    rw [slice_length]
    omega

end

theorem State.logLines_noted (s : State) (ls : List Bytes) : Noted s (s.logLines ls) := by
  induction ls generalizing s with
  | nil => exact .refl s
  | cons l ls ih =>
    unfold State.logLines
    extract_lets o v o' w
    have hv : Noted s v := .writeLine s l
    have hw : Noted v w := by
      unfold w
      by_cases hend : v.logArea ≤ o'
      · rw [if_pos hend]
        exact (Noted.putOffset v fun hs => ⟨rfl, Nat.zero_lt_of_lt hs.below⟩).trans (.bump _ rfl)
      · rw [if_neg hend]
        refine .putOffset v fun hs => ⟨?_, Nat.lt_of_not_le hend⟩
        have hline : o % 64 = 0 := hs.line
        omega
    exact (hv.trans hw).trans (ih w)

theorem State.logWrite_noted (s : State) (lost : Bool) {r : LogRec} (hc : r.cls < 65536) : Noted s (s.logWrite lost r) :=
  .ite (.bump s rfl (hj := hc)) (Noted.trans (.put s rfl) (State.logLines_noted _ _))

theorem State.writeGap_noted (s : State) (k c u n m f l : Nat) : Noted s (s.writeGap k c u n m f l) :=
  Noted.trans (.bump s rfl) (State.logWrite_noted _ _ (show 2 < 65536 by decide))

theorem State.logPlace_noted (s : State) {r : LogRec} (hc : r.cls < 65536) : Noted s (s.logPlace r) :=
  ((Noted.foldl (fun s (l : Lost) => s.writeGap_noted l.kind 0 l.uKind l.unit l.count l.first l.last) _ s).trans
    (State.set_obs_within _ _).noted).trans (State.logWrite_noted _ _ hc)

theorem State.logRecordAt_noted (s : State) (t : Nat) {c : Nat} (k u n : Nat) (b : Bytes) (hc : c < 65536) :
    Noted s (s.logRecordAt t c k u n b) := by
  refine .ite (.refl s) ((s.takeStretch_within u n).noted.trans (.ite (.ite ?_ ?_) (State.logPlace_noted _ hc)))
  · exact (State.set_obs_within _ _).noted.trans (.bump _ rfl (hj := hc))
  · exact (State.set_obs_within _ _).noted

theorem State.logRecord_noted (s : State) {c : Nat} (k u n : Nat) (b : Bytes) (hc : c < 65536 := by decide) :
    Noted s (s.logRecord c k u n b) := s.logRecordAt_noted _ k u n b hc

theorem State.gapRecord_noted (s : State) (k c u n m f l : Nat) : Noted s (s.gapRecord k c u n m f l) :=
  Noted.trans (.bump s rfl) (State.logRecord_noted _ _ _ _ _)

theorem State.fwMarker_noted (s : State) (i : Nat) (d : Bytes) : Noted s (s.fwMarker i d) := by
  refine .ite ?_ (.refl s)
  have hrecord : Noted s (s.fresh.2.logRecord 4 0x10 0 0 (markBody i 0xFF 1 0 (s.fresh.1 % 65536) d)) :=
    s.fresh_within.noted.trans (State.logRecord_noted _ _ _ _ _)
  exact hrecord.trans (.ite (State.tracePulse_within _).noted (.refl _))

theorem State.raiseC_noted (s : State) (code i j cls sev : Nat) : Noted s (s.raiseC code i j cls sev) := by
  refine Noted.trans ((State.set_odp_within s _).noted.trans (.ite ?_ (.bump _ rfl))) (State.logRecord_noted _ _ _ _ _)
  exact (State.emit_within _ _).noted.trans (.bump _ rfl)

theorem State.raise_noted (s : State) (code i j : Nat) : Noted s (s.raise code i j) := s.raiseC_noted _ _ _ _ _

theorem State.enter_noted (s : State) (d : DevState) : Noted s (s.enter d) := by
  unfold State.enter
  extract_lets old x v
  have hv : Noted s v := (s.set_dev_within _).noted
  split
  · exact hv
  · split
    rename_i w hw
    have hfresh : Noted v w := by
      split at hw
      · cases hw
        exact .refl _
      · cases hw
        exact v.fresh_within.noted
    exact (hv.trans hfresh).trans (State.fwMarker_noted _ _ _)

theorem State.journalRecord_noted (s : State) {cls : Nat} (r : JournalRec) (hc : cls < 65536) : Noted s (s.journalRecord cls r) := by
  refine .ite (.ite (s.set_rel_within _).noted (s.set_flash_within _).noted) ?_
  generalize minuteCount cls (s.now / 60000000000) s.rel.minute = y
  have hminute := (s.set_rel_within { s.rel with minute := y.2 }).noted
  refine hminute.trans (.ite (State.set_flash_within _ _).noted ?_)
  exact (State.set_rel_within _ _).noted.trans (.bump _ rfl (hj := hc))

theorem State.pushRecord_noted (s : State) (code seq : Nat) (r : JournalRec) : Noted s (s.pushRecord code seq r) := by
  refine .ite (.refl s) (.ite ?_ ?_)
  · exact ((State.set_odp_within _ _).noted.trans (State.emit_within _ _).noted).trans (.bump _ rfl)
  · exact (State.set_odp_within _ _).noted.trans (.bump _ rfl)

theorem State.detected_noted (s : State) {e : ErrInfo} (hc : e.cls < 65536) : Noted s (s.detected e) :=
  ((Noted.bump s rfl (hj := hc)).trans (State.takeStretch_within _ e.uKind e.unit).noted).trans (State.readings_within _ e).noted

theorem State.errorRecord_noted (s : State) {e : ErrInfo} (hc : e.cls < 65536) : Noted s (s.errorRecord e) := by
  refine Noted.trans ?_ (State.pushRecord_noted _ _ _ _)
  refine Noted.trans ?_ (State.raiseC_noted _ _ _ _ _ _)
  refine Noted.trans ?_ (State.journalRecord_noted _ _ hc)
  have hnumber (w : State) (x : Flash) (y : Rel) : Noted w { w with flash := x, rel := y } :=
    (w.set_flash_within x).noted.trans (State.set_rel_within _ y).noted
  exact (s.detected_noted hc).trans (hnumber _ _ _)

/-! ## Power

A record of no clock region leaves power alone, and a marker moves EVT_OUT at most. -/

/-- Power but for EVT_OUT is the same. -/
def EvtOnly (x y : Pwr) : Prop := y = { x with evtOut := y.evtOut, evtEnd := y.evtEnd }

theorem EvtOnly.refl (x : Pwr) : EvtOnly x x := rfl

theorem EvtOnly.trans {x y z : Pwr} (h : EvtOnly x y) (k : EvtOnly y z) : EvtOnly x z := by
  unfold EvtOnly at *
  rw [k, h]

theorem State.logRecord_pwr (s : State) (c k : Nat) (b : Bytes) : (s.logRecord c k 0 0 b).pwr = s.pwr := by
  have hplain : Within [.dict, .mem, .memc, .obs] s (s.logRecord c k 0 0 b) := by
    refine .ite (.refl _ s) (.ite (.ite ?_ ?_) ((State.logPlace_within _ _).mono (by decide)))
    · exact ((State.set_obs_within _ _).mono (by decide)).step (State.bump_within _ _ _) (by decide)
    · exact (State.set_obs_within _ _).mono (by decide)
  exact hplain .pwr (by decide)

theorem State.gapRecord_pwr (s : State) (k c u n m f l : Nat) : (s.gapRecord k c u n m f l).pwr = s.pwr := State.logRecord_pwr _ _ _ _

theorem State.raiseC_pwr (s : State) (code i j cls sev : Nat) : (s.raiseC code i j cls sev).pwr = s.pwr := by
  unfold State.raiseC
  extract_lets seq second count ok o v w
  have hw : w.pwr = s.pwr := by
    unfold w
    split <;> rfl
  exact (w.logRecord_pwr _ _ _).trans hw

theorem State.tracePulse_pwr (s : State) : EvtOnly s.pwr s.tracePulse.pwr := by
  unfold State.tracePulse
  split
  · split <;> rfl
  · rfl

theorem State.fwMarker_pwr (s : State) (i : Nat) (d : Bytes) : EvtOnly s.pwr (s.fwMarker i d).pwr := by
  have hrecord (b : Bytes) : (s.fresh.2.logRecord 4 0x10 0 0 b).pwr = s.pwr := State.logRecord_pwr _ _ _ _
  unfold State.fwMarker
  split
  · dsimp only
    split
    · exact hrecord _ ▸ State.tracePulse_pwr _
    · exact hrecord _ ▸ EvtOnly.refl _
  · exact EvtOnly.refl _

theorem State.enter_pwr (s : State) (d : DevState) : EvtOnly s.pwr (s.enter d).pwr := by
  unfold State.enter
  extract_lets old x v
  split
  · exact EvtOnly.refl _
  · split
    rename_i w hw
    have hwv : w.pwr = s.pwr := by
      split at hw <;> (cases hw; rfl)
    exact hwv ▸ State.fwMarker_pwr _ _ _

theorem State.errorRecord_pwr (s : State) {e : ErrInfo} (he : stretchRegion e.uKind e.unit = none) :
    (s.errorRecord e).pwr = s.pwr := by
  have hdetected : (s.detected e).pwr = s.pwr := by
    have hstretch : ((s.bump 0x8033 e.cls).takeStretch e.uKind e.unit).2 = s.bump 0x8033 e.cls := by
      unfold State.takeStretch
      rw [he]
    have hread : (s.detected e).pwr = ((s.bump 0x8033 e.cls).takeStretch e.uKind e.unit).2.pwr :=
      State.readings_within _ e .pwr (by decide)
    rw [hread, hstretch, State.bump_pwr]
  refine Eq.trans (State.pushRecord_within _ _ _ _ .pwr (by decide)) ?_
  refine Eq.trans (State.raiseC_pwr _ _ _ _ _ _) ?_
  exact Eq.trans (State.journalRecord_within _ _ _ .pwr (by decide)) hdetected

/-- An error record takes a number and may join the journal; of flash it leaves the rest. -/
theorem State.errorRecord_flash (s : State) (e : ErrInfo) :
    ∃ j, (s.errorRecord e).flash = { s.flash with recNo := (s.flash.recNo + 1) % 2 ^ 32, journal := j } := by
  have hdetected : (s.detected e).flash = s.flash := s.detected_within e .flash (by decide)
  have hjournal (w : State) (c : Nat) (r : JournalRec) : ∃ j, (w.journalRecord c r).flash = { w.flash with journal := j } := by
    unfold State.journalRecord
    extract_lets y z
    split
    · split
      · exact ⟨_, rfl⟩
      · exact ⟨_, rfl⟩
    · split
      rename_i ok m _
      split
      · exact ⟨_, rfl⟩
      · exact ⟨_, rfl⟩
  obtain ⟨x, r, heq, hx⟩ : ∃ (x : State) (r : JournalRec), s.errorRecord e =
      ((x.journalRecord e.cls r).raiseC (0x00010000 + e.cls) 0 0 e.cls (severity e.cls)).pushRecord (0x00010000 + e.cls)
        (x.journalRecord e.cls r).odp.eventSeq r ∧
      x.flash = { (s.detected e).flash with recNo := ((s.bump 0x8033 e.cls).takeStretch e.uKind e.unit).2.flash.recNo.succ % 2 ^ 32 } :=
    ⟨_, _, rfl, rfl⟩
  have hnumber : ((s.bump 0x8033 e.cls).takeStretch e.uKind e.unit).2.flash = s.flash :=
    State.takeStretch_within _ e.uKind e.unit .flash (by decide)
  obtain ⟨j, hj⟩ := hjournal x e.cls r
  refine ⟨j, ?_⟩
  rw [heq, show _ = (x.journalRecord e.cls r).flash from
    Eq.trans (State.pushRecord_within _ _ _ _ .flash (by decide)) (State.raiseC_within _ _ _ _ _ _ .flash (by decide)), hj, hx,
    hdetected, hnumber]

end Sys2Proof.Machine

/-! O9: at the drain exit timeout a list still running is abandoned, and the held packet of its tap buffer is written back. -/

namespace Sys2Proof.Machine

set_option Elab.async false

/-- The list that the counterexample of O9 abandons: launched on array 15 for buffer 0 of tap 0. -/
def lateRun : Run where
  ring := 0
  start := 0
  launched := true
  acc := 1
  lw0 := 0
  lw1 := 0
  evt := 0
  tap := some (0, 0)
  pos := .ring 0
  restart := default
  last := .ring 0

/-- The packet that buffer holds, of a flow of profile 0 and key 7. -/
def latePkt : Pkt :=
  { pid := 1, port := 0, seq := 0, pipe := 0, stamp := 0, ra := 0, ma := 0, bytes := [], inBurst := false, stage := .held,
    flow := some (0, 0, 7) }

/-- DRAIN past its exit timeout of 0 ms, `lateRun` running, and a sweep of the flow's bucket at the catalogue front. -/
def lateDrain : State :=
  { State.reset with
    dict := [(objKey 0x2007 0, 0)]
    dev := { State.reset.dev with st := .drain, trans := .toPrepare 0 }
    pkts := [latePkt]
    cat := { State.reset.cat with waiting := [⟨.sweep (hashPair (0, 0) 0 7).1, false⟩] }
    arr := State.reset.arr.set 15 { State.reset.arr[15] with run := some lateRun }
    sync := { State.reset.sync with taps := [(0, { b0 := { busy := true, acc := some 1, held := [(1, 0)] } })] } }

/-- A write-back whose bucket an earlier operation holds waits behind it (R75). -/
theorem State.writeback_waiting {s : State} {p : Pkt} {profile b key src cls act : Nat} (hflow : p.flow = some (profile, b, key))
    (hblocked : s.catBlocked (s.candidates profile key) = true) :
    (s.writeback p src cls act).cat.waiting.length = s.cat.waiting.length + 1 := by
  unfold State.writeback
  rw [hflow]
  simp only [State.catKey, hblocked, if_true, State.catHold, List.length_append, List.length_singleton]

theorem State.releaseUndetermined_cat (s : State) (p : Pkt) : (s.releaseUndetermined p).cat = (s.writeback p 3 0 7).cat := by
  have hreleased := (s.writeback p 3 0 7).releaseHeld_within p (s.undetermined p) .cat (by decide)
  unfold State.releaseUndetermined
  extract_lets d record v
  split
  · exact Eq.trans (State.verdictRecord_within _ _ _ _ _ _ _ _ .cat (by decide)) hreleased
  · exact hreleased

theorem State.drainToPrepare_cat (s : State) : s.drainToPrepare.cat = s.abandonAll.cat := by
  unfold State.drainToPrepare
  extract_lets v w _
  have hv : Within [.dict, .pkts, .intake, .egr, .line, .pwr] s.abandonAll v :=
    (((s.abandonAll.flushPackets_within true).mono (by decide)).step (State.set_pwr_within _ _) (by decide)).step
      (State.linksDown_within _) (by decide)
  have hvcat : v.cat = s.abandonAll.cat := hv .cat (by decide)
  have hwcat : w.cat = v.cat := v.enter_within .prepare .cat (by decide)
  clear_value v w
  exact hwcat.trans hvcat

theorem State.abandonRun_none {s : State} {l : List Nat} (h : ∀ a ∈ l, s.listsOf a = []) :
    l.foldl (fun s a => (s.listsOf a).foldl (fun s r => if r.ring < 16 then s.abandonRun a 2 r else s) s) s = s := by
  induction l with
  | nil => rfl
  | cons a l ih =>
    rw [List.foldl_cons, h a List.mem_cons_self]
    exact ih fun x hx => h x (List.mem_cons_of_mem _ hx)

/-- Abandoning a list in no queue leads, for what it held of a tap, to the discarding of its buffer. -/
theorem State.abandonRun_tap {s : State} {a o d b : Nat} {r : Run} (hblock : r.block = .none) (htap : r.tap = some (d, b))
    (hbusy : ((s.tap d).buf b).busy = true) (hacc : ((s.tap d).buf b).acc = some r.acc) :
    ∃ w, Within [.dict, .arr] s w ∧ s.abandonRun a o r = w.discardBuf d b := by
  unfold State.abandonRun
  extract_lets s1 s2 s3 s4 s5
  have h1 : s1 = s := by
    unfold s1 State.leaveQueue
    rw [hblock]
  have h2 : Within [.dict, .arr] s s2 := h1 ▸ Within.foldl (fun s x => (s.modArr_within _ _).mono (by decide)) _ _
  have h3 : Within [.dict, .arr] s s3 := ((h2.step (State.consume_within _ _ _) (by decide)).step (State.bump_within _ _ _) (by decide)).step
    (State.put_within _ _ _ _) (by decide)
  have h4 : Within [.dict, .arr] s s4 := h3.step (State.modArr_within _ _ _) (by decide)
  have h5 : Within [.dict, .arr] s s5 := h4.trans (Within.ite ((State.put_within _ _ _ _).mono (by decide)) (Within.refl _ _))
  have hsync : s5.tap d = s.tap d := congrArg (fun y : Sync => Sparse.read (fun _ => ({} : Tap)) y.taps d) (h5 .sync (by decide))
  refine ⟨s5, h5, ?_⟩
  simp only [htap, hsync, hbusy, hacc, and_self, if_true]

theorem lateDrain_abandonAll : lateDrain.abandonAll.cat.waiting.length = 2 := by
  have hidle : ∀ a ∈ List.range 15, lateDrain.listsOf a = [] := by decide
  have hall : lateDrain.abandonAll = lateDrain.abandonRun 15 2 lateRun := by
    unfold State.abandonAll
    rw [List.range_succ, List.foldl_append, State.abandonRun_none hidle]
    rfl
  obtain ⟨w, hw, heq⟩ := State.abandonRun_tap (s := lateDrain) (a := 15) (o := 2) (r := lateRun) rfl rfl rfl rfl
  have hsync : w.sync = lateDrain.sync := hw .sync (by decide)
  have hpkts : w.pkts = [latePkt] := hw .pkts (by decide)
  have hcat : w.cat = lateDrain.cat := hw .cat (by decide)
  have hdiscard : w.discardBuf 0 0 = (w.releaseUndetermined latePkt).freeBuf 0 0 := by
    have hheld : ((w.tap 0).buf 0).held = [(1, 0)] := by
      rw [State.tap, hsync]
      rfl
    unfold State.discardBuf
    extract_lets held
    have hfold : held = [(1, 0)] := hheld
    rw [hfold, List.foldl_cons, hpkts]
    rfl
  have hblocked : w.catBlocked (w.candidates 0 7) = true := by
    unfold State.catBlocked State.candidates
    rw [hcat]
    simp [lateDrain, State.opBuckets, State.reset]
  have hback := State.writeback_waiting (p := latePkt) (src := 3) (cls := 0) (act := 7) rfl hblocked
  rw [hall, heq, hdiscard]
  rw [show ((w.releaseUndetermined latePkt).freeBuf 0 0).cat = _ from w.releaseUndetermined_cat latePkt, hback, hcat]
  rfl

/-- Refutes O9: DRAIN_EXIT_TIMEOUT abandons the lists that still run, and the held packets of their tap buffers are written back to
the catalogue, which the clause's parts leave out. -/
theorem not_transitionCommands : ¬ Obligations.TransitionCommands := by
  unfold Obligations.TransitionCommands
  rintro ⟨-, -, htimeout, -, -⟩
  obtain ⟨u, hu, -, -, -, -, -, -, -, hw⟩ := htimeout lateDrain 0 0 rfl rfl (by decide)
  have hexec : Sys2Proof.Machine.exec (.drainExitTimeout 0) lateDrain = .next lateDrain.drainToPrepare := by
    rfl
  obtain rfl : lateDrain.drainToPrepare = u := by injection hexec.symm.trans hu
  have hsame : lateDrain.drainToPrepare.cat = lateDrain.cat := hw .cat (by decide)
  have hlength : lateDrain.drainToPrepare.cat.waiting.length = 2 := (congrArg (fun c : Cat => c.waiting.length) lateDrain.drainToPrepare_cat).trans
    lateDrain_abandonAll
  rw [hsame] at hlength
  exact absurd hlength (by decide)

end Sys2Proof.Machine

/-! O26: a sub-index past 0xFFFF is that of a later object, and the port of a packet is any number. -/

namespace Sys2Proof.Machine

set_option Elab.async false

/-- A held packet of a port whose undetermined action would stand at 0x7001:60000, the key of 0x7007:00. -/
def farPkt : Pkt :=
  { pid := 1, port := 0x5FFFF, seq := 0, pipe := 0, stamp := 0, ra := 0, ma := 0, bytes := [], inBurst := false, stage := .held }

/-- `farPkt` held past a hold timeout of 0, one timeout counted before. -/
def farHeld : State :=
  { State.reset with
    dict := [(objKey 0x7002 0, 0), (objKey 0x7007 0, 1)]
    pkts := [farPkt] }

theorem farHeld_held : (farHeld.pkts.find? fun p => p.pid = 1 ∧ p.stage = .held) = some farPkt := by
  simp [farHeld, farPkt]

theorem farHeld_due : farPkt.heldAt + farHeld.get 0x7002 0 * 1000 ≤ farHeld.now := by decide

theorem exec_farHeld : Sys2Proof.Machine.exec (.holdTimeout 1 0) farHeld = .next ((farHeld.bump 0x7007 0).releaseUndetermined farPkt) := by
  have hat : farHeld.at 0 = farHeld := rfl
  have hgo : farHeld.frozen = false := rfl
  change execHoldTimeout 1 0 farHeld = _
  unfold execHoldTimeout
  simp only [hat, hgo, farHeld_held, farHeld_due, if_true, if_false, Bool.false_eq_true]

/-- Refutes O26: HOLD_TIMEOUT counts in 0x7007:00 before it reads the undetermined action of the packet's port, and for a port past
the table that is the same object: the action it then finds is no longer DROP, and the packet leaves for a queue. -/
theorem not_holdPoolCommands : ¬ Obligations.HoldPoolCommands := by
  unfold Obligations.HoldPoolCommands
  rintro ⟨-, -, -, htimeout, -⟩
  obtain ⟨u, hu, -, -, -, hobjs⟩ :=
    htimeout farHeld 1 0 farPkt farHeld_held (by decide) rfl (by decide) (by decide) rfl (by decide)
  obtain rfl : (farHeld.bump 0x7007 0).releaseUndetermined farPkt = u := by injection exec_farHeld.symm.trans hu
  have hsame := hobjs 0x710A 1 (by decide) (by decide)
  exact absurd hsame (by decide)

end Sys2Proof.Machine

/-! A WRITE that reaches its service (R364): refused, it changes nothing but its answer; done, what its effect changes. -/

namespace Sys2Proof.Machine

set_option Elab.async false

open Sys2Proof.Bits

section
variable {s u : State} {r : Req} {i j : Nat} {d : Bytes} {eff : State → Except Nat State} {row : ObjRow}
  (h : s.Admits svcWrite r i j d u) (hrow : u.checkWrite (u.inSession r i) i j d = .ok row)
include h hrow

theorem State.Admits.write_refused {c : Nat} (he : eff u = .error c) :
    ((s.at r.t).serveWrite r i j d eff).Answered svcWrite r i j c [] ∧ Served [] noObj s u ((s.at r.t).serveWrite r i j d eff) := by
  rw [State.serveWrite_of_refused h hrow he]
  exact ⟨State.answered_answer .., h.served_answer _ (.refl _ u) (.refl _ u) rfl rfl⟩

theorem State.Admits.write_done {w : State} {ps : List Part} {k : Nat → Nat → Bool} (he : eff u = .ok w)
    (hw : Within (ps ++ [.odp, .out, .dict, .clock]) u w) (hk : ObjsBut k u w) (hodp : w.odp = u.odp) (hout : w.out = u.out) :
    ((s.at r.t).serveWrite r i j d eff).Answered svcWrite r i j 0 [] ∧ Served ps k s u ((s.at r.t).serveWrite r i j d eff) ∧
      Within answerParts w ((s.at r.t).serveWrite r i j d eff) := by
  rw [State.serveWrite_of_done h hrow he]
  exact ⟨State.answered_answer .., h.served_answer _ hw hk hodp hout, w.answer_within _⟩

end

end Sys2Proof.Machine

/-! O49: activation, confirmation and host keys (R468, R475). -/

namespace Sys2Proof.Machine

set_option Elab.async false

open Sys2Proof.Bits

section
variable {s u : State} {r : Req}

theorem activateFirmwareSlot_writes {slot : Nat} (h : s.Writable r 0x9009 0 slot u) (hslot : slot ≤ 1) (htrial : u.flash.onTrial = false) :
    ∃ v, Sys2Proof.Machine.exec (.activateFirmwareSlot r slot) s = .next v ∧ (
      v.Answered svcWrite r 0x9009 0 0 [] ∧ v.flash = { s.flash with
        preferred := slot, previous := s.flash.running.getD s.flash.preferred, trial := decide (slot ≠ s.flash.running.getD s.flash.preferred), trialRan := false } ∧
      Served [.flash] noObj s u v) := by
  obtain ⟨hadm, hok⟩ := h
  obtain ⟨row, hrow⟩ := exists_ok_of_isSome hok
  have hflash : u.flash = s.flash := hadm.within .flash (by decide)
  have hbyte : slot % 256 = slot := Nat.mod_eq_of_lt (by omega)
  obtain ⟨hanswered, hserved, hrest⟩ := hadm.write_done (eff := fun s => s.activateSlot (slot % 256)) (ps := [.flash]) (k := noObj) hrow
    (if_neg (by simp [htrial])) ((u.set_flash_within _).mono (by decide)) (.of_dict rfl) rfl rfl
  refine ⟨_, rfl, hanswered, Eq.trans (hrest .flash (by decide)) ?_, hserved⟩
  rw [hbyte, hflash]

theorem activateFirmwareSlot_on_trial {slot : Nat} (h : s.Writable r 0x9009 0 slot u) (htrial : u.flash.onTrial = true) :
    ∃ v, Sys2Proof.Machine.exec (.activateFirmwareSlot r slot) s = .next v ∧ (
      v.Answered svcWrite r 0x9009 0 0x08000010 [] ∧ Served [] noObj s u v) := by
  obtain ⟨hadm, hok⟩ := h
  obtain ⟨row, hrow⟩ := exists_ok_of_isSome hok
  exact ⟨_, rfl, hadm.write_refused (eff := fun s => s.activateSlot (slot % 256)) hrow (if_pos htrial)⟩

theorem confirmFirmware_writes (h : s.Writable r 0x900A 0 1 u) :
    ∃ v, Sys2Proof.Machine.exec (.confirmFirmware r) s = .next v ∧ (
      v.Answered svcWrite r 0x900A 0 0 [] ∧
      v.flash = (if s.flash.onTrial then { s.flash with trial := false, trialRan := false, previous := s.flash.preferred } else s.flash) ∧
      Served [.flash] noObj s u v) := by
  obtain ⟨hadm, hok⟩ := h
  obtain ⟨row, hrow⟩ := exists_ok_of_isSome hok
  have hflash : u.flash = s.flash := hadm.within .flash (by decide)
  cases htrial : s.flash.onTrial with
  | false =>
    obtain ⟨hanswered, hserved, hrest⟩ := hadm.write_done (eff := fun s => s.confirmFirmware 1) (ps := [.flash]) (k := noObj) hrow
      (if_neg (by simp [hflash, htrial])) (.refl _ u) (.of_dict rfl) rfl rfl
    exact ⟨_, rfl, hanswered, Eq.trans (hrest .flash (by decide)) hflash, hserved⟩
  | true =>
    obtain ⟨hanswered, hserved, hrest⟩ := hadm.write_done (eff := fun s => s.confirmFirmware 1) (ps := [.flash]) (k := noObj) hrow
      (if_pos (by simp [hflash, htrial])) ((u.set_flash_within _).mono (by decide)) (.of_dict rfl) rfl rfl
    refine ⟨_, rfl, hanswered, Eq.trans (hrest .flash (by decide)) ?_, hserved⟩
    simp [hflash]

theorem hostKeySlot_size : ∀ k : Fin 8, ((objRow? (0x9010 + k.val) 0).elim 0 fun row => tySize row.ty) = 64 := by decide

theorem execHostKeySlotWrite_eq (k : Fin 8) (key : Nat) :
    Sys2Proof.Machine.exec (.hostKeySlotWrite r k key) s = .next ((s.at r.t).serveWrite r (0x9010 + k.val) 0
      (natLe ((objRow? (0x9010 + k.val) 0).elim 0 fun row => tySize row.ty) key) fun s => s.hostKeyWrite k.val (key % 2 ^ 512)) := by
  rw [hostKeySlot_size]
  rfl

theorem hostKeySlotWrite_stores {k : Fin 8} {key : Nat} (h : s.Writable r (0x9010 + k.val) 0 key u) (hform : s.canonical = true)
    (hkey : key < 2 ^ 512) (hne : key ≠ 0) :
    ∃ v, Sys2Proof.Machine.exec (.hostKeySlotWrite r k key) s = .next v ∧ (
      v.Answered svcWrite r (0x9010 + k.val) 0 0 [] ∧ v.obj (0x9010 + k.val) 0 = key ∧
      v.odp = { u.odp with history := v.odp.history, sessions := u.odp.sessions.filter fun x => !(x.authed && !x.bootstrap && decide (x.slot = k.val)) } ∧
      v.out.tail = s.out ∧ Within [.odp, .out, .dict, .clock] s v ∧ ObjsBut (fun i j => i == 0x9010 + k.val && j == 0 || ansObj i j) s v) := by
  obtain ⟨hadm, hok⟩ := h
  obtain ⟨row, hrow⟩ := exists_ok_of_isSome hok
  have hmod : key % 2 ^ 512 = key := Nat.mod_eq_of_lt hkey
  obtain ⟨w, hw, hodp, hout, hdict⟩ : ∃ w : State, u.hostKeyWrite k.val (key % 2 ^ 512) = .ok (w.put (0x9010 + k.val) 0 (key % 2 ^ 512)) ∧
      w.odp = { u.odp with sessions := u.odp.sessions.filter fun x => !(x.authed && !x.bootstrap && decide (x.slot = k.val)) } ∧
      w.out = u.out ∧ Within [.odp] u w :=
    ⟨_, if_neg fun ⟨hzero, _⟩ => hne (hmod.symm.trans hzero), rfl, rfl, u.set_odp_within _⟩
  have hwdict : w.dict = s.dict := Eq.trans (hdict .dict (by decide)) hadm.dict_eq
  have hwithin : Within [.odp, .out, .dict, .clock] s w := (hadm.within.mono (by decide)).trans (hdict.mono (by decide))
  generalize hv : w.put (0x9010 + k.val) 0 (key % 2 ^ 512) = v at hw
  have hvodp : v.odp = w.odp := hv ▸ rfl
  have hvout : v.out = s.out := (hv ▸ rfl : v.out = w.out).trans (hout.trans (hadm.within .out (by decide)))
  have hvobjs : ObjsBut (fun i j => i == 0x9010 + k.val && j == 0) s v := hv ▸ (ObjsBut.of_dict hwdict).trans (w.put_objsBut _)
  refine ⟨_, (execHostKeySlotWrite_eq k key).trans (congrArg Host.Outcome.next (State.serveWrite_of_done (eff := fun s => s.hostKeyWrite k.val (key % 2 ^ 512)) hadm hrow hw)), State.answered_answer .., ?_, ?_, ?_, ?_, ?_⟩
  · rw [State.answer_objsBut _ _ _ _ (by decide) (by unfold ansObj; simp; omega), ← hv]
    exact (State.obj_put (hwdict ▸ State.dict_wf hform)).trans hmod
  · exact (v.answer_odp _).trans (by rw [hvodp, hodp])
  · rw [State.answer_out, List.tail_cons, hvout]
  · exact (hv ▸ hwithin.step (w.put_within _ _ _) (by decide) : Within [.odp, .out, .dict, .clock] s v).step (v.answer_within _) (by decide)
  · exact (hvobjs.mono fun i j hij => (Bool.or_eq_false_iff.1 hij).1).trans
      ((v.answer_objsBut _).mono fun i j hij => (Bool.or_eq_false_iff.1 hij).2)

theorem hostKeySlotWrite_last {k : Fin 8} {key : Nat} (h : s.Writable r (0x9010 + k.val) 0 key u) (hkey : key = 0)
    (hset : u.get (0x9010 + k.val) 0 ≠ 0) (hlast : ((List.range 8).all fun j => j == k.val || u.get (0x9010 + j) 0 == 0) = true) :
    ∃ v, Sys2Proof.Machine.exec (.hostKeySlotWrite r k key) s = .next v ∧ (
      v.Answered svcWrite r (0x9010 + k.val) 0 0x02000006 [] ∧ Served [] noObj s u v) := by
  obtain ⟨hadm, hok⟩ := h
  obtain ⟨row, hrow⟩ := exists_ok_of_isSome hok
  have hothers : ((List.range 8).any fun j => decide (j ≠ k.val) && decide (u.get (0x9010 + j) 0 ≠ 0)) = false := by
    rw [List.any_eq_false]
    intro j hj
    have := List.all_eq_true.1 hlast j hj
    simp at this ⊢
    exact this.resolve_left
  have hzero : key % 2 ^ 512 = 0 := by rw [hkey, Nat.zero_mod]
  exact ⟨_, execHostKeySlotWrite_eq k key,
    hadm.write_refused (eff := fun s => s.hostKeyWrite k.val (key % 2 ^ 512)) hrow (if_pos ⟨hzero, hset, hothers⟩)⟩

end

/-- Settles O49, clause by clause. -/
theorem firmwareAndHostKeys : Obligations.FirmwareAndHostKeys := by
  unfold Obligations.FirmwareAndHostKeys
  refine ⟨fun s r slot u h => activateFirmwareSlot_writes h, fun s r slot u h => activateFirmwareSlot_on_trial h,
    fun s r u h => confirmFirmware_writes h, fun s r k key u h => hostKeySlotWrite_stores h,
    fun s r k key u h => hostKeySlotWrite_last h⟩

end Sys2Proof.Machine

/-! One event, one error: what is raised, sent and counted (R365, R419 to R421). -/

namespace Sys2Proof.Machine

set_option Elab.async false

open Sys2Proof.Bits

/-- Objects in which the logbook alone counts (R436 to R440). -/
def logObj (idx : Nat) : Bool := [0x8809, 0x880A, 0x880B, 0x880C, 0x880D].contains idx

/-- Only the logbook's own objects change. -/
abbrev LogOnly : State → State → Prop := ObjsBut fun i _ => logObj i

section
variable {s u v : State}

theorem LogOnly.ite {c : Prop} [Decidable c] (h : LogOnly s u) (k : LogOnly s v) : LogOnly s (if c then u else v) := by
  split <;> assumption

theorem LogOnly.put (s : State) {i j v : Nat} (hi : logObj i = true) (hj : j < 65536 := by decide) : LogOnly s (s.put i j v) :=
  (s.put_objsBut v hj).mono fun a b hab => by
    refine Bool.eq_false_iff.2 fun hne => ?_
    simp only [Bool.and_eq_true, beq_iff_eq] at hne
    exact Bool.false_ne_true (hab.symm.trans (hne.1 ▸ hi))

theorem LogOnly.bump (s : State) {i j : Nat} (hi : logObj i = true) (hj : j < 65536 := by decide) : LogOnly s (s.bump i j) := .put s hi hj

end

theorem State.logLines_only (s : State) (ls : List Bytes) : LogOnly s (s.logLines ls) := by
  induction ls generalizing s with
  | nil => exact .refl _ s
  | cons l ls ih =>
    unfold State.logLines
    extract_lets o v o' w
    have hw : LogOnly v w := by
      unfold w
      by_cases hend : v.logArea ≤ o'
      · rw [if_pos hend]
        exact (LogOnly.put v rfl).trans (LogOnly.bump _ rfl)
      · rw [if_neg hend]
        exact LogOnly.put v rfl
    exact ((ObjsBut.of_dict rfl : LogOnly s v).trans hw).trans (ih w)

theorem State.logWrite_only (s : State) (lost : Bool) {r : LogRec} (hc : r.cls < 65536) : LogOnly s (s.logWrite lost r) :=
  LogOnly.ite (LogOnly.bump s rfl hc) ((LogOnly.put s rfl).trans (State.logLines_only _ _))

theorem State.writeGap_only (s : State) (k c u n m f l : Nat) : LogOnly s (s.writeGap k c u n m f l) :=
  (LogOnly.bump s rfl).trans (State.logWrite_only _ _ (show 2 < 65536 by decide))

theorem LogOnly.foldl {α : Type} {f : State → α → State} (h : ∀ s a, LogOnly s (f s a)) (l : List α) (s : State) :
    LogOnly s (l.foldl f s) := by
  induction l generalizing s with
  | nil => exact .refl _ s
  | cons a l ih => exact (h s a).trans (ih _)

theorem State.logPlace_only (s : State) {r : LogRec} (hc : r.cls < 65536) : LogOnly s (s.logPlace r) := by
  have hgaps := LogOnly.foldl (fun s (l : Lost) => s.writeGap_only l.kind 0 l.uKind l.unit l.count l.first l.last)
    (s.obs.lost.filter fun l => decide (l.uKind = r.uKind) && decide (l.unit = r.unit)) s
  exact (hgaps.trans (.of_dict rfl)).trans (State.logWrite_only _ _ hc)

theorem State.logRecordAt_only (s : State) (t : Nat) {c : Nat} (k u n : Nat) (b : Bytes) (hc : c < 65536) :
    LogOnly s (s.logRecordAt t c k u n b) := by
  refine LogOnly.ite (.refl _ s) ((ObjsBut.of_dict (s.takeStretch_within u n .dict (by decide)) : LogOnly s _).trans
    (LogOnly.ite (LogOnly.ite ?_ (.of_dict rfl)) (State.logPlace_only _ hc)))
  exact (ObjsBut.of_dict rfl : LogOnly _ _).trans (LogOnly.bump _ rfl hc)

theorem State.logRecord_only (s : State) {c : Nat} (k u n : Nat) (b : Bytes) (hc : c < 65536 := by decide) :
    LogOnly s (s.logRecord c k u n b) := s.logRecordAt_only _ k u n b hc

/-- What comes after an event and keeps what was sent, the number, the time and the count of suppressed ones, keeps it raised. -/
theorem Raised.step {s u v : State} {code i j : Nat} (h : Raised code i j s u) (hseq : v.odp.eventSeq = u.odp.eventSeq)
    (hnow : v.now = u.now) (hout : u.out ⊆ v.out) (hcount : v.obj 0x1816 0 = u.obj 0x1816 0) : Raised code i j s v := by
  obtain ⟨hnumber, hsent⟩ := h
  refine ⟨hseq.trans hnumber, hsent.imp (fun hmem => ?_) hcount.trans⟩
  rw [hnow]
  exact hout hmem

/-- What comes before an event and changes neither its number nor its count. -/
theorem Raised.after {s u v : State} {code i j : Nat} (h : Raised code i j u v) (hseq : u.odp.eventSeq = s.odp.eventSeq)
    (hcount : u.obj 0x1816 0 = s.obj 0x1816 0) : Raised code i j s v := by
  obtain ⟨hnumber, hsent⟩ := h
  exact ⟨hseq ▸ hnumber, hseq ▸ hsent.imp id fun hsent => hsent.trans (by rw [hcount])⟩

/-- A record in the logbook leaves an event raised. -/
theorem Raised.logRecord {s u : State} {code i j : Nat} (h : Raised code i j s u) {c : Nat} (k n m : Nat) (b : Bytes)
    (hc : c < 65536 := by decide) : Raised code i j s (u.logRecord c k n m b) := by
  have hw := u.logRecord_within c k n m b
  have hout : (u.logRecord c k n m b).out = u.out := hw .out (by decide)
  exact h.step (congrArg Odp.eventSeq (hw .odp (by decide))) (congrArg Clock.house (hw .clock (by decide))) (hout ▸ List.Subset.refl _)
    (u.logRecord_only k n m b hc 0x1816 0 (by decide) (by decide))

/-- An event is sent, or counted as suppressed. -/
theorem State.raiseC_raised {s : State} (hform : Sparse.wf objDefault s.dict = true) (code i j cls sev : Nat) :
    Raised code i j s (s.raiseC code i j cls sev) := by
  unfold State.raiseC
  extract_lets seq second count ok o v w
  have hw : Raised code i j s w := by
    unfold w
    split
    · exact ⟨rfl, .inl List.mem_cons_self⟩
    · exact ⟨rfl, .inr (State.obj_bump hform)⟩
  exact hw.logRecord _ _ _ _

theorem State.raise_raised {s : State} (hform : Sparse.wf objDefault s.dict = true) (code i j : Nat) :
    Raised code i j s (s.raise code i j) := State.raiseC_raised hform _ _ _ _ _

theorem State.journalRecord_suppressed (s : State) {cls : Nat} (r : JournalRec) (hc : cls < 65536) :
    (s.journalRecord cls r).obj 0x1816 0 = s.obj 0x1816 0 ∧
      (Sparse.wf objDefault s.dict = true → Sparse.wf objDefault (s.journalRecord cls r).dict = true) := by
  unfold State.journalRecord
  split
  · split
    · exact ⟨rfl, id⟩
    · exact ⟨rfl, id⟩
  · split
    rename_i ok m _
    extract_lets v
    split
    · exact ⟨rfl, id⟩
    · exact ⟨State.obj_put_ne (by decide) hc fun h => absurd h.1 (by decide), fun h => State.put_wf h⟩

theorem State.pushRecord_raised {s u : State} {code i j : Nat} (h : Raised code i j s u) (c n : Nat) (r : JournalRec) :
    Raised code i j s (u.pushRecord c n r) := by
  unfold State.pushRecord
  split
  · exact h
  · extract_lets second count
    split
    · exact h.step rfl rfl (List.subset_cons_self _ _) (State.obj_put_ne (by decide) (by decide) fun h => absurd h.1 (by decide))
    · exact h.step rfl rfl (List.Subset.refl _) (State.obj_put_ne (by decide) (by decide) fun h => absurd h.1 (by decide))

/-- An error record takes a number and raises its class's event. -/
theorem State.errorRecord_reported {s : State} (hform : Sparse.wf objDefault s.dict = true) {e : ErrInfo} (hc : e.cls < 65536) :
    Reported e.cls s (s.errorRecord e) := by
  have hnumber : (s.errorRecord e).flash.recNo = (s.flash.recNo + 1) % 2 ^ 32 := by
    obtain ⟨j, hj⟩ := s.errorRecord_flash e
    rw [hj]
  refine ⟨hnumber, ?_⟩
  have hdict : (s.detected e).dict = (s.bump 0x8033 e.cls).dict :=
    Eq.trans (State.readings_within _ e .dict (by decide)) (State.takeStretch_within _ _ _ .dict (by decide))
  have hseq : (s.detected e).odp = s.odp := s.detected_within e .odp (by decide)
  obtain ⟨x, r, heq, hxdict, hxodp⟩ : ∃ (x : State) (r : JournalRec), s.errorRecord e =
      ((x.journalRecord e.cls r).raiseC (0x00010000 + e.cls) 0 0 e.cls (severity e.cls)).pushRecord (0x00010000 + e.cls)
        (x.journalRecord e.cls r).odp.eventSeq r ∧ x.dict = (s.detected e).dict ∧ x.odp = (s.detected e).odp :=
    ⟨_, _, rfl, rfl, rfl⟩
  obtain ⟨hcount, hwf⟩ := x.journalRecord_suppressed r hc
  have hxform : Sparse.wf objDefault x.dict = true := by
    rw [hxdict, hdict]
    exact State.put_wf hform
  have hxcount : x.obj 0x1816 0 = s.obj 0x1816 0 := by
    rw [State.obj, hxdict, hdict]
    exact State.obj_put_ne (by decide) hc fun h => absurd h.1 (by decide)
  have hjodp : (x.journalRecord e.cls r).odp = s.odp :=
    Eq.trans (State.journalRecord_within _ _ _ .odp (by decide)) (hxodp.trans hseq)
  rw [heq]
  exact State.pushRecord_raised ((State.raiseC_raised (hwf hxform) _ _ _ _ _).after (congrArg Odp.eventSeq hjodp) (hcount.trans hxcount)) _ _ _

/-- After a noting change, one that leaves the stacks alone. -/
theorem Noted.then {s u v : State} {k : Nat → Nat → Bool} {ps : List Part} (h : Noted s u) (hk : ObjsBut k u v) (hw : Within ps u v)
    (hm : .mem ∉ ps := by decide) (hc : .memc ∉ ps := by decide) : Notes k s v where
  objs := (h.objs.mono fun _ _ hij => (Bool.or_eq_false_iff.1 hij).2).trans (hk.mono fun _ _ hij => (Bool.or_eq_false_iff.1 hij).1)
  bytes hs x hx := (State.byteAt_of_eq (hw .mem hm) (hw .memc hc) x).trans (h.bytes hs x hx)

/-- An answer after a noting change. -/
theorem Noted.answered {s u : State} (h : Noted s u) (a : Answer) : Notes ansObj s (u.answer a) :=
  h.then (u.answer_objsBut a) (u.answer_within a)

/-- The logbook lies where it lay, and stays sound. -/
structure LogKept (s u : State) : Prop where
  sound : s.LogSound → u.LogSound
  inLog : u.inLog = s.inLog

theorem Noted.kept {s u : State} (h : Noted s u) : LogKept s u := ⟨h.sound, h.inLog_eq⟩

/-- The logbook's place and write offset are four objects. -/
theorem LogKept.of_objs {s u : State} {k : Nat → Nat → Bool} (hk : ObjsBut k s u)
    (hform : Sparse.wf objDefault s.dict = true → Sparse.wf objDefault u.dict = true)
    (hplace : k (0x6000 + 3) 1 = false := by decide) (hsize : k (0x6000 + 3) 2 = false := by decide) (hoff : k 0x8809 0 = false := by decide) :
    LogKept s u := by
  have hbase : u.regionBase 3 = s.regionBase 3 := hk.get_eq (i := 0x6000 + 3) (by decide) hplace (by decide)
  have harea : u.logArea = s.logArea := State.logArea_congr (hk.get_eq (by decide) hsize (by decide))
  have hoffset : u.get 0x8809 0 = s.get 0x8809 0 := hk.get_eq (by decide) hoff (by decide)
  refine ⟨fun ⟨hw, hwhole, hline, hbelow⟩ => 
    ⟨hform hw, (congrArg (fun n => n % 64) harea).trans hwhole, (congrArg (fun n => n % 64) hoffset).trans hline,
      Nat.lt_of_lt_of_eq (Nat.lt_of_le_of_lt (Nat.le_of_eq hoffset) hbelow) harea.symm⟩, ?_⟩
  funext x
  rw [State.inLog, State.inLog, hbase, harea]

theorem Notes.trans {s u v : State} {k : Nat → Nat → Bool} (h : Notes k s u) (hkept : LogKept s u) (h2 : Notes k u v) : Notes k s v where
  objs := h.objs.trans h2.objs
  bytes hs x hx := (h2.bytes (hkept.sound hs) x (hkept.inLog ▸ hx)).trans (h.bytes hs x hx)

/-- A change that leaves the stacks alone. -/
theorem Within.notes {s u : State} {k : Nat → Nat → Bool} {ps : List Part} (hw : Within ps s u) (hk : ObjsBut k s u)
    (hm : .mem ∉ ps := by decide) (hc : .memc ∉ ps := by decide) : Notes k s u :=
  (Noted.refl s).then hk hw hm hc

/-- A part that is the same need not be listed. -/
theorem Within.without {s u : State} {ps : List Part} {p : Part} (h : Within (p :: ps) s u) (hp : p.Same s u) : Within ps s u := by
  intro q hq
  by_cases hqp : q = p
  · exact hqp ▸ hp
  · exact h q (by simp [hq, hqp])

theorem State.raise_quiet (s : State) (code i j : Nat) : Within [.dict, .mem, .memc, .obs, .odp, .out] s (s.raise code i j) :=
  ((s.raise_within code i j).mono (by decide)).without (p := .pwr) (s.raiseC_pwr code i j 0 0)

end Sys2Proof.Machine

/-! O48: owner provisioning and the anti-rollback counters (R463, R472 to R474). -/

namespace Sys2Proof.Machine

set_option Elab.async false

open Sys2Proof.Bits

/-- A write to a listed object passes the checks of R364. -/
theorem State.checkWrite_of {s : State} {b : Bool} {i j : Nat} {d : Bytes} {row : ObjRow} (hindex : objIndex? i = true)
    (habsent : s.absentUnit i j = false) (hrow : objRow? i j = some row) (hsession : (s.needsSession i && !b) = false)
    (hright : s.writeRight row = none) (hlength : lengthOk row.ty d.length = true) (hrange : rangeOk row i j (leNat d) = true) :
    s.checkWrite b i j d = .ok row := by
  have hfind : s.findObj i j = .ok row := by
    unfold State.findObj
    rw [if_neg (by simp [hindex, habsent]), hrow]
  unfold State.checkWrite
  simp only [hfind, hsession, hright, hlength, hrange, Bool.false_eq_true, Bool.true_eq_false, if_false]

section
variable {s u : State} {r : Req}

theorem State.Admits.trust_eq {svc i j : Nat} {d : Bytes} (h : s.Admits svc r i j d u) : u.trust = s.trust := h.within .trust (by decide)

theorem State.checkWrite_ownerConfirm {hash : Nat} (hsession : u.inSession r 0x9004 = true) :
    u.checkWrite (u.inSession r 0x9004) 0x9004 2 (natLe 32 hash) = .ok ⟨0x9004, 0x9004, 2, 2, .oct 32, .wo, 0, 0, 0⟩ :=
  State.checkWrite_of (by decide) rfl (by decide) (by simp [hsession]) rfl rfl rfl

theorem State.checkWrite_enforcement {mask : Nat} (hsession : u.inSession r 0x9005 = true) :
    u.checkWrite (u.inSession r 0x9005) 0x9005 0 (natLe 1 mask) = .ok ⟨0x9005, 0x9005, 0, 0, .u 1, .wo, 0, 0, 255⟩ := by
  refine State.checkWrite_of (by decide) rfl (by decide) (by simp [hsession]) rfl rfl ?_
  simp [rangeOk, leNat, natLe, specialRange]
  omega

theorem State.checkWrite_raise {c : Nat} (hsession : u.inSession r 0x9007 = true) (hc : c < 64) :
    u.checkWrite (u.inSession r 0x9007) 0x9007 0 (natLe 1 c) = .ok ⟨0x9007, 0x9007, 0, 0, .u 1, .wo, 0, 0, 63⟩ := by
  refine State.checkWrite_of (by decide) rfl (by decide) (by simp [hsession]) rfl rfl ?_
  simp [rangeOk, leNat, natLe, specialRange]
  omega

theorem ownerKeyHashConfirm_unset {hash : Nat} (h : s.Admits svcWrite r 0x9004 2 (natLe 32 hash) u)
    (hsession : u.inSession r 0x9004 = true) (hunset : u.trust.ownerHash = 0) (hst : u.dev.st = .prepare) :
    ∃ v, Sys2Proof.Machine.exec (.ownerKeyHashConfirm r hash) s = .next v ∧ (
      (if u.trust.ownerWrite = some (hash % 2 ^ 256) then
        v.Answered svcWrite r 0x9004 2 0 [] ∧ v.trust = { s.trust with ownerHash := hash % 2 ^ 256, ownerWrite := none }
      else v.Answered svcWrite r 0x9004 2 0x02000006 [] ∧ v.trust = s.trust) ∧ Served [.trust] noObj s u v) := by
  have hrow := State.checkWrite_ownerConfirm (hash := hash) hsession
  refine ⟨_, rfl, ?_⟩
  by_cases hsame : u.trust.ownerWrite = some (hash % 2 ^ 256)
  · have heff : u.ownerHashConfirm (hash % 2 ^ 256) =
        .ok { u with trust := { u.trust with ownerHash := hash % 2 ^ 256, ownerWrite := none } } := by
      simp [State.ownerHashConfirm, Trust.ownerSet, hunset, State.inPrepare, hst, hsame]
    obtain ⟨hanswered, hserved, hrest⟩ := h.write_done (eff := fun s => s.ownerHashConfirm (hash % 2 ^ 256)) (ps := [.trust]) (k := noObj)
      hrow heff ((u.set_trust_within _).mono (by decide)) (.of_dict rfl) rfl rfl
    rw [if_pos hsame]
    refine ⟨⟨hanswered, Eq.trans (hrest .trust (by decide)) ?_⟩, hserved⟩
    rw [h.trust_eq]
  · have hdiffers (x : Nat) (hx : u.trust.ownerWrite ≠ some x) : u.ownerHashConfirm x = .error 0x02000006 := by
      simp [State.ownerHashConfirm, Trust.ownerSet, hunset, State.inPrepare, hst, hx]
    have heff := hdiffers _ hsame
    obtain ⟨hanswered, hserved⟩ := h.write_refused (eff := fun s => s.ownerHashConfirm (hash % 2 ^ 256)) hrow heff
    rw [if_neg hsame]
    exact ⟨⟨hanswered, hserved.frame .trust (by decide)⟩, { hserved with frame := hserved.frame.mono (by decide) }⟩

theorem ownerKeyHashConfirm_refused {hash : Nat} (h : s.Writable r 0x9004 2 hash u) (hwhy : u.trust.ownerHash ≠ 0 ∨ u.dev.st ≠ .prepare) :
    ∃ v, Sys2Proof.Machine.exec (.ownerKeyHashConfirm r hash) s = .next v ∧ (
      v.Answered svcWrite r 0x9004 2 (if u.trust.ownerHash ≠ 0 then 0x02000002 else 0x08000010) [] ∧ Served [] noObj s u v) := by
  obtain ⟨hadm, hok⟩ := h
  obtain ⟨row, hrow⟩ := exists_ok_of_isSome hok
  refine ⟨_, rfl, hadm.write_refused (eff := fun s => s.ownerHashConfirm (hash % 2 ^ 256)) hrow ?_⟩
  by_cases hset : u.trust.ownerHash = 0
  · have hst : u.dev.st ≠ .prepare := hwhy.resolve_left (not_not_intro hset)
    simp [State.ownerHashConfirm, Trust.ownerSet, State.inPrepare, hset, hst]
  · simp [State.ownerHashConfirm, Trust.ownerSet, hset]

theorem enforcementProgram_adds {mask : Nat} (h : s.Admits svcWrite r 0x9005 0 (natLe 1 mask) u) (hsession : u.inSession r 0x9005 = true)
    (hst : u.dev.st = .prepare) (hmask : mask < 64) (howner : u.trust.ownerHash ≠ 0 ∨ mask % 8 = 0) :
    ∃ v, Sys2Proof.Machine.exec (.enforcementProgram r mask) s = .next v ∧ (
      v.Answered svcWrite r 0x9005 0 0 [] ∧ v.trust = { s.trust with enforcement := s.trust.enforcement ||| mask } ∧ Served [.trust] noObj s u v) := by
  have hbyte : mask % 256 = mask := Nat.mod_eq_of_lt (by omega)
  have heff : u.enforcementProgram (mask % 256) = .ok { u with trust := { u.trust with enforcement := u.trust.enforcement ||| mask } } := by
    have hallowed : ¬ (64 ≤ mask ∨ (u.trust.ownerSet = false ∧ mask % 8 ≠ 0)) := by
      rintro (hbig | ⟨hunset, hlow⟩)
      · exact absurd hmask (Nat.not_lt.2 hbig)
      · exact howner.elim (by simpa [Trust.ownerSet] using hunset) hlow
    simp only [State.enforcementProgram, State.inPrepare, hst, hbyte, if_neg hallowed]
    rfl
  obtain ⟨hanswered, hserved, hrest⟩ := h.write_done (eff := fun s => s.enforcementProgram (mask % 256)) (ps := [.trust]) (k := noObj)
    (State.checkWrite_enforcement hsession) heff ((u.set_trust_within _).mono (by decide)) (.of_dict rfl) rfl rfl
  refine ⟨_, rfl, hanswered, Eq.trans (hrest .trust (by decide)) ?_, hserved⟩
  rw [h.trust_eq]

theorem enforcementProgram_refused {mask : Nat} (h : s.Writable r 0x9005 0 mask u) (hmask : mask < 256)
    (hwhy : u.dev.st ≠ .prepare ∨ 64 ≤ mask ∨ (u.trust.ownerHash = 0 ∧ mask % 8 ≠ 0)) :
    ∃ v, Sys2Proof.Machine.exec (.enforcementProgram r mask) s = .next v ∧ (
      v.Answered svcWrite r 0x9005 0 (if u.dev.st ≠ .prepare then 0x08000010 else 0x02000006) [] ∧ Served [] noObj s u v) := by
  obtain ⟨hadm, hok⟩ := h
  obtain ⟨row, hrow⟩ := exists_ok_of_isSome hok
  refine ⟨_, rfl, hadm.write_refused (eff := fun s => s.enforcementProgram (mask % 256)) hrow ?_⟩
  by_cases hst : u.dev.st = .prepare
  · have hbad : 64 ≤ mask ∨ (u.trust.ownerSet = false ∧ mask % 8 ≠ 0) := by
      simpa [Trust.ownerSet] using hwhy.resolve_left (not_not_intro hst)
    simp only [State.enforcementProgram, State.inPrepare, hst, Nat.mod_eq_of_lt hmask, if_pos hbad]
    rfl
  · simp [State.enforcementProgram, State.inPrepare, hst]

/-- A raise that passes its checks raises its own counter and erases nothing. -/
theorem raiseCounter_raises {c version : Nat} (h : s.Admits svcWrite r 0x9007 0 (natLe 1 c) u) (hsession : u.inSession r 0x9007 = true)
    (hst : u.dev.st = .prepare ∨ u.dev.st = .drain) (hc : c < 64) (hto : u.raiseTo c = .ok version)
    (hgone : 4 ≤ c → u.slotsBelow c (Max.max (u.counter c) (Min.min 64 version)) = []) (hform : s.canonical = true) :
    ∃ v, Sys2Proof.Machine.exec (.raiseCounter r c) s = .next v ∧ (
      .answer (mkAnswer svcWrite r 0x9007 0 0 []) ∈ v.out ∧ v.counter c = Max.max (s.counter c) (Min.min 64 version) ∧
      (∀ i : Fin 64, i.val ≠ c → v.counter i.val = s.counter i.val) ∧ (c ≠ 0 → v.trust.vendor0Revoked = s.trust.vendor0Revoked) ∧
      v.trust = { s.trust with counters := v.trust.counters, vendor0Revoked := v.trust.vendor0Revoked } ∧ s.trust.Blown v.trust ∧
      Raised 0x00030002 0x9006 (c + 1) u v ∧
      Within [.odp, .out, .dict, .clock, .trust, .mem, .memc, .obs, .pwr] s v ∧ Notes (fun i j => ansObj i j) s v) := by
  have hbyte : c % 256 = c := Nat.mod_eq_of_lt (by omega)
  have hstate : u.prepareOrDrain = true := by
    rcases hst with hst | hst <;> simp [State.prepareOrDrain, hst]
  obtain ⟨w, hw⟩ : ∃ w : State, w = { u with trust := { u.trust with
    counters := Sparse.write (fun _ => 0) u.trust.counters c (Max.max (u.counter c) (Min.min 64 version))
    vendor0Revoked := u.trust.vendor0Revoked || (decide (c = 0) && u.signedUnder1) } } := ⟨_, rfl⟩
  have heff : u.raiseCounter (c % 256) = .ok (w.raise 0x00030002 0x9006 (c + 1)) := by
    have hlist : (if 4 ≤ c then u.slotsBelow c (Max.max (u.counter c) (Min.min 64 version)) else []) = [] := by
      split
      · exact hgone ‹_›
      · rfl
    unfold State.raiseCounter
    rw [hbyte, if_neg (by simp [hstate]), hto]
    simp only [hlist, List.foldl_nil, hw]
  have hutrust := h.trust_eq
  have hudict : u.dict = s.dict := h.dict_eq
  have huw : Within [.trust] u w := hw ▸ u.set_trust_within _
  have hwdict : w.dict = s.dict := Eq.trans (huw .dict (by decide)) hudict
  have hwtrust : w.trust = { s.trust with
    counters := Sparse.write (fun _ => 0) s.trust.counters c (Max.max (s.counter c) (Min.min 64 version))
    vendor0Revoked := s.trust.vendor0Revoked || (decide (c = 0) && u.signedUnder1) } := by
    rw [hw]
    simp only [State.counter, hutrust]
  obtain ⟨x, hx⟩ : ∃ x, x = w.raise 0x00030002 0x9006 (c + 1) := ⟨_, rfl⟩
  have hwx := hx ▸ w.raise_within 0x00030002 0x9006 (c + 1)
  have hraised : Raised 0x00030002 0x9006 (c + 1) u x :=
    hx ▸ (State.raise_raised (hwdict ▸ State.dict_wf hform) _ _ _).after (congrArg Odp.eventSeq (huw .odp (by decide)))
      (ObjsBut.of_dict (k := noObj) (huw .dict (by decide)) _ _ (by decide) rfl)
  obtain ⟨v, hv⟩ : ∃ v, v = x.answer (mkAnswer svcWrite r 0x9007 0 0 []) := ⟨_, rfl⟩
  have hxv := hv ▸ x.answer_within (mkAnswer svcWrite r 0x9007 0 0 [])
  have hvout : v.out = .answer (mkAnswer svcWrite r 0x9007 0 0 []) :: x.out := hv ▸ x.answer_out _
  have hvtrust : v.trust = w.trust := Eq.trans (hxv .trust (by decide)) (hwx .trust (by decide))
  obtain ⟨-, -, -, hcounters, -⟩ := State.canonical_iff.1 hform
  refine ⟨v, ?_, hvout ▸ List.mem_cons_self, ?_, fun i hi => ?_, fun hne => ?_, ?_, ?_, ?_, ?_, ?_⟩
  · rw [hv, hx]
    exact congrArg Host.Outcome.next (State.serveWrite_of_done (eff := fun s => s.raiseCounter (c % 256)) h (State.checkWrite_raise hsession hc) heff)
  · rw [State.counter, hvtrust, hwtrust]
    exact Sparse.read_write hcounters
  · rw [State.counter, hvtrust, hwtrust]
    exact Sparse.read_write_ne hi
  · rw [hvtrust, hwtrust]
    simp [hne]
  · rw [hvtrust, hwtrust]
  · rw [hvtrust, hwtrust]
    refine ⟨Nat.and_self _, fun _ => rfl, fun hrevoked => by simp [hrevoked], fun k => ?_⟩
    exact Sparse.read_le_read_write (Nat.le_max_left (s.counter c) _) k
  · have hvodp : v.odp.eventSeq = x.odp.eventSeq := by rw [hv, x.answer_odp]
    exact hraised.step hvodp (congrArg Clock.house (hxv .clock (by decide))) (hvout ▸ List.subset_cons_self _ _)
      (hv ▸ x.answer_objsBut _ _ _ (by decide) (by decide))
  · exact (((h.within.mono (by decide)).step huw (by decide)).step hwx (by decide)).step hxv (by decide)
  · have hsx : Noted s x := ((((h.within.mono (by decide)).step huw (by decide) : Within [.odp, .clock, .trust] s w).noted).trans (hx ▸ w.raise_noted _ _ _))
    exact hv ▸ hsx.answered _

theorem raiseCounter_refused {c : Nat} (h : s.Writable r 0x9007 0 c u) (hc : c < 64)
    (hwhy : (u.dev.st ≠ .prepare ∧ u.dev.st ≠ .drain) ∨ (c = 0 ∧ u.flash.onTrial = true) ∨ (c = 1 ∧ u.flash.scanGood = false) ∨ c = 3 ∨
      (4 ≤ c ∧ u.lib.retiring.isSome = true)) :
    ∃ v, Sys2Proof.Machine.exec (.raiseCounter r c) s = .next v ∧ (
      v.Answered svcWrite r 0x9007 0 (if u.dev.st ≠ .prepare ∧ u.dev.st ≠ .drain then 0x08000011 else if c = 3 then 0x02000006 else if 4 ≤ c then 0x08000043 else 0x08000010) [] ∧
      Served [] noObj s u v) := by
  obtain ⟨hadm, hok⟩ := h
  obtain ⟨row, hrow⟩ := exists_ok_of_isSome hok
  have hbyte : c % 256 = c := Nat.mod_eq_of_lt (by omega)
  refine ⟨_, rfl, hadm.write_refused (eff := fun s => s.raiseCounter (c % 256)) hrow ?_⟩
  simp only [hbyte, State.raiseCounter, State.prepareOrDrain]
  by_cases hst : u.dev.st ≠ .prepare ∧ u.dev.st ≠ .drain
  · simp [hst]
  · have hserving : (decide (u.dev.st = .prepare) || decide (u.dev.st = .drain)) = true := by
      simp only [Bool.or_eq_true, decide_eq_true_eq]
      grind
    rw [if_neg (by simp [hserving]), if_neg hst]
    rcases hwhy.resolve_left hst with ⟨rfl, htrial⟩ | ⟨rfl, hscan⟩ | rfl | ⟨hmodel, hretiring⟩
    · simp [State.raiseTo, htrial]
    · simp [State.raiseTo, hscan]
    · simp [State.raiseTo]
    · obtain ⟨k, rfl⟩ := Nat.exists_eq_add_of_le' hmodel
      have hne : ¬ k + 4 = 3 := by omega
      simp [State.raiseTo, hretiring, hne]

end

/-- Settles O48, clause by clause. -/
theorem fuseCommands : Obligations.FuseCommands := by
  unfold Obligations.FuseCommands
  refine ⟨fun s r hash u h => ownerKeyHashConfirm_unset h, fun s r hash u h => ownerKeyHashConfirm_refused h,
    fun s r mask u h => enforcementProgram_adds h, fun s r mask u h => enforcementProgram_refused h,
    fun s r c u h hsession hst hzero htrial hform => ?_, fun s r c u h hsession hst hmodel hc hretiring m hactive hcounter hbelow hform => ?_,
    fun s r c u h => raiseCounter_refused h⟩
  · subst hzero
    have hto : u.raiseTo 0 = .ok u.runningFw.counter := by simp [State.raiseTo, htrial]
    obtain ⟨v, hexec, hanswer, hraised, hothers, -, hrest⟩ :=
      raiseCounter_raises h hsession hst (by decide) hto (fun h => absurd h (by decide)) hform
    exact ⟨v, hexec, hanswer, hraised, hothers, hrest⟩
  · have hto : u.raiseTo c = .ok m.version := by
      obtain ⟨k, rfl⟩ := Nat.exists_eq_add_of_le' hmodel
      simp [State.raiseTo, hretiring, hactive, hcounter]
    obtain ⟨v, hexec, hanswer, hraised, hothers, hkey, hrest⟩ := raiseCounter_raises h hsession hst hc hto (fun _ => hbelow) hform
    exact ⟨v, hexec, hanswer, hraised, hkey (by omega), hothers, hrest⟩

end Sys2Proof.Machine

/-! O6: the pins of time (R347, R445, R500, R501). -/

namespace Sys2Proof.Machine

set_option Elab.async false

section
variable {s : State}

/-- At its time a command sees of the clock only house time and the count moved. -/
theorem State.at_clock (s : State) (t : Nat) :
    (s.at t).clock = { s.clock with house := (s.at t).clock.house, elapsed := (s.at t).clock.elapsed } := by
  unfold State.at
  split <;> rfl

/-- The state at the command's time, its clock left open. -/
theorem State.at_spec (s : State) (t : Nat) :
    ∃ h e, s.at t = { s with clock := { s.clock with house := h, elapsed := e } } ∧ h = (s.at t).now := by
  obtain ⟨c, hc⟩ := s.at_eq t
  have hclock := s.at_clock t
  rw [hc] at hclock
  refine ⟨c.house, c.elapsed, ?_, by rw [hc, State.now]⟩
  rw [hc]
  exact congrArg (fun c => { s with clock := c }) hclock

/-- How far the edge at house time `edge` lies from the nearest whole second. -/
def edgeOff (edge : Nat) : Nat := nearestSecond edge - edge + (edge - nearestSecond edge)

theorem edgeOff_near {edge : Nat} (h : edge % 1000000000 ≤ 100000) :
    nearestSecond edge = edge / 1000000000 * 1000000000 ∧ edgeOff edge ≤ 100000 := by
  have hnear : nearestSecond edge = edge / 1000000000 * 1000000000 := by
    unfold nearestSecond
    omega
  refine ⟨hnear, ?_⟩
  rw [edgeOff, hnear]
  omega

theorem edgeOff_far {edge : Nat} (hlow : 100000 < edge % 1000000000) (hhigh : edge % 1000000000 < 999900000) : 100000 < edgeOff edge := by
  unfold edgeOff nearestSecond
  omega

/-- An edge while the source is PPS_IN and no second was written: it is far off a locked clock, near, or the first. -/
theorem execPpsInEdge_eq {t : Nat} (hruns : s.clockRuns = true) (hsource : s.get 0x2400 0 = 1) (hnext : s.clock.ppsNext = none) :
    Sys2Proof.Machine.exec (.ppsInEdge t) s =
      .next (if s.clock.ppsLocked && decide (100000 < edgeOff ((s.at t).now - 3)) then
          let w := (s.at t).bump 0x240C 0
          let x := { w with clock := { w.clock with ppsBad := s.clock.ppsBad + 1 } }
          if s.clock.ppsBad + 1 < 3 then x else ((x.ppsSet (nearestSecond ((s.at t).now - 3))).bump 0x2409 0).put 0x2405 0 3
        else if s.clock.ppsLocked then (s.at t).ppsSet (nearestSecond ((s.at t).now - 3))
        else (((s.at t).ppsSet (nearestSecond ((s.at t).now - 3))).bump 0x2409 0).put 0x2405 0 3) := by
  obtain ⟨h, e, hat, -⟩ := s.at_spec t
  change execPpsInEdge t s = _
  have hvnext : (s.at t).clock.ppsNext = none := by rw [hat, hnext]
  have hvlocked : (s.at t).clock.ppsLocked = s.clock.ppsLocked := by rw [hat]
  have hvbad : (s.at t).clock.ppsBad = s.clock.ppsBad := by rw [hat]
  have hvsource : ¬ ((s.at t).get 0x2400 0 ≠ 1 ∨ (s.at t).clockRuns = false) := by
    rw [hat]
    exact fun h => h.elim (fun h => h hsource) fun h => Bool.false_ne_true (h.symm.trans hruns)
  have hbump : ((s.at t).bump 0x240C 0).clock.ppsBad = s.clock.ppsBad := hvbad
  unfold execPpsInEdge
  rw [if_neg hvsource]
  simp only [hvnext, hvlocked]
  rw [show nearestSecond ((s.at t).now - 3) - ((s.at t).now - 3) + ((s.at t).now - 3 - nearestSecond ((s.at t).now - 3)) =
    edgeOff ((s.at t).now - 3) from rfl]
  cases hfar : (s.clock.ppsLocked && decide (100000 < edgeOff ((s.at t).now - 3))) with
  | true =>
    simp only [if_true, hbump]
    split <;> rfl
  | false =>
    simp only [Bool.false_eq_true, if_false]
    split <;> rfl

/-- An edge that sets house time and locks the clock, counted in 0x2409:00. -/
theorem ppsInEdge_first {t : Nat} (hform : s.canonical = true) (hruns : s.clockRuns = true) (hsource : s.get 0x2400 0 = 1)
    (hlocked : s.clock.ppsLocked = false) (hnext : s.clock.ppsNext = none) :
    ∃ u, Sys2Proof.Machine.exec (.ppsInEdge t) s = .next u ∧ (
      u.now = nearestSecond ((s.at t).now - 3) + 3 ∧ u.clock.ppsLocked = true ∧ u.clock.ppsBad = 0 ∧ u.obj 0x2405 0 = 3 ∧
      u.obj 0x2409 0 = (s.obj 0x2409 0 + 1) % 2 ^ 64 ∧ Within [.clock, .dict] s u ∧ ObjsBut (fun i j => (i == 0x2405 || i == 0x2409) && j == 0) s u) := by
  obtain ⟨w, hw⟩ : ∃ w, w = (s.at t).ppsSet (nearestSecond ((s.at t).now - 3)) := ⟨_, rfl⟩
  have hexec : Sys2Proof.Machine.exec (.ppsInEdge t) s = .next ((w.bump 0x2409 0).put 0x2405 0 3) := by
    rw [execPpsInEdge_eq hruns hsource hnext, hlocked, hw]
    rfl
  have hsw : Within [.clock] s w := hw ▸ (s.at_within t).trans (State.set_clock_within _ _)
  have hwdict : w.dict = s.dict := hsw .dict (by decide)
  have hwform : Sparse.wf objDefault w.dict = true := hwdict ▸ State.dict_wf hform
  refine ⟨_, hexec, hw ▸ rfl, hw ▸ rfl, hw ▸ rfl, State.obj_put (State.put_wf hwform), ?_, ?_, ?_⟩
  · refine (State.obj_put_ne (by decide) (by decide) (by decide)).trans ((State.obj_bump hwform).trans ?_)
    rw [State.obj, hwdict, State.obj]
  · exact ((hsw.mono (by decide)).step (w.bump_within _ _) (by decide)).step (State.put_within _ _ _ _) (by decide)
  · exact ((ObjsBut.of_dict hwdict).trans ((w.bump_objsBut (i := 0x2409) (j := 0)).mono (by simp; grind))).trans
      ((State.put_objsBut _ _ (i := 0x2405) (j := 0)).mono (by simp; grind))

theorem ppsInEdge_near {t : Nat} (hruns : s.clockRuns = true) (hsource : s.get 0x2400 0 = 1) (hlocked : s.clock.ppsLocked = true)
    (hnext : s.clock.ppsNext = none) (hnear : ((s.at t).now - 3) % 1000000000 ≤ 100000) :
    ∃ u, Sys2Proof.Machine.exec (.ppsInEdge t) s = .next u ∧ (
      u.now = ((s.at t).now - 3) / 1000000000 * 1000000000 + 3 ∧ u.clock.ppsBad = 0 ∧ Within [.clock] s u) := by
  obtain ⟨hsecond, hoff⟩ := edgeOff_near hnear
  refine ⟨_, execPpsInEdge_eq hruns hsource hnext, ?_⟩
  rw [hlocked, if_neg (by simpa using hoff), if_pos rfl, hsecond]
  exact ⟨rfl, rfl, (s.at_within t).trans (State.set_clock_within _ _)⟩

theorem ppsInEdge_far {t : Nat} (hform : s.canonical = true) (hruns : s.clockRuns = true) (hsource : s.get 0x2400 0 = 1)
    (hlocked : s.clock.ppsLocked = true) (hnext : s.clock.ppsNext = none) (hlow : 100000 < ((s.at t).now - 3) % 1000000000)
    (hhigh : ((s.at t).now - 3) % 1000000000 < 999900000) (hbad : s.clock.ppsBad < 2) :
    ∃ u, Sys2Proof.Machine.exec (.ppsInEdge t) s = .next u ∧ (
      u.now = (s.at t).now ∧ u.clock.ppsBad = s.clock.ppsBad + 1 ∧ u.obj 0x240C 0 = (s.obj 0x240C 0 + 1) % 2 ^ 64 ∧
      Within [.clock, .dict] s u ∧ ObjsBut (fun i j => i == 0x240C && j == 0) s u) := by
  have hoff := edgeOff_far hlow hhigh
  have hdict : (s.at t).dict = s.dict := s.at_within t .dict (by decide)
  refine ⟨_, execPpsInEdge_eq hruns hsource hnext, ?_⟩
  rw [hlocked, if_pos (by simpa using hoff)]
  dsimp only
  rw [if_pos (by omega)]
  refine ⟨rfl, rfl, ?_, ?_, ?_⟩
  · refine (State.obj_bump (s := s.at t) (hdict ▸ State.dict_wf hform)).trans ?_
    rw [State.obj, hdict, State.obj]
  · exact (((s.at_within t).mono (by decide)).step (State.bump_within _ _ _) (by decide)).step (State.set_clock_within _ _) (by decide)
  · exact (ObjsBut.of_dict hdict).trans ((s.at t).bump_objsBut.trans (.of_dict rfl))

/-- What 0x240B:00 shows of a REF_IN signal. -/
def refState (sig : RefSignal) : Nat :=
  match sig with | .absent => 0 | .valid => 2 | .outOfRange => 3

/-- The state after REF_IN took a signal and before any event. -/
def State.refTaken (s : State) (sig : RefSignal) (t : Nat) : State :=
  ({ s.at t with clock := { (s.at t).clock with refLocked := decide (sig = RefSignal.valid) } }).put 0x240B 0 (refState sig)

theorem execRefInChange_eq {sig : RefSignal} {t : Nat} (hruns : s.clockRuns = true) :
    Sys2Proof.Machine.exec (.refInChange sig t) s = .next (if decide (sig = RefSignal.valid) != s.clock.refLocked then
      (s.refTaken sig t).raise 0x00040003 0x240B 0 else s.refTaken sig t) := by
  obtain ⟨h, e, hat, -⟩ := s.at_spec t
  have hlocked : (s.at t).clock.refLocked = s.clock.refLocked := by rw [hat]
  have hvruns : (s.at t).clockRuns = true := by
    rw [hat]
    exact hruns
  change execRefInChange sig t s = _
  unfold execRefInChange
  rw [if_neg (by rw [hvruns]; decide)]
  dsimp only
  rw [hlocked]
  split <;> rfl

theorem State.refTaken_within (s : State) (sig : RefSignal) (t : Nat) : Within [.clock, .dict] s (s.refTaken sig t) :=
  (((s.at_within t).mono (by decide)).step (State.set_clock_within _ _) (by decide)).step (State.put_within _ _ _ _) (by decide)

theorem State.refTaken_form (sig : RefSignal) (t : Nat) (hform : s.canonical = true) :
    Sparse.wf objDefault (s.refTaken sig t).dict = true ∧ (s.refTaken sig t).obj 0x240B 0 = refState sig := by
  have hdict : (s.at t).dict = s.dict := s.at_within t .dict (by decide)
  have hw : Sparse.wf objDefault ({ s.at t with clock := { (s.at t).clock with refLocked := decide (sig = RefSignal.valid) } } : State).dict = true :=
    hdict ▸ State.dict_wf hform
  exact ⟨State.put_wf hw, State.obj_put hw⟩

theorem State.refTaken_objs (s : State) (sig : RefSignal) (t : Nat) : ObjsBut (fun i j => i == 0x240B && j == 0) s (s.refTaken sig t) :=
  (ObjsBut.of_dict (s.at_within t .dict (by decide))).trans
    (State.put_objsBut { s.at t with clock := { (s.at t).clock with refLocked := decide (sig = RefSignal.valid) } } _)

theorem refInChange_changed {sig : RefSignal} {t : Nat} (hform : s.canonical = true) (hruns : s.clockRuns = true)
    (hchanged : s.clock.refLocked = !(decide (sig = RefSignal.valid))) :
    ∃ u, Sys2Proof.Machine.exec (.refInChange sig t) s = .next u ∧ (
      u.now = (s.at t).now ∧ u.clock.refLocked = decide (sig = RefSignal.valid) ∧
      u.obj 0x240B 0 = refState sig ∧ Raised 0x00040003 0x240B 0 s u ∧
      Within [.clock, .dict, .odp, .out, .mem, .memc, .obs] s u ∧ Notes (fun i j => i == 0x240B && j == 0) s u) := by
  obtain ⟨w, hw⟩ : ∃ w, w = s.refTaken sig t := ⟨_, rfl⟩
  have hwithin := hw ▸ s.refTaken_within sig t
  obtain ⟨hwform, hshown⟩ := hw ▸ s.refTaken_form sig t hform
  have hobjs := hw ▸ s.refTaken_objs sig t
  have hexec : Sys2Proof.Machine.exec (.refInChange sig t) s = .next (w.raise 0x00040003 0x240B 0) := by
    rw [execRefInChange_eq hruns, hchanged, hw]
    simp
  have hclock : (w.raise 0x00040003 0x240B 0).clock = w.clock := w.raise_quiet _ _ _ .clock (by decide)
  have hnoted := w.raise_noted 0x00040003 0x240B 0
  refine ⟨_, hexec, ?_, ?_, ?_, ?_, ?_, ?_⟩
  · rw [State.now, hclock, hw]
    rfl
  · rw [hclock, hw]
    rfl
  · exact (hnoted.objs 0x240B 0 (by decide) (by decide)).trans hshown
  · exact (State.raise_raised hwform _ _ _).after (congrArg Odp.eventSeq (hwithin .odp (by decide))) (hobjs 0x1816 0 (by decide) (by decide))
  · exact (hwithin.mono (by decide)).step (w.raise_quiet _ _ _) (by decide)
  · exact (hwithin.notes hobjs).trans (.of_objs hobjs fun _ => hwform) (hnoted.notes _)

theorem refInChange_same {sig : RefSignal} {t : Nat} (hform : s.canonical = true) (hruns : s.clockRuns = true)
    (hsame : s.clock.refLocked = decide (sig = RefSignal.valid)) :
    ∃ u, Sys2Proof.Machine.exec (.refInChange sig t) s = .next u ∧ (
      u.now = (s.at t).now ∧ u.clock.refLocked = s.clock.refLocked ∧ u.obj 0x240B 0 = refState sig ∧
      Within [.clock, .dict] s u ∧ ObjsBut (fun i j => i == 0x240B && j == 0) s u) := by
  have hexec : Sys2Proof.Machine.exec (.refInChange sig t) s = .next (s.refTaken sig t) := by
    rw [execRefInChange_eq hruns, hsame, bne_self_eq_false, if_neg Bool.false_ne_true]
  exact ⟨_, hexec, rfl, hsame.symm, (State.refTaken_form sig t hform).2, s.refTaken_within sig t, s.refTaken_objs sig t⟩

theorem ppsOutput_rises {t : Nat} (hon : s.flag 0x8810 1 = true) (hsecond : (s.at t).now % 1000000000 ≤ 5) (hoff : s.dev.st ≠ .off)
    (hreset : s.dev.st ≠ .reset) :
    ∃ u, Sys2Proof.Machine.exec (.ppsOutput t) s = .next u ∧ (
      u.pwr = { s.pwr with evtOut := true, evtEnd := some (u.now / 1000000000 * 1000000000 + 100000000) } ∧ u.out = .evtOut u.now :: s.out ∧
      Within [.pwr, .clock, .out] s u) := by
  obtain ⟨h, e, hat, -⟩ := s.at_spec t
  have hdue : (s.at t).flag 0x8810 1 = true ∧ (s.at t).now % 1000000000 ≤ 5 ∧ (s.at t).dev.st ≠ .off ∧ (s.at t).dev.st ≠ .reset := by
    refine ⟨?_, hsecond, ?_, ?_⟩
    · rw [hat]
      exact hon
    · rw [hat]
      exact hoff
    · rw [hat]
      exact hreset
  have hpwr : (s.at t).pwr = s.pwr := by rw [hat]
  have hout : (s.at t).out = s.out := by rw [hat]
  refine ⟨_, if_pos hdue, ?_, congrArg _ hout, ?_⟩
  · rw [← hpwr]
    rfl
  · exact (((s.at_within t).mono (by decide)).step (State.emit_within _ _) (by decide)).step (State.set_pwr_within _ _) (by decide)

theorem evtOutPulseEnd_falls {t : Nat} (hset : s.pwr.evtEnd.isSome = true) (hdue : s.pwr.evtEnd.getD 0 ≤ (s.at t).now) :
    ∃ u, Sys2Proof.Machine.exec (.evtOutPulseEnd t) s = .next u ∧ (
      u.pwr = { s.pwr with evtOut := false, evtEnd := none } ∧ Within [.pwr, .clock] s u) := by
  obtain ⟨e, he⟩ := Option.isSome_iff_exists.1 hset
  have hpwr : (s.at t).pwr = s.pwr := s.at_within t .pwr (by decide)
  have hexec : Sys2Proof.Machine.exec (.evtOutPulseEnd t) s = .next { s.at t with pwr := { (s.at t).pwr with evtOut := false, evtEnd := none } } := by
    change execEvtOutPulseEnd t s = _
    unfold execEvtOutPulseEnd
    simp only [hpwr, he]
    exact if_pos (by rwa [he] at hdue)
  exact ⟨_, hexec, by rw [hpwr], ((s.at_within t).mono (by decide)).step (State.set_pwr_within _ _) (by decide)⟩

end

/-- Settles O6, pin by pin. -/
theorem pinCommands : Obligations.PinCommands := by
  unfold Obligations.PinCommands
  exact ⟨fun s t => ppsInEdge_first, fun s t hruns hsource hlocked hnext _ => ppsInEdge_near hruns hsource hlocked hnext,
    fun s t hform hruns hsource hlocked hnext _ => ppsInEdge_far hform hruns hsource hlocked hnext,
    fun s sig t => refInChange_changed, fun s sig t => refInChange_same, fun s t => ppsOutput_rises, fun s t => evtOutPulseEnd_falls⟩

end Sys2Proof.Machine

/-! O8: on the way into DRAIN a trigger's firing is discarded with the held packets of its tap buffer, whose write-back may find an entry
of the catalogue corrupted: the error it reports changes flash and the record counts, which the clause of DRAIN leaves out. -/

namespace Sys2Proof.Machine

set_option Elab.async false

/-! ## A reported error leaves a trace -/

/-- Some error of low severity was counted in this minute's table, as of a bucket with a bad entry. -/
def State.Counted (s : State) : Prop := s.rel.minute ≠ []

theorem State.Counted.of_rel {s u : State} (h : s.Counted) (hrel : u.rel = s.rel) : u.Counted := by
  rw [State.Counted, hrel]
  exact h

theorem State.journalRecord_counted (s : State) {cls : Nat} (r : JournalRec) (h : s.Counted ∨ severity cls < 2) :
    (s.journalRecord cls r).Counted := by
  unfold State.journalRecord
  split
  · rename_i hsevere
    have hs : s.Counted := h.resolve_right (by omega)
    split <;> exact hs
  · split
    rename_i ok m hm
    have hne : m ≠ [] := by
      cases hm
      exact List.cons_ne_nil _ _
    extract_lets v
    split <;> exact hne

theorem State.errorRecord_counted (s : State) {e : ErrInfo} (h : s.Counted ∨ severity e.cls < 2) : (s.errorRecord e).Counted := by
  obtain ⟨x, r, heq, hx⟩ : ∃ (x : State) (r : JournalRec), s.errorRecord e =
      ((x.journalRecord e.cls r).raiseC (0x00010000 + e.cls) 0 0 e.cls (severity e.cls)).pushRecord (0x00010000 + e.cls)
        (x.journalRecord e.cls r).odp.eventSeq r ∧ x.rel.minute = (s.detected e).rel.minute := ⟨_, _, rfl, rfl⟩
  have hdetected : (s.detected e).rel = s.rel := s.detected_within e .rel (by decide)
  have hxcounted : x.Counted ∨ severity e.cls < 2 := h.imp_left fun hs => by
    rw [State.Counted, hx, hdetected]
    exact hs
  rw [heq]
  exact (x.journalRecord_counted r hxcounted).of_rel
    (Eq.trans (State.pushRecord_within _ _ _ _ .rel (by decide)) (State.raiseC_within _ _ _ _ _ _ .rel (by decide)))

theorem State.checkSlots_counted {s : State} (b : Nat) (es : List Nat) (n : Nat)
    (h : s.Counted ∨ ∃ e es', es = e :: es' ∧ (entryValid e && !parityOk e) = true) : (s.checkSlots b es n).Counted := by
  induction es generalizing s n with
  | nil => exact h.resolve_right fun ⟨_, _, hnil, _⟩ => nomatch hnil
  | cons e es ih =>
    unfold State.checkSlots
    extract_lets v
    refine ih _ (.inl ?_)
    unfold v
    split
    · exact State.errorRecord_counted _ (.inr (show severity 0x0B < 2 by decide))
    · rename_i hgood
      refine h.resolve_right fun ⟨e', es', heq, hbad⟩ => hgood ?_
      cases heq
      exact hbad

theorem State.checkBucket_counted {s : State} {b : Nat}
    (h : s.Counted ∨ ∃ e es, s.bucket b = e :: es ∧ (entryValid e && !parityOk e) = true) : (s.checkBucket b).Counted := by
  refine State.checkSlots_counted _ _ _ (h.imp_left fun hs => hs.of_rel ?_)
  unfold State.touchBucket
  split
  · rfl
  · exact State.countRead_within _ _ _ .rel (by decide)

theorem State.writebackEffect_counted {s : State} {k : CatKey} {byte b : Nat} {bs : List Nat} (hk : k.buckets = b :: bs)
    (h : ∃ e es, s.bucket b = e :: es ∧ (entryValid e && !parityOk e) = true) : (s.writebackEffect k byte).Counted := by
  have hall : (k.buckets.foldl State.checkBucket s).Counted := by
    rw [hk, List.foldl_cons]
    have hfirst : (s.checkBucket b).Counted := State.checkBucket_counted (.inr h)
    clear hk h
    induction bs generalizing b s with
    | nil => exact hfirst
    | cons c bs ih => exact ih (State.checkBucket_counted (.inl hfirst))
  unfold State.writebackEffect
  extract_lets v
  split
  · exact hall.of_rel (State.setEntry_within _ _ _ _ .rel (by decide))
  · exact hall

/-! ## Rings with nothing posted and no list -/

/-- No list stands on an array, and every ring is at its producer index. -/
structure State.RingsIdle (s : State) : Prop where
  form  : Sparse.wf objDefault s.dict = true
  rings : ∀ a < 16, ∀ r < 16, s.consumer a r = s.producer a r
  lists : ∀ a < 16, s.listsOf a = []

theorem State.get_ring (s : State) {a r j : Nat} (ha : a < 16) (hr : r < 16) : s.get (ringObj a r) j = s.obj (ringObj a r) j := by
  refine State.get_of_dict ?_
  unfold isRuleObj ringObj
  simp
  omega

theorem State.discardRing_idle {s : State} (h : s.RingsIdle) {a r : Nat} (ha : a < 16) (hr : r < 16) :
    s.discardRing a r = s.put (ringObj a r) 8 (s.producer a r) := by
  have hring := h.rings a ha r hr
  have hfrom : s.discardFrom a r 65536 (s.producer a r) = s := by
    rw [show 65536 = 65535 + 1 from rfl, State.discardFrom, if_pos rfl]
  unfold State.discardRing
  rw [h.lists a ha]
  simp only [List.find?_nil, hring, hfrom, ne_eq, not_true, and_false, if_false]

theorem State.RingsIdle.put {s : State} (h : s.RingsIdle) {a r : Nat} (ha : a < 16) (hr : r < 16) :
    (s.put (ringObj a r) 8 (s.producer a r)).RingsIdle where
  form := State.put_wf h.form
  lists := h.lists
  rings b hb q hq := by
    generalize hv : s.producer a r = v
    have hproducer : (s.put (ringObj a r) 8 v).producer b q = s.producer b q :=
      (State.get_ring _ hb hq).trans ((State.obj_put_ne (by decide) (by decide) fun h => absurd h.2 (by decide)).trans
        (s.get_ring hb hq).symm)
    rw [hproducer]
    by_cases hsame : ringObj b q = ringObj a r
    · obtain ⟨rfl, rfl⟩ : b = a ∧ q = r := by
        unfold ringObj at hsame
        omega
      exact (State.get_ring _ hb hq).trans ((State.obj_put h.form).trans hv.symm)
    · refine (State.get_ring _ hb hq).trans ((State.obj_put_ne (by decide) (by decide) fun h => hsame h.1).trans ?_)
      exact (s.get_ring hb hq).symm.trans (h.rings b hb q hq)

/-- With nothing to discard, the rings only have their consumer indices written. -/
theorem State.discardRings_idle {s : State} (h : s.RingsIdle) (l m : List Nat) (hl : ∀ a ∈ l, a < 16) (hm : ∀ r ∈ m, r < 16) :
    Within [.dict] s (l.foldl (fun s a => m.foldl (fun s r => s.discardRing a r) s) s) := by
  have hrow (a : Nat) (ha : a < 16) (m : List Nat) (hm : ∀ r ∈ m, r < 16) (s : State) (h : s.RingsIdle) :
      Within [.dict] s (m.foldl (fun s r => s.discardRing a r) s) ∧ (m.foldl (fun s r => s.discardRing a r) s).RingsIdle := by
    induction m generalizing s with
    | nil => exact ⟨.refl _ s, h⟩
    | cons r m ih =>
      rw [List.foldl_cons, State.discardRing_idle h ha (hm r List.mem_cons_self)]
      obtain ⟨hwithin, hidle⟩ := ih (fun r hr => hm r (List.mem_cons_of_mem _ hr)) _ (h.put ha (hm r List.mem_cons_self))
      exact ⟨(s.put_within _ _ _).trans hwithin, hidle⟩
  induction l generalizing s with
  | nil => exact .refl _ s
  | cons a l ih =>
    rw [List.foldl_cons]
    obtain ⟨hwithin, hidle⟩ := hrow a (hl a List.mem_cons_self) m hm s h
    exact hwithin.trans (ih hidle fun a ha => hl a (List.mem_cons_of_mem _ ha))

/-! ## The counterexample -/

/-- An entry that is valid and whose parity does not agree. -/
def badEntry : Nat := 2 ^ 503

/-- A held packet of a flow of profile 0 and key 7. -/
def firedPkt : Pkt :=
  { pid := 1, port := 0, seq := 0, pipe := 0, stamp := 0, ra := 0, ma := 0, bytes := [], inBurst := false, stage := .held,
    flow := some (0, 0, 7) }

/-- RUN at ring address 5, a firing of trigger 0 waiting for the tap buffer that holds `firedPkt`, and the flow's first bucket in the
hot cache with a corrupted entry. -/
def firedState : State :=
  { State.reset with
    dict := [(objKey 0x1803 0, 5)]
    dev := { st := .run }
    pkts := [firedPkt]
    cat := { State.reset.cat with cache := [{ bucket := (hashPair (0, 0) 0 7).1, data := [badEntry, 0, 0, 0], used := false, dirty := false }] }
    sync := { State.reset.sync with
      taps := [(0, { b0 := { held := [(1, 0)] } })]
      trigs := [(0, { wait := some { acc := 0, lw0 := 0, evt := 0, tap := some (0, 0) } })] } }

/-- A request to ring address 5 in no session. -/
def firedReq : Req :=
  { wellFormed := true, gen := 3, source := 9, target := 5, reqId := 1, trailer := none, t := 5 }

theorem firedState_writable : firedState.Writable firedReq 0x2001 0 5 (firedState.at 5) :=
  ⟨⟨by decide, by decide, rfl, by decide, by decide⟩, by decide⟩

theorem firedState_canonical : firedState.canonical = true := by decide

/-- The state after the answer, in which the request is carried out. -/
def firedAnswered : State := (firedState.at 5).answer (mkAnswer svcWrite firedReq 0x2001 0 0 [])

theorem State.toDrain_of_run {s : State} (hst : s.dev.st = .run) (htrans : s.dev.trans = .none) : s.stateRequest 5 = .ok s.toDrain := by
  simp [State.stateRequest, hst, htrans, Trans.busy]

/-- A state request that is accepted is answered first and then carried out. -/
theorem State.serveState_of_done {s u x v : State} {r : Req} {d : Bytes} {row : ObjRow} (h : s.Admits svcWrite r 0x2001 0 d u)
    (hrow : u.checkWrite (u.inSession r 0x2001) 0x2001 0 d = .ok row) (hx : u.stateRequest (Bits.leNat d) = .ok x)
    (hv : (u.answer (mkAnswer svcWrite r 0x2001 0 0 [])).stateRequest (Bits.leNat d) = .ok v) : (s.at r.t).serveState r d = v := by
  rw [State.serveState, State.receive_of_admits h.served h.addressed h.authentic h.fresh h.allowed]
  simp only [hrow, hx, hv]

theorem exec_firedState : Sys2Proof.Machine.exec (.stateRequestDrain firedReq) firedState = .next firedAnswered.toDrain := by
  obtain ⟨hadm, hok⟩ := firedState_writable
  obtain ⟨row, hrow⟩ := exists_ok_of_isSome hok
  exact congrArg Host.Outcome.next (State.serveState_of_done hadm hrow (State.toDrain_of_run rfl rfl) (State.toDrain_of_run rfl rfl))

theorem firedAnswered_objs : ObjsBut (fun i _ => noteObj i || i == 0x1812 || i == 0x1813) firedState (firedAnswered.enter .drain) := by
  have hanswered : ObjsBut (fun i _ => noteObj i || i == 0x1812 || i == 0x1813) firedState firedAnswered :=
    ((ObjsBut.of_dict (firedState.at_within 5 .dict (by decide))).trans (State.answer_objsBut _ _)).mono (by unfold ansObj; simp; grind)
  exact hanswered.trans ((firedAnswered.enter_noted .drain).objs.mono (by simp; grind))

theorem firedState_rings : ∀ a < 16, ∀ r < 16, firedState.obj (ringObj a r) 8 = firedState.obj (ringObj a r) 7 := by decide

theorem firedAnswered_idle : (firedAnswered.enter .drain).RingsIdle where
  form := by
    have hform : firedAnswered.canonical = true := (Calm.refl firedState).at.answer.form firedState_canonical
    exact State.dict_wf ((firedAnswered.enter_calm .drain).form hform)
  rings a ha r hr := by
    have hobj (j : Nat) (hj : j < 65536) : (firedAnswered.enter .drain).get (ringObj a r) j = firedState.obj (ringObj a r) j :=
      (State.get_ring _ ha hr).trans (firedAnswered_objs _ _ hj (by unfold ringObj noteObj; simp; omega))
    exact (hobj 8 (by decide)).trans ((firedState_rings a ha r hr).trans (hobj 7 (by decide)).symm)
  lists a _ := by
    have harr : (firedAnswered.enter .drain).arr = State.reset.arr := State.enter_within _ _ .arr (by decide)
    have hat : (firedAnswered.enter .drain).arrAt a = State.reset.arrAt a := congrArg (fun x : Vector Arr 16 => x.toList.getD a {}) harr
    rw [State.listsOf, hat, State.reset_arrAt]
    rfl

theorem badEntry_bad : (entryValid badEntry && !parityOk badEntry) = true := by decide +kernel

/-- Where the packet, the tap buffer and the cached bucket are those of `firedState`, discarding the buffer reports an error. -/
theorem State.discardBuf_counted {s : State} (hpkts : s.pkts = [firedPkt]) (hcat : s.cat = firedState.cat)
    (htap : ((s.tap 0).buf 0).held = [(1, 0)]) : (s.discardBuf 0 0).Counted := by
  have hdiscard : s.discardBuf 0 0 = (s.releaseUndetermined firedPkt).freeBuf 0 0 := by
    unfold State.discardBuf
    extract_lets held
    have hheld : held = [(1, 0)] := htap
    rw [hheld, List.foldl_cons, hpkts]
    rfl
  obtain ⟨bs, hbuckets⟩ : ∃ bs, s.candidates 0 7 = (hashPair (0, 0) 0 7).1 :: bs := by
    unfold State.candidates
    rw [hcat]
    exact ⟨_, List.eraseDups_cons⟩
  have hbucket : s.bucket (hashPair (0, 0) 0 7).1 = [badEntry, 0, 0, 0] := by
    have hway : s.way? (hashPair (0, 0) 0 7).1 = firedState.cat.cache.head? := by
      rw [State.way?, hcat]
      exact List.find?_cons_of_pos (by simp)
    rw [State.bucket, hway]
    rfl
  have hback : (s.writeback firedPkt 3 0 7).Counted := by
    have hopen : s.catBlocked (s.candidates 0 7) = false := by
      rw [State.catBlocked, hcat]
      rfl
    unfold State.writeback
    simp only [firedPkt, State.catKey, hopen, Bool.false_eq_true, if_false]
    exact State.writebackEffect_counted hbuckets ⟨_, _, hbucket, badEntry_bad⟩
  rw [hdiscard]
  refine State.Counted.of_rel ?_ (State.freeBuf_within _ _ _ .rel (by decide))
  have hreleased := ((s.writeback firedPkt 3 0 7).releaseHeld_within firedPkt (s.undetermined firedPkt)) .rel (by decide)
  unfold State.releaseUndetermined
  extract_lets d record v
  have hv : v.Counted := hback.of_rel hreleased
  split
  · exact hv.of_rel (State.verdictRecord_within _ _ _ _ _ _ _ _ .rel (by decide))
  · exact hv

/-- Discarding a firing that launches for a tap buffer discards the buffer. -/
theorem State.dropFiring_tap (s : State) {t d b : Nat} {x : Trig} {f : Firing} (hx : x.wait = some f) (hf : f.tap = some (d, b)) :
    ∃ w, Within [.dict, .sync] s w ∧ w.sync.taps = s.sync.taps ∧ s.dropFiring t x = w.discardBuf d b := by
  unfold State.dropFiring
  simp only [hx, hf]
  refine ⟨_, ?_, ?_, rfl⟩
  · exact ((s.set_sync_within _).mono (by decide)).step (State.bump_within _ _ _) (by decide)
  · rfl

/-- What the entry into DRAIN does after the first firing is dropped counts no error out. -/
theorem State.drainEntry_counted {s s1 : State} {e : Nat × Trig}
    (hs1 : s1 = (List.range 16).foldl (fun s a => (List.range 16).foldl (fun s r => s.discardRing a r) s) s)
    (htrigs : s1.sync.trigs = [e]) (h : (s1.dropFiring e.1 e.2).Counted) : s.drainEntry.Counted := by
  unfold State.drainEntry
  rw [← hs1]
  extract_lets v s2 taps x s3
  have h2 : s2.Counted := by
    unfold s2 v
    rw [htrigs]
    exact h
  have h3 : s3.Counted := h2.of_rel (State.set_sync_within s2 _ .rel (by decide))
  clear_value s3
  exact h3.of_rel (Within.foldl (fun s a => s.modArr_within a _) _ s3 .rel (by decide))

theorem firedAnswered_counted : firedAnswered.toDrain.Counted := by
  have hsync : (firedAnswered.enter .drain).sync = firedState.sync := State.enter_within _ _ .sync (by decide)
  have hpkts : (firedAnswered.enter .drain).pkts = [firedPkt] := State.enter_within _ _ .pkts (by decide)
  have hcat : (firedAnswered.enter .drain).cat = firedState.cat := State.enter_within _ _ .cat (by decide)
  have hrings := State.discardRings_idle firedAnswered_idle (List.range 16) (List.range 16) (by simp) (by simp)
  unfold State.toDrain
  generalize hs1 : (List.range 16).foldl (fun s a => (List.range 16).foldl (fun s r => s.discardRing a r) s) (firedAnswered.enter .drain) = s1 at hrings
  have hsync1 : s1.sync = firedState.sync := Eq.trans (hrings .sync (by decide)) hsync
  have hpkts1 : s1.pkts = [firedPkt] := Eq.trans (hrings .pkts (by decide)) hpkts
  have hcat1 : s1.cat = firedState.cat := Eq.trans (hrings .cat (by decide)) hcat
  have htrigs : s1.sync.trigs = firedState.sync.trigs := congrArg Sync.trigs hsync1
  obtain ⟨w, hw, htaps, hdrop⟩ := s1.dropFiring_tap (t := 0) (d := 0) (b := 0)
    (x := { wait := some { acc := 0, lw0 := 0, evt := 0, tap := some (0, 0) } }) rfl rfl
  have htapsw : w.sync.taps = firedState.sync.taps := htaps.trans (congrArg Sync.taps hsync1)
  refine State.drainEntry_counted hs1.symm htrigs ?_
  rw [hdrop]
  refine State.discardBuf_counted (Eq.trans (hw .pkts (by decide)) hpkts1) (Eq.trans (hw .cat (by decide)) hcat1) ?_
  rw [State.tap, htapsw]
  rfl

/-- Refutes O8: DRAIN discards the firings that wait, and the held packets of their tap buffers are written back to the catalogue; a
corrupted entry found there is reported, which the parts of the clause leave out. -/
theorem not_stateRequestCommands : ¬ Obligations.StateRequestCommands := by
  unfold Obligations.StateRequestCommands
  rintro ⟨-, -, -, hdrain, -, -⟩
  obtain ⟨v, hv, -, -, -, -, hw⟩ := hdrain firedState firedReq _ firedState_writable rfl rfl
  obtain rfl : firedAnswered.toDrain = v := by injection exec_firedState.symm.trans hv
  have hrel : firedAnswered.toDrain.rel = firedState.rel := hw .rel (by decide)
  exact firedAnswered_counted (congrArg Rel.minute hrel)

end Sys2Proof.Machine

/-! A record that fits in one line of the logbook and meets no freeze, no loss and no full area (R436, R437). -/

namespace Sys2Proof.Bits

set_option Elab.async false

@[simp] theorem natLe_length (n v : Nat) : (natLe n v).length = n := by
  induction n generalizing v with
  | zero => rfl
  | succ n ih => simp [natLe, ih]

end Sys2Proof.Bits

namespace Sys2Proof.Machine

set_option Elab.async false

open Sys2Proof.Bits

theorem Sparse.getElem_readList {α : Type} {d : Nat → α} {m : Sparse α} {x n i : Nat} (hi : i < (Sparse.readList d m x n).length) :
    (Sparse.readList d m x n)[i] = Sparse.read d m (x + i) := by
  induction n generalizing x i with
  | zero => exact absurd hi (by simp)
  | succ n ih =>
    cases i with
    | zero => rfl
    | succ i =>
      refine (ih (x := x + 1) (i := i) (by simpa using hi)).trans ?_
      rw [Nat.add_right_comm, Nat.add_assoc]

/-- A part of what was just written. -/
theorem State.memRead_memWrite_part {s : State} {x o n : Nat} {bs : Bytes} (hform : Memory.wf s = true) (h : o + n ≤ bs.length) :
    (s.memWrite x bs).memRead (x + o) n = (bs.drop o).take n := by
  have hlen : ((s.memWrite x bs).memRead (x + o) n).length = n := Sparse.readList_length
  refine List.ext_getElem (by simp [hlen]; omega) fun i hi _ => ?_
  have hin : i < n := hlen ▸ hi
  refine (Sparse.getElem_readList hi).trans ?_
  rw [Nat.add_assoc, List.getElem_take, List.getElem_drop]
  exact Sparse.read_writeList_in hform (by omega)

theorem State.memRead_of_eq {s u : State} (hmem : u.mem = s.mem) (hmemc : u.memc = s.memc) (x n : Nat) : u.memRead x n = s.memRead x n := by
  have hdef : u.memDef = s.memDef := funext fun y => by rw [State.memDef, State.memDef, hmemc]
  rw [State.memRead, State.memRead, hmem, hdef]

/-- Where the next line of the logbook goes. -/
def State.logAt (s : State) : Nat := s.regionBase 3 + s.get 0x8809 0

theorem State.get_of_dict_eq {s u : State} (hdict : u.dict = s.dict) {i j : Nat} (hr : isRuleObj i j = false := by decide) :
    u.get i j = s.get i j := by
  rw [State.get_of_dict hr, State.get_of_dict hr, hdict]

theorem State.logAt_of_dict {s u : State} (hdict : u.dict = s.dict) : u.logAt = s.logAt := by
  have hbase : u.regionBase 3 = s.regionBase 3 := State.get_of_dict_eq (i := 0x6000 + 3) hdict
  rw [State.logAt, State.logAt, hbase, State.get_of_dict_eq hdict]

/-- The byte lies in the next line of the logbook. -/
def State.inLine (s : State) (x : Nat) : Bool := decide (s.logAt ≤ x) && decide (x < s.logAt + 64)

/-- The header and payload of a record of one line (R437). -/
def recBytes (time seq kind uKind unit : Nat) (body : Bytes) : Bytes :=
  natLe 8 time ++ natLe 4 seq ++ natLe 1 kind ++ natLe 1 0 ++ natLe 1 uKind ++ natLe 1 unit ++ body

theorem recBytes_length (time seq kind uKind unit : Nat) (body : Bytes) : (recBytes time seq kind uKind unit body).length = 16 + body.length := by
  simp [recBytes]
  omega

/-- The first 16 bytes of a record are its header. -/
theorem recBytes_take (time seq kind uKind unit : Nat) (body : Bytes) : (recBytes time seq kind uKind unit body).take 16 =
    natLe 8 time ++ natLe 4 seq ++ (natLe 1 kind ++ [0] ++ natLe 1 uKind ++ natLe 1 unit) :=
  List.take_left' (l₁ := natLe 8 time ++ natLe 4 seq ++ (natLe 1 kind ++ [0] ++ natLe 1 uKind ++ natLe 1 unit)) (by simp)

/-- The payload follows the header. -/
theorem recBytes_drop (time seq kind uKind unit : Nat) (body : Bytes) : (recBytes time seq kind uKind unit body).drop 16 = body :=
  List.drop_left' (by simp)

/-- One record of one line was written at the write offset under the next sequence number. -/
structure Placed (bs : Bytes) (s u : State) : Prop where
  line   : ∀ o n, o + n ≤ bs.length → u.memRead (s.logAt + o) n = (bs.drop o).take n
  number : u.obj 0x880B 0 = (s.obj 0x880B 0 + 1) % 2 ^ 32
  bytes  : BytesBut s.inLine s u
  frame  : Within [.dict, .mem, .memc] s u
  objs   : LogOnly s u
  form   : s.canonical = true → u.canonical = true

theorem logRecLines_one {seq : Nat} {r : LogRec} (hbody : r.body.length ≤ 48) (hst : r.stretch = false) :
    logRecLines seq false r = [slice (recBytes r.time seq r.kind r.uKind r.unit r.body) 0 64] := by
  have hmore : (r.body.length + 16 + 63) / 64 - 1 = 0 := by omega
  simp [logRecLines, recBytes, hmore, hst]

theorem slice_whole {bs : Bytes} (h : bs.length ≤ 64) : slice bs 0 64 = bs ++ List.replicate (64 - bs.length) 0 := by
  simp [slice, List.take_of_length_le h]

theorem slice_slice (bs : Bytes) : slice (slice bs 0 64) 0 64 = slice bs 0 64 := by
  rw [slice_whole (bs := slice bs 0 64) (Nat.le_of_eq (slice_length ..)), slice_length]
  simp

theorem State.logWrite_one {s : State} {r : LogRec} (hform : s.canonical = true) (hbody : r.body.length ≤ 48) (hst : r.stretch = false)
    (hfull : s.logFull 1 = false) (hc : r.cls < 65536) : Placed (recBytes r.time (s.get 0x880B 0) r.kind r.uKind r.unit r.body) s (s.logWrite false r) := by
  obtain ⟨bs, hbs⟩ : ∃ bs, bs = recBytes r.time (s.get 0x880B 0) r.kind r.uKind r.unit r.body := ⟨_, rfl⟩
  have hlen : bs.length ≤ 64 := by
    rw [hbs]
    simp [recBytes]
    omega
  obtain ⟨v, hv⟩ : ∃ v, v = s.put 0x880B 0 ((s.get 0x880B 0 + 1) % 2 ^ 32) := ⟨_, rfl⟩
  obtain ⟨w, hw⟩ : ∃ w, w = v.memWrite (v.regionBase 3 + v.get 0x8809 0) (slice (slice bs 0 64) 0 64) := ⟨_, rfl⟩
  obtain ⟨u, hu⟩ : ∃ u, u = if w.logArea ≤ v.get 0x8809 0 + 64 then (w.put 0x8809 0 0).bump 0x880A 0 else w.put 0x8809 0 (v.get 0x8809 0 + 64) :=
    ⟨_, rfl⟩
  have heq : s.logWrite false r = u := by
    unfold State.logWrite
    extract_lets seq ls
    have hls : ls = [slice bs 0 64] := hbs ▸ logRecLines_one hbody hst
    rw [if_neg (by rw [hls, List.length_singleton, hfull]; decide), ← hv, hls, hu, hw]
    rfl
  have hvform : Sparse.wf objDefault v.dict = true := hv ▸ State.put_wf (State.dict_wf hform)
  have hplace : v.regionBase 3 + v.get 0x8809 0 = s.logAt := by
    have hoff : v.get 0x8809 0 = s.get 0x8809 0 := hv ▸ State.get_put_ne (by decide)
    have hbase : v.regionBase 3 = s.regionBase 3 := hv ▸ State.get_put_ne (i' := 0x6000 + 3) (by decide)
    rw [hoff, hbase, State.logAt]
  have hvw : Within [.mem, .memc] v w := hw ▸ v.memWrite_within _ _
  have hwdict : w.dict = v.dict := hvw .dict (by decide)
  have hwu : Within [.dict] w u := by
    rw [hu]
    split
    · exact (State.put_within _ _ _ _).trans (State.bump_within _ _ _)
    · exact State.put_within _ _ _ _
  have humem : u.mem = w.mem := hwu .mem (by decide)
  have humemc : u.memc = w.memc := hwu .memc (by decide)
  have hmem : w.mem = Sparse.writeList s.memDef s.mem s.logAt (slice bs 0 64) := by
    rw [hw, hplace, slice_slice, hv]
    rfl
  have hvoid : w.memc.void = s.memc.void := by
    rw [hw, hv]
    rfl
  rw [heq, ← hbs]
  refine ⟨fun o n hon => ?_, ?_, fun x hx => ?_, ?_, ?_, fun h => heq ▸ ?_⟩
  · rw [State.memRead_of_eq humem humemc, hw, hplace, slice_slice]
    have hmemwf : Memory.wf v = true := by
      rw [hv]
      exact (State.canonical_iff.1 hform).1
    rw [State.memRead_memWrite_part hmemwf (by rw [slice_length]; omega), slice_whole hlen, List.drop_append, List.take_append_of_le_length]
    rw [List.length_drop]
    omega
  · have hnum : u.obj 0x880B 0 = w.obj 0x880B 0 := by
      rw [hu]
      split
      · exact (State.obj_put_ne (by decide) (by decide) (by decide)).trans (State.obj_put_ne (by decide) (by decide) (by decide))
      · exact State.obj_put_ne (by decide) (by decide) (by decide)
    rw [hnum, State.obj, hwdict, ← State.obj, hv, State.obj_put (State.dict_wf hform), State.get_of_dict (by decide)]
    rfl
  · rw [State.byteAt_of_eq humem humemc, State.byteAt, State.byteAt, hmem]
    have hdef : w.memDef = s.memDef := funext fun y => by rw [State.memDef, State.memDef, hvoid]
    rw [hdef]
    simp only [State.inLine, Bool.and_eq_false_iff, decide_eq_false_iff_not] at hx
    exact Sparse.read_writeList_out (by rw [slice_length]; omega)
  · have hsv : Within [.dict] s v := hv ▸ s.put_within _ _ _
    exact (((hsv.mono (by decide)).step hvw (by decide)).step hwu (by decide))
  · exact heq ▸ s.logWrite_only false hc
  · exact ((Calm.refl s).logWrite (lostBefore := false) (r := r)).form h

/-- A source of no clock region writes its record at once. -/
theorem State.logRecordAt_one {s : State} {time cls kind uKind unit : Nat} {body : Bytes} (hform : s.canonical = true)
    (hserved : s.logServed = true) (hfrozen : s.frozen = false) (hlost : s.obs.lost = []) (hfull : s.logFull 1 = false)
    (hregion : stretchRegion uKind unit = none) (hbody : body.length ≤ 48) (hc : cls < 65536) :
    Placed (recBytes time (s.get 0x880B 0) kind uKind unit body) s (s.logRecordAt time cls kind uKind unit body) := by
  have heq : s.logRecordAt time cls kind uKind unit body = s.logWrite false ⟨cls, kind, uKind, unit, time, body, false⟩ := by
    have hstretch : s.takeStretch uKind unit = (false, s) := by rw [State.takeStretch, hregion]
    have hobs : ({ s with obs := { s.obs with lost := [] } } : State) = s := by rw [← hlost]
    simp [State.logRecordAt, hserved, hstretch, hfrozen, State.logPlace, hlost, hobs]
  rw [heq]
  exact State.logWrite_one (r := ⟨cls, kind, uKind, unit, time, body, false⟩) hform hbody rfl hfull hc

end Sys2Proof.Machine

/-! O46: sampling strobes and host markers (R431 to R438, R444, R445). -/

namespace Sys2Proof.Machine

set_option Elab.async false

open Sys2Proof.Bits

section
variable {s u v : State} {t time : Nat}

/-! ## What a sample changes -/

/-- Of observation only the list of losses changes. -/
def LossOnly (s u : State) : Prop := u.obs = { s.obs with lost := u.obs.lost }

theorem LossOnly.of_eq (h : u.obs = s.obs) : LossOnly s u := by rw [LossOnly, h]

theorem LossOnly.trans (h : LossOnly s u) (k : LossOnly u v) : LossOnly s v := by
  rw [LossOnly, k, h]

theorem LossOnly.frozen (h : LossOnly s u) : u.frozen = s.frozen := by
  rw [State.frozen, h, State.frozen]

theorem State.logPlace_loss (s : State) (r : LogRec) : LossOnly s (s.logPlace r) := by
  have hgaps := Within.foldl (fun s (l : Lost) => s.writeGap_within l.kind 0 l.uKind l.unit l.count l.first l.last)
    (s.obs.lost.filter fun l => decide (l.uKind = r.uKind) && decide (l.unit = r.unit)) s
  unfold State.logPlace
  extract_lets mine gaps v
  have hv : v.obs = s.obs := hgaps .obs (by decide)
  have hlost : LossOnly v { v with obs := { v.obs with lost := v.obs.lost.filter fun l => !mine l } } := rfl
  exact ((LossOnly.of_eq hv).trans hlost).trans (.of_eq (State.logWrite_within _ _ _ .obs (by decide)))

/-- Outside a freeze a record is placed at once. -/
theorem State.logRecordAt_loss (hfrozen : s.frozen = false) (t c k i n : Nat) (b : Bytes) : LossOnly s (s.logRecordAt t c k i n b) := by
  unfold State.logRecordAt
  split
  · exact .of_eq rfl
  · have hobs : (s.takeStretch i n).2.obs = s.obs := s.takeStretch_within i n .obs (by decide)
    generalize s.takeStretch i n = y at hobs
    obtain ⟨st, x⟩ := y
    dsimp only at hobs ⊢
    have hx : x.frozen = false := by
      rw [State.frozen, hobs]
      exact hfrozen
    rw [if_neg (by simp [hx])]
    exact (LossOnly.of_eq hobs).trans (x.logPlace_loss _)

theorem State.sampled_within (s : State) (x : Sampled) : Within [.free] s (s.sampled x).2 := by
  cases x with
  | obj i j =>
    by_cases h : isMeasured i = true ∧ 1 ≤ j + (if i ≤ 0x9803 then 1 else 0)
    · rw [State.sampled, State.readValue, if_pos h]
      exact s.measure_within i j
    · rw [State.sampled, State.readValue, if_neg h]
      exact .refl _ s
  | unseen => exact s.fresh_within
  | parsed p => exact .refl _ s
  | zero => exact .refl _ s

theorem State.sampleValues_within (s : State) (vs : List Sampled) : Within [.free] s (s.sampleValues vs).2 := by
  induction vs generalizing s with
  | nil => exact .refl _ s
  | cons v vs ih => exact (s.sampled_within v).trans (ih _)

/-- What a sample may change. -/
abbrev sampleParts : List Part := [.obs, .dict, .pwr, .mem, .memc, .free]

/-- A change as the parts of a sample make them outside a freeze. -/
structure SampleStep (s u : State) : Prop where
  frame : Within sampleParts s u
  noted : Noted s u
  loss  : LossOnly s u

theorem SampleStep.refl (s : State) : SampleStep s s := ⟨.refl _ s, .refl s, .of_eq rfl⟩

theorem SampleStep.trans (h : SampleStep s u) (k : SampleStep u v) : SampleStep s v :=
  ⟨h.frame.trans k.frame, h.noted.trans k.noted, h.loss.trans k.loss⟩

theorem State.logRecordAt_sampleStep (hfrozen : s.frozen = false) {c : Nat} (t k i n : Nat) (b : Bytes) (hc : c < 65536) :
    SampleStep s (s.logRecordAt t c k i n b) :=
  ⟨(s.logRecordAt_within t c k i n b).mono (by decide), s.logRecordAt_noted t k i n b hc, State.logRecordAt_loss hfrozen t c k i n b⟩

theorem State.writeSample_sampleStep (hfrozen : s.frozen = false) (time : Nat) (l : SampleLine) :
    SampleStep s (State.writeSample time s l) := by
  have hvalues := s.sampleValues_within l.vals
  unfold State.writeSample
  generalize s.sampleValues l.vals = y at hvalues
  obtain ⟨b, x⟩ := y
  have hobs : x.obs = s.obs := hvalues .obs (by decide)
  have hx : SampleStep s x := ⟨hvalues.mono (by decide), hvalues.noted, .of_eq hobs⟩
  exact hx.trans (State.logRecordAt_sampleStep (hx.loss.frozen.trans hfrozen) _ _ _ _ _ (by decide))

theorem State.writeSamples_sampleStep (hfrozen : s.frozen = false) (time : Nat) (ls : List SampleLine) :
    SampleStep s (ls.foldl (State.writeSample time) s) := by
  induction ls generalizing s with
  | nil => exact .refl s
  | cons l ls ih =>
    have hl := State.writeSample_sampleStep hfrozen time l
    exact hl.trans (ih (hl.loss.frozen.trans hfrozen))

/-- The record of strobes skipped leaves none to report. -/
theorem State.coverSkipped_step (hfrozen : s.frozen = false) :
    SampleStep { s with obs := { s.obs with skipped := none } } s.coverSkipped := by
  unfold State.coverSkipped
  split
  · rename_i f l n _
    generalize hx : ({ s with obs := { s.obs with skipped := none } } : State) = x
    have hxfrozen : (x.bump 0x880D 0).frozen = false := by
      rw [← hx]
      exact hfrozen
    have hbump : SampleStep x (x.bump 0x880D 0) := ⟨(x.bump_within _ _).mono (by decide), .bump x rfl, .of_eq rfl⟩
    have hrecord : SampleStep (x.bump 0x880D 0) (x.gapRecord 1 4 0 0 n f l) := by
      unfold State.gapRecord State.logRecord
      exact State.logRecordAt_sampleStep hxfrozen _ _ _ _ _ (by decide)
    exact hbump.trans hrecord
  · rename_i h
    rw [← h]
    exact .refl s

/-- A sample: its records, then its count. -/
theorem State.takeSample_spec (hfrozen : s.frozen = false) (hform : s.canonical = true) (time : Nat) :
    (s.takeSample time).obj 0x8803 0 = (s.obj 0x8803 0 + 1) % 2 ^ 64 ∧ LossOnly { s with obs := { s.obs with skipped := none } } (s.takeSample time) ∧
      Within sampleParts s (s.takeSample time) ∧ Notes (fun i j => i == 0x8803 && j == 0) s (s.takeSample time) := by
  have hclear : Noted s { s with obs := { s.obs with skipped := none } } := (s.set_obs_within _).noted
  have hskip := State.coverSkipped_step hfrozen
  have hcalm : Calm s s.coverSkipped := (Calm.refl s).coverSkipped
  unfold State.takeSample
  extract_lets x lines y last
  have hyform : y.canonical = true := (hcalm.foldl fun _ _ h => h.writeSample).form hform
  have hxfrozen : x.frozen = false := hskip.loss.frozen.trans hfrozen
  have hy : SampleStep x y := State.writeSamples_sampleStep hxfrozen time lines
  clear_value y last
  obtain ⟨z, hzeq⟩ : ∃ z, z = y.logRecordAt time 5 0x02 0 0 last := ⟨_, rfl⟩
  rw [← hzeq]
  have hz : SampleStep y z := hzeq ▸ State.logRecordAt_sampleStep (hy.loss.frozen.trans hxfrozen) _ _ _ _ _ (by decide)
  have hsz := (hskip.trans hy).trans hz
  have hzform : z.canonical = true := hzeq ▸ ((Calm.refl y).logRecordAt).form hyform
  have hnoted : Noted s z := hclear.trans hsz.noted
  have hframe : Within sampleParts s z := ((s.set_obs_within _).mono (by decide)).trans hsz.frame
  refine ⟨?_, hsz.loss, hframe.step (z.bump_within _ _) (by decide), hnoted.then z.bump_objsBut (z.bump_within _ _)⟩
  rw [State.obj_bump (State.dict_wf hzform), hnoted.objs 0x8803 0 (by decide) (by decide)]

/-! ## Sampling strobes -/

/-- The last multiple of the sampling interval. -/
def State.strobeTime (s : State) : Nat := s.now / (s.get 0x8800 0 * 1000) * (s.get 0x8800 0 * 1000)

/-- A strobe that is due is noted. -/
def State.strobed (s : State) : State := { s with obs := { s.obs with lastStrobe := s.strobeTime } }

theorem execSamplingStrobe_eq (t : Nat) (s : State) : Sys2Proof.Machine.exec (.samplingStrobe t) s =
    .next (if (s.at t).strobes = true ∧ (s.at t).obs.lastStrobe < (s.at t).strobeTime then
      if (s.at t).frozen then (s.at t).strobed.skipStrobe (s.at t).strobeTime else (s.at t).strobed.takeSample (s.at t).strobeTime
    else s.at t) := by
  change execSamplingStrobe t s = _
  unfold execSamplingStrobe
  generalize s.at t = v
  by_cases hdue : v.strobes = true ∧ v.obs.lastStrobe < v.strobeTime
  · rw [if_pos hdue]
    exact (if_pos hdue).trans (apply_ite Host.Outcome.next _ _ _).symm
  · rw [if_neg hdue]
    exact if_neg hdue

theorem State.strobed_within (s : State) : Within [.obs] s s.strobed := s.set_obs_within _

theorem State.strobed_form (hform : s.canonical = true) : s.strobed.canonical = true :=
  (Calm.plain (Calm.refl s)).form hform

theorem execSamplingStrobe_due (hstrobes : s.strobes = true) (hdue : s.obs.lastStrobe < (s.at t).strobeTime) :
    Sys2Proof.Machine.exec (.samplingStrobe t) s =
      .next (if s.frozen then (s.at t).strobed.skipStrobe (s.at t).strobeTime else (s.at t).strobed.takeSample (s.at t).strobeTime) := by
  have hfrozen : (s.at t).frozen = s.frozen := congrArg (fun o : Obs => match o.freeze with | some f => f.frozen.isSome | none => false)
    (s.at_within t .obs (by decide))
  have hobs : (s.at t).obs = s.obs := s.at_within t .obs (by decide)
  have hv : (s.at t).strobes = true := by
    obtain ⟨c, hc⟩ := s.at_eq t
    rw [hc]
    exact hstrobes
  rw [execSamplingStrobe_eq, if_pos ⟨hv, hobs ▸ hdue⟩, hfrozen]

theorem State.logServed_of_strobes (h : s.strobes = true) : s.logServed = true := by
  unfold State.strobes State.logServed at *
  split at h <;> simp_all

/-- The state in which a strobe that is due is taken or skipped. -/
theorem State.strobed_eq (s : State) (t : Nat) : ∃ c, (s.at t).strobed =
    { s with clock := c, obs := { s.obs with lastStrobe := (s.at t).now / (s.get 0x8800 0 * 1000) * (s.get 0x8800 0 * 1000) } } ∧
      c.house = (s.at t).now := by
  obtain ⟨c, hc⟩ := s.at_eq t
  rw [hc]
  exact ⟨c, rfl, rfl⟩

theorem State.strobeTime_at (s : State) (t : Nat) :
    (s.at t).strobeTime = (s.at t).now / (s.get 0x8800 0 * 1000) * (s.get 0x8800 0 * 1000) := by
  obtain ⟨c, hc⟩ := s.at_eq t
  rw [hc]
  rfl

theorem samplingStrobe_taken (hstrobes : s.strobes = true) (hdue : s.obs.lastStrobe < (s.at t).strobeTime) (hfrozen : s.frozen = false)
    (hform : s.canonical = true) :
    ∃ u, Sys2Proof.Machine.exec (.samplingStrobe t) s = .next u ∧ (
      u.obj 0x8803 0 = (s.obj 0x8803 0 + 1) % 2 ^ 64 ∧ u.obs.lastStrobe = u.now / (s.get 0x8800 0 * 1000) * (s.get 0x8800 0 * 1000) ∧
      u.obs.skipped = none ∧ u.obs.freeze = s.obs.freeze ∧ u.obs.fifo = s.obs.fifo ∧
      Within [.obs, .dict, .clock, .pwr, .mem, .memc, .free] s u ∧ Notes (fun i j => i == 0x8803 && j == 0) s u) := by
  refine ⟨_, execSamplingStrobe_due hstrobes hdue, ?_⟩
  rw [hfrozen, if_neg Bool.false_ne_true]
  have hxform : (s.at t).strobed.canonical = true := State.strobed_form ((Calm.refl s).at.form hform)
  have hframe : Within [.obs, .clock] s (s.at t).strobed := ((s.at_within t).mono (by decide)).step (State.strobed_within _) (by decide)
  obtain ⟨c, hx, hnow⟩ := s.strobed_eq t
  rw [s.strobeTime_at t]
  generalize (s.at t).strobed = x at *
  have hxfrozen : x.frozen = false := by
    rw [hx]
    exact hfrozen
  obtain ⟨hcount, hloss, hwithin, hnotes⟩ :=
    State.takeSample_spec hxfrozen hxform ((s.at t).now / (s.get 0x8800 0 * 1000) * (s.get 0x8800 0 * 1000))
  generalize x.takeSample _ = u at *
  have hunow : u.now = (s.at t).now := (congrArg Clock.house (hwithin .clock (by decide))).trans (by rw [hx]; exact hnow)
  rw [LossOnly, hx] at hloss
  refine ⟨?_, ?_, ?_, ?_, ?_, (hframe.mono (by decide)).step hwithin (by decide), (hframe.noted.notes _).trans hframe.noted.kept hnotes⟩
  · rw [hcount, hx]
    rfl
  · rw [hloss, hunow]
  · rw [hloss]
  · rw [hloss]
  · rw [hloss]

/-- With every group off a sample is one record, which says that no line came before it (R435, R438). -/
theorem State.takeSample_empty (hmask : s.get 0x8801 0 = 0) (hskipped : s.obs.skipped = none) (time : Nat) :
    s.takeSample time = (s.logRecordAt time 5 0x02 0 0 (List.replicate 8 0 ++ natLe 8 s.now)).bump 0x8803 0 := by
  have hlines : s.sampleLines = [] := by simp [State.sampleLines, hmask, bit]
  have hcover : s.coverSkipped = s := by rw [State.coverSkipped, hskipped]
  unfold State.takeSample
  rw [hcover]
  dsimp only
  rw [hlines]
  simp only [List.foldl_nil, hmask]
  rfl

theorem samplingStrobe_empty (hstrobes : s.strobes = true) (hdue : s.obs.lastStrobe < (s.at t).strobeTime) (hfrozen : s.frozen = false)
    (hform : s.canonical = true) (hmask : s.get 0x8801 0 = 0) (hlost : s.obs.lost = []) (hskipped : s.obs.skipped = none)
    (hfull : s.logFull 1 = false) (hserved : s.logServed = true) :
    ∃ u, Sys2Proof.Machine.exec (.samplingStrobe t) s = .next u ∧ (
      u.obj 0x8803 0 = (s.obj 0x8803 0 + 1) % 2 ^ 64 ∧ u.obj 0x880B 0 = (s.obj 0x880B 0 + 1) % 2 ^ 32 ∧
      u.memRead (s.regionBase 3 + s.get 0x8809 0) 32 =
        natLe 8 (u.now / (s.get 0x8800 0 * 1000) * (s.get 0x8800 0 * 1000)) ++ natLe 4 (s.get 0x880B 0) ++ [2, 0, 0, 0] ++
          List.replicate 8 0 ++ natLe 8 u.now ∧
      BytesBut s.inLine s u ∧ u.obs = { s.obs with lastStrobe := u.now / (s.get 0x8800 0 * 1000) * (s.get 0x8800 0 * 1000) } ∧
      Within [.obs, .dict, .clock, .mem, .memc] s u ∧ Notes (fun i j => i == 0x8803 && j == 0) s u) := by
  refine ⟨_, execSamplingStrobe_due hstrobes hdue, ?_⟩
  rw [hfrozen, if_neg Bool.false_ne_true]
  have hxform : (s.at t).strobed.canonical = true := State.strobed_form ((Calm.refl s).at.form hform)
  have hframe : Within [.obs, .clock] s (s.at t).strobed := ((s.at_within t).mono (by decide)).step (State.strobed_within _) (by decide)
  obtain ⟨c, hx, hnow⟩ := s.strobed_eq t
  rw [s.strobeTime_at t]
  generalize (s.at t).strobed = x at *
  have hxlost : x.obs.lost = [] := by rw [hx, ← hlost]
  have hxserved : x.logServed = true := by
    rw [hx]
    exact hserved
  have hxfrozen : x.frozen = false := by
    rw [hx]
    exact hfrozen
  have hxfull : x.logFull 1 = false := by
    rw [hx]
    exact hfull
  rw [State.takeSample_empty (by rw [hx]; exact hmask) (by rw [hx, ← hskipped])]
  have hplaced := State.logRecordAt_one (time := (s.at t).now / (s.get 0x8800 0 * 1000) * (s.get 0x8800 0 * 1000)) (cls := 5) (kind := 0x02)
    (uKind := 0) (unit := 0) (body := List.replicate 8 0 ++ natLe 8 x.now) hxform hxserved hxfrozen hxlost hxfull rfl (by simp) (by decide)
  obtain ⟨w, hw⟩ : ∃ w, w = x.logRecordAt ((s.at t).now / (s.get 0x8800 0 * 1000) * (s.get 0x8800 0 * 1000)) 5 0x02 0 0
    (List.replicate 8 0 ++ natLe 8 x.now) := ⟨_, rfl⟩
  rw [← hw] at hplaced ⊢
  obtain ⟨hline, hnumber, hbytes, hwithin, honly, hwform⟩ := hplaced
  have hnow' : (w.bump 0x8803 0).now = (s.at t).now := (congrArg Clock.house (hwithin .clock (by decide))).trans (by rw [hx]; exact hnow)
  have hxnow : x.now = (s.at t).now := by rw [hx]; exact hnow
  have hat : x.logAt = s.regionBase 3 + s.get 0x8809 0 := by rw [hx]; rfl
  have hnoted : Noted x w := hw ▸ x.logRecordAt_noted _ _ _ _ _ (by decide)
  rw [hnow']
  refine ⟨?_, ?_, ?_, ?_, ?_, ?_, ?_⟩
  · rw [State.obj_bump (State.dict_wf (hwform hxform)), honly 0x8803 0 (by decide) (by decide), hx]
    rfl
  · refine (State.obj_put_ne (by decide) (by decide) (by decide)).trans (hnumber.trans ?_)
    rw [hx]
    rfl
  · refine ((State.memRead_of_eq rfl rfl _ _).trans (hat ▸ hline 0 32 (by simp [recBytes]))).trans ?_
    rw [List.drop_zero, List.take_of_length_le (by simp [recBytes]), hxnow, hx]
    rfl
  · intro y hy
    refine (hbytes y ?_).trans ?_
    · rw [State.inLine, hat]
      exact hy
    · rw [hx]
      rfl
  · refine Eq.trans (hwithin .obs (by decide)) ?_
    rw [hx]
  · exact ((hframe.mono (by decide)).step hwithin (by decide)).step (w.bump_within _ _) (by decide)
  · have hsw := hframe.noted.trans hnoted
    exact hsw.then w.bump_objsBut (w.bump_within _ _)

theorem samplingStrobe_skipped (hstrobes : s.strobes = true) (hdue : s.obs.lastStrobe < (s.at t).strobeTime) (hfrozen : s.frozen = true)
    (hform : s.canonical = true) :
    ∃ u, Sys2Proof.Machine.exec (.samplingStrobe t) s = .next u ∧ (
      u.obj 0x8804 0 = (s.obj 0x8804 0 + 1) % 2 ^ 64 ∧
      u.obs = { s.obs with
        lastStrobe := u.now / (s.get 0x8800 0 * 1000) * (s.get 0x8800 0 * 1000)
        skipped := some (match s.obs.skipped with
          | some x => (x.1, u.now / (s.get 0x8800 0 * 1000) * (s.get 0x8800 0 * 1000), x.2.2 + 1)
          | none => (u.now / (s.get 0x8800 0 * 1000) * (s.get 0x8800 0 * 1000), u.now / (s.get 0x8800 0 * 1000) * (s.get 0x8800 0 * 1000), 1)) } ∧
      Within [.obs, .dict, .clock] s u ∧ ObjsBut (fun i j => i == 0x8804 && j == 0) s u) := by
  refine ⟨_, execSamplingStrobe_due hstrobes hdue, ?_⟩
  rw [hfrozen, if_pos rfl]
  have hframe : Within [.obs, .clock] s (s.at t).strobed := ((s.at_within t).mono (by decide)).step (State.strobed_within _) (by decide)
  obtain ⟨c, hx, hnow⟩ := s.strobed_eq t
  rw [s.strobeTime_at t]
  generalize (s.at t).strobed = x at *
  obtain ⟨o, ho⟩ : ∃ o, o = { x.obs with skipped := some (match x.obs.skipped with
    | some (f, _, n) => (f, (s.at t).now / (s.get 0x8800 0 * 1000) * (s.get 0x8800 0 * 1000), n + 1)
    | none => ((s.at t).now / (s.get 0x8800 0 * 1000) * (s.get 0x8800 0 * 1000),
        (s.at t).now / (s.get 0x8800 0 * 1000) * (s.get 0x8800 0 * 1000), 1)) } := ⟨_, rfl⟩
  have heq : x.skipStrobe ((s.at t).now / (s.get 0x8800 0 * 1000) * (s.get 0x8800 0 * 1000)) = ({ x with obs := o } : State).bump 0x8804 0 :=
    ho ▸ rfl
  have hnow' : (({ x with obs := o } : State).bump 0x8804 0).now = (s.at t).now := by
    rw [hx]
    exact hnow
  have hdict : x.dict = s.dict := hframe .dict (by decide)
  rw [heq, hnow']
  refine ⟨?_, ?_, ?_, ?_⟩
  · refine (State.obj_bump (hdict ▸ State.dict_wf hform)).trans ?_
    rw [State.obj, hdict, State.obj]
  · refine ho.trans ?_
    rw [hx]
    dsimp only
    cases s.obs.skipped <;> rfl
  · exact ((hframe.mono (by decide)).step (State.set_obs_within _ _) (by decide)).step (State.bump_within _ _ _) (by decide)
  · exact (ObjsBut.of_dict hdict).trans (State.bump_objsBut { x with obs := o })

theorem samplingStrobe_idle (h : s.strobes = false ∨ (s.at t).strobeTime ≤ s.obs.lastStrobe) :
    ∃ u, Sys2Proof.Machine.exec (.samplingStrobe t) s = .next u ∧ Within [.clock] s u := by
  refine ⟨_, execSamplingStrobe_eq t s, ?_⟩
  have hobs : (s.at t).obs = s.obs := s.at_within t .obs (by decide)
  have hstrobes : (s.at t).strobes = s.strobes := by
    obtain ⟨c, hc⟩ := s.at_eq t
    rw [hc]
    rfl
  rw [if_neg]
  · exact s.at_within t
  · rintro ⟨hon, hdue⟩
    rcases h with h | h
    · exact Bool.false_ne_true (h.symm.trans (hstrobes ▸ hon))
    · exact Nat.not_lt_of_le h (hobs ▸ hdue)

/-! ## Host markers -/

/-- The logbook takes a record of one line at once. -/
structure State.TakesLine (s : State) : Prop where
  served : s.logServed = true
  free   : s.obs.lost = [] ∧ s.logFull 1 = false ∧ s.frozen = false

theorem markBody_length (id array source seq acc : Nat) (detail : Bytes) : (markBody id array source seq acc detail).length = 48 := by
  simp [markBody, slice_length]

/-- The record of a host marker. -/
def State.hostRecord (s : State) (v : Nat) : State :=
  s.fresh.2.logRecord 4 (if bit v 16 then 0x11 else 0x10) 0 0 (markBody (v % 65536) 0xFF 2 0 (s.fresh.1 % 65536) [])

theorem State.hostMarker_eq (s : State) (v : Nat) : s.hostMarker v =
    if bit v 16 = false ∧ v % 65536 = (s.hostRecord v).get 0x8810 3 then (s.hostRecord v).tracePulse else s.hostRecord v := rfl

theorem State.hostRecord_only (s : State) (v : Nat) : LogOnly s (s.hostRecord v) :=
  (ObjsBut.of_dict rfl : LogOnly s s.fresh.2).trans (State.logRecord_only _ _ _ _ _)

theorem State.hostRecord_spec (h : s.TakesLine) (hform : s.canonical = true) (v : Nat) :
    Placed (recBytes s.now (s.get 0x880B 0) (if bit v 16 then 0x11 else 0x10) 0 0 (markBody (v % 65536) 0xFF 2 0 (s.fresh.1 % 65536) []))
      s.fresh.2 (s.hostRecord v) := by
  obtain ⟨hserved, hlost, hfull, hfrozen⟩ := h
  exact State.logRecordAt_one ((Calm.refl s).fresh.form hform) hserved hfrozen hlost hfull rfl (Nat.le_of_eq (markBody_length ..)) (by decide)

theorem noteObj_of_logObj {i : Nat} (h : noteObj i = false) : logObj i = false := by
  simp only [noteObj, List.contains_eq_mem, List.mem_cons, List.not_mem_nil, or_false, decide_eq_false_iff_not, not_or] at h
  simp only [logObj, List.contains_eq_mem, List.mem_cons, List.not_mem_nil, or_false, decide_eq_false_iff_not, not_or]
  grind

theorem bit_hostMark (id : Nat) : bit (id % 65536) 16 = false := Nat.testBit_lt_two_pow (Nat.mod_lt _ (by decide))

theorem bit_hostUnmark (id : Nat) : bit (65536 + id % 65536) 16 = true := by
  rw [bit, show 65536 = 2 ^ 16 from rfl, Nat.testBit_two_pow_add_eq, Nat.testBit_lt_two_pow (Nat.mod_lt _ (by decide))]
  rfl

variable {r : Req}

/-- A marker whose write passes its checks, at a logbook that takes it, and that pulses nothing. -/
theorem State.hostMarker_marks {v id : Nat} (h : s.Admits svcWrite r 0x8811 0 (natLe 4 v) u) {row : ObjRow}
    (hrow : u.checkWrite (u.inSession r 0x8811) 0x8811 0 (natLe 4 v) = .ok row) (htakes : u.TakesLine) (hform : s.canonical = true)
    (hid : v % 65536 = id) (hquiet : bit v 16 = true ∨ id ≠ s.get 0x8810 3) {w : State}
    (hw : w = (s.at r.t).serveWrite r 0x8811 0 (natLe 4 v) fun s => .ok (s.hostMarker v)) :
    w.Answered svcWrite r 0x8811 0 0 [] ∧ w.obj 0x880B 0 = (s.obj 0x880B 0 + 1) % 2 ^ 32 ∧
      w.memRead (s.regionBase 3 + s.get 0x8809 0) 16 =
        natLe 8 w.now ++ natLe 4 (s.get 0x880B 0) ++ [if bit v 16 then 0x11 else 0x10, 0, 0, 0] ∧
      w.memRead (s.regionBase 3 + s.get 0x8809 0 + 16) 8 = natLe 2 id ++ [0xFF, 2, 0, 0, 0, 0] ∧ BytesBut s.inLine s w ∧
      Served [.free, .mem, .memc] (fun i _ => noteObj i) s u w := by
  have huform : u.canonical = true := ((Calm.refl s).within h.within).form hform
  have hplaced := State.hostRecord_spec htakes huform v
  obtain ⟨x, hx⟩ : ∃ x, x = u.hostRecord v := ⟨_, rfl⟩
  have honly : LogOnly u x := hx ▸ u.hostRecord_only v
  have heff : u.hostMarker v = x := by
    rw [State.hostMarker_eq, ← hx, if_neg]
    rintro ⟨hmark, htraced⟩
    have hget : x.get 0x8810 3 = s.get 0x8810 3 := (honly.get_eq (by decide) (by decide) (by decide)).trans (State.get_of_dict_eq h.dict_eq)
    rcases hquiet with hun | hne
    · exact Bool.false_ne_true (hmark.symm.trans hun)
    · exact hne (hid.symm.trans (htraced.trans hget))
  rw [← hx] at hplaced
  obtain ⟨hline, hnumber, hbytes, hwithin, -, -⟩ := hplaced
  have hux : Within [.free, .dict, .mem, .memc] u x := (u.fresh_within.mono (by decide)).step hwithin (by decide)
  obtain ⟨hanswer, hserved, hxw⟩ := h.write_done (ps := [.free, .mem, .memc]) (k := fun i _ => noteObj i) (eff := fun s => .ok (s.hostMarker v)) hrow (congrArg Except.ok heff)
    (hux.mono (by decide)) (honly.mono fun _ _ h => noteObj_of_logObj h) (hux .odp (by decide)) (hux .out (by decide))
  rw [← hw] at hanswer hserved hxw
  have hat : u.fresh.2.logAt = s.regionBase 3 + s.get 0x8809 0 := State.logAt_of_dict (s := s) (u := u.fresh.2) h.dict_eq
  have hread : ∀ a n, w.memRead a n = x.memRead a n := State.memRead_of_eq (hxw .mem (by decide)) (hxw .memc (by decide))
  have hnow : w.now = u.now := congrArg Clock.house (Eq.trans (hxw .clock (by decide)) (hux .clock (by decide)))
  have hwa : w = x.answer (mkAnswer svcWrite r 0x8811 0 0 []) := hw.trans (State.serveWrite_of_done h hrow (congrArg Except.ok heff))
  have hseq : u.get 0x880B 0 = s.get 0x880B 0 := State.get_of_dict_eq h.dict_eq
  rw [hseq, hid] at hline
  refine ⟨hanswer, ?_, ?_, ?_, ?_, hserved⟩
  · rw [hwa, x.answer_objsBut _ _ _ (by decide) (by decide), hnumber, State.obj, State.obj]
    rw [show u.fresh.2.dict = s.dict from h.dict_eq]
  · refine (hread _ _).trans ((hat ▸ hline 0 16 (by rw [recBytes_length]; omega)).trans ?_)
    rw [hnow, List.drop_zero, recBytes_take]
    split <;> rfl
  · refine (hread _ _).trans ((hat ▸ hline 16 8 (by rw [recBytes_length, markBody_length]; decide)).trans ?_)
    rw [recBytes_drop]
    rfl
  · intro y hy
    refine (State.byteAt_of_eq (hxw .mem (by decide)) (hxw .memc (by decide)) y).trans ((hbytes y ?_).trans ?_)
    · rw [State.inLine, hat]
      exact hy
    · exact State.byteAt_of_eq (s := s) (u := u.fresh.2) (h.within .mem (by decide)) (h.within .memc (by decide)) y

/-- A mark of the traced id drives the pulse (R445). -/
theorem State.hostMark_pulses {id : Nat} (h : s.Admits svcWrite r 0x8811 0 (natLe 4 (id % 65536)) u) {row : ObjRow}
    (hrow : u.checkWrite (u.inSession r 0x8811) 0x8811 0 (natLe 4 (id % 65536)) = .ok row) (htraced : id % 65536 = s.get 0x8810 3)
    (hon : s.flag 0x8810 2 = true) {w : State} (hw : w = (s.at r.t).serveWrite r 0x8811 0 (natLe 4 (id % 65536)) fun s => .ok (s.hostMarker (id % 65536))) :
    w.Answered svcWrite r 0x8811 0 0 [] ∧ w.pwr.evtOut = true ∧ w.pwr.evtEnd = some (w.now + 1000) ∧
      (s.pwr.evtOut = false → .evtOut w.now ∈ w.out) ∧ Within [.odp, .out, .dict, .clock, .free, .pwr, .mem, .memc, .obs] s w := by
  obtain ⟨x, hx⟩ : ∃ x, x = u.hostRecord (id % 65536) := ⟨_, rfl⟩
  have honly : LogOnly u x := hx ▸ u.hostRecord_only _
  have hux : Within [.free, .dict, .pwr, .mem, .memc, .obs] u x :=
    hx ▸ ((u.fresh_within.mono (by decide)).step (State.logRecord_within _ _ _ _ _ _) (by decide))
  have hget : ∀ j, j < 65536 → x.get 0x8810 j = s.get 0x8810 j := fun j hj =>
    (honly.get_eq rfl rfl hj).trans (State.get_of_dict_eq h.dict_eq rfl)
  have heff : u.hostMarker (id % 65536) = x.tracePulse := by
    rw [State.hostMarker_eq, ← hx, if_pos ⟨bit_hostMark id, by rw [Nat.mod_mod, htraced, hget 3 (by decide)]⟩]
  have hflag : x.flag 0x8810 2 = true := by
    rw [State.flag, hget 2 (by decide)]
    exact hon
  have hpwr : x.pwr = s.pwr :=
    hx ▸ Eq.trans (u.fresh.2.logRecord_pwr 4 (if bit (id % 65536) 16 then 0x11 else 0x10) _) (h.within .pwr (by decide))
  have hwa : w = x.tracePulse.answer (mkAnswer svcWrite r 0x8811 0 0 []) := hw.trans (State.serveWrite_of_done h hrow (congrArg Except.ok heff))
  have hframe : Within [.odp, .out, .dict, .clock, .free, .pwr, .mem, .memc, .obs] s w := by
    rw [hwa]
    exact (((h.within.mono (by decide)).step hux (by decide)).step x.tracePulse_within (by decide)).step (State.answer_within _ _) (by decide)
  have hpulse : x.tracePulse.pwr = { x.pwr with evtOut := true, evtEnd := some (x.now + 1000) } := by
    rw [State.tracePulse, if_pos hflag]
    split <;> rfl
  have hwpr : w.pwr = x.tracePulse.pwr := hwa ▸ State.answer_within _ _ .pwr (by decide)
  have hwnow : w.now = x.now := congrArg Clock.house
    (hwa ▸ Eq.trans (State.answer_within _ _ .clock (by decide)) (x.tracePulse_within .clock (by decide)))
  refine ⟨hwa ▸ State.answered_answer .., ?_, ?_, ?_, hframe⟩
  · rw [hwpr, hpulse]
  · rw [hwpr, hpulse, hwnow]
  · intro hlow
    rw [hwnow, hwa, State.answer_out, State.tracePulse, if_pos hflag, if_neg (by rw [hpwr, hlow]; decide)]
    exact List.mem_cons_of_mem _ List.mem_cons_self

end

/-- Settles O46, clause by clause. -/
theorem markerAndSampleCommands : Obligations.MarkerAndSampleCommands := by
  unfold Obligations.MarkerAndSampleCommands
  refine ⟨fun s t hst hdue hfrozen hform => ?_, fun s t hst hdue hfrozen hform hmask hlost hskipped hfull => ?_,
    fun s t hst hdue hfrozen hform => ?_, fun s t h => ?_, fun s r id u h hlog hserved hform hne => ?_,
    fun s r id u h htraced hon hform => ?_, fun s r id u h hlog hserved hform => ?_⟩
  · exact samplingStrobe_taken hst (s.strobeTime_at t ▸ hdue) hfrozen hform
  · exact samplingStrobe_empty hst (s.strobeTime_at t ▸ hdue) hfrozen hform hmask hlost hskipped hfull (State.logServed_of_strobes hst)
  · exact samplingStrobe_skipped hst (s.strobeTime_at t ▸ hdue) hfrozen hform
  · exact samplingStrobe_idle (h.imp id fun hle => s.strobeTime_at t ▸ hle)
  · obtain ⟨hadm, hok⟩ := h
    obtain ⟨row, hrow⟩ := exists_ok_of_isSome hok
    have hmarks := State.hostMarker_marks hadm hrow ⟨hserved, hlog⟩ hform (Nat.mod_mod ..) (.inr hne) rfl
    rw [bit_hostMark] at hmarks
    exact ⟨_, rfl, hmarks⟩
  · obtain ⟨hadm, hok⟩ := h
    obtain ⟨row, hrow⟩ := exists_ok_of_isSome hok
    exact ⟨_, rfl, State.hostMark_pulses hadm hrow htraced hon rfl⟩
  · obtain ⟨hadm, hok⟩ := h
    obtain ⟨row, hrow⟩ := exists_ok_of_isSome hok
    have hmarks := State.hostMarker_marks (v := 65536 + id % 65536) (id := id % 65536) hadm hrow ⟨hserved, hlog⟩ hform (by omega)
      (.inl (bit_hostUnmark id)) rfl
    rw [bit_hostUnmark] at hmarks
    exact ⟨_, rfl, hmarks⟩

end Sys2Proof.Machine

/-! O47: the list that hung waits at a cue light, and its SYNC record takes the stretch flag of its array. -/

namespace Sys2Proof.Machine

set_option Elab.async false

open Sys2Proof.Bits

/-- The list that the counterexample of O47 abandons: it waits for a count of 1 on light 0. -/
def hungRun : Run where
  ring := 0
  start := 0
  launched := true
  acc := 1
  lw0 := 0
  lw1 := 0
  evt := 0
  pos := .ring 0
  restart := default
  block := .wait 0 1 false
  last := .ring 0

/-- A frozen machine in RUN whose dump is being written for the hang of `hungRun` on array 0, the sync trace on for light 0, and the
array's island under droop. -/
def hungState : State :=
  { State.reset with
    dict := [(objKey 0x8820 0, 1), (objKey 0x8821 0, 1)]
    dev := { State.reset.dev with st := .run, trans := .none }
    pwr := { State.reset.pwr with droop := 1 }
    arr := State.reset.arr.set 0 { State.reset.arr[0] with run := some hungRun }
    sync := { State.reset.sync with waiters := [⟨0, 0, 1, false, 0⟩] }
    obs := { State.reset.obs with freeze := some ⟨0, 0, 0, some 0, some 0⟩ } }

/-- Once its tap is out of the question, abandoning a list does to power what leaving its queue does. -/
theorem State.abandonRun_pwr {s : State} {a o : Nat} {r : Run} (htap : r.tap = none) :
    (s.abandonRun a o r).pwr = (s.leaveQueue a o r).pwr := by
  unfold State.abandonRun
  extract_lets v x y z
  have hx : Within [.dict, .arr] v x := Within.foldl (fun s x => (s.modArr_within _ _).mono (by decide)) _ _
  have hy : Within [.dict, .arr] v y := ((hx.step (State.consume_within _ _ _) (by decide)).step (State.bump_within _ _ _) (by decide)).step
    (State.put_within _ _ _ _) (by decide)
  have hz : Within [.dict, .arr] v z := hy.step (State.modArr_within _ _ _) (by decide)
  rw [htap]
  exact hz.trans (Within.ite ((State.put_within _ _ _ _).mono (by decide)) (Within.refl _ _)) .pwr (by decide)

/-- A record of an array takes its stretch flag. -/
theorem State.logRecord_stretched {s : State} (hserved : s.logServed = true) (cls kind a : Nat) (b : Bytes) :
    (s.logRecord cls kind 1 a b).pwr.stretched = setFld s.pwr.stretched a a (if s.isStretched a then 1 else 0) := by
  have hplace : Within [.dict, .mem, .memc, .obs] (s.takeStretch 1 a).2 (s.logRecord cls kind 1 a b) := by
    unfold State.logRecord State.logRecordAt
    rw [if_neg (by rw [hserved]; decide)]
    refine .ite (.ite ?_ ?_) ((State.logPlace_within _ _).mono (by decide))
    · exact ((State.set_obs_within _ _).mono (by decide)).step (State.bump_within _ _ _) (by decide)
    · exact (State.set_obs_within _ _).mono (by decide)
  exact congrArg Pwr.stretched (hplace .pwr (by decide))

theorem State.drainFifos_within {s : State} (h : s.obs.fifo = []) : Within [.obs] s s.drainFifos := by
  have heq : s.drainFifos = { s with obs := { s.obs with fifo := [] } } := by simp [State.drainFifos, h, inRotation]
  exact heq ▸ s.set_obs_within _

theorem State.ringBells_pwr {s : State} (h : s.fab.bells = []) : s.ringBells.pwr = s.pwr := by
  rw [State.ringBells, h]
  rfl

/-- The state of the counterexample as its list is abandoned. -/
def hungStored : State :=
  let v := hungState.at 0
  let x := v.memFill v.dumpBase dumpSize (some v.free)
  let y : State := { x.fresh.2 with obs := { x.obs with dump := true, dumpTime := 0, freeze := none } }
  let w := y.bump 0x8843 0
  (w.logWrite false ⟨1, 0x60, 0, 0, w.now, dumpBody ⟨0, 0, 0, some 0, some 0⟩ 0 (0 + x.fresh.1 % 72), false⟩).drainFifos

theorem exec_hungState : Sys2Proof.Machine.exec (.dumpWritten 0) hungState =
    .next (match (hungStored.arrAt 0).run with
      | some r => hungStored.abandonRun 0 3 r
      | none => hungStored).ringBells := rfl

theorem hungStored_spec : Within [.obs, .dict, .clock, .mem, .memc, .free] hungState hungStored ∧
    ObjsBut (fun i j => i == 0x8843 && j == 0 || logObj i) hungState hungStored := by
  unfold hungStored
  extract_lets v x _ _ y w
  have hv : Within [.clock] hungState v := hungState.at_within 0
  have hx : Within [.mem, .memc] v x := v.memFill_within _ _ _
  have hy : Within [.free, .obs] x y := (x.fresh_within.mono (by decide)).step (State.set_obs_within _ _) (by decide)
  have hsy : Within [.obs, .clock, .mem, .memc, .free] hungState y :=
    ((hv.mono (by decide)).step hx (by decide)).step hy (by decide)
  have hw : Within [.obs, .dict, .clock, .mem, .memc, .free] hungState w := (hsy.mono (by decide)).step (y.bump_within _ _) (by decide)
  have hwobjs : ObjsBut (fun i j => i == 0x8843 && j == 0 || logObj i) hungState w :=
    (ObjsBut.of_dict (hsy .dict (by decide))).trans ((y.bump_objsBut (i := 0x8843)).mono fun i j h => (Bool.or_eq_false_iff.1 h).1)
  have hobs : w.obs.fifo = [] := congrArg Obs.fifo (Eq.trans (hx .obs (by decide)) (hv .obs (by decide)))
  generalize hr : (⟨1, 0x60, 0, 0, w.now, dumpBody ⟨0, 0, 0, some 0, some 0⟩ 0 (0 + x.fresh.1 % 72), false⟩ : LogRec) = r
  have hcls : r.cls < 65536 := hr ▸ (by decide : 1 < 65536)
  clear_value w
  have hlog := w.logWrite_within false r
  have hlogobs : (w.logWrite false r).obs = w.obs := hlog .obs (by decide)
  have hdrain := State.drainFifos_within (s := w.logWrite false r) (by rw [hlogobs, hobs])
  refine ⟨(hw.step hlog (by decide)).step hdrain (by decide), ?_⟩
  exact (hwobjs.trans ((w.logWrite_only false hcls).mono fun i j h => (Bool.or_eq_false_iff.1 h).2)).trans (.of_dict (hdrain .dict (by decide)))

theorem hungStored_stretched : (hungStored.leaveQueue 0 3 hungRun).pwr.stretched = 1 := by
  obtain ⟨hw, hobjs⟩ := hungStored_spec
  have hsync : hungStored.sync = hungState.sync := hw .sync (by decide)
  have hpwr : hungStored.pwr = hungState.pwr := hw .pwr (by decide)
  have hdev : hungStored.dev = hungState.dev := hw .dev (by decide)
  have htrace : hungStored.get 0x8820 0 = 1 := (hobjs.get_eq (by decide) (by decide) (by decide)).trans (by decide)
  have hmask : hungStored.get 0x8821 0 = 1 := (hobjs.get_eq (by decide) (by decide) (by decide)).trans (by decide)
  generalize hungStored = s at *
  have hserved : s.logServed = true := by
    rw [State.logServed, hdev]
    rfl
  have hfind : s.sync.waiters.find? (fun w => w.array = 0) = some ⟨0, 0, 1, false, 0⟩ := by
    rw [hsync]
    rfl
  have hrecord : (s.syncRecord ⟨0, 0, 1, false, 0⟩ 3 0 (2 ^ 24 - 1)).pwr.stretched = 1 := by
    have hwanted : (s.flag 0x8820 0 && bit (s.get 0x8821 0) 0 && (decide (3 ≠ 0) || decide (s.get 0x8822 0 ≤ s.now - 0))) = true := by
      rw [State.flag, htrace, hmask]
      rfl
    unfold State.syncRecord
    refine (congrArg (fun x : State => x.pwr.stretched) (if_pos hwanted)).trans ?_
    rw [State.logRecord_stretched hserved]
    have hstretched : s.isStretched 0 = true := by
      rw [State.isStretched, hpwr]
      rfl
    rw [hstretched, hpwr]
    rfl
  unfold State.leaveQueue hungRun
  simp only [hfind]
  refine Eq.trans ?_ hrecord
  refine congrArg Pwr.stretched ?_
  exact State.serveTaps_within _ _ .pwr (by decide)

/-- Refutes O47: the SYNC record that a WAIT writes as its list is abandoned takes the array's stretch flag, and the clause's parts
leave power out. -/
theorem not_hangAndDumpCommands : ¬ Obligations.HangAndDumpCommands := by
  unfold Obligations.HangAndDumpCommands
  rintro ⟨-, -, -, -, -, -, -, -, -, hdump, -⟩
  obtain ⟨u, hu, -, -, -, -, -, hw, -⟩ := hdump hungState 0 _ rfl 0 rfl 0 rfl (by decide) hungRun rfl (by decide) rfl rfl rfl
  have hrun : (hungStored.arrAt 0).run = some hungRun :=
    congrArg (fun a : Vector Arr 16 => (a.toList.getD 0 {}).run) (hungStored_spec.1 .arr (by decide))
  have hbells : (hungStored.abandonRun 0 3 hungRun).fab.bells = [] :=
    congrArg Fab.bells (Eq.trans (State.abandonRun_within _ _ _ _ .fab (by decide)) (hungStored_spec.1 .fab (by decide)))
  have hexec := exec_hungState
  rw [hrun] at hexec
  obtain rfl : (hungStored.abandonRun 0 3 hungRun).ringBells = u := by injection hexec.symm.trans hu
  have hpwr : (hungStored.abandonRun 0 3 hungRun).ringBells.pwr.stretched = 1 := by
    rw [State.ringBells_pwr hbells, State.abandonRun_pwr rfl]
    exact hungStored_stretched
  rw [hw .pwr (by decide)] at hpwr
  exact absurd hpwr (by decide)

end Sys2Proof.Machine

/-! O33: the governor and the power ramps of the array islands (R199 to R203). -/

namespace Sys2Proof.Machine

set_option Elab.async false

section
variable {s u : State} {cycle t : Nat}

/-- An object of an array's control block is none of the rule group. -/
theorem isRuleObj_array {a : Nat} (ha : a < 16) (j : Nat) : isRuleObj (0x5010 + a) j = false := by
  simp only [isRuleObj, Bool.or_eq_false_iff, Bool.and_eq_false_iff, beq_eq_false_iff_ne, decide_eq_false_iff_not]
  omega

theorem State.bumpBy_objsBut (s : State) {i j : Nat} (n : Nat) (hj : j < 65536 := by decide) :
    ObjsBut (fun a b => a == i && b == j) s (s.bumpBy i j n) := s.put_objsBut _ hj

/-- Several counters of one object index advance, each sub-index by a number. -/
def State.tally (s : State) (i : Nat) : List (Nat × Nat) → State
  | [] => s
  | x :: l => (s.bumpBy i x.1 x.2).tally i l

theorem State.tally_within (s : State) (i : Nat) (l : List (Nat × Nat)) : Within [.dict] s (s.tally i l) := by
  induction l generalizing s with
  | nil => exact .refl _ s
  | cons x l ih => exact (s.bumpBy_within _ _ _).trans (ih _)

theorem State.tally_form {i : Nat} {l : List (Nat × Nat)} (h : Sparse.wf objDefault s.dict = true) :
    Sparse.wf objDefault (s.tally i l).dict = true := by
  induction l generalizing s with
  | nil => exact h
  | cons x l ih => exact ih (State.put_wf h)

theorem State.tally_objsBut (s : State) (i : Nat) {l : List (Nat × Nat)} (hl : ∀ x ∈ l, x.1 < 65536) :
    ObjsBut (fun i' j => i' == i && l.any fun x => x.1 == j) s (s.tally i l) := by
  induction l generalizing s with
  | nil => exact .refl _ s
  | cons x l ih =>
    obtain ⟨hx, hl⟩ := List.forall_mem_cons.1 hl
    refine ((s.bumpBy_objsBut x.2 hx).mono fun i' j hk => ?_).trans ((ih (s.bumpBy i x.1 x.2) hl).mono fun i' j hk => ?_)
    · rw [List.any_cons, Bool.and_or_distrib_left, Bool.or_eq_false_iff, Bool.beq_comm (a := x.1)] at hk
      exact hk.1
    · rw [List.any_cons, Bool.and_or_distrib_left, Bool.or_eq_false_iff] at hk
      exact hk.2

theorem State.tally_obj {i j n : Nat} {l : List (Nat × Nat)} (h : Sparse.wf objDefault s.dict = true) (hl : ∀ x ∈ l, x.1 < 65536)
    (hnd : (l.map Prod.fst).Nodup) (hmem : (j, n) ∈ l) : (s.tally i l).obj i j = (s.obj i j + n) % 2 ^ 64 := by
  induction l generalizing s with
  | nil => exact absurd hmem (by simp)
  | cons x l ih =>
    obtain ⟨hx, hrest⟩ := List.forall_mem_cons.1 hl
    obtain ⟨hnew, hnd⟩ := List.nodup_cons.1 hnd
    rcases List.mem_cons.1 hmem with rfl | hmem
    · refine (State.tally_objsBut (l := l) (s.bumpBy i j n) i hrest i j hx ?_).trans (State.obj_bumpBy h)
      simp only [beq_self_eq_true, Bool.true_and, List.any_eq_false, beq_iff_eq]
      exact fun y hy hyj => hnew (List.mem_map.2 ⟨y, hy, hyj⟩)
    · refine (ih (State.put_wf h) hrest hnd hmem).trans ?_
      have hne : j ≠ x.1 := fun hj => hnew (hj ▸ List.mem_map_of_mem (f := Prod.fst) hmem)
      exact congrArg (fun m => (m + n) % 2 ^ 64) (State.obj_put_ne (hrest _ hmem) hx fun h => hne h.2)

/-- A tally of an array's counters, then its power. -/
def State.paced (s : State) (a v : Nat) (l : List (Nat × Nat)) : State := (s.tally (0x5010 + a) l).setPower a v

theorem State.paced_within (s : State) (a v : Nat) (l : List (Nat × Nat)) : Within [.dict] s (s.paced a v l) :=
  (s.tally_within _ _).trans (State.put_within _ _ _ _)

/-- The array's power, its counters, and no other object. -/
structure State.Paced (a v : Nat) (l : List (Nat × Nat)) (s u : State) : Prop where
  power : u.power a = v
  count : ∀ j n, (j, n) ∈ l → u.obj (0x5010 + a) j = (s.obj (0x5010 + a) j + n) % 2 ^ 64
  objs  : ObjsBut (fun i j => i == 0x5010 + a && (j == 2 || l.any fun x => x.1 == j)) s u

theorem State.paced_paced {a v : Nat} {l : List (Nat × Nat)} (ha : a < 16) (hdict : u.dict = s.dict) (hform : s.canonical = true)
    (hl : ∀ x ∈ l, x.1 < 65536 ∧ x.1 ≠ 2) (hnd : (l.map Prod.fst).Nodup) : s.Paced a v l (u.paced a v l) := by
  have hu : Sparse.wf objDefault u.dict = true := hdict ▸ State.dict_wf hform
  have hlow : ∀ x ∈ l, x.1 < 65536 := fun x hx => (hl x hx).1
  have hobj (i j : Nat) : u.obj i j = s.obj i j := by rw [State.obj, hdict, State.obj]
  refine ⟨State.get_put (isRuleObj_array ha 2) (State.tally_form hu), fun j n hj => ?_, ?_⟩
  · obtain ⟨hlow', hne⟩ := hl _ hj
    rw [← hobj]
    exact (State.obj_put_ne hlow' (by decide) fun h => hne h.2).trans (State.tally_obj hu hlow hnd hj)
  · refine ((ObjsBut.of_dict hdict).trans ((u.tally_objsBut _ hlow).mono fun i j hk => ?_)).trans
      ((State.put_objsBut _ v (i := 0x5010 + a) (j := 2)).mono fun i j hk => ?_)
    · simp only [Bool.and_eq_false_iff, Bool.or_eq_false_iff] at hk ⊢
      grind
    · simp only [Bool.and_eq_false_iff, Bool.or_eq_false_iff] at hk ⊢
      grind

/-- Then its state. -/
def State.ramp (s : State) (a v : Nat) (l : List (Nat × Nat)) (f : Arr → Arr) : State := (s.paced a v l).modArr a f

theorem State.ramp_within (s : State) (a v : Nat) (l : List (Nat × Nat)) (f : Arr → Arr) : Within [.arr, .dict] s (s.ramp a v l f) :=
  ((s.paced_within _ _ _).mono (by decide)).step (State.modArr_within _ _ _) (by decide)

structure State.Ramped (a v : Nat) (l : List (Nat × Nat)) (f : Arr → Arr) (s u : State) : Prop extends State.Paced a v l s u where
  arr   : u.arrAt a = f (s.arrAt a)
  rest  : ArraysBut (fun b => b == a) s u

theorem State.arraysBut_modArr {a : Nat} (ha : a < 16) (f : Arr → Arr) : ArraysBut (fun b => b == a) s (s.modArr a f) := by
  intro b hb
  rw [State.arrAt_modArr ha, if_neg (by simpa using hb)]

theorem State.ramp_ramped {a v : Nat} {l : List (Nat × Nat)} {f : Arr → Arr} (ha : a < 16) (hdict : u.dict = s.dict) (harr : u.arr = s.arr)
    (hform : s.canonical = true) (hl : ∀ x ∈ l, x.1 < 65536 ∧ x.1 ≠ 2) (hnd : (l.map Prod.fst).Nodup) :
    s.Ramped a v l f (u.ramp a v l f) := by
  obtain ⟨hpower, hcount, hobjs⟩ := State.paced_paced (v := v) ha hdict hform hl hnd
  have harrAt (b : Nat) : (u.paced a v l).arrAt b = s.arrAt b := by
    rw [State.arrAt, State.arrAt, show (u.paced a v l).arr = s.arr from Eq.trans (u.paced_within _ _ _ .arr (by decide)) harr]
  have hmod := State.arraysBut_modArr (s := u.paced a v l) ha f
  refine ⟨⟨hpower, hcount, hobjs⟩, ?_, fun b hb => (hmod b hb).trans (harrAt b)⟩
  refine (State.arrAt_modArr ha).trans ?_
  rw [if_pos rfl, harrAt]

theorem execGovernorAdmit_idle (h : s.nextAdmitted = none ∨ s.frozen = true ∨ (s.sync.lastAdmit.any fun c => decide (cycle < c + s.get 0x5001 0)) = true) :
    ∃ u, Sys2Proof.Machine.exec (.governorAdmit cycle t) s = .next u ∧ Within [.clock] s u := by
  have hat := s.at_within t
  obtain ⟨c, hc⟩ := s.at_eq t
  refine ⟨s.at t, ?_, hat⟩
  change execGovernorAdmit cycle t s = _
  unfold execGovernorAdmit
  rw [hc]
  extract_lets v free
  have hnext : v.nextAdmitted = s.nextAdmitted := rfl
  split
  · rfl
  · rename_i a ha
    refine if_neg fun ⟨hfree, hfrozen⟩ => ?_
    rcases h with h | h | h
    · exact absurd (ha.symm.trans (hnext.trans h)) (by simp)
    · exact Bool.false_ne_true (hfrozen.symm.trans h)
    · obtain ⟨x, hx, hlt⟩ := Option.any_eq_true .. |>.1 h
      have hvx : v.sync.lastAdmit = some x := hx
      have hget : v.get 0x5001 0 = s.get 0x5001 0 := rfl
      unfold free at hfree
      rw [hvx, hget] at hfree
      simp only [decide_eq_true_eq] at hfree hlt
      omega

theorem execRampUpComplete_idle {a : Fin 16} (h : s.power a.val ≠ 1 ∨ s.frozen = true) :
    ∃ u, Sys2Proof.Machine.exec (.rampUpComplete a t) s = .next u ∧ Within [.clock] s u := by
  have hat := s.at_within t
  obtain ⟨c, hc⟩ := s.at_eq t
  refine ⟨s.at t, ?_, hat⟩
  change execRampUpComplete a t s = _
  unfold execRampUpComplete
  rw [hc]
  exact if_neg fun ⟨hpower, hfrozen⟩ => h.elim (fun h => h hpower) fun h => Bool.false_ne_true (hfrozen.symm.trans h)

theorem execRampUpComplete_ramps {a : Fin 16} (hpower : s.power a.val = 1) (hfrozen : s.frozen = false) (hform : s.canonical = true) :
    ∃ u, Sys2Proof.Machine.exec (.rampUpComplete a t) s = .next u ∧ (
      u.power a.val = 2 ∧ u.obj (0x5010 + a.val) 3 = (s.obj (0x5010 + a.val) 3 + (s.arrAt a.val).rampLen) % 2 ^ 64 ∧
      u.obj (0x5010 + a.val) 6 = (s.obj (0x5010 + a.val) 6 + (s.arrAt a.val).rampLen) % 2 ^ 64 ∧ Within [.dict, .clock] s u ∧
      ObjsBut (fun i j => i == 0x5010 + a.val && (j == 2 || j == 3 || j == 6)) s u) := by
  have hat := s.at_within t
  have hexec : Sys2Proof.Machine.exec (.rampUpComplete a t) s =
      .next ((s.at t).paced a.val 2 [(3, (s.arrAt a.val).rampLen), (6, (s.arrAt a.val).rampLen)]) := by
    obtain ⟨c, hc⟩ := s.at_eq t
    change execRampUpComplete a t s = _
    unfold execRampUpComplete
    rw [hc]
    exact if_pos ⟨hpower, hfrozen⟩
  obtain ⟨hpow, hcount, hobjs⟩ := State.paced_paced (v := 2) (l := [(3, (s.arrAt a.val).rampLen), (6, (s.arrAt a.val).rampLen)]) a.isLt
    (hat .dict (by decide)) hform (by simp) (by simp)
  refine ⟨_, hexec, hpow, hcount 3 _ (by simp), hcount 6 _ (by simp), (hat.mono (by decide)).step (State.paced_within _ _ _ _) (by decide),
    hobjs.mono ?_⟩
  simp
  grind

theorem execRampDownStart_idle {a : Fin 16} {gap : Nat} (h : s.power a.val ≠ 2 ∨ s.flag (0x5020 + a.val) 2 = false ∨
      gap ≤ s.get (0x5020 + a.val) 1 ∨ s.quiet a.val = false ∨ s.frozen = true) :
    ∃ u, Sys2Proof.Machine.exec (.rampDownStart a gap t) s = .next u ∧ Within [.clock] s u := by
  have hat := s.at_within t
  obtain ⟨c, hc⟩ := s.at_eq t
  refine ⟨s.at t, ?_, hat⟩
  change execRampDownStart a gap t s = _
  unfold execRampDownStart
  rw [hc]
  refine if_neg ?_
  rintro ⟨hpower, hflag, hgap, hquiet, hfrozen⟩
  rcases h with h | h | h | h | h
  · exact h hpower
  · exact Bool.false_ne_true (h.symm.trans hflag)
  · exact Nat.not_lt_of_le h hgap
  · exact Bool.false_ne_true (h.symm.trans hquiet)
  · exact Bool.false_ne_true (hfrozen.symm.trans h)

theorem execRampDownStart_ramps {a : Fin 16} {gap : Nat} (hpower : s.power a.val = 2) (hflag : s.flag (0x5020 + a.val) 2 = true)
    (hgap : s.get (0x5020 + a.val) 1 < gap) (hquiet : s.quiet a.val = true) (hfrozen : s.frozen = false) (hform : s.canonical = true) :
    ∃ u, Sys2Proof.Machine.exec (.rampDownStart a gap t) s = .next u ∧ (
      u.power a.val = 3 ∧ u.arrAt a.val = { s.arrAt a.val with rampFrom := u.now } ∧ ArraysBut (fun b => b == a.val) s u ∧
      u.obj (0x5010 + a.val) 3 = (s.obj (0x5010 + a.val) 3 + (gap - 1)) % 2 ^ 64 ∧
      u.obj (0x5010 + a.val) 5 = (s.obj (0x5010 + a.val) 5 + (gap - 1)) % 2 ^ 64 ∧
      u.obj (0x5010 + a.val) 6 = (s.obj (0x5010 + a.val) 6 + s.get (0x5020 + a.val) 1) % 2 ^ 64 ∧ Within [.arr, .dict, .clock] s u ∧
      ObjsBut (fun i j => i == 0x5010 + a.val && (j == 2 || j == 3 || j == 5 || j == 6)) s u) := by
  have hat := s.at_within t
  have hexec : Sys2Proof.Machine.exec (.rampDownStart a gap t) s =
      .next ((s.at t).ramp a.val 3 [(3, gap - 1), (5, gap - 1), (6, s.get (0x5020 + a.val) 1)] fun x => { x with rampFrom := (s.at t).now }) := by
    obtain ⟨c, hc⟩ := s.at_eq t
    change execRampDownStart a gap t s = _
    unfold execRampDownStart
    rw [hc]
    exact if_pos ⟨hpower, hflag, hgap, hquiet, hfrozen⟩
  obtain ⟨⟨hpow, hcount, hobjs⟩, harr, hrest⟩ := State.ramp_ramped (v := 3) (l := [(3, gap - 1), (5, gap - 1), (6, s.get (0x5020 + a.val) 1)])
    (f := fun x => { x with rampFrom := (s.at t).now }) a.isLt (hat .dict (by decide)) (hat .arr (by decide)) hform (by simp) (by simp)
  have hw := (s.at t).ramp_within a.val 3 [(3, gap - 1), (5, gap - 1), (6, s.get (0x5020 + a.val) 1)] fun x => { x with rampFrom := (s.at t).now }
  have hnow : ((s.at t).ramp a.val 3 [(3, gap - 1), (5, gap - 1), (6, s.get (0x5020 + a.val) 1)] fun x => { x with rampFrom := (s.at t).now }).now =
    (s.at t).now := congrArg Clock.house (hw .clock (by decide))
  refine ⟨_, hexec, hpow, ?_, hrest, hcount 3 _ (by simp), hcount 5 _ (by simp), hcount 6 _ (by simp), ?_, hobjs.mono ?_⟩
  · rw [harr, hnow]
  · exact (hat.mono (by decide)).step hw (by decide)
  · simp
    grind

theorem execRampDownComplete_idle {a : Fin 16} (h : s.power a.val ≠ 3 ∨ s.frozen = true) :
    ∃ u, Sys2Proof.Machine.exec (.rampDownComplete a t) s = .next u ∧ Within [.clock] s u := by
  have hat := s.at_within t
  obtain ⟨c, hc⟩ := s.at_eq t
  refine ⟨s.at t, ?_, hat⟩
  change execRampDownComplete a t s = _
  unfold execRampDownComplete
  rw [hc]
  exact if_neg fun ⟨hpower, hfrozen⟩ => h.elim (fun h => h hpower) fun h => Bool.false_ne_true (hfrozen.symm.trans h)

/-- A clock that is not stretched delivers every cycle. -/
theorem State.delivered_nominal {a n : Nat} (h : s.isStretched a = false) : s.delivered a n = (n, s) := by
  rw [State.delivered, if_neg (by rw [h]; decide)]

theorem State.isStretched_at (s : State) (a : Nat) : (s.at t).isStretched a = s.isStretched a := by
  obtain ⟨c, hc⟩ := s.at_eq t
  rw [hc]
  rfl

theorem execRampDownComplete_gates {a : Fin 16} (hpower : s.power a.val = 3) (hfrozen : s.frozen = false) (hform : s.canonical = true) :
    ∃ u, Sys2Proof.Machine.exec (.rampDownComplete a t) s = .next u ∧ (
      u.power a.val = 0 ∧ u.arrAt a.val = (s.arrAt a.val).closeBanks ∧ ArraysBut (fun b => b == a.val) s u ∧
      (s.isStretched a.val = false → u.obj (0x5010 + a.val) 3 = (s.obj (0x5010 + a.val) 3 + 900) % 2 ^ 64 ∧
        u.obj (0x5010 + a.val) 6 = (s.obj (0x5010 + a.val) 6 + 900) % 2 ^ 64 ∧ u.free = s.free) ∧
      Within [.arr, .dict, .free, .clock] s u ∧ ObjsBut (fun i j => i == 0x5010 + a.val && (j == 2 || j == 3 || j == 6)) s u) := by
  have hat := s.at_within t
  have hexec : Sys2Proof.Machine.exec (.rampDownComplete a t) s = .next (((s.at t).delivered a.val 900).2.ramp a.val 0
      [(3, ((s.at t).delivered a.val 900).1), (6, ((s.at t).delivered a.val 900).1)] Arr.closeBanks) := by
    obtain ⟨c, hc⟩ := s.at_eq t
    change execRampDownComplete a t s = _
    unfold execRampDownComplete
    rw [hc]
    exact if_pos ⟨hpower, hfrozen⟩
  have hnominal (h : s.isStretched a.val = false) := State.delivered_nominal (s := s.at t) (n := 900) ((s.isStretched_at a.val).trans h)
  have hsv : Within [.free, .clock] s ((s.at t).delivered a.val 900).2 := (hat.mono (by decide)).step (State.delivered_within _ _ _) (by decide)
  generalize (s.at t).delivered a.val 900 = y at *
  obtain ⟨⟨hpow, hcount, hobjs⟩, harr, hrest⟩ := State.ramp_ramped (v := 0) (l := [(3, y.1), (6, y.1)]) (f := Arr.closeBanks) a.isLt
    (hsv .dict (by decide)) (hsv .arr (by decide)) hform (by simp) (by simp)
  have hw := y.2.ramp_within a.val 0 [(3, y.1), (6, y.1)] Arr.closeBanks
  refine ⟨_, hexec, hpow, harr, hrest, fun h => ?_, (hsv.mono (by decide)).step hw (by decide), hobjs.mono ?_⟩
  · have hy := hnominal h
    have hcycles : y.1 = 900 := congrArg Prod.fst hy
    refine ⟨hcount 3 900 (by simp [hcycles]), hcount 6 900 (by simp [hcycles]), Eq.trans (hw .free (by decide)) ?_⟩
    rw [hy]
    exact hat .free (by decide)
  · simp
    grind

/-- The cycle of the last admission is noted. -/
def State.admittedAt (s : State) (cycle : Nat) : State := { s with sync := { s.sync with lastAdmit := some cycle } }

theorem execGovernorAdmit_admits {a : Nat} (hnext : s.nextAdmitted = some a) (ha : a < 16) (hfrozen : s.frozen = false) (hform : s.canonical = true)
    (hdue : (match s.sync.lastAdmit with | none => true | some c => decide (c + s.get 0x5001 0 ≤ cycle)) = true) :
    ∃ u, Sys2Proof.Machine.exec (.governorAdmit cycle t) s = .next u ∧ (
      u.obj (0x5010 + a) 2 = 1 ∧ u.obj (0x5010 + a) 0xC = (s.obj (0x5010 + a) 0xC + 1) % 2 ^ 64 ∧
      (s.isStretched a = false → u.obj (0x5010 + a) 0xB =
        (s.obj (0x5010 + a) 0xB + arithCycles (u.now - ((s.arrAt a).wantFrom.getD u.now))) % 2 ^ 64 ∧ u.free = s.free) ∧
      u.arrAt a = { s.arrAt a with wantFrom := none, rampFrom := u.now, rampLen := 256 } ∧
      u.sync = { s.sync with lastAdmit := some cycle } ∧ ArraysBut (fun b => b == a) s u ∧ Within [.arr, .sync, .dict, .free, .clock] s u ∧
      ObjsBut (fun i j => i == 0x5010 + a && (j == 2 || j == 0xB || j == 0xC)) s u) := by
  have hat := s.at_within t
  obtain ⟨n, hn⟩ : ∃ n, n = arithCycles ((s.at t).now - ((s.arrAt a).wantFrom.getD (s.at t).now)) := ⟨_, rfl⟩
  obtain ⟨f, hf⟩ : ∃ f : Arr → Arr, f = fun x => { x with wantFrom := none, rampFrom := (s.at t).now, rampLen := 256 } := ⟨_, rfl⟩
  obtain ⟨x, hx⟩ : ∃ x, x = ((s.at t).delivered a n).2.ramp a 1 [(0xB, ((s.at t).delivered a n).1), (0xC, 1)] f := ⟨_, rfl⟩
  have hexec : Sys2Proof.Machine.exec (.governorAdmit cycle t) s = .next (x.admittedAt cycle) := by
    have hvnext : (s.at t).nextAdmitted = some a := by
      obtain ⟨c, hc⟩ := s.at_eq t
      rw [hc]
      exact hnext
    have hvobs : (s.at t).frozen = false := by
      obtain ⟨c, hc⟩ := s.at_eq t
      rw [hc]
      exact hfrozen
    have hvdue : (match (s.at t).sync.lastAdmit with | none => true | some c => decide (c + (s.at t).get 0x5001 0 ≤ cycle)) = true := by
      obtain ⟨c, hc⟩ := s.at_eq t
      rw [hc]
      exact hdue
    have hvarr : (s.at t).arr = s.arr := hat .arr (by decide)
    have hwanted : arithCycles ((s.at t).now - (((s.at t).arrAt a).wantFrom.getD (s.at t).now)) = n := by
      rw [hn, State.arrAt, hvarr, State.arrAt]
    change execGovernorAdmit cycle t s = _
    unfold execGovernorAdmit
    extract_lets v free
    rw [show v.nextAdmitted = some a from hvnext]
    refine (if_pos ⟨hvdue, hvobs⟩).trans ?_
    rw [show arithCycles (v.now - ((v.arrAt a).wantFrom.getD v.now)) = n from hwanted, hx, hf]
    have hnow : (v.delivered a n).2.now = v.now := congrArg Clock.house (State.delivered_within _ _ _ .clock (by decide))
    rw [show (s.at t).now = (v.delivered a n).2.now from hnow.symm, show s.at t = v from rfl]
    generalize v.delivered a n = y
    obtain ⟨waited, w⟩ := y
    rfl
  have hnominal (h : s.isStretched a = false) := State.delivered_nominal (s := s.at t) (n := n) ((s.isStretched_at a).trans h)
  have hsv : Within [.free, .clock] s ((s.at t).delivered a n).2 := (hat.mono (by decide)).step (State.delivered_within _ _ _) (by decide)
  have hvnow : ((s.at t).delivered a n).2.now = (s.at t).now := congrArg Clock.house (State.delivered_within _ _ _ .clock (by decide))
  generalize (s.at t).delivered a n = y at *
  obtain ⟨⟨hpow, hcount, hobjs⟩, harr, hrest⟩ := State.ramp_ramped (v := 1) (l := [(0xB, y.1), (0xC, 1)]) (f := f) ha
    (hsv .dict (by decide)) (hsv .arr (by decide)) hform (by simp) (by simp)
  have hw := y.2.ramp_within a 1 [(0xB, y.1), (0xC, 1)] f
  rw [← hx] at hpow hcount hobjs harr hrest hw
  have hnow : x.now = (s.at t).now := (congrArg Clock.house (hw .clock (by decide))).trans hvnow
  have hsync : x.sync = s.sync := Eq.trans (hw .sync (by decide)) (hsv .sync (by decide))
  have hxnow : (x.admittedAt cycle).now = (s.at t).now := hnow
  refine ⟨_, hexec, ?_⟩
  rw [hxnow]
  refine ⟨(State.get_of_dict (isRuleObj_array ha 2)).symm.trans hpow, hcount 0xC 1 (by simp), fun h => ?_, ?_, ?_, hrest, ?_, ?_⟩
  · have hy := hnominal h
    have hcycles : y.1 = n := congrArg Prod.fst hy
    refine ⟨hn ▸ hcount 0xB n (by simp [hcycles]), Eq.trans (hw .free (by decide)) ?_⟩
    rw [hy]
    exact hat .free (by decide)
  · exact harr.trans (hf ▸ rfl)
  · exact congrArg (fun y : Sync => { y with lastAdmit := some cycle }) hsync
  · exact ((hsv.mono (by decide)).step hw (by decide)).step (State.set_sync_within _ _) (by decide)
  · refine (hobjs.trans (.of_dict rfl)).mono ?_
    simp
    grind

end

/-- Settles O33, clause by clause. -/
theorem arrayPowerCommands : Obligations.ArrayPowerCommands := by
  unfold Obligations.ArrayPowerCommands
  exact ⟨fun s cycle t a hnext ha hfrozen hform hdue => execGovernorAdmit_admits hnext ha hfrozen hform hdue,
    fun s cycle t h => execGovernorAdmit_idle h, fun s a t hpower hfrozen hform => execRampUpComplete_ramps hpower hfrozen hform,
    fun s a t h => execRampUpComplete_idle h,
    fun s a gap t hpower hflag hgap hquiet hfrozen hform => execRampDownStart_ramps hpower hflag hgap hquiet hfrozen hform,
    fun s a gap t h => execRampDownStart_idle h, fun s a t hpower hfrozen hform => execRampDownComplete_gates hpower hfrozen hform,
    fun s a t h => execRampDownComplete_idle h⟩

end Sys2Proof.Machine

/-! O43: the house clock between modules (R346 to R351). -/

namespace Sys2Proof.Machine

set_option Elab.async false

open Sys2Proof.Bits

section
variable {s u : State} {t hops grandmaster other : Nat} {f : Fin 16} {offset : Int}

/-! ## Exchange with the parent -/

/-- What the objects of the clock show after an exchange. -/
def State.showClock (s : State) (source grandmaster hops off : Nat) : State :=
  (((s.put 0x2405 0 source).put 0x2406 0 grandmaster).put 0x2407 0 hops).put 0x2408 0 off

theorem State.showClock_within (s : State) (a b c d : Nat) : Within [.dict] s (s.showClock a b c d) :=
  (((State.put_within _ _ _ _).trans (State.put_within _ _ _ _)).trans (State.put_within _ _ _ _)).trans (State.put_within _ _ _ _)

theorem State.showClock_objsBut (s : State) (a b c d : Nat) :
    ObjsBut (fun i j => (i == 0x2405 || i == 0x2406 || i == 0x2407 || i == 0x2408) && j == 0) s (s.showClock a b c d) := by
  refine ((((s.put_objsBut a (i := 0x2405) (j := 0)).mono ?_).trans ((State.put_objsBut _ b (i := 0x2406) (j := 0)).mono ?_)).trans
    ((State.put_objsBut _ c (i := 0x2407) (j := 0)).mono ?_)).trans ((State.put_objsBut _ d (i := 0x2408) (j := 0)).mono ?_)
  all_goals
    simp
    grind

theorem State.showClock_objs (h : Sparse.wf objDefault s.dict = true) (a b c d : Nat) :
    (s.showClock a b c d).obj 0x2405 0 = a ∧ (s.showClock a b c d).obj 0x2406 0 = b ∧ (s.showClock a b c d).obj 0x2407 0 = c ∧
      (s.showClock a b c d).obj 0x2408 0 = d := by
  have h1 : Sparse.wf objDefault (s.put 0x2405 0 a).dict = true := State.put_wf h
  have h2 : Sparse.wf objDefault ((s.put 0x2405 0 a).put 0x2406 0 b).dict = true := State.put_wf h1
  refine ⟨?_, ?_, ?_, State.obj_put (State.put_wf h2)⟩
  · exact (State.obj_put_ne (by decide) (by decide) (by decide)).trans ((State.obj_put_ne (by decide) (by decide) (by decide)).trans
      ((State.obj_put_ne (by decide) (by decide) (by decide)).trans (State.obj_put h)))
  · exact (State.obj_put_ne (by decide) (by decide) (by decide)).trans ((State.obj_put_ne (by decide) (by decide) (by decide)).trans
      (State.obj_put h1))
  · exact (State.obj_put_ne (by decide) (by decide) (by decide)).trans (State.obj_put h2)

/-- The offset less the port's asymmetry. -/
def State.offsetAt (s : State) (f : Nat) (offset : Int) : Int := offset - toInt 16 (s.get 0x7813 (f + 1))

/-- House time and the count up to which slewing is spent, after an exchange with parent `f`. -/
def State.exchanged (s : State) (f : Nat) (move : Int) (spent : Nat) : State :=
  { s with clock := { s.clock with
      house := ((s.clock.house : Int) - move).toNat % 2 ^ 64, parent := some f, lostAt := none, slewFrom := spent } }

theorem State.clockRuns_at (s : State) (t : Nat) : (s.at t).clockRuns = s.clockRuns := by
  obtain ⟨c, hc⟩ := s.at_eq t
  rw [hc]
  rfl

/-- The exchange is one with the better parent of a module that takes its time from the fabric. -/
def State.follows (s : State) (f hops grandmaster : Nat) : Prop :=
  ¬(s.clockRuns = false ∨ s.portUp f = false ∨ s.get 0x2400 0 ≠ 0 ∨ grandmaster = s.moduleNo ∨ s.betterParent f hops = false)

theorem State.follows_at : (s.at t).follows f.val hops grandmaster ↔ s.follows f.val hops grandmaster := by
  obtain ⟨h, e, hat, -⟩ := s.at_spec t
  rw [hat]
  rfl

theorem execTimestampExchange_step (h : (s.at t).follows f.val hops grandmaster) (hstep : 1000000 < ((s.at t).offsetAt f.val offset).natAbs) :
    Sys2Proof.Machine.exec (.timestampExchange f offset hops grandmaster t) s =
      .next ((((s.at t).exchanged f.val ((s.at t).offsetAt f.val offset / 1000) (s.at t).clock.elapsed).bump 0x2409 0).showClock 1
        (grandmaster % 65536) ((hops + 1) % 256) (ofInt 32 ((s.at t).offsetAt f.val offset))) := by
  change execTimestampExchange f offset hops grandmaster t s = _
  unfold execTimestampExchange
  refine (if_neg h).trans ?_
  generalize s.at t = v at *
  unfold State.offsetAt at *
  simp only [decide_eq_true hstep, if_true]
  rfl

theorem execTimestampExchange_slew (h : (s.at t).follows f.val hops grandmaster) (hslew : ((s.at t).offsetAt f.val offset).natAbs ≤ 1000000) :
    Sys2Proof.Machine.exec (.timestampExchange f offset hops grandmaster t) s =
      .next (((s.at t).exchanged f.val ((s.at t).slew ((s.at t).offsetAt f.val offset / 1000)).1
        ((s.at t).slew ((s.at t).offsetAt f.val offset / 1000)).2).showClock 1
        (grandmaster % 65536) ((hops + 1) % 256) (ofInt 32 ((s.at t).offsetAt f.val offset))) := by
  change execTimestampExchange f offset hops grandmaster t s = _
  unfold execTimestampExchange
  refine (if_neg h).trans ?_
  generalize s.at t = v at *
  unfold State.offsetAt at *
  simp only [decide_eq_false (Nat.not_lt_of_le hslew), Bool.false_eq_true, if_false]
  rfl

theorem timestampExchange_step (hruns : s.clockRuns = true) (hup : s.portUp f.val = true) (hfabric : s.get 0x2400 0 = 0)
    (hother : grandmaster ≠ s.moduleNo) (hbetter : s.betterParent f.val hops = true) (hfar : 1000000 < (s.offsetAt f.val offset).natAbs)
    (hform : s.canonical = true) :
    ∃ u, Sys2Proof.Machine.exec (.timestampExchange f offset hops grandmaster t) s = .next u ∧ (
      u.now = (((s.at t).now : Int) - s.offsetAt f.val offset / 1000).toNat % 2 ^ 64 ∧ u.obj 0x2409 0 = (s.obj 0x2409 0 + 1) % 2 ^ 64 ∧
      u.clock = { (s.at t).clock with house := u.now, parent := some f.val, lostAt := none, slewFrom := u.clock.slewFrom } ∧
      u.obj 0x2405 0 = 1 ∧ u.obj 0x2406 0 = grandmaster % 65536 ∧ u.obj 0x2407 0 = (hops + 1) % 256 ∧
      u.obj 0x2408 0 = ofInt 32 (s.offsetAt f.val offset) ∧ Within [.clock, .dict] s u ∧ u.clock.slewFrom = (s.at t).clock.elapsed ∧
      ObjsBut (fun i j => (i == 0x2405 || i == 0x2406 || i == 0x2407 || i == 0x2408 || i == 0x2409) && j == 0) s u) := by
  have hat := s.at_within t
  have hfollows : (s.at t).follows f.val hops grandmaster := State.follows_at.2 (by simp [State.follows, *])
  have hoff : (s.at t).offsetAt f.val offset = s.offsetAt f.val offset := by
    rw [State.offsetAt, State.get_of_dict_eq (hat .dict (by decide)) rfl, State.offsetAt]
  rw [← hoff] at hfar ⊢
  refine ⟨_, execTimestampExchange_step hfollows hfar, ?_⟩
  generalize s.at t = v at *
  obtain ⟨x, hx⟩ : ∃ x, x = v.exchanged f.val (v.offsetAt f.val offset / 1000) v.clock.elapsed := ⟨_, rfl⟩
  have hsx : Within [.clock] s x := hx ▸ hat.trans (v.set_clock_within _)
  have hxform : Sparse.wf objDefault x.dict = true := (hsx .dict (by decide)) ▸ State.dict_wf hform
  rw [← hx]
  obtain ⟨h1, h2, h3, h4⟩ := State.showClock_objs (s := x.bump 0x2409 0) (State.put_wf hxform) 1 (grandmaster % 65536) ((hops + 1) % 256)
    (ofInt 32 (v.offsetAt f.val offset))
  have hshow := State.showClock_objsBut (x.bump 0x2409 0) 1 (grandmaster % 65536) ((hops + 1) % 256) (ofInt 32 (v.offsetAt f.val offset))
  refine ⟨?_, ?_, ?_, h1, h2, h3, h4, ?_, ?_, ?_⟩
  · exact hx ▸ rfl
  · refine (hshow 0x2409 0 (by decide) (by decide)).trans ((State.obj_bump hxform).trans ?_)
    rw [State.obj, (hsx .dict (by decide)), State.obj]
  · exact hx ▸ rfl
  · exact ((hsx.mono (by decide)).step (x.bump_within _ _) (by decide)).step (State.showClock_within _ _ _ _ _) (by decide)
  · exact hx ▸ rfl
  · refine (ObjsBut.of_dict (hsx .dict (by decide))).trans ((x.bump_objsBut.mono ?_).trans (hshow.mono ?_))
    all_goals
      simp
      grind

theorem timestampExchange_slew (hruns : s.clockRuns = true) (hup : s.portUp f.val = true) (hfabric : s.get 0x2400 0 = 0)
    (hother : grandmaster ≠ s.moduleNo) (hbetter : s.betterParent f.val hops = true) (hnear : (s.offsetAt f.val offset).natAbs ≤ 1000000)
    (hform : s.canonical = true) :
    ∃ u, Sys2Proof.Machine.exec (.timestampExchange f offset hops grandmaster t) s = .next u ∧ (
      u.now = (((s.at t).now : Int) - ((s.at t).slew (s.offsetAt f.val offset / 1000)).1).toNat % 2 ^ 64 ∧
      u.clock.slewFrom = ((s.at t).slew (s.offsetAt f.val offset / 1000)).2 ∧
      ((s.at t).slew (s.offsetAt f.val offset / 1000)).1.natAbs ≤ ((s.at t).clock.elapsed - s.clock.slewFrom) / 10000 ∧
      u.clock = { (s.at t).clock with house := u.now, parent := some f.val, lostAt := none, slewFrom := u.clock.slewFrom } ∧
      u.obj 0x2405 0 = 1 ∧ u.obj 0x2406 0 = grandmaster % 65536 ∧ u.obj 0x2407 0 = (hops + 1) % 256 ∧
      u.obj 0x2408 0 = ofInt 32 (s.offsetAt f.val offset) ∧ Within [.clock, .dict] s u ∧
      ObjsBut (fun i j => (i == 0x2405 || i == 0x2406 || i == 0x2407 || i == 0x2408) && j == 0) s u) := by
  have hat := s.at_within t
  have hfollows : (s.at t).follows f.val hops grandmaster := State.follows_at.2 (by simp [State.follows, *])
  have hoff : (s.at t).offsetAt f.val offset = s.offsetAt f.val offset := by
    rw [State.offsetAt, State.get_of_dict_eq (hat .dict (by decide)) rfl, State.offsetAt]
  have hspent : (s.at t).clock.slewFrom = s.clock.slewFrom := by rw [s.at_clock t]
  rw [← hoff] at hnear ⊢
  rw [← hspent]
  refine ⟨_, execTimestampExchange_slew hfollows hnear, ?_⟩
  generalize s.at t = v at *
  generalize hm : v.slew (v.offsetAt f.val offset / 1000) = m
  obtain ⟨x, hx⟩ : ∃ x, x = v.exchanged f.val m.1 m.2 := ⟨_, rfl⟩
  have hsx : Within [.clock] s x := hx ▸ hat.trans (v.set_clock_within _)
  have hxform : Sparse.wf objDefault x.dict = true := (hsx .dict (by decide)) ▸ State.dict_wf hform
  rw [← hx]
  obtain ⟨h1, h2, h3, h4⟩ := State.showClock_objs (s := x) hxform 1 (grandmaster % 65536) ((hops + 1) % 256)
    (ofInt 32 (v.offsetAt f.val offset))
  have hshow := State.showClock_objsBut x 1 (grandmaster % 65536) ((hops + 1) % 256) (ofInt 32 (v.offsetAt f.val offset))
  refine ⟨?_, ?_, ?_, ?_, h1, h2, h3, h4, ?_, ?_⟩
  · exact hx ▸ rfl
  · exact hx ▸ rfl
  · rw [← hm, State.slew]
    dsimp only
    omega
  · exact hx ▸ rfl
  · exact (hsx.mono (by decide)).step (State.showClock_within _ _ _ _ _) (by decide)
  · exact (ObjsBut.of_dict (hsx .dict (by decide))).trans hshow

theorem timestampExchange_ignored (h : s.clockRuns = false ∨ s.portUp f.val = false ∨ s.get 0x2400 0 ≠ 0 ∨ grandmaster = s.moduleNo ∨
      s.betterParent f.val hops = false) :
    ∃ u, Sys2Proof.Machine.exec (.timestampExchange f offset hops grandmaster t) s = .next u ∧ Within [.clock] s u := by
  refine ⟨s.at t, ?_, s.at_within t⟩
  have hnot : ¬(s.at t).follows f.val hops grandmaster := fun hf => State.follows_at.1 hf h
  change execTimestampExchange f offset hops grandmaster t s = _
  unfold execTimestampExchange
  exact if_pos (Classical.not_not.1 hnot)

/-! ## Holdover and election -/

theorem State.reachIn_at (s : State) (t n : Nat) (l : List Nat) : (s.at t).reachIn n l = s.reachIn n l := by
  obtain ⟨c, hc⟩ := s.at_eq t
  rw [hc]
  induction n generalizing l with
  | zero => rfl
  | succ n ih => exact ih (s.spread l)

theorem State.neighbours_at (s : State) (t : Nat) : (s.at t).neighbours = s.neighbours := by
  obtain ⟨c, hc⟩ := s.at_eq t
  rw [hc]
  rfl

theorem State.reaches_at (s : State) (t m : Nat) : (s.at t).reaches m = s.reaches m := by
  rw [State.reaches, State.reachIn_at, State.neighbours_at, State.reaches]

theorem State.get_at (s : State) (t i j : Nat) : (s.at t).get i j = s.get i j := by
  obtain ⟨c, hc⟩ := s.at_eq t
  rw [hc]
  rfl

theorem State.moduleNo_at (s : State) (t : Nat) : (s.at t).moduleNo = s.moduleNo := s.get_at t 0x7800 0

theorem State.otherSource_at (s : State) (t : Nat) : (s.at t).otherSource = s.otherSource := by
  have hfab : (s.at t).fab = s.fab := s.at_within t .fab (by decide)
  rw [State.otherSource, State.otherSource, hfab, State.moduleNo_at]
  exact congrArg _ (funext fun x => by rw [State.reaches_at])

theorem State.lowestModule_at (s : State) (t : Nat) : (s.at t).lowestModule = s.lowestModule := by
  rw [State.lowestModule, State.lowestModule, State.others, State.others, State.reachIn_at, State.neighbours_at, State.moduleNo_at]

theorem Reported.after {v : State} {cls : Nat} (h : Reported cls u v) (hflash : u.flash = s.flash) (hodp : u.odp = s.odp)
    (hcount : u.obj 0x1816 0 = s.obj 0x1816 0) : Reported cls s v := by
  obtain ⟨hnumber, hevent⟩ := h
  exact ⟨hflash ▸ hnumber, hevent.after (congrArg Odp.eventSeq hodp) hcount⟩

theorem holdover_lost (hruns : s.clockRuns = true) (hfabric : s.get 0x2400 0 = 0) (hserved : s.get 0x2405 0 = 1)
    (hlost : s.reaches (s.get 0x2406 0) = false) (hform : s.canonical = true) :
    ∃ u, Sys2Proof.Machine.exec (.holdover t) s = .next u ∧ (
      u.obj 0x2405 0 = 2 ∧ u.clock = { (s.at t).clock with parent := none, lostAt := some u.now } ∧ Reported 0x34 s u ∧
      Within ([.clock, .dict] ++ [.pwr, .mem, .memc, .obs, .odp, .out, .flash, .rel, .free]) s u ∧
      Notes (fun i j => i == 0x2405 && j == 0) s u) := by
  have hat := s.at_within t
  obtain ⟨y, hy⟩ : ∃ y : State, y = { s.at t with clock := { (s.at t).clock with parent := none, lostAt := some (s.at t).now } } := ⟨_, rfl⟩
  obtain ⟨x, hx⟩ : ∃ x, x = y.put 0x2405 0 2 := ⟨_, rfl⟩
  obtain ⟨e, he⟩ : ∃ e : ErrInfo, e = { cls := 0x34, uKind := 0, unit := 0, detail := natLe 4 (y.get 0x2408 0) } := ⟨_, rfl⟩
  have hexec : Sys2Proof.Machine.exec (.holdover t) s = .next (x.errorRecord e) := by
    have hcond : (s.at t).clockRuns = true ∧ (s.at t).get 0x2400 0 = 0 ∧ (s.at t).get 0x2405 0 = 1 ∧ (s.at t).reaches ((s.at t).get 0x2406 0) = false := by
      simp only [State.clockRuns_at, State.get_at, State.reaches_at]
      exact ⟨hruns, hfabric, hserved, hlost⟩
    change execHoldover t s = _
    unfold execHoldover
    refine (if_pos hcond).trans ?_
    rw [he, hx, hy]
  refine ⟨_, hexec, ?_⟩
  have hcls : e.cls = 0x34 := he ▸ rfl
  have hsy : Within [.clock] s y := hy ▸ hat.trans (State.set_clock_within _ _)
  have hyform : Sparse.wf objDefault y.dict = true := (hsy .dict (by decide)) ▸ State.dict_wf hform
  have hxw : Within [.clock, .dict] s x := hx ▸ (hsy.mono (by decide)).step (State.put_within _ _ _ _) (by decide)
  have hxform : Sparse.wf objDefault x.dict = true := hx ▸ State.put_wf hyform
  have hxobjs : ObjsBut (fun i j => i == 0x2405 && j == 0) s x := hx ▸ (ObjsBut.of_dict (hsy .dict (by decide))).trans (y.put_objsBut 2)
  have hxclock : x.clock = { (s.at t).clock with parent := none, lostAt := some (s.at t).now } := hx ▸ hy ▸ rfl
  have hnoted := x.errorRecord_noted (e := e) (hcls ▸ by decide)
  have hreported := State.errorRecord_reported hxform (e := e) (hcls ▸ by decide)
  have herror := x.errorRecord_within e
  have hclock : (x.errorRecord e).clock = x.clock := herror .clock (by decide)
  have hx2405 : x.obj 0x2405 0 = 2 := hx ▸ State.obj_put hyform
  have hnow : (x.errorRecord e).now = (s.at t).now := (congrArg Clock.house hclock).trans (by rw [hxclock, State.now])
  refine ⟨(hnoted.objs 0x2405 0 (by decide) (by decide)).trans hx2405, ?_, ?_, ?_, ?_⟩
  · rw [hnow, hclock, hxclock]
  · exact (hcls ▸ hreported).after (hxw .flash (by decide)) (hxw .odp (by decide)) (hxobjs _ _ (by decide) (by decide))
  · exact (hxw.mono (by decide)).step herror (by decide)
  · exact (hxw.notes hxobjs).trans (LogKept.of_objs hxobjs fun _ => hxform) (hnoted.notes _)

theorem holdover_idle (h : s.clockRuns = false ∨ s.get 0x2400 0 ≠ 0 ∨ s.get 0x2405 0 ≠ 1 ∨ s.reaches (s.get 0x2406 0) = true) :
    ∃ u, Sys2Proof.Machine.exec (.holdover t) s = .next u ∧ Within [.clock] s u := by
  refine ⟨s.at t, ?_, s.at_within t⟩
  change execHoldover t s = _
  unfold execHoldover
  refine if_neg ?_
  simp only [State.reaches_at, State.clockRuns_at, State.get_at]
  rintro ⟨hruns, hfabric, hserved, hlost⟩
  rcases h with h | h | h | h
  · exact Bool.false_ne_true (h.symm.trans hruns)
  · exact h hfabric
  · exact h hserved
  · exact Bool.false_ne_true (hlost.symm.trans h)

/-- The grandmaster has been out of reach for a millisecond, or none was ever heard (R351). -/
def State.lateAt (s : State) (now : Nat) : Bool :=
  match s.clock.lostAt with
  | some x => decide (x + 1000000 ≤ now)
  | none => decide (s.get 0x2405 0 = 0)

theorem State.lateAt_at (s : State) (t : Nat) : (s.at t).lateAt (s.at t).now = s.lateAt (s.at t).now := by
  have hlost : (s.at t).clock.lostAt = s.clock.lostAt := by rw [s.at_clock t]
  rw [State.lateAt, State.lateAt, hlost, State.get_at]

/-- The clock of the grandmaster that the module makes itself. -/
def State.elected (s : State) : State :=
  ((({ s with clock := { s.clock with parent := none, lostAt := none } } : State).put 0x2405 0 3).put 0x2406 0 s.moduleNo).put 0x2407 0 0

theorem execGrandmasterElection_wins (hruns : s.clockRuns = true) (hfabric : s.get 0x2400 0 = 0) (hfree : s.get 0x2405 0 ≠ 1)
    (hlate : s.lateAt (s.at t).now = true) (hother : s.otherSource = false) (hlowest : s.lowestModule = true) :
    Sys2Proof.Machine.exec (.grandmasterElection t) s = .next (s.at t).elected := by
  change execGrandmasterElection t s = _
  unfold execGrandmasterElection
  exact if_pos ⟨(s.clockRuns_at t).trans hruns, (s.get_at t _ _).trans hfabric, (s.lateAt_at t).trans hlate, fun h => hfree ((s.get_at t _ _).symm.trans h),
    (s.otherSource_at t).trans hother, (s.lowestModule_at t).trans hlowest⟩

theorem grandmasterElection_wins (hruns : s.clockRuns = true) (hfabric : s.get 0x2400 0 = 0) (hfree : s.get 0x2405 0 ≠ 1)
    (hlate : s.lateAt (s.at t).now = true) (hother : s.otherSource = false) (hlowest : s.lowestModule = true) (hform : s.canonical = true) :
    ∃ u, Sys2Proof.Machine.exec (.grandmasterElection t) s = .next u ∧ (
      u.obj 0x2405 0 = 3 ∧ u.obj 0x2406 0 = s.moduleNo ∧ u.obj 0x2407 0 = 0 ∧ u.clock = { (s.at t).clock with parent := none, lostAt := none } ∧
      Within [.clock, .dict] s u ∧ ObjsBut (fun i j => (i == 0x2405 || i == 0x2406 || i == 0x2407) && j == 0) s u) := by
  refine ⟨_, execGrandmasterElection_wins hruns hfabric hfree hlate hother hlowest, ?_⟩
  rw [← State.moduleNo_at s t]
  have hat := s.at_within t
  generalize s.at t = v at *
  have hdict : v.dict = s.dict := hat .dict (by decide)
  have hv : Sparse.wf objDefault v.dict = true := hdict ▸ State.dict_wf hform
  refine ⟨?_, ?_, State.obj_put (State.put_wf (State.put_wf hv)), rfl, ?_, ?_⟩
  · exact (State.obj_put_ne (by decide) (by decide) (by decide)).trans ((State.obj_put_ne (by decide) (by decide) (by decide)).trans (State.obj_put hv))
  · exact (State.obj_put_ne (by decide) (by decide) (by decide)).trans (State.obj_put (State.put_wf hv))
  · exact ((((hat.mono (by decide)).step (v.set_clock_within _) (by decide)).step (State.put_within _ _ _ _) (by decide)).step
      (State.put_within _ _ _ _) (by decide)).step (State.put_within _ _ _ _) (by decide)
  · refine (ObjsBut.of_dict hdict).trans ((((State.put_objsBut { v with clock := { v.clock with parent := none, lostAt := none } } 3
      (i := 0x2405) (j := 0)).mono ?_).trans ((State.put_objsBut _ _ (i := 0x2406) (j := 0)).mono ?_)).trans
      ((State.put_objsBut _ _ (i := 0x2407) (j := 0)).mono ?_))
    all_goals
      simp
      grind

theorem grandmasterElection_idle (h : s.clockRuns = false ∨ s.get 0x2400 0 ≠ 0 ∨ s.get 0x2405 0 = 1 ∨ s.lateAt (s.at t).now = false ∨
      s.otherSource = true ∨ s.lowestModule = false) :
    ∃ u, Sys2Proof.Machine.exec (.grandmasterElection t) s = .next u ∧ Within [.clock] s u := by
  refine ⟨s.at t, ?_, s.at_within t⟩
  change execGrandmasterElection t s = _
  unfold execGrandmasterElection
  refine if_neg ?_
  rintro ⟨hruns, hfabric, hlate, hfree, hother, hlowest⟩
  rcases h with h | h | h | h | h | h
  · exact Bool.false_ne_true (h.symm.trans ((s.clockRuns_at t).symm.trans hruns))
  · exact h ((s.get_at t _ _).symm.trans hfabric)
  · exact hfree ((s.get_at t _ _).trans h)
  · exact Bool.false_ne_true (h.symm.trans ((s.lateAt_at t).symm.trans hlate))
  · exact Bool.false_ne_true (hother.symm.trans ((s.otherSource_at t).trans h))
  · exact Bool.false_ne_true (h.symm.trans ((s.lowestModule_at t).symm.trans hlowest))

/-! ## Two sources at once -/

/-- The link state that the module floods rests on its number, its links and its clock source. -/
theorem State.ownLink_congr (hmfg : u.mfg = s.mfg) (hfab : u.fab = s.fab) (hsource : u.get 0x2400 0 = s.get 0x2400 0)
    (hget : ∀ i j, 0x7800 ≤ i → i < 0x7900 → j < 65536 → u.get i j = s.get i j) : u.ownLink = s.ownLink := by
  have hup : ∀ f ∈ linkPorts, u.portUp f = s.portUp f := fun f hf => by
    have hlow : f + 1 < 65536 := (by decide : ∀ f ∈ linkPorts, f + 1 < 65536) f hf
    rw [State.portUp, State.portState, hget 0x7810 _ (by decide) (by decide) hlow, State.portUp, State.portState]
  have hpeer : ∀ f ∈ linkPorts, u.peerOf f = s.peerOf f := fun f hf =>
    hget 0x7811 _ (by decide) (by decide) ((by decide : ∀ f ∈ linkPorts, f + 1 < 65536) f hf)
  have hneighbours : u.neighbours = s.neighbours := by
    rw [State.neighbours, State.neighbours, List.filter_congr hup]
    exact List.map_congr_left fun f hf => hpeer f (List.mem_filter.1 hf).1
  rw [State.ownLink, State.ownLink, hmfg, hfab, hsource, hneighbours, State.moduleNo, State.moduleNo, State.edgeNo, State.edgeNo,
    hget 0x7800 0 (by decide) (by decide) (by decide), hget 0x7802 0 (by decide) (by decide) (by decide)]

/-- The clock without a source of its own. -/
def State.sourceless (s : State) : State :=
  (((({ s.put 0x2400 0 0 with clock := { s.clock with parent := none, lostAt := none, ppsLocked := false, ppsBad := 0 } } : State).put 0x2405 0 0).put
    0x2407 0 0).put 0x2406 0 0xFFFF)

theorem State.setSource_fabric (s : State) : s.setSource 0 = s.sourceless.flood := rfl

/-- Objects of the clock source that a conflict writes. -/
def sourceObj (i j : Nat) : Bool := (i == 0x2400 || i == 0x2405 || i == 0x2406 || i == 0x2407) && j == 0

theorem State.sourceless_objsBut (s : State) : ObjsBut sourceObj s s.sourceless := by
  refine (((s.put_objsBut 0 (i := 0x2400) (j := 0)).mono ?_).trans ((State.put_objsBut _ 0 (i := 0x2405) (j := 0)).mono ?_)).trans
    (((State.put_objsBut _ 0 (i := 0x2407) (j := 0)).mono ?_).trans ((State.put_objsBut _ 0xFFFF (i := 0x2406) (j := 0)).mono ?_))
  all_goals
    simp [sourceObj]
    grind

theorem State.sourceless_objs (h : Sparse.wf objDefault s.dict = true) :
    s.sourceless.obj 0x2400 0 = 0 ∧ s.sourceless.obj 0x2405 0 = 0 ∧ s.sourceless.obj 0x2406 0 = 0xFFFF ∧ s.sourceless.obj 0x2407 0 = 0 ∧
      Sparse.wf objDefault s.sourceless.dict = true := by
  have h1 : Sparse.wf objDefault (s.put 0x2400 0 0).dict = true := State.put_wf h
  have h2 : Sparse.wf objDefault ((s.put 0x2400 0 0).put 0x2405 0 0).dict = true := State.put_wf h1
  have h3 : Sparse.wf objDefault (((s.put 0x2400 0 0).put 0x2405 0 0).put 0x2407 0 0).dict = true := State.put_wf h2
  refine ⟨?_, ?_, State.obj_put h3, ?_, State.put_wf h3⟩
  · exact (State.obj_put_ne (by decide) (by decide) (by decide)).trans ((State.obj_put_ne (by decide) (by decide) (by decide)).trans
      ((State.obj_put_ne (by decide) (by decide) (by decide)).trans (State.obj_put h)))
  · exact (State.obj_put_ne (by decide) (by decide) (by decide)).trans ((State.obj_put_ne (by decide) (by decide) (by decide)).trans
      (State.obj_put h1))
  · exact (State.obj_put_ne (by decide) (by decide) (by decide)).trans (State.obj_put h2)

theorem State.sourceless_within (s : State) : Within [.dict, .clock] s s.sourceless := by
  refine Within.step (u := { s.put 0x2400 0 0 with clock := { s.clock with parent := none, lostAt := none, ppsLocked := false, ppsBad := 0 } })
    (((s.put_within 0x2400 0 0).mono (by decide)).step (State.set_clock_within _ _) (by decide)) ?_ (List.Subset.refl _)
  exact (((State.put_within _ _ _ _).trans (State.put_within _ _ _ _)).trans (State.put_within _ _ _ _)).mono (by decide)

theorem isRuleObj_fabric {i : Nat} (hlow : 0x7800 ≤ i) (hhigh : i < 0x7900) (j : Nat) : isRuleObj i j = false := by
  simp only [isRuleObj, Bool.or_eq_false_iff, Bool.and_eq_false_iff, beq_eq_false_iff_ne, decide_eq_false_iff_not]
  omega

/-- An event takes nothing back that was sent. -/
theorem State.raise_out (s : State) (code i j : Nat) : s.out ⊆ (s.raise code i j).out := by
  unfold State.raise State.raiseC
  extract_lets seq second count ok _ v w
  have hw : s.out ⊆ w.out := by
    unfold w
    split
    · exact List.subset_cons_self _ _
    · exact List.Subset.refl _
  exact (State.logRecord_within w _ _ _ _ _ .out (by decide) : (w.logRecord _ _ _ _ _).out = w.out) ▸ hw

theorem sourceConflict_yields (hruns : s.clockRuns = true) (hsource : s.get 0x2400 0 ≠ 0) (hlower : other < s.moduleNo) (hform : s.canonical = true) :
    ∃ u, Sys2Proof.Machine.exec (.sourceConflict other t) s = .next u ∧ (
      u.obj 0x2400 0 = 0 ∧ u.obj 0x2405 0 = 0 ∧ u.obj 0x2406 0 = 0xFFFF ∧ u.obj 0x2407 0 = 0 ∧ u.obj 0x240A 0 = (s.obj 0x240A 0 + 1) % 2 ^ 64 ∧
      .linkState u.ownLink ∈ u.out ∧ Raised (Config.eventCode 3) 0x2400 0 s u ∧
      u.clock = { (s.at t).clock with parent := none, lostAt := none, ppsLocked := false, ppsBad := 0 } ∧
      Within [.clock, .dict, .mem, .memc, .obs, .odp, .out, .pwr] s u ∧
      Notes (fun i j => (i == 0x2400 || i == 0x2405 || i == 0x2406 || i == 0x2407 || i == 0x240A) && j == 0) s u) := by
  have hexec : Sys2Proof.Machine.exec (.sourceConflict other t) s =
      .next (((s.at t).sourceless.flood.bump 0x240A 0).raise (Config.eventCode 3) 0x2400 0) := by
    change execSourceConflict other t s = _
    unfold execSourceConflict
    exact if_pos ⟨(s.clockRuns_at t).trans hruns, fun h => hsource ((s.get_at t _ _).symm.trans h), (s.moduleNo_at t).symm ▸ hlower⟩
  refine ⟨_, hexec, ?_⟩
  have hat := s.at_within t
  generalize s.at t = v at *
  have hdict : v.dict = s.dict := hat .dict (by decide)
  obtain ⟨h1, h2, h3, h4, hform'⟩ := State.sourceless_objs (s := v) (hdict ▸ State.dict_wf hform)
  have hobjs := v.sourceless_objsBut
  have hvw : Within [.dict, .clock] v v.sourceless := v.sourceless_within
  have hclock : v.sourceless.clock = { v.clock with parent := none, lostAt := none, ppsLocked := false, ppsBad := 0 } := rfl
  generalize v.sourceless = x at *
  obtain ⟨y, hy⟩ : ∃ y, y = x.flood.bump 0x240A 0 := ⟨_, rfl⟩
  have hyform : Sparse.wf objDefault y.dict = true := hy ▸ State.put_wf hform'
  have hyobjs : ObjsBut (fun i j => i == 0x240A && j == 0) x y := hy ▸ (ObjsBut.of_dict rfl).trans x.flood.bump_objsBut
  have hxy : Within [.dict, .out] x y := hy ▸ (x.flood_within.mono (by decide)).step (State.bump_within _ _ _) (by decide)
  have hsy : Within [.clock, .dict, .out] s y := ((hat.mono (by decide)).step hvw (by decide)).step hxy (by decide)
  have hsyobjs : ObjsBut (fun i j => (i == 0x2400 || i == 0x2405 || i == 0x2406 || i == 0x2407 || i == 0x240A) && j == 0) s y := by
    refine ((ObjsBut.of_dict hdict).trans (hobjs.mono ?_)).trans (hyobjs.mono ?_)
    all_goals
      simp [sourceObj]
      grind
  obtain ⟨u, hu⟩ : ∃ u, u = y.raise (Config.eventCode 3) 0x2400 0 := ⟨_, rfl⟩
  have hnoted : Noted y u := hu ▸ y.raise_noted _ _ _
  have hyu : Within [.dict, .mem, .memc, .obs, .odp, .out] y u := hu ▸ y.raise_quiet _ _ _
  have hraised : Raised (Config.eventCode 3) 0x2400 0 y u := hu ▸ State.raise_raised hyform _ _ _
  rw [← hy, ← hu]
  have hread (i : Nat) (hi : noteObj i = false) (hne : i ≠ 0x240A) : u.obj i 0 = x.obj i 0 :=
    (hnoted.objs i 0 (by decide) hi).trans (hyobjs i 0 (by decide) (by simpa using hne))
  refine ⟨(hread 0x2400 rfl (by decide)).trans h1, (hread 0x2405 rfl (by decide)).trans h2, (hread 0x2406 rfl (by decide)).trans h3,
    (hread 0x2407 rfl (by decide)).trans h4, ?_, ?_, ?_, ?_, ?_, ?_⟩
  · refine (hnoted.objs 0x240A 0 (by decide) (by decide)).trans ((hy ▸ State.obj_bump (s := x.flood) hform' : y.obj 0x240A 0 = _).trans ?_)
    refine congrArg (fun n => (n + 1) % 2 ^ 64) ((hobjs 0x240A 0 (by decide) (by decide)).trans ?_)
    rw [State.obj, hdict, State.obj]
  · have hlink : u.ownLink = x.ownLink := by
      refine State.ownLink_congr (Eq.trans (hyu .mfg (by decide)) (hxy .mfg (by decide))) (Eq.trans (hyu .fab (by decide)) (hxy .fab (by decide))) ?_
        fun i j hlow hhigh hj => ?_
      · rw [State.get_of_dict (by decide), State.get_of_dict (by decide)]
        exact hread 0x2400 rfl (by decide)
      · have hnote : noteObj i = false := by
          simp only [noteObj, List.contains_eq_mem, List.mem_cons, List.not_mem_nil, or_false, decide_eq_false_iff_not]
          omega
        rw [State.get_of_dict (isRuleObj_fabric hlow hhigh j), State.get_of_dict (isRuleObj_fabric hlow hhigh j)]
        exact (hnoted.objs i j hj hnote).trans (hyobjs i j hj (by simp; omega))
    rw [hlink]
    exact hu ▸ State.raise_out _ _ _ _ (hy ▸ List.mem_cons_self)
  · exact hraised.after (congrArg Odp.eventSeq (hsy .odp (by decide))) (hsyobjs _ _ (by decide) (by decide))
  · exact (Eq.trans (hyu .clock (by decide)) (hxy .clock (by decide))).trans hclock
  · exact (hsy.mono (by decide)).step hyu (by decide)
  · exact (hsy.notes hsyobjs).trans (LogKept.of_objs hsyobjs fun _ => hyform) (hnoted.notes _)

theorem sourceConflict_idle (h : s.clockRuns = false ∨ s.get 0x2400 0 = 0 ∨ s.moduleNo ≤ other) :
    ∃ u, Sys2Proof.Machine.exec (.sourceConflict other t) s = .next u ∧ Within [.clock] s u := by
  refine ⟨s.at t, ?_, s.at_within t⟩
  change execSourceConflict other t s = _
  unfold execSourceConflict
  refine if_neg ?_
  rintro ⟨hruns, hsource, hlower⟩
  rcases h with h | h | h
  · exact Bool.false_ne_true (h.symm.trans ((s.clockRuns_at t).symm.trans hruns))
  · exact hsource ((s.get_at t _ _).trans h)
  · exact Nat.not_lt_of_le h ((s.moduleNo_at t) ▸ hlower)

end

/-- Settles O43, clause by clause. -/
theorem houseClockCommands : Obligations.HouseClockCommands := by
  unfold Obligations.HouseClockCommands
  exact ⟨fun s f offset hops grandmaster t hruns hup hfabric hother hbetter hfar hform =>
      timestampExchange_step hruns hup hfabric hother hbetter hfar hform,
    fun s f offset hops grandmaster t hruns hup hfabric hother hbetter hnear hform =>
      timestampExchange_slew hruns hup hfabric hother hbetter hnear hform,
    fun s f offset hops grandmaster t h => timestampExchange_ignored h,
    fun s t hruns hfabric hserved hlost hform => holdover_lost hruns hfabric hserved hlost hform, fun s t h => holdover_idle h,
    fun s t hruns hfabric hfree hlate hother hlowest hform => grandmasterElection_wins hruns hfabric hfree hlate hother hlowest hform,
    fun s t h => grandmasterElection_idle h,
    fun s other t hruns hsource hlower hform => sourceConflict_yields hruns hsource hlower hform,
    fun s other t h => sourceConflict_idle h⟩

end Sys2Proof.Machine

/-! O10: the management links and the frames of the ring (R353 to R358). -/

namespace Sys2Proof.Machine

set_option Elab.async false

open Sys2Proof.Bits

section
variable {s u : State} {t rate : Nat} {i : Fin 2} {f : RingFrame}

theorem State.mgmtLink_at (s : State) (t i : Nat) : (s.at t).mgmtLink i = s.mgmtLink i := by
  obtain ⟨c, hc⟩ := s.at_eq t
  rw [hc]
  rfl

theorem State.setMgmtLink_within (s : State) (i : Nat) (b : Bool) : Within [.mgmt] s (s.setMgmtLink i b) :=
  .ite (s.set_mgmt_within _) (s.set_mgmt_within _)

theorem State.setMgmtLink_mgmt (h : u.mgmt = s.mgmt) (i : Nat) (b : Bool) : (u.setMgmtLink i b).mgmt = (s.setMgmtLink i b).mgmt := by
  unfold State.setMgmtLink
  split
  · exact congrArg (fun m : Mgmt => { m with link0 := b }) h
  · exact congrArg (fun m : Mgmt => { m with link1 := b }) h

/-- The other port keeps its link. -/
theorem State.setMgmtLink_other (s : State) (i : Fin 2) (b : Bool) : (s.setMgmtLink i.val b).mgmtLink (1 - i.val) = s.mgmtLink (1 - i.val) := by
  match i with
  | 0 => rfl
  | 1 => rfl

theorem State.setMgmtLink_joined (s : State) (i : Nat) (b : Bool) : (s.setMgmtLink i b).mgmt.joined = s.mgmt.joined := by
  unfold State.setMgmtLink
  split <;> rfl

theorem State.mgmtLink_congr (h : u.mgmt = s.mgmt) (i : Nat) : u.mgmtLink i = s.mgmtLink i := by
  rw [State.mgmtLink, State.mgmtLink, h]

/-! ## Link down -/

/-- A port taken down. -/
def State.portDown (s : State) (i : Nat) : State := (s.setMgmtLink i false).put 0x1801 (i + 1) 0

theorem State.portDown_within (s : State) (i : Nat) : Within [.mgmt, .dict] s (s.portDown i) :=
  ((s.setMgmtLink_within i false).mono (by decide)).step (State.put_within _ _ _ _) (by decide)

theorem State.portDown_objsBut (s : State) (i : Fin 2) : ObjsBut (fun k j => k == 0x1801 && j == i.val + 1) s (s.portDown i.val) :=
  (ObjsBut.of_dict (s.setMgmtLink_within i.val false .dict (by decide))).trans (State.put_objsBut _ 0 (by omega))

theorem execMgmtLinkDown_eq (hup : s.mgmtLink i.val = true) : Sys2Proof.Machine.exec (.mgmtLinkDown i t) s =
    .next (if s.mgmt.joined then
      (if s.mgmtLink (1 - i.val) then ((s.at t).portDown i.val).bump 0x181B 0 else (s.at t).portDown i.val).errorRecord
        { cls := 0x33, uKind := 8, unit := i.val, detail := [] }
    else (s.at t).portDown i.val) := by
  have hmgmt : (s.at t).mgmt = s.mgmt := s.at_within t .mgmt (by decide)
  have hjoined : ((s.at t).portDown i.val).mgmt.joined = s.mgmt.joined := ((s.at t).setMgmtLink_joined i.val false).trans (congrArg Mgmt.joined hmgmt)
  have hother : ((s.at t).portDown i.val).mgmtLink (1 - i.val) = s.mgmtLink (1 - i.val) :=
    ((s.at t).setMgmtLink_other i false).trans (State.mgmtLink_congr hmgmt _)
  change execMgmtLinkDown i t s = _
  unfold execMgmtLinkDown
  refine (if_pos ((State.mgmtLink_congr hmgmt _).trans hup)).trans ?_
  rw [← hjoined, ← hother]
  exact (apply_ite Host.Outcome.next _ _ _).symm

theorem mgmtLinkDown_broken (hform : s.canonical = true) (hup : s.mgmtLink i.val = true) (hjoined : s.mgmt.joined = true) :
    ∃ u, Sys2Proof.Machine.exec (.mgmtLinkDown i t) s = .next u ∧ (
      u.mgmt = (s.setMgmtLink i.val false).mgmt ∧ u.mgmtLink (1 - i.val) = s.mgmtLink (1 - i.val) ∧ u.obj 0x1801 (i.val + 1) = 0 ∧
      u.obj 0x181B 0 = (if s.mgmtLink (1 - i.val) then (s.obj 0x181B 0 + 1) % 2 ^ 64 else s.obj 0x181B 0) ∧ Reported 0x33 s u ∧
      Within [.mgmt, .dict, .clock, .pwr, .mem, .memc, .obs, .odp, .out, .flash, .rel, .free] s u ∧
      Notes (fun k j => (k == 0x1801 && j == i.val + 1) || (k == 0x181B && j == 0)) s u) := by
  have hat := s.at_within t
  have hdict : (s.at t).dict = s.dict := hat .dict (by decide)
  have hmgmt : (s.at t).mgmt = s.mgmt := hat .mgmt (by decide)
  obtain ⟨x, hx⟩ : ∃ x, x = (s.at t).portDown i.val := ⟨_, rfl⟩
  obtain ⟨y, hy⟩ : ∃ y, y = if s.mgmtLink (1 - i.val) then x.bump 0x181B 0 else x := ⟨_, rfl⟩
  have hexec := execMgmtLinkDown_eq (t := t) hup
  rw [if_pos hjoined, ← hx, ← hy] at hexec
  refine ⟨_, hexec, ?_⟩
  have hsx : Within [.mgmt, .dict, .clock] s x := hx ▸ (hat.mono (by decide)).step (State.portDown_within _ _) (by decide)
  have hxform : Sparse.wf objDefault x.dict = true := by
    rw [hx]
    refine State.put_wf ?_
    rw [show ((s.at t).setMgmtLink i.val false).dict = (s.at t).dict from State.setMgmtLink_within _ _ _ .dict (by decide), hdict]
    exact State.dict_wf hform
  have hxzero : x.obj 0x1801 (i.val + 1) = 0 := by
    rw [hx]
    refine State.obj_put ?_
    rw [show ((s.at t).setMgmtLink i.val false).dict = (s.at t).dict from State.setMgmtLink_within _ _ _ .dict (by decide), hdict]
    exact State.dict_wf hform
  have hxobjs : ObjsBut (fun k j => k == 0x1801 && j == i.val + 1) s x := hx ▸ (ObjsBut.of_dict hdict).trans ((s.at t).portDown_objsBut i)
  have hxy : Within [.dict] x y := hy ▸ .ite (x.bump_within _ _) (.refl _ x)
  have hyform : Sparse.wf objDefault y.dict = true := by
    rw [hy]
    split
    · exact State.put_wf hxform
    · exact hxform
  have hxyobjs : ObjsBut (fun k j => k == 0x181B && j == 0) x y := by
    rw [hy]
    split
    · exact x.bump_objsBut
    · exact .refl _ x
  have hcount : y.obj 0x181B 0 = if s.mgmtLink (1 - i.val) then (s.obj 0x181B 0 + 1) % 2 ^ 64 else s.obj 0x181B 0 := by
    have hxcount := hxobjs 0x181B 0 (by decide) rfl
    rw [hy]
    split
    · exact (State.obj_bump hxform).trans (by rw [hxcount])
    · exact hxcount
  obtain ⟨e, he⟩ : ∃ e : ErrInfo, e = { cls := 0x33, uKind := 8, unit := i.val, detail := [] } := ⟨_, rfl⟩
  have hcls : e.cls = 0x33 := he ▸ rfl
  rw [← he]
  have herror := y.errorRecord_within e
  have hnoted := y.errorRecord_noted (e := e) (hcls ▸ by decide)
  have hreported := hcls ▸ State.errorRecord_reported hyform (e := e) (hcls ▸ by decide)
  have hsy : Within [.mgmt, .dict, .clock] s y := hsx.step hxy (by decide)
  have hsyobjs : ObjsBut (fun k j => (k == 0x1801 && j == i.val + 1) || (k == 0x181B && j == 0)) s y :=
    (hxobjs.mono fun k j h => (Bool.or_eq_false_iff.1 h).1).trans (hxyobjs.mono fun k j h => (Bool.or_eq_false_iff.1 h).2)
  have humgmt : (y.errorRecord e).mgmt = (s.setMgmtLink i.val false).mgmt :=
    Eq.trans (herror .mgmt (by decide)) (Eq.trans (hxy .mgmt (by decide)) (hx ▸ State.setMgmtLink_mgmt hmgmt _ _))
  refine ⟨humgmt, (State.mgmtLink_congr humgmt _).trans (s.setMgmtLink_other i false), ?_, ?_, ?_, ?_, ?_⟩
  · exact (hnoted.objs _ _ (by omega) rfl).trans ((hxyobjs _ _ (by omega) rfl).trans hxzero)
  · exact (hnoted.objs _ _ (by decide) (by decide)).trans hcount
  · exact hreported.after (hsy .flash (by decide)) (hsy .odp (by decide)) (hsyobjs _ _ (by decide) rfl)
  · exact (hsy.mono (by decide)).step herror (by decide)
  · exact (hsy.notes hsyobjs).trans (LogKept.of_objs hsyobjs (fun _ => hyform) rfl rfl rfl) (hnoted.notes _)

theorem mgmtLinkDown_alone (hform : s.canonical = true) (hup : s.mgmtLink i.val = true) (hjoined : s.mgmt.joined = false) :
    ∃ u, Sys2Proof.Machine.exec (.mgmtLinkDown i t) s = .next u ∧ (
      u.mgmt = (s.setMgmtLink i.val false).mgmt ∧ u.obj 0x1801 (i.val + 1) = 0 ∧ Within [.mgmt, .dict, .clock] s u ∧
      ObjsBut (fun k j => k == 0x1801 && j == i.val + 1) s u) := by
  have hat := s.at_within t
  have hexec := execMgmtLinkDown_eq (t := t) hup
  rw [hjoined, if_neg Bool.false_ne_true] at hexec
  have hdict : ((s.at t).setMgmtLink i.val false).dict = s.dict := Eq.trans (State.setMgmtLink_within _ _ _ .dict (by decide)) (hat .dict (by decide))
  refine ⟨_, hexec, State.setMgmtLink_mgmt (hat .mgmt (by decide)) _ _, State.obj_put (hdict ▸ State.dict_wf hform),
    (hat.mono (by decide)).step (State.portDown_within _ _) (by decide), (ObjsBut.of_dict (hat .dict (by decide))).trans ((s.at t).portDown_objsBut i)⟩

theorem mgmtLinkDown_down (hdown : s.mgmtLink i.val = false) :
    ∃ u, Sys2Proof.Machine.exec (.mgmtLinkDown i t) s = .next u ∧ Within [.clock] s u := by
  refine ⟨s.at t, ?_, s.at_within t⟩
  change execMgmtLinkDown i t s = _
  unfold execMgmtLinkDown
  exact if_neg (by rw [State.mgmtLink_at, hdown]; decide)

/-! ## Link up -/

/-- A port brought up, the module on the ring. -/
def State.portRises (s : State) (i rate : Nat) : State :=
  let x := (s.setMgmtLink i true).put 0x1801 (i + 1) rate
  { x with mgmt := { x.mgmt with joined := true, joinStart := none } }

theorem State.portRises_within (s : State) (i rate : Nat) : Within [.mgmt, .dict] s (s.portRises i rate) :=
  (((s.setMgmtLink_within i true).mono (by decide)).step (State.put_within _ _ _ _) (by decide)).step (State.set_mgmt_within _ _) (by decide)

theorem State.portRises_objsBut (s : State) (i : Fin 2) (rate : Nat) :
    ObjsBut (fun k j => k == 0x1801 && j == i.val + 1) s (s.portRises i.val rate) :=
  ((ObjsBut.of_dict (s.setMgmtLink_within i.val true .dict (by decide))).trans
    ((s.setMgmtLink i.val true).put_objsBut rate (i := 0x1801) (j := i.val + 1) (by omega))).trans (.of_dict rfl)

theorem State.portRises_mgmt (h : u.mgmt = s.mgmt) (i rate : Nat) :
    (u.portRises i rate).mgmt = { (s.setMgmtLink i true).mgmt with joined := true, joinStart := none } :=
  congrArg (fun m : Mgmt => { m with joined := true, joinStart := none }) (State.setMgmtLink_mgmt h i true)

theorem State.portRises_form {i rate : Nat} (h : Sparse.wf objDefault s.dict = true) :
    Sparse.wf objDefault (s.portRises i rate).dict = true ∧ (s.portRises i rate).obj 0x1801 (i + 1) = rate := by
  have hset : Sparse.wf objDefault (s.setMgmtLink i true).dict = true := (s.setMgmtLink_within i true .dict (by decide) : _ = s.dict) ▸ h
  exact ⟨State.put_wf hset, State.obj_put hset⟩

theorem State.rateFits_at (s : State) (t i rate : Nat) : (s.at t).rateFits i rate = s.rateFits i rate := by
  rw [State.rateFits, State.rateFits, State.get_at]

theorem execMgmtLinkUp_eq (hopen : s.pwr.gateRing = true) (hdown : s.mgmtLink i.val = false) (hrate : s.rateFits i.val rate = true) :
    Sys2Proof.Machine.exec (.mgmtLinkUp i rate t) s = .next (if s.mgmt.joined then
      ((s.at t).portRises i.val rate).raise (Config.eventCode 1) 0x1802 0 else (s.at t).portRises i.val rate) := by
  have hmgmt : (s.at t).mgmt = s.mgmt := s.at_within t .mgmt (by decide)
  have hpwr : (s.at t).pwr = s.pwr := s.at_within t .pwr (by decide)
  have hcond : ¬((s.at t).pwr.gateRing = false ∨ (s.at t).mgmtLink i.val = true ∨ (s.at t).rateFits i.val rate = false) := by
    rw [hpwr, State.mgmtLink_at, State.rateFits_at]
    simp [hopen, hdown, hrate]
  change execMgmtLinkUp i rate t s = _
  unfold execMgmtLinkUp
  refine (if_neg hcond).trans ?_
  rw [← hmgmt]
  exact (apply_ite Host.Outcome.next _ _ _).symm

theorem mgmtLinkUp_restored (hform : s.canonical = true) (hopen : s.pwr.gateRing = true) (hdown : s.mgmtLink i.val = false)
    (hrate : s.rateFits i.val rate = true) (hjoined : s.mgmt.joined = true) :
    ∃ u, Sys2Proof.Machine.exec (.mgmtLinkUp i rate t) s = .next u ∧ (
      u.mgmt = { (s.setMgmtLink i.val true).mgmt with joinStart := none } ∧ u.mgmtLink (1 - i.val) = s.mgmtLink (1 - i.val) ∧
      u.obj 0x1801 (i.val + 1) = rate ∧ Raised (Config.eventCode 1) 0x1802 0 s u ∧
      Within [.mgmt, .dict, .clock, .mem, .memc, .obs, .odp, .out] s u ∧ Notes (fun k j => k == 0x1801 && j == i.val + 1) s u) := by
  have hat := s.at_within t
  have hexec := execMgmtLinkUp_eq (t := t) hopen hdown hrate
  rw [if_pos hjoined] at hexec
  refine ⟨_, hexec, ?_⟩
  obtain ⟨hxform, hxrate⟩ := State.portRises_form (i := i.val) (rate := rate)
    ((hat .dict (by decide) : (s.at t).dict = s.dict) ▸ State.dict_wf hform : Sparse.wf objDefault (s.at t).dict = true)
  have hsx : Within [.mgmt, .dict, .clock] s ((s.at t).portRises i.val rate) := (hat.mono (by decide)).step (State.portRises_within _ _ _) (by decide)
  have hxobjs : ObjsBut (fun k j => k == 0x1801 && j == i.val + 1) s ((s.at t).portRises i.val rate) :=
    (ObjsBut.of_dict (hat .dict (by decide))).trans ((s.at t).portRises_objsBut i rate)
  have hxmgmt := State.portRises_mgmt (hat .mgmt (by decide) : (s.at t).mgmt = s.mgmt) i.val rate
  generalize (s.at t).portRises i.val rate = x at *
  have hnoted := x.raise_noted (Config.eventCode 1) 0x1802 0
  have hquiet := x.raise_quiet (Config.eventCode 1) 0x1802 0
  have hraised := State.raise_raised hxform (Config.eventCode 1) 0x1802 0
  generalize x.raise (Config.eventCode 1) 0x1802 0 = u at *
  have hmgmt : u.mgmt = { (s.setMgmtLink i.val true).mgmt with joinStart := none } := by
    have hset : (s.setMgmtLink i.val true).mgmt.joined = true := (s.setMgmtLink_joined _ _).trans hjoined
    refine (Eq.trans (hquiet .mgmt (by decide)) hxmgmt).trans ?_
    generalize (s.setMgmtLink i.val true).mgmt = m at hset
    exact congrArg (fun b => { m with joined := b, joinStart := none }) hset.symm
  refine ⟨hmgmt, ?_, (hnoted.objs _ _ (by omega) rfl).trans hxrate, ?_, (hsx.mono (by decide)).step hquiet (by decide), ?_⟩
  · refine Eq.trans ?_ (s.setMgmtLink_other i true)
    rw [State.mgmtLink, hmgmt]
    rfl
  · exact hraised.after (congrArg Odp.eventSeq (hsx .odp (by decide))) (hxobjs _ _ (by decide) rfl)
  · exact (hsx.notes hxobjs).trans (LogKept.of_objs hxobjs (fun _ => hxform) rfl rfl rfl) (hnoted.notes _)

theorem mgmtLinkUp_joins (hform : s.canonical = true) (hopen : s.pwr.gateRing = true) (hdown : s.mgmtLink i.val = false)
    (hrate : s.rateFits i.val rate = true) (hjoined : s.mgmt.joined = false) :
    ∃ u, Sys2Proof.Machine.exec (.mgmtLinkUp i rate t) s = .next u ∧ (
      u.mgmt = { (s.setMgmtLink i.val true).mgmt with joined := true, joinStart := none } ∧ u.obj 0x1801 (i.val + 1) = rate ∧
      Within [.mgmt, .dict, .clock] s u ∧ ObjsBut (fun k j => k == 0x1801 && j == i.val + 1) s u) := by
  have hat := s.at_within t
  have hexec := execMgmtLinkUp_eq (t := t) hopen hdown hrate
  rw [hjoined, if_neg Bool.false_ne_true] at hexec
  obtain ⟨-, hxrate⟩ := State.portRises_form (i := i.val) (rate := rate)
    ((hat .dict (by decide) : (s.at t).dict = s.dict) ▸ State.dict_wf hform : Sparse.wf objDefault (s.at t).dict = true)
  exact ⟨_, hexec, State.portRises_mgmt (hat .mgmt (by decide)) _ _, hxrate, (hat.mono (by decide)).step (State.portRises_within _ _ _) (by decide),
    (ObjsBut.of_dict (hat .dict (by decide))).trans ((s.at t).portRises_objsBut i rate)⟩

theorem mgmtLinkUp_ignored (h : s.pwr.gateRing = false ∨ s.mgmtLink i.val = true ∨ s.rateFits i.val rate = false) :
    ∃ u, Sys2Proof.Machine.exec (.mgmtLinkUp i rate t) s = .next u ∧ Within [.clock] s u := by
  refine ⟨s.at t, ?_, s.at_within t⟩
  have hpwr : (s.at t).pwr = s.pwr := s.at_within t .pwr (by decide)
  change execMgmtLinkUp i rate t s = _
  unfold execMgmtLinkUp
  refine if_pos ?_
  rw [hpwr, State.mgmtLink_at, State.rateFits_at]
  exact h

/-! ## Frames -/

theorem State.ringOut_congr (h : u.mgmt = s.mgmt) (i : Nat) : u.ringOut i = s.ringOut i := by
  rw [State.ringOut, State.ringOut, State.mgmtLink_congr h]

theorem State.ringOut_lt (s : State) (i : Fin 2) : s.ringOut i.val < 2 := by
  unfold State.ringOut
  split
  · omega
  · exact i.isLt

/-- The frame is of another source. -/
def State.foreign (s : State) (f : RingFrame) : Prop := f.source = 0 ∨ f.source ≠ s.get 0x1803 0

theorem State.foreign.not_own (h : s.foreign f) : ¬(f.source ≠ 0 ∧ f.source = s.get 0x1803 0) := fun ⟨hne, heq⟩ =>
  h.elim hne fun h => h heq

theorem State.forward_passes (hjoined : s.mgmt.joined = true) (hforeign : s.foreign f) (hhop : f.hop + 1 ≤ 1024) :
    s.forward i.val f = (s.emit (.ringFrame (s.ringOut i.val) { f with hop := f.hop + 1 })).bump 0x1810 (s.ringOut i.val + 1) := by
  unfold State.forward
  rw [if_neg (by rw [hjoined]; exact fun h => h.elim (by decide) hforeign.not_own), if_neg (by omega)]

theorem State.forward_discards (hjoined : s.mgmt.joined = true) (hforeign : s.foreign f) (hhop : 1024 ≤ f.hop) :
    s.forward i.val f = s.bump 0x1811 0 := by
  unfold State.forward
  rw [if_neg (by rw [hjoined]; exact fun h => h.elim (by decide) hforeign.not_own), if_pos (by omega)]

theorem State.forward_own (hne : f.source ≠ 0) (hown : f.source = s.get 0x1803 0) : s.forward i.val f = s := by
  unfold State.forward
  exact if_pos (.inr ⟨hne, hown⟩)

theorem execRingFrameReceived_eq (hjoined : s.mgmt.joined = true) (hup : s.mgmtLink i.val = true) :
    Sys2Proof.Machine.exec (.ringFrameReceived i f t) s = .next (if f.ethertype = 0x88B5 ∨ f.ethertype = 0x86DD then
      (if f.ethertype = 0x88B5 ∧ f.kind = 2 ∧ f.hop + 1 ≤ 1024 then (s.at t).takePosition f else s.at t).forward i.val f else s.at t) := by
  have hmgmt : (s.at t).mgmt = s.mgmt := s.at_within t .mgmt (by decide)
  change execRingFrameReceived i f t s = _
  unfold execRingFrameReceived
  refine (if_neg ?_).trans (apply_ite Host.Outcome.next _ _ _).symm
  rw [hmgmt, State.mgmtLink_at, hjoined, hup]
  decide

theorem State.foreign_at (h : s.foreign f) : (s.at t).foreign f := by
  unfold State.foreign
  rw [State.get_at]
  exact h

theorem ringFrameReceived_passes (hform : s.canonical = true) (hjoined : s.mgmt.joined = true) (hup : s.mgmtLink i.val = true)
    (htype : f.ethertype = 0x88B5 ∨ f.ethertype = 0x86DD) (hkind : f.kind ≠ 2) (hhop : f.hop + 1 ≤ 1024) (hforeign : s.foreign f) :
    ∃ u, Sys2Proof.Machine.exec (.ringFrameReceived i f t) s = .next u ∧ (
      u.out = .ringFrame (s.ringOut i.val) { f with hop := f.hop + 1 } :: s.out ∧
      u.obj 0x1810 (s.ringOut i.val + 1) = (s.obj 0x1810 (s.ringOut i.val + 1) + 1) % 2 ^ 64 ∧ Within [.out, .dict, .clock] s u ∧
      ObjsBut (fun k j => k == 0x1810 && j == s.ringOut i.val + 1) s u) := by
  have hat := s.at_within t
  have hmgmt : (s.at t).mgmt = s.mgmt := hat .mgmt (by decide)
  have hdict : (s.at t).dict = s.dict := hat .dict (by decide)
  have hexec := execRingFrameReceived_eq (t := t) (f := f) hjoined hup
  rw [if_pos htype, if_neg fun h => hkind h.2.1, State.forward_passes ((congrArg Mgmt.joined hmgmt).trans hjoined) (State.foreign_at hforeign) hhop,
    State.ringOut_congr hmgmt] at hexec
  have hlow := s.ringOut_lt i
  refine ⟨_, hexec, ?_, ?_, ?_, ?_⟩
  · exact congrArg (List.cons _) (hat .out (by decide))
  · refine (State.obj_bump (s := (s.at t).emit _) (hdict ▸ State.dict_wf hform)).trans ?_
    exact congrArg (fun d => (Sparse.read objDefault d (objKey 0x1810 (s.ringOut i.val + 1)) + 1) % 2 ^ 64) hdict
  · exact ((hat.mono (by decide)).step (State.emit_within _ _) (by decide)).step (State.bump_within _ _ _) (by decide)
  · exact (ObjsBut.of_dict hdict).trans (State.bump_objsBut ((s.at t).emit _) (by omega))

theorem ringFrameReceived_discards (hform : s.canonical = true) (hjoined : s.mgmt.joined = true) (hup : s.mgmtLink i.val = true)
    (htype : f.ethertype = 0x88B5 ∨ f.ethertype = 0x86DD) (hhop : 1024 ≤ f.hop) (hforeign : s.foreign f) :
    ∃ u, Sys2Proof.Machine.exec (.ringFrameReceived i f t) s = .next u ∧ (
      u.obj 0x1811 0 = (s.obj 0x1811 0 + 1) % 2 ^ 64 ∧ Within [.dict, .clock] s u ∧ ObjsBut (fun k j => k == 0x1811 && j == 0) s u) := by
  have hat := s.at_within t
  have hmgmt : (s.at t).mgmt = s.mgmt := hat .mgmt (by decide)
  have hdict : (s.at t).dict = s.dict := hat .dict (by decide)
  have hexec := execRingFrameReceived_eq (t := t) (f := f) hjoined hup
  rw [if_pos htype, if_neg fun h => by omega, State.forward_discards ((congrArg Mgmt.joined hmgmt).trans hjoined) (State.foreign_at hforeign) hhop] at hexec
  refine ⟨_, hexec, ?_, (hat.mono (by decide)).step (State.bump_within _ _ _) (by decide), (ObjsBut.of_dict hdict).trans (State.bump_objsBut _)⟩
  refine (State.obj_bump (hdict ▸ State.dict_wf hform)).trans ?_
  exact congrArg (fun d => (Sparse.read objDefault d (objKey 0x1811 0) + 1) % 2 ^ 64) hdict

/-- The ring position of an eastbound status frame (R358). -/
theorem ringFrameReceived_position (hform : s.canonical = true) (hjoined : s.mgmt.joined = true) (hup : s.mgmtLink i.val = true)
    (htype : f.ethertype = 0x88B5) (hkind : f.kind = 2) (hhop : f.hop + 1 ≤ 1024) (heast : f.west = false)
    (hnew : s.mgmt.posEast ≠ some f.sequence) (hforeign : s.foreign f) :
    ∃ u, Sys2Proof.Machine.exec (.ringFrameReceived i f t) s = .next u ∧ (
      u.obj 0x1804 0 = f.hop + 1 ∧ u.mgmt = { s.mgmt with posSeen := some f.sequence, posEast := some f.sequence } ∧
      u.out = .ringFrame (s.ringOut i.val) { f with hop := f.hop + 1 } :: s.out ∧ Within [.mgmt, .out, .dict, .clock] s u ∧
      ObjsBut (fun k j => (k == 0x1804 && j == 0) || (k == 0x1810 && j == s.ringOut i.val + 1)) s u) := by
  have hat := s.at_within t
  have hmgmt : (s.at t).mgmt = s.mgmt := hat .mgmt (by decide)
  have hdict : (s.at t).dict = s.dict := hat .dict (by decide)
  obtain ⟨y, hy⟩ : ∃ y : State, y = { s.at t with mgmt := { (s.at t).mgmt with posSeen := some f.sequence, posEast := some f.sequence } } := ⟨_, rfl⟩
  have htake : (s.at t).takePosition f = y.put 0x1804 0 (f.hop + 1) := by
    unfold State.takePosition
    rw [if_neg (by rw [heast]; decide), if_neg (by rw [hmgmt]; exact hnew), hy]
  have hymgmt : y.mgmt = { s.mgmt with posSeen := some f.sequence, posEast := some f.sequence } := by
    rw [hy]
    exact congrArg (fun m : Mgmt => { m with posSeen := some f.sequence, posEast := some f.sequence }) hmgmt
  have hsy : Within [.mgmt, .clock] s y := hy ▸ (hat.mono (by decide)).step (State.set_mgmt_within _ _) (by decide)
  have hydict : y.dict = s.dict := hsy .dict (by decide)
  obtain ⟨x, hx⟩ : ∃ x, x = y.put 0x1804 0 (f.hop + 1) := ⟨_, rfl⟩
  have hxmgmt : x.mgmt = y.mgmt := hx ▸ rfl
  have hout : x.ringOut i.val = s.ringOut i.val := by
    rw [State.ringOut, State.mgmtLink, hxmgmt, hymgmt]
    rfl
  have hxforeign : x.foreign f := by
    unfold State.foreign
    rw [hx, State.get_put_ne (by decide), State.get_of_dict_eq hydict]
    exact hforeign
  have hexec := execRingFrameReceived_eq (t := t) (f := f) hjoined hup
  rw [if_pos (.inl htype), if_pos ⟨htype, hkind, hhop⟩, htake, ← hx,
    State.forward_passes (by rw [hxmgmt, hymgmt]; exact hjoined) hxforeign hhop, hout] at hexec
  have hlow := s.ringOut_lt i
  refine ⟨_, hexec, ?_, ?_, ?_, ?_, ?_⟩
  · refine (State.obj_put_ne (by decide) (by omega) (fun h => absurd h.1 (by decide))).trans ?_
    exact hx ▸ State.obj_put (hydict ▸ State.dict_wf hform)
  · exact hxmgmt.trans hymgmt
  · exact congrArg (List.cons _) (hx ▸ hsy .out (by decide))
  · exact (((hsy.mono (by decide)).step (hx ▸ y.put_within _ _ _ : Within [.dict] y x) (by decide)).step (State.emit_within _ _) (by decide)).step
      (State.bump_within _ _ _) (by decide)
  · refine ((ObjsBut.of_dict hydict).trans ((hx ▸ y.put_objsBut _ : ObjsBut (fun a b => a == 0x1804 && b == 0) y x).mono fun a b h =>
      (Bool.or_eq_false_iff.1 h).1)).trans ?_
    exact (State.bump_objsBut (x.emit _) (by omega)).mono fun a b h => (Bool.or_eq_false_iff.1 h).2

theorem ringFrameReceived_ignored (h : s.mgmt.joined = false ∨ s.mgmtLink i.val = false ∨ (f.kind ≠ 2 ∧ f.source ≠ 0 ∧ f.source = s.get 0x1803 0)) :
    ∃ u, Sys2Proof.Machine.exec (.ringFrameReceived i f t) s = .next u ∧ Within [.clock] s u := by
  refine ⟨s.at t, ?_, s.at_within t⟩
  by_cases hserves : s.mgmt.joined = true ∧ s.mgmtLink i.val = true
  · obtain ⟨hjoined, hup⟩ := hserves
    obtain ⟨hkind, hne, hown⟩ := (h.resolve_left (by simp [hjoined])).resolve_left (by simp [hup])
    rw [execRingFrameReceived_eq hjoined hup]
    refine congrArg Host.Outcome.next (Eq.trans (ite_congr rfl (fun _ => ?_) fun _ => rfl) (ite_self _))
    rw [if_neg fun h => hkind h.2.1]
    exact State.forward_own hne (hown.trans (State.get_at _ _ _ _).symm)
  · have hmgmt : (s.at t).mgmt = s.mgmt := s.at_within t .mgmt (by decide)
    change execRingFrameReceived i f t s = _
    unfold execRingFrameReceived
    refine if_pos ?_
    rw [hmgmt, State.mgmtLink_at]
    simpa [Classical.or_iff_not_imp_left] using hserves

end

/-- Settles O10, clause by clause. -/
theorem ringLinkCommands : Obligations.RingLinkCommands := by
  unfold Obligations.RingLinkCommands
  exact ⟨fun s i t hform hup hjoined => mgmtLinkDown_broken hform hup hjoined, fun s i t hform hup hjoined => mgmtLinkDown_alone hform hup hjoined,
    fun s i t hdown => mgmtLinkDown_down hdown,
    fun s i rate t hform hopen hdown hrate hjoined => mgmtLinkUp_restored hform hopen hdown hrate hjoined,
    fun s i rate t hform hopen hdown hrate hjoined => mgmtLinkUp_joins hform hopen hdown hrate hjoined,
    fun s i rate t h => mgmtLinkUp_ignored h,
    fun s i f t hform hjoined hup htype hkind hhop hforeign => ringFrameReceived_passes hform hjoined hup htype hkind hhop hforeign,
    fun s i f t hform hjoined hup htype hhop hforeign => ringFrameReceived_discards hform hjoined hup htype hhop hforeign,
    fun s i f t hform hjoined hup htype hkind hhop heast hnew hforeign =>
      ringFrameReceived_position hform hjoined hup htype hkind hhop heast hnew hforeign,
    fun s i f t h => ringFrameReceived_ignored h⟩

end Sys2Proof.Machine

/-! O11: a conflict event that is suppressed, in a dictionary whose counter of them is listed twice. -/

namespace Sys2Proof.Machine

set_option Elab.async false

open Sys2Proof.Bits

/-- A ring master in RESET on the ring, whose dictionary lists the count of suppressed events twice: at its highest value, then as 5. -/
def doubledCount : State :=
  { State.reset with
    dict := [(objKey 0x1805 0, 1), (objKey 0x1816 0, 2 ^ 64 - 1), (objKey 0x1816 0, 5)]
    mgmt := { State.reset.mgmt with joined := true, link0 := true } }

/-- A cycle frame of another master. -/
def otherFrame : RingFrame :=
  { ethertype := 0x88B5, gen := 2, kind := 1, west := false, hop := 0, source := 1, sequence := 0, index := 0, body := natLe 8 1 }

/-- The state that the frame leaves. -/
def doubledAfter : State :=
  let v := (doubledCount.at 0).masterConflict 1
  let w := v.takePosition otherFrame
  let x := ({ w with mgmt := { w.mgmt with cycle := ⟨0, 1, 0⟩, seen := [] } } : State).bump 0x1818 0
  ({ x with mgmt := { x.mgmt with seen := [0] } } : State).forward 0 { otherFrame with body := patch otherFrame.body 16 x.outSlot }

theorem exec_doubledCount : Sys2Proof.Machine.exec (.cycleFrameExchange 0 otherFrame 0) doubledCount = .next doubledAfter := by
  rfl

theorem doubledAfter_count : doubledAfter.obj 0x1816 0 = 5 := by
  decide

theorem doubledAfter_out : ∃ f, doubledAfter.out = [.ringFrame 0 f] := ⟨_, rfl⟩

/-- Refutes O11: the clause of the ring master that hears another asks no canonical dictionary, and a counter listed twice does not
advance. -/
theorem not_cycleFrames : ¬ Obligations.CycleFrames := by
  unfold Obligations.CycleFrames
  rintro ⟨-, -, -, -, -, -, hmaster⟩
  obtain ⟨u, hu, ⟨-, hsent⟩, -⟩ := hmaster doubledCount 0 otherFrame 0 rfl rfl (by decide) rfl (by decide) rfl rfl (by decide) rfl
  obtain rfl : doubledAfter = u := by injection exec_doubledCount.symm.trans hu
  rcases hsent with hsent | hsent
  · obtain ⟨f, hf⟩ := doubledAfter_out
    rw [hf] at hsent
    simp at hsent
  · rw [doubledAfter_count] at hsent
    exact absurd hsent (by decide)

end Sys2Proof.Machine

/-! O12: the firmware marker of a cyclic commit whose id is traced drives EVT_OUT. -/

namespace Sys2Proof.Machine

set_option Elab.async false

/-- A module on the ring whose committed cyclic group waits, firmware markers on, and marker 2, that of commits, traced. -/
def tracedCommit : State :=
  { State.reset with
    dict := [(objKey 0x8810 2, 1), (objKey 0x8810 3, 2), (objKey 0x8812 0, 1)]
    mgmt := { State.reset.mgmt with joined := true, cyclicDue := some [] } }

/-- The state in which the cycle starts. -/
def tracedStart : State :=
  let v := tracedCommit.at 0
  let w := (State.commitMark { v with mgmt := { v.mgmt with cyclicDue := none, inApplied := none } } 3).latchOutputs
  { w with mgmt := { w.mgmt with latchedAt := some w.now } }

theorem exec_tracedCommit : Sys2Proof.Machine.exec (.outputImageLatch 0) tracedCommit = .next tracedStart := by
  rfl

theorem tracedStart_evtOut : tracedStart.pwr.evtOut = true := by
  decide

/-- Refutes O12: as the cyclic group takes effect, its marker drives the trace-trigger pulse, and the clause's parts leave power out. -/
theorem not_cyclicCommands : ¬ Obligations.CyclicCommands := by
  unfold Obligations.CyclicCommands
  rintro ⟨-, -, -, -, hcommit, -⟩
  obtain ⟨u, hu, -, hw, -⟩ := hcommit tracedCommit 0 [] rfl rfl rfl
  obtain rfl : tracedStart = u := by injection exec_tracedCommit.symm.trans hu
  have hpwr := tracedStart_evtOut
  rw [hw .pwr (by decide)] at hpwr
  exact absurd hpwr (by decide)

end Sys2Proof.Machine

/-! O13: READ and WRITE (R361 to R364, R370, R374). -/

namespace Sys2Proof.Machine

set_option Elab.async false

open Sys2Proof.Bits

section
variable {s u : State} {svc idx sub : Nat} {r : Req} {data : Bytes}

/-! ## How a request is received -/

theorem State.receive_repeated {a : Answer} (body : State → State) (hserved : s.servesOdp = true) (haddressed : s.addressed r.target = true)
    (hplain : r.trailer = none) (hfound : (s.odp.history.find? fun a => a.isOf r) = some a) :
    s.receive svc r idx sub data body = (s.emit (.answer a)).bump 0x1814 0 := by
  have hauth : s.authenticate svc r idx sub data = some s := by rw [State.authenticate, hplain]
  unfold State.receive
  rw [if_neg (by simp [hserved, haddressed]), hauth]
  simp only [hfound]

theorem State.receive_unauthentic (body : State → State) (hserved : s.servesOdp = true) (haddressed : s.addressed r.target = true)
    (hauth : s.authenticate svc r idx sub data = none) : s.receive svc r idx sub data body = s.bump 0x1817 0 := by
  unfold State.receive
  rw [if_neg (by simp [hserved, haddressed]), hauth]

theorem State.receive_unserved (body : State → State) (h : s.servesOdp = false ∨ s.addressed r.target = false) :
    s.receive svc r idx sub data body = s := if_pos h

/-- A WRITE of any object is received as R361 to R363 say. -/
theorem State.serveAny_receives (s : State) (r : Req) (idx sub : Nat) (data : Bytes) :
    ∃ body, s.serveAny r idx sub data = s.receive svcWrite r idx sub data body := by
  by_cases hstate : idx = 0x2001 ∧ sub = 0
  · obtain ⟨rfl, rfl⟩ := hstate
    exact ⟨_, if_pos ⟨rfl, rfl⟩⟩
  by_cases hsave : idx = 0x2020 ∧ sub = 0
  · obtain ⟨rfl, rfl⟩ := hsave
    exact ⟨_, (if_neg (by decide)).trans (if_pos ⟨rfl, rfl⟩)⟩
  by_cases htoken : idx = 0x9021 ∧ sub = 0
  · obtain ⟨rfl, rfl⟩ := htoken
    exact ⟨_, ((if_neg (by decide)).trans (if_neg (by decide))).trans (if_pos ⟨rfl, rfl⟩)⟩
  rw [State.serveAny, if_neg hstate, if_neg hsave, if_neg htoken]
  exact ⟨_, rfl⟩

/-- So is a READ. -/
theorem execRead_receives (r : Req) (idx sub : Nat) (s : State) :
    ∃ body, Sys2Proof.Machine.exec (.read r idx sub) s = .next ((s.at r.t).receive svcRead r idx sub [] body) := by
  change ∃ body, execRead r idx sub s = _
  unfold execRead
  dsimp only
  by_cases hprobe : idx = 0x4020 ∧ sub = 3
  · obtain ⟨rfl, rfl⟩ := hprobe
    rw [if_pos ⟨rfl, rfl⟩]
    exact ⟨_, rfl⟩
  by_cases hpeek : idx = 0x6030 ∧ sub = 2
  · obtain ⟨rfl, rfl⟩ := hpeek
    rw [if_neg hprobe, if_pos ⟨rfl, rfl⟩]
    exact ⟨_, rfl⟩
  rw [if_neg hprobe, if_neg hpeek]
  exact ⟨_, rfl⟩

theorem read_repeated {a : Answer} (hfound : ((s.at r.t).odp.history.find? fun a => a.isOf r) = some a) (hplain : r.trailer = none)
    (hserved : (s.at r.t).servesOdp = true) (haddressed : (s.at r.t).addressed r.target = true) :
    ∃ v, Sys2Proof.Machine.exec (.read r idx sub) s = .next v ∧ (
      v.out = .answer a :: s.out ∧ Within [.out, .dict, .clock] s v ∧ ObjsBut (fun i j => i == 0x1814 && j == 0) s v) := by
  obtain ⟨body, hexec⟩ := execRead_receives r idx sub s
  rw [State.receive_repeated body hserved haddressed hplain hfound] at hexec
  have hat := s.at_within r.t
  refine ⟨_, hexec, congrArg (List.cons _) (hat .out (by decide)), ?_, ?_⟩
  · exact ((hat.mono (by decide)).step (State.emit_within _ _) (by decide)).step (State.bump_within _ _ _) (by decide)
  · exact (ObjsBut.of_dict (hat .dict (by decide))).trans (State.bump_objsBut ((s.at r.t).emit (.answer a)))

theorem write_unauthentic (hserved : (s.at r.t).servesOdp = true) (haddressed : (s.at r.t).addressed r.target = true)
    (hauth : (s.at r.t).authenticate svcWrite r idx sub data = none) :
    ∃ v, Sys2Proof.Machine.exec (.write r idx sub data) s = .next v ∧ (
      Within [.dict, .clock] s v ∧ ObjsBut (fun i j => i == 0x1817 && j == 0) s v) := by
  obtain ⟨body, hbody⟩ := (s.at r.t).serveAny_receives r idx sub data
  have hat := s.at_within r.t
  have hexec : Sys2Proof.Machine.exec (.write r idx sub data) s = .next ((s.at r.t).bump 0x1817 0) :=
    congrArg Host.Outcome.next (hbody.trans (State.receive_unauthentic body hserved haddressed hauth))
  exact ⟨_, hexec, (hat.mono (by decide)).step (State.bump_within _ _ _) (by decide),
    (ObjsBut.of_dict (hat .dict (by decide))).trans (State.bump_objsBut _)⟩

theorem write_unserved (h : (s.at r.t).servesOdp = false ∨ (s.at r.t).addressed r.target = false) :
    ∃ v, Sys2Proof.Machine.exec (.write r idx sub data) s = .next v ∧ Within [.clock] s v := by
  obtain ⟨body, hbody⟩ := (s.at r.t).serveAny_receives r idx sub data
  exact ⟨_, congrArg Host.Outcome.next (hbody.trans (State.receive_unserved body h)), s.at_within r.t⟩

/-! ## READ -/

/-- A success counts only the answer. -/
theorem State.answer_success_objsBut (s : State) {a : Answer} (h : a.abort = 0) : ObjsBut (fun i j => i == 0x1812 && j == 0) s (s.answer a) := by
  unfold State.answer
  dsimp only
  rw [if_pos h]
  exact (State.bump_objsBut (s.emit (.answer a))).trans (.of_dict rfl)

/-- What a READ answers, of a value and of the state that reading it leaves. -/
theorem read_answered (h : s.Admits svcRead r idx sub [] u) {row : ObjRow} (hrow : u.checkRead idx sub = .ok row)
    (hprobe : ¬ (idx = 0x4020 ∧ sub = 3)) (hpeek : ¬ (idx = 0x6030 ∧ sub = 2)) :
    Sys2Proof.Machine.exec (.read r idx sub) s =
      .next ((u.readValue idx sub).2.answer (mkAnswer svcRead r idx sub 0 (readBytes row (u.readValue idx sub).1))) := by
  have hserve : (s.at r.t).serveRead r idx sub =
      (u.readValue idx sub).2.answer (mkAnswer svcRead r idx sub 0 (readBytes row (u.readValue idx sub).1)) := by
    rw [State.serveRead, h.serve_eq]
    simp only [hrow]
  change execRead r idx sub s = _
  unfold execRead
  dsimp only
  rw [if_neg hprobe, if_neg hpeek, hserve]

theorem State.readValue_within (s : State) (i j : Nat) : Within [.free] s (s.readValue i j).2 := by
  by_cases h : isMeasured i = true ∧ 1 ≤ j + (if i ≤ 0x9803 then 1 else 0)
  · rw [State.readValue, if_pos h]
    exact s.measure_within i j
  · rw [State.readValue, if_neg h]
    exact .refl _ s

theorem State.readValue_plain {i : Nat} (h : isMeasured i = false) (j : Nat) : s.readValue i j = (s.valueOf i j, s) := by
  rw [State.readValue, if_neg fun hm => Bool.false_ne_true (h.symm.trans hm.1)]

theorem read_plain (h : s.Admits svcRead r idx sub [] u) {row : ObjRow} (hrow : u.checkRead idx sub = .ok row)
    (hprobe : ¬ (idx = 0x4020 ∧ sub = 3)) (hpeek : ¬ (idx = 0x6030 ∧ sub = 2)) (hplain : isMeasured idx = false) :
    ∃ v, Sys2Proof.Machine.exec (.read r idx sub) s = .next v ∧ (
      v.Answered svcRead r idx sub 0 (readBytes row (u.valueOf idx sub)) ∧ v.odp = { u.odp with history := v.odp.history } ∧
      Within [.odp, .out, .dict, .clock] s v ∧ ObjsBut (fun i j => i == 0x1812 && j == 0) s v) := by
  have hexec := read_answered h hrow hprobe hpeek
  rw [State.readValue_plain hplain] at hexec
  refine ⟨_, hexec, State.answered_answer .., u.answer_odp _, (h.within.mono (by decide)).step (u.answer_within _) (by decide), ?_⟩
  exact (ObjsBut.of_dict h.dict_eq).trans (u.answer_success_objsBut rfl)

theorem read_measured (h : s.Admits svcRead r idx sub [] u) {row : ObjRow} (hrow : u.checkRead idx sub = .ok row)
    (hmeasured : isMeasured idx = true) :
    ∃ v, Sys2Proof.Machine.exec (.read r idx sub) s = .next v ∧ (
      (∃ d, v.Answered svcRead r idx sub 0 d) ∧ v.odp = { u.odp with history := v.odp.history } ∧
      Within [.odp, .out, .dict, .clock, .free] s v ∧ ObjsBut (fun i j => i == 0x1812 && j == 0) s v) := by
  have hprobe : ¬ (idx = 0x4020 ∧ sub = 3) := fun hp => absurd (hp.1 ▸ hmeasured) (by decide)
  have hpeek : ¬ (idx = 0x6030 ∧ sub = 2) := fun hp => absurd (hp.1 ▸ hmeasured) (by decide)
  have hexec := read_answered h hrow hprobe hpeek
  have hread := u.readValue_within idx sub
  generalize u.readValue idx sub = y at *
  refine ⟨_, hexec, ⟨_, State.answered_answer ..⟩, ?_, ((h.within.mono (by decide)).step hread (by decide)).step (State.answer_within _ _) (by decide), ?_⟩
  · rw [y.2.answer_odp, hread .odp (by decide)]
  · exact ((ObjsBut.of_dict h.dict_eq).trans (.of_dict (hread .dict (by decide)))).trans (y.2.answer_success_objsBut rfl)

/-! ## WRITE -/

theorem write_refused (h : s.Admits svcWrite r idx sub data u) {c : Nat} (hplain : ¬ (idx = 0x2001 ∧ sub = 0) ∧ ¬ (idx = 0x2020 ∧ sub = 0) ∧ ¬ (idx = 0x9021 ∧ sub = 0))
    (hcheck : u.checkWrite (u.inSession r idx) idx sub data = .error c) :
    ∃ v, Sys2Proof.Machine.exec (.write r idx sub data) s = .next v ∧ (
      v.Answered svcWrite r idx sub c [] ∧ v.odp = { u.odp with history := v.odp.history } ∧
      Within [.odp, .out, .dict, .clock] s v ∧ ObjsBut ansObj s v) := by
  obtain ⟨hstate, hsave, htoken⟩ := hplain
  have hexec : Sys2Proof.Machine.exec (.write r idx sub data) s = .next (u.answer (mkAnswer svcWrite r idx sub c [])) := by
    change Host.Outcome.next ((s.at r.t).serveAny r idx sub data) = _
    rw [State.serveAny, if_neg hstate, if_neg hsave, if_neg htoken, State.serveObject, State.serveWrite, h.serve_eq]
    simp only [hcheck]
  exact ⟨_, hexec, State.answered_answer .., u.answer_odp _, (h.within.mono (by decide)).step (u.answer_within _) (by decide),
    (ObjsBut.of_dict h.dict_eq).trans (u.answer_objsBut _)⟩

theorem State.checkWrite_unlisted (hindex : objIndex? idx = false) (b : Bool) : u.checkWrite b idx sub data = .error 0x02000003 := by
  have hfind : u.findObj idx sub = .error 0x02000003 := if_pos (.inl hindex)
  rw [State.checkWrite, hfind]

theorem State.checkWrite_mtu_running (hst : u.dev.st = .run) (hsession : u.needsSession 0x3004 = false) (b : Bool) :
    u.checkWrite b 0x3004 1 data = .error 0x08000011 := by
  have hfind : u.findObj 0x3004 1 = .ok ⟨0x3004, 0x3004, 0x0001, 0x0004, .u 2, .rwp, 9600, 1518, 9600⟩ := by
    unfold State.findObj
    rw [if_neg (by simp [State.absentUnit, show arrayOfIndex 0x3004 = none from rfl, show arrayOfSub 0x3004 1 = none from rfl,
      show objIndex? 0x3004 = true by decide])]
    rfl
  have hright : u.writeRight ⟨0x3004, 0x3004, 0x0001, 0x0004, .u 2, .rwp, 9600, 1518, 9600⟩ = some 0x08000011 := by
    simp [State.writeRight, hst]
  unfold State.checkWrite
  simp only [hfind, hsession, hright, Bool.false_and, Bool.false_eq_true, if_false]

theorem write_mtu (h : s.Admits svcWrite r 0x3004 1 data u) (hform : s.canonical = true) (hst : u.dev.st = .prepare)
    (hsession : u.needsSession 0x3004 = false) (hlength : data.length = 2) (hlow : 1518 ≤ leNat data) (hhigh : leNat data ≤ 9600) :
    ∃ v, Sys2Proof.Machine.exec (.write r 0x3004 1 data) s = .next v ∧ (
      v.Answered svcWrite r 0x3004 1 0 [] ∧ v.obj 0x3004 1 = leNat data ∧ v.odp = { u.odp with history := v.odp.history } ∧
      Within [.odp, .out, .dict, .clock] s v ∧ ObjsBut (fun i j => (i == 0x3004 && j == 1) || (i == 0x1812 && j == 0)) s v) := by
  have hrow : u.checkWrite (u.inSession r 0x3004) 0x3004 1 data = .ok ⟨0x3004, 0x3004, 0x0001, 0x0004, .u 2, .rwp, 9600, 1518, 9600⟩ := by
    refine State.checkWrite_of (by decide) rfl rfl (by simp [hsession]) (by simp [State.writeRight, hst]) (by simp [lengthOk, hlength]) ?_
    simp [rangeOk, specialRange, hlow, hhigh]
  have heff : u.effect (u.inSession r 0x3004) 0x3004 1 (leNat data) = .ok (u.put 0x3004 1 (leNat data)) := rfl
  have hexec : Sys2Proof.Machine.exec (.write r 0x3004 1 data) s =
      .next ((u.put 0x3004 1 (leNat data)).answer (mkAnswer svcWrite r 0x3004 1 0 [])) :=
    congrArg Host.Outcome.next (State.serveWrite_of_done (eff := fun s => s.effect (s.inSession r 0x3004) 0x3004 1 (leNat data)) h hrow heff)
  have hobjs := State.answer_success_objsBut (u.put 0x3004 1 (leNat data)) (a := mkAnswer svcWrite r 0x3004 1 0 []) rfl
  refine ⟨_, hexec, State.answered_answer .., ?_, State.answer_odp _ _, ?_, ?_⟩
  · exact (hobjs 0x3004 1 (by decide) (by decide)).trans (State.obj_put (h.dict_eq ▸ State.dict_wf hform))
  · exact ((h.within.mono (by decide)).step (u.put_within _ _ _) (by decide)).step (State.answer_within _ _) (by decide)
  · exact ((ObjsBut.of_dict h.dict_eq).trans ((u.put_objsBut _).mono fun i j hk => (Bool.or_eq_false_iff.1 hk).1)).trans
      (hobjs.mono fun i j hk => (Bool.or_eq_false_iff.1 hk).2)

end

/-- Settles O13, clause by clause. -/
theorem readAndWrite : Obligations.ReadAndWrite := by
  unfold Obligations.ReadAndWrite
  refine ⟨fun s r idx sub u h row hrow hprobe hpeek hplain => read_plain h hrow hprobe hpeek hplain,
    fun s r idx sub u h row hrow hmeasured => read_measured h hrow hmeasured, ?_, ?_, ?_,
    fun s r idx sub a hfound hplain hserved haddressed => read_repeated hfound hplain hserved haddressed,
    fun s r idx sub data hserved haddressed hauth => write_unauthentic hserved haddressed hauth,
    fun s r idx sub data h => write_unserved h⟩
  · rintro s r _ _ data u h hform rfl rfl hst hsession hlength hlow hhigh
    exact write_mtu h hform hst hsession hlength hlow hhigh
  · rintro s r _ _ data u h rfl rfl hst hsession
    obtain ⟨v, hexec, hanswer, -, hrest⟩ := write_refused h (by decide) (State.checkWrite_mtu_running hst hsession _)
    exact ⟨v, hexec, hanswer, hrest⟩
  · intro s r idx sub data u h hindex
    refine write_refused h ⟨?_, ?_, ?_⟩ (State.checkWrite_unlisted hindex _)
    all_goals
      rintro ⟨rfl, -⟩
      exact absurd hindex (by decide)

end Sys2Proof.Machine

/-! O15: a transfer that times out over a staged slot takes the install lists of its model off the arrays. -/

namespace Sys2Proof.Machine

set_option Elab.async false

theorem getD_instKind_ne {l : List Arr} (h : ∀ x ∈ l, x.instKind ≠ 1) (a : Nat) : (l.getD a {}).instKind ≠ 1 := by
  rw [List.getD_eq_getElem?_getD]
  cases hx : l[a]? with
  | none => exact Nat.zero_ne_one
  | some x => exact h x (List.mem_of_getElem? hx)

/-- Once the staged model of a slot is dropped, no array has a side-by-side install list (R286). -/
theorem State.dropStaging_instKind {s : State} {k : Nat} {m : Model} (hm : s.lib.staged = some m) (hk : m.slot = k) (a : Nat) :
    ((s.dropStaging k).arrAt a).instKind ≠ 1 := by
  have hkeep : ∀ (l : List Nat) (s : State), (l.foldl (fun s a => (s.put (0x6810 + a) 1 0).showRun a) s).arr = s.arr := fun l s =>
    Within.foldl (ps := [.dict]) (fun s a => (s.put_within _ _ _).trans (State.showRun_within _ _)) l s .arr (by decide)
  unfold State.dropStaging
  rw [hm]
  dsimp only
  rw [if_pos hk, State.arrAt, hkeep]
  refine getD_instKind_ne (fun x hx => ?_) a
  rw [Vector.toList_map] at hx
  obtain ⟨y, -, rfl⟩ := List.mem_map.1 hx
  split
  · exact Nat.zero_ne_one
  · assumption

theorem State.emptySlot_arr (s : State) (k : Nat) : (s.emptySlot k).arr = (s.dropStaging k).arr := rfl

/-- The download of library slot 0 that stands still since time 0. -/
def stalledDownload : Transfer where
  tid := 1
  upload := false
  idx := 0xA010
  sub := 0
  sid := 0
  size := 4096
  sha := 0
  seg := 256
  window := 1
  content := []
  acked := 0
  sent := 0
  unacked := 0
  lastSeg := none
  last := 0

/-- Ten seconds on, slot 0 still holds the staged model, and array 0 has a side-by-side install list of it. -/
def stalledOverStaged : State :=
  { State.reset with
    clock := { State.reset.clock with house := 10000000000 }
    odp := { State.reset.odp with transfers := [stalledDownload] }
    lib := { State.reset.lib with staged := some {} }
    arr := State.reset.arr.map fun x => { x with instKind := 1 } }

/-- What the timeout leaves. -/
def stalledDropped : State :=
  ((stalledOverStaged.at 10000000000).abortTransfer stalledDownload).emit (.transferAbort 1 0x04000006)

theorem stalledOverStaged_instKind : (stalledOverStaged.arrAt 0).instKind = 1 := by
  rw [State.arrAt, List.getD_eq_getElem?_getD]
  simp [stalledOverStaged]

theorem exec_stalledOverStaged : Sys2Proof.Machine.exec (.transferTimeout 1 10000000000) stalledOverStaged = .next stalledDropped := by
  change execTransferTimeout 1 10000000000 stalledOverStaged = _
  unfold execTransferTimeout
  have hfound : (stalledOverStaged.at 10000000000).transfer? 1 = some stalledDownload := rfl
  simp only [hfound]
  exact if_pos (by decide)

theorem stalledDropped_instKind : (stalledDropped.arrAt 0).instKind ≠ 1 :=
  State.dropStaging_instKind (s := (stalledOverStaged.at 10000000000).dropTransfer 1) (m := {}) rfl rfl 0

/-- Refutes O15: the slot's staging ends with the transfer, and the clause's parts leave the arrays out. -/
theorem not_transferCommands : ¬ Obligations.TransferCommands := by
  unfold Obligations.TransferCommands
  rintro ⟨-, -, -, -, -, -, -, -, -, -, -, htimeout, -⟩
  obtain ⟨u, hu, -, -, hw⟩ := htimeout stalledOverStaged 1 10000000000 stalledDownload rfl (by decide)
  obtain rfl : stalledDropped = u := by injection exec_stalledOverStaged.symm.trans hu
  have hinstall := stalledDropped_instKind
  rw [State.arrAt, hw .arr (by decide)] at hinstall
  exact hinstall stalledOverStaged_instKind

end Sys2Proof.Machine

/-! O14: sessions are opened, authenticated, closed and forgotten (R369, R475). -/

namespace Sys2Proof.Machine

set_option Elab.async false

open Sys2Proof.Bits

section
variable {s u w : State} {svc idx sub : Nat} {r : Req} {data : Bytes}

/-- What a served request leaves, from the state `w` its service left: the answer, and of ODP the history beside what the service did. -/
theorem State.Admits.answers {ps : List Part} {c : Nat} {d : Bytes} {body : State → Reply} (h : s.Admits svc r idx sub data u)
    (hbody : body u = ⟨c, d, w⟩) (hw : Within ps u w) (hps : [.odp, .out, .dict, .clock] ⊆ ps) :
    (s.at r.t).serve svc r idx sub data body = w.answer (mkAnswer svc r idx sub c d) ∧
      (w.answer (mkAnswer svc r idx sub c d)).Answered svc r idx sub c d ∧
      (w.answer (mkAnswer svc r idx sub c d)).odp = { w.odp with history := (w.answer (mkAnswer svc r idx sub c d)).odp.history } ∧
      Within ps s (w.answer (mkAnswer svc r idx sub c d)) := by
  refine ⟨?_, State.answered_answer .., w.answer_odp _, ?_⟩
  · rw [h.serve_eq, hbody]
  · exact ((h.within.mono (List.Subset.trans (by decide) hps)).trans hw).step (w.answer_within _) (List.Subset.trans (by decide) hps)

theorem State.Admits.answer_objs (h : s.Admits svc r idx sub data u) (hw : w.dict = u.dict) (a : Answer) : ObjsBut ansObj s (w.answer a) :=
  (ObjsBut.of_dict (hw.trans h.dict_eq)).trans (w.answer_objsBut a)

/-! ## OPEN -/

/-- The session an OPEN adds, of the three values drawn. -/
def newSession (key nonce slot sid own ownNonce now : Nat) : Session :=
  { sid := sid % 2 ^ 32, slot := slot, hostKey := key, ownKey := Config.ephemeralKey own % 2 ^ 512,
    hostNonce := nonce, ownNonce := ownNonce % 2 ^ 128, authed := false, bootstrap := false,
    key := sessionKey key own nonce (ownNonce % 2 ^ 128), highest := none, seen := [], last := now }

/-- The session added in state `u`. -/
def State.openedSession (u : State) (key nonce slot : Nat) : Session :=
  newSession key nonce slot (Config.random u.free) (Config.random (u.free + 1)) (Config.random (u.free + 2)) u.now

/-- What OPEN leaves before its answer. -/
def State.opened (u : State) (key nonce slot : Nat) : State :=
  { u with
    free := u.free + 3
    odp := { u.odp with sessions := u.odp.sessions ++ [u.openedSession key nonce slot] } }

theorem State.opened_within (u : State) (key nonce slot : Nat) : Within [.odp, .out, .dict, .clock, .free] u (u.opened key nonce slot) :=
  ((u.set_free_within (u.free + 3)).mono (by decide)).step (State.set_odp_within { u with free := u.free + 3 } _) (by decide)

/-- The answer of an OPEN names the session and signs its items. -/
def State.openAnswer (u : State) (x : Session) : Bytes :=
  natLe 4 x.sid ++ natLe 64 x.ownKey ++ natLe 16 x.ownNonce ++ natLe 64 (u.attestSign (sessionItems x))

theorem openSession_adds {key nonce slot : Nat} (h : s.Admits svcOpen r 0 0 (natLe 64 key ++ natLe 16 nonce ++ natLe 1 slot) u) (hslot : slot ≤ 7)
    (htaint : u.trust.tainted = false) (hroom : u.odp.sessions.length < 8) :
    ∃ v, Sys2Proof.Machine.exec (.openSession r key nonce slot) s = .next v ∧
      v.Answered svcOpen r 0 0 0 (u.openAnswer (u.openedSession key nonce slot)) ∧
      v.odp = { u.odp with sessions := u.odp.sessions ++ [u.openedSession key nonce slot], history := v.odp.history } ∧
      Within [.odp, .out, .dict, .clock, .free] s v ∧ ObjsBut ansObj s v ∧ v.now = u.now := by
  obtain ⟨hserve, hanswer, hodp, hframe⟩ := h.answers (w := u.opened key nonce slot) (c := 0) (d := u.openAnswer (u.openedSession key nonce slot))
    (body := fun s =>
      if 7 < slot then refuse 0x02000006 s
      else if s.trust.tainted then refuse 0x04000002 s
      else if 8 ≤ s.odp.sessions.length then refuse 0x04000003 s
      else ⟨0, s.openAnswer (s.openedSession key nonce slot), s.opened key nonce slot⟩)
    (by rw [if_neg (by omega), if_neg (by simp [htaint]), if_neg (by omega)]) (u.opened_within key nonce slot) (by decide)
  refine ⟨_, congrArg Host.Outcome.next hserve, hanswer, hodp, hframe, h.answer_objs (w := u.opened key nonce slot) rfl _, ?_⟩
  exact congrArg Clock.house (State.answer_within (u.opened key nonce slot) _ .clock (by decide))

theorem openSession_full {key nonce slot : Nat} (h : s.Admits svcOpen r 0 0 (natLe 64 key ++ natLe 16 nonce ++ natLe 1 slot) u) (hslot : slot ≤ 7)
    (htaint : u.trust.tainted = false) (hfull : 8 ≤ u.odp.sessions.length) :
    ∃ v, Sys2Proof.Machine.exec (.openSession r key nonce slot) s = .next v ∧
      v.Answered svcOpen r 0 0 0x04000003 [] ∧ v.odp = { u.odp with history := v.odp.history } ∧ Within [.odp, .out, .dict, .clock] s v ∧
      ObjsBut ansObj s v := by
  obtain ⟨hserve, hanswer, hodp, hframe⟩ := h.answers (w := u) (c := 0x04000003) (d := [])
    (body := fun s =>
      if 7 < slot then refuse 0x02000006 s
      else if s.trust.tainted then refuse 0x04000002 s
      else if 8 ≤ s.odp.sessions.length then refuse 0x04000003 s
      else ⟨0, s.openAnswer (s.openedSession key nonce slot), s.opened key nonce slot⟩)
    (by rw [if_neg (by omega), if_neg (by simp [htaint]), if_pos hfull, refuse]) (Within.refl [.odp, .out, .dict, .clock] u) (by decide)
  exact ⟨_, congrArg Host.Outcome.next hserve, hanswer, hodp, hframe, h.answer_objs rfl _⟩

/-! ## AUTH and CLOSE -/

/-- Whether a signature authenticates the session (R369, R475). -/
def State.authentic (u : State) (x : Session) (sig : Nat) : Bool :=
  if u.noHostKey then Config.ecdsaVerify x.hostKey (sessionItems x) sig
  else decide (u.get (0x9010 + x.slot) 0 ≠ 0) && Config.ecdsaVerify (u.get (0x9010 + x.slot) 0) (sessionItems x) sig

/-- The state with other sessions. -/
def State.withSessions (u : State) (l : List Session) : State := { u with odp := { u.odp with sessions := l } }

theorem State.withSessions_within (u : State) (l : List Session) : Within [.odp, .out, .dict, .clock] u (u.withSessions l) :=
  (u.set_odp_within _).mono (by decide)

/-- What the check of a live session answers, and the sessions it leaves. -/
def State.authed (u : State) (x : Session) (sig : Nat) : Nat × List Session :=
  if u.authentic x sig then (0, setSession u.odp.sessions { x with authed := true, bootstrap := u.noHostKey, last := u.now })
  else (0x04000002, dropSession x.sid u.odp.sessions)

theorem auth_checks {sid sig : Nat} (h : s.Admits svcAuth r 0 0 (natLe 4 sid ++ natLe 64 sig) u) {x : Session}
    (hx : (u.odp.sessions.find? fun x => x.sid = sid) = some x) (hlive : u.now < x.last + 60000000000) :
    ∃ v, Sys2Proof.Machine.exec (.auth r sid sig) s = .next v ∧ v.Answered svcAuth r 0 0 (u.authed x sig).1 [] ∧
      v.odp = { u.odp with sessions := (u.authed x sig).2, history := v.odp.history } ∧
      Within [.odp, .out, .dict, .clock] s v ∧ ObjsBut ansObj s v := by
  obtain rfl : x.sid = sid := by simpa using List.find?_some hx
  have hlater : ¬ x.last + 60000000000 ≤ u.now := by omega
  have hserve : Sys2Proof.Machine.exec (.auth r x.sid sig) s =
      .next ((u.withSessions (u.authed x sig).2).answer (mkAnswer svcAuth r 0 0 (u.authed x sig).1 [])) := by
    change Host.Outcome.next ((s.at r.t).serve svcAuth r 0 0 _ _) = _
    rw [h.serve_eq]
    simp only [hx, if_neg hlater]
    have hreply : (if u.authentic x sig then
          (⟨0, [], u.withSessions (setSession u.odp.sessions { x with authed := true, bootstrap := u.noHostKey, last := u.now })⟩ : Reply)
        else refuse 0x04000002 (u.withSessions (dropSession x.sid u.odp.sessions))) =
        ⟨(u.authed x sig).1, [], u.withSessions (u.authed x sig).2⟩ := by
      unfold State.authed
      split <;> rfl
    exact congrArg (fun y : Reply => Host.Outcome.next (y.st.answer (mkAnswer svcAuth r 0 0 y.abort y.data))) hreply
  refine ⟨_, hserve, State.answered_answer .., State.answer_odp _ _, ?_, h.answer_objs (w := u.withSessions (u.authed x sig).2) rfl _⟩
  exact ((h.within.mono (by decide)).trans (u.withSessions_within _)).step (State.answer_within _ _) (by decide)

theorem close_drops (h : s.Admits svcClose r 0 0 [] u) {tr : Trailer} (htr : r.trailer = some tr) :
    ∃ v, Sys2Proof.Machine.exec (.close r) s = .next v ∧ v.Answered svcClose r 0 0 0 [] ∧
      v.odp = { u.odp with sessions := dropSession tr.session u.odp.sessions, history := v.odp.history } ∧
      Within [.odp, .out, .dict, .clock] s v ∧ ObjsBut ansObj s v := by
  obtain ⟨hserve, hanswer, hodp, hframe⟩ := h.answers (w := u.withSessions (dropSession tr.session u.odp.sessions)) (c := 0) (d := [])
    (body := fun s => match r.trailer with
      | none => refuse 0x04000001 s
      | some tr => ⟨0, [], s.withSessions (dropSession tr.session s.odp.sessions)⟩)
    (by rw [htr]) (u.withSessions_within _) (by decide)
  exact ⟨_, congrArg Host.Outcome.next hserve, hanswer, hodp, hframe, h.answer_objs (w := u.withSessions (dropSession tr.session u.odp.sessions)) rfl _⟩

/-! ## SESSION_EXPIRY -/

theorem sessionExpiry_expired {sid t : Nat} {x : Session} (hx : (s.odp.sessions.find? fun x => x.sid = sid) = some x)
    (hdue : x.last + 60000000000 ≤ (s.at t).now) :
    Sys2Proof.Machine.exec (.sessionExpiry sid t) s = .next ((s.at t).withSessions (dropSession sid s.odp.sessions)) := by
  have hodp : (s.at t).odp = s.odp := s.at_within t .odp (by decide)
  change execSessionExpiry sid t s = _
  unfold execSessionExpiry
  dsimp only
  rw [hodp, hx]
  dsimp only
  rw [if_pos hdue, State.withSessions, hodp]

theorem sessionExpiry_live {sid t : Nat} {x : Session} (hx : (s.odp.sessions.find? fun x => x.sid = sid) = some x)
    (hlive : (s.at t).now < x.last + 60000000000) : Sys2Proof.Machine.exec (.sessionExpiry sid t) s = .next (s.at t) := by
  have hodp : (s.at t).odp = s.odp := s.at_within t .odp (by decide)
  change execSessionExpiry sid t s = _
  unfold execSessionExpiry
  dsimp only
  rw [hodp, hx]
  exact if_neg (by omega)

end

/-- Settles O14, clause by clause. -/
theorem sessionCommands : Obligations.SessionCommands := by
  unfold Obligations.SessionCommands
  refine ⟨?_, fun s r key nonce slot u h hslot htaint hfull => openSession_full h hslot htaint hfull, ?_,
    fun s r u h tr htr => close_drops h htr, ?_, ?_⟩
  · intro s r key nonce slot u h hslot htaint hroom
    obtain ⟨v, hexec, hanswer, hodp, hframe, hobjs, hnow⟩ := openSession_adds h hslot htaint hroom
    have hsessions : v.odp.sessions = u.odp.sessions ++ [u.openedSession key nonce slot] := by rw [hodp]
    refine ⟨v, hexec, ⟨_, hsessions, rfl, rfl, rfl, rfl, rfl, rfl, rfl, hnow.symm, Nat.mod_lt _ (by decide), hanswer⟩, ?_, hframe, hobjs⟩
    rw [hsessions]
    exact hodp
  · intro s r sid sig u h x hx hlive
    obtain ⟨v, hexec, hanswer, hodp, hframe, hobjs⟩ := auth_checks (sig := sig) h hx hlive
    have hsessions : v.odp.sessions = (u.authed x sig).2 := by rw [hodp]
    refine ⟨v, hexec, hframe, hobjs, by rw [hsessions]; exact hodp, ?_⟩
    change if u.authentic x sig = true then _ else _
    obtain rfl : x.sid = sid := by simpa using List.find?_some hx
    by_cases hok : u.authentic x sig = true
    · rw [if_pos hok]
      rw [State.authed, if_pos hok] at hanswer hsessions
      exact ⟨hanswer, hsessions⟩
    · rw [if_neg hok]
      rw [State.authed, if_neg hok] at hanswer hsessions
      exact ⟨hanswer, hsessions⟩
  · intro s sid t x hx hdue
    refine ⟨_, sessionExpiry_expired hx hdue, ?_, ((s.at_within t).mono (by decide)).step (State.set_odp_within _ _) (by decide)⟩
    rw [← s.at_within t .odp (by decide)]
    rfl
  · intro s sid t x hx hlive
    exact ⟨_, sessionExpiry_live hx hlive, s.at_within t⟩

end Sys2Proof.Machine

/-! O18: an accession beyond the two bytes of 0x3808:00 is written without its upper part. -/

namespace Sys2Proof.Machine

set_option Elab.async false

/-- The state that has the commit of accession 1 scheduled. -/
def scheduledOne : State :=
  let u := evtOutState.at 5
  { u with lib := { u.lib with schedRule := some ⟨1, u.stagedBank.get 0x6809 0⟩ } }

/-- The two bytes of 65,537 are those of 1. -/
theorem evtOutState_writable_65537 : evtOutState.Writable evtOutReq 0x3808 0 65537 (evtOutState.at 5) :=
  ⟨⟨by decide, by decide, rfl, by decide, by decide⟩, by decide⟩

theorem exec_ruleCommit_65537 : Sys2Proof.Machine.exec (.ruleCommit evtOutReq 65537) evtOutState =
    .next (scheduledOne.answer (mkAnswer svcWrite evtOutReq 0x3808 0 0 [])) := by
  rfl

theorem scheduledOne_schedRule :
    (scheduledOne.answer (mkAnswer svcWrite evtOutReq 0x3808 0 0 [])).lib.schedRule = some ⟨1, (evtOutState.at 5).stagedBank.get 0x6809 0⟩ :=
  congrArg Lib.schedRule (State.answer_within scheduledOne _ .lib (by decide))

/-- Refutes O18: its first clause schedules the accession written, with no bound on it; 0x3808:00 holds two bytes, and a WRITE of
65,537 schedules accession 1. -/
theorem not_commitRequests : ¬ Obligations.CommitRequests := by
  unfold Obligations.CommitRequests
  rintro ⟨hcommit, -⟩
  obtain ⟨w, hw, -, hlib, -⟩ := hcommit evtOutState evtOutReq 65537 _ evtOutState_writable_65537 rfl rfl (by decide) (by decide) (by decide) (by decide)
  obtain rfl := Host.Outcome.next.inj (exec_ruleCommit_65537.symm.trans hw)
  have hone := scheduledOne_schedRule
  rw [hlib] at hone
  exact absurd (congrArg (Option.elim · 0 Sched.acc) hone) (by decide)

end Sys2Proof.Machine

/-! O27: a lookup held under a key whose pair lies outside its buckets is learned into that pair. -/

namespace Sys2Proof.Machine

set_option Elab.async false

/-- An uncached bucket shows what the stacks hold of its first entry. -/
theorem State.bucket_first {u w : State} {b : Nat} {bs : Bytes} (hway : u.way? b = none) (hform : Memory.wf w = true) (hlen : 64 ≤ bs.length)
    (hmem : ∀ x n, u.memRead x n = (w.memWrite (u.regionBase 2 + 256 * b) bs).memRead x n) :
    (u.bucket b).getD 0 0 = Bits.leNat (bs.take 64) := by
  have hread : u.memRead (u.regionBase 2 + 256 * b + 0) 64 = bs.take 64 := by
    rw [hmem, State.memRead_memWrite_part hform (by omega), List.drop_zero]
  unfold State.bucket
  simp only [hway]
  rw [← hread]
  rfl

/-- The packet whose lookup waits for its fetch; its action ends on the vector path. -/
def strayPkt : Pkt where
  pid := 1
  port := 0
  seq := 0
  pipe := 0
  stamp := 0
  ra := 0
  ma := 0
  bytes := []
  inBurst := false
  action := 2 ^ 90
  stage := .fetch

/-- A key of the pair (0, 1) that covers no bucket. -/
def strayKey : CatKey where
  profile := 0
  key := 0
  buckets := []
  pair := (0, 1)
  epoch := 0

/-- Its lookup is the only operation held, and profile 0 learns. -/
def strayLookup : State :=
  { State.reset with
    dict := [(objKey 0x4010 2, 1)]
    pkts := [strayPkt]
    cat := { State.reset.cat with waiting := [⟨.lookup 1 strayKey, true⟩] } }

/-- The fetch has come. -/
def strayFetched : State := { strayLookup with cat := { strayLookup.cat with waiting := [] } }

/-- The entry it learns. -/
def strayEntry : Nat := newEntry 0 0 0 strayPkt

/-- What the fetch leaves. -/
def strayLearned : State :=
  ((strayFetched.setEntry 0 0 strayEntry).bump 0x4002 0).setPkt
    { strayPkt with stage := .vector, flow := some (0, 0, 0), quant := quantities 0 0 strayEntry }

theorem strayFetched_bucket : strayFetched.bucket 0 = [0, 0, 0, 0] ∧ strayFetched.bucket 1 = [0, 0, 0, 0] :=
  ⟨by decide, by decide⟩

theorem strayFetched_place : strayFetched.place (0, 1) = some (0, 0) := by
  obtain ⟨hzero, hone⟩ := strayFetched_bucket
  unfold State.place
  simp only [hzero, hone]
  decide

theorem strayFetched_effect : strayFetched.lookupEffect strayPkt strayKey = strayLearned := by
  have hlearns : strayFetched.flag 0x4010 2 = true := by decide
  have hpath : actPath strayPkt.action = 1 := by decide
  unfold State.lookupEffect State.afterLookup strayLearned strayEntry
  simp only [strayKey, List.foldl_nil, State.findEntry, Nat.add_zero, hlearns, Bool.true_eq_false, if_false, strayFetched_place, hpath, if_true]
  simp only [strayPkt]

/-- The operation held, its fetch done. -/
def strayHeld : State := { strayLookup with cat := { strayLookup.cat with waiting := [⟨.lookup 1 strayKey, false⟩] } }

theorem strayHeld_released : strayHeld.catRelease 2 = strayLearned.catRelease 1 := by
  have hnext : strayHeld.nextReady [] strayHeld.cat.waiting = some (⟨.lookup 1 strayKey, false⟩, []) := rfl
  have hpkt : strayFetched.pkt? 1 = some strayPkt := rfl
  have heffect : strayFetched.catEffect (.lookup 1 strayKey) = strayLearned := by
    unfold State.catEffect
    simp only [hpkt, strayFetched_effect]
  have hfetched : { strayHeld with cat := { strayHeld.cat with waiting := [] } } = strayFetched := rfl
  rw [State.catRelease]
  simp only [hnext, hfetched, heffect]

theorem exec_strayLookup : Sys2Proof.Machine.exec (.bucketFetchComplete 1 0) strayLookup = .next strayLearned := by
  have hat : strayLookup.at 0 = strayLookup := rfl
  have hexec : Sys2Proof.Machine.exec (.bucketFetchComplete 1 0) strayLookup = tapsFlushed (.next (strayHeld.catRelease 2)) := by
    change execBucketFetchComplete 1 0 strayLookup = _
    unfold execBucketFetchComplete
    rw [hat]
    rfl
  have hwaiting : strayLearned.catRelease 1 = strayLearned := by
    have hnext : strayLearned.nextReady [] strayLearned.cat.waiting = none := rfl
    rw [State.catRelease]
    simp only [hnext]
  rw [hexec, strayHeld_released, hwaiting]
  rfl

theorem strayEntry_bytes : Bits.leNat (Bits.natLe 64 strayEntry) ≠ 0 := by
  decide

/-- The state whose stacks take the bucket. -/
def strayCounted : State := strayFetched.put 0x4001 0 (strayFetched.get 0x4001 0 + validCount ([0, 0, 0, 0].set 0 strayEntry) - validCount [0, 0, 0, 0])

theorem strayFetched_setEntry : strayFetched.setEntry 0 0 strayEntry =
    strayCounted.memWrite (strayCounted.regionBase 2 + 256 * 0) (([0, 0, 0, 0].set 0 strayEntry).flatMap (Bits.natLe 64)) := by
  have hway : strayCounted.way? 0 = none := rfl
  unfold State.setEntry State.setBucket
  simp only [strayFetched_bucket.1]
  rw [← strayCounted, hway]

theorem strayLearned_stacks : strayLearned.mem = (strayFetched.setEntry 0 0 strayEntry).mem ∧
    strayLearned.memc = (strayFetched.setEntry 0 0 strayEntry).memc := by
  unfold strayLearned
  generalize strayFetched.setEntry 0 0 strayEntry = y
  exact ⟨rfl, rfl⟩

theorem strayLearned_region : strayLearned.regionBase 2 = strayCounted.regionBase 2 := by
  unfold strayLearned
  rw [strayFetched_setEntry]
  generalize strayCounted = c
  generalize hy : c.memWrite _ _ = y
  have hdict : y.dict = c.dict := by rw [← hy, State.memWrite_dict]
  have hkept : ObjsBut (fun i j => i == 0x4002 && j == 0) c (y.bump 0x4002 0) := (ObjsBut.of_dict hdict).trans (y.bump_objsBut (by decide))
  exact hkept.get_eq (i := 0x6000 + 2) (by decide) (by decide) (by decide)

theorem strayLearned_bucket : (strayLearned.bucket 0).getD 0 0 ≠ 0 := by
  have hbytes : (([0, 0, 0, 0].set 0 strayEntry).flatMap (Bits.natLe 64)).take 64 = Bits.natLe 64 strayEntry := by
    simp [List.flatMap_cons]
  obtain ⟨hmem, hmemc⟩ := strayLearned_stacks
  rw [strayFetched_setEntry, ← strayLearned_region] at hmem hmemc
  rw [State.bucket_first (w := strayCounted) rfl rfl (by simp) (State.memRead_of_eq hmem hmemc), hbytes]
  exact strayEntry_bytes

/-- Refutes O27: the clause bounds the buckets changed by those the operation covers, with no premise that a key's pair is among them. -/
theorem not_catalogueLookups : ¬ Obligations.CatalogueLookups := by
  unfold Obligations.CatalogueLookups
  rintro ⟨-, -, -, -, hfetch, -⟩
  obtain ⟨u, hu, -, -, -, hbuckets, -⟩ :=
    hfetch strayLookup 1 0 ⟨.lookup 1 strayKey, true⟩ rfl rfl rfl rfl rfl (by decide) .nil strayPkt rfl (by decide)
  obtain rfl : strayLearned = u := by injection exec_strayLookup.symm.trans hu
  have hlearned := strayLearned_bucket
  rw [hbuckets 0 rfl] at hlearned
  exact hlearned (congrArg (·.getD 0 0) strayFetched_bucket.1)

end Sys2Proof.Machine

/-! O28: a migration visit moves an entry into a bucket whose cached copy has no slots. -/

namespace Sys2Proof.Machine

set_option Elab.async false

open Sys2Proof.Bits

section
variable {s : State} {b c : Nat} {l k : List Nat}

/-- The hot cache holds the bucket with these entries. -/
def State.CachedAs (s : State) (b : Nat) (l : List Nat) : Prop := ∃ w, s.way? b = some w ∧ w.data = l

theorem State.CachedAs.bucket (h : s.CachedAs b l) : s.bucket b = l := by
  obtain ⟨w, hw, hdata⟩ := h
  rw [State.bucket, hw]
  exact hdata

theorem State.way?_map (s : State) (f : CacheWay → CacheWay) (hf : ∀ w, (f w).bucket = w.bucket) (b : Nat) :
    ({ s with cat := { s.cat with cache := s.cat.cache.map f } } : State).way? b = (s.way? b).map f := by
  change (s.cat.cache.map f).find? _ = _
  rw [List.find?_map]
  congr 2
  funext w
  simp [hf]

theorem State.CachedAs.touchBucket (h : s.CachedAs b l) : (s.touchBucket c).CachedAs b l := by
  obtain ⟨w, hw, hdata⟩ := h
  unfold State.touchBucket
  split
  · refine ⟨_, (s.way?_map _ (fun w => ?_) b).trans (congrArg _ hw), ?_⟩
    · split <;> rfl
    · dsimp only
      split <;> exact hdata
  · exact ⟨w, hw, hdata⟩

/-- A write to a cached bucket shows in it. -/
theorem State.CachedAs.setBucket_same (h : s.CachedAs b l) : (s.setBucket b k).CachedAs b k := by
  obtain ⟨w, hw, -⟩ := h
  unfold State.setBucket
  extract_lets v
  have hv : v.way? b = some w := hw
  simp only [hv]
  refine ⟨_, (v.way?_map _ (fun w => ?_) b).trans (congrArg _ hv), ?_⟩
  · split <;> rfl
  · have hbucket : w.bucket = b := by simpa using List.find?_some hw
    dsimp only
    rw [if_pos hbucket]

/-- and in no other. -/
theorem State.CachedAs.setBucket_other (h : s.CachedAs b l) (hne : c ≠ b) : (s.setBucket c k).CachedAs b l := by
  obtain ⟨w, hw, hdata⟩ := h
  unfold State.setBucket
  extract_lets v
  have hv : v.way? b = some w := hw
  split
  · refine ⟨_, (v.way?_map _ (fun w => ?_) b).trans (congrArg _ hv), ?_⟩
    · split <;> rfl
    · have hbucket : w.bucket = b := by simpa using List.find?_some hw
      dsimp only
      rw [if_neg (hbucket ▸ hne.symm)]
      exact hdata
  · exact ⟨w, hv, hdata⟩

theorem State.CachedAs.setEntry_empty (h : s.CachedAs b []) (i e : Nat) : (s.setEntry b i e).CachedAs b [] := by
  rw [State.setEntry, h.bucket, List.set_nil]
  exact h.setBucket_same

/-- Of the catalogue front, the hot cache alone changes. -/
def CacheOnly (s u : State) : Prop := ∃ c, u.cat = { s.cat with cache := c }

theorem CacheOnly.setBucket (s : State) (b : Nat) (l : List Nat) : CacheOnly s (s.setBucket b l) := by
  unfold State.setBucket
  extract_lets v
  split <;> exact ⟨_, rfl⟩

theorem CacheOnly.touchBucket (s : State) (b : Nat) : CacheOnly s (s.touchBucket b) := by
  unfold State.touchBucket
  split <;> exact ⟨_, rfl⟩

/-- Entries of sound parity are left as they are. -/
theorem State.checkSlots_sound (s : State) (b : Nat) {l : List Nat} (hl : ∀ e ∈ l, parityOk e = true) (i : Nat) : s.checkSlots b l i = s := by
  induction l generalizing i with
  | nil => rfl
  | cons e l ih =>
    have he : (entryValid e && !parityOk e) = false := by simp [hl e (by simp)]
    unfold State.checkSlots
    simp only [he, Bool.false_eq_true, if_false]
    exact ih (fun x hx => hl x (List.mem_cons_of_mem _ hx)) (i + 1)

theorem State.CachedAs.checkBucket (h : s.CachedAs b l) (hl : ∀ e ∈ l, parityOk e = true) : s.checkBucket b = s.touchBucket b := by
  rw [State.checkBucket, h.bucket, State.checkSlots_sound _ _ hl]

end

/-! ## The visit -/

/-- A valid entry of epoch 0. -/
def oldEntry : Nat := reparity (2 ^ 503)

/-- The pair its flow is learned into. -/
def oldPair : Nat × Nat := hashPair (0, 0) (entryFlow oldEntry).1 (entryFlow oldEntry).2

/-- A rehash to epoch 1 visits bucket `b`, which holds the entry; the buckets of its pair are cached without a slot. -/
def migrating (b : Nat) : State :=
  { State.reset with
    dev := { State.reset.dev with st := .prepare }
    dict := [(objKey 0x400C 0, 1), (objKey 0x400F 0, 1)]
    cat := { State.reset.cat with migr := b, cache := [⟨b, [oldEntry], false, false⟩, ⟨oldPair.1, [], false, false⟩, ⟨oldPair.2, [], false, false⟩] } }

/-- What the visit needs of the state, all through. -/
structure Migrating (b : Nat) (s : State) : Prop where
  source : s.CachedAs b [oldEntry]
  first  : s.CachedAs oldPair.1 []
  second : s.CachedAs oldPair.2 []
  seeds  : s.cat.newSeeds.getD s.cat.seeds = (0, 0)
  epoch  : s.get 0x400F 0 = 1
  passes : s.cat.migr ≤ b + 1

theorem oldEntry_sound : parityOk oldEntry = true := by decide +kernel

theorem exists_other (p : Nat × Nat) : ∃ b, b < 3 ∧ b ≠ p.1 ∧ b ≠ p.2 := by
  by_cases h0 : 0 ≠ p.1 ∧ 0 ≠ p.2
  · exact ⟨0, by decide, h0⟩
  · by_cases h1 : 1 ≠ p.1 ∧ 1 ≠ p.2
    · exact ⟨1, by decide, h1⟩
    · exact ⟨2, by decide, by omega, by omega⟩

section
variable {s : State} {b c : Nat}

theorem migrating_migrating (hfirst : b ≠ oldPair.1) (hsecond : b ≠ oldPair.2) : Migrating b (migrating b) where
  source := ⟨_, List.find?_cons_of_pos (by simp), rfl⟩
  first := ⟨⟨oldPair.1, [], false, false⟩, by simp [State.way?, migrating, hfirst], rfl⟩
  second := by
    by_cases hsame : oldPair.1 = oldPair.2
    · exact ⟨⟨oldPair.1, [], false, false⟩, by simp [State.way?, migrating, hsecond, hsame], rfl⟩
    · exact ⟨⟨oldPair.2, [], false, false⟩, by simp [State.way?, migrating, hsecond, hsame], rfl⟩
  seeds := rfl
  epoch := by rfl
  passes := Nat.le_succ b

theorem Migrating.touchBucket (h : Migrating b s) : Migrating b (s.touchBucket c) where
  source := h.source.touchBucket
  first := h.first.touchBucket
  second := h.second.touchBucket
  seeds := by
    obtain ⟨k, hk⟩ := CacheOnly.touchBucket s c
    rw [hk]
    exact h.seeds
  epoch := by
    rw [← h.epoch]
    exact State.get_of_dict_eq (State.touchBucket_within _ _ .dict (by decide)) (by decide)
  passes := by
    obtain ⟨k, hk⟩ := CacheOnly.touchBucket s c
    rw [hk]
    exact h.passes

/-- Every bucket of the visit is cached, its entries sound. -/
theorem Migrating.cached (h : Migrating b s) (hc : c ∈ [b, oldPair.1, oldPair.2]) : ∃ l, s.CachedAs c l ∧ ∀ e ∈ l, parityOk e = true := by
  simp only [List.mem_cons, List.not_mem_nil, or_false] at hc
  rcases hc with rfl | rfl | rfl
  · exact ⟨_, h.source, by simp [oldEntry_sound]⟩
  · exact ⟨_, h.first, by simp⟩
  · exact ⟨_, h.second, by simp⟩

/-- A bucket of the visit is read. -/
theorem Migrating.checkBucket (h : Migrating b s) (hc : c ∈ [b, oldPair.1, oldPair.2]) : Migrating b (s.checkBucket c) := by
  obtain ⟨l, hcached, hl⟩ := h.cached hc
  rw [hcached.checkBucket hl]
  exact h.touchBucket

theorem Migrating.checkBuckets (h : Migrating b s) {l : List Nat} (hl : ∀ c ∈ l, c ∈ [b, oldPair.1, oldPair.2]) :
    Migrating b (l.foldl State.checkBucket s) := by
  induction l generalizing s with
  | nil => exact h
  | cons c l ih => exact ih (h.checkBucket (hl c (by simp))) fun x hx => hl x (List.mem_cons_of_mem _ hx)

theorem oldEntry_valid : entryValid oldEntry = true := by decide +kernel

theorem oldEntry_epoch : entryEpoch oldEntry = 0 := by decide +kernel

theorem Migrating.oldEpoch (h : Migrating b s) : s.oldEpoch oldEntry = true := by
  rw [State.oldEpoch, h.epoch, oldEntry_valid, oldEntry_epoch]
  rfl

theorem Migrating.learnPair (h : Migrating b s) : s.learnPair (entryFlow oldEntry).1 (entryFlow oldEntry).2 = oldPair := by
  rw [State.learnPair, h.seeds, oldPair]

theorem Migrating.migrateBuckets (h : Migrating b s) : ∀ c ∈ s.migrateBuckets b, c ∈ [b, oldPair.1, oldPair.2] := by
  intro c hc
  rw [State.migrateBuckets, h.source.bucket, List.filter_cons_of_pos h.oldEpoch] at hc
  simpa [h.learnPair] using hc

/-- With its slot freed, the entry finds a place in the first bucket of its pair. -/
theorem Migrating.place (hfirst : s.CachedAs oldPair.1 []) (hsecond : s.CachedAs oldPair.2 []) : s.place oldPair = some (oldPair.1, 0) := by
  unfold State.place
  rw [hfirst.bucket, hsecond.bucket]
  simp [hfirst.bucket, freeSlot, show entryValid 0 = false by decide]

/-- The entry as it would stand in its new place. -/
def movedEntry : Nat := reparity (setFld oldEntry 500 500 1)

theorem movedEntry_ne_zero : movedEntry ≠ 0 := by decide +kernel

/-- The visit leaves the first bucket of the pair without an entry. -/
theorem Migrating.migrateSlots (h : Migrating b s) (hfirst : b ≠ oldPair.1) (hsecond : b ≠ oldPair.2) :
    (s.migrateSlots b [oldEntry] 0).bucket oldPair.1 = [] ∧ (s.migrateSlots b [oldEntry] 0).cat.migr ≤ b + 1 := by
  have hfreed : (s.setEntry b 0 (freed oldEntry)).CachedAs oldPair.1 [] ∧ (s.setEntry b 0 (freed oldEntry)).CachedAs oldPair.2 [] :=
    ⟨h.first.setBucket_other hfirst, h.second.setBucket_other hsecond⟩
  have hpair : (s.setEntry b 0 (freed oldEntry)).learnPair (entryFlow oldEntry).1 (entryFlow oldEntry).2 = oldPair := by
    obtain ⟨k, hk⟩ := CacheOnly.setBucket s b ((s.bucket b).set 0 (freed oldEntry))
    rw [State.learnPair, State.setEntry, hk]
    exact h.learnPair
  unfold State.migrateSlots
  simp only [h.oldEpoch, if_true, hpair, Migrating.place hfreed.1 hfreed.2, State.migrateSlots]
  refine ⟨(hfreed.1.setEntry_empty 0 _).bucket, ?_⟩
  obtain ⟨k, hk⟩ := CacheOnly.setBucket s b ((s.bucket b).set 0 (freed oldEntry))
  obtain ⟨k', hk'⟩ := CacheOnly.setBucket (s.setEntry b 0 (freed oldEntry)) oldPair.1
    (((s.setEntry b 0 (freed oldEntry)).bucket oldPair.1).set 0 (reparity (setFld oldEntry 500 500 (s.get 0x400F 0))))
  rw [State.setEntry, hk']
  change (s.setEntry b 0 (freed oldEntry)).cat.migr ≤ b + 1
  rw [State.setEntry, hk]
  exact h.passes

/-- The migrator has the visit behind it. -/
def visited (b : Nat) : State :=
  let s := migrating b
  { s with cat := { s.cat with migr := b + 1, migrDue := Max.max (s.cat.migrDue + 20 * s.get 0x400D 0) (27 * s.clock.elapsed) } }

theorem migrating_visited (hfirst : b ≠ oldPair.1) (hsecond : b ≠ oldPair.2) : Migrating b (visited b) := by
  obtain ⟨hsource, hone, htwo, hseeds, hepoch, -⟩ := migrating_migrating hfirst hsecond
  exact ⟨hsource, hone, htwo, hseeds, hepoch, Nat.le_refl _⟩

/-- What the visit leaves. -/
def migrated (b : Nat) : State :=
  let v := (((visited b).checkBucket b).migrateBuckets b).drop 1 |>.foldl State.checkBucket ((visited b).checkBucket b)
  v.migrateSlots b (v.bucket b) 0

theorem migrated_bucket (hfirst : b ≠ oldPair.1) (hsecond : b ≠ oldPair.2) :
    (migrated b).bucket oldPair.1 = [] ∧ (migrated b).cat.migr ≤ b + 1 := by
  have hvisited := migrating_visited hfirst hsecond
  have hsource := hvisited.checkBucket (c := b) (by simp)
  have hread := hsource.checkBuckets (l := (((visited b).checkBucket b).migrateBuckets b).drop 1) fun c hc =>
    hsource.migrateBuckets c (List.mem_of_mem_drop hc)
  unfold migrated
  dsimp only
  rw [hread.source.bucket]
  exact hread.migrateSlots hfirst hsecond

theorem exec_migrating (hb : b < 3) (hfirst : b ≠ oldPair.1) (hsecond : b ≠ oldPair.2) :
    Sys2Proof.Machine.exec (.migrationVisit 0) (migrating b) = .next (migrated b) := by
  have hat : (migrating b).at 0 = migrating b := rfl
  have hvisit : ¬ ((migrating b).catRuns = false ∨ (migrating b).get 0x400C 0 = 0 ∨ bucketCount ≤ b ∨ 27 * (migrating b).clock.elapsed < 0) := by
    rintro (hruns | hpass | hlast | hdue)
    · exact absurd hruns (by rw [show (migrating b).catRuns = true from rfl]; decide)
    · exact Nat.one_ne_zero hpass
    · exact absurd (Nat.lt_of_lt_of_le hb (by decide)) (Nat.not_lt.2 hlast)
    · exact Nat.not_lt_zero _ hdue
  have hfree : (visited b).catBlocked ((visited b).migrateBuckets b) = false := rfl
  have hends : (migrated b).endPass = migrated b :=
    if_pos (.inl (Nat.lt_of_le_of_lt (migrated_bucket hfirst hsecond).2 (Nat.lt_of_lt_of_le (Nat.succ_lt_succ hb) (by decide))))
  have hrun : (migrating b).frozen = false := rfl
  change execMigrationVisit 0 (migrating b) = _
  unfold execMigrationVisit
  rw [hat]
  dsimp only
  rw [hrun]
  exact ((if_neg Bool.false_ne_true).trans (if_neg hvisit)).trans
    ((if_neg (hfree ▸ Bool.false_ne_true)).trans (congrArg Host.Outcome.next hends))

end

/-- Refutes O28: the clause finds the entry in its new place, with no premise that a cached bucket holds four entries. -/
theorem not_catalogueUpkeep : ¬ Obligations.CatalogueUpkeep := by
  unfold Obligations.CatalogueUpkeep
  rintro ⟨-, -, -, -, hmoves, -⟩
  obtain ⟨b, hb, hfirst, hsecond⟩ := exists_other oldPair
  have hstart := migrating_migrating hfirst hsecond
  have hold : ((migrating b).bucket b).filter (migrating b).oldEpoch = [oldEntry] := by
    rw [hstart.source.bucket, List.filter_cons_of_pos hstart.oldEpoch, List.filter_nil]
  have hsound : (migrating b).hotSound ((migrating b).migrateBuckets b) = true := by
    unfold State.hotSound
    rw [List.all_eq_true]
    intro c hc
    obtain ⟨l, hcached, hl⟩ := hstart.cached (hstart.migrateBuckets c hc)
    have hentries : (migrating b).bucket c = l := hcached.bucket
    obtain ⟨w, hw, -⟩ := hcached
    rw [hentries, hw, Option.isSome_some, Bool.true_and, List.all_eq_true]
    exact fun e he => by rw [hl e he, Bool.or_true]
  have hplace : ((migrating b).setEntry b (((migrating b).bucket b).findIdx (migrating b).oldEpoch) (freed oldEntry)).place
      ((migrating b).learnPair (entryFlow oldEntry).1 (entryFlow oldEntry).2) = some (oldPair.1, 0) := by
    rw [hstart.learnPair]
    exact Migrating.place (hstart.first.setBucket_other hfirst) (hstart.second.setBucket_other hsecond)
  have hmore : b + 1 < bucketCount := Nat.lt_of_lt_of_le (Nat.succ_lt_succ hb) (by decide)
  obtain ⟨u, hu, hmoved, -⟩ := hmoves (migrating b) 0 rfl rfl rfl Nat.one_ne_zero (Nat.zero_le _) rfl hsound hmore oldEntry hold
    (oldPair.1, 0) hplace (Nat.le_refl 1)
  obtain rfl : migrated b = u := by injection (exec_migrating hb hfirst hsecond).symm.trans hu
  rw [(migrated_bucket hfirst hsecond).1] at hmoved
  have hepoch : (migrating b).get 0x400F 0 = 1 := hstart.epoch
  rw [hepoch] at hmoved
  exact movedEntry_ne_zero hmoved.symm

end Sys2Proof.Machine

/-! O32: a WAIT leaves the queue of a cue light beyond the 16 bits of a sub-index. -/

namespace Sys2Proof.Machine

set_option Elab.async false

/-- A list of ring 0 that waits for light 65,540. -/
def farWait : Run where
  ring := 0
  start := 0
  launched := false
  acc := 0
  lw0 := 0
  lw1 := 0
  evt := 0
  pos := .ring 1
  restart := ⟨.ring 0, [], 0, [], 0⟩
  block := .wait 65540 1 false
  last := .ring 0

/-- It runs on array 0, whose install list has the higher priority; a complete tap buffer waits for the same light, and the object
that the light's sub-index leads to, 0x5401:05, reads 3. -/
def farWaiting : State :=
  { State.reset with
    dict := [(objKey 0x5401 5, 3), (objKey 0x680F 0, 7)]
    arr := State.reset.arr.set 0 { run := some farWait, install := [[0]] }
    sync := { State.reset.sync with
      waiters := [⟨65540, 0, 1, false, 0⟩]
      taps := [(0, { b0 := { light := 65540, busy := true } })] } }

theorem farWaiting_run : (farWaiting.arrAt 0).run = some farWait := by
  rfl

theorem farWaiting_higher : farWaiting.higherReady 0 farWait = some 16 := by
  decide

theorem farWaiting_canonical : farWaiting.canonical = true := by
  decide

theorem farWaiting_left : (farWaiting.leaveQueue 0 1 farWait).obj 0x5401 5 = 2 := by
  decide

theorem exec_farWaiting : Sys2Proof.Machine.exec (.preEmption 0 0) farWaiting = .next (farWaiting.suspend 0 farWait) := by
  have hat : farWaiting.at 0 = farWaiting := rfl
  have hurgent : farWaiting.isUrgent 0 16 farWait = false := rfl
  change execPreEmption 0 0 farWaiting = _
  unfold execPreEmption
  rw [hat]
  simp only [Fin.val_zero, farWaiting_run, farWaiting_higher, hurgent]
  exact if_pos ⟨rfl, trivial⟩

/-- The running list of an array is shown in the array's own row alone. -/
theorem State.showRun_objsBut (s : State) (a : Nat) : ObjsBut (fun i j => i == 0x5040 + a && (j == 1 || j == 2)) s (s.showRun a) := by
  have hone (s : State) (v : Nat) : ObjsBut (fun i j => i == 0x5040 + a && (j == 1 || j == 2)) s (s.put (0x5040 + a) 1 v) :=
    (s.put_objsBut v).mono fun i j h => by simp_all
  have htwo (s : State) (v : Nat) : ObjsBut (fun i j => i == 0x5040 + a && (j == 1 || j == 2)) s (s.put (0x5040 + a) 2 v) :=
    (s.put_objsBut v).mono fun i j h => by simp_all
  unfold State.showRun
  split
  · exact hone s _
  · exact (hone s _).trans (htwo _ _)

/-- A suspension changes the row of its array after its list left the queue. -/
theorem State.suspend_objsBut (s : State) (a : Nat) (r : Run) : ObjsBut (fun i _ => i == 0x5040 + a) (s.leaveQueue a 1 r) (s.suspend a r) := by
  unfold State.suspend
  extract_lets v back r' w
  have hw : ObjsBut (fun i _ => i == 0x5040 + a) v w := (v.bump_objsBut (i := 0x5040 + a) (j := 6)).mono fun i j h => by simp_all
  exact (hw.trans (.of_dict rfl)).trans ((State.showRun_objsBut _ a).mono fun i j h => by simp_all)

/-- Refutes O32: the release takes a unit from the object of another row, which the clause keeps; it has no premise that a light is
below 65,535. -/
theorem not_listCommands : ¬ Obligations.ListCommands := by
  unfold Obligations.ListCommands
  rintro ⟨-, -, -, -, -, hwait, -⟩
  obtain ⟨u, hu, -, -, -, -, -, hnotes⟩ := hwait farWaiting 0 0 farWait farWaiting_run 16 farWaiting_higher rfl farWaiting_canonical rfl
  obtain rfl : farWaiting.suspend 0 farWait = u := by injection exec_farWaiting.symm.trans hu
  have hkept : (farWaiting.suspend 0 farWait).obj 0x5401 5 = 3 := hnotes.objs 0x5401 5 (by decide) (by decide)
  have htaken := farWaiting_left
  rw [← State.suspend_objsBut farWaiting 0 farWait 0x5401 5 (by decide) (by decide), hkept] at htaken
  exact absurd htaken (by decide)

end Sys2Proof.Machine

/-! O23: line ports (R18, R25, R65, R66). -/

namespace Sys2Proof.Machine

set_option Elab.async false

open Sys2Proof.Bits

section
variable {s u : State} {p : Fin 4} {t : Nat}

theorem State.forwards_at (s : State) (t : Nat) : (s.at t).forwards = s.forwards := by
  obtain ⟨c, hc⟩ := s.at_eq t
  rw [hc]
  rfl

theorem State.lineAt_at (s : State) (t p : Nat) : (s.at t).lineAt p = s.lineAt p := by
  obtain ⟨c, hc⟩ := s.at_eq t
  rw [hc]
  rfl

theorem State.at_wf (h : s.canonical = true) (t : Nat) : Sparse.wf objDefault (s.at t).dict = true := by
  have hdict : (s.at t).dict = s.dict := s.at_within t .dict (by decide)
  rw [hdict]
  exact State.dict_wf h

theorem State.modLine_line_congr {s u : State} (h : u.line = s.line) (p : Nat) (f : Line → Line) : (u.modLine p f).line = (s.modLine p f).line := by
  rw [State.modLine, State.modLine, h]

/-- Two changes of a port's record that agree on the record it has are one. -/
theorem State.modLine_congr {f g : Line → Line} (h : f (s.lineAt p.val) = g (s.lineAt p.val)) : s.modLine p.val f = s.modLine p.val g := by
  have hline : s.line.mapIdx (fun i l => if i = p.val then f l else l) = s.line.mapIdx fun i l => if i = p.val then g l else l := by
    refine Vector.ext fun i hi => ?_
    rw [Vector.getElem_mapIdx, Vector.getElem_mapIdx]
    by_cases hip : i = p.val
    · subst hip
      have hat : s.line[p.val] = s.lineAt p.val := by simp [State.lineAt]
      rw [if_pos rfl, if_pos rfl, hat, h]
    · rw [if_neg hip, if_neg hip]
  rw [State.modLine, State.modLine, hline]

/-! ## Links -/

theorem linkUp_raises (hform : s.canonical = true) (hforwards : s.forwards = true) (hlane : laneUsed (s.get 0x3001 (p.val + 1)) 0 = true) :
    ∃ u, Sys2Proof.Machine.exec (.linkUp p t) s = .next u ∧ (
      u.line = (s.modLine p.val fun l => { l with up := true, nextSeq := if l.up then l.nextSeq else 0 }).line ∧ u.obj 0x3005 (p.val + 1) = 1 ∧
      Within [.line, .dict, .clock] s u ∧ ObjsBut (fun i j => i == 0x3005 && j == p.val + 1) s u) := by
  have hat := s.at_within t
  have hp : p.val + 1 < 65536 := by omega
  refine ⟨((s.at t).put 0x3005 (p.val + 1) 1).modLine p.val fun l => { l with up := true, nextSeq := if l.up then l.nextSeq else 0 },
    if_pos ?_, State.modLine_line_congr (hat .line (by decide)) .., State.obj_put (State.at_wf hform t), ?_, ?_⟩
  · rw [State.forwards_at, State.get_at, hforwards, hlane]
    rfl
  · exact ((hat.mono (by decide)).step (State.put_within _ _ _ _) (by decide)).step (State.modLine_within _ _ _) (by decide)
  · exact (ObjsBut.of_dict (hat .dict (by decide))).trans (State.put_objsBut _ _ hp)

theorem linkUp_waits (h : s.forwards = false ∨ laneUsed (s.get 0x3001 (p.val + 1)) 0 = false) :
    Sys2Proof.Machine.exec (.linkUp p t) s = .next (s.at t) := by
  refine if_neg ?_
  rw [State.forwards_at, State.get_at]
  rcases h with h | h <;> simp [h]

theorem linkDown_drops (hform : s.canonical = true) :
    ∃ u, Sys2Proof.Machine.exec (.linkDown p t) s = .next u ∧ (
      u.line = (s.modLine p.val fun l => { l with up := false }).line ∧ u.obj 0x3005 (p.val + 1) = 0 ∧
      Within [.line, .dict, .clock] s u ∧ ObjsBut (fun i j => i == 0x3005 && j == p.val + 1) s u) := by
  have hat := s.at_within t
  refine ⟨((s.at t).put 0x3005 (p.val + 1) 0).modLine p.val fun l => { l with up := false }, rfl,
    State.modLine_line_congr (hat .line (by decide)) .., State.obj_put (State.at_wf hform t), ?_, ?_⟩
  · exact ((hat.mono (by decide)).step (State.put_within _ _ _ _) (by decide)).step (State.modLine_within _ _ _) (by decide)
  · exact (ObjsBut.of_dict (hat .dict (by decide))).trans (State.put_objsBut _ _ (by omega))

/-! ## Frames received -/

/-- What a frame counts in that is not taken: a bad FCS, too short, too long, or no room (R18, R25). -/
def State.lossObj (s : State) (p : Nat) (n : Nat) (fcsGood : Bool) : Nat :=
  if fcsGood = false then 0x3011 else if n < 64 then 0x3012 else if s.get 0x3004 (p + 1) < n then 0x3013 else 0x3010

/-- Words of the frames that wait in a port's crossing. -/
def State.rxWords (s : State) (p : Nat) : Nat := (s.lineAt p).rx.foldl (fun k f => k + frameWords f.bytes) 0

variable {bytes : Bytes} {fcsGood : Bool}

theorem frameReceived_taken (hform : s.canonical = true) (hforwards : s.forwards = true) (hup : (s.lineAt p.val).up = true) (hfcs : fcsGood = true)
    (hshort : 64 ≤ bytes.length + 4) (hlong : bytes.length + 4 ≤ s.get 0x3004 (p.val + 1)) (hroom : s.rxWords p.val + frameWords bytes ≤ 512) :
    ∃ u, Sys2Proof.Machine.exec (.frameReceived p bytes fcsGood t) s = .next u ∧ (
      u.line = (s.modLine p.val fun l => { l with
        rx := l.rx ++ [⟨bytes, ((u.now : Int) - toInt 16 (s.get 0x3008 (p.val + 1))).toNat⟩] }).line ∧
      u.obj 0x3014 (p.val + 1) = (s.obj 0x3014 (p.val + 1) + 1) % 2 ^ 64 ∧ Within [.line, .dict, .clock] s u ∧
      ObjsBut (fun i j => i == 0x3014 && j == p.val + 1) s u) := by
  have hat := s.at_within t
  have hexec : Sys2Proof.Machine.exec (.frameReceived p bytes fcsGood t) s =
      .next (((s.at t).bump 0x3014 (p.val + 1)).modLine p.val fun l => { l with
        rx := l.rx ++ [⟨bytes, (((s.at t).now : Int) - toInt 16 ((s.at t).get 0x3008 (p.val + 1))).toNat⟩] }) := by
    change execFrameReceived p bytes fcsGood t s = _
    unfold execFrameReceived
    dsimp only
    rw [if_neg (by simp [State.forwards_at, State.lineAt_at, hforwards, hup]), if_neg (by simp [hfcs]), if_neg (by omega),
      if_neg (by rw [State.get_at]; omega), if_neg (by rw [State.lineAt_at]; exact Nat.not_lt.2 hroom)]
  refine ⟨_, hexec, ?_, ?_, ?_, ?_⟩
  · rw [State.get_at]
    exact State.modLine_line_congr (u := (s.at t).bump 0x3014 (p.val + 1)) (hat .line (by decide)) _ _
  · exact (State.obj_bump (State.at_wf hform t)).trans (by rw [State.obj, State.obj, hat .dict (by decide)])
  · exact ((hat.mono (by decide)).step (State.bump_within _ _ _) (by decide)).step (State.modLine_within _ _ _) (by decide)
  · exact (ObjsBut.of_dict (hat .dict (by decide))).trans (State.bump_objsBut _ (by omega))

/-- A frame that is not taken is counted, and nothing else. -/
theorem frameReceived_counted (hform : s.canonical = true) (hforwards : s.forwards = true) (hup : (s.lineAt p.val).up = true)
    (hbad : fcsGood = false ∨ bytes.length + 4 < 64 ∨ s.get 0x3004 (p.val + 1) < bytes.length + 4 ∨ 512 < s.rxWords p.val + frameWords bytes) :
    ∃ u, Sys2Proof.Machine.exec (.frameReceived p bytes fcsGood t) s = .next u ∧ (
      u.obj (s.lossObj p.val (bytes.length + 4) fcsGood) (p.val + 1) = (s.obj (s.lossObj p.val (bytes.length + 4) fcsGood) (p.val + 1) + 1) % 2 ^ 64 ∧
      Within [.dict, .clock] s u ∧ ObjsBut (fun i j => i == s.lossObj p.val (bytes.length + 4) fcsGood && j == p.val + 1) s u) := by
  have hat := s.at_within t
  have hexec : Sys2Proof.Machine.exec (.frameReceived p bytes fcsGood t) s =
      .next ((s.at t).bump (s.lossObj p.val (bytes.length + 4) fcsGood) (p.val + 1)) := by
    change execFrameReceived p bytes fcsGood t s = _
    unfold execFrameReceived State.lossObj
    dsimp only
    rw [if_neg (by simp [State.forwards_at, State.lineAt_at, hforwards, hup]), State.get_at, State.lineAt_at]
    by_cases hfcs : fcsGood = false
    · rw [if_pos hfcs, if_pos hfcs]
    by_cases hshort : bytes.length + 4 < 64
    · rw [if_neg hfcs, if_pos hshort, if_neg hfcs, if_pos hshort]
    by_cases hlong : s.get 0x3004 (p.val + 1) < bytes.length + 4
    · rw [if_neg hfcs, if_neg hshort, if_pos hlong, if_neg hfcs, if_neg hshort, if_pos hlong]
    have hfull : 512 < (s.lineAt p.val).rx.foldl (fun k f => k + frameWords f.bytes) 0 + frameWords bytes :=
      ((hbad.resolve_left hfcs).resolve_left hshort).resolve_left hlong
    rw [if_neg hfcs, if_neg hshort, if_neg hlong, if_pos hfull, if_neg hfcs, if_neg hshort, if_neg hlong]
  generalize s.lossObj p.val (bytes.length + 4) fcsGood = i at hexec ⊢
  refine ⟨_, hexec, ?_, ?_, ?_⟩
  · exact (State.obj_bump (State.at_wf hform t)).trans (by rw [State.obj, State.obj, hat .dict (by decide)])
  · exact (hat.mono (by decide)).step (State.bump_within _ _ _) (by decide)
  · exact (ObjsBut.of_dict (hat .dict (by decide))).trans (State.bump_objsBut _ (by omega))

theorem frameReceived_off (h : s.forwards = false ∨ (s.lineAt p.val).up = false) :
    Sys2Proof.Machine.exec (.frameReceived p bytes fcsGood t) s = .next (s.at t) := by
  refine if_pos ?_
  rw [State.forwards_at, State.lineAt_at]
  exact h

/-! ## Frames sent -/

/-- The departure stamp (R18): house time and the port's correction. -/
def State.departure (s : State) (p : Nat) : Nat := ((s.now : Int) + toInt 16 (s.get 0x3009 (p + 1))).toNat

/-- The pair forwards the frame in line and adds its residence time (R65, R66). -/
def State.transparent (s : State) (p : Nat) (i : QItem) : Bool :=
  (decide (s.get 0x3000 0 = 0) || (decide (s.get 0x3000 0 = 2) && decide (p / 2 = 0))) && s.flag 0x3007 (p / 2 + 1) &&
    decide (i.ingress = some (nxor p 1))

/-- The bytes of a frame as it leaves, before its padding. -/
def State.sentBytes (s : State) (p : Nat) (i : QItem) : Bytes :=
  match ptpEvent i.bytes with
  | some (o, udp) => if s.transparent p i then addResidence i.bytes o udp ((s.departure p : Int) - i.stamp) else i.bytes
  | none => i.bytes

/-- What sending the first frame of a port's crossing leaves. -/
def State.sent (s : State) (p : Nat) (i : QItem) : State :=
  ((s.modLine p fun l => { l with tx := l.tx.drop 1 }).emit
    (.lineFrame p (s.sentBytes p i ++ List.replicate (60 - (s.sentBytes p i).length) 0) (s.departure p))).bump 0x3015 (p + 1)

variable {i : QItem}

theorem frameTransmitted_sends (hhead : (s.lineAt p.val).tx.head? = some i) (hforwards : s.forwards = true) (hup : (s.lineAt p.val).up = true) :
    Sys2Proof.Machine.exec (.frameTransmitted p t) s = .next ((s.at t).sent p.val i) := by
  obtain ⟨rest, htx⟩ : ∃ rest, (s.lineAt p.val).tx = i :: rest := List.head?_eq_some_iff.1 hhead
  have hdrop : ((s.at t).modLine p.val fun l => { l with tx := rest }) = (s.at t).modLine p.val fun l => { l with tx := l.tx.drop 1 } :=
    State.modLine_congr (by rw [State.lineAt_at, htx]; rfl)
  change execFrameTransmitted p t s = _
  unfold execFrameTransmitted
  dsimp only
  rw [State.lineAt_at, htx]
  dsimp only
  rw [if_neg (by simp [State.forwards_at, hforwards, hup]), hdrop]
  rfl

theorem State.sent_within (s : State) (p : Nat) (i : QItem) : Within [.line, .out, .dict, .clock] s (s.sent p i) :=
  (((s.modLine_within _ _).mono (by decide)).step (State.emit_within _ _) (by decide)).step (State.bump_within _ _ _) (by decide)

theorem State.sent_objsBut (s : State) (p : Fin 4) (i : QItem) : ObjsBut (fun k j => k == 0x3015 && j == p.val + 1) s (s.sent p.val i) :=
  (ObjsBut.of_dict rfl).trans (State.bump_objsBut (State.emit _ _) (by omega))

theorem State.sent_counts (h : Sparse.wf objDefault s.dict = true) (p : Nat) (i : QItem) :
    (s.sent p i).obj 0x3015 (p + 1) = (s.obj 0x3015 (p + 1) + 1) % 2 ^ 64 := by
  unfold State.sent
  generalize hw : (s.modLine p fun l => { l with tx := l.tx.drop 1 }).emit _ = w
  have hdict : w.dict = s.dict := by rw [← hw]; rfl
  rw [State.obj_bump (hdict ▸ h), State.obj, State.obj, hdict]

theorem State.departure_at (s : State) (t p : Nat) : (s.at t).departure p = (((s.at t).now : Int) + toInt 16 (s.get 0x3009 (p + 1))).toNat := by
  rw [State.departure, State.get_at]

theorem State.transparent_at (s : State) (t p : Nat) (i : QItem) : (s.at t).transparent p i = s.transparent p i := by
  obtain ⟨c, hc⟩ := s.at_eq t
  rw [hc]
  rfl

/-- A frame to which no residence time is added leaves as it came. -/
theorem State.sentBytes_plain (h : i.ingress = none ∨ s.flag 0x3007 (p.val / 2 + 1) = false ∨ ptpEvent i.bytes = none) :
    s.sentBytes p.val i = i.bytes := by
  unfold State.sentBytes
  split
  · rename_i e hptp
    refine if_neg ?_
    rcases h with h | h | h
    · simp [State.transparent, h]
    · simp [State.transparent, h]
    · exact absurd (hptp.symm.trans h) (Option.some_ne_none _)
  · rfl

theorem patch_length (bs : Bytes) (o : Nat) (x : Bytes) : bs.length ≤ (patch bs o x).length := by
  simp [patch]
  omega

theorem addResidence_length (bs : Bytes) (o : Nat) (udp : Option (Nat × Bool)) (ns : Int) : bs.length ≤ (addResidence bs o udp ns).length := by
  unfold addResidence
  extract_lets old new out
  have hout : bs.length ≤ out.length := patch_length _ _ _
  split
  · exact hout
  · extract_lets sum c
    split
    · exact hout
    · exact Nat.le_trans hout (patch_length _ _ _)

theorem frameTransmitted_idle (h : (s.lineAt p.val).tx = [] ∨ s.forwards = false ∨ (s.lineAt p.val).up = false) :
    Sys2Proof.Machine.exec (.frameTransmitted p t) s = .next (s.at t) := by
  change execFrameTransmitted p t s = _
  unfold execFrameTransmitted
  dsimp only
  rw [State.lineAt_at, State.forwards_at]
  split
  · rfl
  · rename_i htx
    refine if_pos (h.resolve_left fun hnil => ?_)
    exact absurd (htx.symm.trans hnil) (List.cons_ne_nil _ _)

end

/-- Settles O23, clause by clause. -/
theorem linePortCommands : Obligations.LinePortCommands := by
  unfold Obligations.LinePortCommands
  refine ⟨fun s p t hform hforwards hlane => linkUp_raises hform hforwards hlane, fun s p t h => ⟨_, linkUp_waits h, s.at_within t⟩,
    fun s p t hform => linkDown_drops hform,
    fun s p bytes fcsGood t hform hforwards hup hfcs hshort hlong hroom => frameReceived_taken hform hforwards hup hfcs hshort hlong hroom,
    fun s p bytes fcsGood t hform hforwards hup hbad => frameReceived_counted hform hforwards hup hbad,
    fun s p bytes fcsGood t h => ⟨_, frameReceived_off h, s.at_within t⟩, ?_, ?_,
    fun s p t h => ⟨_, frameTransmitted_idle h, s.at_within t⟩⟩
  · intro s p t i hhead hform hforwards hup hplain
    have hat := s.at_within t
    have hsent := (s.at t).sent_within p.val i
    have hstamp : ((s.at t).sent p.val i).now = (s.at t).now := rfl
    have hbytes : (s.at t).sentBytes p.val i = i.bytes := State.sentBytes_plain (by rw [State.flag, State.get_at]; exact hplain)
    refine ⟨_, frameTransmitted_sends hhead hforwards hup, State.modLine_line_congr (hat .line (by decide)) _ _, ?_, ?_, (hat.mono (by decide)).trans hsent,
      (ObjsBut.of_dict (hat .dict (by decide))).trans ((s.at t).sent_objsBut p i)⟩
    · rw [hstamp, ← State.departure_at, ← hbytes]
      exact congrArg (List.cons _) (hat .out (by decide))
    · rw [State.sent_counts (State.at_wf hform t), State.obj, State.obj, hat .dict (by decide)]
  · intro s p t i hhead hforwards hup hmode hingress hflag e hptp hlength
    have hat := s.at_within t
    have hstamp : ((s.at t).sent p.val i).now = (s.at t).now := rfl
    have htransparent : (s.at t).transparent p.val i = true := by
      rw [State.transparent_at]
      simp [State.transparent, hmode, hflag, hingress]
    have hbytes : (s.at t).sentBytes p.val i = addResidence i.bytes e.1 e.2 (((s.at t).departure p.val : Int) - i.stamp) := by
      unfold State.sentBytes
      rw [hptp]
      exact if_pos htransparent
    have hpad : 60 - ((s.at t).sentBytes p.val i).length = 0 := by
      have hlonger := addResidence_length i.bytes e.1 e.2 (((s.at t).departure p.val : Int) - i.stamp)
      rw [hbytes]
      omega
    refine ⟨_, frameTransmitted_sends hhead hforwards hup, ?_, (hat.mono (by decide)).trans ((s.at t).sent_within p.val i),
      (ObjsBut.of_dict (hat .dict (by decide))).trans ((s.at t).sent_objsBut p i)⟩
    have hout : ((s.at t).sent p.val i).out = .lineFrame p.val ((s.at t).sentBytes p.val i) ((s.at t).departure p.val) :: (s.at t).out := by
      conv => rhs; rw [← List.append_nil ((s.at t).sentBytes p.val i), ← List.replicate_zero (a := (0 : Byte)), ← hpad]
      rfl
    rw [hstamp, hout, ← State.departure_at, hbytes, hat .out (by decide)]

end Sys2Proof.Machine

/-! O20: the library's slots are loaded, staged, installed and erased (R280 to R297). -/

namespace Sys2Proof.Machine

set_option Elab.async false

open Sys2Proof.Bits

section
variable {s u : State} {k a : Nat}

/-! ## The state of a slot -/

theorem isRuleObj_slot (hk : k < 16) (j : Nat) : isRuleObj (0x6820 + k) j = false := by
  unfold isRuleObj
  simp
  omega

theorem State.slotState_eq (hk : k < 16) (s : State) : s.slotState k = s.obj (0x6820 + k) 1 := State.get_of_dict (isRuleObj_slot hk 1)

theorem State.slotState_of_dict (hk : k < 16) (h : u.dict = s.dict) : u.slotState k = s.slotState k := by
  rw [State.slotState_eq hk, State.slotState_eq hk, State.obj, State.obj, h]

theorem State.slotState_at (s : State) (t k : Nat) : (s.at t).slotState k = s.slotState k := State.get_at s t _ _

theorem State.slotAt_of_lib (h : u.lib = s.lib) (k : Nat) : u.slotAt k = s.slotAt k := by rw [State.slotAt, State.slotAt, h]

theorem State.slotAt_modSlot (hk : k < 16) (s : State) (f : LibSlot → LibSlot) : (s.modSlot k f).slotAt k = f (s.slotAt k) := by
  simp [State.slotAt, State.modSlot, hk]

theorem State.put_others (s : State) {i j v : Nat} {p : Nat → Nat → Bool} (hp : p i j = true) (hj : j < 65536 := by decide) :
    ObjsBut p s (s.put i j v) :=
  (s.put_objsBut v hj).mono fun i' j' h => by
    refine Bool.eq_false_iff.2 fun hne => ?_
    simp only [Bool.and_eq_true, beq_iff_eq] at hne
    rw [hne.1, hne.2, hp] at h
    cases h

theorem State.modSlot_within (s : State) (k : Nat) (f : LibSlot → LibSlot) : Within [.lib] s (s.modSlot k f) := s.set_lib_within _

theorem State.voidPersisted_within (s : State) (k : Nat) : Within [.flash] s (s.voidPersisted k) := s.set_flash_within _

theorem State.dropStaging_within (s : State) (k : Nat) : Within [.lib, .arr, .dict] s (s.dropStaging k) := by
  unfold State.dropStaging
  split
  · split
    · extract_lets off idle _ v
      have hv : Within [.lib, .arr, .dict] s v := 
        ((s.set_lib_within { s.lib with staged := none }).mono (by decide)).step
          (State.set_arr_within { s with lib := { s.lib with staged := none } } _) (by decide)
      exact hv.trans (Within.foldl (fun s a => ((s.put_within _ _ _).trans (State.showRun_within _ _)).mono (by decide)) _ _)
    · exact .refl _ s
  · exact .refl _ s

/-- The objects of a slot that its emptying and its loading write. -/
def slotObj (k i j : Nat) : Bool := i == 0x6820 + k && (j == 1 || j == 2 || j == 3 || j == 4 || j == 5 || j == 9)

theorem State.emptySlot_within (s : State) (k : Nat) : Within [.lib, .arr, .dict] s (s.emptySlot k) := by
  unfold State.emptySlot
  extract_lets v
  have hv : Within [.lib, .arr, .dict] s v := (s.dropStaging_within k).step (State.modSlot_within _ _ _) (by decide)
  exact ((((hv.step (State.put_within _ _ _ _) (by decide)).step (State.put_within _ _ _ _) (by decide)).step (State.put_within _ _ _ _) (by decide)).step
    (State.put_within _ _ _ _) (by decide)).step (State.put_within _ _ _ _) (by decide)

/-- An emptied slot is EMPTY, and its record is blank. -/
theorem State.emptySlot_empties (hk : k < 16) (hform : s.canonical = true) :
    (s.emptySlot k).slotState k = slotEmpty ∧ (s.emptySlot k).slotAt k = {} := by
  have hdropped : Sparse.wf objDefault ((s.dropStaging k).modSlot k fun _ => {}).dict = true := State.dict_wf ((Calm.refl s).dropStaging.modSlot.form hform)
  unfold State.emptySlot
  extract_lets v
  constructor
  · rw [State.slotState_eq hk]
    have hlater : ObjsBut (fun i j => i == 0x6820 + k && decide (2 ≤ j)) (v.setSlotState k slotEmpty)
        (((((v.setSlotState k slotEmpty).put (0x6820 + k) 2 0).put (0x6820 + k) 3 0).put (0x6820 + k) 4 0).put (0x6820 + k) 5 0) :=
      (((State.put_others _ (by simp)).trans (State.put_others _ (by simp))).trans (State.put_others _ (by simp))).trans (State.put_others _ (by simp))
    rw [hlater _ _ (by decide) (by simp)]
    exact State.obj_put hdropped
  · exact State.slotAt_modSlot hk _ _

/-! ## IMAGE_LOAD_CHECK -/

theorem State.persistSlot_within (s : State) (k : Nat) : Within [.dict, .mem, .memc, .obs, .odp, .out, .flash] s (s.persistSlot k) := by
  unfold State.persistSlot
  split
  · extract_lets x v b
    have hv : Within [.dict, .mem, .memc, .obs, .odp, .out, .flash] s v := (s.voidPersisted_within k).mono (by decide)
    split
    · exact hv.step (State.raise_quiet _ _ _ _) (by decide)
    · exact hv.step (State.set_flash_within _ _) (by decide)
  · exact .refl _ s

/-- A slot's persisted copy is made beside the objects. -/
theorem State.persistSlot_objs (s : State) (k : Nat) : ObjsBut (fun i _ => noteObj i) s (s.persistSlot k) := by
  unfold State.persistSlot
  split
  · extract_lets x v b
    have hv : ObjsBut (fun i _ => noteObj i) s v := .of_dict (s.voidPersisted_within k .dict (by decide))
    split
    · exact hv.trans (State.raise_noted v _ _ _).objs
    · exact hv.trans (.of_dict rfl)
  · exact .refl _ s

theorem noteObj_slot (hk : k < 16) : noteObj (0x6820 + k) = false := by
  simp [noteObj]
  omega

theorem State.slotPasses_within (s : State) (k : Nat) (b : Bytes) (m : Model) : Within [.lib, .dict] s (s.slotPasses k b m) := by
  unfold State.slotPasses
  extract_lets i v
  have hv : Within [.lib, .dict] s v := ((s.modSlot_within _ _).mono (by decide)).step (State.put_within _ _ _ _) (by decide)
  exact ((((hv.step (State.put_within _ _ _ _) (by decide)).step (State.put_within _ _ _ _) (by decide)).step (State.put_within _ _ _ _) (by decide)).step
    (State.put_within _ _ _ _) (by decide)).step (State.put_within _ _ _ _) (by decide)

theorem State.slotPasses_valid (hk : k < 16) (hform : s.canonical = true) (b : Bytes) (m : Model) :
    (s.slotPasses k b m).slotState k = slotValid ∧ ((s.slotPasses k b m).slotAt k).model = some m ∧ (s.slotPasses k b m).obj (0x6820 + k) 9 = 0 := by
  have hmod : Sparse.wf objDefault (s.modSlot k fun x => { x with model := some m }).dict = true := State.dict_wf ((Calm.refl s).modSlot.form hform)
  have hpasses : (s.slotPasses k b m).canonical = true := (Calm.refl s).slotPasses.form hform
  unfold State.slotPasses
  extract_lets i v
  refine ⟨?_, ?_, ?_⟩
  · have hlater : ObjsBut (fun i j => i == 0x6820 + k && decide (2 ≤ j)) v
        (((((v.put i 2 (imgId b)).put i 3 (imgGen b)).put i 4 (imgSize b)).put i 5 (imgTableSha b)).put i 9 0) :=
      ((((State.put_others _ (by simp [i])).trans (State.put_others _ (by simp [i]))).trans (State.put_others _ (by simp [i]))).trans
        (State.put_others _ (by simp [i]))).trans (State.put_others _ (by simp [i]))
    rw [State.slotState_eq hk, hlater _ _ (by decide) (by simp)]
    exact State.obj_put hmod
  · exact congrArg LibSlot.model (State.slotAt_modSlot hk s _)
  · exact State.obj_put (State.dict_wf ((Calm.refl s).modSlot.setSlotState.put.put.put.put.form hform))

/-- What loading a slot's image comes to (R285): VALID with the model the checks gave, or EMPTY with their abort code. -/
structure Loaded (k : Nat) (x : Except Nat Model) (s u : State) : Prop where
  frame  : Within [.dict, .lib, .flash, .odp, .out, .clock, .arr, .mem, .memc, .obs] s u
  valid  : ∀ m, x = .ok m → u.slotState k = slotValid ∧ (u.slotAt k).model = some m ∧ u.obj (0x6820 + k) 9 = 0
  failed : ∀ c, x = .error c → u.slotState k = slotEmpty ∧ u.slotAt k = {} ∧ u.obj (0x6820 + k) 9 = c

theorem State.loadCheck_loads (hk : k < 16) (hform : s.canonical = true) :
    Loaded k (s.checkModel (s.memRead (s.slotAt k).off (s.slotAt k).size) k (s.slotAt k).len) s (s.loadCheck k) := by
  unfold State.loadCheck
  extract_lets x b
  cases hcheck : s.checkModel b k x.len with
  | ok m =>
    dsimp only
    obtain ⟨hstate, hmodel, habort⟩ := State.slotPasses_valid hk hform b m
    have hpasses := s.slotPasses_within k b m
    generalize s.slotPasses k b m = v at hstate hmodel habort hpasses
    have hkeep : ∀ j, j < 65536 → (v.persistSlot k).obj (0x6820 + k) j = v.obj (0x6820 + k) j := fun j hj => v.persistSlot_objs k _ _ hj (noteObj_slot hk)
    refine ⟨(hpasses.mono (by decide)).trans ((v.persistSlot_within k).mono (by decide)), ?_, fun c h => (by cases h)⟩
    rintro m' h
    cases h
    refine ⟨?_, ?_, (hkeep 9 (by decide)).trans habort⟩
    · rw [State.slotState_eq hk, hkeep 1 (by decide), ← State.slotState_eq hk, hstate]
    · rw [State.slotAt_of_lib (v.persistSlot_within k .lib (by decide)), hmodel]
  | error c =>
    dsimp only
    have hfailed : Within [.dict] s (if c = 0x08000045 then s.verifyFailed else s) := Within.ite (s.bump_within _ _) (.refl _ s)
    have hwform : (if c = 0x08000045 then s.verifyFailed else s).canonical = true := ((Calm.refl s).verifyFailed.ite (Calm.refl s)).form hform
    generalize (if c = 0x08000045 then s.verifyFailed else s) = w at hfailed hwform ⊢
    obtain ⟨hstate, hslot⟩ := State.emptySlot_empties hk hwform
    have hempty := w.emptySlot_within k
    have hvform : (w.emptySlot k).canonical = true := (Calm.refl w).emptySlot.form hwform
    generalize w.emptySlot k = v at hstate hslot hempty hvform ⊢
    refine ⟨((hfailed.mono (by decide)).trans (hempty.mono (by decide))).step (State.put_within _ _ _ _) (by decide), fun m h => (by cases h), ?_⟩
    rintro c' h
    cases h
    refine ⟨?_, hslot, State.obj_put (State.dict_wf hvform)⟩
    rw [State.slotState_eq hk, (v.put_objsBut (i := 0x6820 + k) (j := 9) c) _ _ (by decide) (by simp), ← State.slotState_eq hk, hstate]

variable {slot : Fin 16} {t : Nat}

theorem imageLoadCheck_loads (hform : s.canonical = true) (hstate : s.slotState slot.val = slotLoading)
    (hended : (s.odp.transfers.any fun x => !x.upload && decide (x.idx = 0xA010 + slot.val)) = false) :
    ∃ u, Sys2Proof.Machine.exec (.imageLoadCheck slot t) s = .next u ∧
      Loaded slot.val ((s.at t).checkModel (s.memRead (s.slotAt slot.val).off (s.slotAt slot.val).size) slot.val (s.slotAt slot.val).len) s u := by
  have hat := s.at_within t
  have hexec : Sys2Proof.Machine.exec (.imageLoadCheck slot t) s = .next ((s.at t).loadCheck slot.val) := by
    refine if_pos ⟨(s.slotState_at t _).trans hstate, ?_⟩
    rw [hat .odp (by decide)]
    exact hended
  have hslot : (s.at t).slotAt slot.val = s.slotAt slot.val := State.slotAt_of_lib (hat .lib (by decide)) _
  have hread : ∀ x n, (s.at t).memRead x n = s.memRead x n := State.memRead_of_eq (hat .mem (by decide)) (hat .memc (by decide))
  obtain ⟨hframe, hvalid, hfailed⟩ := State.loadCheck_loads (s := s.at t) slot.isLt ((Calm.refl s).at.form hform)
  rw [hslot, hread] at hvalid hfailed
  exact ⟨_, hexec, (hat.mono (by decide)).trans hframe, hvalid, hfailed⟩

theorem imageLoadCheck_other (hstate : s.slotState slot.val ≠ slotLoading) : Sys2Proof.Machine.exec (.imageLoadCheck slot t) s = .next (s.at t) :=
  if_neg fun h => hstate ((s.slotState_at t _).symm.trans h.1)

/-! ## STAGING_COMPLETE -/

theorem State.staging_at (s : State) (t : Nat) : (s.at t).staging = s.staging := by
  obtain ⟨c, hc⟩ := s.at_eq t
  rw [hc]
  rfl

theorem stagingComplete_stages {m : Model} (hm : s.lib.staged = some m) (hform : s.canonical = true) (hslot : m.slot = slot.val)
    (hstate : s.slotState slot.val = slotValid) (hidle : s.staging = false) :
    ∃ u, Sys2Proof.Machine.exec (.stagingComplete slot t) s = .next u ∧ (
      u.slotState slot.val = slotStaged ∧ Within [.dict, .clock] s u ∧ ObjsBut (fun i j => i == 0x6820 + slot.val && j == 1) s u) := by
  have hat := s.at_within t
  have hexec : Sys2Proof.Machine.exec (.stagingComplete slot t) s = .next ((s.at t).setSlotState slot.val slotStaged) := by
    change execStagingComplete slot t s = _
    unfold execStagingComplete
    dsimp only
    rw [hat .lib (by decide), hm]
    exact if_pos ⟨hslot, (s.slotState_at t _).trans hstate, (s.staging_at t).trans hidle⟩
  refine ⟨_, hexec, ?_, (hat.mono (by decide)).step (State.put_within _ _ _ _) (by decide),
    (ObjsBut.of_dict (hat .dict (by decide))).trans (State.put_objsBut _ _)⟩
  rw [State.slotState_eq slot.isLt]
  exact State.obj_put (State.at_wf hform t)

theorem stagingComplete_waits (h : s.staging = true) : Sys2Proof.Machine.exec (.stagingComplete slot t) s = .next (s.at t) := by
  change execStagingComplete slot t s = _
  unfold execStagingComplete
  dsimp only
  split
  · exact if_neg fun ⟨_, _, hidle⟩ => Bool.false_ne_true (hidle.symm.trans ((s.staging_at t).trans h))
  · rfl

/-! ## Install lists -/

theorem State.arrAt_at (s : State) (t a : Nat) : (s.at t).arrAt a = s.arrAt a := by
  obtain ⟨c, hc⟩ := s.at_eq t
  rw [hc]
  rfl

theorem State.modArr_self {f : Arr → Arr} (h : f (s.arrAt a) = s.arrAt a) : s.modArr a f = s := by
  have harr : (s.arr.mapIdx fun i x => if i = a then f x else x) = s.arr := by
    refine Vector.ext fun i hi => ?_
    rw [Vector.getElem_mapIdx]
    by_cases hia : i = a
    · subst hia
      have hat : s.arr[i] = s.arrAt i := by simp [State.arrAt, hi]
      rw [if_pos rfl, hat, h]
    · rw [if_neg hia]
  rw [State.modArr, harr]

theorem State.twins_lt (ha : a < 16) (s : State) : ∀ i ∈ s.twins a, i < 16 := by
  unfold State.twins
  split <;> simp <;> omega

/-- A request for power changes nothing of an array but since when it waits. -/
theorem State.wantPower_arrAt (ha : a < 16) (s : State) (b : Nat) : ∃ x, (s.wantPower a).arrAt b = { s.arrAt b with wantFrom := x } := by
  have hfold : ∀ (l : List Nat) (s : State), (∀ i ∈ l, i < 16) → ∃ x, (l.foldl (fun s i =>
      if s.power i = 0 ∧ (s.arrAt i).wantFrom.isNone then s.modArr i fun x => { x with wantFrom := some s.now } else s) s).arrAt b =
        { s.arrAt b with wantFrom := x } := by
    intro l
    induction l with
    | nil => exact fun s _ => ⟨(s.arrAt b).wantFrom, rfl⟩
    | cons i l ih =>
      intro s hl
      have hone : ∃ x, (if s.power i = 0 ∧ (s.arrAt i).wantFrom.isNone then s.modArr i fun x => { x with wantFrom := some s.now } else s).arrAt b =
          { s.arrAt b with wantFrom := x } := by
        split
        · rw [State.arrAt_modArr (hl i (by simp))]
          split
          · exact ⟨_, rfl⟩
          · exact ⟨_, rfl⟩
        · exact ⟨_, rfl⟩
      obtain ⟨x, hx⟩ := hone
      obtain ⟨y, hy⟩ := ih _ fun j hj => hl j (List.mem_cons_of_mem _ hj)
      refine ⟨y, hy.trans ?_⟩
      rw [hx]
  exact hfold (s.twins a) s (s.twins_lt ha)

variable {a : Fin 16}

/-- What the start of an install list leaves. -/
theorem State.startInstall_starts (hform : s.canonical = true) (hkind : (s.arrAt a.val).instKind = 1) :
    ((s.startInstall a.val).arrAt a.val).run.map Run.ring = some 16 ∧
      ((s.startInstall a.val).arrAt a.val).run.map Run.acc = some (s.arrAt a.val).instAcc ∧ ((s.startInstall a.val).arrAt a.val).rot = 16 ∧
      (s.startInstall a.val).obj (0x6810 + a.val) 1 = 1 ∧ Within [.arr, .dict, .clock] s (s.startInstall a.val) := by
  unfold State.startInstall
  extract_lets kind v
  have hv : v.arrAt a.val = { s.arrAt a.val with
      rot := 16
      run := some (newRun 16 0 false (s.arrAt a.val).instAcc 0 0x200 s.now (.ring 0) (s.arrAt a.val).front s.now) } :=
    (State.arrAt_modArr a.isLt).trans (if_pos rfl)
  have hwithin : Within [.arr, .dict, .clock] s v := ((s.modArr_within _ _).mono (by decide)).step (State.put_within _ _ _ _) (by decide)
  have hobj : v.obj (0x6810 + a.val) 1 = 1 := (State.obj_put (State.dict_wf hform)).trans hkind
  clear_value v
  obtain ⟨x, hx⟩ := State.wantPower_arrAt a.isLt v a.val
  have hshown : ∀ w : State, (w.showRun a.val).arrAt a.val = w.arrAt a.val := fun w => by
    rw [State.arrAt, State.arrAt, w.showRun_within a.val .arr (by decide)]
  rw [hshown, hx, hv]
  refine ⟨rfl, rfl, rfl, ?_, ?_⟩
  · rw [State.showRun_objsBut _ _ _ _ (by decide) (by simp), State.obj, State.wantPower_within v a.val .dict (by decide)]
    exact hobj
  · exact (hwithin.step (v.wantPower_within a.val) (by decide)).step (State.showRun_within _ _) (by decide)

theorem installListStart_starts (hform : s.canonical = true) (hready : (s.at t).installReady a.val = true) (hkind : (s.arrAt a.val).instKind = 1)
    (hsusp : (s.arrAt a.val).susp = []) (hnext : (s.at t).nextRing a.val = some 16) :
    ∃ u, Sys2Proof.Machine.exec (.installListStart a t) s = .next u ∧ (
      (u.arrAt a.val).run.map Run.ring = some 16 ∧ (u.arrAt a.val).run.map Run.acc = some (s.arrAt a.val).instAcc ∧ (u.arrAt a.val).rot = 16 ∧
      u.obj (0x6810 + a.val) 1 = 1 ∧ Within [.arr, .dict, .clock] s u) := by
  have hat := s.at_within t
  have hsame : ((s.at t).modArr a.val fun x => { x with instKind := if x.instKind = 2 then 3 else x.instKind }) = s.at t :=
    State.modArr_self (by rw [State.arrAt_at, if_neg (by rw [hkind]; decide)])
  have hexec : Sys2Proof.Machine.exec (.installListStart a t) s = .next ((s.at t).startInstall a.val) := by
    change execInstallListStart a t s = _
    unfold execInstallListStart
    dsimp only
    rw [hsame, if_pos hready, State.arrAt_at, hsusp]
    exact if_pos ⟨hnext, rfl⟩
  obtain ⟨hring, hacc, hrot, hobj, hframe⟩ := State.startInstall_starts (s := s.at t) ((Calm.refl s).at.form hform) (by rw [State.arrAt_at, hkind])
  rw [State.arrAt_at] at hacc
  exact ⟨_, hexec, hring, hacc, hrot, hobj, (hat.mono (by decide)).trans hframe⟩

theorem installListStart_waits (h : (s.at t).installReady a.val = false) :
    Sys2Proof.Machine.exec (.installListStart a t) s = .next (s.at t) := if_neg (by rw [h]; exact Bool.false_ne_true)

theorem installComplete_empties (hform : s.canonical = true) (hkind : (s.arrAt a.val).instKind = 1) (hcons : (s.arrAt a.val).instCons = 1)
    (hover : ((s.listsOf a.val).any fun x => decide (x.ring = 16)) = false) :
    ∃ u, Sys2Proof.Machine.exec (.installComplete a t) s = .next u ∧ (
      u.arr = (s.modArr a.val fun x => { x with install := [], instCons := 0, instKind := 0 }).arr ∧ u.obj (0x6810 + a.val) 1 = 0 ∧
      Within [.arr, .dict, .clock] s u ∧ ObjsBut (fun i j => i == 0x6810 + a.val && j == 1) s u) := by
  have hat := s.at_within t
  have hlists : (s.at t).listsOf a.val = s.listsOf a.val := by rw [State.listsOf, State.listsOf, State.arrAt_at]
  have hexec : Sys2Proof.Machine.exec (.installComplete a t) s =
      .next (((s.at t).modArr a.val fun x => { x with install := [], instCons := 0, instKind := 0 }).put (0x6810 + a.val) 1 0) := by
    change execInstallComplete a t s = _
    unfold execInstallComplete
    dsimp only
    rw [State.arrAt_at, hlists, hkind, if_pos ⟨.inl rfl, hcons, hover⟩]
    rfl
  refine ⟨_, hexec, ?_, State.obj_put (State.at_wf hform t), ?_, (ObjsBut.of_dict (hat .dict (by decide))).trans (State.put_objsBut (State.modArr _ _ _) _)⟩
  · change Vector.mapIdx _ (s.at t).arr = _
    rw [hat .arr (by decide)]
    rfl
  · exact ((hat.mono (by decide)).step (State.modArr_within _ _ _) (by decide)).step (State.put_within _ _ _ _) (by decide)

theorem installComplete_waits (h : (s.arrAt a.val).instCons = 0) : Sys2Proof.Machine.exec (.installComplete a t) s = .next (s.at t) := by
  refine if_neg fun ⟨_, hcons, _⟩ => ?_
  rw [State.arrAt_at, h] at hcons
  exact Nat.zero_ne_one hcons

/-! ## Stage requests and erasure -/

section
variable {r : Req} {slot : Fin 16} {mode : Nat}

theorem slotRow_size : ∀ k : Fin 16, ((objRow? (0x6820 + k.val) 6).elim 0 fun row => tySize row.ty) = 1 ∧
    ((objRow? (0x6820 + k.val) 8).elim 0 fun row => tySize row.ty) = 1 := by decide

/-- A WRITE of a slot's stage or erase object reaches the library. -/
theorem State.effect_slot (s : State) (b : Bool) (k : Fin 16) (sub v : Nat) :
    s.effect b (0x6820 + k.val) sub v = s.effectMemory (0x6820 + k.val) sub v := by
  have hk := k.isLt
  unfold State.effect
  rw [isRuleObj_slot hk, if_neg Bool.false_ne_true, if_neg (by omega), if_neg (by omega), if_neg (by omega), if_neg (by omega), if_pos (by omega)]

theorem State.effectMemory_slot (s : State) (k : Fin 16) (sub v : Nat) : s.effectMemory (0x6820 + k.val) sub v =
    if sub = 6 then s.stageRequest k.val v else if sub = 7 then .ok (s.setPersist k.val v) else s.eraseSlot k.val v := by
  have hk := k.isLt
  unfold State.effectMemory
  rw [if_neg (by omega), if_neg (by omega), if_neg (by omega), if_neg (by omega), if_neg (by omega), if_neg (by omega), if_neg (by omega),
    if_pos (by omega), Nat.add_sub_cancel_left]

theorem execStageRequest_eq (r : Req) (slot : Fin 16) (mode : Nat) (s : State) :
    Sys2Proof.Machine.exec (.stageRequest r slot mode) s = .next ((s.at r.t).serveWrite r (0x6820 + slot.val) 6
      (natLe ((objRow? (0x6820 + slot.val) 6).elim 0 fun row => tySize row.ty) mode) fun s => s.stageRequest slot.val (mode % 256)) := by
  have hk := slot.isLt
  have hserve : Sys2Proof.Machine.exec (.stageRequest r slot mode) s = .next ((s.at r.t).serveValue r (0x6820 + slot.val) 6 mode) := rfl
  rw [hserve, State.serveValue, (slotRow_size slot).1, State.serveAny, if_neg (by omega), if_neg (by omega), if_neg (by omega), State.serveObject]
  refine congrArg (fun eff => Host.Outcome.next ((s.at r.t).serveWrite r (0x6820 + slot.val) 6 (natLe 1 mode) eff)) (funext fun s => ?_)
  rw [State.effect_slot, State.effectMemory_slot, if_pos rfl]
  exact congrArg (s.stageRequest slot.val) (leNat_byte mode)

theorem execErase_eq (r : Req) (slot : Fin 16) (s : State) :
    Sys2Proof.Machine.exec (.erase r slot) s = .next ((s.at r.t).serveWrite r (0x6820 + slot.val) 8
      (natLe ((objRow? (0x6820 + slot.val) 8).elim 0 fun row => tySize row.ty) 1) fun s => s.eraseSlot slot.val 1) := by
  have hk := slot.isLt
  have hserve : Sys2Proof.Machine.exec (.erase r slot) s = .next ((s.at r.t).serveValue r (0x6820 + slot.val) 8 1) := rfl
  rw [hserve, State.serveValue, (slotRow_size slot).2, State.serveAny, if_neg (by omega), if_neg (by omega), if_neg (by omega), State.serveObject]
  refine congrArg (fun eff => Host.Outcome.next ((s.at r.t).serveWrite r (0x6820 + slot.val) 8 (natLe 1 1) eff)) (funext fun s => ?_)
  rw [State.effect_slot, State.effectMemory_slot, if_neg (by decide), if_neg (by decide)]
  rfl

theorem stageRequest_retiring (h : s.Writable r (0x6820 + slot.val) 6 mode u) (hmode : mode ≤ 2) (hretiring : u.lib.retiring.isSome = true) :
    ∃ w, Sys2Proof.Machine.exec (.stageRequest r slot mode) s = .next w ∧ (
      w.Answered svcWrite r (0x6820 + slot.val) 6 0x08000043 [] ∧ Served [] noObj s u w) := by
  obtain ⟨hadm, hok⟩ := h
  obtain ⟨row, hrow⟩ := exists_ok_of_isSome hok
  have hbyte : mode % 256 = mode := Nat.mod_eq_of_lt (by omega)
  have heff : u.stageRequest slot.val (mode % 256) = .error 0x08000043 := by
    rw [hbyte, State.stageRequest, if_neg (by omega), if_pos hretiring]
  exact ⟨_, execStageRequest_eq r slot mode s, hadm.write_refused (eff := fun s => s.stageRequest slot.val (mode % 256)) hrow heff⟩

theorem erase_busy (h : s.Writable r (0x6820 + slot.val) 8 1 u) (hbusy : u.slotBusy slot.val = true) :
    ∃ w, Sys2Proof.Machine.exec (.erase r slot) s = .next w ∧ (
      w.Answered svcWrite r (0x6820 + slot.val) 8 0x0800004A [] ∧ Served [] noObj s u w) := by
  obtain ⟨hadm, hok⟩ := h
  obtain ⟨row, hrow⟩ := exists_ok_of_isSome hok
  have heff : u.eraseSlot slot.val 1 = .error 0x0800004A := by rw [State.eraseSlot, if_neg Nat.one_ne_zero, if_pos hbusy]
  exact ⟨_, execErase_eq r slot s, hadm.write_refused (eff := fun s => s.eraseSlot slot.val 1) hrow heff⟩

theorem ansObj_slot (k : Fin 16) (j : Nat) : ansObj (0x6820 + k.val) j = false := by
  simp [ansObj]
  omega

theorem erase_empties (h : s.Writable r (0x6820 + slot.val) 8 1 u) (hform : s.canonical = true) (hfree : u.slotBusy slot.val = false) :
    ∃ w, Sys2Proof.Machine.exec (.erase r slot) s = .next w ∧ (
      w.Answered svcWrite r (0x6820 + slot.val) 8 0 [] ∧ w.slotState slot.val = slotEmpty ∧ w.slotAt slot.val = {} ∧
      w.flash = { s.flash with models := s.flash.models.filter (fun x => decide (x.slot ≠ slot.val)) } ∧
      Within [.odp, .out, .dict, .clock, .lib, .flash, .arr] s w) := by
  obtain ⟨hadm, hok⟩ := h
  obtain ⟨row, hrow⟩ := exists_ok_of_isSome hok
  have heff : u.eraseSlot slot.val 1 = .ok ((u.emptySlot slot.val).voidPersisted slot.val) := by
    rw [State.eraseSlot, if_neg Nat.one_ne_zero, hfree, if_neg Bool.false_ne_true]
  have huform : u.canonical = true := ((Calm.refl s).within hadm.within).form hform
  obtain ⟨hstate, hslot⟩ := State.emptySlot_empties slot.isLt huform
  have hempty := u.emptySlot_within slot.val
  have hflash : (u.emptySlot slot.val).flash = s.flash := Eq.trans (hempty .flash (by decide)) (hadm.within .flash (by decide))
  generalize u.emptySlot slot.val = v at heff hstate hslot hempty hflash
  have hv : Within [.odp, .out, .dict, .clock, .lib, .flash, .arr] u (v.voidPersisted slot.val) :=
    (hempty.mono (by decide)).step (v.voidPersisted_within _) (by decide)
  generalize hw : v.voidPersisted slot.val = w at heff hv
  have hwlib : w.lib = v.lib := hw ▸ rfl
  have hwdict : w.dict = v.dict := hw ▸ rfl
  have hwflash : w.flash = { s.flash with models := s.flash.models.filter (fun x => decide (x.slot ≠ slot.val)) } := by rw [← hw, ← hflash]; rfl
  have hanswer := w.answer_within (mkAnswer svcWrite r (0x6820 + slot.val) 8 0 [])
  refine ⟨_, (execErase_eq r slot s).trans (congrArg _ (State.serveWrite_of_done (eff := fun s => s.eraseSlot slot.val 1) hadm hrow heff)),
    State.answered_answer .., ?_, ?_, Eq.trans (hanswer .flash (by decide)) hwflash, ?_⟩
  · rw [State.slotState_eq slot.isLt, w.answer_objsBut _ _ _ (by decide) (ansObj_slot slot 1), ← State.slotState_eq slot.isLt,
      State.slotState_of_dict slot.isLt hwdict, hstate]
  · rw [State.slotAt_of_lib (Eq.trans (hanswer .lib (by decide)) hwlib), hslot]
  · exact ((hadm.within.mono (by decide)).trans hv).step hanswer (by decide)

/-! A model is staged beside the one installed, of which there is none (R280, R294). -/

theorem State.writeTables_within (s : State) (m : Model) : Within [.arr, .mem, .memc] s (s.writeTables m) := by
  unfold State.writeTables
  extract_lets v
  have hv : Within [.arr, .mem, .memc] s v := (Within.foldl (fun s x => s.modArr_within _ _) m.tg8 s).mono (by decide)
  exact hv.trans (Within.foldl (fun s x => Within.ite ((s.memWrite_within _ _).mono (by decide)) ((s.modArr_within _ _).mono (by decide))) _ _)

/-- The model of a slot stands staged, its tables written. -/
def State.stagedFirst (u : State) (m : Model) : State :=
  let v := u.writeTables m
  { v with lib := { v.lib with staged := some m } }

theorem State.stagedFirst_within (u : State) (m : Model) : Within [.lib, .arr, .mem, .memc] u (u.stagedFirst m) :=
  ((u.writeTables_within m).mono (by decide)).step (State.set_lib_within _ _) (by decide)

theorem State.stagedFirst_lib (u : State) (m : Model) : (u.stagedFirst m).lib = { u.lib with staged := some m } := by
  have hlib : (u.writeTables m).lib = u.lib := u.writeTables_within m .lib (by decide)
  rw [← hlib]
  rfl

theorem changedShelf_none (m : Model) : changedShelf none m = m.shelf := by simp [changedShelf]

theorem shelfFits_none (m : Model) : shelfFits none m = true := by simp [shelfFits]

/-- What is asked of a slot whose model is staged while none is installed or staged. -/
structure State.Stageable (u : State) (k : Nat) (m : Model) : Prop where
  retiring  : u.lib.retiring = none
  scheduled : u.lib.schedModel = none
  model     : (u.slotAt k).model = some m
  valid     : u.slotState k = slotValid
  idle      : u.staging = false
  active    : u.lib.active = none
  staged    : u.lib.staged = none
  fits      : u.tablesFit none m = true

theorem State.Stageable.stageRequest_eq {m : Model} {k : Nat} (h : u.Stageable k m) (hmode : mode ≤ 1) :
    u.stageRequest k mode = .ok (if mode = 0 then (u.stagedFirst m).queueInstalls none m 0 1 else (u.stagedFirst m).setSlotState k slotRipple) := by
  obtain ⟨hretiring, hscheduled, hmodel, hvalid, hidle, hactive, hstaged, hfits⟩ := h
  have hplace : ∀ (b : Bytes) (side : Bool), u.placeModel b m side = m := fun b side => by rw [State.placeModel, hactive]
  have hdrop : u.dropStaged = u := by rw [State.dropStaged, hstaged]
  unfold State.stageRequest
  rw [if_neg (by omega), hretiring, hscheduled, if_neg (by decide), if_neg (by decide), hmodel]
  dsimp only
  rw [if_neg (by simp [hvalid, hidle]), hactive]
  obtain rfl | rfl : mode = 0 ∨ mode = 1 := by omega
  · simp [hplace, hfits, shelfFits_none, hdrop, State.stagedFirst]
  · simp [hplace, hfits, shelfFits_none, hdrop, State.stagedFirst]

/-- The install lists of one array. -/
def State.queueInstall (old : Option Model) (m : Model) (acc kind : Nat) (s : State) (a : Nat) : State :=
  let mine := (changedShelf old m).filter fun x => decide (x.array = a)
  if mine.isEmpty then s
  else
    let cues := markEnd (mine.flatMap fun x => s.sectionCues m acc (decide (kind = 2)) x)
    (s.modArr a fun r => { r with install := cues, instCons := 0, instAcc := acc, instKind := kind }).put (0x6810 + a) 1 kind

theorem State.queueInstalls_eq (s : State) (old : Option Model) (m : Model) (acc kind : Nat) :
    s.queueInstalls old m acc kind = (List.range 16).foldl (State.queueInstall old m acc kind) s := rfl

section
variable {old : Option Model} {m : Model} {acc kind : Nat}

theorem State.queueInstall_within (s : State) (a : Nat) : Within [.arr, .dict] s (State.queueInstall old m acc kind s a) := by
  unfold State.queueInstall
  extract_lets mine cues
  exact Within.ite (.refl _ s) (((s.modArr_within _ _).mono (by decide)).step (State.put_within _ _ _ _) (by decide))

theorem State.queueInstalls_within (s : State) : Within [.arr, .dict] s (s.queueInstalls old m acc kind) :=
  Within.foldl (fun s a => s.queueInstall_within a) _ s

/-- The arrays' install states, 0x6810 to 0x681F. -/
def installObj (i j : Nat) : Bool := decide (0x6810 ≤ i) && decide (i < 0x6820) && j == 1

theorem State.queueInstalls_objs (s : State) : ObjsBut installObj s (s.queueInstalls old m acc kind) := by
  have hfold : ∀ (l : List Nat) (s : State), (∀ a ∈ l, a < 16) → ObjsBut installObj s (l.foldl (State.queueInstall old m acc kind) s) := by
    intro l
    induction l with
    | nil => exact fun s _ => .refl _ s
    | cons a l ih =>
      intro s hl
      have ha := hl a (by simp)
      have hone : ObjsBut installObj s (State.queueInstall old m acc kind s a) := by
        unfold State.queueInstall
        extract_lets mine cues
        split
        · exact .refl _ s
        · exact (ObjsBut.of_dict rfl).trans (State.put_others (State.modArr _ _ _) (by simp [installObj]; omega))
      exact hone.trans (ih _ fun b hb => hl b (List.mem_cons_of_mem _ hb))
  exact hfold _ s fun a ha => List.mem_range.1 ha

/-- An array that a section of the model belongs to gets an install list. -/
theorem State.queueInstalls_kind {a : Nat} (ha : a < 16) (hmine : m.shelf.any (fun x => decide (x.array = a)) = true) (s : State) :
    ((s.queueInstalls none m acc kind).arrAt a).instKind = kind := by
  have hone : ∀ (s : State) (b : Nat), b < 16 → ((State.queueInstall none m acc kind s b).arrAt a).instKind = if b = a then kind else (s.arrAt a).instKind := by
    intro s b hb
    unfold State.queueInstall
    extract_lets mine cues
    by_cases hba : b = a
    · subst hba
      have hfull : mine.isEmpty = false := by
        obtain ⟨x, hx, hxb⟩ := List.any_eq_true.1 hmine
        have hin : x ∈ mine := List.mem_filter.2 ⟨by rw [changedShelf_none]; exact hx, hxb⟩
        exact List.isEmpty_eq_false_iff_exists_mem.2 ⟨x, hin⟩
      rw [hfull, if_neg Bool.false_ne_true, if_pos rfl]
      have harr : ∀ w : State, (w.put (0x6810 + b) 1 kind).arrAt b = w.arrAt b := fun _ => rfl
      rw [harr, State.arrAt_modArr hb, if_pos rfl]
    · rw [if_neg hba]
      split
      · rfl
      · have harr : ∀ w : State, (w.put (0x6810 + b) 1 kind).arrAt a = w.arrAt a := fun _ => rfl
        rw [harr, State.arrAt_modArr hb, if_neg (Ne.symm hba)]
  have hfold : ∀ (l : List Nat) (s : State), (∀ b ∈ l, b < 16) → (a ∈ l ∨ (s.arrAt a).instKind = kind) →
      ((l.foldl (State.queueInstall none m acc kind) s).arrAt a).instKind = kind := by
    intro l
    induction l with
    | nil => exact fun s _ h => h.resolve_left (by simp)
    | cons b l ih =>
      intro s hl h
      refine ih _ (fun c hc => hl c (List.mem_cons_of_mem _ hc)) ?_
      rw [hone s b (hl b (by simp))]
      by_cases hba : b = a
      · exact .inr (if_pos hba)
      · rw [if_neg hba]
        exact h.imp (fun hin => (List.mem_cons.1 hin).resolve_left (Ne.symm hba)) id
  exact hfold _ s (fun b hb => List.mem_range.1 hb) (.inl (List.mem_range.2 ha))

end

theorem slotState_default : ∀ k : Fin 16, slotRipple ≠ objDefault (objKey (0x6820 + k.val) 1) := by decide

theorem stageRequest_ripple {m : Model} (h : s.Writable r (0x6820 + slot.val) 6 1 u) (hm : u.Stageable slot.val m) :
    ∃ w, Sys2Proof.Machine.exec (.stageRequest r slot 1) s = .next w ∧ (
      w.Answered svcWrite r (0x6820 + slot.val) 6 0 [] ∧ w.lib = { s.lib with staged := some m } ∧ w.slotState slot.val = slotRipple ∧
      Served [.lib, .arr, .mem, .memc] (fun i j => i == 0x6820 + slot.val && j == 1) s u w) := by
  obtain ⟨hadm, hok⟩ := h
  obtain ⟨row, hrow⟩ := exists_ok_of_isSome hok
  have hlib : (u.stagedFirst m).lib = { s.lib with staged := some m } := by rw [State.stagedFirst_lib, hadm.within .lib (by decide)]
  have hfirst := u.stagedFirst_within m
  have heff : u.stageRequest slot.val 1 = .ok ((u.stagedFirst m).setSlotState slot.val slotRipple) := hm.stageRequest_eq (by decide)
  generalize u.stagedFirst m = v at heff hlib hfirst
  obtain ⟨hanswered, hserved, hrest⟩ := hadm.write_done (eff := fun s => s.stageRequest slot.val (1 % 256)) (ps := [.lib, .arr, .mem, .memc])
    (k := fun i j => i == 0x6820 + slot.val && j == 1) hrow heff ((hfirst.mono (by decide)).step (v.put_within _ _ _) (by decide))
    ((ObjsBut.of_dict (hfirst .dict (by decide))).trans (v.put_objsBut _)) (hfirst .odp (by decide)) (hfirst .out (by decide))
  refine ⟨_, execStageRequest_eq r slot 1 s, hanswered, Eq.trans (hrest .lib (by decide)) hlib, ?_, hserved⟩
  rw [State.slotState_eq slot.isLt, State.serveWrite_of_done (eff := fun s => s.stageRequest slot.val (1 % 256)) hadm hrow heff,
    State.answer_objsBut _ _ _ _ (by decide) (ansObj_slot slot 1)]
  exact Sparse.read_write_of_ne_default v.dict (slotState_default slot)

theorem stageRequest_side {m : Model} (h : s.Writable r (0x6820 + slot.val) 6 0 u) (hm : u.Stageable slot.val m) :
    ∃ w, Sys2Proof.Machine.exec (.stageRequest r slot 0) s = .next w ∧ (
      w.Answered svcWrite r (0x6820 + slot.val) 6 0 [] ∧ w.lib = { s.lib with staged := some m } ∧ w.slotState slot.val = slotValid ∧
      ((List.range 16).all fun a => decide (m.shelf.any (fun x => decide (x.array = a)) = true → (w.arrAt a).instKind = 1)) = true ∧
      Served [.lib, .arr, .mem, .memc] installObj s u w) := by
  obtain ⟨hadm, hok⟩ := h
  obtain ⟨row, hrow⟩ := exists_ok_of_isSome hok
  have hlib : (u.stagedFirst m).lib = { s.lib with staged := some m } := by rw [State.stagedFirst_lib, hadm.within .lib (by decide)]
  have hfirst := u.stagedFirst_within m
  have heff : u.stageRequest slot.val 0 = .ok ((u.stagedFirst m).queueInstalls none m 0 1) := hm.stageRequest_eq (by decide)
  have hkinds : ∀ a, a < 16 → m.shelf.any (fun x => decide (x.array = a)) = true → (((u.stagedFirst m).queueInstalls none m 0 1).arrAt a).instKind = 1 :=
    fun a ha hmine => State.queueInstalls_kind ha hmine _
  have hqueued : Within [.arr, .dict] (u.stagedFirst m) ((u.stagedFirst m).queueInstalls none m 0 1) := State.queueInstalls_within _
  have hobjs : ObjsBut installObj (u.stagedFirst m) ((u.stagedFirst m).queueInstalls none m 0 1) := State.queueInstalls_objs _
  generalize u.stagedFirst m = v at *
  generalize v.queueInstalls none m 0 1 = y at *
  have hy : Within [.lib, .arr, .mem, .memc, .odp, .out, .dict, .clock] u y := (hfirst.mono (by decide)).trans (hqueued.mono (by decide))
  have hyobjs : ObjsBut installObj u y := (ObjsBut.of_dict (hfirst .dict (by decide))).trans hobjs
  obtain ⟨hanswered, hserved, hrest⟩ := hadm.write_done (eff := fun s => s.stageRequest slot.val (0 % 256)) (ps := [.lib, .arr, .mem, .memc])
    (k := installObj) hrow heff hy hyobjs (Eq.trans (hqueued .odp (by decide)) (hfirst .odp (by decide)))
    (Eq.trans (hqueued .out (by decide)) (hfirst .out (by decide)))
  refine ⟨_, execStageRequest_eq r slot 0 s, hanswered, Eq.trans (hrest .lib (by decide)) (Eq.trans (hqueued .lib (by decide)) hlib), ?_, ?_, hserved⟩
  · rw [State.slotState_eq slot.isLt, State.serveWrite_of_done (eff := fun s => s.stageRequest slot.val (0 % 256)) hadm hrow heff,
      State.answer_objsBut _ _ _ _ (by decide) (ansObj_slot slot 1), hyobjs _ _ (by decide) (by simp [installObj]), ← State.slotState_eq slot.isLt]
    exact hm.valid
  · rw [List.all_eq_true]
    intro a ha
    refine decide_eq_true fun hmine => ?_
    rw [State.arrAt, hrest .arr (by decide)]
    exact hkinds a (List.mem_range.1 ha) hmine

end

end

/-- Settles O20, clause by clause. -/
theorem stagingCommands : Obligations.StagingCommands := by
  unfold Obligations.StagingCommands
  refine ⟨?_, fun s slot t hstate => ⟨_, imageLoadCheck_other hstate, s.at_within t⟩, ?_, ?_,
    fun s r slot mode u h hmode hretiring => stageRequest_retiring h hmode hretiring,
    fun s slot t m hm hform hslot hstate hidle => stagingComplete_stages hm hform hslot hstate hidle,
    fun s slot t h => ⟨_, stagingComplete_waits h, s.at_within t⟩,
    fun s a t hform hready hkind hsusp hnext => installListStart_starts hform hready hkind hsusp hnext,
    fun s a t h => ⟨_, installListStart_waits h, s.at_within t⟩,
    fun s a t hform hkind hcons hover => installComplete_empties hform hkind hcons hover,
    fun s a t h => ⟨_, installComplete_waits h, s.at_within t⟩,
    fun s r slot u h hform hfree => erase_empties h hform hfree, fun s r slot u h hbusy => erase_busy h hbusy⟩
  · intro s slot t hform hstate hended
    obtain ⟨u, hexec, hframe, hvalid, hfailed⟩ := imageLoadCheck_loads (t := t) hform hstate hended
    exact ⟨u, hexec, hframe, hvalid, hfailed⟩
  · rintro s r slot _ u h rfl hretiring hscheduled m hmodel hvalid hidle hactive hstaged hfits
    exact stageRequest_ripple h ⟨hretiring, hscheduled, hmodel, hvalid, hidle, hactive, hstaged, hfits⟩
  · rintro s r slot _ u h rfl hretiring hscheduled m hmodel hvalid hidle hactive hstaged hfits
    exact stageRequest_side h ⟨hretiring, hscheduled, hmodel, hvalid, hidle, hactive, hstaged, hfits⟩

end Sys2Proof.Machine

/-! The issue of a cue (R216 to R226): what an issued cue's effect starts from, and how a list shows its next position. -/

namespace Sys2Proof.Machine

set_option Elab.async false

open Sys2Proof.Bits

section
variable {s u v : State} {a op t : Nat} {r r' : Run} {c : CueCheck}

/-! ## The state in which a cue is checked -/

/-- A cue's fetch changes the clock and the count of bytes read. -/
def State.fetched (s : State) (t a : Nat) (r : Run) : State := (s.at t).countFetch a r

theorem State.countFetch_eq (s : State) (a : Nat) (r : Run) : ∃ n, s.countFetch a r = { s with memc := { s.memc with rd := n } } := by
  unfold State.countFetch State.countCue
  split
  · split
    · exact ⟨_, rfl⟩
    · exact ⟨s.memc.rd, rfl⟩
  · exact ⟨s.memc.rd, rfl⟩

theorem State.fetched_eq (s : State) (t a : Nat) (r : Run) :
    ∃ k n, s.fetched t a r = { s with clock := k, memc := { s.memc with rd := n } } := by
  obtain ⟨k, hk⟩ := s.at_eq t
  obtain ⟨n, hn⟩ := (s.at t).countFetch_eq a r
  rw [State.fetched, hn, hk]
  exact ⟨_, _, rfl⟩

theorem State.fetched_clock (s : State) (t a : Nat) (r : Run) : (s.fetched t a r).clock = (s.at t).clock :=
  (s.at t).countFetch_within a r .clock (by decide)

theorem State.fetched_within (s : State) (t a : Nat) (r : Run) : Within [.memc, .clock] s (s.fetched t a r) :=
  ((s.at_within t).mono (by decide)).step (State.countFetch_within _ a r) (by decide)

/-- The state in which an issued cue has its effect. -/
def State.issued (s : State) (t a : Nat) (r : Run) : State := (s.fetched t a r).advance a r (s.cueWords a r)

theorem State.issued_within (s : State) (t a : Nat) (r : Run) : Within [.arr, .memc, .clock] s (s.issued t a r) :=
  ((s.fetched_within t a r).mono (by decide)).step (State.advance_within _ a r _) (by decide)

theorem State.issued_eq (s : State) (t a : Nat) (r : Run) :
    ∃ k n y, s.issued t a r = { s with clock := k, memc := { s.memc with rd := n }, arr := y } := by
  obtain ⟨k, n, h⟩ := s.fetched_eq t a r
  rw [State.issued, h]
  exact ⟨k, n, _, rfl⟩

theorem State.issuing_run (h : s.issuing a = some r) : (s.arrAt a).run = some r := by
  unfold State.issuing at h
  extract_lets x served at h
  split at h
  · cases h
  · split at h
    · cases h
    · next r' hr =>
      split at h
      · injection h with h
        rw [← h]
        exact hr
      · cases h

/-- A list at a cue that may issue is not held up. -/
theorem State.issuing_free (h : s.issuing a = some r) : r.block = .none ∧ r.ending = false ∧ r.rewind = false := by
  unfold State.issuing at h
  extract_lets x served at h
  split at h
  · cases h
  · split at h
    · cases h
    · split at h
      · next hfree =>
        injection h with h
        obtain ⟨hblock, hending, hrewind, -⟩ := hfree
        rw [← h]
        exact ⟨hblock, hending, hrewind⟩
      · cases h

theorem State.issued_arrAt (ha : a < 16) (h : s.issuing a = some r) (b : Nat) : (s.issued t a r).arrAt b =
    if b = a then { s.arrAt a with run := some (r.stepped (s.cueWords a r) (s.at t).now) } else s.arrAt b := by
  have hnow : (s.fetched t a r).now = (s.at t).now := by rw [State.now, State.now, s.fetched_clock]
  have harr (b : Nat) : (s.fetched t a r).arrAt b = s.arrAt b := by rw [State.arrAt, State.arrAt, s.fetched_within t a r .arr (by decide)]
  rw [State.issued, State.advance, State.modRun, State.arrAt_modArr ha, harr, hnow]
  split
  · next hb =>
    subst hb
    rw [State.issuing_run h]
    rfl
  · rfl

theorem State.issued_now (s : State) (t a : Nat) (r : Run) : (s.issued t a r).now = (s.at t).now := by
  have h : (s.issued t a r).clock = (s.fetched t a r).clock := State.advance_within _ a r _ .clock (by decide)
  rw [State.now, h, s.fetched_clock]

theorem State.issued_form (h : s.canonical = true) : (s.issued t a r).canonical = true :=
  ((Calm.refl s).within (s.at_within t)).countFetch.advance.form h

/-! ## What the check of a cue reads is unchanged by its fetch -/

theorem State.issuing_at (s : State) (t a : Nat) : (s.at t).issuing a = s.issuing a := by
  obtain ⟨k, h⟩ := s.at_eq t
  rw [h]
  rfl

theorem State.cueWords_at (s : State) (t a : Nat) (r : Run) : (s.at t).cueWords a r = s.cueWords a r := by
  obtain ⟨k, h⟩ := s.at_eq t
  rw [h]
  rfl

theorem State.firstError_fetched (s : State) (t a b : Nat) (r q : Run) (ws : List Nat) : (s.fetched t a r).firstError b q ws = s.firstError b q ws := by
  obtain ⟨k, n, h⟩ := s.fetched_eq t a r
  rw [h]
  rfl

theorem State.adds_fetched (s : State) (t a b : Nat) (r q : Run) (ws : List Nat) : (s.fetched t a r).adds b q ws = s.adds b q ws := by
  obtain ⟨k, n, h⟩ := s.fetched_eq t a r
  rw [h]
  rfl

/-! ## The issue of a cue -/

variable {body : State → Run → List Nat → Adds → Except CueErr State}

/-- A cue that may issue goes through its checks to its effect. -/
theorem State.issue_checked (hr : s.issuing a = some r) (hm : s.mayIssue a op c r = true) :
    (s.at t).issue a op c body = State.issue.go a body (s.fetched t a r) r (s.cueWords a r) := by
  simp only [State.mayIssue, Bool.and_eq_true, decide_eq_true_eq] at hm
  obtain ⟨⟨hop, -⟩, hc⟩ := hm
  have hwords : words ((s.at t).cueBytes a r) = s.cueWords a r := s.cueWords_at t a r
  have hfetched : (s.at t).countFetch a r = s.fetched t a r := rfl
  simp only [State.issue, State.issuing_at, hr, hwords, hop]
  rw [if_neg (by simp), hfetched]
  cases c with
  | understudy item => cases hc
  | agree => rfl
  | lockstepCue =>
    obtain ⟨k, n, h⟩ := s.fetched_eq t a r
    have hflag : (s.fetched t a r).flag 0x8000 0 = s.flag 0x8000 0 := by rw [h]; rfl
    refine if_neg ?_
    rw [hflag]
    rintro ⟨hf, he⟩
    rw [hf, he] at hc
    cases hc

theorem State.mayIssue_firstError (hm : s.mayIssue a op c r = true) : s.firstError a r (s.cueWords a r) = none := by
  simp only [State.mayIssue, Bool.and_eq_true, decide_eq_true_eq] at hm
  exact hm.1.2

theorem State.issue_ok (hr : s.issuing a = some r) (hm : s.mayIssue a op c r = true)
    (hbody : body (s.issued t a r) r (s.cueWords a r) ((s.adds a r (s.cueWords a r)).getD {}) = .ok v) :
    (s.at t).issue a op c body = v.showRun a := by
  rw [State.issue_checked hr hm, State.issue.go, State.firstError_fetched, State.mayIssue_firstError hm, State.adds_fetched]
  dsimp only
  rw [← State.issued, hbody]

theorem State.issue_error {e : CueErr} (hr : s.issuing a = some r) (hm : s.mayIssue a op c r = true)
    (hbody : body (s.issued t a r) r (s.cueWords a r) ((s.adds a r (s.cueWords a r)).getD {}) = .error e) :
    (s.at t).issue a op c body = (s.fetched t a r).cueError a r (s.cueWords a r) e := by
  rw [State.issue_checked hr hm, State.issue.go, State.firstError_fetched, State.mayIssue_firstError hm, State.adds_fetched]
  dsimp only
  rw [← State.issued, hbody]

/-- A command for a cue at which no list stands does nothing. -/
theorem State.issue_other (h : s.nextIs a op = false) : (s.at t).issue a op c body = s.at t := by
  unfold State.nextIs at h
  unfold State.issue
  rw [State.issuing_at]
  split
  · rfl
  · next r hr =>
    rw [hr] at h
    have hwords : words ((s.at t).cueBytes a r) = s.cueWords a r := s.cueWords_at t a r
    simp only [Bool.or_eq_false_iff, decide_eq_false_iff_not, Bool.and_eq_false_iff, Bool.not_eq_false'] at h
    simp only [hwords]
    refine if_pos ⟨h.1, ?_⟩
    rintro ⟨hop, hcodes⟩
    rcases h.2 with hne | hin
    · exact hne hop
    · rw [hcodes] at hin
      cases hin

/-! ## A list shows where it stands -/

theorem State.showRun_arrAt (s : State) (a b : Nat) : (s.showRun a).arrAt b = s.arrAt b := by
  rw [State.arrAt, State.arrAt, s.showRun_within a .arr (by decide)]

theorem State.signalDone_none (s : State) (a : Nat) (h : r.block = .none) : s.signalDone a r = s := by
  unfold State.signalDone
  rw [h]

/-- A list that goes on and waits for nothing only shows its next cue. -/
theorem State.progress_of_running (hrun : (s.arrAt a).run = some r) (hblock : r.block = .none) (hending : r.ending = false)
    (hrewind : r.rewind = false) : s.progress a = s.showRun a := by
  have hfind : (s.listsOf a).find? (fun q => decide (q.ring = r.ring)) = some r := by simp [State.listsOf, hrun]
  have hsettle : s.settle a r.ring = s := by
    unfold State.settle
    rw [hfind]
    simp only [hrewind, State.signalDone_none _ _ hblock, hfind, hending]
    simp
  unfold State.progress
  rw [hrun]
  simp only [hrewind, hsettle, hrun]
  simp

/-- What a cue that moves its list to another cue leaves: the array's record, the next cue's address, and nothing else. -/
structure State.Moved (s : State) (a : Nat) (x : Nat → Arr) (u : State) : Prop where
  arr    : u.arrAt a = x u.now
  rest   : ArraysBut (fun b => b == a) s u
  parts  : Within [.arr, .dict, .memc, .clock] s u
  objs   : ObjsBut (fun i j => i == 0x5040 + a && (j == 1 || j == 2)) s u
  shown  : s.canonical = true → ∀ q, (x u.now).run = some q → u.obj (0x5040 + a) 2 = s.posAddr a q q.pos % 2 ^ 32

theorem State.get_of_objsBut {k : Nat → Nat → Bool} (h : ObjsBut k s u) (hintake : u.intake = s.intake) {i j : Nat} (hk : k i j = false)
    (hj : j < 65536) : u.get i j = s.get i j := by
  rw [State.get, State.get, hintake]
  split
  · rfl
  · exact h i j hj hk

/-- Where a list stands is not one of the objects that show it. -/
theorem State.posAddr_of_shown (ha : a < 16) (h : ObjsBut (fun i j => i == 0x5040 + a && (j == 1 || j == 2)) s u) (hintake : u.intake = s.intake)
    (b : Nat) (q : Run) (p : Pos) : u.posAddr b q p = s.posAddr b q p := by
  have hflag : u.flag 0x8000 0 = s.flag 0x8000 0 :=
    congrArg (fun n => decide (n ≠ 0)) (State.get_of_objsBut h hintake (by simp) (by decide))
  have hring (d n : Nat) (j : Nat) (hj : j < 65536) : u.get (ringObj d n) j = s.get (ringObj d n) j := by
    refine State.get_of_objsBut h hintake ?_ hj
    have hne : ringObj d n ≠ 0x5040 + a := by
      unfold ringObj
      omega
    simp [hne]
  unfold State.posAddr State.ringHome State.slotAddr
  rw [hflag]
  split
  · rw [hring _ _ 1 (by decide), hring _ _ 2 (by decide)]
  · rfl

theorem State.showRun_next (hform : s.canonical = true) (hrun : (s.arrAt a).run = some r) :
    (s.showRun a).obj (0x5040 + a) 2 = s.posAddr a r r.pos % 2 ^ 32 := by
  unfold State.showRun
  rw [hrun]
  exact State.obj_put (State.put_wf (State.dict_wf hform))

theorem State.showRun_now (s : State) (a : Nat) : (s.showRun a).now = s.now := by
  rw [State.now, State.now, s.showRun_within a .clock (by decide)]

/-- What the issue of a cue leaves that changes its array's record alone and ends no list. -/
theorem State.issue_moves (ha : a < 16) (hr : s.issuing a = some r) (hm : s.mayIssue a op c r = true) {x : Nat → Arr} (f : Arr → Arr)
    (hbody : body (s.issued t a r) r (s.cueWords a r) ((s.adds a r (s.cueWords a r)).getD {}) = .ok (((s.issued t a r).modArr a f).progress a))
    (hx : f { s.arrAt a with run := some (r.stepped (s.cueWords a r) (s.at t).now) } = x (s.at t).now) (hrun : (x (s.at t).now).run = some r') (hblock : r'.block = .none)
    (hending : r'.ending = false) (hrewind : r'.rewind = false) :
    s.Moved a x ((s.at t).issue a op c body) := by
  rw [State.issue_ok hr hm hbody]
  have hat : ((s.issued t a r).modArr a f).arrAt a = x (s.at t).now := by
    rw [State.arrAt_modArr ha, if_pos rfl, State.issued_arrAt ha hr, if_pos rfl, hx]
  rw [State.progress_of_running (hat ▸ hrun) hblock hending hrewind]
  have hnow : ((s.issued t a r).modArr a f).now = (s.at t).now := s.issued_now t a r
  have hobjs : ObjsBut (fun i j => i == 0x5040 + a && (j == 1 || j == 2)) s (((s.issued t a r).modArr a f).showRun a) := by
    refine fun i j hj hk => (State.showRun_objsBut _ _ _ _ hj hk).trans ?_
    obtain ⟨k, n, y, h⟩ := s.issued_eq t a r
    rw [h]
    rfl
  refine ⟨?_, ?_, ?_, hobjs.trans (State.showRun_objsBut _ _), fun hform q hq => ?_⟩
  · rw [State.showRun_arrAt, State.showRun_arrAt, hat, State.showRun_now, State.showRun_now, hnow]
  · intro b hb
    have hne : b.val ≠ a := by simpa using hb
    rw [State.showRun_arrAt, State.showRun_arrAt, State.arrAt_modArr ha, if_neg hne, State.issued_arrAt ha hr, if_neg hne]
  · exact ((((s.issued_within t a r).step (State.modArr_within _ a f) (by decide)).mono (by decide)).step (State.showRun_within _ a) (by decide)).step
      (State.showRun_within _ a) (by decide)
  · have hsform : (((s.issued t a r).modArr a f).showRun a).canonical = true := (Calm.refl _).modArr.showRun.form (State.issued_form hform)
    rw [State.showRun_now, State.showRun_now, hnow] at hq
    rw [State.showRun_next hsform (r := q) (by rw [State.showRun_arrAt, hat, hq])]
    rw [State.posAddr_of_shown ha hobjs]
    have hissued := s.issued_within t a r
    exact Eq.trans (State.showRun_within _ a .intake (by decide)) (hissued .intake (by decide))

/-! ## What reads the objects, the ring SRAM and the stacks alone -/

theorem State.get_of_objects (hdict : u.dict = s.dict) (hintake : u.intake = s.intake) : u.get = s.get := by
  funext i j
  rw [State.get, State.get, hdict, hintake]

/-- Two states whose cues are the same. -/
structure State.SameCues (s u : State) : Prop where
  dict    : u.dict = s.dict
  intake  : u.intake = s.intake
  mem     : ∀ x n, u.memRead x n = s.memRead x n
  rings   : ∀ b, (u.arrAt b).rings = (s.arrAt b).rings
  install : ∀ b, (u.arrAt b).install = (s.arrAt b).install

theorem State.SameCues.get (h : s.SameCues u) : u.get = s.get := State.get_of_objects h.dict h.intake

theorem State.SameCues.cueAt (h : s.SameCues u) (b x : Nat) : u.cueAt b x = s.cueAt b x := by
  rw [State.cueAt, State.cueAt, h.mem, h.rings]

theorem State.SameCues.posted (h : s.SameCues u) (b : Nat) (q : Run) : u.posted b q = s.posted b q := by
  unfold State.posted State.ringHome State.producer State.flag
  rw [h.get, h.install]

theorem State.SameCues.cueBytes (h : s.SameCues u) (b : Nat) (q : Run) : u.cueBytes b q = s.cueBytes b q := by
  have hok (x : Nat) : u.cueAddrOk x = s.cueAddrOk x := by
    unfold State.cueAddrOk State.inRegion State.regionBase State.regionSize
    rw [h.get]
  unfold State.cueBytes State.posAddr State.ringHome State.slotAddr State.flag
  rw [h.get, h.install]
  simp only [h.cueAt, hok]

theorem State.SameCues.listEnd (h : s.SameCues u) (b q stop n i : Nat) : u.listEnd b q stop n i = s.listEnd b q stop n i := by
  induction n generalizing i with
  | zero => rfl
  | succ n ih =>
    have hslot : u.slotAddr b q i = s.slotAddr b q i := by rw [State.slotAddr, State.slotAddr, h.get]
    rw [State.listEnd, State.listEnd, hslot, h.cueAt, ih]

theorem State.SameCues.endOf (h : s.SameCues u) (b q i : Nat) : u.endOf b q i = s.endOf b q i := by
  have hslot : u.slotAddr b q i = s.slotAddr b q i := by rw [State.slotAddr, State.slotAddr, h.get]
  have hproducer : u.producer b q = s.producer b q := by rw [State.producer, State.producer, h.get]
  rw [State.endOf, State.endOf, hslot, hproducer, h.cueAt, h.listEnd, h.get]

theorem State.issued_memRead (s : State) (t a : Nat) (r : Run) (x n : Nat) : (s.issued t a r).memRead x n = s.memRead x n := by
  obtain ⟨k, m, y, h⟩ := s.issued_eq t a r
  rw [h]
  rfl

theorem State.issued_sameCues (ha : a < 16) (hr : s.issuing a = some r) : s.SameCues (s.issued t a r) := by
  have hw := s.issued_within t a r
  refine ⟨hw .dict (by decide), hw .intake (by decide), s.issued_memRead t a r, fun b => ?_, fun b => ?_⟩ <;>
  · rw [State.issued_arrAt ha hr]
    split
    · next hb => rw [hb]
    · rfl

/-! ## A list that ends -/

/-- The object of a ring has a key of its own. -/
theorem isRuleObj_ring {b q : Nat} (hb : b < 16) (hq : q < 16) (j : Nat) : isRuleObj (ringObj b q) j = false := by
  unfold isRuleObj ringObj
  simp
  omega

/-- What the end of a list leaves: its consumer index past it, its counts, and nothing else. -/
structure State.Ended (s : State) (a : Nat) (r : Run) (u : State) : Prop where
  gone   : (u.arrAt a).run = none
  passed : u.consumer a r.ring = s.endOf a r.ring r.start
  count  : u.obj (0x5040 + a) 3 = (s.obj (0x5040 + a) 3 + 1) % 2 ^ 64
  shown  : u.obj (0x5040 + a) 1 = 0xFF
  rest   : ArraysBut (fun b => b == a) s u
  parts  : Within [.arr, .dict, .memc, .clock] s u
  objs   : ObjsBut (fun i j => i == 0x5040 + a && (j == 1 || j == 3) || i == ringObj a r.ring && j == 8 || i == 0x8850 + a && j == 3) s u

/-- A list that was not passed over, in an array no cue of which is dead, is consumed up to its end. -/
theorem State.consume_eq (ha : a < 16) (hring : r.ring < 16) (hskip : r.skip = none) (hdead : (s.arrAt a).dead = []) :
    ∃ f : Arr → Arr, (∀ x, ∃ y, f x = { x with tails := y }) ∧
      s.consume a r = (s.modArr a f).put (ringObj a r.ring) 8 (s.endOf a r.ring r.start) := by
  obtain ⟨f, hf, hpass⟩ : ∃ f : Arr → Arr, (∀ x, ∃ y, f x = { x with tails := y }) ∧
      s.passList a r.ring r.start (s.endOf a r.ring r.start) = (s.modArr a f).put (ringObj a r.ring) 8 (s.endOf a r.ring r.start) := by
    unfold State.passList
    split
    · exact ⟨fun x => { x with tails := r.ring :: x.tails }, fun _ => ⟨_, rfl⟩, rfl⟩
    · exact ⟨id, fun x => ⟨x.tails, rfl⟩, by rw [State.modArr_self rfl]⟩
  refine ⟨f, hf, ?_⟩
  unfold State.consume
  rw [if_pos hring, hskip]
  dsimp only
  have hnone : ((s.passList a r.ring r.start (s.endOf a r.ring r.start)).arrAt a).dead = [] := by
    obtain ⟨y, hy⟩ := hf (s.arrAt a)
    have hmod : (s.modArr a f).arrAt a = { s.arrAt a with tails := y } := (State.arrAt_modArr ha).trans ((if_pos rfl).trans hy)
    rw [hpass]
    exact (congrArg Arr.dead hmod).trans hdead
  rw [hnone]
  exact hpass

/-- What the end of the list that runs leaves. -/
theorem State.endList_ended (ha : a < 16) (hform : s.canonical = true) (hrun : (s.arrAt a).run = some r) (hring : r.ring < 16)
    (hskip : r.skip = none) (hdead : (s.arrAt a).dead = []) : s.Ended a r (s.endList a r) := by
  obtain ⟨f, hf, hconsume⟩ := State.consume_eq ha hring hskip hdead
  obtain ⟨y, hy⟩ := hf (s.arrAt a)
  have hwithin := s.consume_within a r
  have hcform : (s.consume a r).canonical = true := (Calm.refl s).consume.form hform
  have hcobjs : ObjsBut (fun i j => i == ringObj a r.ring && j == 8) s (s.consume a r) := by
    rw [hconsume]
    intro i j hj hk
    rw [State.put_objsBut (s.modArr a f) (i := ringObj a r.ring) (j := 8) _ (by decide) i j hj hk]
    rfl
  have hpassed : (s.consume a r).obj (ringObj a r.ring) 8 = s.endOf a r.ring r.start := by
    rw [hconsume]
    exact State.obj_put (s := s.modArr a f) (State.dict_wf hform)
  have hcarr (b : Nat) : (s.consume a r).arrAt b = if b = a then { s.arrAt a with tails := y } else s.arrAt b := by
    have hmod : (s.consume a r).arrAt b = (s.modArr a f).arrAt b := by
      rw [hconsume]
      rfl
    rw [hmod, State.arrAt_modArr ha]
    split
    · next hb => rw [hb, hy]
    · rfl
  generalize hv : s.consume a r = v at hwithin hcform hcobjs hpassed hcarr
  obtain ⟨w, hw⟩ : ∃ w, w = (v.bump (0x5040 + a) 3).put (0x8850 + a) 3 s.now := ⟨_, rfl⟩
  obtain ⟨g, hg, hend⟩ : ∃ g : Arr → Arr, (g { s.arrAt a with tails := y }).run = none ∧ s.endList a r = (w.modArr a g).showRun a := by
    refine ⟨fun x => { x with
      run := if x.run.map Run.ring = some r.ring then none else x.run
      susp := x.susp.filter fun y => decide (y.ring ≠ r.ring) }, ?_, ?_⟩
    · exact if_pos (congrArg (Option.map Run.ring) hrun)
    · rw [State.endList, hv, hw]
  have hkey : ringObj a r.ring ≠ 0x5040 + a ∧ ringObj a r.ring ≠ 0x8850 + a := by
    unfold ringObj
    omega
  have hwwf : Sparse.wf objDefault w.dict = true := by
    rw [hw]
    exact State.put_wf (State.put_wf (State.dict_wf hcform))
  have hwarr (b : Nat) : w.arrAt b = v.arrAt b := by rw [hw]; rfl
  have hgone : ((w.modArr a g).arrAt a).run = none := by
    rw [State.arrAt_modArr ha, if_pos rfl, hwarr, hcarr, if_pos rfl, hg]
  have hshow : s.endList a r = (w.modArr a g).put (0x5040 + a) 1 0xFF := by
    rw [hend]
    unfold State.showRun
    rw [hgone]
  have hcount : w.obj (0x5040 + a) 3 = (s.obj (0x5040 + a) 3 + 1) % 2 ^ 64 := by
    rw [hw, State.obj_put_ne (by decide) (by decide) (by omega), State.obj_bump (State.dict_wf hcform), hcobjs _ _ (by decide) (by simp)]
  have hlast : ObjsBut (fun i j => i == 0x5040 + a && j == 1) w (s.endList a r) := by
    rw [hshow]
    exact (w.modArr a g).put_objsBut 0xFF
  have hobjs : ObjsBut (fun i j => i == 0x5040 + a && j == 3 || i == 0x8850 + a && j == 3) v w := by
    rw [hw]
    exact (v.put_others (by simp)).trans (State.put_others _ (by simp))
  refine ⟨?_, ?_, ?_, ?_, fun b hb => ?_, ?_, fun i j hj hk => ?_⟩
  · rw [hshow]
    exact hgone
  · rw [State.consumer, State.get_of_dict (isRuleObj_ring ha hring 8), ← State.obj, hlast _ _ (by decide) (by simp),
      hobjs _ _ (by decide) (by simp), hpassed]
  · rw [hlast _ _ (by decide) (by simp), hcount]
  · rw [hshow]
    exact State.obj_put (s := w.modArr a g) hwwf
  · have hne : b.val ≠ a := by simpa using hb
    rw [hend, State.showRun_arrAt, State.arrAt_modArr ha, if_neg hne, hwarr, hcarr, if_neg hne]
  · have hvw : Within [.dict] v w := by
      rw [hw]
      exact (State.bump_within _ _ _).trans (State.put_within _ _ _ _)
    rw [hend]
    exact (((hwithin.mono (by decide)).step hvw (by decide)).step (State.modArr_within _ a g) (by decide)).step (State.showRun_within _ a) (by decide)
  · simp only [Bool.or_eq_false_iff, Bool.and_eq_false_iff, beq_eq_false_iff_ne] at hk
    rw [hlast i j hj (by simp; omega), hobjs i j hj (by simp; omega), hcobjs i j hj (by simp; omega)]

/-- A list that has issued its last cue, with nothing in flight, ends. -/
theorem State.progress_of_ending (ha : a < 16) (hform : s.canonical = true) (hrun : (s.arrAt a).run = some r) (hblock : r.block = .none)
    (hending : r.ending = true) (hrewind : r.rewind = false) (hfly : r.fly = []) (hring : r.ring < 16) (hskip : r.skip = none)
    (hdead : (s.arrAt a).dead = []) : s.progress a = s.endList a r := by
  have hfind : (s.listsOf a).find? (fun q => decide (q.ring = r.ring)) = some r := by simp [State.listsOf, hrun]
  have hsettle : s.settle a r.ring = s.endList a r := by
    unfold State.settle
    rw [hfind]
    simp only [hrewind, State.signalDone_none _ _ hblock, hfind, hending, hblock, hfly]
    simp
  have hgone := (State.endList_ended ha hform hrun hring hskip hdead).gone
  unfold State.progress
  rw [hrun]
  simp only [hrewind, hsettle, hgone]
  simp

/-- A second showing of a list that has ended changes nothing. -/
theorem State.Ended.showRun (h : s.Ended a r u) (hu : u.canonical = true) (ha : a < 16) (hring : r.ring < 16) :
    s.Ended a r (u.showRun a) := by
  obtain ⟨hgone, hpassed, hcount, hshown, hrest, hparts, hobjs⟩ := h
  have hput : u.showRun a = u.put (0x5040 + a) 1 0xFF := by
    unfold State.showRun
    rw [hgone]
  have hsame (i j : Nat) (hj : j < 65536) : (u.showRun a).obj i j = u.obj i j := by
    rw [hput]
    by_cases hk : i = 0x5040 + a ∧ j = 1
    · rw [hk.1, hk.2, State.obj_put (State.dict_wf hu), hshown]
    · exact u.put_objsBut 0xFF (by decide) i j hj (by simpa using hk)
  refine ⟨?_, ?_, ?_, ?_, fun b hb => ?_, hparts.step (u.showRun_within a) (by decide), fun i j hj hk => ?_⟩
  · rw [State.showRun_arrAt, hgone]
  · rw [← hpassed, State.consumer, State.consumer, State.get_of_dict (isRuleObj_ring ha hring 8), State.get_of_dict (isRuleObj_ring ha hring 8)]
    exact hsame _ _ (by decide)
  · rw [hsame _ _ (by decide), hcount]
  · rw [hsame _ _ (by decide), hshown]
  · rw [State.showRun_arrAt, hrest b hb]
  · rw [hsame i j hj, hobjs i j hj hk]

/-- What the issue of a cue leaves after which its list ends. -/
theorem State.issue_ends (ha : a < 16) (hr : s.issuing a = some r) (hm : s.mayIssue a op c r = true) (hform : s.canonical = true) (f : Arr → Arr)
    (hbody : body (s.issued t a r) r (s.cueWords a r) ((s.adds a r (s.cueWords a r)).getD {}) = .ok (((s.issued t a r).modArr a f).progress a))
    (hx : f { s.arrAt a with run := some (r.stepped (s.cueWords a r) (s.at t).now) } =
      { s.arrAt a with run := some { r.stepped (s.cueWords a r) (s.at t).now with ending := true } })
    (hfly : r.fly = []) (hring : r.ring < 16) (hskip : r.skip = none) (hdead : (s.arrAt a).dead = []) :
    s.Ended a r ((s.at t).issue a op c body) := by
  rw [State.issue_ok hr hm hbody]
  obtain ⟨hblock, -, hrewind⟩ := State.issuing_free hr
  have hvform : ((s.issued t a r).modArr a f).canonical = true := (Calm.refl _).modArr.form (State.issued_form hform)
  have hvarr (b : Nat) : ((s.issued t a r).modArr a f).arrAt b = if b = a then
      { s.arrAt a with run := some { r.stepped (s.cueWords a r) (s.at t).now with ending := true } } else s.arrAt b := by
    rw [State.arrAt_modArr ha, State.issued_arrAt ha hr]
    split
    · exact hx
    · rfl
  have hvparts := (s.issued_within t a r).step (State.modArr_within _ a f) (by decide)
  have hcues : s.SameCues ((s.issued t a r).modArr a f) := by
    refine ⟨hvparts .dict (by decide), hvparts .intake (by decide), fun x n => s.issued_memRead t a r x n, fun b => ?_, fun b => ?_⟩ <;>
    · rw [hvarr]
      split
      · next hb => rw [hb]
      · rfl
  generalize (s.issued t a r).modArr a f = v at hvform hvarr hvparts hcues
  have hva := (hvarr a).trans (if_pos rfl)
  have hvrun : (v.arrAt a).run = some { r.stepped (s.cueWords a r) (s.at t).now with ending := true } := by rw [hva]
  have hvdead : (v.arrAt a).dead = [] := by rw [hva, hdead]
  rw [State.progress_of_ending ha hvform hvrun hblock rfl hrewind hfly hring hskip hvdead]
  have hended := State.endList_ended ha hvform hvrun hring hskip hvdead
  obtain ⟨hgone, hpassed, hcount, hshown, hrest, hparts, hobjs⟩ :=
    hended.showRun ((Calm.refl v).endList.form hvform) ha hring
  have hdict (i j : Nat) : v.obj i j = s.obj i j := by rw [State.obj, State.obj, hcues.dict]
  refine ⟨hgone, hpassed.trans (hcues.endOf _ _ _), hcount.trans (by rw [hdict]), hshown, fun b hb => (hrest b hb).trans ?_,
    (hvparts.mono (by decide)).trans hparts, fun i j hj hk => (hobjs i j hj hk).trans (hdict i j)⟩
  rw [hvarr, if_neg (by simpa using hb)]

end
end Sys2Proof.Machine

/-! O39: LOOP, ENDLOOP, CALL, RETURN, RESTART, MARK and UNMARK (R227 to R229, R444, R445). -/

namespace Sys2Proof.Machine

set_option Elab.async false

open Sys2Proof.Bits

section
variable {s u v : State} {a : Fin 16} {t : Nat} {r : Run} {c : CueCheck}

/-! ## The search for a LOOP's end -/

theorem State.SameCues.matchEnd (h : s.SameCues u) (b : Nat) (q : Run) (fuel depth : Nat) (p : Pos) :
    u.matchEnd b q fuel depth p = s.matchEnd b q fuel depth p := by
  induction fuel generalizing q depth p with
  | zero => rfl
  | succ fuel ih => simp only [State.matchEnd, h.posted, h.cueBytes, ih]

/-! ## A branch that its list takes -/

theorem State.stepped_free (hr : s.issuing a.val = some r) (hgoes : bit (w (s.cueWords a.val r) 0) 15 = false) (now : Nat) :
    (r.stepped (s.cueWords a.val r) now).block = .none ∧ (r.stepped (s.cueWords a.val r) now).ending = false ∧
      (r.stepped (s.cueWords a.val r) now).rewind = false := by
  obtain ⟨hblock, -, hrewind⟩ := State.issuing_free hr
  exact ⟨hblock, hgoes, hrewind⟩

/-- A cue whose effect is a change `f` of its array, none that ends or holds up the list. -/
theorem State.issue_branch {op : Nat} {body : State → Run → List Nat → Adds → Except CueErr State} (hr : s.issuing a.val = some r)
    (hm : s.mayIssue a.val op c r = true) (f : Arr → Arr) {q : Nat → Run}
    (hbody : body (s.issued t a.val r) r (s.cueWords a.val r) ((s.adds a.val r (s.cueWords a.val r)).getD {}) =
      .ok (((s.issued t a.val r).modArr a.val f).progress a.val)) {x : Nat → Arr}
    (hx : ∀ now, f { s.arrAt a.val with run := some (r.stepped (s.cueWords a.val r) now) } = x now) (hrun : ∀ now, (x now).run = some (q now))
    (hfree : ∀ now, (q now).block = .none ∧ (q now).ending = false ∧ (q now).rewind = false) :
    ∃ u, (Host.Outcome.next ((s.at t).issue a.val op c body) : Result) = .next u ∧ s.Moved a.val x u := by
  obtain ⟨hblock, hending, hrewind⟩ := hfree (s.at t).now
  exact ⟨_, rfl, State.issue_moves a.isLt hr hm f hbody (hx _) (hrun _) hblock hending hrewind⟩

/-- What a cue leaves that only moves its list. -/
theorem State.Moved.all {b : Nat} {x : Nat → Arr} (h : s.Moved b x u) : u.arrAt b = x u.now ∧ ArraysBut (fun c => c == b) s u ∧
    Within [.arr, .dict, .memc, .clock] s u ∧ ObjsBut (fun i j => i == 0x5040 + b && (j == 1 || j == 2)) s u :=
  ⟨h.arr, h.rest, h.parts, h.objs⟩

theorem loop_enters (hr : s.issuing a.val = some r) (hm : s.mayIssue a.val opLoop c r = true) (hgoes : bit (w (s.cueWords a.val r) 0) 15 = false)
    (hdepth : r.stack.length < 4) (hcount : fld (w (s.cueWords a.val r) 1) 16 0 ≠ 0) :
    ∃ u, Sys2Proof.Machine.exec (.loop a c t) s = .next u ∧ s.Moved a.val (fun now => { s.arrAt a.val with run := some { r.stepped (s.cueWords a.val r) now with
      stack := .loop r.pos.next (fld (w (s.cueWords a.val r) 1) 16 0) 0 (toInt 16 (fld (w (s.cueWords a.val r) 2) 31 16))
        (toInt 16 (fld (w (s.cueWords a.val r) 2) 15 0)) (toInt 32 (w (s.cueWords a.val r) 3)) :: r.stack } }) u := by
  refine State.issue_branch hr hm (fun x => { x with run := x.run.map fun y => { y with
      stack := .loop r.pos.next (fld (w (s.cueWords a.val r) 1) 16 0) 0 (toInt 16 (fld (w (s.cueWords a.val r) 2) 31 16))
        (toInt 16 (fld (w (s.cueWords a.val r) 2) 15 0)) (toInt 32 (w (s.cueWords a.val r) 3)) :: y.stack } })
    ?_ (fun _ => rfl) (fun _ => rfl) (State.stepped_free hr hgoes)
  dsimp only
  rw [if_neg hcount, if_neg (by omega)]
  rfl

theorem loop_passes (hr : s.issuing a.val = some r) (hm : s.mayIssue a.val opLoop c r = true) (hgoes : bit (w (s.cueWords a.val r) 0) 15 = false)
    (hcount : fld (w (s.cueWords a.val r) 1) 16 0 = 0) {p : Pos} (hend : s.matchEnd a.val r searchCues 0 r.pos.next = .after p false) :
    ∃ u, Sys2Proof.Machine.exec (.loop a c t) s = .next u ∧
      s.Moved a.val (fun now => { s.arrAt a.val with run := some { r.stepped (s.cueWords a.val r) now with pos := p } }) u := by
  refine State.issue_branch hr hm (fun x => { x with run := x.run.map fun r => { r with pos := p, ending := r.ending || false } }) ?_
    (fun now => ?_) (fun _ => rfl) (State.stepped_free hr hgoes)
  · dsimp only
    rw [if_pos hcount, (State.issued_sameCues a.isLt hr).matchEnd, hend]
    rfl
  · simp only [Option.map_some, Bool.or_false]

theorem endloop_goes (hr : s.issuing a.val = some r) (hm : s.mayIssue a.val opEndloop c r = true)
    (hgoes : bit (w (s.cueWords a.val r) 0) 15 = false) {p : Pos} {n i : Nat} {x y z : Int} {l : List Frame} (hstack : r.stack = .loop p n i x y z :: l) :
    ∃ u, Sys2Proof.Machine.exec (.endloop a c t) s = .next u ∧ s.Moved a.val (fun now => { s.arrAt a.val with run := some { r.stepped (s.cueWords a.val r) now with
      pos := if i + 1 < n then p else r.pos.next, stack := if i + 1 < n then .loop p n (i + 1) x y z :: l else l } }) u := by
  by_cases hmore : i + 1 < n
  · refine State.issue_branch hr hm (fun q => { q with run := q.run.map fun r => { r with stack := .loop p n (i + 1) x y z :: l, pos := p } }) ?_
      (fun now => ?_) (fun _ => rfl) (State.stepped_free hr hgoes)
    · rw [hstack]
      exact if_pos hmore
    · rw [if_pos hmore, if_pos hmore]
      rfl
  · refine State.issue_branch hr hm (fun q => { q with run := q.run.map fun r => { r with stack := l } }) ?_
      (fun now => ?_) (fun _ => rfl) (State.stepped_free hr hgoes)
    · rw [hstack]
      exact if_neg hmore
    · rw [if_neg hmore, if_neg hmore]
      rfl

theorem State.cueAddrOk_issued (s : State) (t b : Nat) (r : Run) (x : Nat) : (s.issued t b r).cueAddrOk x = s.cueAddrOk x := by
  obtain ⟨k, m, y, h⟩ := s.issued_eq t b r
  rw [h]
  rfl

theorem call_enters (hr : s.issuing a.val = some r) (hm : s.mayIssue a.val opCall c r = true) (hgoes : bit (w (s.cueWords a.val r) 0) 15 = false)
    (hdepth : r.stack.length < 4) (hbodyOk : s.cueAddrOk (w (s.cueWords a.val r) 1) = true) (hlaunch : bit (w (s.cueWords a.val r) 0) 8 = false) :
    ∃ u, Sys2Proof.Machine.exec (.call a c t) s = .next u ∧ s.Moved a.val (fun now => { s.arrAt a.val with run := some { r.stepped (s.cueWords a.val r) now with
      pos := .body (w (s.cueWords a.val r) 1), stack := .call r.pos.next :: r.stack } }) u := by
  refine State.issue_branch hr hm
    (fun x => { x with run := x.run.map fun y => { y with stack := .call r.pos.next :: y.stack, pos := .body (w (s.cueWords a.val r) 1) } }) ?_
    (fun _ => rfl) (fun _ => rfl) (State.stepped_free hr hgoes)
  refine if_neg ?_
  rw [State.cueAddrOk_issued, hbodyOk, hlaunch]
  simp only [Bool.false_eq_true, Bool.true_eq_false, or_false, false_or]
  omega

theorem ret_goesBack (hr : s.issuing a.val = some r) (hm : s.mayIssue a.val opReturn c r = true) (hgoes : bit (w (s.cueWords a.val r) 0) 15 = false)
    {p : Pos} {l : List Frame} (hstack : r.stack = .call p :: l) :
    ∃ u, Sys2Proof.Machine.exec (.ret a c t) s = .next u ∧
      s.Moved a.val (fun now => { s.arrAt a.val with run := some { r.stepped (s.cueWords a.val r) now with pos := p, stack := l } }) u := by
  refine State.issue_branch hr hm (fun x => { x with run := x.run.map fun y => { y with stack := l, pos := p } }) ?_
    (fun _ => rfl) (fun _ => rfl) (State.stepped_free hr hgoes)
  rw [hstack]
  rfl

theorem State.pointHere_issued (hr : s.issuing a.val = some r) :
    (s.issued t a.val r).pointHere a.val (r.stepped (s.cueWords a.val r) (s.at t).now) = s.pointAfter a.val r := by
  rw [State.pointHere, State.frontOf, State.issued_arrAt a.isLt hr, if_pos rfl]
  exact congrArg (fun n => (⟨r.pos.next, r.stack, n, [], r.issued + 1⟩ : Restart)) (if_pos rfl)

theorem Run.setRestart_free {q : Run} (h : q.block = .none ∧ q.ending = false ∧ q.rewind = false) (p : Restart) :
    (q.setRestart p).block = .none ∧ (q.setRestart p).ending = false ∧ (q.setRestart p).rewind = false := by
  unfold Run.setRestart
  split
  · exact h
  · exact h

theorem restart_sets (hr : s.issuing a.val = some r) (hm : s.mayIssue a.val opRestart c r = true) (hgoes : bit (w (s.cueWords a.val r) 0) 15 = false) :
    ∃ u, Sys2Proof.Machine.exec (.restart a c t) s = .next u ∧
      s.Moved a.val (fun now => { s.arrAt a.val with run := some ((r.stepped (s.cueWords a.val r) now).setRestart (s.pointAfter a.val r)) }) u := by
  refine State.issue_branch hr hm (fun x => { x with run := x.run.map fun r' => r'.setRestart (s.pointAfter a.val r) }) ?_
    (fun _ => rfl) (fun _ => rfl) (fun now => Run.setRestart_free (State.stepped_free hr hgoes now) _)
  have hrun : ((s.issued t a.val r).arrAt a.val).run = some (r.stepped (s.cueWords a.val r) (s.at t).now) := by
    rw [State.issued_arrAt a.isLt hr, if_pos rfl]
  rw [State.restartHere, hrun]
  dsimp only
  rw [State.pointHere_issued hr]
  rfl

/-! ## An illegal cue -/

/-- What an illegal cue leaves whose list tries again (R226, R229). -/
structure State.TriesAgain (s : State) (a : Nat) (r : Run) (u : State) : Prop where
  arr    : u.arrAt a = { ((s.arrAt a).discard r.restart.written) with front := r.restart.front, run := some (r.rewound none) }
  rest   : ArraysBut (fun b => b == a) s u
  report : Reported 0x03 s u
  count  : u.obj (0x5040 + a) 4 = (s.obj (0x5040 + a) 4 + 1) % 2 ^ 64
  parts  : Within [.arr, .dict, .clock, .pwr, .mem, .memc, .obs, .odp, .out, .flash, .rel, .free] s u
  notes  : Notes (fun i j => i == 0x5040 + a && (j == 1 || j == 2 || j == 4)) s u

theorem State.TriesAgain.all {b : Nat} (h : s.TriesAgain b r u) :
    u.arrAt b = { ((s.arrAt b).discard r.restart.written) with front := r.restart.front, run := some (r.rewound none) } ∧
      ArraysBut (fun c => c == b) s u ∧ Reported 0x03 s u ∧ u.obj (0x5040 + b) 4 = (s.obj (0x5040 + b) 4 + 1) % 2 ^ 64 ∧
      Within [.arr, .dict, .clock, .pwr, .mem, .memc, .obs, .odp, .out, .flash, .rel, .free] s u ∧
      Notes (fun i j => i == 0x5040 + b && (j == 1 || j == 2 || j == 4)) s u :=
  ⟨h.arr, h.rest, h.report, h.count, h.parts, h.notes⟩

theorem Run.wrote_nothing (r : Run) : r.wrote [] = r := by
  have hpoint (p : Restart) : ({ p with written := [] ++ p.written } : Restart) = p := rfl
  have hfly (f : Fly) : ({ f with implied := f.implied.map fun p => { p with written := [] ++ p.written } } : Fly) = f := by
    simp only [hpoint, Option.map_id']
  unfold Run.wrote
  simp only [hfly, List.map_id']
  rfl

theorem State.rewind_arrAt {b : Nat} (hb : b < 16) (s : State) (q : Run) (d : Nat) : (s.rewind b q none).arrAt d =
    if d = b then { ((s.arrAt b).discard q.restart.written) with front := q.restart.front, run := (s.arrAt b).run.map fun _ => { q with
      pos := q.restart.pos, stack := q.restart.stack, block := .none, ending := false, rewind := false, resume := none
      restart := { q.restart with written := [] } } } else s.arrAt d := by
  rw [State.rewind, State.showRun_arrAt, State.modRun, State.arrAt_modArr hb, State.arrAt_modArr hb]
  split
  · next hd =>
    subst hd
    rfl
  · rfl

/-- A list that may try again goes back to its restart point. -/
theorem State.abortToRestart_again {b : Nat} {q : Run} (hblock : q.block = .none) (hfly : q.impliedFlying = false)
    (hretries : q.retries + 1 ≤ s.get 0x5003 0) (hb : b < 16) : s.abortToRestart b q none =
      (((s.bump (0x5040 + b) 4).modRun b fun _ => { q with retries := q.retries + 1 }).rewind b { q with retries := q.retries + 1 } none) := by
  have hlimit : ((s.bump (0x5040 + b) 4).modRun b fun _ => { q with retries := q.retries + 1 }).get 0x5003 0 = s.get 0x5003 0 :=
    State.get_put_ne (s := s) (i := 0x5040 + b) (j := 4) (by unfold objKey; omega)
  unfold State.abortToRestart
  extract_lets s1 q1 s2 s3
  rw [if_neg (by rw [hlimit]; exact Nat.not_lt.2 hretries)]
  have hqueue : s2.leaveQueue b 2 q1 = s2 := by
    unfold State.leaveQueue
    rw [show q1.block = .none from hblock]
  rw [if_neg (by rw [show q1.impliedFlying = false from hfly]; decide), show s3 = s2 from hqueue]

theorem State.abortToRestart_objsBut {b : Nat} {q : Run} (hblock : q.block = .none) (hfly : q.impliedFlying = false)
    (hretries : q.retries + 1 ≤ s.get 0x5003 0) (hb : b < 16) :
    Within [.arr, .dict] s (s.abortToRestart b q none) ∧
      ObjsBut (fun i j => i == 0x5040 + b && (j == 1 || j == 2 || j == 4)) s (s.abortToRestart b q none) ∧
      (s.abortToRestart b q none).obj (0x5040 + b) 4 = (s.bump (0x5040 + b) 4).obj (0x5040 + b) 4 := by
  rw [State.abortToRestart_again hblock hfly hretries hb]
  generalize hv : (s.bump (0x5040 + b) 4).modRun b (fun _ => { q with retries := q.retries + 1 }) = v
  have hvdict : v.dict = (s.bump (0x5040 + b) 4).dict := by rw [← hv]; rfl
  have hshow : ObjsBut (fun i j => i == 0x5040 + b && (j == 1 || j == 2)) v (v.rewind b { q with retries := q.retries + 1 } none) := by
    intro i j hj hk
    rw [State.rewind, State.showRun_objsBut _ _ _ _ hj hk]
    rfl
  refine ⟨?_, fun i j hj hk => ?_, ?_⟩
  · rw [← hv]
    exact (((s.bump_within _ _).mono (by decide)).step (State.modRun_within _ _ _) (by decide)).step (State.rewind_within _ _ _ _) (by decide)
  · have hboth : ¬ (i = 0x5040 + b ∧ (j = 1 ∨ j = 2 ∨ j = 4)) := by
      rintro ⟨hi, hj⟩
      simp [hi] at hk
      omega
    rw [hshow i j hj (by simp; omega), State.obj, hvdict]
    exact s.bump_objsBut (i := 0x5040 + b) (j := 4) (by decide) i j hj (by simp; omega)
  · rw [hshow _ _ (by decide) (by simp), State.obj, hvdict]
    rfl

theorem State.isRuleObj_listObj {b : Nat} (hb : b < 16) (j : Nat) : isRuleObj (0x5040 + b) j = false := by
  unfold isRuleObj
  simp
  omega

theorem State.fetched_noted (s : State) (t b : Nat) (r : Run) : Noted s (s.fetched t b r) := by
  have hdict : (s.fetched t b r).dict = s.dict := s.fetched_within t b r .dict (by decide)
  refine ⟨.of_dict hdict, State.logSound_of_dict hdict, fun _ x _ => ?_⟩
  obtain ⟨k, n, h⟩ := s.fetched_eq t b r
  rw [h]
  rfl

/-- An illegal cue of a list with attempts left is reported and counted, and the list goes back to its restart point. -/
theorem State.illegal_triesAgain (hr : s.issuing a.val = some r) (hform : s.canonical = true) (hfly : r.impliedFlying = false)
    (hretries : r.retries + 1 ≤ s.get 0x5003 0) (ws : List Nat) : s.TriesAgain a.val r ((s.fetched t a.val r).cueError a.val r ws .illegal) := by
  obtain ⟨hblock, -, -⟩ := State.issuing_free hr
  have hrun := State.issuing_run hr
  obtain ⟨e, hcls, he⟩ : ∃ e : ErrInfo, e.cls = 0x03 ∧ (s.fetched t a.val r).cueError a.val r ws .illegal =
      ((s.fetched t a.val r).errorRecord e).abortToRestart a.val (r.wrote []) none := ⟨_, rfl, rfl⟩
  rw [he, Run.wrote_nothing]
  have hfetched := s.fetched_within t a.val r
  have hfform : (s.fetched t a.val r).canonical = true := ((Calm.refl s).within (s.at_within t)).countFetch.form hform
  have hreported := State.errorRecord_reported (State.dict_wf hfform) (e := e) (by rw [hcls]; decide)
  have hnoted := (s.fetched t a.val r).errorRecord_noted (e := e) (by rw [hcls]; decide)
  have hparts := (s.fetched t a.val r).errorRecord_within e
  have hvform : ((s.fetched t a.val r).errorRecord e).canonical = true := (Calm.refl _).errorRecord.form hfform
  generalize (s.fetched t a.val r).errorRecord e = v at hreported hnoted hparts hvform
  have hvarr (d : Nat) : v.arrAt d = s.arrAt d := by
    rw [State.arrAt, State.arrAt, hparts .arr (by decide), hfetched .arr (by decide)]
  have hfnoted : Noted s (s.fetched t a.val r) := s.fetched_noted t a.val r
  have hsnoted := hfnoted.trans hnoted
  have hlimit : v.get 0x5003 0 = s.get 0x5003 0 := hsnoted.objs.get_eq (by decide) (by decide) (by decide)
  obtain ⟨hwithin, hobjs, hfour⟩ := State.abortToRestart_objsBut (s := v) hblock hfly (hlimit ▸ hretries) a.isLt
  have harr := State.abortToRestart_again (s := v) hblock hfly (hlimit ▸ hretries) a.isLt
  have harrAt (d : Nat) := (congrArg (fun u : State => u.arrAt d) harr).trans (State.rewind_arrAt a.isLt _ _ d)
  have hnote : noteObj (0x5040 + a.val) = false := by
    have := a.isLt
    unfold noteObj
    simp
    omega
  have hreported : Reported 0x03 s v := (hcls ▸ hreported).after (hfetched .flash (by decide)) (hfetched .odp (by decide))
    (by rw [State.obj, State.obj, hfetched .dict (by decide)])
  refine ⟨?_, fun b hb => ?_, ?_, ?_, ?_, hsnoted.then hobjs hwithin⟩
  · rw [harrAt, if_pos rfl, State.modRun, State.arrAt_modArr a.isLt, if_pos rfl]
    have hbumped : (v.bump (0x5040 + a.val) 4).arrAt a.val = s.arrAt a.val := hvarr a.val
    rw [hbumped, hrun]
    rfl
  · have hne : b.val ≠ a.val := by simpa using hb
    rw [harrAt, if_neg hne, State.modRun, State.arrAt_modArr a.isLt, if_neg hne]
    exact hvarr b
  · obtain ⟨hnumber, hevent⟩ := hreported
    exact ⟨(congrArg Flash.recNo (hwithin .flash (by decide))).trans hnumber, hevent.step (congrArg Odp.eventSeq (hwithin .odp (by decide)))
      (congrArg Clock.house (hwithin .clock (by decide))) (by rw [hwithin .out (by decide)]; exact List.Subset.refl _)
      (hobjs _ _ (by decide) (by simp))⟩
  · rw [hfour, State.obj_bump (State.dict_wf hvform), hsnoted.objs _ _ (by decide) hnote]
  · exact ((hfetched.mono (by decide)).step hparts (by decide)).step hwithin (by decide)

variable {p : Pos} {l : List Frame}

theorem loop_illegal (hr : s.issuing a.val = some r) (hm : s.mayIssue a.val opLoop c r = true) (hfly : r.impliedFlying = false)
    (hform : s.canonical = true) (hcount : fld (w (s.cueWords a.val r) 1) 16 0 ≠ 0) (hdepth : 4 ≤ r.stack.length)
    (hretries : r.retries + 1 ≤ s.get 0x5003 0) : ∃ u, Sys2Proof.Machine.exec (.loop a c t) s = .next u ∧ s.TriesAgain a.val r u := by
  refine ⟨_, congrArg Host.Outcome.next (State.issue_error (e := .illegal) hr hm ?_), State.illegal_triesAgain hr hform hfly hretries _⟩
  dsimp only
  rw [if_neg hcount, if_pos hdepth]

theorem endloop_illegal (hr : s.issuing a.val = some r) (hm : s.mayIssue a.val opEndloop c r = true) (hfly : r.impliedFlying = false)
    (hform : s.canonical = true) (hstack : (match r.stack with | .loop _ _ _ _ _ _ :: _ => false | _ => true) = true)
    (hretries : r.retries + 1 ≤ s.get 0x5003 0) : ∃ u, Sys2Proof.Machine.exec (.endloop a c t) s = .next u ∧ s.TriesAgain a.val r u := by
  refine ⟨_, congrArg Host.Outcome.next (State.issue_error (e := .illegal) hr hm ?_), State.illegal_triesAgain hr hform hfly hretries _⟩
  split at hstack
  · cases hstack
  · next hother =>
    rcases hcase : r.stack with _ | ⟨_ | _, _⟩
    · rfl
    · exact absurd hcase (hother _ _ _ _ _ _ _)
    · rfl

theorem call_illegal (hr : s.issuing a.val = some r) (hm : s.mayIssue a.val opCall c r = true) (hfly : r.impliedFlying = false)
    (hform : s.canonical = true) (hbad : bit (w (s.cueWords a.val r) 0) 8 = true ∨ 4 ≤ r.stack.length ∨ s.cueAddrOk (w (s.cueWords a.val r) 1) = false)
    (hretries : r.retries + 1 ≤ s.get 0x5003 0) : ∃ u, Sys2Proof.Machine.exec (.call a c t) s = .next u ∧ s.TriesAgain a.val r u := by
  refine ⟨_, congrArg Host.Outcome.next (State.issue_error (e := .illegal) hr hm (if_pos ?_)), State.illegal_triesAgain hr hform hfly hretries _⟩
  rwa [State.cueAddrOk_issued]

theorem ret_illegal (hr : s.issuing a.val = some r) (hm : s.mayIssue a.val opReturn c r = true) (hfly : r.impliedFlying = false)
    (hform : s.canonical = true) (hstack : (match r.stack with | .call _ :: _ => false | [] => !r.launched | _ => true) = true)
    (hretries : r.retries + 1 ≤ s.get 0x5003 0) : ∃ u, Sys2Proof.Machine.exec (.ret a c t) s = .next u ∧ s.TriesAgain a.val r u := by
  refine ⟨_, congrArg Host.Outcome.next (State.issue_error (e := .illegal) hr hm ?_), State.illegal_triesAgain hr hform hfly hretries _⟩
  rcases hcase : r.stack with _ | ⟨_ | _, _⟩
  · rw [hcase] at hstack
    exact if_neg (by simpa using hstack)
  · rfl
  · rw [hcase] at hstack
    cases hstack

/-- RETURN at depth 0 of a launched list ends it. -/
theorem ret_ends (hr : s.issuing a.val = some r) (hm : s.mayIssue a.val opReturn c r = true) (hstack : r.stack = []) (hlaunched : r.launched = true)
    (hfly : r.fly = []) (hform : s.canonical = true) (hring : r.ring < 16) (hskip : r.skip = none) (hdead : (s.arrAt a.val).dead = []) :
    ∃ u, Sys2Proof.Machine.exec (.ret a c t) s = .next u ∧ s.Ended a.val r u := by
  refine ⟨_, rfl, State.issue_ends a.isLt hr hm hform (fun x => { x with run := x.run.map fun y => { y with ending := true } }) ?_ rfl hfly hring hskip hdead⟩
  rw [hstack]
  exact if_pos hlaunched

/-! ## Markers -/

/-- A source whose clock is not stretched writes its record at once. -/
theorem State.logRecordAt_unstretched {time cls kind uKind unit q : Nat} {body : Bytes} (hform : s.canonical = true)
    (hserved : s.logServed = true) (hfrozen : s.frozen = false) (hlost : s.obs.lost = []) (hfull : s.logFull 1 = false)
    (hregion : stretchRegion uKind unit = some q) (hstretch : s.isStretched q = false) (hflag : s.pwr.stretched.testBit q = false)
    (hbody : body.length ≤ 48) (hc : cls < 65536) : ∃ n, Placed (recBytes time (s.get 0x880B 0) kind uKind unit body)
      { s with pwr := { s.pwr with stretched := n } } (s.logRecordAt time cls kind uKind unit body) := by
  refine ⟨setFld s.pwr.stretched q q 0, ?_⟩
  have heq : s.logRecordAt time cls kind uKind unit body =
      State.logWrite { s with pwr := { s.pwr with stretched := setFld s.pwr.stretched q q 0 } } false ⟨cls, kind, uKind, unit, time, body, false⟩ := by
    have htake : s.takeStretch uKind unit = (false, { s with pwr := { s.pwr with stretched := setFld s.pwr.stretched q q 0 } }) := by
      rw [State.takeStretch, hregion]
      simp [hstretch, hflag]
    obtain ⟨v, hv⟩ : ∃ v : State, v = { s with pwr := { s.pwr with stretched := setFld s.pwr.stretched q q 0 } } := ⟨_, rfl⟩
    have hvlost : v.obs.lost = [] := by rw [hv, hlost]
    have hvfrozen : v.frozen = false := by rw [hv]; exact hfrozen
    have hobs : ({ v with obs := { v.obs with lost := [] } } : State) = v := by rw [← hvlost]
    rw [← hv] at htake ⊢
    simp [State.logRecordAt, hserved, htake, hvfrozen, State.logPlace, hvlost, hobs]
  rw [heq]
  exact State.logWrite_one (s := { s with pwr := { s.pwr with stretched := setFld s.pwr.stretched q q 0 } })
    (r := ⟨cls, kind, uKind, unit, time, body, false⟩) hform hbody rfl hfull hc

/-- What the record of a cue's marker leaves (R444). -/
structure State.Marks (s : State) (a : Nat) (r : Run) (kind id : Nat) (u : State) : Prop where
  number : u.obj 0x880B 0 = (s.obj 0x880B 0 + 1) % 2 ^ 32
  line   : u.memRead (s.regionBase 3 + s.get 0x8809 0) 64 = natLe 8 u.now ++ natLe 4 (s.get 0x880B 0) ++ natLe 1 kind ++ natLe 1 0 ++
    natLe 1 1 ++ natLe 1 a ++ markBody id a 0 r.pos.seq r.acc []
  bytes  : BytesBut s.inLine s u
  arr    : u.arrAt a = { s.arrAt a with run := some (r.stepped (s.cueWords a r) u.now) }
  rest   : ArraysBut (fun b => b == a) s u
  objs   : ObjsBut (fun i j => i == 0x5040 + a && (j == 1 || j == 2) || noteObj i) s u

/-- The state in which an issued marker has left its record. -/
def State.marked (s : State) (t a : Nat) (r : Run) (kind id : Nat) : State :=
  (s.issued t a r).logRecord 4 kind 1 a (markBody id a 0 r.pos.seq r.acc [])

/-- The writer takes a record of an array at once. -/
structure State.TakesMark (s : State) (a : Nat) : Prop where
  form   : s.canonical = true
  lost   : s.obs.lost = []
  room   : s.logFull 1 = false
  even   : s.isStretched a = false
  noFlag : s.pwr.stretched.testBit a = false

theorem State.issuing_open (h : s.issuing a.val = some r) : s.frozen = false ∧ s.logServed = true := by
  unfold State.issuing at h
  extract_lets x served at h
  split at h
  · cases h
  · next hopen =>
    simp only [Bool.or_eq_true, not_or, Bool.not_eq_true, Bool.not_eq_true'] at hopen
    obtain ⟨⟨⟨hfrozen, -⟩, hserved⟩, -⟩ := hopen
    refine ⟨hfrozen, ?_⟩
    have hserved : served = true := by simpa using hserved
    unfold State.logServed
    revert hserved
    unfold served
    cases s.dev.st <;> simp

theorem State.marked_placed (hr : s.issuing a.val = some r) (h : s.TakesMark a.val) (kind id : Nat) : ∃ n,
    Placed (recBytes (s.at t).now (s.get 0x880B 0) kind 1 a.val (markBody id a.val 0 r.pos.seq r.acc []))
      { s.issued t a.val r with pwr := { s.pwr with stretched := n } } (s.marked t a.val r kind id) := by
  obtain ⟨hform, hlost, hroom, heven, hflag⟩ := h
  obtain ⟨hfrozen, hserved⟩ := State.issuing_open hr
  have hiform : (s.issued t a.val r).canonical = true := State.issued_form hform
  have hnow := s.issued_now t a.val r
  rw [State.marked, State.logRecord, hnow]
  clear hnow
  revert hiform
  obtain ⟨k, m, y, hv⟩ := s.issued_eq t a.val r
  rw [hv]
  intro hiform
  exact State.logRecordAt_unstretched hiform hserved hfrozen hlost hroom rfl heven hflag (Nat.le_of_eq (markBody_length ..)) (by decide)

theorem State.issued_byteAt (s : State) (t b : Nat) (r : Run) (x : Nat) : (s.issued t b r).byteAt x = s.byteAt x := by
  obtain ⟨k, m, y, h⟩ := s.issued_eq t b r
  rw [h]
  rfl

/-- What the marker's record leaves, once its list shows its next cue. -/
theorem State.Marks.of_shown (hr : s.issuing a.val = some r) (h : s.TakesMark a.val) {kind id : Nat} {ps : List Part}
    (hlater : Within ps (s.marked t a.val r kind id) v) (hps : ps ⊆ [.pwr, .out]) :
    s.Marks a.val r kind id ((v.showRun a.val).showRun a.val) := by
  obtain ⟨n, hplaced⟩ := State.marked_placed (t := t) hr h kind id
  obtain ⟨hline, hnumber, hbytes, hframe, hobjs, -⟩ := hplaced
  have hdict : (s.issued t a.val r).dict = s.dict := s.issued_within t a.val r .dict (by decide)
  have hobj (i j : Nat) : (s.issued t a.val r).obj i j = s.obj i j := by rw [State.obj, State.obj, hdict]
  have hat : (s.issued t a.val r).logAt = s.logAt := State.logAt_of_dict hdict
  have hlater : Within [.pwr, .out] (s.marked t a.val r kind id) v := hlater.mono hps
  have hshown : Within [.dict] v ((v.showRun a.val).showRun a.val) := (v.showRun_within _).trans (State.showRun_within _ _)
  have hshowObjs : ObjsBut (fun i j => i == 0x5040 + a.val && (j == 1 || j == 2)) v ((v.showRun a.val).showRun a.val) :=
    (v.showRun_objsBut a.val).trans (State.showRun_objsBut _ _)
  have hmem : ((v.showRun a.val).showRun a.val).mem = (s.marked t a.val r kind id).mem :=
    Eq.trans (hshown .mem (by decide)) (hlater .mem (by decide))
  have hmemc : ((v.showRun a.val).showRun a.val).memc = (s.marked t a.val r kind id).memc :=
    Eq.trans (hshown .memc (by decide)) (hlater .memc (by decide))
  have hnow : ((v.showRun a.val).showRun a.val).now = (s.at t).now := by
    rw [State.showRun_now, State.showRun_now, ← s.issued_now t a.val r]
    exact congrArg Clock.house (Eq.trans (hlater .clock (by decide)) (hframe .clock (by decide)))
  have harr (b : Nat) : ((v.showRun a.val).showRun a.val).arrAt b = (s.issued t a.val r).arrAt b := by
    rw [State.showRun_arrAt, State.showRun_arrAt, State.arrAt, State.arrAt, hlater .arr (by decide), hframe .arr (by decide)]
  have hvobj (i j : Nat) : v.obj i j = (s.marked t a.val r kind id).obj i j := by rw [State.obj, State.obj, hlater .dict (by decide)]
  refine ⟨?_, ?_, fun x hx => ?_, ?_, fun b hb => ?_, fun i j hj hk => ?_⟩
  · rw [hshowObjs _ _ (by decide) (by simp), hvobj, hnumber]
    exact congrArg (fun n => (n + 1) % 2 ^ 32) (hobj _ _)
  · have hread := hline 0 64 (Nat.le_of_eq (by rw [recBytes_length, markBody_length]))
    rw [List.drop_zero, List.take_of_length_le (Nat.le_of_eq (by rw [recBytes_length, markBody_length]))] at hread
    rw [State.memRead_of_eq hmem hmemc, hnow]
    exact (congrArg (fun y => (s.marked t a.val r kind id).memRead y 64) hat.symm).trans hread
  · rw [State.byteAt_of_eq hmem hmemc]
    refine (hbytes x ((?_ : _ = s.inLine x).trans hx)).trans (State.issued_byteAt s t a.val r x)
    exact congrArg (fun y => decide (y ≤ x) && decide (x < y + 64)) hat
  · rw [harr, State.issued_arrAt a.isLt hr, if_pos rfl, hnow]
  · rw [harr, State.issued_arrAt a.isLt hr, if_neg (by simpa using hb)]
  · obtain ⟨hkshow, hknote⟩ := Bool.or_eq_false_iff.1 hk
    rw [hshowObjs i j hj hkshow, hvobj, hobjs i j hj (noteObj_of_logObj hknote)]
    exact hobj i j

theorem State.marked_within (s : State) (t b : Nat) (r : Run) (kind id : Nat) :
    Within [.arr, .dict, .clock, .pwr, .mem, .memc, .obs] s (s.marked t b r kind id) :=
  ((s.issued_within t b r).mono (by decide)).step (State.logRecord_within _ _ _ _ _ _) (by decide)

theorem State.marked_objs (s : State) (t b : Nat) (r : Run) (kind id : Nat) : LogOnly s (s.marked t b r kind id) :=
  (.of_dict (s.issued_within t b r .dict (by decide)) : LogOnly s (s.issued t b r)).trans (State.logRecord_only _ kind 1 b _)

theorem State.marked_evtOut (hr : s.issuing a.val = some r) (h : s.TakesMark a.val) (kind id : Nat) :
    (s.marked t a.val r kind id).pwr.evtOut = s.pwr.evtOut := by
  obtain ⟨n, hplaced⟩ := State.marked_placed (t := t) hr h kind id
  have hpwr : (s.marked t a.val r kind id).pwr = { s.pwr with stretched := n } := hplaced.frame .pwr (by decide)
  rw [hpwr]

/-- A marker's list shows its next cue. -/
theorem State.progress_marked (hr : s.issuing a.val = some r) (hgoes : bit (w (s.cueWords a.val r) 0) 15 = false) {kind id : Nat} {ps : List Part}
    (hlater : Within ps (s.marked t a.val r kind id) v) (hps : ps ⊆ [.pwr, .out]) : v.progress a.val = v.showRun a.val := by
  obtain ⟨hblock, hending, hrewind⟩ := State.stepped_free hr hgoes (s.at t).now
  refine State.progress_of_running ?_ hblock hending hrewind
  have hlater : Within [.pwr, .out] (s.marked t a.val r kind id) v := hlater.mono hps
  have hrecord := (s.issued t a.val r).logRecord_within 4 kind 1 a.val (markBody id a.val 0 r.pos.seq r.acc [])
  have harr : v.arr = (s.issued t a.val r).arr := Eq.trans (hlater .arr (by decide)) (hrecord .arr (by decide))
  rw [State.arrAt, harr, ← State.arrAt, State.issued_arrAt a.isLt hr, if_pos rfl]

theorem State.tracePulse_evtOut (s : State) : s.tracePulse.pwr.evtOut = (s.pwr.evtOut || s.flag 0x8810 2) := by
  unfold State.tracePulse
  split
  · next h => rw [h, Bool.or_true]
  · next h => rw [Bool.eq_false_iff.2 h, Bool.or_false]

theorem mark_records (hr : s.issuing a.val = some r) (hm : s.mayIssue a.val opMark c r = true) (h : s.TakesMark a.val)
    (hgoes : bit (w (s.cueWords a.val r) 0) 15 = false) : ∃ u, Sys2Proof.Machine.exec (.mark a c t) s = .next u ∧
      s.Marks a.val r 0x10 (fld (w (s.cueWords a.val r) 1) 15 0) u ∧
      u.pwr.evtOut = (s.pwr.evtOut || decide (fld (w (s.cueWords a.val r) 1) 15 0 = s.get 0x8810 3) && s.flag 0x8810 2) ∧
      Within [.arr, .dict, .clock, .pwr, .mem, .memc, .obs, .out] s u := by
  generalize hid : fld (w (s.cueWords a.val r) 1) 15 0 = id
  obtain ⟨v, hv⟩ : ∃ v, v = s.marked t a.val r 0x10 id := ⟨_, rfl⟩
  obtain ⟨x, hx⟩ : ∃ x, x = if id = v.get 0x8810 3 then v.tracePulse else v := ⟨_, rfl⟩
  have hvx : Within [.pwr, .out] v x := by
    rw [hx]
    split
    · exact v.tracePulse_within.mono (by decide)
    · exact .refl _ _
  have hprogress := State.progress_marked hr hgoes (hv ▸ hvx) (List.Subset.refl _)
  have hvobjs : LogOnly s v := hv ▸ s.marked_objs t a.val r 0x10 id
  have hthree : v.get 0x8810 3 = s.get 0x8810 3 := hvobjs.get_eq (by decide) (by decide) (by decide)
  have hflag : v.flag 0x8810 2 = s.flag 0x8810 2 :=
    congrArg (fun n => decide (n ≠ 0)) (hvobjs.get_eq (i := 0x8810) (j := 2) (by decide) (by decide) (by decide))
  have hvevt : v.pwr.evtOut = s.pwr.evtOut := hv ▸ State.marked_evtOut hr h 0x10 id
  refine ⟨(x.showRun a.val).showRun a.val, congrArg Host.Outcome.next (State.issue_ok hr hm ?_), ?_, ?_, ?_⟩
  · dsimp only
    rw [hid, ← hprogress, hx, hv]
    rfl
  · exact .of_shown hr h (hv ▸ hvx) (List.Subset.refl _)
  · have hpwr : ((x.showRun a.val).showRun a.val).pwr = x.pwr := Eq.trans (State.showRun_within _ _ .pwr (by decide)) (State.showRun_within _ _ .pwr (by decide))
    rw [hpwr, hx, hthree]
    by_cases hsame : id = s.get 0x8810 3
    · rw [if_pos hsame, State.tracePulse_evtOut, hvevt, hflag, decide_eq_true hsame, Bool.true_and]
    · rw [if_neg hsame, hvevt, decide_eq_false hsame, Bool.false_and, Bool.or_false]
  · exact (((hv ▸ (s.marked_within t a.val r 0x10 id).mono (by decide) : Within _ s v).step hvx (by decide)).step (State.showRun_within _ _) (by decide)).step
      (State.showRun_within _ _) (by decide)

theorem unmark_records (hr : s.issuing a.val = some r) (hm : s.mayIssue a.val opUnmark c r = true) (h : s.TakesMark a.val)
    (hgoes : bit (w (s.cueWords a.val r) 0) 15 = false) : ∃ u, Sys2Proof.Machine.exec (.unmark a c t) s = .next u ∧
      s.Marks a.val r 0x11 (fld (w (s.cueWords a.val r) 1) 15 0) u ∧ Within [.arr, .dict, .clock, .pwr, .mem, .memc, .obs] s u := by
  generalize hid : fld (w (s.cueWords a.val r) 1) 15 0 = id
  have hprogress := State.progress_marked (ps := []) (kind := 0x11) (id := id) (t := t) hr hgoes (.refl _ _) (List.nil_subset _)
  refine ⟨_, congrArg Host.Outcome.next (State.issue_ok hr hm ?_), .of_shown (ps := []) hr h (.refl _ _) (List.nil_subset _),
    ((s.marked_within t a.val r 0x11 id).step (State.showRun_within _ _) (by decide)).step (State.showRun_within _ _) (by decide)⟩
  rw [hid, ← hprogress]
  rfl

end

/-- Settles O39: each branch cue through the issue rule of its effect, the illegal ones through the one rule of a list that tries again,
the markers through the record they place. -/
theorem branchCues : Obligations.BranchCues := by
  unfold Obligations.BranchCues
  refine ⟨?_, ?_, ?_, ?_, ?_, ?_, ?_, ?_, ?_, ?_, ?_, ?_, ?_, ?_, ?_, ?_, ?_, ?_, ?_, ?_⟩
  · intro s a c t r hr hm hgoes hdepth hcount
    obtain ⟨u, hu, hmoved⟩ := loop_enters hr hm hgoes hdepth hcount
    exact ⟨u, hu, hmoved.all⟩
  · intro s a c t r hr hm hgoes hcount p e hend he
    subst he
    obtain ⟨u, hu, hmoved⟩ := loop_passes hr hm hgoes hcount hend
    exact ⟨u, hu, hmoved.all⟩
  · intro s a c t r hr hm hfly hform hcount hdepth hretries
    obtain ⟨u, hu, hagain⟩ := loop_illegal hr hm hfly hform hcount hdepth hretries
    exact ⟨u, hu, hagain.all⟩
  · intro s a c t r hr hm hgoes p n i x y z l hstack
    obtain ⟨u, hu, hmoved⟩ := endloop_goes hr hm hgoes hstack
    exact ⟨u, hu, hmoved.all⟩
  · intro s a c t r hr hm hfly hform hstack hretries
    obtain ⟨u, hu, hagain⟩ := endloop_illegal hr hm hfly hform hstack hretries
    exact ⟨u, hu, hagain.all⟩
  · intro s a c t r hr hm hgoes hdepth hok hlaunch
    obtain ⟨u, hu, hmoved⟩ := call_enters hr hm hgoes hdepth hok hlaunch
    exact ⟨u, hu, hmoved.all⟩
  · intro s a c t r hr hm hfly hform hbad hretries
    obtain ⟨u, hu, hagain⟩ := call_illegal hr hm hfly hform hbad hretries
    exact ⟨u, hu, hagain.all⟩
  · intro s a c t r hr hm hgoes p l hstack
    obtain ⟨u, hu, hmoved⟩ := ret_goesBack hr hm hgoes hstack
    exact ⟨u, hu, hmoved.all⟩
  · intro s a c t r hr hm hstack hlaunched hfly hform hring hskip hdead
    obtain ⟨u, hu, hgone, hpassed, hcount, -, hrest, hparts, hobjs⟩ := ret_ends hr hm hstack hlaunched hfly hform hring hskip hdead
    refine ⟨u, hu, hgone, hcount, hpassed, hrest, hparts, hobjs.mono fun i j hk => ?_⟩
    simp only [listObj, Bool.or_eq_false_iff, Bool.and_eq_false_iff] at hk ⊢
    exact ⟨⟨hk.1.1.imp id fun h => ⟨h.1.1, h.2⟩, hk.1.2⟩, hk.2⟩
  · intro s a c t r hr hm hfly hform hstack hretries
    obtain ⟨u, hu, hagain⟩ := ret_illegal hr hm hfly hform hstack hretries
    exact ⟨u, hu, hagain.all⟩
  · intro s a c t r hr hm hgoes
    obtain ⟨u, hu, hmoved⟩ := restart_sets hr hm hgoes
    exact ⟨u, hu, hmoved.all⟩
  · intro s a c t r hr hm hlost hroom hform heven hflag hgoes
    obtain ⟨u, hu, hmarks, hevt, hparts⟩ := mark_records hr hm ⟨hform, hlost, hroom, heven, hflag⟩ hgoes
    exact ⟨u, hu, hmarks.number, hmarks.line, hmarks.bytes, hevt, hmarks.arr, hmarks.rest, hparts, hmarks.objs⟩
  · intro s a c t r hr hm hlost hroom hform heven hflag hgoes
    obtain ⟨u, hu, hmarks, hparts⟩ := unmark_records hr hm ⟨hform, hlost, hroom, heven, hflag⟩ hgoes
    exact ⟨u, hu, hmarks.number, hmarks.line, hmarks.bytes, hmarks.arr, hmarks.rest, hparts, hmarks.objs⟩
  all_goals exact fun s a c t h => ⟨_, congrArg Host.Outcome.next (State.issue_other h), s.at_within t⟩

end Sys2Proof.Machine

/-! O35: NOP, SHELVE, STAGE and SWAP (R220, R226, R249). -/

namespace Sys2Proof.Machine

set_option Elab.async false

open Sys2Proof.Bits

section
variable {s u v : State} {a : Fin 16} {t : Nat} {r q : Run} {c : CueCheck}

/-! ## One change of an array and of its pair -/

theorem State.twins_nodup (s : State) (b : Nat) : (s.twins b).Nodup := by
  unfold State.twins
  split <;> simp

theorem State.self_mem_twins (s : State) (b : Nat) : b ∈ s.twins b := by
  unfold State.twins
  split
  · have : b = b / 2 * 2 ∨ b = b / 2 * 2 + 1 := by omega
    simpa using this
  · simp

theorem State.foldl_modArr_arrAt {f : Arr → Arr} (l : List Nat) (hl : ∀ i ∈ l, i < 16) (hnodup : l.Nodup) (s : State) (b : Nat) :
    (l.foldl (fun s i => s.modArr i f) s).arrAt b = if b ∈ l then f (s.arrAt b) else s.arrAt b := by
  induction l generalizing s with
  | nil => rfl
  | cons i l ih =>
    obtain ⟨hi, hnodup⟩ := List.nodup_cons.1 hnodup
    rw [List.foldl_cons, ih (fun j hj => hl j (List.mem_cons_of_mem _ hj)) hnodup, State.arrAt_modArr (hl i (by simp))]
    by_cases hb : b = i
    · subst hb
      simp [hi]
    · simp [hb]

theorem State.foldl_modArr_within (f : Arr → Arr) (l : List Nat) (s : State) : Within [.arr] s (l.foldl (fun s i => s.modArr i f) s) :=
  Within.foldl (fun s i => s.modArr_within i f) l s

/-- The change `f` of an array and of its pair. -/
def State.pairModArr (s : State) (b : Nat) (f : Arr → Arr) : State := (s.twins b).foldl (fun s i => s.modArr i f) s

theorem State.pairModArr_within (s : State) (b : Nat) (f : Arr → Arr) : Within [.arr] s (s.pairModArr b f) := State.foldl_modArr_within f _ s

theorem State.pairModArr_arrAt {b : Nat} (hb : b < 16) (s : State) (f : Arr → Arr) (d : Nat) :
    (s.pairModArr b f).arrAt d = if d ∈ s.twins b then f (s.arrAt d) else s.arrAt d :=
  State.foldl_modArr_arrAt _ (s.twins_lt hb) (s.twins_nodup b) s d

theorem State.pairModArr_twins (s : State) (b : Nat) (f : Arr → Arr) : (s.pairModArr b f).twins b = s.twins b := by
  have hw := s.pairModArr_within b f
  have hget := State.get_of_objects (hw .dict (by decide)) (hw .intake (by decide))
  unfold State.twins State.flag
  rw [hget]

/-! ## Plain lines of the wings -/

/-- The tags of `n` lines from `line` on, all 0. -/
def Arr.plainTags (x : Arr) (line n : Nat) : Sparse Nat := Sparse.writeList x.tagDef x.tags line (List.replicate n 0)

/-- The array with bytes written to its wings from a line on, and the row tags of the lines at 0. -/
def Arr.plain (x : Arr) (line : Nat) (bs : Bytes) : Arr :=
  { x with wings := Sparse.writeList x.wingDef x.wings (line * 64) bs, tags := x.plainTags line (linesOf bs.length) }

theorem Sparse.writeList_append {α : Type} [DecidableEq α] (d : Nat → α) (m : Sparse α) (x : Nat) (l k : List α) :
    Sparse.writeList d m x (l ++ k) = Sparse.writeList d (Sparse.writeList d m x l) (x + l.length) k := by
  induction l generalizing m x with
  | nil => rfl
  | cons v l ih =>
    have hx : x + 1 + l.length = x + (v :: l).length := by rw [List.length_cons]; omega
    rw [List.cons_append, Sparse.writeList, ih, hx]
    rfl

theorem Arr.plainTags_succ (x : Arr) (line n : Nat) : Sparse.write x.tagDef (x.plainTags line n) (line + n) 0 = x.plainTags line (n + 1) := by
  unfold Arr.plainTags
  rw [List.replicate_succ', Sparse.writeList_append, List.length_replicate]
  rfl

theorem State.wingsPlain_arrAt {b : Nat} (hb : b < 16) (s : State) (line : Nat) (bs : Bytes) (d : Nat) :
    (s.wingsPlain b line bs).arrAt d = if d ∈ s.twins b then (s.arrAt d).plain line bs else s.arrAt d := by
  have hput (v : State) (m : Nat) : v.tagPut b m 0 = v.pairModArr b fun x => { x with tags := Sparse.write x.tagDef x.tags m 0 } := rfl
  obtain ⟨v, hv⟩ : ∃ v, v = s.pairModArr b fun x => { x with wings := Sparse.writeList x.wingDef x.wings (line * 64) bs } := ⟨_, rfl⟩
  have hvtwins : v.twins b = s.twins b := hv ▸ s.pairModArr_twins b _
  have hfold (n : Nat) : ((List.range n).foldl (fun s i => s.tagPut b (line + i) 0) v).twins b = s.twins b ∧
      ((List.range n).foldl (fun s i => s.tagPut b (line + i) 0) v).arrAt d =
        if d ∈ s.twins b then { v.arrAt d with tags := (v.arrAt d).plainTags line n } else v.arrAt d := by
    induction n with
    | zero =>
      refine ⟨hvtwins, ?_⟩
      split
      · rfl
      · rfl
    | succ n ih =>
      obtain ⟨htwins, harr⟩ := ih
      rw [List.range_succ, List.foldl_append, List.foldl_cons, List.foldl_nil, hput]
      refine ⟨(State.pairModArr_twins _ _ _).trans htwins, ?_⟩
      rw [State.pairModArr_arrAt hb, htwins, harr]
      split
      · rw [← Arr.plainTags_succ]
        rfl
      · rfl
  have hplain : s.wingsPlain b line bs = (List.range (linesOf bs.length)).foldl (fun s i => s.tagPut b (line + i) 0) v := by rw [hv]; rfl
  rw [hplain, (hfold _).2, hv, State.pairModArr_arrAt hb]
  split
  · rfl
  · rfl

/-! ## A cue in flight -/

/-- What a cue's effect `v` leaves once the cue is in flight and its list shows the next one. -/
structure State.Flies (v : State) (a : Nat) (q : Run) (x : Fly) (u : State) : Prop where
  arr   : u.arrAt a = { v.arrAt a with run := some { q with fly := q.fly ++ [x] } }
  rest  : ∀ b, b ≠ a → u.arrAt b = v.arrAt b
  parts : Within [.arr, .dict] v u
  objs  : ObjsBut (fun i j => i == 0x5040 + a && (j == 1 || j == 2)) v u

theorem State.fly_flies {b : Nat} (hb : b < 16) (hrun : (v.arrAt b).run = some q) (x : Fly) (external : Bool) :
    v.Flies b q { x with implied := if external then some (v.pointHere b q) else none } ((v.fly b x external).showRun b) := by
  have hfly : v.fly b x external = v.modRun b fun r' => { r' with
      fly := r'.fly ++ [{ x with implied := if external then some (v.pointHere b q) else none }] } := by
    unfold State.fly
    rw [hrun]
  refine ⟨?_, fun d hd => ?_, ((v.fly_within b x external).mono (by decide)).step (State.showRun_within _ _) (by decide), fun i j hj hk => ?_⟩
  · rw [State.showRun_arrAt, hfly, State.modRun, State.arrAt_modArr hb, if_pos rfl, hrun]
    rfl
  · rw [State.showRun_arrAt, hfly, State.modRun, State.arrAt_modArr hb, if_neg hd]
  · rw [State.showRun_objsBut _ _ _ _ hj hk, State.obj, State.fly_within v b x external .dict (by decide)]
    rfl

/-- What a cue leaves that changes its array and the pair's other one by `f` and is in flight as `x`. -/
structure State.PairCue (s : State) (a : Nat) (r : Run) (x : Fly) (f : Arr → Arr) (u : State) : Prop where
  arr   : ∀ b, u.arrAt b = { (if b ∈ s.twins a then f (s.arrAt b) else s.arrAt b) with run := (u.arrAt b).run }
  run   : (u.arrAt a).run = some { r.stepped (s.cueWords a r) u.now with fly := r.fly ++ [x] }
  rest  : ArraysBut (fun b => (s.twins a).contains b) s u
  parts : Within [.arr, .dict, .memc, .clock] s u
  objs  : ObjsBut (fun i j => i == 0x5040 + a && (j == 1 || j == 2)) s u

theorem State.issue_pair {op : Nat} {body : State → Run → List Nat → Adds → Except CueErr State} (hr : s.issuing a.val = some r)
    (hm : s.mayIssue a.val op c r = true) {f : Arr → Arr} (hf : ∀ x y, f { x with run := y } = { f x with run := y })
    (hv : ∀ d, v.arrAt d = if d ∈ s.twins a.val then f ((s.issued t a.val r).arrAt d) else (s.issued t a.val r).arrAt d)
    (hparts : Within [.arr, .memc] (s.issued t a.val r) v) {x : Fly} (hx : x.implied = none)
    (hbody : body (s.issued t a.val r) r (s.cueWords a.val r) ((s.adds a.val r (s.cueWords a.val r)).getD {}) = .ok (v.fly a.val x false)) :
    s.PairCue a.val r x f ((s.at t).issue a.val op c body) := by
  rw [State.issue_ok hr hm hbody]
  have hsame : { x with implied := if false = true then some (v.pointHere a.val (r.stepped (s.cueWords a.val r) (s.at t).now)) else none } = x := by
    rw [if_neg (by decide), ← hx]
  have hva : v.arrAt a.val = { f (s.arrAt a.val) with run := some (r.stepped (s.cueWords a.val r) (s.at t).now) } := by
    rw [hv, if_pos (s.self_mem_twins _), State.issued_arrAt a.isLt hr, if_pos rfl, hf]
  obtain ⟨harr, hrest, hflown, hobjs⟩ := State.fly_flies a.isLt (congrArg Arr.run hva) x false
  rw [hsame] at harr
  have hnow : ((v.fly a.val x false).showRun a.val).now = (s.at t).now := by
    rw [← s.issued_now t a.val r]
    exact congrArg Clock.house (Eq.trans (hflown .clock (by decide)) (hparts .clock (by decide)))
  generalize (v.fly a.val x false).showRun a.val = u at harr hrest hflown hobjs hnow
  have hother (b : Nat) (hb : b ≠ a.val) : u.arrAt b = if b ∈ s.twins a.val then f (s.arrAt b) else s.arrAt b := by
    rw [hrest b hb, hv, State.issued_arrAt a.isLt hr, if_neg hb]
  refine ⟨fun b => ?_, ?_, fun b hb => ?_, ?_, fun i j hj hk => ?_⟩
  · by_cases hb : b = a.val
    · rw [hb, harr, hva, if_pos (s.self_mem_twins _)]
    · rw [hother b hb]
  · rw [harr, hnow]
    rfl
  · have hmem : b.val ∉ s.twins a.val := by simpa using hb
    have hne : b.val ≠ a.val := fun h => hmem (h ▸ s.self_mem_twins _)
    rw [hother _ hne, if_neg hmem]
  · exact (((s.issued_within t a.val r).trans (hparts.mono (by decide))).mono (by decide)).trans (hflown.mono (by decide))
  · rw [hobjs i j hj hk, State.obj, State.obj, hparts .dict (by decide), s.issued_within t a.val r .dict (by decide)]

/-- A cue in flight is one more of its class. -/
theorem State.inFlight_of_flown {q' : Run} {x : Fly} (hrun : (s.arrAt a.val).run = some q) (hfly : q'.fly = q.fly ++ [x])
    (hu : (u.arrAt a.val).run = some q') (hsusp : (u.arrAt a.val).susp = (s.arrAt a.val).susp) : u.inFlight a.val x.cls = s.inFlight a.val x.cls + 1 := by
  simp [State.inFlight, State.listsOf, hrun, hu, hsusp, hfly, List.filter_append]
  omega

/-! ## SHELVE -/

theorem State.issued_twins (s : State) (t b : Nat) (r : Run) : (s.issued t b r).twins b = s.twins b := by
  obtain ⟨k, m, y, h⟩ := s.issued_eq t b r
  rw [h]
  rfl

theorem State.issued_cueMayRead (s : State) (t b : Nat) (r : Run) (x n : Nat) : (s.issued t b r).cueMayRead x n = s.cueMayRead x n := by
  obtain ⟨k, m, y, h⟩ := s.issued_eq t b r
  rw [h]
  rfl

theorem State.issued_posAddr (s : State) (t b : Nat) (r q : Run) (p : Pos) : (s.issued t b r).posAddr b q p = s.posAddr b q p := by
  obtain ⟨k, m, y, h⟩ := s.issued_eq t b r
  rw [h]
  rfl

theorem State.posAddr_of_objects (hdict : u.dict = s.dict) (hintake : u.intake = s.intake) (b : Nat) (q : Run) (p : Pos) :
    u.posAddr b q p = s.posAddr b q p := by
  have hget := State.get_of_objects hdict hintake
  unfold State.posAddr State.ringHome State.slotAddr State.flag
  rw [hget]

/-- Only an install cue's source is shifted. -/
theorem State.installShift_ring (hring : r.ring < 16) (s : State) (b : Nat) : s.installShift b r = 0 := by
  unfold State.installShift
  split
  · exact if_pos hring
  · rfl

/-- The shelf of an array with rows written. -/
def Arr.shelved (x : Arr) (base : Nat) (bs : Bytes) : Arr := { x with shelf := Sparse.writeList memDefault x.shelf base bs }

/-- The TG8 table of an array, written. -/
def Arr.tabled (x : Arr) (table : Nat) (l : List Nat) : Arr := { x with tg8 := Sparse.writeList (fun _ => 0) x.tg8 (table * 256) l }

theorem Arr.tabled_run (x : Arr) (y : Option Run) (table : Nat) (l : List Nat) :
    ({ x with run := y } : Arr).tabled table l = { x.tabled table l with run := y } := rfl

/-- What a cue moves from the stacks into its pair of arrays. -/
def State.moved (s : State) (t a : Nat) (r : Run) (src n : Nat) (f : Bytes → Arr → Arr) : State :=
  ((s.issued t a r).countRead src n).pairModArr a (f (s.memRead src n))

theorem State.moved_within (s : State) (t b : Nat) (r : Run) (src n : Nat) (f : Bytes → Arr → Arr) :
    Within [.arr, .memc] (s.issued t b r) (s.moved t b r src n f) :=
  ((State.countRead_within _ src n).mono (by decide)).step (State.pairModArr_within _ b _) (by decide)

theorem State.moved_arrAt (s : State) (t : Nat) (r : Run) (src n : Nat) (f : Bytes → Arr → Arr) (d : Nat) : (s.moved t a.val r src n f).arrAt d =
    if d ∈ s.twins a.val then f (s.memRead src n) ((s.issued t a.val r).arrAt d) else (s.issued t a.val r).arrAt d := by
  have htwins : ((s.issued t a.val r).countRead src n).twins a.val = s.twins a.val := s.issued_twins t a.val r
  rw [State.moved, State.pairModArr_arrAt a.isLt, htwins]
  rfl

variable {x : Adds} {src : Nat}

theorem State.shelveData_rows (hkind : fld (w (s.cueWords a.val r) 2) 31 30 = 0) (hring : r.ring < 16)
    (hsrc : shelveSource (s.cueWords a.val r) x = some src) (hread : s.cueMayRead src (fld (w (s.cueWords a.val r) 3) 11 0 * 256) = true)
    {y : Nat × Nat} (hy : x.shelfAddr (fld (w (s.cueWords a.val r) 2) 14 0) (fld (w (s.cueWords a.val r) 3) 11 0 * 256) = some y) :
    (s.issued t a.val r).shelveData a.val r (s.cueWords a.val r) x = .ok (s.moved t a.val r src (fld (w (s.cueWords a.val r) 3) 11 0 * 256)
      fun bs z => z.shelved (y.1 * 786432 + y.2 * 256) bs) := by
  unfold State.shelveData
  rw [hsrc]
  dsimp only
  rw [State.installShift_ring hring, Nat.add_zero, State.issued_cueMayRead, hread, if_neg (by decide), hkind, if_neg (by decide), hy, s.issued_memRead]
  rfl

theorem State.shelveData_table (hkind : fld (w (s.cueWords a.val r) 2) 31 30 = 1) (hring : r.ring < 16)
    (hsrc : shelveSource (s.cueWords a.val r) x = some src) (hread : s.cueMayRead src (fld (w (s.cueWords a.val r) 3) 11 0 * 256) = true) :
    (s.issued t a.val r).shelveData a.val r (s.cueWords a.val r) x = .ok (s.moved t a.val r src (fld (w (s.cueWords a.val r) 3) 11 0 * 256)
      fun bs z => z.tabled (fld (w (s.cueWords a.val r) 2) 29 28) (wordsOf bs 256)) := by
  unfold State.shelveData
  rw [hsrc]
  dsimp only
  rw [State.installShift_ring hring, Nat.add_zero, State.issued_cueMayRead, hread, if_neg (by decide), hkind, if_pos rfl, s.issued_memRead]
  rfl

/-- The record of a cue in flight of a class. -/
def State.flown (s : State) (a : Nat) (r : Run) (k : CueClass) : Fly := { cls := k, addr := s.posAddr a r r.pos, seq := r.pos.seq }

theorem State.moved_flown (s : State) (t : Nat) (r : Run) (src n : Nat) (f : Bytes → Arr → Arr) (k : CueClass) :
    (s.moved t a.val r src n f).flown a.val r k = s.flown a.val r k := by
  have hmoved := s.moved_within t a.val r src n f
  have hissued := s.issued_within t a.val r
  unfold State.flown
  rw [State.posAddr_of_objects (Eq.trans (hmoved .dict (by decide)) (hissued .dict (by decide)))
    (Eq.trans (hmoved .intake (by decide)) (hissued .intake (by decide)))]

theorem shelve_rows (hr : s.issuing a.val = some r) (hm : s.mayIssue a.val opShelve c r = true)
    (hkind : fld (w (s.cueWords a.val r) 2) 31 30 = 0) (hring : r.ring < 16) (hx : s.adds a.val r (s.cueWords a.val r) = some x)
    (hsrc : shelveSource (s.cueWords a.val r) x = some src) (hread : s.cueMayRead src (fld (w (s.cueWords a.val r) 3) 11 0 * 256) = true)
    {y : Nat × Nat} (hy : x.shelfAddr (fld (w (s.cueWords a.val r) 2) 14 0) (fld (w (s.cueWords a.val r) 3) 11 0 * 256) = some y) :
    ∃ u, Sys2Proof.Machine.exec (.shelve a c t) s = .next u ∧ s.PairCue a.val r (s.flown a.val r .shelve)
      (fun z => z.shelved (y.1 * 786432 + y.2 * 256) (s.memRead src (fld (w (s.cueWords a.val r) 3) 11 0 * 256))) u := by
  refine ⟨_, rfl, State.issue_pair hr hm (f := fun z => z.shelved (y.1 * 786432 + y.2 * 256) (s.memRead src (fld (w (s.cueWords a.val r) 3) 11 0 * 256)))
    (fun _ _ => rfl) (s.moved_arrAt t r src _ fun bs z => z.shelved (y.1 * 786432 + y.2 * 256) bs) (State.moved_within s t a.val r src _ _) rfl ?_⟩
  rw [hx, Option.getD_some, State.shelveData_rows hkind hring hsrc hread hy, ← s.moved_flown t r src _ _ .shelve]
  rfl

theorem shelve_table (hr : s.issuing a.val = some r) (hm : s.mayIssue a.val opShelve c r = true)
    (hkind : fld (w (s.cueWords a.val r) 2) 31 30 = 1) (hring : r.ring < 16) (hx : s.adds a.val r (s.cueWords a.val r) = some x)
    (hsrc : shelveSource (s.cueWords a.val r) x = some src) (hread : s.cueMayRead src (fld (w (s.cueWords a.val r) 3) 11 0 * 256) = true) :
    ∃ u, Sys2Proof.Machine.exec (.shelve a c t) s = .next u ∧ s.PairCue a.val r (s.flown a.val r .shelve)
      (fun z => z.tabled (fld (w (s.cueWords a.val r) 2) 29 28) (wordsOf (s.memRead src (fld (w (s.cueWords a.val r) 3) 11 0 * 256)) 256)) u := by
  refine ⟨_, rfl, State.issue_pair hr hm (f := fun z => z.tabled (fld (w (s.cueWords a.val r) 2) 29 28) (wordsOf (s.memRead src (fld (w (s.cueWords a.val r) 3) 11 0 * 256)) 256))
    (fun x y => x.tabled_run y _ _) (s.moved_arrAt t r src _ fun bs z => z.tabled (fld (w (s.cueWords a.val r) 2) 29 28) (wordsOf bs 256))
    (State.moved_within s t a.val r src _ _) rfl ?_⟩
  rw [hx, Option.getD_some, State.shelveData_table hkind hring hsrc hread, ← s.moved_flown t r src _ _ .shelve]
  rfl

/-! ## STAGE -/

theorem Arr.plain_run (x : Arr) (y : Option Run) (l : Nat) (bs : Bytes) : ({ x with run := y } : Arr).plain l bs = { x.plain l bs with run := y } := rfl

theorem State.issued_wings (hr : s.issuing a.val = some r) (b y n : Nat) : (s.issued t a.val r).wings b y n = s.wings b y n := by
  rw [State.wings, State.wings, State.issued_arrAt a.isLt hr]
  split
  · next hb =>
    subst hb
    rfl
  · rfl

/-- What a cue moves into lines of the wings, read in the state `v`. -/
theorem State.wingsPlain_of_issued {v : State} (harr : v.arr = (s.issued t a.val r).arr) (hdict : v.dict = (s.issued t a.val r).dict)
    (hintake : v.intake = (s.issued t a.val r).intake) (l : Nat) (bs : Bytes) (d : Nat) : (v.wingsPlain a.val l bs).arrAt d =
      if d ∈ s.twins a.val then ((s.issued t a.val r).arrAt d).plain l bs else (s.issued t a.val r).arrAt d := by
  have htwins : v.twins a.val = s.twins a.val := by
    rw [← s.issued_twins t a.val r]
    unfold State.twins State.flag
    rw [State.get_of_objects hdict hintake]
  rw [State.wingsPlain_arrAt a.isLt, htwins, State.arrAt, harr, ← State.arrAt]

theorem State.flown_of_within {ps : List Part} (h : Within ps (s.issued t a.val r) v) (k : CueClass) (hd : .dict ∉ ps := by decide)
    (hi : .intake ∉ ps := by decide) : v.flown a.val r k = s.flown a.val r k := by
  have hissued := s.issued_within t a.val r
  unfold State.flown
  rw [State.posAddr_of_objects (Eq.trans (h .dict hd) (hissued .dict (by decide))) (Eq.trans (h .intake hi) (hissued .intake (by decide)))]

variable {l d n : Nat}

theorem stage_toWings (hr : s.issuing a.val = some r) (hm : s.mayIssue a.val opStage c r = true)
    (hdir : fld (w (s.cueWords a.val r) 2) 31 30 = 0) (hx : s.adds a.val r (s.cueWords a.val r) = some x)
    (hl : x.line (fld (w (s.cueWords a.val r) 2) 14 0) (w (s.cueWords a.val r) 3) = some l)
    (hn : x.unit (fld (w (s.cueWords a.val r) 1) 28 0) = some n) (hread : s.cueMayRead (n * 64) (w (s.cueWords a.val r) 3 * 64) = true) :
    ∃ u, Sys2Proof.Machine.exec (.stage a c t) s = .next u ∧ s.PairCue a.val r (s.flown a.val r .stage)
      (fun z => z.plain l (s.memRead (n * 64) (w (s.cueWords a.val r) 3 * 64))) u := by
  obtain ⟨v, hv⟩ : ∃ v, v = ((s.issued t a.val r).countRead (n * 64) (w (s.cueWords a.val r) 3 * 64)).wingsPlain a.val l
      (s.memRead (n * 64) (w (s.cueWords a.val r) 3 * 64)) := ⟨_, rfl⟩
  have hparts : Within [.arr, .memc] (s.issued t a.val r) v := by
    rw [hv]
    exact ((State.countRead_within _ _ _).mono (by decide)).step (State.wingsPlain_within _ _ _ _) (by decide)
  refine ⟨_, rfl, State.issue_pair (v := v) hr hm (fun z y => z.plain_run y _ _) (fun d => ?_) hparts rfl ?_⟩
  · rw [hv]
    exact State.wingsPlain_of_issued (v := (s.issued t a.val r).countRead (n * 64) (w (s.cueWords a.val r) 3 * 64)) rfl rfl rfl _ _ d
  · have hdata : (s.issued t a.val r).stageData a.val (s.cueWords a.val r) x = .ok v := by
      unfold State.stageData
      extract_lets k dir
      rw [hl]
      dsimp only
      rw [if_neg (by rw [show dir = 0 from hdir]; decide), hn]
      dsimp only
      rw [if_pos hdir, State.issued_cueMayRead, if_pos hread, s.issued_memRead, hv]
    rw [hx, Option.getD_some, hdata, ← State.flown_of_within hparts, hdir]
    rfl

theorem stage_wingsToWings (hr : s.issuing a.val = some r) (hm : s.mayIssue a.val opStage c r = true)
    (hdir : fld (w (s.cueWords a.val r) 2) 31 30 = 2) (hx : s.adds a.val r (s.cueWords a.val r) = some x)
    (hl : x.line (fld (w (s.cueWords a.val r) 2) 14 0) (w (s.cueWords a.val r) 3) = some l)
    (hd : x.line (fld (w (s.cueWords a.val r) 2) 29 15) (w (s.cueWords a.val r) 3) = some d) :
    ∃ u, Sys2Proof.Machine.exec (.stage a c t) s = .next u ∧ s.PairCue a.val r (s.flown a.val r .stage)
      (fun z => z.plain d (s.wings a.val (l * 64) (w (s.cueWords a.val r) 3 * 64))) u := by
  obtain ⟨v, hv⟩ : ∃ v, v = (s.issued t a.val r).wingsPlain a.val d (s.wings a.val (l * 64) (w (s.cueWords a.val r) 3 * 64)) := ⟨_, rfl⟩
  have hparts : Within [.arr, .memc] (s.issued t a.val r) v := hv ▸ (State.wingsPlain_within _ _ _ _).mono (by decide)
  refine ⟨_, rfl, State.issue_pair (v := v) hr hm (fun z y => z.plain_run y _ _) (fun d => ?_) hparts rfl ?_⟩
  · rw [hv]
    exact State.wingsPlain_of_issued (v := s.issued t a.val r) rfl rfl rfl _ _ d
  · have hdata : (s.issued t a.val r).stageData a.val (s.cueWords a.val r) x = .ok v := by
      unfold State.stageData
      extract_lets k dir
      rw [hl]
      dsimp only
      rw [if_pos hdir, hd, State.issued_wings hr, hv]
    rw [hx, Option.getD_some, hdata, ← State.flown_of_within hparts, hdir]
    rfl

/-- What a STAGE into the stacks leaves. -/
structure State.Stacked (s : State) (a : Nat) (r : Run) (x n : Nat) (bs : Bytes) (u : State) : Prop where
  read   : u.memRead x n = bs
  bytes  : BytesBut (fun y => decide (x ≤ y) && decide (y < x + n)) s u
  arr    : u.arrAt a = { s.arrAt a with run := (u.arrAt a).run }
  rest   : ArraysBut (fun b => b == a) s u
  stand  : u.stand a = some (r.pos.next, r.pos, .none)
  flight : u.inFlight a .stage = s.inFlight a .stage + 1
  parts  : Within [.arr, .dict, .mem, .memc, .clock] s u
  objs   : ObjsBut (fun i j => i == 0x5040 + a && (j == 1 || j == 2)) s u

theorem stage_toStacks (hr : s.issuing a.val = some r) (hm : s.mayIssue a.val opStage c r = true)
    (hdir : fld (w (s.cueWords a.val r) 2) 31 30 = 1) (hx : s.adds a.val r (s.cueWords a.val r) = some x)
    (hl : x.line (fld (w (s.cueWords a.val r) 2) 14 0) (w (s.cueWords a.val r) 3) = some l)
    (hn : x.unit (fld (w (s.cueWords a.val r) 1) 28 0) = some n) (hwrite : s.cueMayWrite (n * 64) (w (s.cueWords a.val r) 3 * 64) = true)
    (hform : s.canonical = true) : ∃ u, Sys2Proof.Machine.exec (.stage a c t) s = .next u ∧ s.Stacked a.val r (n * 64)
      (w (s.cueWords a.val r) 3 * 64) (s.wings a.val (l * 64) (w (s.cueWords a.val r) 3 * 64)) u := by
  obtain ⟨bs, hbs⟩ : ∃ bs, bs = s.wings a.val (l * 64) (w (s.cueWords a.val r) 3 * 64) := ⟨_, rfl⟩
  obtain ⟨v, hv⟩ : ∃ v, v = (s.issued t a.val r).memWrite (n * 64) bs := ⟨_, rfl⟩
  have hlen : bs.length = w (s.cueWords a.val r) 3 * 64 := by rw [hbs, State.wings, Sparse.readList_length]
  have hdata : (s.issued t a.val r).stageData a.val (s.cueWords a.val r) x = .ok v := by
    have hmay : (s.issued t a.val r).cueMayWrite (n * 64) (w (s.cueWords a.val r) 3 * 64) = true := by
      obtain ⟨k, m, y, h⟩ := s.issued_eq t a.val r
      rw [h]
      exact hwrite
    unfold State.stageData
    extract_lets k dir
    rw [hl]
    dsimp only
    rw [if_neg (by rw [show dir = 1 from hdir]; decide), hn]
    dsimp only
    rw [if_neg (by rw [show dir = 1 from hdir]; decide), if_pos hmay, State.issued_wings hr, hv, hbs]
  have hissued := s.issued_within t a.val r
  have hiform : (s.issued t a.val r).canonical = true := State.issued_form hform
  have hvw : Within [.mem, .memc] (s.issued t a.val r) v := hv ▸ State.memWrite_within _ _ _
  have harr (b : Nat) : v.arrAt b = (s.issued t a.val r).arrAt b := by rw [hv]; rfl
  have hrun : (v.arrAt a.val).run = some (r.stepped (s.cueWords a.val r) (s.at t).now) := by
    rw [harr, State.issued_arrAt a.isLt hr, if_pos rfl]
  obtain ⟨hflew, hrest, hparts, hobjs⟩ := State.fly_flies a.isLt hrun (s.flown a.val r .stage) true
  have hexec : Sys2Proof.Machine.exec (.stage a c t) s = .next ((v.fly a.val (s.flown a.val r .stage) true).showRun a.val) := by
    refine congrArg Host.Outcome.next (State.issue_ok hr hm ?_)
    rw [hx, Option.getD_some, hdata, ← State.flown_of_within hvw, hdir]
    rfl
  refine ⟨_, hexec, ?_⟩
  have hvarr : v.arrAt a.val = { s.arrAt a.val with run := some (r.stepped (s.cueWords a.val r) (s.at t).now) } := by
    rw [harr, State.issued_arrAt a.isLt hr, if_pos rfl]
  generalize (v.fly a.val (s.flown a.val r .stage) true).showRun a.val = u at hflew hrest hparts hobjs
  have hmem : u.mem = v.mem := hparts .mem (by decide)
  have hmemc : u.memc = v.memc := hparts .memc (by decide)
  obtain ⟨hblock, -, -⟩ := State.issuing_free hr
  rw [← hbs]
  refine ⟨?_, fun y hy => ?_, ?_, fun b hb => ?_, ?_, ?_, ?_, fun i j hj hk => ?_⟩
  · rw [State.memRead_of_eq hmem hmemc, hv, ← hlen]
    exact State.memRead_memWrite (State.canonical_iff.1 hiform).1
  · rw [State.byteAt_of_eq hmem hmemc, ← s.issued_byteAt t a.val r y, hv]
    rw [← hlen] at hy
    refine Sparse.read_writeList_out ?_
    simp at hy
    omega
  · rw [hflew, hvarr]
  · have hne : b.val ≠ a.val := by simpa using hb
    rw [hrest _ hne, harr, State.issued_arrAt a.isLt hr, if_neg hne]
  · rw [State.stand, hflew]
    exact congrArg (fun k => some (r.pos.next, r.pos, k)) hblock
  · exact State.inFlight_of_flown (x := { s.flown a.val r .stage with implied := _ }) (State.issuing_run hr) rfl (congrArg Arr.run hflew)
      (by rw [hflew, hvarr])
  · exact ((hissued.mono (by decide)).step hvw (by decide)).step hparts (by decide)
  · rw [hobjs i j hj hk, State.obj, State.obj, hvw .dict (by decide), hissued .dict (by decide)]

/-! ## NOP and SWAP -/

theorem nop_goes (hr : s.issuing a.val = some r) (hm : s.mayIssue a.val opNop c r = true) (hgoes : bit (w (s.cueWords a.val r) 0) 15 = false)
    (hform : s.canonical = true) : ∃ u, Sys2Proof.Machine.exec (.nop a c t) s = .next u ∧
      s.Moved a.val (fun now => { s.arrAt a.val with run := some (r.stepped (s.cueWords a.val r) now) }) u ∧
      u.obj (0x5040 + a.val) 2 = s.posAddr a.val r r.pos.next % 2 ^ 32 := by
  have hsame : (s.issued t a.val r).modArr a.val id = s.issued t a.val r := State.modArr_self rfl
  obtain ⟨u, hu, hmoved⟩ := State.issue_branch (t := t) (body := fun s _ _ _ => .ok (s.progress a.val)) hr hm id (by rw [hsame]) (fun _ => rfl)
    (fun _ => rfl) (State.stepped_free hr hgoes)
  exact ⟨u, hu, hmoved, hmoved.shown hform _ rfl⟩

theorem nop_ends (hr : s.issuing a.val = some r) (hm : s.mayIssue a.val opNop c r = true) (hlast : bit (w (s.cueWords a.val r) 0) 15 = true)
    (hfly : r.fly = []) (hring : r.ring < 16) (hskip : r.skip = none) (hdead : (s.arrAt a.val).dead = []) (hform : s.canonical = true) :
    ∃ u, Sys2Proof.Machine.exec (.nop a c t) s = .next u ∧ s.Ended a.val r u := by
  have hsame : (s.issued t a.val r).modArr a.val id = s.issued t a.val r := State.modArr_self rfl
  have hending (now : Nat) : r.stepped (s.cueWords a.val r) now = { r.stepped (s.cueWords a.val r) now with ending := true } := by
    rw [← hlast]
    rfl
  refine ⟨_, rfl, State.issue_ends a.isLt hr hm hform id (by rw [hsame]) ?_ hfly hring hskip hdead⟩
  rw [← hending]
  rfl

theorem swap_exchanges (hr : s.issuing a.val = some r) (hm : s.mayIssue a.val opSwap c r = true) (hgoes : bit (w (s.cueWords a.val r) 0) 15 = false) :
    ∃ u, Sys2Proof.Machine.exec (.swap a c t) s = .next u ∧ s.Moved a.val
      (fun now => { s.arrAt a.val with front := 1 - (s.arrAt a.val).front, run := some (r.stepped (s.cueWords a.val r) now) }) u :=
  State.issue_branch hr hm (fun x => { x with front := 1 - x.front }) rfl (fun _ => rfl) (fun _ => rfl) (State.stepped_free hr hgoes)

/-! ## Completions -/

/-- A cue in flight of a class has completed. -/
structure State.Landed (s : State) (a : Nat) (r : Run) (k : CueClass) (u : State) : Prop where
  arr    : u.arrAt a = { s.arrAt a with run := some (r.land (fun f => decide (f.cls = k)) u.now) }
  flight : u.inFlight a k + 1 = s.inFlight a k
  rest   : ArraysBut (fun b => b == a) s u
  parts  : Within [.arr, .dict, .clock] s u
  objs   : ObjsBut (fun i j => i == 0x5040 + a && (j == 1 || j == 2)) s u

theorem Run.land_free (q : Run) (f : Fly → Bool) (now : Nat) (h : q.block = .none ∧ q.ending = false ∧ q.rewind = false) :
    (q.land f now).block = .none ∧ (q.land f now).ending = false ∧ (q.land f now).rewind = false := by
  unfold Run.land
  split
  · exact h
  · extract_lets q1
    split
    · exact Run.setRestart_free (q := q1) h _
    · exact h

theorem Run.setRestart_fly (q : Run) (p : Restart) : (q.setRestart p).fly = q.fly := by
  unfold Run.setRestart
  split
  · rfl
  · rfl

theorem Run.land_fly {q : Run} {f : Fly → Bool} {x : Fly} (h : q.fly.find? f = some x) (now : Nat) : (q.land f now).fly = q.fly.erase x := by
  unfold Run.land
  rw [h]
  dsimp only
  split
  · exact Run.setRestart_fly _ _
  · rfl

theorem State.land_lands {k : CueClass} (hclear : s.runClear a.val = true) (hflying : 0 < s.inFlight a.val k)
    (hrun : (s.arrAt a.val).run = some r) (hending : r.ending = false) (hsusp : (s.arrAt a.val).susp = []) :
    s.Landed a.val r k ((s.at t).land a.val fun f => decide (f.cls = k)) := by
  obtain ⟨hblock, hrewind⟩ : r.block = .none ∧ r.rewind = false := by
    unfold State.runClear at hclear
    rw [hrun] at hclear
    simpa using hclear
  have hflight : s.inFlight a.val k = r.fly.countP fun f => decide (f.cls = k) := by
    simp [State.inFlight, State.listsOf, hrun, hsusp, List.countP_eq_length_filter]
  rw [hflight] at hflying
  obtain ⟨x, hx⟩ : ∃ x, r.fly.find? (fun f => decide (f.cls = k)) = some x := by
    obtain ⟨x, hx, hcls⟩ := List.countP_pos_iff.1 hflying
    exact Option.isSome_iff_exists.1 (List.find?_isSome.2 ⟨x, hx, hcls⟩)
  have hhas : r.hasFly (fun f => decide (f.cls = k)) = true := by
    rw [Run.hasFly, List.any_eq_true]
    exact ⟨x, List.mem_of_find?_eq_some hx, by simpa using List.find?_some hx⟩
  obtain ⟨v, hv⟩ : ∃ v, v = (s.at t).modArr a.val fun x =>
      x.modFirst (fun r => r.hasFly fun f => decide (f.cls = k)) fun r => r.land (fun f => decide (f.cls = k)) (s.at t).now := ⟨_, rfl⟩
  have hvarr : v.arrAt a.val = { s.arrAt a.val with run := some (r.land (fun f => decide (f.cls = k)) (s.at t).now) } := by
    rw [hv, State.arrAt_modArr a.isLt, if_pos rfl, State.arrAt_at, Arr.modFirst, hrun]
    exact if_pos hhas
  have hvparts : Within [.arr, .clock] s v := hv ▸ ((s.at_within t).mono (by decide)).step (State.modArr_within _ _ _) (by decide)
  obtain ⟨hb, he, hw⟩ := r.land_free (fun f => decide (f.cls = k)) (s.at t).now ⟨hblock, hending, hrewind⟩
  have hland : (s.at t).land a.val (fun f => decide (f.cls = k)) = v.showRun a.val := by
    unfold State.land
    extract_lets y
    have hy : y = v.showRun a.val := by
      rw [← State.progress_of_running (congrArg Arr.run hvarr) hb he hw, hv]
    rw [hy, State.showRun_arrAt, hvarr, hsusp]
    rfl
  have hnow : (v.showRun a.val).now = (s.at t).now := by
    rw [State.showRun_now, hv]
    rfl
  rw [hland]
  have hother (b : Nat) (hne : b ≠ a.val) : v.arrAt b = s.arrAt b := by rw [hv, State.arrAt_modArr a.isLt, if_neg hne, State.arrAt_at]
  refine ⟨?_, ?_, fun b hb => ?_, (hvparts.mono (by decide)).step (State.showRun_within _ _) (by decide), fun i j hj hk => ?_⟩
  · rw [State.showRun_arrAt, hnow, hvarr]
  · have hu : (v.showRun a.val).inFlight a.val k = (r.fly.erase x).countP fun f => decide (f.cls = k) := by
      simp [State.inFlight, State.listsOf, State.showRun_arrAt, hvarr, hsusp, Run.land_fly hx, List.countP_eq_length_filter]
    have hcls : (fun f : Fly => decide (f.cls = k)) x = true := by simpa using List.find?_some hx
    rw [hu, hflight, (List.perm_cons_erase (List.mem_of_find?_eq_some hx)).countP_eq, List.countP_cons_of_pos (p := fun f : Fly => decide (f.cls = k)) hcls]
  · rw [State.showRun_arrAt, hother _ (by simpa using hb)]
  · rw [State.showRun_objsBut _ _ _ _ hj hk, State.obj, State.obj, hvparts .dict (by decide)]

theorem State.frozen_at (s : State) (t : Nat) : (s.at t).frozen = s.frozen := by
  obtain ⟨k, h⟩ := s.at_eq t
  rw [h]
  rfl

/-! ## What the moved bytes read as -/

section
variable {f : Arr → Arr} {y : Fly} {bs : Bytes} {b m : Nat}

theorem State.PairCue.all_twins (h : s.PairCue a.val r y f u) {p : Nat → Bool}
    (hp : ∀ b ∈ s.twins a.val, u.arrAt b = { f (s.arrAt b) with run := (u.arrAt b).run } → p b = true) : (s.twins a.val).all p = true := by
  refine List.all_eq_true.2 fun b hb => hp b hb ?_
  have hu := h.arr b
  rwa [if_pos hb] at hu

theorem State.PairCue.shelf_read (h : s.PairCue a.val r y (fun z => z.shelved m bs) u)
    (hform : ((s.twins a.val).all fun b => Sparse.wf memDefault (s.arrAt b).shelf) = true) :
    ((s.twins a.val).all fun b => decide (Sparse.readList memDefault (u.arrAt b).shelf m bs.length = bs)) = true := by
  refine h.all_twins fun b hb hu => decide_eq_true ?_
  rw [hu]
  exact Sparse.readList_writeList (List.all_eq_true.1 hform b hb)

theorem State.PairCue.shelf_rest (h : s.PairCue a.val r y (fun z => z.shelved m bs) u) (b : Nat) :
    u.arrAt b = { s.arrAt b with run := (u.arrAt b).run, shelf := (u.arrAt b).shelf } ∧
      SparseBut memDefault (fun z => decide (m ≤ z) && decide (z < m + bs.length)) (s.arrAt b).shelf (u.arrAt b).shelf := by
  have hu := h.arr b
  by_cases hb : b ∈ s.twins a.val
  · rw [if_pos hb] at hu
    refine ⟨by rw [hu]; rfl, fun z hz => ?_⟩
    rw [hu]
    refine Sparse.read_writeList_out ?_
    simp at hz
    omega
  · rw [if_neg hb] at hu
    exact ⟨by rw [hu], fun z _ => by rw [hu]⟩

theorem wordsOf_length (bs : Bytes) (n : Nat) : (wordsOf bs n).length = n := by
  induction n generalizing bs with
  | zero => rfl
  | succ n ih => rw [wordsOf, List.length_cons, ih]

theorem State.PairCue.table_read {l : List Nat} (h : s.PairCue a.val r y (fun z => z.tabled m l) u)
    (hform : ((s.twins a.val).all fun b => Sparse.wf (fun _ => 0) (s.arrAt b).tg8) = true) :
    ((s.twins a.val).all fun b => decide (Sparse.readList (fun _ => 0) (u.arrAt b).tg8 (m * 256) l.length = l)) = true := by
  refine h.all_twins fun b hb hu => decide_eq_true ?_
  rw [hu]
  exact Sparse.readList_writeList (List.all_eq_true.1 hform b hb)

theorem State.PairCue.table_rest {l : List Nat} (h : s.PairCue a.val r y (fun z => z.tabled m l) u) (hl : l.length = 256) (b : Nat) :
    u.arrAt b = { s.arrAt b with run := (u.arrAt b).run, tg8 := (u.arrAt b).tg8 } ∧
      SparseBut (fun _ => 0) (fun z => z / 256 == m) (s.arrAt b).tg8 (u.arrAt b).tg8 := by
  have hu := h.arr b
  by_cases hb : b ∈ s.twins a.val
  · rw [if_pos hb] at hu
    refine ⟨by rw [hu]; rfl, fun z hz => ?_⟩
    rw [hu]
    refine Sparse.read_writeList_out ?_
    simp at hz
    omega
  · rw [if_neg hb] at hu
    exact ⟨by rw [hu], fun z _ => by rw [hu]⟩

theorem linesOf_whole (n : Nat) : linesOf (n * 64) = n := by
  unfold linesOf
  omega

theorem State.PairCue.wings_read (h : s.PairCue a.val r y (fun z => z.plain m bs) u) (n : Nat) (hn : bs.length = n * 64)
    (hform : ((s.twins a.val).all fun b => Sparse.wf (s.arrAt b).wingDef (s.arrAt b).wings && Sparse.wf (s.arrAt b).tagDef (s.arrAt b).tags) = true) :
    ((s.twins a.val).all fun b => decide (u.wings b (m * 64) (n * 64) = bs) &&
      (List.range n).all fun k => decide (u.tag b (m + k) = 0)) = true := by
  refine h.all_twins fun b hb hu => ?_
  obtain ⟨hwings, htags⟩ := Bool.and_eq_true_iff.1 (List.all_eq_true.1 hform b hb)
  refine Bool.and_eq_true_iff.2 ⟨decide_eq_true ?_, List.all_eq_true.2 fun k hk => decide_eq_true ?_⟩
  · rw [State.wings, hu, ← hn]
    exact Sparse.readList_writeList hwings
  · have hlen : k < (List.replicate (linesOf bs.length) 0).length := by
      rw [List.length_replicate, hn, linesOf_whole]
      exact List.mem_range.1 hk
    rw [State.tag, hu]
    exact (Sparse.read_writeList_in htags hlen).trans (List.getElem_replicate _)

theorem State.PairCue.wings_rest (h : s.PairCue a.val r y (fun z => z.plain m bs) u) (n : Nat) (hn : bs.length = n * 64) (b : Nat) :
    u.arrAt b = { s.arrAt b with run := (u.arrAt b).run, wings := (u.arrAt b).wings, tags := (u.arrAt b).tags } ∧
      SparseBut (s.arrAt b).wingDef (fun z => decide (m * 64 ≤ z) && decide (z < m * 64 + n * 64)) (s.arrAt b).wings (u.arrAt b).wings ∧
      SparseBut (s.arrAt b).tagDef (fun z => decide (m ≤ z) && decide (z < m + n)) (s.arrAt b).tags (u.arrAt b).tags := by
  have hu := h.arr b
  by_cases hb : b ∈ s.twins a.val
  · rw [if_pos hb] at hu
    refine ⟨by rw [hu]; rfl, fun z hz => ?_, fun z hz => ?_⟩
    · rw [hu]
      refine Sparse.read_writeList_out ?_
      simp at hz
      omega
    · rw [hu]
      refine Sparse.read_writeList_out ?_
      rw [List.length_replicate, hn, linesOf_whole]
      simp at hz
      omega
  · rw [if_neg hb] at hu
    exact ⟨by rw [hu], fun z _ => by rw [hu], fun z _ => by rw [hu]⟩

theorem State.PairCue.stands (h : s.PairCue a.val r y f u) (hr : s.issuing a.val = some r)
    (hsusp : (u.arrAt a.val).susp = (s.arrAt a.val).susp) :
    u.stand a.val = some (r.pos.next, r.pos, .none) ∧ u.inFlight a.val y.cls = s.inFlight a.val y.cls + 1 := by
  obtain ⟨hblock, -, -⟩ := State.issuing_free hr
  refine ⟨?_, State.inFlight_of_flown (x := y) (State.issuing_run hr) rfl h.run hsusp⟩
  rw [State.stand, h.run]
  exact congrArg (fun k => some (r.pos.next, r.pos, k)) hblock

end

end

/-- Settles O35: each cue through the issue rule of its effect, the moved bytes through the reads of a written range. -/
theorem moveCues : Obligations.MoveCues := by
  unfold Obligations.MoveCues
  refine ⟨?_, ?_, ?_, ?_, ?_, ?_, ?_, ?_, ?_, ?_, ?_, ?_, ?_, ?_, ?_, ?_⟩
  · intro s a c t r hr hm hgoes hform
    obtain ⟨u, hu, hmoved, hnext⟩ := nop_goes hr hm hgoes hform
    exact ⟨u, hu, hmoved.arr, hmoved.rest, hnext, hmoved.parts, hmoved.objs⟩
  · intro s a c t r hr hm hlast hfly hring hskip hdead hform
    obtain ⟨u, hu, hgone, hpassed, hcount, hshown, hrest, hparts, hobjs⟩ := nop_ends hr hm hlast hfly hring hskip hdead hform
    exact ⟨u, hu, hgone, hpassed, hcount, hshown, hrest, hparts, hobjs⟩
  · exact fun s a c t h => ⟨_, congrArg Host.Outcome.next (State.issue_other h), s.at_within t⟩
  · intro s a c t r hr hm hkind hring x hx src hsrc hread y hy hform
    obtain ⟨u, hu, hcue⟩ := shelve_rows hr hm hkind hring hx hsrc hread hy
    have hlen : (s.memRead src (fld (w (s.cueWords a.val r) 3) 11 0 * 256)).length = fld (w (s.cueWords a.val r) 3) 11 0 * 256 :=
      Sparse.readList_length
    have hshelf := hcue.shelf_read hform
    have hrest (b : Nat) := hcue.shelf_rest b
    rw [hlen] at hshelf
    simp only [hlen] at hrest
    exact ⟨u, hu, hshelf, fun b => hrest b.val, hcue.rest, hcue.run, hcue.parts, hcue.objs⟩
  · intro s a c t r hr hm hkind hring x hx src hsrc hread hform
    obtain ⟨u, hu, hcue⟩ := shelve_table hr hm hkind hring hx hsrc hread
    have htable := hcue.table_read hform
    rw [wordsOf_length] at htable
    obtain ⟨hstand, hflight⟩ := hcue.stands hr (by rw [(hcue.table_rest (wordsOf_length _ _) a.val).1])
    exact ⟨u, hu, htable, fun b => hcue.table_rest (wordsOf_length _ _) b.val, hcue.rest, hstand, hflight, hcue.parts, hcue.objs⟩
  · exact fun s a c t h => ⟨_, congrArg Host.Outcome.next (State.issue_other h), s.at_within t⟩
  · intro s a c t r hr hm hdir x hx l hl n hn hread hform
    obtain ⟨u, hu, hcue⟩ := stage_toWings hr hm hdir hx hl hn hread
    exact ⟨u, hu, hcue.wings_read _ Sparse.readList_length hform, fun b => hcue.wings_rest _ Sparse.readList_length b.val, hcue.rest, hcue.run,
      hcue.parts, hcue.objs⟩
  · intro s a c t r hr hm hdir x hx l hl n hn hwrite hform
    obtain ⟨u, hu, hread, hbytes, harr, hrest, hstand, hflight, hparts, hobjs⟩ := stage_toStacks hr hm hdir hx hl hn hwrite hform
    exact ⟨u, hu, hread, hbytes, harr, hrest, hstand, hflight, hparts, hobjs⟩
  · intro s a c t r hr hm hdir x hx l hl d hd hform
    obtain ⟨u, hu, hcue⟩ := stage_wingsToWings hr hm hdir hx hl hd
    have hrest (b : Nat) := hcue.wings_rest _ Sparse.readList_length b
    obtain ⟨hstand, hflight⟩ := hcue.stands hr (by rw [(hrest a.val).1])
    exact ⟨u, hu, hcue.wings_read _ Sparse.readList_length hform, fun b => ⟨(hrest b.val).1, (hrest b.val).2.1⟩, hcue.rest, hstand, hflight,
      hcue.parts, hcue.objs⟩
  · exact fun s a c t h => ⟨_, congrArg Host.Outcome.next (State.issue_other h), s.at_within t⟩
  · intro s a c t r hr hm hgoes
    obtain ⟨u, hu, hmoved⟩ := swap_exchanges hr hm hgoes
    exact ⟨u, hu, hmoved.all⟩
  · exact fun s a c t h => ⟨_, congrArg Host.Outcome.next (State.issue_other h), s.at_within t⟩
  · intro s a t hfrozen hclear hflying r hrun hending hsusp
    obtain ⟨harr, hflight, hrest, hparts, hobjs⟩ := State.land_lands (t := t) hclear hflying hrun hending hsusp
    exact ⟨_, if_neg (by rw [State.frozen_at, hfrozen]; decide), harr, hflight, hrest, hparts, hobjs⟩
  · exact fun s a t h => ⟨_, if_pos ((s.frozen_at t).trans h), s.at_within t⟩
  · intro s a t hfrozen hclear hflying r hrun hending hsusp
    obtain ⟨harr, hflight, hrest, hparts, hobjs⟩ := State.land_lands (t := t) hclear hflying hrun hending hsusp
    exact ⟨_, if_neg (by rw [State.frozen_at, hfrozen]; decide), harr, hflight, hrest, hparts, hobjs⟩
  · exact fun s a t h => ⟨_, if_pos ((s.frozen_at t).trans h), s.at_within t⟩

end Sys2Proof.Machine
